-- ==== Sys2Proof/Word.lean ====
section
/-! DEFINITION. The word types: a register's data half, a window dword, a byte, a microword, a descriptor. -/

namespace Sys2Proof

/-- The data half [15:0] of a register (R5). -/
abbrev Word := BitVec 16
/-- A dword of a table window (R5). -/
abbrev Dword := BitVec 32
abbrev Byte := BitVec 8
/-- A microword (R54). -/
abbrev Micro := BitVec 192
/-- A descriptor of 16 bytes (R87, R218). -/
abbrev Desc := BitVec 128

end Sys2Proof
end

