-- ==== Sys2Proof/Syntax.lean ====
section
/-! DEFINITION. The commands the part takes: one constructor for each row of the opcode table, with the types of
their operands. Instances are bounded by their types; addresses, masks and data are not. -/

namespace Sys2Proof

/-- The masters of the register fabric (R33, R35). -/
inductive Master where
  | pcie
  | spx1
  | boot
  | qseq (q : Fin 16)
  | cal
  deriving DecidableEq, Repr

/-- An event slot of a Lace frame, or a received one (Table 11-4): its place, whether it is occupied and its CRC is
good, and its fields. `eff` has 32 bits, 64 for EPOCH. -/
structure LaceSlot where
  k : Nat
  good : Bool
  type : Nat
  copy : Bool
  orig : Nat
  eseq : Nat
  num : Nat
  arg : Nat
  eff : Nat
  deriving DecidableEq, Repr

/-- What phase 2 of a survey measures in a part (R257), in TDC LSB: the echo round trips timed by T00, the echo latency
that the next part reports, the DI-to-DO latencies timed by T01. -/
structure SurveyDelays where
  rtts : List Nat := []
  echo : Nat := 0
  relays : List Nat := []
  deriving DecidableEq, Repr

/-- What a survey found outside the part (R257, R258): whether it failed (frames that do not return; on a member, that it
learns so), the measured loop delay and the hop delays that the other parts report. -/
structure SurveyResult where
  err : Bool
  loop : Nat
  hops : List Nat
  /-- Master: (position, CHIP_ID, ALIGNED) of the parts on the ring. -/
  roster : List (Nat × Nat × Bool)
  /-- Chips that come to the ring anew: their sequence numbers start afresh. -/
  rejoined : List Nat
  deriving DecidableEq, Repr

/-- What one channel's calibration slot measured (R295, R296): level samples above the threshold, transitions, samples
that show the new bit. -/
structure CalResult where
  ch : Nat
  above : Nat
  trans : Nat
  early : Nat
  deriving DecidableEq, Repr

/-- One PPMU entry's interval in a patrol cycle (R341): its entry and the sum of its N samples. -/
structure PatrolPpmu where
  k : Nat
  sum : Int
  deriving DecidableEq, Repr

/-- What the host sets in the function's PCI Express configuration (Table 2-8, R52): the MSI-X enable, the MSI-X
function mask, D3hot, ECRC generation and check. -/
structure PcieConfig where
  msixEnable : Bool := false
  functionMask : Bool := false
  d3hot : Bool := false
  ecrcGen : Bool := false
  ecrcCheck : Bool := false
  deriving DecidableEq, Repr

/-- What a boot step finds outside the part (R277, R380, R384): the flash's content, the fall-back of the read
path, the section whose read from HBM is uncorrectable (0xFF: the header), and the image's assignment of channels to
local sites (R14), for which the spec names no section: (channel, site); a channel not listed has no site; and the units
in whose reads a head build of step 8 finds an error (R86, R98). -/
structure BootFacts where
  flash : List Byte := []
  fallback : Bool := false
  ue : Option Nat := none
  sites : List (Nat × Fin 8) := []
  heads : List (Nat × Fin 3) := []
  deriving DecidableEq, Repr

/-- The commands. -/
inductive Instr where
  /-- R34: one dword `v` (mask in its upper half) with byte enables `be`; also what any other write of the fabric is. -/
  | registerWrite (m : Master) (addr : Nat) (be : BitVec 4) (v : Dword)
  /-- R38: `pstat`: address of the block's PSTAT. -/
  | postedWriteDelivery (pstat : Nat)
  /-- R36. -/
  | readClear (m : Master) (addr : Nat)
  /-- R46. -/
  | latchedRead (m : Master) (addr : Nat)
  /-- R46. -/
  | evcCntLRead (m : Master) (n : Fin 64)
  /-- R41: `u`: quarter, or 16 for the chip's unit. -/
  | txnBegin (m : Master) (u : Fin 17)
  /-- R41: `c`: the CMODE that the same write sets, if any, and the changes of the site assignment that the transaction
  holds, by local channel (R14; the spec names no register for them). -/
  | txnCommit (m : Master) (u : Fin 17) (c : Option (Fin 8) × List (Fin 64 × Option (Fin 8)))
  /-- R41: `u`: quarter, or 16 for the chip's unit. -/
  | txnRollback (m : Master) (u : Fin 17)
  /-- R43: `u`: quarter, or 16 for the chip's unit. -/
  | txnCommitMoment (u : Fin 17)
  /-- R43: `pstat`: address of the block's PSTAT. -/
  | txnDeferredPostedApply (pstat : Nat)
  /-- R45. -/
  | evcClr (m : Master) (n : Fin 64)
  /-- R45. -/
  | evcClearAll (m : Master)
  /-- R47. -/
  | evcSnapNow (m : Master)
  /-- R49: bytes from HBM byte address `addr`. -/
  | bar2Write (addr : Nat) (bytes : List Byte)
  /-- R49: `n` dwords from `addr`; `ecc`: what the read of the first unit finds, 0 no error, 1 corrected, 2 uncorrectable. -/
  | bar2Read (addr n : Nat) (ecc : Fin 3)
  /-- R321: `gate`: a clock gate was deferred for it. -/
  | fabricAccessTimeout (m : Master) (write gate : Bool) (addr : Nat)
  /-- R335. -/
  | quarterWake (m : Master) (write : Bool) (addr : Nat) (be : BitVec 4) (v : Dword)
  /-- R335. -/
  | quarterSettleEnd (q : Fin 16)
  /-- R51. -/
  | functionLevelReset
  /-- R51. -/
  | linkDown
  /-- R51: the SPEED and WIDTH that LINK_STAT shows, and the configuration that the host then gives the function. -/
  | linkUp (link : Fin 16 × Fin 16) (cfg : PcieConfig)
  /-- R52: `w`: the vector whose mask the host clears; none: the function mask. -/
  | msixVectorUnmask (w : Option (Fin 2048))
  /-- R55: dword `j` of microword `a`. -/
  | controlStoreWrite (m : Master) (q : Fin 16) (a : Fin 16384) (j : Fin 8) (be : BitVec 4) (v : Dword)
  /-- R56. -/
  | controlStoreScrub (q : Fin 16)
  /-- R62. -/
  | next (q : Fin 16)
  /-- R62. -/
  | jmp (q : Fin 16)
  /-- R65. -/
  | jcond (q : Fin 16)
  /-- R62. -/
  | call (q : Fin 16)
  /-- R62. -/
  | ret (q : Fin 16)
  /-- R69. -/
  | loopb (q : Fin 16)
  /-- R62. -/
  | loope (q : Fin 16)
  /-- R71. -/
  | waittrg (q : Fin 16)
  /-- R72. -/
  | waitmark (q : Fin 16)
  /-- R72. -/
  | sync (q : Fin 16)
  /-- R62. -/
  | commit (q : Fin 16)
  /-- R272. -/
  | pxfer (q : Fin 16)
  /-- R62. -/
  | tarm (q : Fin 16)
  /-- R294. -/
  | calwin (q : Fin 16)
  /-- R73. -/
  | hold (q : Fin 16)
  /-- R62. -/
  | halt (q : Fin 16)
  /-- R59. -/
  | welt (q : Fin 16)
  /-- R408. -/
  | exitDecisionPoint (q : Fin 16)
  /-- R70. -/
  | stallExit (q : Fin 16)
  /-- R71. -/
  | waitTimeout (q : Fin 16)
  /-- R106. -/
  | refillJobIssue (q : Fin 16)
  /-- R106. -/
  | refillHoldExit (q : Fin 16)
  /-- R79: `mode`: the START_MODE that the same write sets, if any. -/
  | qseqStart (m : Master) (q : Fin 16) (mode : Option (Fin 4))
  /-- R79. -/
  | qseqStop (m : Master) (q : Fin 16)
  /-- R80. -/
  | qseqDisable (m : Master) (q : Fin 16)
  /-- R73. -/
  | qseqRelease (m : Master) (q : Fin 16)
  /-- R64. -/
  | qseqLatchReset (m : Master) (q : Fin 16)
  /-- R82. -/
  | qseqCntClr (m : Master) (q : Fin 16)
  /-- R79. -/
  | startMoment (q : Fin 16)
  /-- R64. -/
  | flagSet (m : Master) (q : Fin 16) (mask data : Word)
  /-- R64. -/
  | flagClr (m : Master) (q : Fin 16) (mask data : Word)
  /-- R64: `trg`: the latch of a TRIG_IN or GATE edge, 0x01 to 0x18. -/
  | triggerLatchSet (trg : Fin 256)
  /-- R102: `samples`: for each local channel and each compare of the granule, what its node did at each sampled instant:
  the voltages since its last sample, in codes of 250 µV about 0x8000, the one at the instant last. -/
  | granuleBoundary (q : Fin 16) (samples : List (Nat × List (List (List Int))))
  /-- R86: the oldest unit requested; `ecc`: what the read finds. -/
  | hbmReadComplete (q : Fin 16) (ecc : Fin 3)
  /-- R98. -/
  | headBuild (m : Master) (q : Fin 16)
  /-- R98: of a quarter, with the units in whose reads an error was found and what was. -/
  | headBuildComplete (b : Fin 16 × List (Nat × Fin 3))
  /-- R105. -/
  | memRdyWrite (m : Master) (k : Fin 2048) (mask data : Word)
  /-- R103: `size`: WINn_SIZE, else WINn_BASE. -/
  | winWrite (m : Master) (n : Fin 16) (size : Bool) (mask data : Word)
  /-- R85: `ecc`: what the read finds. -/
  | hbmScrub (stackB : Bool) (ecc : Fin 3)
  /-- R83. -/
  | hbmTrainingComplete (ok : Bool)
  /-- R116: dword `j` of the entry of set `set`, channel `c`. -/
  | timingSetWrite (m : Master) (q : Fin 16) (set : Fin 32) (c : Fin 64) (j : Fin 16) (be : BitVec 4) (v : Dword)
  /-- R126. -/
  | ftwHWrite (m : Master) (c : Fin 1024) (mask data : Word)
  /-- R136: on channel `c`; `node`: its node's voltages since the last sample, as in R102; `amps`: its PPMU current as a
  code of the range; `clamp`: a PPMU clamp conducts; `within`: PCLK for which the ball has been inside the OVD window, 0
  outside. -/
  | dclkEdge (c : Fin 1024) (node : List Int) (amps : Int) (clamp : Bool) (within : Nat)
  /-- R145. -/
  | ovdTrip (c : Fin 1024) (high : Bool)
  /-- R146. -/
  | discEnd (c : Fin 1024)
  /-- R146. -/
  | protReconnect (c : Fin 1024)
  /-- R139. -/
  | stageChangeComplete (c : Fin 1024)
  /-- R147. -/
  | drvCtrlWrite (c : Fin 1024) (mask data : Word)
  /-- R149. -/
  | lqPush (c : Fin 1024) (code : Word)
  /-- R149. -/
  | lqClr (c : Fin 1024)
  /-- R150. -/
  | lqSample (c : Fin 1024)
  /-- R163. -/
  | pmuMeasStart (c : Fin 1024)
  /-- R164. -/
  | pmuMeasStop (c : Fin 1024)
  /-- R160. -/
  | pmuRangeChangeStep (c : Fin 1024)
  /-- R162: converter `a`; `v`: the sample in the scale of RES; `lim`: it reached a converter limit. -/
  | pmuAdcSlot (a : Fin 64) (v : Int) (lim : Bool)
  /-- R164. -/
  | pmuIntervalEnd (c : Fin 1024)
  /-- R172: the voltage and the current that the inputs change to, in the scales of V_RES and I_RES. -/
  | sgTrip (n : Fin 64) (x : Int × Int)
  /-- R170: comparator `k`. -/
  | sgBlankExpiry (n : Fin 64) (k : Fin 5)
  /-- R171. -/
  | sgGonBlankEnd (n : Fin 64)
  /-- R172. -/
  | sgTripClr (n : Fin 64)
  /-- R176: the period's conversions, in the scales of V_RES and I_RES. -/
  | sgPeriodEnd (n : Fin 64) (vs is : List Int)
  /-- R196. -/
  | ledgerCheck (m : Master)
  /-- R194. -/
  | ledgerWindowEnd
  /-- R200: `ms`: (scope * 8 + group, mA) measured; `bad`: those whose sensor failed. -/
  | ledgerSensorResult (ms : List (Nat × Nat)) (bad : List Nat)
  /-- R301. -/
  | maintenanceGrant
  /-- R215. -/
  | recordWriteSlot (q : Fin 16)
  /-- R219: the write `v` of dword 3. -/
  | ringEnable (m : Master) (r : Fin 65536) (v : Dword)
  /-- R219: the write `v` of dword 3. -/
  | ringDisable (m : Master) (r : Fin 65536) (v : Dword)
  /-- R219: the write `v` of dword 3. -/
  | ringParamUpdate (m : Master) (r : Fin 65536) (v : Dword)
  /-- R221: `ecc`: what the read of the record finds. -/
  | ringPumpGrant (ecc : Fin 3)
  /-- R222: `cons`: CONS as read from host memory. -/
  | ringConsPoll (r : Fin 65536) (cons : BitVec 32)
  /-- R223. -/
  | ringCoalesceTimeout (r : Fin 65536)
  /-- R224. -/
  | dmaError (r : Fin 65536) (write : Bool)
  /-- R231. -/
  | tdcArm (m : Master) (u : Fin 64)
  /-- R234. -/
  | tdcDisarm (m : Master) (u : Fin 64)
  /-- R231: `d`: PCLK from the edge to the synchronised event, for a ball. -/
  | tdcArmSource (u : Fin 64) (d : Nat)
  /-- R233: `fine`: LSB of the event into this PCLK. -/
  | tdcStartEvent (u : Fin 64) (fine : Nat)
  /-- R233: `fine`: LSB of the event into this PCLK. -/
  | tdcStopEvent (u : Fin 64) (fine : Nat)
  /-- R234: `d`: PCLK from the edge to the synchronised event. -/
  | tdcGateClose (u : Fin 64) (d : Nat)
  /-- R234. -/
  | tdcTimeout (u : Fin 64)
  /-- R234. -/
  | tdcRangeLimit (u : Fin 64)
  /-- R236. -/
  | tdcResultWrite (u : Fin 64)
  /-- R239. -/
  | dllLockLost (q : Fin 16)
  /-- R239. -/
  | tdcRelock (m : Master) (mask data : Word)
  /-- R240. -/
  | dllRelockComplete (q : Fin 16)
  /-- R238. -/
  | xoPullStep
  /-- R250. -/
  | laceFrameStart
  /-- R250: the arrival of its SOF, in PCLK and LSB, the frame number and fields of its SOF, its slots, and what phase 2 of
  a survey has measured here when it ends. -/
  | laceFrameReceive (sof : Nat × Nat) (fn hop : Nat) (survey : Bool) (acc : Nat) (sofOk : Bool) (slots : List LaceSlot)
      (delays : SurveyDelays)
  /-- R251. -/
  | laceTrigEffect
  /-- R251. -/
  | laceMarkEffect
  /-- R251. -/
  | laceStartEffect
  /-- R255. -/
  | laceHoldEffect
  /-- R255. -/
  | laceReleaseEffect
  /-- R260. -/
  | laceEpochEffect
  /-- R252. -/
  | laceSendGo (m : Master)
  /-- R252. -/
  | laceStartSend (m : Master)
  /-- R259. -/
  | laceEpochNow (m : Master)
  /-- R259. -/
  | laceEpochDue
  /-- R257. -/
  | laceSurvey (m : Master)
  /-- R258. -/
  | laceSurveyComplete (r : SurveyResult)
  /-- R257. -/
  | surveyBorrowTimeout
  /-- R261. -/
  | laceDetach (m : Master)
  /-- R250. -/
  | ringLost
  /-- R272: `ssel`: the SSEL that the same write sets, if any. -/
  | peStart (m : Master) (n : Fin 16) (ssel : Option (Fin 16))
  /-- R272: of a port, with SCK's level then (R268). -/
  | peSelectAssert (x : Fin 16 × Bool)
  /-- R269: `bits`: the data bits received; `cycles`: the SCK cycles of the unit. -/
  | peSelectRelease (n : Fin 16) (bits : List Bool) (cycles : Nat)
  /-- R269: `bits`: the data bits received; `cycles`: the SCK cycles of the unit. -/
  | peIdleTimeout (n : Fin 16) (bits : List Bool) (cycles : Nat)
  /-- R274: port 16 is SPX0; `bits`: the data bits received; `busy`: the busy beats before the data. -/
  | peUnitEnd (n : Fin 17) (bits : List Bool) (busy : Nat)
  /-- R274: port 16 is SPX0. -/
  | peDone (n : Fin 17)
  /-- R269: port 16 is SPX0. -/
  | peTxAdd (m : Master) (n : Fin 17) (k : Fin 1024)
  /-- R280: the command byte, the address and how many dwords begin. -/
  | spx1Read (cmd : Byte) (addr n : Nat)
  /-- R281: the command byte, the address and the complete dwords. -/
  | spx1Write (cmd : Byte) (addr : Nat) (vs : List Dword)
  /-- R283: `extra`: SCK went on past the dword. -/
  | spx1Status (cmd : Byte) (extra : Bool)
  /-- R281. -/
  | spx1WriteApply
  /-- R280: `bits`: bits of the dword in progress that have gone. -/
  | spx1SelectRelease (bits : Fin 33)
  /-- R269: `bits`: bits of the dword in progress. -/
  | spx1IdleTimeout (bits : Fin 32)
  /-- R292. -/
  | nvmStore
  /-- R292: `ok`: the read-back matches. -/
  | nvmStoreComplete (ok : Bool)
  /-- R293. -/
  | nvmLoad
  /-- R293. -/
  | nvmLoadComplete
  /-- R295. -/
  | calSlotEnd (q : Fin 16) (rs : List CalResult)
  /-- R298. -/
  | calAgeLimit (c : Fin 1024)
  /-- R301. -/
  | calSessionRequest (m : Master) (q : Fin 16)
  /-- R307. -/
  | xoStartDelayEnd
  /-- R306: `k`: 0 XO, 1 RCO, 2 LACE, 3 SKO. -/
  | clockSourceReady (k : Fin 4)
  /-- R314: `k`: 0 XO, 1 RCO, 2 LACE, 3 SKO, 4 main PLL, 5 interface PLL. -/
  | clockMonitorTrip (k : Fin 6)
  /-- R318. -/
  | clockHoldExit
  /-- R318. -/
  | clockHoldTimeout
  /-- R308: `up`: the RCO is below its reference. -/
  | rcoTrimStep (up : Bool)
  /-- R310. -/
  | pllLock
  /-- R311. -/
  | interfacePllLock
  /-- R316. -/
  | clkSrcWrite (m : Master) (mask data : Word)
  /-- R317. -/
  | pllRefSwitchComplete
  /-- R329. -/
  | powerReqRun
  /-- R329. -/
  | powerReqHold
  /-- R329. -/
  | powerReqNap
  /-- R329. -/
  | powerReqPatrol
  /-- R329. -/
  | powerReqShank
  /-- R330. -/
  | powerEntryComplete
  /-- R330. -/
  | powerExitComplete
  /-- R333. -/
  | wakeEvent (bit : Fin 7)
  /-- R333. -/
  | shankTimerExpiry
  /-- R326. -/
  | qoff (mask data : Word)
  /-- R335. -/
  | qon (mask data : Word)
  /-- R341: the sensors' readings, the PPMU intervals and the length of the cycle in PCLK. -/
  | patrolCycle (ts : List Int) (ps : List PatrolPpmu) (dur : Nat)
  /-- R337. -/
  | pgoodLost
  /-- R337. -/
  | vidTimeout
  /-- R339. -/
  | padHoldRelease
  /-- R344: one reading per sensor, none where the conversion failed. -/
  | thmReading (rs : List (Option Int))
  /-- R343: `high`: BROKEN_CLR_H, else BROKEN_CLR_L. -/
  | brokenClr (m : Master) (high : Bool) (mask data : Word)
  /-- R347. -/
  | backstopTrip
  /-- R398. -/
  | supplyDipReset
  /-- R354. -/
  | faultEvent
  /-- R356. -/
  | faultWindowExpiry (src : Fin 512)
  /-- R360. -/
  | faultQuietExpiry (x : Fin 225)
  /-- R362. -/
  | faultRclr (m : Master) (x : Fin 225)
  /-- R355. -/
  | safeReq (m : Master)
  /-- R366: `ups`: upsets since the last scrub: address, copy, bits. -/
  | votedFieldScrub (ups : List (Nat × Nat × Word))
  /-- R367. -/
  | feSrcRead (m : Master)
  /-- R397: the straps as STRAP shows them; `gib32`: the part carries 32 GiB, else 16 GiB. -/
  | powerOnReset (straps : Word) (gib32 : Bool)
  /-- R375: `low`: length of the low pulse in PCLK. -/
  | resetN (straps : Word) (low : Nat)
  /-- R375. -/
  | perstN
  /-- R376. -/
  | warmReset (m : Master)
  /-- R376. -/
  | coldReset (m : Master)
  /-- R376. -/
  | fullReset (m : Master)
  /-- R382. -/
  | bootGo (m : Master) (src : Fin 4)
  /-- R382. -/
  | bootHdataHWrite (m : Master) (v : Word)
  /-- R380. -/
  | bootStepOverBudget
  /-- R381. -/
  | bootSurveyRetry
  /-- R381. -/
  | bootStartSend
  /-- R381. -/
  | bootNoRing
  /-- R406: the code in the instruction register: BYPASS or an unlisted one. -/
  | tapBypass (code : BitVec 6)
  /-- R406. -/
  | tapIdcode
  /-- R406: the balls' levels and the bits preloaded. -/
  | tapSamplePreload (pins preload : Nat)
  /-- R406. -/
  | tapExtest
  /-- R406. -/
  | tapHighz
  /-- R380: what the step found. -/
  | bootStepComplete (f : BootFacts)
  /-- R335. -/
  | biasSettled (q : Fin 16)
  /-- R39. -/
  | votedFieldRead (m : Master) (addr : Nat)
  /-- R398. -/
  | vsgLost
  deriving DecidableEq, Repr

end Sys2Proof
end

