-- ==== Sys2Proof/WellFormed.lean ====
section
/-! DEFINITION. Which operands a command may carry beyond their types: what the surroundings can send or show. -/

namespace Sys2Proof

/-- A dword address of BAR0's 24-bit space (R33). -/
def busAddrOk (a : Nat) : Bool := a < 2 ^ 24 && a % 4 = 0

/-- The address of a PSTAT: CLK, PWR, NVM, an SG channel, a pin channel (R37). -/
def pstatOk (p : Nat) : Bool :=
  p = 0x13FC || p = 0x23FC || p = 0x583FC || (0x70000 ≤ p && p < 0x80000 && p % 0x400 = 0x3FC) ||
    (0x100000 ≤ p && p < 0x200000 && 0x8000 ≤ p % 0x10000 && p % 0x200 = 0x1FC)

/-- A signed value of `w` bits. -/
def signedOk (w : Nat) (v : Int) : Bool := -(2 ^ (w - 1) : Int) ≤ v && v < 2 ^ (w - 1)

/-- An event slot as its fields hold it (Table 11-4): EFF has 32 bits, for EPOCH 64. -/
def slotOk (x : LaceSlot) : Bool :=
  x.type < 16 && x.orig < 64 && x.eseq < 256 && x.num < 2 ^ 16 && x.arg < 32 &&
    x.eff < (if x.type = 7 then 2 ^ 64 else 2 ^ 32)

/-- The slots of a frame stand in rising order of their places. -/
def slotsOk : List LaceSlot → Bool
  | [] => true
  | [x] => slotOk x
  | x :: y :: t => slotOk x && x.k < y.k && slotsOk (y :: t)

def surveyOk (r : SurveyResult) : Bool :=
  r.loop < 2 ^ 24 && r.roster.all (fun e => e.1 < 64 && e.2.1 < 64) &&
    r.rejoined.all (· < 64)

def calResultOk (r : CalResult) : Bool := r.ch < 64 && r.early ≤ r.trans

/-- A ledger key: scope 0 to 15 a quarter, 16 the central sensor; eight groups. -/
def ledgerKeyOk (k : Nat) : Bool := k < 136

/-- The command's operands are such as the part can meet. -/
def Instr.wf : Instr → Bool
  | .registerWrite _ a _ _ | .readClear _ a | .latchedRead _ a | .votedFieldRead _ a | .quarterWake _ _ a _ _ |
    .fabricAccessTimeout _ _ _ a => busAddrOk a
  | .postedWriteDelivery p | .txnDeferredPostedApply p => pstatOk p
  | .bar2Write a bytes => a + bytes.length ≤ 2 ^ 35 && !bytes.isEmpty
  | .bar2Read a n _ => a + 4 * n ≤ 2 ^ 35 && a % 4 = 0 && 0 < n
  | .triggerLatchSet trg => 0x01 ≤ trg.val && trg.val ≤ 0x18
  | .granuleBoundary _ samples => samples.all (·.1 < 64)
  | .pmuAdcSlot _ v _ => signedOk 24 v
  | .sgPeriodEnd _ vs is => (vs ++ is).all (signedOk 24)
  | .ledgerSensorResult ms bad => ms.all (ledgerKeyOk ·.1) && bad.all ledgerKeyOk
  | .tdcStartEvent _ fine | .tdcStopEvent _ fine => fine < 2048
  | .laceFrameReceive sof fn hop _ _ _ slots _ => sof.2 < 2048 && fn < 2 ^ 16 && hop < 64 && slotsOk slots
  | .laceSurveyComplete r => surveyOk r
  | .spx1Read _ a n => busAddrOk a && 0 < n
  | .spx1Write _ a _ => busAddrOk a
  | .calSlotEnd _ rs => rs.all calResultOk
  | .patrolCycle ts ps _ => ts.length = 17 && ps.all (·.k < 64)
  | .thmReading rs => rs.length = 17
  | .votedFieldScrub ups => ups.all fun u => busAddrOk u.1 && u.2.1 < 3
  | .linkUp l _ => 1 ≤ l.1.val && l.1.val ≤ 5 && (l.2.val = 1 || l.2.val = 4 || l.2.val = 8)
  | .tapBypass code => 4 ≤ code.toNat
  | .bootStepComplete f => f.flash.length ≤ 2 ^ 28 && f.sites.all (·.1 < 1024)
  | _ => true

end Sys2Proof
end

