-- ==== Sys2Proof/Machine/Tab.lean ====
section
/-! DEFINITION. Sparse tables: a list of (key, value) pairs in one canonical form, for registers, windows,
HBM bytes and the per-instance structures. -/

namespace Sys2Proof.Machine

/-- Sparse data by key. Canonical: keys strictly rising, no entry equal to what an unlisted key reads as. -/
abbrev Tab (α : Type) := List (Nat × α)

/-- What key `a` holds; `d` gives what an unlisted key reads as. -/
def tabGet {α : Type} (d : Nat → α) : Tab α → Nat → α
  | [], a => d a
  | (k, v) :: t, a => if k = a then v else tabGet d t a

/-- The table without key `a`. -/
def tabErase {α : Type} : Tab α → Nat → Tab α
  | [], _ => []
  | (k, v) :: t, a => if k = a then tabErase t a else (k, v) :: tabErase t a

/-- Put (a, v) before the first greater key. -/
def tabInsert {α : Type} : Tab α → Nat → α → Tab α
  | [], a, v => [(a, v)]
  | (k, w) :: t, a, v => if a < k then (a, v) :: (k, w) :: t else (k, w) :: tabInsert t a v

/-- Key `a` now holds `v`; a value equal to the unlisted one leaves no entry. -/
def tabSet {α : Type} [DecidableEq α] (d : Nat → α) (t : Tab α) (a : Nat) (v : α) : Tab α :=
  if v = d a then tabErase t a else tabInsert (tabErase t a) a v

/-- The canonical form. -/
def tabWf {α : Type} [DecidableEq α] (d : Nat → α) : Tab α → Bool
  | [] => true
  | (k, v) :: t => decide (v ≠ d k) && t.all (fun e => decide (k < e.1)) && tabWf d t

end Sys2Proof.Machine
end

