-- ==== Sys2Proof/Machine/State.lean ====
section
/-! DEFINITION. The state of the part: plain data, everything the spec gives the machine. -/

namespace Sys2Proof.Machine

/-- No command of this model stops with a fault: the spec gives the part no stop, and every fault event of
Table 16-1 is a state of its fault collector. Raised by nothing; kept closed. -/
inductive Fault where
  deriving DecidableEq, Repr

/-- Why a command has no meaning. -/
inductive Refusal where
  /-- The command's row is not modelled yet. Raised by a refused arm of `exec`; safe, since nothing follows. -/
  | notModelled (mnemonic : String)
  deriving DecidableEq, Repr

/-! ### Register fabric (02_registers_host.md) -/

/-- A masked write that waits: for its posted block (R38) or for a commit (R41). -/
structure PendWrite where
  addr : Nat
  mask : Word
  data : Word
  deriving DecidableEq, Repr

/-- A transaction unit beyond its registers (R41, R42): the queue, and what COMMIT sampled. -/
structure Txn where
  queue : List PendWrite := []
  cmode : Nat := 0
  mark : Nat := 0
  /-- The first moment at which a CMODE 0, 1 or 2 commit may be applied. -/
  due : Nat := 0
  /-- CMODE 2: the body at whose end the commit is due, by its number. -/
  bodyNo : Nat := 0
  /-- Site assignments that the transaction changes, by local channel (R14). -/
  sites : List (Nat × Option Nat) := []
  deriving DecidableEq, Repr

/-- The writes that commits handed to a posted block (R43): the first ACLK edge at which they may take effect, and
whether a write that was pending at the commit takes effect first. -/
structure Handed where
  behind : Bool := false
  due : Nat := 0
  writes : List PendWrite := []
  deriving DecidableEq, Repr

/-- A register write of the present MCLK cycle, by its master's place in the order of R35. -/
structure CycleWrite where
  cycle : Nat
  rank : Nat
  addr : Nat
  mask : Word
  deriving DecidableEq, Repr

/-- The PCI Express configuration that the link and interrupt rules use (Table 2-8, R51, R52), as PCI Express resets
it: the MSI-X enable and function mask, the power state, ECRC generation and check, and whether an error of each AER
class has been logged. -/
structure Pcie where
  deviceId : Nat := 0x1024
  classCode : Nat := 0x118000
  cfg : PcieConfig := {}
  aerCorr : Bool := false
  aerUncorr : Bool := false
  deriving DecidableEq, Repr

/-- An event counter (R45, R46): count and the two readers' bases, 48 bits each. -/
structure Evc where
  count : Nat := 0
  hostBase : Nat := 0
  spx1Base : Nat := 0
  deriving DecidableEq, Repr

/-- A stalled access to a quarter whose domain was off (R50, R335), or one whose domain a gate deferred (R321):
what it does when served. -/
structure Stalled where
  master : Master
  write : Bool
  addr : Nat
  data : Dword
  be : BitVec 4
  since : Nat
  deriving DecidableEq, Repr

/-- What the link has received and holds back (R85, R105): a BAR2 write to HBM, or a write to an RDY register behind
one. -/
inductive HeldHost where
  | hbm (addr : Nat) (bytes : List Byte)
  | rdy (w : PendWrite)
  deriving DecidableEq, Repr

/-! ### Faults (16_safety_faults.md) -/

/-- A fault event on its way to the collector (R354). `kind` names the target as Table 16-2 does. -/
structure FaultEvent where
  src : Nat
  cls : Nat
  addr : Nat
  master : Nat := 0
  quarter : Nat := 0
  acc : Nat := 0
  time : Nat := 0
  shank : Bool := false
  /-- The quarter parks at the welt of the failing word, not at once (R63, R68, R89, R115). -/
  atWelt : Bool := false
  deriving DecidableEq, Repr

/-- A source's counting stage beyond SSTAT.CNT (R356): the end of the open window. -/
structure SrcCnt where
  wend : Nat := 0
  deriving DecidableEq, Repr

/-- An entity of Table 16-2 beyond its register (R360): the end of its quiet period; `sinceStart` marks a site
whose fault state opened since START (R209). -/
structure Ent where
  qend : Nat := 0
  /-- The quiet period has not begun: its start waits for the end of a clock-hold (bit 0) or a fall of temperature
  (bit 1). -/
  frozen : Nat := 0
  sinceStart : Bool := false
  deriving DecidableEq, Repr

/-- One first-error copy (R367): captured fields, and what the last FE_SRC read latched. -/
structure FeCopy where
  valid : Bool := false
  ev : Option FaultEvent := none
  kind : Nat := 0
  index : Nat := 0
  more : Nat := 0
  latched : Option FaultEvent := none
  lkind : Nat := 0
  lindex : Nat := 0
  lmore : Nat := 0
  deriving DecidableEq, Repr

/-! ### Sequencer (03_sequencer.md) -/

/-- One channel's timing-set entry in a body's snapshot (R112, R115). -/
structure PinEntry where
  ch : Nat
  cfg : Dword
  per : Dword
  d0 : Dword
  d1 : Dword
  d2 : Dword
  d3 : Dword
  s0 : Dword
  s1 : Dword
  deriving DecidableEq, Repr

/-- The successor selected at a decision point (R60): its word, its descriptor, its pins' snapshot, whether its
segment is ready (R75) and whether a failed check parks the quarter at the welt. -/
structure Succ where
  addr : Nat
  word : Micro
  desc : Desc := 0
  snap : List PinEntry := []
  ready : Bool := true
  park : Bool := false
  deriving DecidableEq, Repr

/-- The incremental decoder of a segment's stored data (R90 to R93). -/
structure Decoder where
  pos : Nat := 0
  runLeft : Nat := 0
  produced : Nat := 0
  vec : Nat := 0
  deriving DecidableEq, Repr

/-- What a site did in the body, for its SUMMARY record (Table 9-5). -/
structure SiteSum where
  fail : Bool := false
  fgoff : Nat := 0xFFFFFFFF
  nfcmp : Nat := 0
  chmask : Nat := 0
  shared : Bool := false
  deriving DecidableEq, Repr

/-- A candidate successor as read at its fetch point (R89, R99, R105). -/
structure Cand where
  addr : Nat
  desc : Desc
  ok : Bool
  ready : Bool
  deriving DecidableEq, Repr

/-- The executing body (R59). `start` moves on when a Lace hold stops the timeline (R74). -/
structure Body where
  no : Nat
  start : Nat
  len : Nat
  segLen : Nat
  addr : Nat
  word : Micro
  desc : Desc
  group : Nat
  snap : List PinEntry
  dec : Decoder := {}
  played : Nat := 0
  acted : Bool := false
  decided : Bool := false
  lateTgt : Option Nat := none
  cands : List Cand := []
  succ : Option Succ := none
  sums : List SiteSum := []
  deriving DecidableEq, Repr

/-- An elastic stall (R70 to R75, R408): the elastic word, the welt it stalls from, the exit boundary once it is
known, whether the exit is a timeout, and the successor once selected. -/
structure Stall where
  addr : Nat
  word : Micro
  welt : Nat
  exit : Option Nat := none
  timeout : Bool := false
  decided : Bool := false
  succ : Option Succ := none
  /-- The exit was fixed by the latch, which the exit consumes (R64). -/
  byLatch : Bool := false
  /-- What the word's body start read of the candidates (R99), and the entries of the clock-class pins, which keep
  running (R70). -/
  cands : List Cand := []
  clocks : List PinEntry := []
  /-- The release of a Lace hold that fell in the stall: the exit comes no earlier (R74). -/
  floor : Nat := 0
  /-- REFILL_HOLD: the boundary at which the held word's job was issued (R106). -/
  jobAt : Option Nat := none
  /-- REFILL_HOLD with REFILL_LACE_HOLD: the release's effect time. -/
  release : Option Nat := none
  deriving DecidableEq, Repr

/-- A stretch of device time in which a quarter's body asserts its MARK bits (R127): its ends, the bits, and whether
it begins at the body's start. -/
structure MarkRun where
  start : Nat
  stop : Option Nat
  bits : Nat
  first : Bool
  deriving DecidableEq, Repr

/-- A quarter sequencer beyond its registers. -/
structure QSeq where
  callStack : List Nat := []
  loopStack : List (Nat × Nat) := []
  /-- One latch for each trigger source, by TRG code (R64). -/
  latch : BitVec 256 := 0
  /-- When each latch last set, by TRG code (R65, R71). -/
  latchAt : Tab Nat := []
  bodyNo : Nat := 0
  body : Option Body := none
  stall : Option Stall := none
  /-- START_MODE 0: the start moment; the first word's selection, made when START was accepted (R115). -/
  startDue : Option Nat := none
  first : Option Succ := none
  stopReq : Bool := false
  /-- The end of the granule in flight, at which the quarter parks (R27, R80). -/
  parkDue : Option Nat := none
  /-- The next body start leaves the SSN at 0 (R77). -/
  ssnFresh : Bool := false
  /-- When a Lace hold stopped the timeline (R74); the state it stopped. -/
  laceHeld : Option Nat := none
  /-- The hold is a detach's: no release ends it (R261). -/
  heldStuck : Bool := false
  heldState : Nat := 0
  timeZero : Nat := 0
  started : Bool := false
  /-- The body before this one: start, welt and SSN (R237). -/
  prev : Option (Nat × Nat × Nat) := none
  /-- Body granules played, for the calibration ages (R298). -/
  bodyGran : Nat := 0
  scrubPos : Nat := 0
  scrubNext : Nat := 0
  /-- The latest granule boundary handled outside a body. -/
  lastBoundary : Nat := 0
  /-- Marks heard: (number, effect time) of Lace marks received and not yet past (R72, R254). -/
  marks : List (Nat × Nat) := []
  /-- MARK contributions that may still show at a ball, oldest first (R127). -/
  markRuns : List MarkRun := []
  /-- ERR_TS holds a failure since STAT was last read (Table 5-9). -/
  tsHeld : Bool := false
  deriving DecidableEq, Repr

/-! ### Pattern memory (04_pattern_memory.md) -/

/-- A fetch job (R99, R100): for the candidate `addr` of body number `gen`. -/
structure Job where
  gen : Nat
  addr : Nat
  seg : Nat
  desc : Desc
  point : Nat
  next : Nat
  total : Nat
  active : Bool := false
  /-- The job's unit 0 within the stored data (R99). -/
  first : Nat := 0
  deriving DecidableEq, Repr

/-- A unit requested from HBM, not yet arrived. -/
structure Flight where
  gen : Nat
  addr : Nat
  unit : Nat
  hbmUnit : Nat
  /-- The read completes and its data is discarded (R99, R108). -/
  drop : Bool := false
  deriving DecidableEq, Repr

/-- A unit in staging (R86, R97). -/
structure Staged where
  gen : Nat
  addr : Nat
  unit : Nat
  hbmUnit : Nat
  arrived : Nat
  poison : Bool
  data : BitVec 512
  deriving DecidableEq, Repr

/-- A head in the head store (R97): the units its granules need, each with its data, whether its read was uncorrectable,
and its HBM unit. -/
structure Head where
  seg : Nat
  bytes : Nat
  units : List (Nat × BitVec 512 × Bool × Nat)
  deriving DecidableEq, Repr

structure QMem where
  jobs : List Job := []
  flights : List Flight := []
  staged : List Staged := []
  heads : List Head := []
  build : Bool := false
  /-- Ended bodies whose stored data is not all fetched (R90, R94). -/
  tails : List Body := []
  /-- Kept generator state per local channel since START (R92). -/
  lfsr : List (Nat × Nat) := []
  deriving DecidableEq, Repr

/-! ### Results (09_results_rings.md) -/

/-- A result record before it has an RSEQ (Tables 9-2 to 9-5). `payload` is bytes 24 to 59, as one number. -/
structure Record where
  type : Nat
  flags : Nat
  quarter : Nat
  ssn : Nat
  goff : Nat
  site : Option Nat
  dtime : Nat
  payload : Nat
  ring : Nat
  prio : Bool
  deriving DecidableEq, Repr

/-- First failure of a site since START (R208). -/
structure FirstFail where
  pc : Nat
  ssn : Nat
  goff : Nat
  deriving DecidableEq, Repr

structure QRes where
  queue : List Record := []
  /-- Drops not yet reported with CAUSE 1 (R214). -/
  drops : Nat := 0
  first : Tab (Option FirstFail) := []
  /-- Sites that a channel with no site has failed since START (R207). -/
  sharedFail : Nat := 0
  fcount : Tab Nat := []
  quiet : Nat := 0
  /-- The device time of the boundary that evaluated the ladder last, plus 1 (R217). -/
  ladAt : Nat := 0
  refQ : Nat := 0
  refR : Tab Nat := []
  /-- The capture stream's bits not yet a full unit (R210), and the unit to issue in the next granule. -/
  capBits : Nat := 0
  capLen : Nat := 0
  capOut : List (BitVec 512) := []
  /-- Sites failed in the granule by a PPMU limit or a Supply Guard trip (R206). -/
  extraFail : Nat := 0
  /-- Records built in the granule in flight, pushed at the boundary that ends it (R214). -/
  waiting : List Record := []
  /-- The granule in which write slots were last used, and how many (R215). -/
  slotAt : Nat := 0
  slotUsed : Nat := 0
  deriving DecidableEq, Repr

/-- One ring beyond its descriptor window (R218 to R223). -/
structure Ring where
  on : Bool := false
  hbase : Nat := 0
  hsize : Nat := 0
  hostBase : Nat := 0
  hostSize : Nat := 0
  vec : Nat := 0
  hwm : Nat := 0
  lwm : Nat := 0
  ie : Bool := false
  rseq : Nat := 0
  /-- RSEQ of the next record to drain, which PROD shows. -/
  drained : Nat := 0
  fill : Nat := 0
  /-- (quarter, cause, count) of records lost and not yet reported. -/
  lost : List (Nat × Nat × Nat) := []
  /-- Records of the ring engine that wait for space, with the quarter whose stream they concern (R220). -/
  waits : List (Nat × Record) := []
  /-- The MCLK cycle of the last write and the records written in it, by quarter, in the order of their RSEQ (R220). -/
  cycle : Nat := 0
  cycleRecs : List (Nat × Record) := []
  /-- The copy of CONS (R222). -/
  cons : Nat := 0
  waitHost : Bool := false
  lastPoll : Nat := 0
  uncovered : Nat := 0
  uncSince : Nat := 0
  deriving DecidableEq, Repr

/-- A write of the part into host memory (R221, R222): address and little-endian bytes. -/
structure HostWrite where
  addr : Nat
  bytes : List Byte
  deriving DecidableEq, Repr

/-! ### Pin channels (05, 06, 07) -/

/-- A pin channel beyond its registers. Times of events are in vernier steps of device time (R111). -/
structure Chan where
  /-- The local site it belongs to (R14). -/
  site : Option Nat := none
  on : Bool := false
  level : Bool := false
  /-- Changes of the driver that are on their way to the pin (R111): the step of the timeline, and the state before:
  on, level. -/
  turns : List (Int × Bool × Bool) := []
  /-- The channel is in its park state (R148). What a stall or a hold parked: on, level and symbol (R59). -/
  parked : Bool := true
  kept : Option (Bool × Bool × Nat) := none
  lastDrive : Int := -100000000
  lastStrobe : Int := -100000000
  /-- Symbol of the edge-mode cycle in progress, for cycles longer than a granule. -/
  sym : Nat := 4
  /-- The welt a stage change began at and the channel's delay then, while it runs (R139); the new stage, and what the
  change has suppressed. -/
  stageSw : Option Nat := none
  stageDly : Int := 0
  stageTo : Bool := false
  supp : Option (Bool × Bool) := none
  suppSeen : Bool := false
  slew : Tab Nat := []
  /-- Since when the ball has been inside the OVD window (R146). -/
  inSince : Option Nat := none
  lq : List Word := []
  lqPos : Nat := 0
  lqNext : Nat := 0
  /-- Deskew in force (D, C), oscillator settings in force, and what moves in at which boundary. -/
  dskD : Int := 0
  dskC : Int := 0
  ftw : Nat := 0
  ph : Nat := 0
  duty : Nat := 0x8000
  dskPend : Option (Nat × Int × Int) := none
  ncoPend : Option (Nat × Nat × Nat × Nat) := none
  driftD : Int := 0
  driftC : Int := 0
  /-- Corrections that a commit between boundaries brings into force at the next one (R144): boundary, drive and
  strobe drift, threshold. -/
  corrPend : Option (Nat × Int × Int × Int) := none
  temp : Int := 0
  /-- The reference temperature correction of each DAC's converter code (R134, R348). -/
  refCorr : Tab Int := []
  forced : Bool := false
  safe : Bool := false
  /-- The forcing has ended, the levels are on their way back and the driver is still off (R152). -/
  slewBack : Bool := false
  /-- Handed over to the calibration engine for a CALWIN body (R294). -/
  calHeld : Bool := false
  /-- The comparator's states, and the node's voltage and current as last sensed, in level codes and in codes of the
  PPMU range (R143, R159). -/
  cmpAbove : Bool := false
  cmpBelow : Bool := false
  node : Int := 0x8000
  amps : Int := 0x8000
  deriving DecidableEq, Repr

/-- A PPMU beyond its registers (R157 to R165). -/
structure Pmu where
  running : Bool := false
  /-- Trigger plus delay: no sample before (R163). -/
  start : Nat := 0
  need : Nat := 1
  taken : Nat := 0
  sum : Int := 0
  /-- Mode and range of the interval. -/
  meas : Nat := 0
  range : Nat := 0
  ovr : Bool := false
  /-- Slot of the Nth sample plus one slot: the interval's end (R164). -/
  endAt : Option Nat := none
  /-- The force amplifier is connected to the node. -/
  connected : Bool := false
  /-- The range in force, the one a change goes to, its start and the steps done (Table 7-2). -/
  rangeAct : Nat := 4
  rangeTo : Option Nat := none
  rangeStep : Nat := 0
  rangeT0 : Nat := 0
  /-- Samples resume once the new range has settled (R163, step 5 of Table 7-2). -/
  resumeAt : Nat := 0
  /-- Intervals merged toward the next record, with the settings they share (R165). -/
  merged : Nat := 0
  mergeSum : Int := 0
  mergeN : Nat := 0
  mergeKey : Nat := 0
  deriving DecidableEq, Repr

/-- A Supply Guard channel beyond its registers (R169 to R177). Comparators 0 VLO, 1 VHI, 2 ILO, 3 IHI, 4 ICRIT. -/
structure Sg where
  gate : Bool := false
  live : BitVec 5 := 0
  /-- EN fell: the period ends with the conversion in flight (R177). -/
  ending : Bool := false
  /-- First crossings with CTRL.TDC_EN = 1 on their way to the time-interval units (R175). -/
  crossed : List Nat := []
  acted : BitVec 5 := 0
  blankEnd : Tab Nat := []
  gonEnd : Option Nat := none
  restore : Bool := false
  periodStart : Nat := 0
  deriving DecidableEq, Repr

/-! ### The current ledger (08_schedule_contract.md) -/

/-- A closed window whose sensor result is awaited (R200): number, predictions by scope * 8 + group, ANOM_EN. -/
structure LedWin where
  no : Nat
  pred : Tab Nat
  en : Bool
  deriving DecidableEq, Repr

structure Ledger where
  /-- Charges not yet predicted from, in 1/64 mA per granule (R192): key window * 136 + scope * 8 + group, scope 16
  the central one. -/
  acc : Tab Nat := []
  /-- The device time up to which each scope is charged. -/
  upto : Tab Nat := []
  /-- The open window's number and the ANOM_EN it is compared under (R194, R202). -/
  window : Nat := 0
  en : Bool := true
  waitq : List LedWin := []
  run : Tab Nat := []
  obsPred : Tab Nat := []
  obsMeas : Tab Nat := []
  obsWin : Nat := 0
  obsPeak : Tab Nat := []
  /-- FIRST holds the first event since STAT was last read. -/
  firstHeld : Bool := false
  /-- The most recent load check since reset passed (R196, R339). -/
  passed : Bool := false
  deriving DecidableEq, Repr

/-! ### Time measurement (10_time_measurement.md) -/

/-- A time-interval unit beyond its registers (R231 to R236). Times of events are in LSB, 2,048 to a PCLK. -/
structure Tdc where
  /-- Device time at which the window opens. -/
  opens : Nat := 0
  /-- The window was opened by a level gate (SRC 3 or 4). -/
  level : Bool := false
  start : Option Int := none
  /-- The last timestamped event. -/
  last : Int := 0
  stops : List Nat := []
  /-- After the close: the boundary at which the result is written, the status flags, whether REARM acts, and the
  moment of the close. -/
  result : Option Nat := none
  flags : Nat := 0
  rearm : Bool := false
  closed : Nat := 0
  /-- SSN and GOFF of the body 48 PCLK before the start, or the close (R237). -/
  ssn : Nat := 0
  goff : Nat := 0
  deriving DecidableEq, Repr

/-- A quarter's DLL (R239): the temperature of the last lock, 1/16 °C, and whether a re-lock follows a loss. -/
structure Dll where
  lockTemp : Int := 0
  lost : Bool := false
  deriving DecidableEq, Repr

/-! ### Lace (11_lace.md) -/

/-- A request to send a Lace event (R252): who asks (0 the master itself, 1 + q quarter q, 17 + n TFWDn, 25 the
host), the event, and the send boundary. -/
structure LaceReq where
  who : Nat
  type : Nat
  num : Nat
  arg : Nat
  at_ : Nat
  deriving DecidableEq, Repr

/-- An event that will take effect in this part (R251, R254). -/
structure LaceEff where
  type : Nat
  orig : Nat
  num : Nat
  arg : Nat
  eff : Nat
  /-- The moment by this part's device time: EFF, but for an EPOCH on a member whose device time differs (R260). -/
  due : Nat := eff
  deriving DecidableEq, Repr

/-- A frame: its SOF's frame number, HOP, SURVEY and ACC, and the occupied slots (Table 11-3). -/
structure LaceFrame where
  fn : Nat := 0
  hop : Nat := 0
  survey : Bool := false
  acc : Nat := 0
  slots : List LaceSlot := []
  deriving DecidableEq, Repr

structure Lace where
  keys : List Nat := []
  effects : List LaceEff := []
  requests : List LaceReq := []
  /-- Expected sequence number by origin chip (R254), and the events acted on of late (R253). -/
  expect : Tab (Option Nat) := []
  acted : List (Nat × Nat) := []
  /-- The frame the part sends or relays, as it leaves on DO: output. The master's next frame's copies (R253). -/
  out : LaceFrame := {}
  copies : List LaceSlot := []
  /-- Master: number of the next frame to start. -/
  nextFrame : Nat := 0
  /-- The last good SOF or, on the master, the last frame that came back; whether the ring is lost. -/
  lastGood : Nat := 0
  lost : Bool := false
  /-- DETACH waits for its RELEASE events. -/
  detaching : Bool := false
  /-- The survey (R257): requested, running in this part, its start, and on the master the frames sent in it. -/
  surveyReq : Bool := false
  surveying : Bool := false
  surveySince : Nat := 0
  surveyFrames : Nat := 0
  /-- The last 64 offsets measured on SOFs (R259). -/
  offs : List Int := []
  /-- Master: ACC of the last frame that came back. -/
  accBack : Nat := 0
  epochNext : Nat := 0
  deriving DecidableEq, Repr

/-! ### Serial ports (12_serial_ports.md) -/

/-- A port's transfer unit (R266, R272): the setup's eight registers as read at its start, the start time, the
role, and whether an abort came (R284). -/
structure PortUnit where
  setup : List Word
  t0 : Nat
  slave : Bool
  abort : Bool := false
  /-- SCK's idle level: a master's own CPOL, or what a slave saw at its select's assertion (R268). -/
  cpol : Bool := false
  /-- TX ran dry after this many dwords, in a phase that a later TX_ADD no longer helps (R269). -/
  dry : Option Nat := none
  deriving DecidableEq, Repr

/-- A port beyond its registers. -/
structure Port where
  unit : Option PortUnit := none
  /-- The latest unit that ended, and its end: its pins may still show it (R271). -/
  last : Option (PortUnit × Nat) := none
  /-- A START that takes effect at a granule boundary: (boundary, setup). -/
  startAt : Option (Nat × Nat) := none
  /-- A slave setup armed for the next select. -/
  armed : Option (List Word) := none
  /-- No select before this time (CSI). -/
  idleTo : Nat := 0
  /-- DONE moments that wait: (boundary, error, bits stored). -/
  dones : List (Nat × Bool × Nat) := []
  /-- Output: the dwords sent in the last data phase. -/
  sent : List Dword := []
  deriving DecidableEq, Repr

/-- SPX1 (R279 to R283): the write queue, the frame in progress (0 none, 1 READ, 2 WRITE, 3 STATUS, 4 ignored), the
next address and the last dword read. -/
structure Spx1 where
  queue : List (Nat × Dword) := []
  frame : Nat := 0
  first : Nat := 0
  addr : Nat := 0
  lastAddr : Nat := 0
  lastData : Dword := 0
  /-- A select release cut a read whose access still stalls (R280). -/
  cut : Bool := false
  /-- The idle timeout left a read's dword part sent: the select release cuts it (R269, R280). -/
  late : Bool := false
  deriving DecidableEq, Repr

/-! ### Calibration and NVM (13_calibration_nvm.md) -/

/-- A channel's calibration shadows (R295 to R299): S, E, the quarter's body granules at the last completed slot,
the last slot's outcome, and whether the age limit was reported. -/
structure CalCh where
  shadowS : Int := 0
  shadowE : Int := 0
  ageBase : Nat := 0
  stat : Nat := 0
  stale : Bool := false
  /-- Bits that the channel's PRBS-31 generator has played in slots (Table 13-4). -/
  prbs : Nat := 0
  deriving DecidableEq, Repr

/-- A calibration slot: its start and the local channels it runs on. -/
structure CalSlot where
  start : Nat
  chans : List Nat
  deriving DecidableEq, Repr

structure Cal where
  slots : Tab (Option CalSlot) := []
  /-- Waiting activities in the order of their requests: q re-lock of quarter q, 16 survey, 17 session, 18 STORE. -/
  waiting : List Nat := []
  /-- Waiting activities that the ledger has turned away (R199). -/
  resWaits : List Nat := []
  /-- Running ones. -/
  running : List Nat := []
  /-- (activity, MCLK cycle) of the latest requests that started at once (R301). -/
  started : List (Nat × Nat) := []
  /-- The quarter of the running session. -/
  session : Nat := 0
  deriving DecidableEq, Repr

/-- The NVM (R290 to R293): the physical pages by dword, physical page * 1,024 + i; the payloads in force by dword,
logical page * 1,024 + i, and which pages were bad at their last load; a STORE's logical page; a LOAD's. -/
structure Nvm where
  pages : Tab Dword := []
  force : Tab Dword := []
  bad : Nat := 0
  /-- Pages that a load has put in force since reset. -/
  loaded : Nat := 0
  storing : Option Nat := none
  granted : Bool := false
  /-- CYC that the STORE's target will hold, and the target's physical page. -/
  cyc : Nat := 0
  target : Nat := 0
  /-- What the erase took from the target: a request of the same MCLK cycle may still rank before the STORE (R301). -/
  erased : Tab Dword := []
  loading : Option Nat := none
  deriving DecidableEq, Repr

/-! ### Clocks, power, temperature (14, 15) -/

/-- XO_EN and the start delay (R307); clock-hold: its entry, the fall-back it waits for (0 RCO, 1 XO, 2 none) and
whether it timed out (R318, R319); the moments of the next trim and pulling steps (R308, R238). -/
structure Clk where
  xoOn : Bool := false
  xoEnd : Nat := 0
  xoCounting : Bool := false
  holdSince : Option Nat := none
  holdFall : Nat := 0
  holdLocked : Bool := false
  trimNext : Nat := 0
  pullNext : Nat := 0
  /-- The SKO has run since power-on (R368). -/
  skoRan : Bool := false
  deriving DecidableEq, Repr

/-- The power-state sequencer (R329 to R341). -/
structure Pwr where
  /-- The state a running entry or exit leads to, and its start. -/
  target : Nat := 0
  since : Nat := 0
  restore : Nat := 0
  wakeLatch : Nat := 0
  /-- Quarters with a pending START (R335). -/
  pendStart : List Nat := []
  /-- Quarters being woken, in order, with when each began (two at a time, R335). -/
  waking : List (Nat × Option Nat) := []
  /-- Accesses that stall until a domain is on or the clocks run again. -/
  stalled : List Stalled := []
  vidSince : Option Nat := none
  /-- Consecutive failures of patrol entry i (R341), and when the next cycle is due. -/
  fails : Tab Nat := []
  patrolNext : Nat := 0
  /-- Entry into the power state in force, and whether the Shank timer has expired in it (R333). -/
  entered : Nat := 0
  tmrDone : Bool := false
  /-- In PATROL, when the central domain is on that an access has woken; it stays on until the next state entry (R335). -/
  central : Option Nat := none
  /-- The channels whose clamps were on when the pads were last held (Table 6-6). -/
  clamps : List Nat := []
  deriving DecidableEq, Repr

/-- The sensors (R343, R346): consecutive deviations of sensor i, the bar on wake events after a thermal entry to
NAP, a thermal entry that waits. -/
structure Thm where
  devCnt : Tab Nat := []
  napLock : Bool := false
  shutPend : Bool := false
  deriving DecidableEq, Repr

/-! ### Boot and test access (17, 19) -/

/-- The boot (R380 to R384): whether power-on reset has been released; whether it runs, and as an exit from SHANK; the start of its step, the release of reset,
the 4 KiB header as read, the source of the image, the surveys run, the next one, and when START is due. -/
structure Boot where
  up : Bool := false
  running : Bool := false
  shankExit : Bool := false
  since : Nat := 0
  released : Nat := 0
  header : List Byte := []
  fromHbm : Bool := false
  surveys : Nat := 0
  surveyNext : Nat := 0
  startAt : Option Nat := none
  /-- A COLD reset's head builds wait for HBM to be trained (R98). -/
  buildDue : Bool := false
  deriving DecidableEq, Repr

/-- The test access port (R406): the instruction register, what the boundary-scan register sampled last, its update
latch, and whether EXTEST or HIGHZ acts on the chain balls. -/
structure Tap where
  instr : Nat := 1
  sampled : Nat := 0
  boundary : Nat := 0
  extest : Bool := false
  highz : Bool := false
  deriving DecidableEq, Repr

/-- The whole part. -/
@[ext]
structure State where
  /-- Commands that wait, first in first out. -/
  pending : List Instr
  /-- Device time, PCLK (R10, R21). -/
  now : Nat := 0
  /-- The model's own counter that the free values of Config are applied to (log entry 6). -/
  freeCount : Nat := 0
  /-- Every register by BAR0 address; the first copy of a voted field (R39). -/
  regs : Tab Word := []
  copyB : Tab Word := []
  copyC : Tab Word := []
  /-- The two copies of the RC fields (R36). -/
  hostRc : Tab Word := []
  spx1Rc : Tab Word := []
  /-- What each reader's last latching read holds, by address (R46). -/
  holdH : Tab Word := []
  holdS : Tab Word := []
  /-- The pending posted write of each block, by its PSTAT address, and the writes a commit handed over (R43). -/
  posted : Tab (Option PendWrite) := []
  handed : Tab Handed := []
  /-- The register writes of the present MCLK cycle (R35). -/
  cycle : List CycleWrite := []
  win : Tab Dword := []
  hbm : Tab Byte := []
  /-- Output: MSI-X messages sent, by vector (R52, R53). -/
  msgs : List Nat := []
  /-- Output: writes into host memory (R222). -/
  hostMem : List HostWrite := []
  /-- Output: the value a read returned, last first. -/
  reads : List Dword := []
  /-- Output: the last BAR2 completion carries the poison mark EP (R210). -/
  ep : Bool := false
  linkUp : Bool := false
  pcie : Pcie := {}
  evcs : Tab Evc := []
  txns : Tab Txn := []
  reported : List FaultEvent := []
  srcs : Tab SrcCnt := []
  ents : Tab Ent := []
  feHost : FeCopy := {}
  feSpx1 : FeCopy := {}
  qs : Tab QSeq := []
  qm : Tab QMem := []
  qr : Tab QRes := []
  chans : Tab Chan := []
  pmus : Tab Pmu := []
  /-- Last channel served by each converter, four a quarter, plus 1 (R162); the slot after the last one used. -/
  adcs : Tab Nat := []
  adcAt : Tab Nat := []
  sgs : Tab Sg := []
  led : Ledger := {}
  rings : Tab Ring := []
  /-- The ring after the last one served, and the pump's read slots used in a granule (R221). -/
  pumpNext : Nat := 0
  pumpAt : Nat := 0
  pumpUsed : Nat := 0
  tdcs : Tab Tdc := []
  dlls : Tab Dll := []
  lace : Lace := {}
  ports : Tab Port := []
  spx1 : Spx1 := {}
  calch : Tab CalCh := []
  cal : Cal := {}
  nvm : Nvm := {}
  clk : Clk := {}
  pwr : Pwr := {}
  thm : Thm := {}
  boot : Boot := {}
  /-- The straps as last sampled, STRAP layout (R373). -/
  straps : Word := 0
  /-- The HBM that the part carries (R83), as CAP codes it: 1 16 GiB, 2 32 GiB. -/
  installed : Nat := 2
  tap : Tap := {}
  /-- HBM units (writes of BAR2 and head builds) left in the present span (R85). -/
  hostBudget : Nat := 44
  /-- BAR2 writes above the pace, and RDY writes behind them, oldest first (R85, R105). -/
  heldHost : List HeldHost := []
  /-- Scrub position (unit) of each stack (R85), and whether ERR_ADDR holds a first error (R86). -/
  scrubA : Nat := 0
  scrubB : Nat := 0
  /-- When the next scrub read of each stack is due (R85). -/
  scrubAtA : Nat := 0
  scrubAtB : Nat := 0
  errAddrHeld : Bool := false
  deriving DecidableEq, Repr

/-- The machine right after power-on (R8): every table empty, so every register reads its reset column, and
RST_CAUSE shows its power-on bit. The release of power-on reset is a command. -/
def State.reset : State := { pending := [], hostRc := [(0x10, 0x10)], spx1Rc := [(0x10, 0x10)] }

end Sys2Proof.Machine
end

