-- ==== Sys2Proof/Machine/Answer.lean ====
section
/-! DEFINITION. What a command answers, and the guard of events that are not due. -/

namespace Sys2Proof.Machine

/-- The answer of a meaning: here always a next state. -/
abbrev Answer := Host.Outcome State Fault Refusal

end Sys2Proof.Machine
end

