-- ==== Sys2Proof/Config.lean ====
section
/-! DEFINITION. What an implementation fixes, and the free values: constants without a body, so no proof can
lean on what they are. -/

namespace Sys2Proof.Config

/-- CHIP.ID.DIE_REV (R385): the die's revision. Free (log entry 6). -/
opaque dieRev : BitVec 8
/-- The RCO trim code set at the factory, before any step (R308). Free (log entry 6). -/
opaque rcoFactoryTrim : BitVec 10
/-- The delay with which a master launches a frame, in TDC LSB (R257): the part's own. Free (log entry 6). -/
opaque laceLaunch : BitVec 16
/-- A fresh value for a result that the spec leaves undefined, applied to the state's counter (log entry 6). -/
opaque freeValue : Nat → BitVec 32

end Sys2Proof.Config
end

