-- ==== Sys2Proof/Machine/RegMap.lean ====
section
/-! DEFINITION. The register map of the part: for every register table of the spec, the block's range,
and for every register its place, its writable, start-action, read-clear and voted bits and its reset value. -/

namespace Sys2Proof.Machine

/-- One line of a register table (R5 to R8). `dims` lists (count, stride) of an indexed register, outermost
first. `rw`: bits a masked write changes (RW, RWP and the live reserved bits of R7); `wt`: bits that start an
action; `rc`: bits that a read clears; `voted`: (low bit, width) of each field kept in three copies (R39); `rst`: the
reset column. -/
structure RegRow where
  off : Nat
  dims : List (Nat × Nat)
  rw : Nat
  wt : Nat
  rc : Nat
  voted : List (Nat × Nat)
  rst : Nat
  deriving DecidableEq, Repr

/-- A block of registers: the range [lo, hi] of Table 18-1 or 18-2, the address its offsets count from and its
instances (count, stride). -/
structure RegBlock where
  lo : Nat
  hi : Nat
  base : Nat
  inst : List (Nat × Nat)
  rows : List RegRow
  deriving DecidableEq, Repr

/-- CHIP, Table 17-7. -/
def rowsCHIP : List RegRow := [
  ⟨0, [], 0xFF, 0, 0, [], 0⟩,  -- ID
  ⟨4, [], 0xF000, 0, 0, [], 0⟩,  -- STRAP
  ⟨8, [], 0xF8, 0xFF07, 0, [], 0⟩,  -- RST
  ⟨0xC, [], 0xFFFF, 0, 0, [], 0xFFFF⟩,  -- RST_QMASK
  ⟨0x10, [], 0xFFE0, 0, 0x1F, [], 0x10⟩,  -- RST_CAUSE
  ⟨0x100, [], 0xFFFE, 1, 0, [], 2⟩,  -- BOOT_CTRL
  ⟨0x104, [], 0x1F, 0, 0x1E0, [], 0⟩,  -- BOOT_STAT
  ⟨0x108, [], 0, 0, 0, [], 0⟩,  -- BOOT_ERR
  ⟨0x10C, [], 0xFFFF, 0, 0, [], 0⟩,  -- BOOT_SRCADDR
  ⟨0x110, [], 0xFFFF, 0, 0, [], 0⟩,  -- BOOT_HADDR0
  ⟨0x114, [], 0xFFFF, 0, 0, [], 0⟩,  -- BOOT_HADDR1
  ⟨0x118, [], 7, 0, 0, [], 0⟩,  -- BOOT_HADDR2
  ⟨0x11C, [], 0xFFFF, 0, 0, [], 0⟩,  -- BOOT_HDATA_L
  ⟨0x120, [], 0xFFFF, 0, 0, [], 0⟩,  -- BOOT_HDATA_H
  ⟨0x124, [], 0, 0, 0, [], 0⟩,  -- BOOT_MS
  ⟨0x130, [(8, 4)], 0, 0, 0, [], 0⟩]  -- BOOT_IMGID

/-- MARK, Table 5-10. -/
def rowsMARK : List RegRow := [
  ⟨0x400, [(16, 8)], 0xFFFF, 0, 0, [], 0⟩,  -- SRC
  ⟨0x404, [(16, 8)], 0xFFFF, 0, 0, [], 0⟩]  -- CFG

/-- CLK, Table 14-7. -/
def rowsCLK : List RegRow := [
  ⟨0x1000, [], 0xFFFF, 0, 0, [(0, 2), (2, 2)], 0⟩,  -- SRC
  ⟨0x1004, [], 0xF801, 0, 0, [], 0⟩,  -- STAT
  ⟨0x1008, [], 0xF800, 0, 0x7FF, [], 0⟩,  -- EVT
  ⟨0x100C, [], 0xFFF8, 0, 0, [], 0⟩,  -- XO_DLY
  ⟨0x1010, [], 0xF000, 0, 0, [], 0x1000⟩,  -- RCO_TRIM
  ⟨0x1014, [], 0xFFFF, 0, 0, [(0, 1)], 1⟩,  -- MON_CFG
  ⟨0x1018, [], 0xFFFF, 0, 0, [], 1⟩,  -- GATE
  ⟨0x101C, [], 0, 0, 0, [], 0⟩,  -- DEFER_CNT
  ⟨0x1020, [], 0, 0, 0, [], 0⟩,  -- HOLD_TIME
  ⟨0x13FC, [], 0xFFFC, 0, 2, [], 0⟩]  -- PSTAT

/-- PWR, Table 15-10. -/
def rowsPWR : List RegRow := [
  ⟨0x2000, [], 0xFFEF, 0x10, 0, [], 0⟩,  -- REQ
  ⟨0x2004, [], 0xF008, 0, 0x7C0, [], 0⟩,  -- STAT
  ⟨0x2008, [], 0xFFFD, 0, 2, [], 1⟩,  -- PAD_HOLD
  ⟨0x200C, [], 0xFFFF, 0, 0, [], 0x1432⟩,  -- VID_CFG
  ⟨0x2010, [], 0xFF, 0, 0, [], 0x6400⟩,  -- VID
  ⟨0x2014, [], 0xFFFF, 0, 0, [], 0x7F⟩,  -- WAKE_EN
  ⟨0x2018, [], 0xFE80, 0, 0x17F, [], 0⟩,  -- WAKE_SRC
  ⟨0x201C, [], 0xFFFF, 0, 0, [], 0⟩,  -- SHANK_TMR
  ⟨0x2020, [], 0, 0, 0, [], 0⟩,  -- QMASK
  ⟨0x2024, [], 0, 0xFFFF, 0, [], 0⟩,  -- QOFF
  ⟨0x2028, [], 0, 0xFFFF, 0, [], 0⟩,  -- QON
  ⟨0x202C, [], 0, 0, 0, [], 0⟩,  -- QSETTLE
  ⟨0x2030, [], 0xFFFF, 0, 0, [], 0x3E8⟩,  -- PAT_CFG
  ⟨0x2034, [], 0xFFFF, 0, 0, [], 0x10A⟩,  -- PAT_CFG2
  ⟨0x2038, [], 0xFE00, 0, 3, [], 0⟩,  -- PAT_STAT
  ⟨0x2040, [(16, 4)], 0xFFFF, 0, 0, [], 0⟩,  -- PSG
  ⟨0x2080, [(4, 4)], 0xFFFF, 0, 0, [], 0⟩,  -- PTS
  ⟨0x2090, [], 0xFFFF, 0, 0, [], 0xFF60⟩,  -- PAT_TLO
  ⟨0x2094, [], 0xFFFF, 0, 0, [], 0x640⟩,  -- PAT_THI
  ⟨0x2100, [(64, 4)], 0xFFFF, 0, 0, [], 0⟩,  -- PPM
  ⟨0x2400, [(100, 8)], 0, 0, 0, [], 0⟩,  -- PRES_L
  ⟨0x2404, [(100, 8)], 0x3F00, 0, 0, [], 0⟩,  -- PRES_H
  ⟨0x23FC, [], 0xFFFC, 0, 2, [], 0⟩]  -- PSTAT

/-- FLT, Tables 16-6, 16-7. -/
def rowsFLT : List RegRow := [
  ⟨0x10000, [], 0xFFFE, 1, 0, [(1, 1)], 2⟩,  -- CTRL
  ⟨0x10004, [], 0xFF80, 0, 0x7F, [], 0⟩,  -- STAT
  ⟨0x10008, [], 0x1EF0, 0x100, 0, [], 0⟩,  -- CHIPST
  ⟨0x1000C, [], 0xFE00, 0, 0, [], 0⟩,  -- CAUSE
  ⟨0x10010, [], 0xFFFF, 0, 0, [(0, 4), (4, 4), (8, 4), (12, 4)], 0xA664⟩,  -- QUIET
  ⟨0x10014, [], 0xFFFF, 0, 0, [(0, 4), (4, 4), (8, 4), (12, 4)], 0x3333⟩,  -- RECLIM
  ⟨0x10020, [], 0x7800, 0, 0x8000, [], 0⟩,  -- FE_SRC
  ⟨0x10024, [], 0x7088, 0, 0, [], 0⟩,  -- FE_MST
  ⟨0x10028, [], 0x3F80, 0, 0, [], 0⟩,  -- FE_TGT
  ⟨0x1002C, [], 0, 0, 0, [], 0⟩,  -- FE_ADDR0
  ⟨0x10030, [], 0, 0, 0, [], 0⟩,  -- FE_ADDR1
  ⟨0x10034, [], 0, 0, 0, [], 0⟩,  -- FE_ADDR2
  ⟨0x10038, [], 0, 0, 0, [], 0⟩,  -- FE_T0
  ⟨0x1003C, [], 0, 0, 0, [], 0⟩,  -- FE_T1
  ⟨0x10040, [], 0, 0, 0, [], 0⟩,  -- FE_T2
  ⟨0x10044, [], 0, 0, 0, [], 0⟩,  -- FE_T3
  ⟨0x10048, [], 0, 0, 0, [], 0⟩,  -- FE_MORE
  ⟨0x11000, [(128, 4)], 0x7EF0, 0x100, 0, [], 0⟩,  -- SITEST
  ⟨0x11200, [(16, 4)], 0x7EF0, 0x100, 0, [], 0⟩,  -- QST
  ⟨0x11300, [(80, 4)], 0x7EF0, 0x100, 0, [], 0⟩,  -- UST
  ⟨0x12000, [(16, 8)], 0xFFFF, 0, 0, [(0, 16)], 0x8FA0⟩,  -- SAFE_VCH
  ⟨0x12004, [(16, 8)], 0xFFFF, 0, 0, [(0, 16)], 0x7060⟩,  -- SAFE_VCL
  ⟨0x14000, [(512, 4)], 0xFFFF, 0, 0, [(2, 2), (4, 4), (8, 8)], 0xFFA0⟩,  -- SCFG
  ⟨0x16000, [(512, 4)], 0xF8, 0, 4, [], 0⟩]  -- SSTAT

/-- LACE, Table 11-7. -/
def rowsLACE : List RegRow := [
  ⟨0x20000, [], 0xFF83, 0x7C, 0, [(0, 1)], 3⟩,  -- CTRL
  ⟨0x20004, [], 0xC000, 0, 0x3FF0, [], 0⟩,  -- STAT
  ⟨0x20008, [], 0x80C0, 0, 0, [], 0⟩,  -- RING
  ⟨0x2000C, [], 0xFFFF, 0, 0, [], 0⟩,  -- SLOTS
  ⟨0x20010, [], 0xFFFF, 0, 0, [], 0x400⟩,  -- EPOCH_PER
  ⟨0x20014, [], 0xFFFF, 0, 0, [], 0⟩,  -- SEND_CTL
  ⟨0x20018, [], 0xFFFF, 0, 0, [], 0⟩,  -- SEND_NUM
  ⟨0x2001C, [], 0xFF80, 0, 0, [], 0⟩,  -- HOLD_STAT
  ⟨0x20020, [(8, 4)], 0xFFFF, 0, 0, [], 0⟩,  -- TFWD
  ⟨0x20040, [], 0, 0, 0, [], 0⟩,  -- D_L
  ⟨0x20044, [], 0, 0, 0, [], 0⟩,  -- D_H
  ⟨0x20048, [], 0, 0, 0, [], 0⟩,  -- HOP_DLY
  ⟨0x2004C, [], 0, 0, 0, [], 0⟩,  -- RELAY_DLY
  ⟨0x20050, [], 0, 0, 0, [], 0⟩,  -- LOOP_L
  ⟨0x20054, [], 0, 0, 0, [], 0⟩,  -- LOOP_H
  ⟨0x20058, [], 0xFC00, 0, 0, [], 0⟩,  -- PHASE
  ⟨0x2005C, [], 0, 0, 0, [], 0⟩,  -- OFFSET
  ⟨0x20060, [], 0, 0, 0, [], 0⟩,  -- ESEQ
  ⟨0x20100, [(64, 4)], 0x3FC0, 0, 0, [], 0⟩]  -- ROSTER

/-- TDCC, Table 10-7. -/
def rowsTDCC : List RegRow := [
  ⟨0x28000, [], 0xFFFF, 0, 0, [(0, 1)], 7⟩,  -- TB_CFG
  ⟨0x28004, [], 0xFFFF, 0, 0, [], 0⟩,  -- XO_AGE
  ⟨0x28008, [], 0, 0, 0, [], 0x8000⟩,  -- XO_PULL
  ⟨0x2800C, [], 0xFFFC, 0, 2, [], 0⟩,  -- TB_STAT
  ⟨0x28010, [], 0xFFFE, 0, 0, [], 0⟩,  -- BORROW
  ⟨0x28040, [(16, 4)], 0xFFF0, 0, 2, [], 0⟩,  -- DLL_STAT
  ⟨0x28080, [], 0, 0xFFFF, 0, [], 0⟩]  -- RELOCK

/-- MEM, Table 4-5. -/
def rowsMEM : List RegRow := [
  ⟨0x30000, [], 0xFFE0, 0, 0, [], 0⟩,  -- ID
  ⟨0x30004, [], 0xFFFF, 0, 0, [], 0⟩,  -- CFG
  ⟨0x30008, [], 0xFFFF, 0, 0, [], 0x2C⟩,  -- HOSTBW
  ⟨0x3000C, [], 0xFF80, 0, 0x7F, [], 0⟩,  -- FAULT
  ⟨0x30010, [], 0, 0, 0, [], 0⟩,  -- ERR_ADDR0
  ⟨0x30014, [], 0, 0, 0, [], 0⟩,  -- ERR_ADDR1
  ⟨0x30018, [], 0, 0, 0, [], 0⟩,  -- ERR_ADDR2
  ⟨0x30100, [(16, 0x10)], 0x7FFF, 0, 0, [], 0⟩,  -- WIN_BASE
  ⟨0x30104, [(16, 0x10)], 0x7FFF, 0, 0, [], 0⟩,  -- WIN_SIZE
  ⟨0x30200, [(16, 0x20)], 0xFFFF, 0, 0, [], 0x10⟩,  -- QCFG
  ⟨0x30204, [(16, 0x20)], 0, 1, 0, [], 0⟩,  -- QCMD
  ⟨0x30208, [(16, 0x20)], 0xFFC0, 0, 0x1F, [], 0⟩,  -- QSTAT
  ⟨0x3020C, [(16, 0x20)], 0, 0, 0, [], 0xFFFF⟩,  -- MIN_SLACK
  ⟨0x30210, [(16, 0x20)], 0, 0, 0x8000, [], 0⟩,  -- LAST_RID
  ⟨0x30214, [(16, 0x20)], 0, 0, 0, [], 0⟩,  -- ERR_SEG_L
  ⟨0x30218, [(16, 0x20)], 0, 0, 0, [], 0⟩,  -- ERR_SEG_H
  ⟨0x3021C, [(16, 0x20)], 0, 0, 0, [], 0⟩,  -- STAGE_PEAK
  ⟨0x34000, [(2048, 4)], 0xFFFF, 0, 0, [], 0⟩]  -- RDY

/-- MASK, R95. -/
def rowsMASK : List RegRow := [
  ⟨0x38000, [(16, 0x400), (64, 0x10), (4, 4)], 0xFFFF, 0, 0, [], 0⟩]  -- W

/-- HOST, Table 2-9. -/
def rowsHOST : List RegRow := [
  ⟨0x40000, [], 0xF800, 0, 0x600, [], 0⟩,  -- LINK_STAT
  ⟨0x40004, [], 0xFFFF, 0, 0, [], 0xB⟩]  -- IRQ_CFG

/-- RING, Table 9-8. -/
def rowsRING : List RegRow := [
  ⟨0x40100, [], 0xFFFF, 0, 0, [], 0⟩,  -- CTRL
  ⟨0x40104, [], 0xFFFF, 0, 0, [], 0x2C⟩,  -- PUMPBW
  ⟨0x40108, [], 0xFFFF, 0, 0, [], 0⟩,  -- CB_BASE0
  ⟨0x4010C, [], 0xFFFF, 0, 0, [], 0⟩,  -- CB_BASE1
  ⟨0x40110, [], 0xFFFF, 0, 0, [], 0⟩,  -- CB_BASE2
  ⟨0x40114, [], 0xF, 0, 0, [], 0⟩,  -- CB_BASE3
  ⟨0x40118, [], 0xFFFF, 0, 0, [], 0x1001⟩,  -- COAL
  ⟨0x4011C, [], 0xFFE0, 0, 0x1F, [], 0⟩,  -- STAT
  ⟨0x40120, [], 0, 0, 0, [], 0⟩,  -- ERR_RING
  ⟨0x40124, [], 0xFFFF, 0, 0, [], 0⟩,  -- SEL
  ⟨0x40128, [], 0xFFF8, 0, 0, [], 0⟩,  -- S_STAT
  ⟨0x4012C, [], 0, 0, 0, [], 0⟩,  -- S_FILL_L
  ⟨0x40130, [], 0, 0, 0, [], 0⟩,  -- S_FILL_H
  ⟨0x40134, [], 0, 0, 0, [], 0⟩,  -- S_RSEQ_L
  ⟨0x40138, [], 0, 0, 0, [], 0⟩,  -- S_RSEQ_H
  ⟨0x4013C, [], 0, 0, 0, [], 0⟩]  -- S_LOST

/-- QRES, Table 9-9. -/
def rowsQRES : List RegRow := [
  ⟨0, [], 0xFFFF, 0, 0, [], 1⟩,  -- CFG
  ⟨4, [], 0xFFFF, 0, 0, [], 0⟩,  -- RT_FAIL
  ⟨8, [], 0xFFFF, 0, 0, [], 0⟩,  -- RT_SUM
  ⟨0xC, [], 0xFFFF, 0, 0, [], 0⟩,  -- RT_BIN
  ⟨0x10, [], 0xFFFF, 0, 0, [], 0⟩,  -- RT_PPMU
  ⟨0x14, [], 0xFFFF, 0, 0, [], 0⟩,  -- RT_TIME
  ⟨0x18, [], 0xFFFF, 0, 0, [], 0⟩,  -- RT_CTL
  ⟨0x1C, [], 0xFFFF, 0, 0, [], 4⟩,  -- REC_UNITS
  ⟨0x20, [], 0xFFFF, 0, 0, [], 0x1082⟩,  -- LAD
  ⟨0x24, [], 0xFFF0, 0, 0xC, [], 0⟩,  -- LSTAT
  ⟨0x28, [], 0, 0, 0, [], 0⟩,  -- FILL
  ⟨0x2C, [], 0, 0, 0, [], 0⟩,  -- PEAK
  ⟨0x30, [], 0xFFFF, 0, 0, [], 0xFF01⟩,  -- BINS
  ⟨0x34, [], 0xFF, 0, 0, [], 0xFE⟩,  -- DEF_FAIL
  ⟨0x38, [], 0, 0, 0, [], 0⟩,  -- SITES
  ⟨0x3C, [], 0xFFE0, 0, 0x1F, [], 0⟩,  -- STAT
  ⟨0x40, [(8, 4)], 0, 0, 0, [], 0⟩,  -- SITE_BIN
  ⟨0x60, [], 0xFFFF, 0, 0, [], 0⟩,  -- CAP_CFG
  ⟨0x64, [], 0xFFFF, 0, 0, [], 0⟩,  -- CAP_BASE_L
  ⟨0x68, [], 0x7F, 0, 0, [], 0⟩,  -- CAP_BASE_H
  ⟨0x6C, [], 0xF, 0, 0, [], 0⟩,  -- CAP_SIZE
  ⟨0x70, [], 0, 0, 0, [], 0⟩,  -- CAP_WIDX_L
  ⟨0x74, [], 0, 0, 0, [], 0⟩,  -- CAP_WIDX_H
  ⟨0x80, [(16, 8)], 0xFFFF, 0, 0, [], 0⟩,  -- BT_LO
  ⟨0x84, [(16, 8)], 0xFF, 0, 0, [], 0⟩]  -- BT_BIN

/-- CAL, Table 13-7. -/
def rowsCAL : List RegRow := [
  ⟨0x50000, [], 0xFFFF, 0, 0, [(0, 1)], 1⟩,  -- CTRL
  ⟨0x50004, [], 0xFFFF, 0, 0, [(10, 5), (15, 1)], 0xA900⟩,  -- CFG
  ⟨0x50008, [], 0xFFF8, 0, 7, [], 0⟩,  -- STAT
  ⟨0x5000C, [], 0, 0, 0, [], 0⟩,  -- ARB_Q
  ⟨0x50010, [], 0xFFFC, 0, 0, [], 0⟩,  -- ARB_C
  ⟨0x50014, [], 0xFFE0, 0, 0x1F, [], 0⟩,  -- ARB_WAIT
  ⟨0x50018, [], 0xFFDF, 0, 0, [], 0⟩,  -- MREQ
  ⟨0x50080, [], 0xFFFF, 0, 0, [], 0⟩,  -- SEL
  ⟨0x50084, [], 0, 0, 0, [], 0⟩,  -- S_THR
  ⟨0x50088, [], 0, 0, 0, [], 0⟩,  -- S_EDGE
  ⟨0x5008C, [], 0, 0, 0, [], 0⟩,  -- S_AGE
  ⟨0x50090, [], 0xFFF8, 0, 0, [], 0⟩]  -- S_STAT

/-- NVM, Table 13-8. -/
def rowsNVM : List RegRow := [
  ⟨0x58000, [], 0xFFFC, 3, 0, [], 0⟩,  -- CMD
  ⟨0x58004, [], 0xFFFF, 0, 0, [], 0⟩,  -- SEL
  ⟨0x58008, [], 0xFE01, 0, 0x1FA, [], 0⟩,  -- STAT
  ⟨0x5800C, [], 0x1FFF, 0, 0, [], 0⟩,  -- CUR
  ⟨0x58010, [], 0, 0, 0, [], 0⟩,  -- GEN_L
  ⟨0x58014, [], 0, 0, 0, [], 0⟩,  -- GEN_H
  ⟨0x58018, [], 0, 0, 0, [], 0⟩,  -- CYC_L
  ⟨0x5801C, [], 0, 0, 0, [], 0⟩,  -- CYC_H
  ⟨0x58020, [], 0, 0, 0, [], 0⟩,  -- BAD_L
  ⟨0x58024, [], 0, 0, 0, [], 0⟩,  -- BAD_H
  ⟨0x583FC, [], 0xFFFC, 0, 2, [], 0⟩]  -- PSTAT

/-- THM, Table 15-11. -/
def rowsTHM : List RegRow := [
  ⟨0x60000, [], 0xFFFF, 0, 0, [(1, 1)], 3⟩,  -- CFG
  ⟨0x60004, [], 0xFFFF, 0, 0, [(0, 16)], 0x690⟩,  -- WARN
  ⟨0x60008, [], 0xFF80, 0, 0x1D, [], 0⟩,  -- STAT
  ⟨0x6000C, [], 0, 0, 0, [], 0⟩,  -- BROKEN_L
  ⟨0x60010, [], 0xFFFE, 0, 0, [], 0⟩,  -- BROKEN_H
  ⟨0x60014, [], 0, 0xFFFF, 0, [], 0⟩,  -- BROKEN_CLR_L
  ⟨0x60018, [], 0xFFFE, 1, 0, [], 0⟩,  -- BROKEN_CLR_H
  ⟨0x60040, [(17, 4)], 0, 0, 0, [], 0⟩,  -- T
  ⟨0x60080, [(17, 4)], 0, 0, 0, [], 0⟩,  -- RAW
  ⟨0x600C0, [], 0, 0, 0, [], 0⟩]  -- MAX

/-- LEDG, Table 8-6. -/
def rowsLEDG : List RegRow := [
  ⟨0x64000, [(8, 4)], 0, 0, 0, [], 0⟩,  -- PROF of profile 0 (R191)
  ⟨0x64020, [(255, 0x20), (8, 4)], 0xFFFF, 0, 0, [], 0⟩,  -- PROF
  ⟨0x66000, [(8, 4)], 0xFFFF, 0, 0, [(0, 16)], 0⟩,  -- BUDGET
  ⟨0x66020, [(8, 4)], 0xFFFF, 0, 0, [(0, 16)], 0⟩,  -- CHIP_BASE
  ⟨0x66040, [(8, 4)], 0xFFFF, 0, 0, [(0, 16)], 0⟩,  -- RESV
  ⟨0x66060, [(8, 4)], 0xFFFF, 0, 0, [(0, 16)], 0x32⟩,  -- MARGIN_ABS
  ⟨0x66080, [], 0xFBFF, 0x400, 0, [(0, 1), (1, 3), (4, 6)], 0x55⟩,  -- CTRL
  ⟨0x66084, [], 0xFFFF, 0, 0, [(0, 8), (8, 8)], 0⟩,  -- BASE
  ⟨0x66088, [], 0xFFFF, 0, 0, [(0, 8)], 0⟩,  -- BASE_IDLE
  ⟨0x66090, [(4, 4)], 0xFFFF, 0, 0, [(0, 8)], 0⟩,  -- RESPROF
  ⟨0x660A0, [], 0xFE01, 0, 0x1FE, [], 0⟩,  -- STAT
  ⟨0x660A4, [], 0xF800, 0, 0, [], 0⟩,  -- FIRST
  ⟨0x660A8, [], 0, 0, 0, [], 0⟩,  -- L2_ADDR
  ⟨0x660B0, [], 0xFFFF, 0, 0, [], 0⟩,  -- OBS_SEL
  ⟨0x660B4, [], 0, 0, 0, [], 0⟩,  -- OBS_PRED
  ⟨0x660B8, [], 0, 0, 0, [], 0⟩,  -- OBS_MEAS
  ⟨0x660BC, [], 0, 0, 0, [], 0⟩,  -- OBS_PEAK
  ⟨0x660C0, [], 0, 0, 0, [], 0⟩,  -- OBS_WIN
  ⟨0x66100, [(16, 0x20), (8, 4)], 0xFFFF, 0, 0, [(0, 16)], 0⟩,  -- QCEIL
  ⟨0x66300, [(16, 4)], 0xFFFF, 0, 0, [], 0⟩,  -- QADJ
  ⟨0x66340, [], 0xFFF8, 0, 0, [], 0⟩]  -- RESADM

/-- EVC, Table 2-6, R45. -/
def rowsEVC : List RegRow := [
  ⟨0x68000, [(64, 0x20)], 0xF7FF, 0x800, 0, [], 0⟩,  -- SEL
  ⟨0x68004, [(64, 0x20)], 0, 0, 0, [], 0⟩,  -- CNT_L
  ⟨0x68008, [(64, 0x20)], 0, 0, 0, [], 0⟩,  -- CNT_M
  ⟨0x6800C, [(64, 0x20)], 0, 0, 0, [], 0⟩,  -- CNT_H
  ⟨0x6801C, [(64, 0x20)], 0xFFFC, 0, 3, [], 0⟩,  -- STAT
  ⟨0x68010, [(64, 0x20)], 0, 0, 0, [], 0⟩,  -- SNAP_L
  ⟨0x68014, [(64, 0x20)], 0, 0, 0, [], 0⟩,  -- SNAP_M
  ⟨0x68018, [(64, 0x20)], 0, 0, 0, [], 0⟩,  -- SNAP_H
  ⟨0x68800, [], 0xFFFA, 5, 0, [], 0⟩,  -- CTRL
  ⟨0x68804, [], 0xFFFF, 0, 0, [], 0⟩]  -- SNAP_MARK

/-- CTXN, Table 2-5. -/
def rowsCTXN : List RegRow := [
  ⟨0, [], 0xFFF8, 7, 0, [], 0⟩,  -- CTRL
  ⟨4, [], 0xFFFF, 0, 0, [], 0⟩,  -- MARK
  ⟨8, [], 0xF800, 0, 0x7E0, [], 0⟩,  -- STAT
  ⟨0xC, [], 0xF800, 0, 0, [], 0⟩,  -- FILL
  ⟨0x10, [(4, 4)], 0, 0, 0, [], 0⟩]  -- CTIME

/-- SG, Table 7-5. -/
def rowsSG : List RegRow := [
  ⟨0, [], 0xFFFF, 0, 0, [(0, 1), (3, 1)], 0⟩,  -- CTRL
  ⟨4, [], 0xFFFF, 0, 0, [], 0⟩,  -- HYST
  ⟨8, [], 0xFFFF, 0, 0, [], 1⟩,  -- BLANK
  ⟨0xC, [], 0xFFFF, 0, 0, [(0, 8), (8, 4), (12, 1)], 0⟩,  -- OWN
  ⟨0x10, [], 0xFFFF, 0, 0, [(0, 8)], 0⟩,  -- ACT
  ⟨0x14, [], 0xFFFF, 0, 0, [(0, 16)], 0⟩,  -- VLO
  ⟨0x18, [], 0xFFFF, 0, 0, [(0, 16)], 0xFFFF⟩,  -- VHI
  ⟨0x1C, [], 0xFFFF, 0, 0, [(0, 16)], 0⟩,  -- ILO
  ⟨0x20, [], 0xFFFF, 0, 0, [(0, 16)], 0xFFFF⟩,  -- IHI
  ⟨0x24, [], 0xFFFF, 0, 0, [(0, 16)], 0x8000⟩,  -- ICRIT
  ⟨0x28, [], 0xFFFF, 0, 0, [], 0x3F⟩,  -- PERIOD
  ⟨0x2C, [], 0xFFFE, 1, 0, [], 0⟩,  -- CMD
  ⟨0x30, [], 0, 0, 0, [], 0⟩,  -- TRIP
  ⟨0x34, [], 0, 0, 0x1F, [], 0⟩,  -- TRIP_EVT
  ⟨0x38, [], 0, 0, 0, [], 0⟩,  -- LIVE
  ⟨0x3C, [], 0x1F, 0, 0, [], 0⟩,  -- IRQ_EN
  ⟨0x40, [], 0, 0, 0, [], 0⟩,  -- V_RES_L
  ⟨0x44, [], 0, 0, 0, [], 0⟩,  -- V_RES_H
  ⟨0x48, [], 0, 0, 0, [], 0⟩,  -- I_RES_L
  ⟨0x4C, [], 0, 0, 0, [], 0⟩,  -- I_RES_H
  ⟨0x50, [], 0, 0, 3, [], 0⟩,  -- RES_STAT
  ⟨0x3FC, [], 0xFFFC, 0, 2, [], 0⟩]  -- PSTAT

/-- SPX0, Tables 12-8, 12-9. -/
def rowsSPX0 : List RegRow := [
  ⟨0, [], 0xFFFB, 4, 0, [], 0⟩,  -- CTRL
  ⟨4, [], 0xFFFF, 0, 0, [], 0x1F⟩,  -- CLK
  ⟨8, [], 0xFFFF, 0, 0, [], 0x111⟩,  -- TIMING
  ⟨0xC, [], 0xFFFF, 0, 0, [], 0xFF⟩,  -- BUSY
  ⟨0x10, [], 0xFFFF, 0, 0, [], 0xA⟩,  -- IDLE
  ⟨0x14, [], 0x3FF, 0, 0, [], 0⟩,  -- TX_ADD
  ⟨0x18, [], 0, 0, 0, [], 0⟩,  -- TX_AVAIL
  ⟨0x1C, [], 0xC001, 0, 0xFFE, [], 0⟩,  -- STAT
  ⟨0x20, [], 0, 0, 0, [], 0⟩,  -- RXCNT
  ⟨0x24, [], 0, 0, 0, [], 0⟩,  -- INC_BITS
  ⟨0x80, [], 0xFFF0, 0, 0, [], 0⟩,  -- BOOT_STAT
  ⟨0x100, [(16, 0x20)], 0xFFFF, 0, 0, [], 0x80⟩,  -- S_CTRL
  ⟨0x104, [(16, 0x20)], 0xFFFF, 0, 0, [], 0⟩,  -- S_CMD
  ⟨0x108, [(16, 0x20)], 0xFFFF, 0, 0, [], 0⟩,  -- S_BITS
  ⟨0x10C, [(16, 0x20)], 0xFFFF, 0, 0, [], 0⟩,  -- S_ADDR_L
  ⟨0x110, [(16, 0x20)], 0xFFFF, 0, 0, [], 0⟩,  -- S_ADDR_H
  ⟨0x114, [(16, 0x20)], 0x3FFF, 0, 0, [], 0x1F⟩,  -- S_LEN
  ⟨0x118, [(16, 0x20)], 0x1FF, 0, 0, [], 0⟩,  -- S_TXOFF
  ⟨0x11C, [(16, 0x20)], 0x1FF, 0, 0, [], 0⟩]  -- S_RXOFF

/-- SPX1, Table 12-10. -/
def rowsSPX1 : List RegRow := [
  ⟨0x81000, [], 0xFFFF, 0, 0, [], 0xFF0A⟩,  -- CFG
  ⟨0x81004, [], 0xE001, 0, 0xFE, [], 0⟩,  -- STAT
  ⟨0x81008, [], 0xFFFF, 0, 0, [], 1⟩,  -- ATTN_MASK
  ⟨0x8100C, [], 0, 0, 0, [], 0⟩,  -- WQ
  ⟨0x81010, [], 0, 0, 0, [], 0⟩,  -- LAST_ADDR_L
  ⟨0x81014, [], 0, 0, 0, [], 0⟩,  -- LAST_ADDR_H
  ⟨0x81018, [], 0, 0, 0, [], 0⟩,  -- LAST_DATA_L
  ⟨0x8101C, [], 0, 0, 0, [], 0⟩]  -- LAST_DATA_H

/-- PE, Tables 12-8, 12-9. -/
def rowsPE : List RegRow := [
  ⟨0, [], 0xFFFB, 4, 0, [], 0⟩,  -- CTRL
  ⟨4, [], 0xFFFF, 0, 0, [], 0x1F⟩,  -- CLK
  ⟨8, [], 0xFFFF, 0, 0, [], 0x111⟩,  -- TIMING
  ⟨0xC, [], 0xFFFF, 0, 0, [], 0xFF⟩,  -- BUSY
  ⟨0x10, [], 0xFFFF, 0, 0, [], 0xA⟩,  -- IDLE
  ⟨0x14, [], 0x3FF, 0, 0, [], 0⟩,  -- TX_ADD
  ⟨0x18, [], 0, 0, 0, [], 0⟩,  -- TX_AVAIL
  ⟨0x1C, [], 0xC001, 0, 0xFFE, [], 0⟩,  -- STAT
  ⟨0x20, [], 0, 0, 0, [], 0⟩,  -- RXCNT
  ⟨0x24, [], 0, 0, 0, [], 0⟩,  -- INC_BITS
  ⟨0x40, [(13, 4)], 0xFFFF, 0, 0, [], 0⟩,  -- PIN
  ⟨0x100, [(16, 0x20)], 0xFFFF, 0, 0, [], 0x80⟩,  -- S_CTRL
  ⟨0x104, [(16, 0x20)], 0xFFFF, 0, 0, [], 0⟩,  -- S_CMD
  ⟨0x108, [(16, 0x20)], 0xFFFF, 0, 0, [], 0⟩,  -- S_BITS
  ⟨0x10C, [(16, 0x20)], 0xFFFF, 0, 0, [], 0⟩,  -- S_ADDR_L
  ⟨0x110, [(16, 0x20)], 0xFFFF, 0, 0, [], 0⟩,  -- S_ADDR_H
  ⟨0x114, [(16, 0x20)], 0x3FFF, 0, 0, [], 0x1F⟩,  -- S_LEN
  ⟨0x118, [(16, 0x20)], 0x1FF, 0, 0, [], 0⟩,  -- S_TXOFF
  ⟨0x11C, [(16, 0x20)], 0x1FF, 0, 0, [], 0⟩]  -- S_RXOFF

/-- QSEQ, Table 3-8. -/
def rowsQSEQ : List RegRow := [
  ⟨0, [], 0xFFC0, 0x3F, 0, [], 0⟩,  -- CTRL
  ⟨4, [], 0xFFFF, 0, 0, [], 0⟩,  -- START_ADDR
  ⟨8, [], 0xFFFF, 0, 0, [], 0⟩,  -- MARK_N
  ⟨0xC, [], 0xF030, 0, 0xFC0, [], 0⟩,  -- STAT
  ⟨0x10, [], 0, 0, 0, [], 0⟩,  -- PC
  ⟨0x14, [], 0, 0, 0, [], 0⟩,  -- SSN_L
  ⟨0x18, [], 0, 0, 0, [], 0⟩,  -- SSN_H
  ⟨0x1C, [], 0xFFFF, 0, 0, [], 8⟩,  -- CFG
  ⟨0x20, [], 0xFFFF, 0, 0, [], 0⟩,  -- SITE_CFG
  ⟨0x24, [], 0, 0xFFFF, 0, [], 0⟩,  -- FLAG_SET
  ⟨0x28, [], 0, 0, 0, [], 0⟩,  -- FLAG
  ⟨0x2C, [], 0, 0xFFFF, 0, [], 0⟩,  -- FLAG_CLR
  ⟨0x30, [], 0, 0, 0, [], 0⟩,  -- LATE
  ⟨0x34, [], 0x4000, 0, 0, [], 0⟩,  -- DEFER
  ⟨0x38, [], 0, 0, 0, [], 0⟩,  -- DEFER_OVR
  ⟨0x3C, [], 0xFF80, 0, 0, [], 0⟩,  -- STACK
  ⟨0x40, [], 0, 0, 0, [], 0⟩,  -- LOOP_L
  ⟨0x44, [], 0xFF00, 0, 0, [], 0⟩,  -- LOOP_H
  ⟨0x48, [], 0xFFFF, 0, 0, [], 0⟩,  -- STALL_LEDG
  ⟨0x4C, [], 0xFFFF, 0, 0, [], 0⟩,  -- IRQ_EN
  ⟨0x50, [], 0xFFFF, 0, 0, [], 0⟩,  -- MARK_IRQ_MASK
  ⟨0x54, [], 0xFFF8, 0, 7, [], 0⟩,  -- IRQ_STAT
  ⟨0x58, [], 0xFC00, 0, 0x3FF, [], 0⟩,  -- FAULT
  ⟨0x5C, [], 0, 0, 0, [], 0⟩]  -- FAULT_PC

/-- QTS, Table 5-9. -/
def rowsQTS : List RegRow := [
  ⟨0, [], 0xFFFF, 0, 0, [], 3⟩,  -- CFG
  ⟨4, [], 0xFFE0, 0, 0x1F, [], 0⟩,  -- STAT
  ⟨8, [], 0xC000, 0, 0, [], 0⟩,  -- ERR_TS
  ⟨0xC, [], 0, 0, 0, [], 0⟩,  -- CLIP_CNT
  ⟨0x10, [], 0xFFE0, 0, 0, [], 0⟩,  -- ACTIVE
  ⟨0x400, [(64, 8)], 0, 0, 0, [], 0⟩,  -- CORR_D
  ⟨0x404, [(64, 8)], 0, 0, 0, [], 0⟩,  -- CORR_C
  ⟨0x800, [(64, 0x20)], 0xFFFF, 0, 0, [], 0⟩,  -- DSK_D
  ⟨0x804, [(64, 0x20)], 0xFFFF, 0, 0, [], 0⟩,  -- DSK_C
  ⟨0x808, [(64, 0x20)], 0xFFFF, 0, 0, [], 0⟩,  -- FTW_L
  ⟨0x80C, [(64, 0x20)], 0xFFFF, 0, 0, [], 0⟩,  -- FTW_M
  ⟨0x810, [(64, 0x20)], 0xFFFF, 0, 0, [], 0⟩,  -- FTW_H
  ⟨0x814, [(64, 0x20)], 0xFFFF, 0, 0, [], 0⟩,  -- NCO_PH
  ⟨0x818, [(64, 0x20)], 0xFFFF, 0, 0, [], 0x8000⟩]  -- NCO_DUTY

/-- QTXN, Table 2-5. -/
def rowsQTXN : List RegRow := [
  ⟨0, [], 0xFFF8, 7, 0, [], 0⟩,  -- CTRL
  ⟨4, [], 0xFFFF, 0, 0, [], 0⟩,  -- MARK
  ⟨8, [], 0xF800, 0, 0x7E0, [], 0⟩,  -- STAT
  ⟨0xC, [], 0xF800, 0, 0, [], 0⟩,  -- FILL
  ⟨0x10, [(4, 4)], 0, 0, 0, [], 0⟩]  -- CTIME

/-- TDC, Table 10-6. -/
def rowsTDC : List RegRow := [
  ⟨0, [], 0xFFF9, 6, 0, [], 0⟩,  -- CTRL
  ⟨4, [], 0xFFFF, 0, 0, [], 0⟩,  -- ARM_CFG
  ⟨8, [], 0xFFFF, 0, 0, [], 0⟩,  -- ARM_MARK
  ⟨0xC, [], 0xFFFF, 0, 0, [], 0⟩,  -- START_SEL
  ⟨0x10, [], 0xFFFF, 0, 0, [], 0⟩,  -- STOP_SEL
  ⟨0x14, [], 0xFFFF, 0, 0, [], 1⟩,  -- NSTOP
  ⟨0x18, [], 0xFFFF, 0, 0, [], 0⟩,  -- TMO
  ⟨0x1C, [], 0xFFFF, 0, 0, [], 0⟩,  -- CFG
  ⟨0x20, [], 0xF801, 0, 0x7FE, [], 0⟩,  -- STAT
  ⟨0x24, [], 0xFF0C, 0, 0, [], 0⟩,  -- STATE
  ⟨0x28, [], 0, 0, 0, [], 0⟩,  -- START_DT0
  ⟨0x2C, [], 0, 0, 0, [], 0⟩,  -- START_DT1
  ⟨0x30, [], 0, 0, 0, [], 0⟩,  -- START_DT2
  ⟨0x34, [], 0, 0, 0, [], 0⟩,  -- START_DT3
  ⟨0x38, [], 0xF800, 0, 0, [], 0⟩,  -- START_FINE
  ⟨0x40, [(15, 8)], 0, 0, 0, [], 0⟩,  -- STOP_L
  ⟨0x44, [(15, 8)], 0, 0, 0, [], 0⟩]  -- STOP_H

/-- CH, Tables 6-8, 7-4. -/
def rowsCH : List RegRow := [
  ⟨0, [], 0xFFFF, 0, 0, [], 4⟩,  -- DRV_CTRL
  ⟨4, [], 0xFFFF, 0, 0, [], 0⟩,  -- CMP_CTRL
  ⟨8, [], 0xFFEF, 0x10, 0, [(0, 1), (1, 2)], 1⟩,  -- PROT
  ⟨0xC, [], 0xFC00, 0, 0x7C, [], 0⟩,  -- STAT
  ⟨0x10, [], 0, 0, 0, [], 0⟩,  -- CMP_CORR
  ⟨0x14, [], 0xFFFC, 0, 0, [], 0⟩,  -- CMP_STATE
  ⟨0x40, [(7, 0x10)], 0xFFFF, 0, 0, [], 0x8000⟩,  -- LVL_TGT of DACs 0 to 6
  ⟨0xB0, [(2, 0x10)], 0xFFFF, 0, 0, [(0, 16)], 0x8000⟩,  -- LVL_TGT of OVDH and OVDL
  ⟨0xD0, [(3, 0x10)], 0xFFFF, 0, 0, [], 0x8000⟩,  -- LVL_TGT of DACs 9 to 11
  ⟨0x44, [(12, 0x10)], 0, 0, 0, [], 0x8000⟩,  -- LVL_OUT
  ⟨0x48, [(12, 0x10)], 0xFFFF, 0, 0, [], 0x40⟩,  -- LVL_STEP
  ⟨0x4C, [(12, 0x10)], 0xFFFF, 0, 0, [], 0⟩,  -- LVL_RATE
  ⟨0x100, [], 0xFFEF, 0x10, 0, [], 0⟩,  -- LQ_CFG
  ⟨0x104, [], 0xFFFF, 0, 0, [], 0⟩,  -- LQ_DIV
  ⟨0x108, [], 0xFFFF, 0, 0, [], 0⟩,  -- LQ_PUSH
  ⟨0x10C, [], 0xFC00, 0, 0x3C0, [], 0⟩,  -- LQ_STAT
  ⟨0x180, [], 0xFFFF, 0, 0, [], 0x20⟩,  -- PMU_CTRL
  ⟨0x184, [], 0xFFFF, 0, 0, [], 0⟩,  -- PMU_MEAS
  ⟨0x188, [], 0xFFFF, 0, 0, [], 0⟩,  -- PMU_DLY
  ⟨0x18C, [], 0xFFFC, 3, 0, [], 0⟩,  -- PMU_CMD
  ⟨0x190, [], 0xF803, 0, 0x4FC, [], 0⟩,  -- PMU_STAT
  ⟨0x194, [], 0, 0, 0, [], 0⟩,  -- RES_L
  ⟨0x198, [], 0xFF00, 0, 0, [], 0⟩,  -- RES_H
  ⟨0x19C, [], 0, 0, 0, [], 0⟩,  -- RES_CNT
  ⟨0x1A0, [], 0xFFF0, 0, 0, [], 0⟩,  -- RES_INFO
  ⟨0x1A4, [], 0xFFFF, 0, 0, [], 0⟩,  -- LIMLO_L
  ⟨0x1A8, [], 0xFFFF, 0, 0, [], 0x80⟩,  -- LIMLO_H
  ⟨0x1AC, [], 0xFFFF, 0, 0, [], 0xFFFF⟩,  -- LIMHI_L
  ⟨0x1B0, [], 0xFFFF, 0, 0, [], 0x7F⟩,  -- LIMHI_H
  ⟨0x1FC, [], 0xFFFC, 0, 2, [], 0⟩]  -- PSTAT

/-- The central blocks (R386). SPX1 stands before SPX0's buffers, which R387 lets it hide. -/
def centralBlocks : List RegBlock := [
  ⟨0, 0x3FF, 0, [], rowsCHIP⟩,
  ⟨0x400, 0x47F, 0, [], rowsMARK⟩,
  ⟨0x1000, 0x13FF, 0, [], rowsCLK⟩,
  ⟨0x2000, 0x27FF, 0, [], rowsPWR⟩,
  ⟨0x10000, 0x17FFF, 0, [], rowsFLT⟩,
  ⟨0x20000, 0x201FF, 0, [], rowsLACE⟩,
  ⟨0x28000, 0x280FF, 0, [], rowsTDCC⟩,
  ⟨0x30000, 0x35FFF, 0, [], rowsMEM⟩,
  ⟨0x38000, 0x3BFFF, 0, [], rowsMASK⟩,
  ⟨0x40000, 0x400FF, 0, [], rowsHOST⟩,
  ⟨0x40100, 0x401FF, 0, [], rowsRING⟩,
  ⟨0x41000, 0x41FFF, 0x41000, [(16, 0x100)], rowsQRES⟩,
  ⟨0x50000, 0x500FF, 0, [], rowsCAL⟩,
  ⟨0x58000, 0x583FF, 0, [], rowsNVM⟩,
  ⟨0x60000, 0x600FF, 0, [], rowsTHM⟩,
  ⟨0x64000, 0x663FF, 0, [], rowsLEDG⟩,
  ⟨0x68000, 0x688FF, 0, [], rowsEVC⟩,
  ⟨0x6C000, 0x6C01F, 0x6C000, [], rowsCTXN⟩,
  ⟨0x70000, 0x7FFFF, 0x70000, [(64, 0x400)], rowsSG⟩,
  ⟨0x80000, 0x802FF, 0x80000, [], rowsSPX0⟩,
  ⟨0x81000, 0x8101F, 0, [], rowsSPX1⟩,
  ⟨0x84000, 0xA3FFF, 0x84000, [(16, 0x2000)], rowsPE⟩]

/-- The blocks of a quarter (R388), by offset in the quarter block. -/
def quarterBlocks : List RegBlock := [
  ⟨0, 0x5F, 0, [], rowsQSEQ⟩,
  ⟨0x1000, 0x1FFF, 0x1000, [], rowsQTS⟩,
  ⟨0x2000, 0x201F, 0x2000, [], rowsQTXN⟩,
  ⟨0x3000, 0x33FF, 0x3000, [(4, 0x100)], rowsTDC⟩,
  ⟨0x8000, 0xFFFF, 0x8000, [(64, 0x200)], rowsCH⟩]

/-- An offset lies on an indexed register: each index within its count, nothing left over. -/
def dimsHit : List (Nat × Nat) → Nat → Bool
  | [], d => d == 0
  | (n, st) :: ds, d => d / st < n && dimsHit ds (d % st)

def rowHit (r : RegRow) (o : Nat) : Bool := r.off ≤ o && dimsHit r.dims (o - r.off)

/-- The offset inside one instance of a block. -/
def blockOffset (b : RegBlock) (a : Nat) : Nat :=
  match b.inst with
  | [] => a - b.base
  | (_, st) :: _ => (a - b.base) % st

def blockHit (b : RegBlock) (a : Nat) : Bool := b.lo ≤ a && a ≤ b.hi

def findRow (bs : List RegBlock) (a : Nat) : Option RegRow :=
  match bs.find? (fun b => blockHit b a) with
  | none => none
  | some b => b.rows.find? (fun r => rowHit r (blockOffset b a))

/-- The register at a BAR0 address, if there is one (R386, R388). -/
def rowOf (a : Nat) : Option RegRow :=
  if 0x100000 ≤ a && a < 0x200000 then findRow quarterBlocks ((a - 0x100000) % 0x10000)
  else if a < 0x100000 then findRow centralBlocks a
  else none

/-- The address lies in a listed range (R386, R388): an offset the map does not list there reads 0 and
discards writes without a report. -/
def inListedRange (a : Nat) : Bool :=
  if 0x100000 ≤ a && a < 0x200000 then quarterBlocks.any (fun b => blockHit b ((a - 0x100000) % 0x10000))
  else if a < 0x100000 then centralBlocks.any (fun b => blockHit b a)
  else false

end Sys2Proof.Machine
end

