-- ==== Sys2Proof/Machine/RegNames.lean ====
section
/-! DEFINITION. Names for registers (`R.<block>_<register>`, its BAR0 address) and for their fields
(`F.<block>_<register>_<field>`), as the spec's register tables give them. -/

namespace Sys2Proof.Machine

/-- A field of a register: BAR0 address, lowest bit, width. -/
structure Fld where
  addr : Nat
  lo : Nat
  w : Nat
  deriving DecidableEq, Repr

/-- Quarter q's block (R388). -/
def quarterBase (q : Nat) : Nat := 0x100000 + q * 0x10000

def R.CHIP_STRAP : Nat := 4
def R.CHIP_RST : Nat := 8
def R.CHIP_RST_QMASK : Nat := 0xC
def F.CHIP_RST_QMASK_QMASK : Fld := ⟨R.CHIP_RST_QMASK, 0, 16⟩
def R.CHIP_RST_CAUSE : Nat := 0x10
def R.CHIP_BOOT_CTRL : Nat := 0x100
def F.CHIP_BOOT_CTRL_SRC : Fld := ⟨R.CHIP_BOOT_CTRL, 1, 2⟩
def R.CHIP_BOOT_STAT : Nat := 0x104
def F.CHIP_BOOT_STAT_STEP : Fld := ⟨R.CHIP_BOOT_STAT, 12, 4⟩
def F.CHIP_BOOT_STAT_WAIT_IMAGE : Fld := ⟨R.CHIP_BOOT_STAT, 11, 1⟩
def F.CHIP_BOOT_STAT_UNPINNED : Fld := ⟨R.CHIP_BOOT_STAT, 10, 1⟩
def F.CHIP_BOOT_STAT_FAILED : Fld := ⟨R.CHIP_BOOT_STAT, 9, 1⟩
def F.CHIP_BOOT_STAT_NO_RING : Fld := ⟨R.CHIP_BOOT_STAT, 8, 1⟩
def F.CHIP_BOOT_STAT_START_PARTIAL : Fld := ⟨R.CHIP_BOOT_STAT, 7, 1⟩
def F.CHIP_BOOT_STAT_GO_REF : Fld := ⟨R.CHIP_BOOT_STAT, 6, 1⟩
def F.CHIP_BOOT_STAT_BUSY_REJ : Fld := ⟨R.CHIP_BOOT_STAT, 5, 1⟩
def R.CHIP_BOOT_ERR : Nat := 0x108
def F.CHIP_BOOT_ERR_SEC : Fld := ⟨R.CHIP_BOOT_ERR, 8, 8⟩
def F.CHIP_BOOT_ERR_CODE : Fld := ⟨R.CHIP_BOOT_ERR, 0, 8⟩
def R.CHIP_BOOT_SRCADDR : Nat := 0x10C
def F.CHIP_BOOT_SRCADDR_BASE : Fld := ⟨R.CHIP_BOOT_SRCADDR, 0, 15⟩
def R.CHIP_BOOT_HADDR0 : Nat := 0x110
def F.CHIP_BOOT_HADDR0_HADDR : Fld := ⟨R.CHIP_BOOT_HADDR0, 0, 16⟩
def R.CHIP_BOOT_HADDR1 : Nat := 0x114
def F.CHIP_BOOT_HADDR1_HADDR : Fld := ⟨R.CHIP_BOOT_HADDR1, 0, 16⟩
def R.CHIP_BOOT_HADDR2 : Nat := 0x118
def F.CHIP_BOOT_HADDR2_HADDR : Fld := ⟨R.CHIP_BOOT_HADDR2, 0, 3⟩
def R.CHIP_BOOT_HDATA_L : Nat := 0x11C
def F.CHIP_BOOT_HDATA_L_HDATA : Fld := ⟨R.CHIP_BOOT_HDATA_L, 0, 16⟩
def R.CHIP_BOOT_HDATA_H : Nat := 0x120
def F.CHIP_BOOT_HDATA_H_HDATA : Fld := ⟨R.CHIP_BOOT_HDATA_H, 0, 16⟩
def R.CHIP_BOOT_MS : Nat := 0x124
def R.CHIP_BOOT_IMGID (i : Nat) : Nat := 0x130 + i * 4
def R.MARK_SRC (i : Nat) : Nat := 0x400 + i * 8
def F.MARK_SRC_QMASK (i : Nat) : Fld := ⟨R.MARK_SRC i, 0, 16⟩
def R.MARK_CFG (i : Nat) : Nat := 0x404 + i * 8
def F.MARK_CFG_PULSE (i : Nat) : Fld := ⟨R.MARK_CFG i, 12, 1⟩
def F.MARK_CFG_DLY (i : Nat) : Fld := ⟨R.MARK_CFG i, 0, 12⟩
def R.CLK_SRC : Nat := 0x1000
def F.CLK_SRC_PLL_REF : Fld := ⟨R.CLK_SRC, 2, 2⟩
def F.CLK_SRC_CORE : Fld := ⟨R.CLK_SRC, 0, 2⟩
def R.CLK_STAT : Nat := 0x1004
def F.CLK_STAT_CORE_ACT : Fld := ⟨R.CLK_STAT, 9, 2⟩
def F.CLK_STAT_HOLD : Fld := ⟨R.CLK_STAT, 8, 1⟩
def F.CLK_STAT_SWITCHING : Fld := ⟨R.CLK_STAT, 7, 1⟩
def F.CLK_STAT_IPLL_LOCK : Fld := ⟨R.CLK_STAT, 6, 1⟩
def F.CLK_STAT_PLL_LOCK : Fld := ⟨R.CLK_STAT, 5, 1⟩
def F.CLK_STAT_SKO_OK : Fld := ⟨R.CLK_STAT, 4, 1⟩
def F.CLK_STAT_LACE_READY : Fld := ⟨R.CLK_STAT, 3, 1⟩
def F.CLK_STAT_XO_READY : Fld := ⟨R.CLK_STAT, 2, 1⟩
def F.CLK_STAT_RCO_READY : Fld := ⟨R.CLK_STAT, 1, 1⟩
def R.CLK_EVT : Nat := 0x1008
def F.CLK_EVT_TRIM_HOLD : Fld := ⟨R.CLK_EVT, 10, 1⟩
def F.CLK_EVT_GATE_TMO : Fld := ⟨R.CLK_EVT, 9, 1⟩
def F.CLK_EVT_HOLD_TMO : Fld := ⟨R.CLK_EVT, 8, 1⟩
def F.CLK_EVT_HOLD_ENTERED : Fld := ⟨R.CLK_EVT, 7, 1⟩
def F.CLK_EVT_XO_LOST : Fld := ⟨R.CLK_EVT, 1, 1⟩
def F.CLK_EVT_SW_REFUSED : Fld := ⟨R.CLK_EVT, 0, 1⟩
def R.CLK_XO_DLY : Nat := 0x100C
def F.CLK_XO_DLY_OVR_VALID : Fld := ⟨R.CLK_XO_DLY, 7, 1⟩
def F.CLK_XO_DLY_OVR : Fld := ⟨R.CLK_XO_DLY, 4, 3⟩
def R.CLK_RCO_TRIM : Nat := 0x1010
def F.CLK_RCO_TRIM_TRIM_EN : Fld := ⟨R.CLK_RCO_TRIM, 12, 1⟩
def F.CLK_RCO_TRIM_TSRC : Fld := ⟨R.CLK_RCO_TRIM, 10, 2⟩
def F.CLK_RCO_TRIM_CODE : Fld := ⟨R.CLK_RCO_TRIM, 0, 10⟩
def R.CLK_MON_CFG : Nat := 0x1014
def F.CLK_MON_CFG_MON_EN : Fld := ⟨R.CLK_MON_CFG, 0, 1⟩
def R.CLK_DEFER_CNT : Nat := 0x101C
def F.CLK_DEFER_CNT_CNT : Fld := ⟨R.CLK_DEFER_CNT, 0, 16⟩
def R.CLK_HOLD_TIME : Nat := 0x1020
def F.CLK_HOLD_TIME_TIME : Fld := ⟨R.CLK_HOLD_TIME, 0, 16⟩
def R.PWR_REQ : Nat := 0x2000
def F.PWR_REQ_TARGET : Fld := ⟨R.PWR_REQ, 0, 4⟩
def R.PWR_STAT : Nat := 0x2004
def F.PWR_STAT_BACKSTOP : Fld := ⟨R.PWR_STAT, 11, 1⟩
def F.PWR_STAT_ACC_REJ : Fld := ⟨R.PWR_STAT, 10, 1⟩
def F.PWR_STAT_PGOOD_LOST : Fld := ⟨R.PWR_STAT, 9, 1⟩
def F.PWR_STAT_VID_TMO : Fld := ⟨R.PWR_STAT, 8, 1⟩
def F.PWR_STAT_REFUSED : Fld := ⟨R.PWR_STAT, 7, 1⟩
def F.PWR_STAT_STATE_EVT : Fld := ⟨R.PWR_STAT, 6, 1⟩
def F.PWR_STAT_EXITING : Fld := ⟨R.PWR_STAT, 5, 1⟩
def F.PWR_STAT_ENTERING : Fld := ⟨R.PWR_STAT, 4, 1⟩
def F.PWR_STAT_STATE : Fld := ⟨R.PWR_STAT, 0, 3⟩
def R.PWR_PAD_HOLD : Nat := 0x2008
def F.PWR_PAD_HOLD_REL_REFUSED : Fld := ⟨R.PWR_PAD_HOLD, 1, 1⟩
def F.PWR_PAD_HOLD_HOLD : Fld := ⟨R.PWR_PAD_HOLD, 0, 1⟩
def R.PWR_VID_CFG : Nat := 0x200C
def F.PWR_VID_CFG_TMO : Fld := ⟨R.PWR_VID_CFG, 8, 8⟩
def F.PWR_VID_CFG_SETTLE : Fld := ⟨R.PWR_VID_CFG, 0, 8⟩
def R.PWR_VID : Nat := 0x2010
def F.PWR_VID_CUR : Fld := ⟨R.PWR_VID, 8, 8⟩
def R.PWR_WAKE_EN : Nat := 0x2014
def R.PWR_WAKE_SRC : Nat := 0x2018
def F.PWR_WAKE_SRC_REPLAYED : Fld := ⟨R.PWR_WAKE_SRC, 8, 1⟩
def R.PWR_SHANK_TMR : Nat := 0x201C
def F.PWR_SHANK_TMR_SEC : Fld := ⟨R.PWR_SHANK_TMR, 0, 16⟩
def R.PWR_QMASK : Nat := 0x2020
def F.PWR_QMASK_ON : Fld := ⟨R.PWR_QMASK, 0, 16⟩
def R.PWR_QOFF : Nat := 0x2024
def R.PWR_QON : Nat := 0x2028
def R.PWR_QSETTLE : Nat := 0x202C
def R.PWR_PAT_CFG : Nat := 0x2030
def F.PWR_PAT_CFG_PER_MS : Fld := ⟨R.PWR_PAT_CFG, 0, 14⟩
def R.PWR_PAT_CFG2 : Nat := 0x2034
def F.PWR_PAT_CFG2_VIOL_N : Fld := ⟨R.PWR_PAT_CFG2, 8, 4⟩
def R.PWR_PAT_STAT : Nat := 0x2038
def F.PWR_PAT_STAT_FIRST : Fld := ⟨R.PWR_PAT_STAT, 2, 7⟩
def F.PWR_PAT_STAT_OVERLAP : Fld := ⟨R.PWR_PAT_STAT, 1, 1⟩
def F.PWR_PAT_STAT_VIOL : Fld := ⟨R.PWR_PAT_STAT, 0, 1⟩
def R.PWR_PSG (i : Nat) : Nat := 0x2040 + i * 4
def F.PWR_PSG_EN (i : Nat) : Fld := ⟨R.PWR_PSG i, 15, 1⟩
def F.PWR_PSG_SG (i : Nat) : Fld := ⟨R.PWR_PSG i, 0, 6⟩
def R.PWR_PTS (i : Nat) : Nat := 0x2080 + i * 4
def F.PWR_PTS_EN (i : Nat) : Fld := ⟨R.PWR_PTS i, 15, 1⟩
def F.PWR_PTS_SENSOR (i : Nat) : Fld := ⟨R.PWR_PTS i, 0, 5⟩
def R.PWR_PAT_TLO : Nat := 0x2090
def F.PWR_PAT_TLO_TLO : Fld := ⟨R.PWR_PAT_TLO, 0, 16⟩
def R.PWR_PAT_THI : Nat := 0x2094
def F.PWR_PAT_THI_THI : Fld := ⟨R.PWR_PAT_THI, 0, 16⟩
def R.PWR_PPM (i : Nat) : Nat := 0x2100 + i * 4
def F.PWR_PPM_EN (i : Nat) : Fld := ⟨R.PWR_PPM i, 15, 1⟩
def F.PWR_PPM_CH (i : Nat) : Fld := ⟨R.PWR_PPM i, 0, 10⟩
def R.PWR_PRES_L (i : Nat) : Nat := 0x2400 + i * 8
def R.PWR_PRES_H (i : Nat) : Nat := 0x2404 + i * 8
def F.PWR_PRES_H_FAIL (i : Nat) : Fld := ⟨R.PWR_PRES_H i, 15, 1⟩
def F.PWR_PRES_H_VALID (i : Nat) : Fld := ⟨R.PWR_PRES_H i, 14, 1⟩
def R.FLT_CTRL : Nat := 0x10000
def F.FLT_CTRL_FE_CORR : Fld := ⟨R.FLT_CTRL, 3, 1⟩
def F.FLT_CTRL_SCRUB_EN : Fld := ⟨R.FLT_CTRL, 1, 1⟩
def R.FLT_STAT : Nat := 0x10004
def F.FLT_STAT_CFG_REJ : Fld := ⟨R.FLT_STAT, 6, 1⟩
def F.FLT_STAT_RECOVERED : Fld := ⟨R.FLT_STAT, 5, 1⟩
def F.FLT_STAT_LATCH_EVT : Fld := ⟨R.FLT_STAT, 4, 1⟩
def F.FLT_STAT_SEV_EVT : Fld := ⟨R.FLT_STAT, 3, 1⟩
def F.FLT_STAT_FATAL_EVT : Fld := ⟨R.FLT_STAT, 2, 1⟩
def F.FLT_STAT_CONT_EVT : Fld := ⟨R.FLT_STAT, 1, 1⟩
def F.FLT_STAT_CORR_EVT : Fld := ⟨R.FLT_STAT, 0, 1⟩
def R.FLT_CHIPST : Nat := 0x10008
def F.FLT_CHIPST_FATAL : Fld := ⟨R.FLT_CHIPST, 15, 1⟩
def F.FLT_CHIPST_LATCHED : Fld := ⟨R.FLT_CHIPST, 14, 1⟩
def F.FLT_CHIPST_SAFE : Fld := ⟨R.FLT_CHIPST, 13, 1⟩
def R.FLT_CAUSE : Nat := 0x1000C
def F.FLT_CAUSE_SRC : Fld := ⟨R.FLT_CAUSE, 0, 9⟩
def R.FLT_QUIET : Nat := 0x10010
def R.FLT_RECLIM : Nat := 0x10014
def R.FLT_FE_SRC : Nat := 0x10020
def R.FLT_FE_MST : Nat := 0x10024
def R.FLT_FE_TGT : Nat := 0x10028
def R.FLT_FE_ADDR0 : Nat := 0x1002C
def R.FLT_FE_ADDR1 : Nat := 0x10030
def R.FLT_FE_ADDR2 : Nat := 0x10034
def R.FLT_FE_T0 : Nat := 0x10038
def R.FLT_FE_T1 : Nat := 0x1003C
def R.FLT_FE_T2 : Nat := 0x10040
def R.FLT_FE_T3 : Nat := 0x10044
def R.FLT_FE_MORE : Nat := 0x10048
def R.FLT_SITEST (i : Nat) : Nat := 0x11000 + i * 4
def F.FLT_SITEST_FAULT (i : Nat) : Fld := ⟨R.FLT_SITEST i, 15, 1⟩
def R.FLT_QST (i : Nat) : Nat := 0x11200 + i * 4
def F.FLT_QST_FAULT (i : Nat) : Fld := ⟨R.FLT_QST i, 15, 1⟩
def R.FLT_UST (i : Nat) : Nat := 0x11300 + i * 4
def F.FLT_UST_FAULT (i : Nat) : Fld := ⟨R.FLT_UST i, 15, 1⟩
def R.FLT_SAFE_VCH (i : Nat) : Nat := 0x12000 + i * 8
def F.FLT_SAFE_VCH_VCH (i : Nat) : Fld := ⟨R.FLT_SAFE_VCH i, 0, 16⟩
def R.FLT_SAFE_VCL (i : Nat) : Nat := 0x12004 + i * 8
def F.FLT_SAFE_VCL_VCL (i : Nat) : Fld := ⟨R.FLT_SAFE_VCL i, 0, 16⟩
def R.LACE_CTRL : Nat := 0x20000
def F.LACE_CTRL_AUTO_SURVEY : Fld := ⟨R.LACE_CTRL, 1, 1⟩
def F.LACE_CTRL_RING_EN : Fld := ⟨R.LACE_CTRL, 0, 1⟩
def R.LACE_STAT : Nat := 0x20004
def F.LACE_STAT_SURVEY_ERR : Fld := ⟨R.LACE_STAT, 13, 1⟩
def F.LACE_STAT_ROLE_ERR : Fld := ⟨R.LACE_STAT, 12, 1⟩
def F.LACE_STAT_DRIFT : Fld := ⟨R.LACE_STAT, 11, 1⟩
def F.LACE_STAT_SEND_REFUSED : Fld := ⟨R.LACE_STAT, 10, 1⟩
def F.LACE_STAT_SLIP : Fld := ⟨R.LACE_STAT, 9, 1⟩
def F.LACE_STAT_FRAME_ERR : Fld := ⟨R.LACE_STAT, 8, 1⟩
def F.LACE_STAT_GAP : Fld := ⟨R.LACE_STAT, 7, 1⟩
def F.LACE_STAT_LATE_RX : Fld := ⟨R.LACE_STAT, 6, 1⟩
def F.LACE_STAT_ALIGN_ERR : Fld := ⟨R.LACE_STAT, 5, 1⟩
def F.LACE_STAT_RING_LOST : Fld := ⟨R.LACE_STAT, 4, 1⟩
def F.LACE_STAT_STATE : Fld := ⟨R.LACE_STAT, 0, 3⟩
def R.LACE_RING : Nat := 0x20008
def F.LACE_RING_N : Fld := ⟨R.LACE_RING, 8, 7⟩
def F.LACE_RING_POS : Fld := ⟨R.LACE_RING, 0, 6⟩
def R.LACE_SLOTS : Nat := 0x2000C
def F.LACE_SLOTS_OWN : Fld := ⟨R.LACE_SLOTS, 0, 16⟩
def R.LACE_EPOCH_PER : Nat := 0x20010
def F.LACE_EPOCH_PER_PER : Fld := ⟨R.LACE_EPOCH_PER, 0, 16⟩
def R.LACE_SEND_CTL : Nat := 0x20014
def F.LACE_SEND_CTL_ARG : Fld := ⟨R.LACE_SEND_CTL, 8, 8⟩
def F.LACE_SEND_CTL_TYPE : Fld := ⟨R.LACE_SEND_CTL, 0, 3⟩
def R.LACE_SEND_NUM : Nat := 0x20018
def F.LACE_SEND_NUM_NUM : Fld := ⟨R.LACE_SEND_NUM, 0, 16⟩
def R.LACE_HOLD_STAT : Nat := 0x2001C
def F.LACE_HOLD_STAT_KEYS : Fld := ⟨R.LACE_HOLD_STAT, 0, 7⟩
def R.LACE_TFWD (i : Nat) : Nat := 0x20020 + i * 4
def F.LACE_TFWD_EN (i : Nat) : Fld := ⟨R.LACE_TFWD i, 7, 1⟩
def F.LACE_TFWD_EDGE (i : Nat) : Fld := ⟨R.LACE_TFWD i, 6, 1⟩
def F.LACE_TFWD_NUM (i : Nat) : Fld := ⟨R.LACE_TFWD i, 0, 5⟩
def R.LACE_D_L : Nat := 0x20040
def F.LACE_D_L_D : Fld := ⟨R.LACE_D_L, 0, 16⟩
def R.LACE_D_H : Nat := 0x20044
def F.LACE_D_H_D : Fld := ⟨R.LACE_D_H, 0, 8⟩
def R.LACE_HOP_DLY : Nat := 0x20048
def F.LACE_HOP_DLY_HOP_DLY : Fld := ⟨R.LACE_HOP_DLY, 0, 16⟩
def R.LACE_RELAY_DLY : Nat := 0x2004C
def F.LACE_RELAY_DLY_RELAY_DLY : Fld := ⟨R.LACE_RELAY_DLY, 0, 16⟩
def R.LACE_LOOP_L : Nat := 0x20050
def R.LACE_LOOP_H : Nat := 0x20054
def F.LACE_LOOP_H_LOOP : Fld := ⟨R.LACE_LOOP_H, 0, 8⟩
def R.LACE_PHASE : Nat := 0x20058
def F.LACE_PHASE_PHASE : Fld := ⟨R.LACE_PHASE, 0, 10⟩
def R.LACE_OFFSET : Nat := 0x2005C
def R.LACE_ESEQ : Nat := 0x20060
def F.LACE_ESEQ_ESEQ : Fld := ⟨R.LACE_ESEQ, 0, 16⟩
def R.LACE_ROSTER (i : Nat) : Nat := 0x20100 + i * 4
def F.LACE_ROSTER_VALID (i : Nat) : Fld := ⟨R.LACE_ROSTER i, 15, 1⟩
def F.LACE_ROSTER_ALIGNED (i : Nat) : Fld := ⟨R.LACE_ROSTER i, 14, 1⟩
def R.TDCC_TB_CFG : Nat := 0x28000
def F.TDCC_TB_CFG_AGE_EN : Fld := ⟨R.TDCC_TB_CFG, 2, 1⟩
def F.TDCC_TB_CFG_TCOMP_EN : Fld := ⟨R.TDCC_TB_CFG, 1, 1⟩
def F.TDCC_TB_CFG_PULL_EN : Fld := ⟨R.TDCC_TB_CFG, 0, 1⟩
def R.TDCC_XO_AGE : Nat := 0x28004
def F.TDCC_XO_AGE_AGE : Fld := ⟨R.TDCC_XO_AGE, 0, 16⟩
def R.TDCC_XO_PULL : Nat := 0x28008
def F.TDCC_XO_PULL_PULL : Fld := ⟨R.TDCC_XO_PULL, 0, 16⟩
def R.TDCC_TB_STAT : Nat := 0x2800C
def F.TDCC_TB_STAT_TBL_ERR : Fld := ⟨R.TDCC_TB_STAT, 1, 1⟩
def F.TDCC_TB_STAT_SLEW : Fld := ⟨R.TDCC_TB_STAT, 0, 1⟩
def R.TDCC_BORROW : Nat := 0x28010
def F.TDCC_BORROW_BORROW : Fld := ⟨R.TDCC_BORROW, 0, 1⟩
def R.TDCC_DLL_STAT (i : Nat) : Nat := 0x28040 + i * 4
def F.TDCC_DLL_STAT_RELOCK_PEND (i : Nat) : Fld := ⟨R.TDCC_DLL_STAT i, 3, 1⟩
def F.TDCC_DLL_STAT_RELOCKING (i : Nat) : Fld := ⟨R.TDCC_DLL_STAT i, 2, 1⟩
def F.TDCC_DLL_STAT_LOST (i : Nat) : Fld := ⟨R.TDCC_DLL_STAT i, 1, 1⟩
def F.TDCC_DLL_STAT_LOCKED (i : Nat) : Fld := ⟨R.TDCC_DLL_STAT i, 0, 1⟩
def R.TDCC_RELOCK : Nat := 0x28080
def R.MEM_ID : Nat := 0x30000
def F.MEM_ID_TRAINED : Fld := ⟨R.MEM_ID, 4, 1⟩
def F.MEM_ID_CAP : Fld := ⟨R.MEM_ID, 0, 4⟩
def R.MEM_CFG : Nat := 0x30004
def F.MEM_CFG_SCRUB_EN : Fld := ⟨R.MEM_CFG, 0, 1⟩
def R.MEM_HOSTBW : Nat := 0x30008
def F.MEM_HOSTBW_UNITS : Fld := ⟨R.MEM_HOSTBW, 0, 10⟩
def R.MEM_FAULT : Nat := 0x3000C
def F.MEM_FAULT_TRAIN_FAIL : Fld := ⟨R.MEM_FAULT, 6, 1⟩
def F.MEM_FAULT_WIN_REFUSED : Fld := ⟨R.MEM_FAULT, 5, 1⟩
def F.MEM_FAULT_BAR2_BLOCK : Fld := ⟨R.MEM_FAULT, 4, 1⟩
def F.MEM_FAULT_UE_B : Fld := ⟨R.MEM_FAULT, 3, 1⟩
def F.MEM_FAULT_UE_A : Fld := ⟨R.MEM_FAULT, 2, 1⟩
def F.MEM_FAULT_CE_B : Fld := ⟨R.MEM_FAULT, 1, 1⟩
def F.MEM_FAULT_CE_A : Fld := ⟨R.MEM_FAULT, 0, 1⟩
def R.MEM_ERR_ADDR0 : Nat := 0x30010
def F.MEM_ERR_ADDR0_ERR_ADDR : Fld := ⟨R.MEM_ERR_ADDR0, 0, 16⟩
def R.MEM_ERR_ADDR1 : Nat := 0x30014
def F.MEM_ERR_ADDR1_ERR_ADDR : Fld := ⟨R.MEM_ERR_ADDR1, 0, 16⟩
def R.MEM_ERR_ADDR2 : Nat := 0x30018
def F.MEM_ERR_ADDR2_ERR_ADDR : Fld := ⟨R.MEM_ERR_ADDR2, 0, 3⟩
def R.MEM_WIN_BASE (i : Nat) : Nat := 0x30100 + i * 0x10
def F.MEM_WIN_BASE_BASE (i : Nat) : Fld := ⟨R.MEM_WIN_BASE i, 0, 15⟩
def R.MEM_WIN_SIZE (i : Nat) : Nat := 0x30104 + i * 0x10
def F.MEM_WIN_SIZE_SIZE (i : Nat) : Fld := ⟨R.MEM_WIN_SIZE i, 0, 15⟩
def R.MEM_QCFG (i : Nat) : Nat := 0x30200 + i * 0x20
def F.MEM_QCFG_HEAD_64K (i : Nat) : Fld := ⟨R.MEM_QCFG i, 7, 5⟩
def F.MEM_QCFG_RATE (i : Nat) : Fld := ⟨R.MEM_QCFG i, 0, 7⟩
def R.MEM_QCMD (i : Nat) : Nat := 0x30204 + i * 0x20
def R.MEM_QSTAT (i : Nat) : Nat := 0x30208 + i * 0x20
def F.MEM_QSTAT_HEAD_BUSY (i : Nat) : Fld := ⟨R.MEM_QSTAT i, 5, 1⟩
def F.MEM_QSTAT_HEAD_ERR (i : Nat) : Fld := ⟨R.MEM_QSTAT i, 4, 1⟩
def F.MEM_QSTAT_DECODE_ERR (i : Nat) : Fld := ⟨R.MEM_QSTAT i, 3, 1⟩
def F.MEM_QSTAT_DESC_ERR (i : Nat) : Fld := ⟨R.MEM_QSTAT i, 2, 1⟩
def F.MEM_QSTAT_UE_PARK (i : Nat) : Fld := ⟨R.MEM_QSTAT i, 1, 1⟩
def F.MEM_QSTAT_REFILL_LATE (i : Nat) : Fld := ⟨R.MEM_QSTAT i, 0, 1⟩
def R.MEM_MIN_SLACK (i : Nat) : Nat := 0x3020C + i * 0x20
def F.MEM_MIN_SLACK_MIN_SLACK (i : Nat) : Fld := ⟨R.MEM_MIN_SLACK i, 0, 16⟩
def R.MEM_LAST_RID (i : Nat) : Nat := 0x30210 + i * 0x20
def F.MEM_LAST_RID_VALID (i : Nat) : Fld := ⟨R.MEM_LAST_RID i, 15, 1⟩
def F.MEM_LAST_RID_RID (i : Nat) : Fld := ⟨R.MEM_LAST_RID i, 0, 15⟩
def R.MEM_ERR_SEG_L (i : Nat) : Nat := 0x30214 + i * 0x20
def F.MEM_ERR_SEG_L_SEG_L (i : Nat) : Fld := ⟨R.MEM_ERR_SEG_L i, 0, 16⟩
def R.MEM_ERR_SEG_H (i : Nat) : Nat := 0x30218 + i * 0x20
def F.MEM_ERR_SEG_H_SEG_H (i : Nat) : Fld := ⟨R.MEM_ERR_SEG_H i, 0, 1⟩
def R.MEM_STAGE_PEAK (i : Nat) : Nat := 0x3021C + i * 0x20
def F.MEM_STAGE_PEAK_PEAK (i : Nat) : Fld := ⟨R.MEM_STAGE_PEAK i, 0, 16⟩
def R.MEM_RDY (i : Nat) : Nat := 0x34000 + i * 4
def R.MASK_W (i j k : Nat) : Nat := 0x38000 + i * 0x400 + j * 0x10 + k * 4
def R.HOST_LINK_STAT : Nat := 0x40000
def F.HOST_LINK_STAT_FLR_EVT : Fld := ⟨R.HOST_LINK_STAT, 10, 1⟩
def F.HOST_LINK_STAT_LINK_DOWN_EVT : Fld := ⟨R.HOST_LINK_STAT, 9, 1⟩
def F.HOST_LINK_STAT_SPEED : Fld := ⟨R.HOST_LINK_STAT, 4, 4⟩
def F.HOST_LINK_STAT_WIDTH : Fld := ⟨R.HOST_LINK_STAT, 0, 4⟩
def R.HOST_IRQ_CFG : Nat := 0x40004
def F.HOST_IRQ_CFG_IRQ_EN : Fld := ⟨R.HOST_IRQ_CFG, 4, 1⟩
def F.HOST_IRQ_CFG_FOLD : Fld := ⟨R.HOST_IRQ_CFG, 0, 4⟩
def R.RING_CTRL : Nat := 0x40100
def F.RING_CTRL_PUMP_EN : Fld := ⟨R.RING_CTRL, 0, 1⟩
def R.RING_PUMPBW : Nat := 0x40104
def F.RING_PUMPBW_UNITS : Fld := ⟨R.RING_PUMPBW, 0, 10⟩
def R.RING_CB_BASE0 : Nat := 0x40108
def F.RING_CB_BASE0_CB : Fld := ⟨R.RING_CB_BASE0, 0, 16⟩
def R.RING_CB_BASE1 : Nat := 0x4010C
def F.RING_CB_BASE1_CB : Fld := ⟨R.RING_CB_BASE1, 0, 16⟩
def R.RING_CB_BASE2 : Nat := 0x40110
def F.RING_CB_BASE2_CB : Fld := ⟨R.RING_CB_BASE2, 0, 16⟩
def R.RING_CB_BASE3 : Nat := 0x40114
def F.RING_CB_BASE3_CB : Fld := ⟨R.RING_CB_BASE3, 0, 4⟩
def R.RING_COAL : Nat := 0x40118
def F.RING_COAL_TIME : Fld := ⟨R.RING_COAL, 8, 8⟩
def F.RING_COAL_COUNT : Fld := ⟨R.RING_COAL, 0, 8⟩
def R.RING_STAT : Nat := 0x4011C
def F.RING_STAT_DMA_ERR : Fld := ⟨R.RING_STAT, 4, 1⟩
def F.RING_STAT_UE_SUB : Fld := ⟨R.RING_STAT, 3, 1⟩
def F.RING_STAT_HOST_FULL : Fld := ⟨R.RING_STAT, 2, 1⟩
def F.RING_STAT_DESC_ERR : Fld := ⟨R.RING_STAT, 1, 1⟩
def F.RING_STAT_DISC_DROP : Fld := ⟨R.RING_STAT, 0, 1⟩
def R.RING_ERR_RING : Nat := 0x40120
def F.RING_ERR_RING_RING : Fld := ⟨R.RING_ERR_RING, 0, 16⟩
def R.RING_SEL : Nat := 0x40124
def F.RING_SEL_RING : Fld := ⟨R.RING_SEL, 0, 16⟩
def R.RING_S_STAT : Nat := 0x40128
def R.RING_S_FILL_L : Nat := 0x4012C
def R.RING_S_FILL_H : Nat := 0x40130
def R.RING_S_RSEQ_L : Nat := 0x40134
def R.RING_S_RSEQ_H : Nat := 0x40138
def R.RING_S_LOST : Nat := 0x4013C
def R.QRES_CFG (q : Nat) : Nat := 0x41000 + q * 0x100
def F.QRES_CFG_MINLVL (q : Nat) : Fld := ⟨R.QRES_CFG q, 4, 2⟩
def F.QRES_CFG_SUM_EN (q : Nat) : Fld := ⟨R.QRES_CFG q, 1, 1⟩
def F.QRES_CFG_FAIL_EN (q : Nat) : Fld := ⟨R.QRES_CFG q, 0, 1⟩
def R.QRES_RT_FAIL (q : Nat) : Nat := 0x41000 + q * 0x100 + 4
def F.QRES_RT_FAIL_RING (q : Nat) : Fld := ⟨R.QRES_RT_FAIL q, 0, 16⟩
def R.QRES_RT_SUM (q : Nat) : Nat := 0x41000 + q * 0x100 + 8
def F.QRES_RT_SUM_RING (q : Nat) : Fld := ⟨R.QRES_RT_SUM q, 0, 16⟩
def R.QRES_RT_BIN (q : Nat) : Nat := 0x41000 + q * 0x100 + 0xC
def F.QRES_RT_BIN_RING (q : Nat) : Fld := ⟨R.QRES_RT_BIN q, 0, 16⟩
def R.QRES_RT_PPMU (q : Nat) : Nat := 0x41000 + q * 0x100 + 0x10
def F.QRES_RT_PPMU_RING (q : Nat) : Fld := ⟨R.QRES_RT_PPMU q, 0, 16⟩
def R.QRES_RT_TIME (q : Nat) : Nat := 0x41000 + q * 0x100 + 0x14
def F.QRES_RT_TIME_RING (q : Nat) : Fld := ⟨R.QRES_RT_TIME q, 0, 16⟩
def R.QRES_RT_CTL (q : Nat) : Nat := 0x41000 + q * 0x100 + 0x18
def F.QRES_RT_CTL_RING (q : Nat) : Fld := ⟨R.QRES_RT_CTL q, 0, 16⟩
def R.QRES_REC_UNITS (q : Nat) : Nat := 0x41000 + q * 0x100 + 0x1C
def F.QRES_REC_UNITS_UNITS (q : Nat) : Fld := ⟨R.QRES_REC_UNITS q, 0, 7⟩
def R.QRES_LAD (q : Nat) : Nat := 0x41000 + q * 0x100 + 0x20
def F.QRES_LAD_DWELL (q : Nat) : Fld := ⟨R.QRES_LAD q, 8, 8⟩
def F.QRES_LAD_HWM (q : Nat) : Fld := ⟨R.QRES_LAD q, 4, 4⟩
def F.QRES_LAD_LWM (q : Nat) : Fld := ⟨R.QRES_LAD q, 0, 4⟩
def R.QRES_LSTAT (q : Nat) : Nat := 0x41000 + q * 0x100 + 0x24
def F.QRES_LSTAT_FALL (q : Nat) : Fld := ⟨R.QRES_LSTAT q, 3, 1⟩
def F.QRES_LSTAT_RISE (q : Nat) : Fld := ⟨R.QRES_LSTAT q, 2, 1⟩
def F.QRES_LSTAT_LEVEL (q : Nat) : Fld := ⟨R.QRES_LSTAT q, 0, 2⟩
def R.QRES_FILL (q : Nat) : Nat := 0x41000 + q * 0x100 + 0x28
def F.QRES_FILL_FILL (q : Nat) : Fld := ⟨R.QRES_FILL q, 0, 10⟩
def R.QRES_PEAK (q : Nat) : Nat := 0x41000 + q * 0x100 + 0x2C
def F.QRES_PEAK_PEAK (q : Nat) : Fld := ⟨R.QRES_PEAK q, 0, 10⟩
def R.QRES_BINS (q : Nat) : Nat := 0x41000 + q * 0x100 + 0x30
def F.QRES_BINS_FAULT_BIN (q : Nat) : Fld := ⟨R.QRES_BINS q, 8, 8⟩
def F.QRES_BINS_PASS_BIN (q : Nat) : Fld := ⟨R.QRES_BINS q, 0, 8⟩
def R.QRES_DEF_FAIL (q : Nat) : Nat := 0x41000 + q * 0x100 + 0x34
def F.QRES_DEF_FAIL_DEF_FAIL_BIN (q : Nat) : Fld := ⟨R.QRES_DEF_FAIL q, 0, 8⟩
def R.QRES_SITES (q : Nat) : Nat := 0x41000 + q * 0x100 + 0x38
def F.QRES_SITES_SITE_TDIST (q : Nat) : Fld := ⟨R.QRES_SITES q, 8, 8⟩
def F.QRES_SITES_SITE_FAIL (q : Nat) : Fld := ⟨R.QRES_SITES q, 0, 8⟩
def R.QRES_STAT (q : Nat) : Nat := 0x41000 + q * 0x100 + 0x3C
def F.QRES_STAT_CFG_REJ (q : Nat) : Fld := ⟨R.QRES_STAT q, 4, 1⟩
def F.QRES_STAT_ROUTE_ERR (q : Nat) : Fld := ⟨R.QRES_STAT q, 3, 1⟩
def F.QRES_STAT_CAP_WRAP (q : Nat) : Fld := ⟨R.QRES_STAT q, 2, 1⟩
def F.QRES_STAT_SHARED_FAIL (q : Nat) : Fld := ⟨R.QRES_STAT q, 1, 1⟩
def F.QRES_STAT_LOSS (q : Nat) : Fld := ⟨R.QRES_STAT q, 0, 1⟩
def R.QRES_SITE_BIN (q i : Nat) : Nat := 0x41000 + q * 0x100 + 0x40 + i * 4
def F.QRES_SITE_BIN_VALID (q i : Nat) : Fld := ⟨R.QRES_SITE_BIN q i, 8, 1⟩
def F.QRES_SITE_BIN_BIN (q i : Nat) : Fld := ⟨R.QRES_SITE_BIN q i, 0, 8⟩
def R.QRES_CAP_CFG (q : Nat) : Nat := 0x41000 + q * 0x100 + 0x60
def F.QRES_CAP_CFG_CHGRP (q : Nat) : Fld := ⟨R.QRES_CAP_CFG q, 5, 6⟩
def F.QRES_CAP_CFG_MSEL (q : Nat) : Fld := ⟨R.QRES_CAP_CFG q, 1, 4⟩
def F.QRES_CAP_CFG_EN (q : Nat) : Fld := ⟨R.QRES_CAP_CFG q, 0, 1⟩
def R.QRES_CAP_BASE_L (q : Nat) : Nat := 0x41000 + q * 0x100 + 0x64
def F.QRES_CAP_BASE_L_BASE (q : Nat) : Fld := ⟨R.QRES_CAP_BASE_L q, 0, 16⟩
def R.QRES_CAP_BASE_H (q : Nat) : Nat := 0x41000 + q * 0x100 + 0x68
def F.QRES_CAP_BASE_H_BASE (q : Nat) : Fld := ⟨R.QRES_CAP_BASE_H q, 0, 7⟩
def R.QRES_CAP_SIZE (q : Nat) : Nat := 0x41000 + q * 0x100 + 0x6C
def F.QRES_CAP_SIZE_SIZE (q : Nat) : Fld := ⟨R.QRES_CAP_SIZE q, 0, 4⟩
def R.QRES_CAP_WIDX_L (q : Nat) : Nat := 0x41000 + q * 0x100 + 0x70
def F.QRES_CAP_WIDX_L_WIDX (q : Nat) : Fld := ⟨R.QRES_CAP_WIDX_L q, 0, 16⟩
def R.QRES_CAP_WIDX_H (q : Nat) : Nat := 0x41000 + q * 0x100 + 0x74
def F.QRES_CAP_WIDX_H_WIDX (q : Nat) : Fld := ⟨R.QRES_CAP_WIDX_H q, 0, 5⟩
def R.QRES_BT_LO (q i : Nat) : Nat := 0x41000 + q * 0x100 + 0x80 + i * 8
def F.QRES_BT_LO_VALID (q i : Nat) : Fld := ⟨R.QRES_BT_LO q i, 15, 1⟩
def F.QRES_BT_LO_LO (q i : Nat) : Fld := ⟨R.QRES_BT_LO q i, 0, 14⟩
def R.QRES_BT_BIN (q i : Nat) : Nat := 0x41000 + q * 0x100 + 0x84 + i * 8
def F.QRES_BT_BIN_BIN (q i : Nat) : Fld := ⟨R.QRES_BT_BIN q i, 0, 8⟩
def R.CAL_CTRL : Nat := 0x50000
def F.CAL_CTRL_BG_EN : Fld := ⟨R.CAL_CTRL, 0, 1⟩
def R.CAL_CFG : Nat := 0x50004
def F.CAL_CFG_AGE_EN : Fld := ⟨R.CAL_CFG, 15, 1⟩
def F.CAL_CFG_MAX_AGE : Fld := ⟨R.CAL_CFG, 10, 5⟩
def F.CAL_CFG_DEADBAND : Fld := ⟨R.CAL_CFG, 0, 10⟩
def R.CAL_STAT : Nat := 0x50008
def F.CAL_STAT_CAL_STALE : Fld := ⟨R.CAL_STAT, 2, 1⟩
def F.CAL_STAT_CMP_STUCK : Fld := ⟨R.CAL_STAT, 1, 1⟩
def F.CAL_STAT_DRIFT_LIM : Fld := ⟨R.CAL_STAT, 0, 1⟩
def R.CAL_ARB_Q : Nat := 0x5000C
def R.CAL_ARB_C : Nat := 0x50010
def F.CAL_ARB_C_ACT : Fld := ⟨R.CAL_ARB_C, 0, 2⟩
def R.CAL_ARB_WAIT : Nat := 0x50014
def F.CAL_ARB_WAIT_SLOT_REF : Fld := ⟨R.CAL_ARB_WAIT, 4, 1⟩
def F.CAL_ARB_WAIT_STORE_W : Fld := ⟨R.CAL_ARB_WAIT, 3, 1⟩
def F.CAL_ARB_WAIT_SESS_W : Fld := ⟨R.CAL_ARB_WAIT, 2, 1⟩
def F.CAL_ARB_WAIT_SURV_W : Fld := ⟨R.CAL_ARB_WAIT, 1, 1⟩
def F.CAL_ARB_WAIT_RELOCK_W : Fld := ⟨R.CAL_ARB_WAIT, 0, 1⟩
def R.CAL_MREQ : Nat := 0x50018
def F.CAL_MREQ_GRANTED : Fld := ⟨R.CAL_MREQ, 5, 1⟩
def F.CAL_MREQ_QUARTER : Fld := ⟨R.CAL_MREQ, 0, 4⟩
def R.CAL_SEL : Nat := 0x50080
def F.CAL_SEL_CH : Fld := ⟨R.CAL_SEL, 0, 10⟩
def R.CAL_S_THR : Nat := 0x50084
def R.CAL_S_EDGE : Nat := 0x50088
def R.CAL_S_AGE : Nat := 0x5008C
def R.CAL_S_STAT : Nat := 0x50090
def R.NVM_CMD : Nat := 0x58000
def R.NVM_SEL : Nat := 0x58004
def F.NVM_SEL_COPY : Fld := ⟨R.NVM_SEL, 5, 1⟩
def F.NVM_SEL_LPN : Fld := ⟨R.NVM_SEL, 0, 5⟩
def R.NVM_STAT : Nat := 0x58008
def F.NVM_STAT_REFUSED : Fld := ⟨R.NVM_STAT, 8, 1⟩
def F.NVM_STAT_LOCKED_REF : Fld := ⟨R.NVM_STAT, 7, 1⟩
def F.NVM_STAT_WEAR_OUT : Fld := ⟨R.NVM_STAT, 6, 1⟩
def F.NVM_STAT_VERIFY_ERR : Fld := ⟨R.NVM_STAT, 5, 1⟩
def F.NVM_STAT_PAGE_BAD : Fld := ⟨R.NVM_STAT, 4, 1⟩
def F.NVM_STAT_ARB_WAIT : Fld := ⟨R.NVM_STAT, 3, 1⟩
def F.NVM_STAT_RUNNING : Fld := ⟨R.NVM_STAT, 2, 1⟩
def F.NVM_STAT_DONE : Fld := ⟨R.NVM_STAT, 1, 1⟩
def R.NVM_CUR : Nat := 0x5800C
def R.NVM_GEN_L : Nat := 0x58010
def R.NVM_GEN_H : Nat := 0x58014
def R.NVM_CYC_L : Nat := 0x58018
def R.NVM_CYC_H : Nat := 0x5801C
def R.NVM_BAD_L : Nat := 0x58020
def R.NVM_BAD_H : Nat := 0x58024
def R.NVM_PSTAT : Nat := 0x583FC
def R.THM_CFG : Nat := 0x60000
def F.THM_CFG_XCHK_EN : Fld := ⟨R.THM_CFG, 1, 1⟩
def F.THM_CFG_DAC_TC_EN : Fld := ⟨R.THM_CFG, 0, 1⟩
def R.THM_WARN : Nat := 0x60004
def F.THM_WARN_WARN : Fld := ⟨R.THM_WARN, 0, 16⟩
def R.THM_STAT : Nat := 0x60008
def F.THM_STAT_RATE : Fld := ⟨R.THM_STAT, 5, 2⟩
def F.THM_STAT_MULTI_BROKEN : Fld := ⟨R.THM_STAT, 4, 1⟩
def F.THM_STAT_BROKEN_EVT : Fld := ⟨R.THM_STAT, 3, 1⟩
def F.THM_STAT_SHUT : Fld := ⟨R.THM_STAT, 2, 1⟩
def F.THM_STAT_WARN_ACT : Fld := ⟨R.THM_STAT, 1, 1⟩
def F.THM_STAT_WARN_EVT : Fld := ⟨R.THM_STAT, 0, 1⟩
def R.THM_BROKEN_L : Nat := 0x6000C
def R.THM_BROKEN_H : Nat := 0x60010
def R.THM_BROKEN_CLR_L : Nat := 0x60014
def R.THM_BROKEN_CLR_H : Nat := 0x60018
def R.THM_T (i : Nat) : Nat := 0x60040 + i * 4
def F.THM_T_T (i : Nat) : Fld := ⟨R.THM_T i, 0, 16⟩
def R.THM_RAW (i : Nat) : Nat := 0x60080 + i * 4
def R.THM_MAX : Nat := 0x600C0
def F.THM_MAX_H : Fld := ⟨R.THM_MAX, 0, 16⟩
def R.LEDG_PROF (i j : Nat) : Nat := 0x64000 + i * 0x20 + j * 4
def F.LEDG_PROF_I (i j : Nat) : Fld := ⟨R.LEDG_PROF i j, 0, 16⟩
def R.LEDG_BUDGET (i : Nat) : Nat := 0x66000 + i * 4
def F.LEDG_BUDGET_BUDGET (i : Nat) : Fld := ⟨R.LEDG_BUDGET i, 0, 16⟩
def R.LEDG_CHIP_BASE (i : Nat) : Nat := 0x66020 + i * 4
def F.LEDG_CHIP_BASE_CHIP_BASE (i : Nat) : Fld := ⟨R.LEDG_CHIP_BASE i, 0, 16⟩
def R.LEDG_RESV (i : Nat) : Nat := 0x66040 + i * 4
def F.LEDG_RESV_RESV (i : Nat) : Fld := ⟨R.LEDG_RESV i, 0, 16⟩
def R.LEDG_MARGIN_ABS (i : Nat) : Nat := 0x66060 + i * 4
def F.LEDG_MARGIN_ABS_MARGIN_ABS (i : Nat) : Fld := ⟨R.LEDG_MARGIN_ABS i, 0, 16⟩
def R.LEDG_CTRL : Nat := 0x66080
def F.LEDG_CTRL_MARGIN_REL : Fld := ⟨R.LEDG_CTRL, 4, 6⟩
def F.LEDG_CTRL_ANOM_N : Fld := ⟨R.LEDG_CTRL, 1, 3⟩
def F.LEDG_CTRL_ANOM_EN : Fld := ⟨R.LEDG_CTRL, 0, 1⟩
def R.LEDG_BASE : Nat := 0x66084
def F.LEDG_BASE_BASE_STALL : Fld := ⟨R.LEDG_BASE, 8, 8⟩
def F.LEDG_BASE_BASE_RUN : Fld := ⟨R.LEDG_BASE, 0, 8⟩
def R.LEDG_BASE_IDLE : Nat := 0x66088
def F.LEDG_BASE_IDLE_BASE_IDLE : Fld := ⟨R.LEDG_BASE_IDLE, 0, 8⟩
def R.LEDG_RESPROF (i : Nat) : Nat := 0x66090 + i * 4
def F.LEDG_RESPROF_PROF (i : Nat) : Fld := ⟨R.LEDG_RESPROF i, 0, 8⟩
def R.LEDG_STAT : Nat := 0x660A0
def F.LEDG_STAT_RES_WAIT : Fld := ⟨R.LEDG_STAT, 8, 1⟩
def F.LEDG_STAT_CFG_REJ : Fld := ⟨R.LEDG_STAT, 7, 1⟩
def F.LEDG_STAT_SENSOR_ERR : Fld := ⟨R.LEDG_STAT, 6, 1⟩
def F.LEDG_STAT_UNDER : Fld := ⟨R.LEDG_STAT, 5, 1⟩
def F.LEDG_STAT_ANOM : Fld := ⟨R.LEDG_STAT, 4, 1⟩
def F.LEDG_STAT_OVERRUN : Fld := ⟨R.LEDG_STAT, 3, 1⟩
def F.LEDG_STAT_L2_FAIL : Fld := ⟨R.LEDG_STAT, 2, 1⟩
def F.LEDG_STAT_L1_FAIL : Fld := ⟨R.LEDG_STAT, 1, 1⟩
def R.LEDG_FIRST : Nat := 0x660A4
def R.LEDG_L2_ADDR : Nat := 0x660A8
def F.LEDG_L2_ADDR_ADDR : Fld := ⟨R.LEDG_L2_ADDR, 0, 14⟩
def R.LEDG_OBS_SEL : Nat := 0x660B0
def F.LEDG_OBS_SEL_SCOPE : Fld := ⟨R.LEDG_OBS_SEL, 3, 5⟩
def F.LEDG_OBS_SEL_GROUP : Fld := ⟨R.LEDG_OBS_SEL, 0, 3⟩
def R.LEDG_OBS_PRED : Nat := 0x660B4
def R.LEDG_OBS_MEAS : Nat := 0x660B8
def R.LEDG_OBS_PEAK : Nat := 0x660BC
def R.LEDG_OBS_WIN : Nat := 0x660C0
def R.LEDG_QCEIL (i j : Nat) : Nat := 0x66100 + i * 0x20 + j * 4
def F.LEDG_QCEIL_QCEIL (i j : Nat) : Fld := ⟨R.LEDG_QCEIL i j, 0, 16⟩
def R.LEDG_QADJ (i : Nat) : Nat := 0x66300 + i * 4
def R.LEDG_RESADM : Nat := 0x66340
def F.LEDG_RESADM_ADM : Fld := ⟨R.LEDG_RESADM, 0, 3⟩
def R.EVC_SEL (i : Nat) : Nat := 0x68000 + i * 0x20
def F.EVC_SEL_SNAP_EN (i : Nat) : Fld := ⟨R.EVC_SEL i, 10, 1⟩
def F.EVC_SEL_RDCLR (i : Nat) : Fld := ⟨R.EVC_SEL i, 9, 1⟩
def R.EVC_CNT_L (i : Nat) : Nat := 0x68004 + i * 0x20
def R.EVC_CNT_M (i : Nat) : Nat := 0x68008 + i * 0x20
def R.EVC_CNT_H (i : Nat) : Nat := 0x6800C + i * 0x20
def R.EVC_STAT (i : Nat) : Nat := 0x6801C + i * 0x20
def F.EVC_STAT_SNAP_VALID (i : Nat) : Fld := ⟨R.EVC_STAT i, 1, 1⟩
def R.EVC_SNAP_L (i : Nat) : Nat := 0x68010 + i * 0x20
def R.EVC_SNAP_M (i : Nat) : Nat := 0x68014 + i * 0x20
def R.EVC_SNAP_H (i : Nat) : Nat := 0x68018 + i * 0x20
def R.EVC_CTRL : Nat := 0x68800
def F.EVC_CTRL_SNAP_ARM : Fld := ⟨R.EVC_CTRL, 1, 1⟩
def R.EVC_SNAP_MARK : Nat := 0x68804
def F.EVC_SNAP_MARK_MARK_N : Fld := ⟨R.EVC_SNAP_MARK, 0, 16⟩
def R.CTXN_STAT : Nat := 0x6C008
def R.SG_CTRL (n : Nat) : Nat := 0x70000 + n * 0x400
def F.SG_CTRL_TDC_EN (n : Nat) : Fld := ⟨R.SG_CTRL n, 7, 1⟩
def F.SG_CTRL_WAKE_EN (n : Nat) : Fld := ⟨R.SG_CTRL n, 6, 1⟩
def F.SG_CTRL_LATCH_MODE (n : Nat) : Fld := ⟨R.SG_CTRL n, 5, 1⟩
def F.SG_CTRL_FILT (n : Nat) : Fld := ⟨R.SG_CTRL n, 4, 1⟩
def F.SG_CTRL_AUTO_RESTORE (n : Nat) : Fld := ⟨R.SG_CTRL n, 3, 1⟩
def F.SG_CTRL_GATE_ON (n : Nat) : Fld := ⟨R.SG_CTRL n, 2, 1⟩
def F.SG_CTRL_EN (n : Nat) : Fld := ⟨R.SG_CTRL n, 0, 1⟩
def R.SG_HYST (n : Nat) : Nat := 0x70000 + n * 0x400 + 4
def F.SG_HYST_IHYST (n : Nat) : Fld := ⟨R.SG_HYST n, 3, 3⟩
def F.SG_HYST_VHYST (n : Nat) : Fld := ⟨R.SG_HYST n, 0, 3⟩
def R.SG_BLANK (n : Nat) : Nat := 0x70000 + n * 0x400 + 8
def F.SG_BLANK_GON_BLANK (n : Nat) : Fld := ⟨R.SG_BLANK n, 8, 8⟩
def F.SG_BLANK_T (n : Nat) : Fld := ⟨R.SG_BLANK n, 0, 8⟩
def R.SG_OWN (n : Nat) : Nat := 0x70000 + n * 0x400 + 0xC
def F.SG_OWN_OWN_EN (n : Nat) : Fld := ⟨R.SG_OWN n, 12, 1⟩
def F.SG_OWN_QUARTER (n : Nat) : Fld := ⟨R.SG_OWN n, 8, 4⟩
def F.SG_OWN_SMASK (n : Nat) : Fld := ⟨R.SG_OWN n, 0, 8⟩
def R.SG_ACT (n : Nat) : Nat := 0x70000 + n * 0x400 + 0x10
def R.SG_VLO (n : Nat) : Nat := 0x70000 + n * 0x400 + 0x14
def F.SG_VLO_VLO (n : Nat) : Fld := ⟨R.SG_VLO n, 0, 16⟩
def R.SG_VHI (n : Nat) : Nat := 0x70000 + n * 0x400 + 0x18
def F.SG_VHI_VHI (n : Nat) : Fld := ⟨R.SG_VHI n, 0, 16⟩
def R.SG_ILO (n : Nat) : Nat := 0x70000 + n * 0x400 + 0x1C
def F.SG_ILO_ILO (n : Nat) : Fld := ⟨R.SG_ILO n, 0, 16⟩
def R.SG_IHI (n : Nat) : Nat := 0x70000 + n * 0x400 + 0x20
def F.SG_IHI_IHI (n : Nat) : Fld := ⟨R.SG_IHI n, 0, 16⟩
def R.SG_ICRIT (n : Nat) : Nat := 0x70000 + n * 0x400 + 0x24
def R.SG_PERIOD (n : Nat) : Nat := 0x70000 + n * 0x400 + 0x28
def F.SG_PERIOD_PERIOD (n : Nat) : Fld := ⟨R.SG_PERIOD n, 0, 16⟩
def R.SG_CMD (n : Nat) : Nat := 0x70000 + n * 0x400 + 0x2C
def R.SG_TRIP (n : Nat) : Nat := 0x70000 + n * 0x400 + 0x30
def F.SG_TRIP_TRIP (n : Nat) : Fld := ⟨R.SG_TRIP n, 0, 5⟩
def R.SG_TRIP_EVT (n : Nat) : Nat := 0x70000 + n * 0x400 + 0x34
def R.SG_LIVE (n : Nat) : Nat := 0x70000 + n * 0x400 + 0x38
def F.SG_LIVE_LIVE (n : Nat) : Fld := ⟨R.SG_LIVE n, 0, 5⟩
def R.SG_IRQ_EN (n : Nat) : Nat := 0x70000 + n * 0x400 + 0x3C
def R.SG_V_RES_L (n : Nat) : Nat := 0x70000 + n * 0x400 + 0x40
def F.SG_V_RES_L_V (n : Nat) : Fld := ⟨R.SG_V_RES_L n, 0, 16⟩
def R.SG_V_RES_H (n : Nat) : Nat := 0x70000 + n * 0x400 + 0x44
def F.SG_V_RES_H_V (n : Nat) : Fld := ⟨R.SG_V_RES_H n, 0, 8⟩
def R.SG_I_RES_L (n : Nat) : Nat := 0x70000 + n * 0x400 + 0x48
def F.SG_I_RES_L_I (n : Nat) : Fld := ⟨R.SG_I_RES_L n, 0, 16⟩
def R.SG_I_RES_H (n : Nat) : Nat := 0x70000 + n * 0x400 + 0x4C
def F.SG_I_RES_H_I (n : Nat) : Fld := ⟨R.SG_I_RES_H n, 0, 8⟩
def R.SG_RES_STAT (n : Nat) : Nat := 0x70000 + n * 0x400 + 0x50
def F.SG_RES_STAT_PARTIAL (n : Nat) : Fld := ⟨R.SG_RES_STAT n, 1, 1⟩
def F.SG_RES_STAT_NEW (n : Nat) : Fld := ⟨R.SG_RES_STAT n, 0, 1⟩
def R.SG_PSTAT (n : Nat) : Nat := 0x70000 + n * 0x400 + 0x3FC
def R.SPX0_BOOT_STAT : Nat := 0x80080
def F.SPX0_BOOT_STAT_NO_FLASH : Fld := ⟨R.SPX0_BOOT_STAT, 3, 1⟩
def F.SPX0_BOOT_STAT_FALLBACK : Fld := ⟨R.SPX0_BOOT_STAT, 2, 1⟩
def F.SPX0_BOOT_STAT_OCTAL : Fld := ⟨R.SPX0_BOOT_STAT, 1, 1⟩
def F.SPX0_BOOT_STAT_DONE : Fld := ⟨R.SPX0_BOOT_STAT, 0, 1⟩
def R.SPX1_CFG : Nat := 0x81000
def F.SPX1_CFG_BUSY_PAT : Fld := ⟨R.SPX1_CFG, 8, 8⟩
def R.SPX1_STAT : Nat := 0x81004
def F.SPX1_STAT_INC_BITS : Fld := ⟨R.SPX1_STAT, 8, 5⟩
def F.SPX1_STAT_ALIGN : Fld := ⟨R.SPX1_STAT, 7, 1⟩
def F.SPX1_STAT_RD_CUT : Fld := ⟨R.SPX1_STAT, 6, 1⟩
def F.SPX1_STAT_WR_DROP : Fld := ⟨R.SPX1_STAT, 5, 1⟩
def F.SPX1_STAT_PAST_END : Fld := ⟨R.SPX1_STAT, 4, 1⟩
def F.SPX1_STAT_INCOMPLETE : Fld := ⟨R.SPX1_STAT, 3, 1⟩
def F.SPX1_STAT_OVERCLOCK : Fld := ⟨R.SPX1_STAT, 2, 1⟩
def F.SPX1_STAT_FRAME_ERR : Fld := ⟨R.SPX1_STAT, 1, 1⟩
def R.SPX1_ATTN_MASK : Nat := 0x81008
def F.SPX1_ATTN_MASK_MASK : Fld := ⟨R.SPX1_ATTN_MASK, 0, 16⟩
def R.SPX1_WQ : Nat := 0x8100C
def F.SPX1_WQ_FILL : Fld := ⟨R.SPX1_WQ, 0, 7⟩
def R.SPX1_LAST_ADDR_L : Nat := 0x81010
def F.SPX1_LAST_ADDR_L_ADDR : Fld := ⟨R.SPX1_LAST_ADDR_L, 0, 16⟩
def R.SPX1_LAST_ADDR_H : Nat := 0x81014
def F.SPX1_LAST_ADDR_H_ADDR : Fld := ⟨R.SPX1_LAST_ADDR_H, 0, 8⟩
def R.SPX1_LAST_DATA_L : Nat := 0x81018
def F.SPX1_LAST_DATA_L_DATA : Fld := ⟨R.SPX1_LAST_DATA_L, 0, 16⟩
def R.SPX1_LAST_DATA_H : Nat := 0x8101C
def F.SPX1_LAST_DATA_H_DATA : Fld := ⟨R.SPX1_LAST_DATA_H, 0, 16⟩
def R.PE_CTRL (n : Nat) : Nat := 0x84000 + n * 0x2000
def F.PE_CTRL_SSEL (n : Nat) : Fld := ⟨R.PE_CTRL n, 4, 4⟩
def F.PE_CTRL_EN (n : Nat) : Fld := ⟨R.PE_CTRL n, 0, 1⟩
def R.PE_PIN (n i : Nat) : Nat := 0x84000 + n * 0x2000 + 0x40 + i * 4
def F.PE_PIN_EN (n i : Nat) : Fld := ⟨R.PE_PIN n i, 6, 1⟩
def F.PE_PIN_CH (n i : Nat) : Fld := ⟨R.PE_PIN n i, 0, 6⟩
def R.QSEQ_CTRL (q : Nat) : Nat := quarterBase q
def F.QSEQ_CTRL_START_MODE (q : Nat) : Fld := ⟨R.QSEQ_CTRL q, 6, 2⟩
def R.QSEQ_START_ADDR (q : Nat) : Nat := quarterBase q + 4
def F.QSEQ_START_ADDR_ADDR (q : Nat) : Fld := ⟨R.QSEQ_START_ADDR q, 0, 14⟩
def R.QSEQ_MARK_N (q : Nat) : Nat := quarterBase q + 8
def F.QSEQ_MARK_N_MARK_N (q : Nat) : Fld := ⟨R.QSEQ_MARK_N q, 0, 16⟩
def R.QSEQ_STAT (q : Nat) : Nat := quarterBase q + 0xC
def F.QSEQ_STAT_START_REFUSED (q : Nat) : Fld := ⟨R.QSEQ_STAT q, 11, 1⟩
def F.QSEQ_STAT_LACE_HOLD_IGN (q : Nat) : Fld := ⟨R.QSEQ_STAT q, 10, 1⟩
def F.QSEQ_STAT_SYNC_LOCAL (q : Nat) : Fld := ⟨R.QSEQ_STAT q, 9, 1⟩
def F.QSEQ_STAT_WAIT_TIMEOUT (q : Nat) : Fld := ⟨R.QSEQ_STAT q, 8, 1⟩
def F.QSEQ_STAT_DEFER_DROP (q : Nat) : Fld := ⟨R.QSEQ_STAT q, 7, 1⟩
def F.QSEQ_STAT_PARK_EVT (q : Nat) : Fld := ⟨R.QSEQ_STAT q, 6, 1⟩
def F.QSEQ_STAT_STATE (q : Nat) : Fld := ⟨R.QSEQ_STAT q, 0, 4⟩
def R.QSEQ_PC (q : Nat) : Nat := quarterBase q + 0x10
def F.QSEQ_PC_PC (q : Nat) : Fld := ⟨R.QSEQ_PC q, 0, 14⟩
def R.QSEQ_SSN_L (q : Nat) : Nat := quarterBase q + 0x14
def R.QSEQ_SSN_H (q : Nat) : Nat := quarterBase q + 0x18
def R.QSEQ_CFG (q : Nat) : Nat := quarterBase q + 0x1C
def F.QSEQ_CFG_SCRUB_EN (q : Nat) : Fld := ⟨R.QSEQ_CFG q, 3, 1⟩
def F.QSEQ_CFG_SSN_KEEP (q : Nat) : Fld := ⟨R.QSEQ_CFG q, 2, 1⟩
def F.QSEQ_CFG_REFILL_LACE_HOLD (q : Nat) : Fld := ⟨R.QSEQ_CFG q, 1, 1⟩
def F.QSEQ_CFG_LACE_HOLD_EN (q : Nat) : Fld := ⟨R.QSEQ_CFG q, 0, 1⟩
def R.QSEQ_SITE_CFG (q : Nat) : Nat := quarterBase q + 0x20
def F.QSEQ_SITE_CFG_SOF (q : Nat) : Fld := ⟨R.QSEQ_SITE_CFG q, 8, 8⟩
def F.QSEQ_SITE_CFG_SITE_EN (q : Nat) : Fld := ⟨R.QSEQ_SITE_CFG q, 0, 8⟩
def R.QSEQ_FLAG_SET (q : Nat) : Nat := quarterBase q + 0x24
def R.QSEQ_FLAG (q : Nat) : Nat := quarterBase q + 0x28
def R.QSEQ_FLAG_CLR (q : Nat) : Nat := quarterBase q + 0x2C
def R.QSEQ_LATE (q : Nat) : Nat := quarterBase q + 0x30
def F.QSEQ_LATE_LATE_CNT (q : Nat) : Fld := ⟨R.QSEQ_LATE q, 0, 16⟩
def R.QSEQ_DEFER (q : Nat) : Nat := quarterBase q + 0x34
def F.QSEQ_DEFER_PEND (q : Nat) : Fld := ⟨R.QSEQ_DEFER q, 15, 1⟩
def F.QSEQ_DEFER_TGT (q : Nat) : Fld := ⟨R.QSEQ_DEFER q, 0, 14⟩
def R.QSEQ_DEFER_OVR (q : Nat) : Nat := quarterBase q + 0x38
def F.QSEQ_DEFER_OVR_DEFER_OVR (q : Nat) : Fld := ⟨R.QSEQ_DEFER_OVR q, 0, 16⟩
def R.QSEQ_STACK (q : Nat) : Nat := quarterBase q + 0x3C
def R.QSEQ_LOOP_L (q : Nat) : Nat := quarterBase q + 0x40
def R.QSEQ_LOOP_H (q : Nat) : Nat := quarterBase q + 0x44
def R.QSEQ_STALL_LEDG (q : Nat) : Nat := quarterBase q + 0x48
def R.QSEQ_IRQ_EN (q : Nat) : Nat := quarterBase q + 0x4C
def R.QSEQ_MARK_IRQ_MASK (q : Nat) : Nat := quarterBase q + 0x50
def R.QSEQ_IRQ_STAT (q : Nat) : Nat := quarterBase q + 0x54
def F.QSEQ_IRQ_STAT_MARK_EVT (q : Nat) : Fld := ⟨R.QSEQ_IRQ_STAT q, 2, 1⟩
def F.QSEQ_IRQ_STAT_HOLD_EVT (q : Nat) : Fld := ⟨R.QSEQ_IRQ_STAT q, 1, 1⟩
def F.QSEQ_IRQ_STAT_HALT_EVT (q : Nat) : Fld := ⟨R.QSEQ_IRQ_STAT q, 0, 1⟩
def R.QSEQ_FAULT (q : Nat) : Nat := quarterBase q + 0x58
def F.QSEQ_FAULT_CS_WRITE_REJ (q : Nat) : Fld := ⟨R.QSEQ_FAULT q, 9, 1⟩
def F.QSEQ_FAULT_SLIP (q : Nat) : Fld := ⟨R.QSEQ_FAULT q, 8, 1⟩
def F.QSEQ_FAULT_PC_OVF (q : Nat) : Fld := ⟨R.QSEQ_FAULT q, 7, 1⟩
def F.QSEQ_FAULT_LOOP_UNF (q : Nat) : Fld := ⟨R.QSEQ_FAULT q, 6, 1⟩
def F.QSEQ_FAULT_LOOP_OVF (q : Nat) : Fld := ⟨R.QSEQ_FAULT q, 5, 1⟩
def F.QSEQ_FAULT_CALL_UNF (q : Nat) : Fld := ⟨R.QSEQ_FAULT q, 4, 1⟩
def F.QSEQ_FAULT_CALL_OVF (q : Nat) : Fld := ⟨R.QSEQ_FAULT q, 3, 1⟩
def F.QSEQ_FAULT_CHK_UNCORR (q : Nat) : Fld := ⟨R.QSEQ_FAULT q, 2, 1⟩
def F.QSEQ_FAULT_CHK_CORR (q : Nat) : Fld := ⟨R.QSEQ_FAULT q, 1, 1⟩
def F.QSEQ_FAULT_ILLEGAL (q : Nat) : Fld := ⟨R.QSEQ_FAULT q, 0, 1⟩
def R.QSEQ_FAULT_PC (q : Nat) : Nat := quarterBase q + 0x5C
def F.QSEQ_FAULT_PC_FAULT_PC (q : Nat) : Fld := ⟨R.QSEQ_FAULT_PC q, 0, 14⟩
def R.QTS_CFG (q : Nat) : Nat := quarterBase q + 0x1000
def F.QTS_CFG_DRIFT_EN (q : Nat) : Fld := ⟨R.QTS_CFG q, 1, 1⟩
def F.QTS_CFG_TCOMP_EN (q : Nat) : Fld := ⟨R.QTS_CFG q, 0, 1⟩
def R.QTS_STAT (q : Nat) : Nat := quarterBase q + 0x1004
def F.QTS_STAT_NCO_CLIP (q : Nat) : Fld := ⟨R.QTS_STAT q, 4, 1⟩
def F.QTS_STAT_SYM_ERR (q : Nat) : Fld := ⟨R.QTS_STAT q, 3, 1⟩
def F.QTS_STAT_EDGE_CLIP (q : Nat) : Fld := ⟨R.QTS_STAT q, 2, 1⟩
def F.QTS_STAT_TS_WRITE_REJ (q : Nat) : Fld := ⟨R.QTS_STAT q, 1, 1⟩
def F.QTS_STAT_TS_ERR (q : Nat) : Fld := ⟨R.QTS_STAT q, 0, 1⟩
def R.QTS_ERR_TS (q : Nat) : Nat := quarterBase q + 0x1008
def R.QTS_CLIP_CNT (q : Nat) : Nat := quarterBase q + 0x100C
def F.QTS_CLIP_CNT_CLIP_CNT (q : Nat) : Fld := ⟨R.QTS_CLIP_CNT q, 0, 16⟩
def R.QTS_ACTIVE (q : Nat) : Nat := quarterBase q + 0x1010
def F.QTS_ACTIVE_TSET (q : Nat) : Fld := ⟨R.QTS_ACTIVE q, 0, 5⟩
def R.QTS_CORR_D (q i : Nat) : Nat := quarterBase q + 0x1400 + i * 8
def R.QTS_CORR_C (q i : Nat) : Nat := quarterBase q + 0x1404 + i * 8
def R.QTS_DSK_D (q i : Nat) : Nat := quarterBase q + 0x1800 + i * 0x20
def F.QTS_DSK_D_DSK_D (q i : Nat) : Fld := ⟨R.QTS_DSK_D q i, 0, 13⟩
def R.QTS_DSK_C (q i : Nat) : Nat := quarterBase q + 0x1804 + i * 0x20
def F.QTS_DSK_C_DSK_C (q i : Nat) : Fld := ⟨R.QTS_DSK_C q i, 0, 13⟩
def R.QTS_FTW_L (q i : Nat) : Nat := quarterBase q + 0x1808 + i * 0x20
def F.QTS_FTW_L_FTW_L (q i : Nat) : Fld := ⟨R.QTS_FTW_L q i, 0, 16⟩
def R.QTS_FTW_M (q i : Nat) : Nat := quarterBase q + 0x180C + i * 0x20
def F.QTS_FTW_M_FTW_M (q i : Nat) : Fld := ⟨R.QTS_FTW_M q i, 0, 16⟩
def R.QTS_FTW_H (q i : Nat) : Nat := quarterBase q + 0x1810 + i * 0x20
def F.QTS_FTW_H_FTW_H (q i : Nat) : Fld := ⟨R.QTS_FTW_H q i, 0, 16⟩
def R.QTS_NCO_PH (q i : Nat) : Nat := quarterBase q + 0x1814 + i * 0x20
def F.QTS_NCO_PH_NCO_PH (q i : Nat) : Fld := ⟨R.QTS_NCO_PH q i, 0, 16⟩
def R.QTS_NCO_DUTY (q i : Nat) : Nat := quarterBase q + 0x1818 + i * 0x20
def F.QTS_NCO_DUTY_NCO_DUTY (q i : Nat) : Fld := ⟨R.QTS_NCO_DUTY q i, 0, 16⟩
def R.QTXN_CTRL (q : Nat) : Nat := quarterBase q + 0x2000
def R.QTXN_STAT (q : Nat) : Nat := quarterBase q + 0x2008
def R.TDC_CTRL (u : Nat) : Nat := quarterBase (u / 4) + 0x3000 + u % 4 * 0x100
def F.TDC_CTRL_DONE_IE (u : Nat) : Fld := ⟨R.TDC_CTRL u, 4, 1⟩
def F.TDC_CTRL_REARM (u : Nat) : Fld := ⟨R.TDC_CTRL u, 3, 1⟩
def F.TDC_CTRL_EN (u : Nat) : Fld := ⟨R.TDC_CTRL u, 0, 1⟩
def R.TDC_ARM_CFG (u : Nat) : Nat := quarterBase (u / 4) + 0x3000 + u % 4 * 0x100 + 4
def F.TDC_ARM_CFG_ARG (u : Nat) : Fld := ⟨R.TDC_ARM_CFG u, 8, 6⟩
def F.TDC_ARM_CFG_SRC (u : Nat) : Fld := ⟨R.TDC_ARM_CFG u, 0, 4⟩
def R.TDC_ARM_MARK (u : Nat) : Nat := quarterBase (u / 4) + 0x3000 + u % 4 * 0x100 + 8
def F.TDC_ARM_MARK_MARK_N (u : Nat) : Fld := ⟨R.TDC_ARM_MARK u, 0, 16⟩
def R.TDC_START_SEL (u : Nat) : Nat := quarterBase (u / 4) + 0x3000 + u % 4 * 0x100 + 0xC
def F.TDC_START_SEL_ARG (u : Nat) : Fld := ⟨R.TDC_START_SEL u, 8, 6⟩
def F.TDC_START_SEL_EVT (u : Nat) : Fld := ⟨R.TDC_START_SEL u, 0, 5⟩
def R.TDC_STOP_SEL (u : Nat) : Nat := quarterBase (u / 4) + 0x3000 + u % 4 * 0x100 + 0x10
def F.TDC_STOP_SEL_ARG (u : Nat) : Fld := ⟨R.TDC_STOP_SEL u, 8, 6⟩
def F.TDC_STOP_SEL_EVT (u : Nat) : Fld := ⟨R.TDC_STOP_SEL u, 0, 5⟩
def R.TDC_NSTOP (u : Nat) : Nat := quarterBase (u / 4) + 0x3000 + u % 4 * 0x100 + 0x14
def F.TDC_NSTOP_NSTOP (u : Nat) : Fld := ⟨R.TDC_NSTOP u, 0, 4⟩
def R.TDC_TMO (u : Nat) : Nat := quarterBase (u / 4) + 0x3000 + u % 4 * 0x100 + 0x18
def F.TDC_TMO_TMO (u : Nat) : Fld := ⟨R.TDC_TMO u, 0, 16⟩
def R.TDC_CFG (u : Nat) : Nat := quarterBase (u / 4) + 0x3000 + u % 4 * 0x100 + 0x1C
def F.TDC_CFG_SITE_VAL (u : Nat) : Fld := ⟨R.TDC_CFG u, 5, 1⟩
def F.TDC_CFG_LSITE (u : Nat) : Fld := ⟨R.TDC_CFG u, 2, 3⟩
def F.TDC_CFG_REF_TIP (u : Nat) : Fld := ⟨R.TDC_CFG u, 1, 1⟩
def F.TDC_CFG_REC_EN (u : Nat) : Fld := ⟨R.TDC_CFG u, 0, 1⟩
def R.TDC_STAT (u : Nat) : Nat := quarterBase (u / 4) + 0x3000 + u % 4 * 0x100 + 0x20
def F.TDC_STAT_CFG_ERR (u : Nat) : Fld := ⟨R.TDC_STAT u, 10, 1⟩
def F.TDC_STAT_NOT_READY (u : Nat) : Fld := ⟨R.TDC_STAT u, 9, 1⟩
def F.TDC_STAT_ARM_OVR (u : Nat) : Fld := ⟨R.TDC_STAT u, 8, 1⟩
def F.TDC_STAT_COLLIDE (u : Nat) : Fld := ⟨R.TDC_STAT u, 5, 1⟩
def F.TDC_STAT_DONE (u : Nat) : Fld := ⟨R.TDC_STAT u, 1, 1⟩
def R.TDC_STATE (u : Nat) : Nat := quarterBase (u / 4) + 0x3000 + u % 4 * 0x100 + 0x24
def F.TDC_STATE_NGOT (u : Nat) : Fld := ⟨R.TDC_STATE u, 4, 4⟩
def F.TDC_STATE_STATE (u : Nat) : Fld := ⟨R.TDC_STATE u, 0, 2⟩
def R.TDC_START_DT0 (u : Nat) : Nat := quarterBase (u / 4) + 0x3000 + u % 4 * 0x100 + 0x28
def R.TDC_START_DT1 (u : Nat) : Nat := quarterBase (u / 4) + 0x3000 + u % 4 * 0x100 + 0x2C
def R.TDC_START_DT2 (u : Nat) : Nat := quarterBase (u / 4) + 0x3000 + u % 4 * 0x100 + 0x30
def R.TDC_START_DT3 (u : Nat) : Nat := quarterBase (u / 4) + 0x3000 + u % 4 * 0x100 + 0x34
def R.TDC_START_FINE (u : Nat) : Nat := quarterBase (u / 4) + 0x3000 + u % 4 * 0x100 + 0x38
def F.TDC_START_FINE_FINE (u : Nat) : Fld := ⟨R.TDC_START_FINE u, 0, 11⟩
def R.TDC_STOP_L (u i : Nat) : Nat := quarterBase (u / 4) + 0x3000 + u % 4 * 0x100 + 0x40 + i * 8
def R.TDC_STOP_H (u i : Nat) : Nat := quarterBase (u / 4) + 0x3000 + u % 4 * 0x100 + 0x44 + i * 8
def R.CH_DRV_CTRL (c : Nat) : Nat := quarterBase (c / 64) + 0x8000 + c % 64 * 0x200
def F.CH_DRV_CTRL_CAL_ISO (c : Nat) : Fld := ⟨R.CH_DRV_CTRL c, 6, 1⟩
def F.CH_DRV_CTRL_LOOP (c : Nat) : Fld := ⟨R.CH_DRV_CTRL c, 5, 1⟩
def F.CH_DRV_CTRL_TERM (c : Nat) : Fld := ⟨R.CH_DRV_CTRL c, 3, 2⟩
def F.CH_DRV_CTRL_SOFTPULL_EN (c : Nat) : Fld := ⟨R.CH_DRV_CTRL c, 2, 1⟩
def F.CH_DRV_CTRL_PARK (c : Nat) : Fld := ⟨R.CH_DRV_CTRL c, 0, 2⟩
def R.CH_CMP_CTRL (c : Nat) : Nat := quarterBase (c / 64) + 0x8000 + c % 64 * 0x200 + 4
def F.CH_CMP_CTRL_HYST (c : Nat) : Fld := ⟨R.CH_CMP_CTRL c, 0, 2⟩
def R.CH_PROT (c : Nat) : Nat := quarterBase (c / 64) + 0x8000 + c % 64 * 0x200 + 8
def F.CH_PROT_CLAMP_EN (c : Nat) : Fld := ⟨R.CH_PROT c, 3, 1⟩
def F.CH_PROT_OVD_EN (c : Nat) : Fld := ⟨R.CH_PROT c, 0, 1⟩
def R.CH_STAT (c : Nat) : Nat := quarterBase (c / 64) + 0x8000 + c % 64 * 0x200 + 0xC
def F.CH_STAT_DISC (c : Nat) : Fld := ⟨R.CH_STAT c, 9, 1⟩
def F.CH_STAT_STAGE_ACT (c : Nat) : Fld := ⟨R.CH_STAT c, 8, 1⟩
def F.CH_STAT_STAGE_SW (c : Nat) : Fld := ⟨R.CH_STAT c, 7, 1⟩
def F.CH_STAT_CFG_REJ (c : Nat) : Fld := ⟨R.CH_STAT c, 6, 1⟩
def F.CH_STAT_STAGE_SUPP (c : Nat) : Fld := ⟨R.CH_STAT c, 5, 1⟩
def F.CH_STAT_RANGE_CLIP (c : Nat) : Fld := ⟨R.CH_STAT c, 4, 1⟩
def F.CH_STAT_OVD_L (c : Nat) : Fld := ⟨R.CH_STAT c, 3, 1⟩
def F.CH_STAT_OVD_H (c : Nat) : Fld := ⟨R.CH_STAT c, 2, 1⟩
def F.CH_STAT_FORCED (c : Nat) : Fld := ⟨R.CH_STAT c, 1, 1⟩
def R.CH_CMP_CORR (c : Nat) : Nat := quarterBase (c / 64) + 0x8000 + c % 64 * 0x200 + 0x10
def R.CH_CMP_STATE (c : Nat) : Nat := quarterBase (c / 64) + 0x8000 + c % 64 * 0x200 + 0x14
def R.CH_LVL_TGT (c i : Nat) : Nat := quarterBase (c / 64) + 0x8000 + c % 64 * 0x200 + 0x40 + i * 0x10
def F.CH_LVL_TGT_TGT (c i : Nat) : Fld := ⟨R.CH_LVL_TGT c i, 0, 16⟩
def R.CH_LVL_OUT (c i : Nat) : Nat := quarterBase (c / 64) + 0x8000 + c % 64 * 0x200 + 0x44 + i * 0x10
def F.CH_LVL_OUT_OUT (c i : Nat) : Fld := ⟨R.CH_LVL_OUT c i, 0, 16⟩
def R.CH_LVL_STEP (c i : Nat) : Nat := quarterBase (c / 64) + 0x8000 + c % 64 * 0x200 + 0x48 + i * 0x10
def F.CH_LVL_STEP_STEP (c i : Nat) : Fld := ⟨R.CH_LVL_STEP c i, 0, 12⟩
def R.CH_LVL_RATE (c i : Nat) : Nat := quarterBase (c / 64) + 0x8000 + c % 64 * 0x200 + 0x4C + i * 0x10
def F.CH_LVL_RATE_RATE (c i : Nat) : Fld := ⟨R.CH_LVL_RATE c i, 0, 16⟩
def R.CH_LQ_CFG (c : Nat) : Nat := quarterBase (c / 64) + 0x8000 + c % 64 * 0x200 + 0x100
def F.CH_LQ_CFG_EN (c : Nat) : Fld := ⟨R.CH_LQ_CFG c, 3, 1⟩
def F.CH_LQ_CFG_LOOP (c : Nat) : Fld := ⟨R.CH_LQ_CFG c, 2, 1⟩
def F.CH_LQ_CFG_DAC (c : Nat) : Fld := ⟨R.CH_LQ_CFG c, 0, 2⟩
def R.CH_LQ_DIV (c : Nat) : Nat := quarterBase (c / 64) + 0x8000 + c % 64 * 0x200 + 0x104
def F.CH_LQ_DIV_DIV (c : Nat) : Fld := ⟨R.CH_LQ_DIV c, 0, 16⟩
def R.CH_LQ_PUSH (c : Nat) : Nat := quarterBase (c / 64) + 0x8000 + c % 64 * 0x200 + 0x108
def R.CH_LQ_STAT (c : Nat) : Nat := quarterBase (c / 64) + 0x8000 + c % 64 * 0x200 + 0x10C
def F.CH_LQ_STAT_LQ_ABORT (c : Nat) : Fld := ⟨R.CH_LQ_STAT c, 9, 1⟩
def F.CH_LQ_STAT_LQ_CONFLICT (c : Nat) : Fld := ⟨R.CH_LQ_STAT c, 8, 1⟩
def F.CH_LQ_STAT_LQ_OVF (c : Nat) : Fld := ⟨R.CH_LQ_STAT c, 7, 1⟩
def F.CH_LQ_STAT_LQ_DONE (c : Nat) : Fld := ⟨R.CH_LQ_STAT c, 6, 1⟩
def F.CH_LQ_STAT_FILL (c : Nat) : Fld := ⟨R.CH_LQ_STAT c, 0, 6⟩
def R.CH_PMU_CTRL (c : Nat) : Nat := quarterBase (c / 64) + 0x8000 + c % 64 * 0x200 + 0x180
def F.CH_PMU_CTRL_DONE_IE (c : Nat) : Fld := ⟨R.CH_PMU_CTRL c, 8, 1⟩
def F.CH_PMU_CTRL_REC_EN (c : Nat) : Fld := ⟨R.CH_PMU_CTRL c, 7, 1⟩
def F.CH_PMU_CTRL_LIM_EN (c : Nat) : Fld := ⟨R.CH_PMU_CTRL c, 6, 1⟩
def R.CH_PMU_MEAS (c : Nat) : Nat := quarterBase (c / 64) + 0x8000 + c % 64 * 0x200 + 0x184
def F.CH_PMU_MEAS_AVG_LOG2 (c : Nat) : Fld := ⟨R.CH_PMU_MEAS c, 8, 5⟩
def F.CH_PMU_MEAS_TRIG (c : Nat) : Fld := ⟨R.CH_PMU_MEAS c, 6, 2⟩
def F.CH_PMU_MEAS_MSEL (c : Nat) : Fld := ⟨R.CH_PMU_MEAS c, 2, 4⟩
def R.CH_PMU_DLY (c : Nat) : Nat := quarterBase (c / 64) + 0x8000 + c % 64 * 0x200 + 0x188
def F.CH_PMU_DLY_DLY (c : Nat) : Fld := ⟨R.CH_PMU_DLY c, 0, 16⟩
def R.CH_PMU_CMD (c : Nat) : Nat := quarterBase (c / 64) + 0x8000 + c % 64 * 0x200 + 0x18C
def R.CH_PMU_STAT (c : Nat) : Nat := quarterBase (c / 64) + 0x8000 + c % 64 * 0x200 + 0x190
def F.CH_PMU_STAT_OVRUN (c : Nat) : Fld := ⟨R.CH_PMU_STAT c, 10, 1⟩
def F.CH_PMU_STAT_RCHG (c : Nat) : Fld := ⟨R.CH_PMU_STAT c, 9, 1⟩
def F.CH_PMU_STAT_MBUSY (c : Nat) : Fld := ⟨R.CH_PMU_STAT c, 8, 1⟩
def F.CH_PMU_STAT_OVRNG (c : Nat) : Fld := ⟨R.CH_PMU_STAT c, 7, 1⟩
def F.CH_PMU_STAT_CLAMP (c : Nat) : Fld := ⟨R.CH_PMU_STAT c, 6, 1⟩
def F.CH_PMU_STAT_LIM_FAIL (c : Nat) : Fld := ⟨R.CH_PMU_STAT c, 5, 1⟩
def F.CH_PMU_STAT_ABORT (c : Nat) : Fld := ⟨R.CH_PMU_STAT c, 4, 1⟩
def F.CH_PMU_STAT_PARTIAL (c : Nat) : Fld := ⟨R.CH_PMU_STAT c, 3, 1⟩
def F.CH_PMU_STAT_DONE (c : Nat) : Fld := ⟨R.CH_PMU_STAT c, 2, 1⟩
def R.CH_RES_L (c : Nat) : Nat := quarterBase (c / 64) + 0x8000 + c % 64 * 0x200 + 0x194
def R.CH_RES_H (c : Nat) : Nat := quarterBase (c / 64) + 0x8000 + c % 64 * 0x200 + 0x198
def F.CH_RES_H_RES_H (c : Nat) : Fld := ⟨R.CH_RES_H c, 0, 8⟩
def R.CH_RES_CNT (c : Nat) : Nat := quarterBase (c / 64) + 0x8000 + c % 64 * 0x200 + 0x19C
def R.CH_RES_INFO (c : Nat) : Nat := quarterBase (c / 64) + 0x8000 + c % 64 * 0x200 + 0x1A0
def F.CH_RES_INFO_MEAS (c : Nat) : Fld := ⟨R.CH_RES_INFO c, 3, 1⟩
def F.CH_RES_INFO_RANGE (c : Nat) : Fld := ⟨R.CH_RES_INFO c, 0, 3⟩
def R.CH_LIMLO_L (c : Nat) : Nat := quarterBase (c / 64) + 0x8000 + c % 64 * 0x200 + 0x1A4
def R.CH_LIMLO_H (c : Nat) : Nat := quarterBase (c / 64) + 0x8000 + c % 64 * 0x200 + 0x1A8
def F.CH_LIMLO_H_LIMLO_H (c : Nat) : Fld := ⟨R.CH_LIMLO_H c, 0, 8⟩
def R.CH_LIMHI_L (c : Nat) : Nat := quarterBase (c / 64) + 0x8000 + c % 64 * 0x200 + 0x1AC
def R.CH_LIMHI_H (c : Nat) : Nat := quarterBase (c / 64) + 0x8000 + c % 64 * 0x200 + 0x1B0
def F.CH_LIMHI_H_LIMHI_H (c : Nat) : Fld := ⟨R.CH_LIMHI_H c, 0, 8⟩
def R.CH_PSTAT (c : Nat) : Nat := quarterBase (c / 64) + 0x8000 + c % 64 * 0x200 + 0x1FC
def F.CH_PSTAT_WRITE_LOST (c : Nat) : Fld := ⟨R.CH_PSTAT c, 1, 1⟩

end Sys2Proof.Machine
end

