-- ==== Sys2Proof/Machine/Ops.lean ====
section
/-! DEFINITION. The named operations on State: registers and their fields, the two copies of RC fields, windows
and HBM bytes, and accessors of the per-instance structures. -/

namespace Sys2Proof.Machine

/-! ### Reset values -/

/-- Base class of a source, Table 16-1: 0 CORRECTED, 1 CONTAINED, 2 FATAL, 3 set per event (R355). -/
def baseClass (src : Nat) : Nat :=
  if 0x100 ≤ src && src < 0x200 then
    if [0, 2, 3, 5, 8, 9, 10].contains (src % 16) then 1 else 0
  else if 0x080 ≤ src && src < 0x0C0 then 1
  else if 0x010 ≤ src && src ≤ 0x015 then 3
  else if [0x003, 0x019, 0x020, 0x021, 0x022, 0x024, 0x025, 0x060].contains src then 2
  else if [0x001, 0x016, 0x040, 0x050, 0x051, 0x052, 0x053, 0x054, 0x055].contains src then 1
  else 0

/-- SCFG's reset value (Table 16-7): N 0xFF (0x08 for 0x002), WIN 10, ESC the base class (FATAL for 0x002 and
the clock sources). -/
def scfgReset (s : Nat) : Nat :=
  (if s = 2 then 0x08 else 0xFF) * 0x100 + 10 * 0x10 +
    (if s = 2 || (0x010 ≤ s && s ≤ 0x015) then 2 else baseClass s) * 4

/-- What a register holds after power-on or RESET_N (R8). Reserved bits have no stated value: 0 (log entry 3). -/
def regReset (a : Nat) : Word :=
  if 0x14000 ≤ a && a < 0x14800 then BitVec.ofNat 16 (scfgReset ((a - 0x14000) / 4))
  else if 0x16000 ≤ a && a < 0x16800 then BitVec.ofNat 16 (baseClass ((a - 0x16000) / 4))
  else if a = 0 then BitVec.ofNat 16 (Config.dieRev.toNat * 256)
  else if a = 0x1010 then BitVec.ofNat 16 (0x1000 + Config.rcoFactoryTrim.toNat)
  else match rowOf a with
    | some r => BitVec.ofNat 16 r.rst
    | none => 0

/-- What a window dword that nothing has written reads as: 0, but for the mask bit of an MSI-X vector, which PCI
Express sets at reset (log entry 4). -/
def winReset (a : Nat) : Dword :=
  if 0x48000 ≤ a && a < 0x50000 && a % 16 = 12 then 1 else 0

/-! ### Registers -/

/-- The majority of three copies (R39). -/
def vote (a b c : Word) : Word := (a &&& b) ||| (a &&& c) ||| (b &&& c)

/-- The value of the register at `a`: the vote of its copies. `copyB` and `copyC` hold the bits in which the
second and third copy differ from the first. -/
def State.reg (s : State) (a : Nat) : Word :=
  let x := tabGet regReset s.regs a
  vote x (x ^^^ tabGet (fun _ => 0) s.copyB a) (x ^^^ tabGet (fun _ => 0) s.copyC a)

/-- All three copies of the register at `a` hold `v`. -/
def State.setReg (s : State) (a : Nat) (v : Word) : State :=
  { s with regs := tabSet regReset s.regs a v, copyB := tabErase s.copyB a, copyC := tabErase s.copyC a }

/-- A write of the bits `m` of the register at `a`, in all three copies; its other bits keep their copies (R39). -/
def State.setBits (s : State) (a : Nat) (m v : Word) : State :=
  { s with regs := tabSet regReset s.regs a ((tabGet regReset s.regs a &&& ~~~m) ||| (v &&& m)),
           copyB := tabSet (fun _ => 0) s.copyB a (tabGet (fun _ => 0) s.copyB a &&& ~~~m),
           copyC := tabSet (fun _ => 0) s.copyC a (tabGet (fun _ => 0) s.copyC a &&& ~~~m) }

def fieldOf (v : Word) (lo w : Nat) : Nat := v.toNat / 2 ^ lo % 2 ^ w

def withField (v : Word) (lo w n : Nat) : Word :=
  BitVec.ofNat 16 (v.toNat - fieldOf v lo w * 2 ^ lo + n % 2 ^ w * 2 ^ lo)

/-- A field's value. -/
def State.fld (s : State) (f : Fld) : Nat := fieldOf (s.reg f.addr) f.lo f.w

def State.bit (s : State) (f : Fld) : Bool := s.fld f != 0

/-- The mask of a field in its register. -/
def fldMask (f : Fld) : Word := BitVec.ofNat 16 ((2 ^ f.w - 1) * 2 ^ f.lo)

/-- A field takes the low bits of `n`, in all its copies; the register's other fields keep theirs (R39). -/
def State.setFld (s : State) (f : Fld) (n : Nat) : State :=
  s.setBits f.addr (fldMask f) (withField (s.reg f.addr) f.lo f.w n)

def State.setBit (s : State) (f : Fld) (b : Bool) : State := s.setFld f (if b then 1 else 0)

/-- A counter field that saturates. -/
def State.addSat (s : State) (f : Fld) (n : Nat) : State := s.setFld f (min (s.fld f + n) (2 ^ f.w - 1))

/-! ### RC fields: a host copy and an SPX1 copy (R36) -/

def State.rcHost (s : State) (a : Nat) : Word := tabGet (fun _ => 0) s.hostRc a
def State.rcSpx1 (s : State) (a : Nat) : Word := tabGet (fun _ => 0) s.spx1Rc a

/-- An event sets both copies. -/
def State.setRc (s : State) (a : Nat) (m : Word) : State :=
  { s with hostRc := tabSet (fun _ => 0) s.hostRc a (s.rcHost a ||| m),
           spx1Rc := tabSet (fun _ => 0) s.spx1Rc a (s.rcSpx1 a ||| m) }

def State.clrRcHost (s : State) (a : Nat) : State := { s with hostRc := tabErase s.hostRc a }
def State.clrRcSpx1 (s : State) (a : Nat) : State := { s with spx1Rc := tabErase s.spx1Rc a }

def State.rcBit (s : State) (f : Fld) : Bool := (s.rcHost f.addr &&& fldMask f) != 0

/-! ### Windows and HBM -/

def State.winGet (s : State) (a : Nat) : Dword := tabGet winReset s.win a
def State.winSet (s : State) (a : Nat) (v : Dword) : State := { s with win := tabSet winReset s.win a v }

/-- A dword with the enabled bytes replaced (R33). -/
def mergeBytes (old new : Dword) (be : BitVec 4) : Dword :=
  let m : Dword := (if be.getLsbD 0 then 0xFF else 0) ||| (if be.getLsbD 1 then 0xFF00 else 0) |||
    (if be.getLsbD 2 then 0xFF0000 else 0) ||| (if be.getLsbD 3 then 0xFF000000 else 0)
  (old &&& ~~~m) ||| (new &&& m)

def State.hbmByte (s : State) (a : Nat) : Byte := tabGet (fun _ => 0) s.hbm a
def State.setHbmByte (s : State) (a : Nat) (b : Byte) : State :=
  { s with hbm := tabSet (fun _ => 0) s.hbm a b }

/-- Bytes stored in ascending order from `a`. -/
def State.setHbm (s : State) : Nat → List Byte → State
  | _, [] => s
  | a, b :: bs => State.setHbm (s.setHbmByte a b) (a + 1) bs

/-- `n` bytes from `a`, as a little-endian number. -/
def State.hbmNat (s : State) (a : Nat) : Nat → Nat
  | 0 => 0
  | n + 1 => (s.hbmByte a).toNat + 256 * s.hbmNat (a + 1) n

/-- A 64-byte unit (R83). -/
def State.hbmUnit (s : State) (u : Nat) : BitVec 512 := BitVec.ofNat 512 (s.hbmNat (u * 64) 64)

/-- The low `n` bytes of a number, lowest first. -/
def bytesOf : Nat → Nat → List Byte
  | _, 0 => []
  | v, n + 1 => BitVec.ofNat 8 v :: bytesOf (v / 256) n

/-- Installed capacity in bytes (R83). -/
def State.capacity (s : State) : Nat := if s.installed = 1 then 16 * 2 ^ 30 else 32 * 2 ^ 30

/-! ### Per-instance structures -/

def State.q (s : State) (q : Nat) : QSeq := tabGet (fun _ => {}) s.qs q
def State.setQ (s : State) (q : Nat) (v : QSeq) : State := { s with qs := tabSet (fun _ => {}) s.qs q v }
def State.m (s : State) (q : Nat) : QMem := tabGet (fun _ => {}) s.qm q
def State.setM (s : State) (q : Nat) (v : QMem) : State := { s with qm := tabSet (fun _ => {}) s.qm q v }
def State.r (s : State) (q : Nat) : QRes := tabGet (fun _ => {}) s.qr q
def State.setR (s : State) (q : Nat) (v : QRes) : State := { s with qr := tabSet (fun _ => {}) s.qr q v }
def State.chan (s : State) (c : Nat) : Chan := tabGet (fun _ => {}) s.chans c
def State.setChan (s : State) (c : Nat) (v : Chan) : State := { s with chans := tabSet (fun _ => {}) s.chans c v }
def State.pmu (s : State) (c : Nat) : Pmu := tabGet (fun _ => {}) s.pmus c
def State.setPmu (s : State) (c : Nat) (v : Pmu) : State := { s with pmus := tabSet (fun _ => {}) s.pmus c v }
def State.sg (s : State) (n : Nat) : Sg := tabGet (fun _ => {}) s.sgs n
def State.setSg (s : State) (n : Nat) (v : Sg) : State := { s with sgs := tabSet (fun _ => {}) s.sgs n v }
def State.ring (s : State) (r : Nat) : Ring := tabGet (fun _ => {}) s.rings r
def State.setRing (s : State) (r : Nat) (v : Ring) : State := { s with rings := tabSet (fun _ => {}) s.rings r v }
def State.tdc (s : State) (u : Nat) : Tdc := tabGet (fun _ => {}) s.tdcs u
def State.setTdc (s : State) (u : Nat) (v : Tdc) : State := { s with tdcs := tabSet (fun _ => {}) s.tdcs u v }
def State.dll (s : State) (q : Nat) : Dll := tabGet (fun _ => {}) s.dlls q
def State.setDll (s : State) (q : Nat) (v : Dll) : State := { s with dlls := tabSet (fun _ => {}) s.dlls q v }
def State.port (s : State) (n : Nat) : Port := tabGet (fun _ => {}) s.ports n
def State.setPort (s : State) (n : Nat) (v : Port) : State := { s with ports := tabSet (fun _ => {}) s.ports n v }
def State.calCh (s : State) (c : Nat) : CalCh := tabGet (fun _ => {}) s.calch c
def State.setCalCh (s : State) (c : Nat) (v : CalCh) : State := { s with calch := tabSet (fun _ => {}) s.calch c v }
def State.txn (s : State) (u : Nat) : Txn := tabGet (fun _ => {}) s.txns u
def State.setTxn (s : State) (u : Nat) (v : Txn) : State := { s with txns := tabSet (fun _ => {}) s.txns u v }
def State.evc (s : State) (n : Nat) : Evc := tabGet (fun _ => {}) s.evcs n
def State.setEvc (s : State) (n : Nat) (v : Evc) : State := { s with evcs := tabSet (fun _ => {}) s.evcs n v }
def State.ent (s : State) (x : Nat) : Ent := tabGet (fun _ => {}) s.ents x
def State.setEnt (s : State) (x : Nat) (v : Ent) : State := { s with ents := tabSet (fun _ => {}) s.ents x v }
def State.srcCnt (s : State) (x : Nat) : SrcCnt := tabGet (fun _ => {}) s.srcs x
def State.setSrcCnt (s : State) (x : Nat) (v : SrcCnt) : State := { s with srcs := tabSet (fun _ => {}) s.srcs x v }

/-- The next value that the spec leaves open, and the counter moved on. -/
def State.free (s : State) : Dword × State :=
  (Config.freeValue s.freeCount, { s with freeCount := s.freeCount + 1 })

/-- Apply `f` for each index of a list, in order. -/
def forAll (l : List Nat) (f : Nat → State → State) (s : State) : State := l.foldl (fun s i => f i s) s

/-- Do something only under a condition. -/
def State.when (s : State) (c : Bool) (f : State → State) : State := if c then f s else s

/-! ### Device time -/

/-- The granule boundary at or before `t`, the first at or after `t`, and the first after `t` (R21). -/
def granuleOf (t : Nat) : Nat := t / 8 * 8
def granuleAt (t : Nat) : Nat := (t + 7) / 8 * 8
def granuleNext (t : Nat) : Nat := (t / 8 + 1) * 8

/-- Device time is a 64-bit count (R10): past 2^64 - 1 it goes on at 0 (log entry 41). -/
def clock64 (t : Nat) : Nat := t % 2 ^ 64

/-- One ms and one µs of device time in PCLK (R10). -/
def msPclk : Nat := 640000
def usPclk : Nat := 640

end Sys2Proof.Machine
end

