-- ==== Sys2Proof/Machine/Bits.lean ====
section
/-! DEFINITION. Codes and fields: CRC-16 and CRC-32C, the microword's extended Hamming codes, the fields of
microwords, segment descriptors, ring descriptors and timing-set entries. -/

namespace Sys2Proof.Machine

/-! ### CRC -/

def crc16Bit (c : Nat) : Nat := if c / 0x8000 % 2 = 1 then (c * 2 % 0x10000) ^^^ 0x1021 else c * 2 % 0x10000

def crc16Byte (c b : Nat) : Nat :=
  let x := c ^^^ (b * 256)
  crc16Bit (crc16Bit (crc16Bit (crc16Bit (crc16Bit (crc16Bit (crc16Bit (crc16Bit x)))))))

/-- CRC-16, polynomial 0x1021, initial 0xFFFF, most significant bit first (R88). -/
def crc16 (bs : List Byte) : Nat := bs.foldl (fun c b => crc16Byte c b.toNat) 0xFFFF

def crc32cBit (c : Nat) : Nat := if c % 2 = 1 then (c / 2) ^^^ 0x82F63B78 else c / 2

def crc32cByte (c b : Nat) : Nat :=
  let x := c ^^^ b
  crc32cBit (crc32cBit (crc32cBit (crc32cBit (crc32cBit (crc32cBit (crc32cBit (crc32cBit x)))))))

/-- CRC-32C, reflected, initial and final XOR 0xFFFFFFFF (R212). -/
def crc32c (bs : List Byte) : Nat := bs.foldl (fun c b => crc32cByte c b.toNat) 0xFFFFFFFF ^^^ 0xFFFFFFFF

/-! ### Fields of wide words -/

/-- Bits [lo + w - 1 : lo] of a number. -/
def bitsAt (v lo w : Nat) : Nat := v / 2 ^ lo % 2 ^ w

def mwOp (w : Micro) : Nat := bitsAt w.toNat 186 6
def mwCond (w : Micro) : Nat := bitsAt w.toNat 180 6
def mwDur (w : Micro) : Nat := bitsAt w.toNat 164 16
def mwSeg (w : Micro) : Nat := bitsAt w.toNat 147 17
def mwTset (w : Micro) : Nat := bitsAt w.toNat 142 5
def mwTgt (w : Micro) : Nat := bitsAt w.toNat 128 14
def mwMark (w : Micro) : Nat := bitsAt w.toNat 112 16
def mwLedg (w : Micro) : Nat := bitsAt w.toNat 96 16
def mwCnt (w : Micro) : Nat := bitsAt w.toNat 72 24
def mwTrg (w : Micro) : Nat := bitsAt w.toNat 64 8
def mwSmask (w : Micro) : Nat := bitsAt w.toNat 56 8
def mwReserved (w : Micro) : Nat := bitsAt w.toNat 16 40

def sdAddr (d : Desc) : Nat := bitsAt d.toNat 0 35
def sdLen (d : Desc) : Nat := bitsAt d.toNat 35 20
def sdEnc (d : Desc) : Nat := bitsAt d.toNat 55 3
def sdGrp (d : Desc) : Nat := bitsAt d.toNat 58 6
def sdResident (d : Desc) : Bool := bitsAt d.toNat 64 1 = 1
def sdRid (d : Desc) : Nat := bitsAt d.toNat 65 15
def sdStride (d : Desc) : Nat := bitsAt d.toNat 80 11
def sdHead (d : Desc) : Bool := bitsAt d.toNat 91 1 = 1
def sdParam (d : Desc) : Nat := bitsAt d.toNat 92 20
def sdCrc (d : Desc) : Nat := bitsAt d.toNat 112 16
/-- CRC over descriptor bytes 0 to 13 (R88). -/
def descCrcOk (d : Desc) : Bool := crc16 (bytesOf d.toNat 14) = sdCrc d

/-- The null segment (R57). -/
def nullSeg : Nat := 131071

/-! ### The microword's check codes (R56) -/

/-- Powers of two up to 64 are check positions. -/
def isCheckPos (p : Nat) : Bool := [1, 2, 4, 8, 16, 32, 64].contains p

/-- Positions of data bits 0 to 87: the positive integers up to 95 that are not powers of two. -/
def codePositions : List Nat := (List.range 96).filter fun p => p ≠ 0 && !isCheckPos p

/-- XOR of the positions of the set data bits: the check bits 0 to 6 as one number. -/
def hamming (data : Nat) : Nat :=
  (codePositions.zipIdx).foldl (fun acc e => if data.testBit e.2 then acc ^^^ e.1 else acc) 0

def parity (n bits : Nat) : Nat := ((List.range bits).filter fun i => n.testBit i).length % 2

/-- The code byte of 88 data bits: check bits, and bit 7 making the 96 bits even. -/
def codeByte (data : Nat) : Nat :=
  let h := hamming data
  h + 128 * ((parity data 88 + parity h 7) % 2)

/-- What checking a group's 88 data bits against its code byte finds. -/
inductive EccRes where
  | ok
  | corrected (data code : Nat)
  | bad
  deriving DecidableEq, Repr

def checkGroup (data code : Nat) : EccRes :=
  let syn := hamming data ^^^ (code % 128)
  let odd := (parity data 88 + parity code 8) % 2 = 1
  if syn = 0 && !odd then .ok
  else if odd && syn = 0 then .corrected data (code ^^^ 128)
  else if odd && syn ≤ 95 then
    if isCheckPos syn then .corrected data (code ^^^ syn)
    else .corrected (data ^^^ 2 ^ codePositions.idxOf syn) code
  else .bad

/-- Checking a microword: the word to use, whether it was corrected, or none where a group is uncorrectable. -/
def checkMicro (w : Micro) : Option (Micro × Bool) :=
  let a := bitsAt w.toNat 104 88
  let b := bitsAt w.toNat 16 88
  let ca := bitsAt w.toNat 8 8
  let cb := bitsAt w.toNat 0 8
  let pack (a b ca cb : Nat) : Micro := BitVec.ofNat 192 (a * 2 ^ 104 + b * 2 ^ 16 + ca * 256 + cb)
  match checkGroup a ca, checkGroup b cb with
  | .bad, _ => none
  | _, .bad => none
  | .ok, .ok => some (w, false)
  | .corrected a' ca', .ok => some (pack a' b ca' cb, true)
  | .ok, .corrected b' cb' => some (pack a b' ca cb', true)
  | .corrected a' ca', .corrected b' cb' => some (pack a' b' ca' cb', true)

/-! ### The control store (R54) -/

def csAddr (q a : Nat) : Nat := 0x400000 + q * 0x80000 + a * 32

def State.csWord (s : State) (q a : Nat) : Micro :=
  let d (j : Nat) : Dword := s.winGet (csAddr q a + 4 * j)
  d 5 ++ d 4 ++ d 3 ++ d 2 ++ d 1 ++ d 0

def State.setCsWord (s : State) (q a : Nat) (w : Micro) : State :=
  forAll (List.range 6) (fun j t => t.winSet (csAddr q a + 4 * j) (BitVec.ofNat 32 (w.toNat / 2 ^ (32 * j)))) s

/-- A word's own check codes, for writing one by hand (R56). -/
def withCodes (w : Micro) : Micro :=
  BitVec.ofNat 192 (w.toNat / 2 ^ 16 * 2 ^ 16 + codeByte (bitsAt w.toNat 104 88) * 256 +
    codeByte (bitsAt w.toNat 16 88))

/-! ### Segment descriptors and mask groups -/

def State.segDesc (s : State) (i : Nat) : Desc :=
  let d (j : Nat) : Dword := s.winGet (0xC00000 + 16 * i + 4 * j)
  d 3 ++ d 2 ++ d 1 ++ d 0

/-- Mask group g of quarter q as 64 bits (R95). -/
def State.maskGroup (s : State) (q g : Nat) : Nat :=
  let d (w : Nat) : Word := s.reg (R.MASK_W q g w)
  (d 3 ++ d 2 ++ d 1 ++ d 0).toNat

/-- The members of a 64-bit channel set, ascending. -/
def members (m : Nat) : List Nat := (List.range 64).filter fun i => m.testBit i

/-! ### Timing-set entries (R112) -/

def tsAddr (q set c : Nat) : Nat := 0x200000 + q * 0x20000 + set * 0x1000 + c * 0x40

def State.pinEntry (s : State) (q set c : Nat) : PinEntry :=
  let d (i : Nat) := s.winGet (tsAddr q set c + 4 * i)
  { ch := c, cfg := d 0, per := d 1, d0 := d 2, d1 := d 3, d2 := d 4, d3 := d 5, s0 := d 6, s1 := d 7 }

def peMode (e : PinEntry) : Nat := bitsAt e.cfg.toNat 0 2
def peW (e : PinEntry) : Nat := bitsAt e.cfg.toNat 2 2
def peW1 (e : PinEntry) : Bool := bitsAt e.cfg.toNat 4 1 = 1
def peFmt (e : PinEntry) : Nat := bitsAt e.cfg.toNat 5 2
def peWindow (e : PinEntry) : Bool := bitsAt e.cfg.toNat 7 1 = 1
def peLrate (e : PinEntry) : Nat := bitsAt e.cfg.toNat 8 2
def peLdir (e : PinEntry) : Nat := bitsAt e.cfg.toNat 10 2
def peStage (e : PinEntry) : Bool := bitsAt e.cfg.toNat 12 1 = 1
/-- The edge-mode cycle in ticks; 0 means 2^24. -/
def pePer (e : PinEntry) : Nat := if bitsAt e.per.toNat 0 24 = 0 then 2 ^ 24 else bitsAt e.per.toNat 0 24
def edgeEn (d : Dword) : Bool := bitsAt d.toNat 31 1 = 1
def edgePos (d : Dword) : Nat := bitsAt d.toNat 0 30
/-- Symbol width in bits (R119). -/
def symBits (e : PinEntry) : Nat := 2 ^ peW e

/-- Field width F of a channel in a granule vector (R122, Tables 5-6 and 5-7). -/
def fieldWidth (e : PinEntry) : Nat :=
  match peMode e with
  | 1 => if pePer e ≤ 64 then 64 / pePer e * symBits e else symBits e
  | 2 => (128 / 2 ^ peLrate e) * (if peLdir e = 2 then 2 else 1)
  | _ => 0

/-- Signed value of a two's-complement field of `w` bits. -/
def signed (w n : Nat) : Int := if n < 2 ^ (w - 1) then (n : Int) else (n : Int) - 2 ^ w

/-- Two's-complement bits of an integer. -/
def unsigned (w : Nat) (i : Int) : Nat := (i % (2 ^ w : Int)).toNat

/-- Saturation to a range. -/
def clampInt (lo hi x : Int) : Int := if x < lo then lo else if hi < x then hi else x

end Sys2Proof.Machine
end

