-- ==== Sys2Proof/Machine/Flags.lean ====
section
/-! DEFINITION. Status flags: RC events with their interrupt messages (R36, R52, R53), the event counters
(R45, R47), and reports to the fault collector (R354, R355). -/

namespace Sys2Proof.Machine

/-! ### Event counters -/

/-- The counters enabled on a source (R45). -/
def State.countersOn (s : State) (src : Nat) : List Nat :=
  (List.range 64).filter fun n =>
    let v := tabGet (fun _ => 0) s.regs (0x68000 + 32 * n)
    fieldOf v 8 1 = 1 && fieldOf v 0 8 = src

/-- Add an increment to the counters on a source, without the OVF message. A count past 2^48 - 1 wraps (R45). -/
def addCount (n : Nat) (i : Nat) (s : State) : State :=
  let e := s.evc i
  let t := s.setEvc i { e with count := (e.count + n) % 2 ^ 48 }
  if 2 ^ 48 ≤ e.count + n then t.setRc (R.EVC_STAT i) 1 else t

def State.countRaw (s : State) (src n : Nat) : State := forAll (s.countersOn src) (addCount n) s

/-! ### Interrupt messages -/

/-- The source vector that an RC register belongs to (Table 2-10), if any. -/
def vecOf (a : Nat) : Option Nat :=
  if a = 0x10004 then some 0
  else if a = 0x660A0 then some 3
  else if a = 0x60008 then some 4
  else if a = 0x1008 then some 5
  else if a = 0x2004 || a = 0x2018 then some 6
  else if a = 0x20004 then some 7
  else if a = 0x58008 then some 8
  else if a = 0x50008 || a = 0x50014 then some 9
  else if a = 0x81004 then some 10
  else if a = 0x6C008 then some 11
  else if 0x68000 ≤ a && a < 0x68800 then some 12
  else if a = 0x40000 then some 13
  else if a = 0x104 then some 14
  else if a = 0x3000C then some 15
  else if 0x70000 ≤ a && a < 0x80000 then some (128 + (a - 0x70000) / 0x400)
  else if 0x30208 ≤ a && a < 0x30400 then some (65 + 4 * ((a - 0x30200) / 0x20))
  else if 0x100000 ≤ a && a < 0x200000 then
    let q := (a - 0x100000) / 0x10000
    let o := (a - 0x100000) % 0x10000
    if o = 0x54 then some (64 + 4 * q)
    else if o = 0x58 then some (65 + 4 * q)
    else if 0x3000 ≤ o && o < 0x3400 then some (66 + 4 * q)
    else if o = 0x2008 || o = 0x1004 || 0x8000 ≤ o then some (67 + 4 * q)
    else none
  else none

/-- The OR of a source vector's status bits in one reader's copy, gated by the source's enables (R53). `rc` gives
that copy. -/
def vecActive (rc : Nat → Word) (s : State) (v : Nat) : Bool :=
  let on (a : Nat) (m : Word) : Bool := (rc a &&& m) != 0
  if v = 0 then on R.FLT_STAT 0x14
  else if v = 1 then on R.FLT_STAT 0x22
  else if v = 2 then on R.FLT_STAT 0x08
  else if v = 3 then on R.LEDG_STAT 0xFFFF
  else if v = 4 then on R.THM_STAT 0xFFFF
  else if v = 5 then on R.CLK_EVT 0xFFFF
  else if v = 6 then on R.PWR_STAT 0xFFFF || on R.PWR_WAKE_SRC 0xFFFF
  else if v = 7 then on R.LACE_STAT 0xFFFF
  else if v = 8 then on R.NVM_STAT (fldMask F.NVM_STAT_DONE)
  else if v = 9 then on R.CAL_STAT 0xFFFF || on R.CAL_ARB_WAIT 0xFFFF
  else if v = 10 then on R.SPX1_STAT 0xFFFF
  else if v = 11 then on R.CTXN_STAT 0xFFFF
  else if v = 12 then (List.range 64).any fun n => on (R.EVC_STAT n) 3
  else if v = 13 then on R.HOST_LINK_STAT 0xFFFF
  else if v = 14 then on R.CHIP_BOOT_STAT 0xFFFF
  else if v = 15 then on R.MEM_FAULT 0xFFFF
  else if 64 ≤ v && v < 128 then
    let q := (v - 64) / 4
    if v % 4 = 0 then on (R.QSEQ_IRQ_STAT q) (s.reg (R.QSEQ_IRQ_EN q))
    else if v % 4 = 1 then on (R.QSEQ_FAULT q) (fldMask (F.QSEQ_FAULT_SLIP q)) || on (R.MEM_QSTAT q) 0x0F
    else if v % 4 = 2 then (List.range 4).any fun k =>
      let u := 4 * q + k
      on (R.TDC_STAT u) 0x640 || (s.bit (F.TDC_CTRL_DONE_IE u) && on (R.TDC_STAT u) 0x02)
    else on (R.QTXN_STAT q) 0xFFFF || on (R.QTS_STAT q) 0xFFFF || (List.range 64).any fun k =>
      let c := 64 * q + k
      on (R.CH_LQ_STAT c) 0x3C0 || on (R.CH_PMU_STAT c) 0xD0 ||
        (on (R.CH_PMU_STAT c) 0x04 && s.bit (F.CH_PMU_CTRL_DONE_IE c))
  else if 128 ≤ v && v < 192 then on (R.SG_TRIP_EVT (v - 128)) (s.reg (R.SG_IRQ_EN (v - 128)))
  else false

/-- Vectors in use, N = 2^FOLD (R52). -/
def State.vectors (s : State) : Nat := 2 ^ min (s.fld F.HOST_IRQ_CFG_FOLD) 11

/-- The part sends `n` transaction-layer packets; `rx`: it receives them (Table 2-7, sources 0x88 and 0x89). -/
def State.countTlp (s : State) (rx : Bool) (n : Nat) : State := s.countRaw (if rx then 0x88 else 0x89) n

/-- Vector `w` is masked, by its own mask bit or by the function mask (R52). -/
def State.msixMasked (s : State) (w : Nat) : Bool :=
  s.pcie.cfg.functionMask || (s.winGet (0x48000 + 16 * w + 12)).getLsbD 0

/-- Send MSI-X vector `w`, or set its PBA bit where it is masked (R52); the function sends none while its MSI-X
enable is 0. Sources 0x8E and 0x89 count the message; a counter that wraps here is not yet looked at. -/
def State.sendRaw (s : State) (w : Nat) : State :=
  if !s.pcie.cfg.msixEnable then s
  else if s.msixMasked w then
    let a := 0x47000 + w / 32 * 4
    s.winSet a (s.winGet a ||| BitVec.ofNat 32 (2 ^ (w % 32)))
  else ({ s with msgs := s.msgs ++ [w] }.countRaw 0x8E 1).countTlp false 1

/-- Send MSI-X vector `w`; a counter of messages that wraps raises source vector 12 in its turn (R45, R53). -/
def State.sendMsix (s : State) (w : Nat) : State :=
  let t := s.sendRaw w
  if s.bit F.HOST_IRQ_CFG_IRQ_EN && !vecActive s.rcHost s 12 && vecActive t.rcHost t 12 then t.sendRaw (12 % s.vectors)
  else t

/-- Source vector `v` becomes a message while IRQ_EN = 1 (R52, R53). -/
def State.sendVec (s : State) (v : Nat) : State :=
  if s.bit F.HOST_IRQ_CFG_IRQ_EN then s.sendMsix (v % s.vectors) else s

/-- Do `f`, and send vector `v` if its gated status rises from 0 to 1 (R53). -/
def withVec (v : Nat) (f : State → State) (s : State) : State :=
  let t := f s
  if !vecActive s.rcHost s v && vecActive t.rcHost t v then t.sendVec v else t

/-- The vectors an RC register can raise: STAT of the collector feeds three. -/
def vecsOf (a : Nat) : List Nat := if a = 0x10004 then [0, 1, 2] else (vecOf a).toList

/-- An event sets the bits `m` of the RC register at `a`, in both copies, and raises its vector. -/
def State.raiseMask (s : State) (a : Nat) (m : Word) : State :=
  (vecsOf a).foldl (fun f v => withVec v f) (fun t => t.setRc a m) s

/-- An event sets an RC field. -/
def State.raise (s : State) (f : Fld) : State := s.raiseMask f.addr (fldMask f)

/-- Count an increment of a source; a wrap raises vector 12 (R45). -/
def State.count (s : State) (src n : Nat) : State :=
  if s.countersOn src = [] then s else withVec 12 (fun t => t.countRaw src n) s

/-- Counter n, where it takes part, gets its count in `s0` into SNAP (R47). -/
def snapOne (s0 : State) (n : Nat) (s : State) : State :=
  if s0.bit (F.EVC_SEL_SNAP_EN n) then
    let c := (s0.evc n).count
    (((s.setReg (R.EVC_SNAP_L n) (BitVec.ofNat 16 c)).setReg (R.EVC_SNAP_M n) (BitVec.ofNat 16 (c / 2 ^ 16))).setReg
      (R.EVC_SNAP_H n) (BitVec.ofNat 16 (c / 2 ^ 32))).raise (F.EVC_STAT_SNAP_VALID n)
  else s

/-- The counts of one moment go into SNAP (R47). -/
def State.snapshot (s : State) : State := forAll (List.range 64) (snapOne s) s

/-! ### Reports to the fault collector -/

/-- Code of a master in FE_MST (R367). -/
def masterCode : Master → Nat
  | .pcie => 1
  | .spx1 => 2
  | .qseq _ => 3
  | .cal => 4
  | .boot => 5

def masterQuarter : Master → Nat
  | .qseq q => q.val
  | _ => 0

/-- The central domain is off: in PATROL until an access wakes it, in SHANK, after the backstop. The Shank then collects
(Table 15-1, R335, R347, R354). -/
def State.centralOff (s : State) : Bool :=
  let st := s.fld F.PWR_STAT_STATE
  s.bit F.PWR_STAT_BACKSTOP || (!s.bit F.PWR_STAT_EXITING && (st = 4 || (st = 3 && s.pwr.central.isNone)))

/-- The Shank stamps an event: the central domain is off, or clock-hold has stopped its clocks (R318, R354). -/
def State.shankStamps (s : State) : Bool := s.centralOff || s.bit F.CLK_STAT_HOLD

/-- Report an event of a given class (R354). -/
def State.reportC (s : State) (src cls addr : Nat) : State :=
  { s with reported := s.reported ++
      [{ src := src, cls := cls, addr := addr, time := s.now, shank := s.shankStamps }] }

/-- Report an event of its base class (R355). -/
def State.report (s : State) (src addr : Nat) : State := s.reportC src (baseClass src) addr

/-- Report an event that comes from an access: with its master and access type, 1 read, 2 write (R354, R367). -/
def State.reportAccess (s : State) (src addr : Nat) (m : Master) (acc : Nat) : State :=
  { s with reported := s.reported ++
      [{ src := src, cls := baseClass src, addr := addr, master := masterCode m, quarter := masterQuarter m,
         acc := acc, time := s.now, shank := s.shankStamps }] }

end Sys2Proof.Machine
end

