-- ==== Sys2Proof/Machine/Records.lean ====
section
/-! DEFINITION. Result records, the record queue of a quarter, bins and site masks (09_results_rings.md,
R76, R77). -/

namespace Sys2Proof.Machine

/-- The chip's number (R26, R373). -/
def State.chipId (s : State) : Nat := fieldOf s.straps 0 6

/-- The segment sequence number of quarter q (R77). -/
def State.ssn (s : State) (q : Nat) : Nat := (s.reg (R.QSEQ_SSN_L q)).toNat + 2 ^ 16 * (s.reg (R.QSEQ_SSN_H q)).toNat

def State.setSsn (s : State) (q n : Nat) : State :=
  (s.setReg (R.QSEQ_SSN_L q) (BitVec.ofNat 16 n)).setReg (R.QSEQ_SSN_H q) (BitVec.ofNat 16 (n / 2 ^ 16))

/-- The sequencer state of quarter q (Table 3-6). -/
def State.qstate (s : State) (q : Nat) : Nat := s.fld (F.QSEQ_STAT_STATE q)

/-- Entering HALTED or a hold sets its event (Table 3-8, IRQ_STAT); entering PARKED sets PARK_EVT. -/
def State.setQstate (s : State) (q st : Nat) : State :=
  let t := s.setFld (F.QSEQ_STAT_STATE q) st
  if st = 8 then t.raise (F.QSEQ_IRQ_STAT_HALT_EVT q)
  else if st = 5 || st = 6 || st = 7 then t.raise (F.QSEQ_IRQ_STAT_HOLD_EVT q)
  else if st = 9 then t.raise (F.QSEQ_STAT_PARK_EVT q)
  else t

/-- IDLE, HALTED or PARKED: the states in which a quarter's settings may be written. -/
def State.stopped (s : State) (q : Nat) : Bool := [0, 8, 9].contains (s.qstate q)

/-- The quarter's domain is powered (PWR.QMASK, R326). -/
def State.quarterOn (s : State) (q : Nat) : Bool := (s.reg R.PWR_QMASK).getLsbD q

/-- What happens in a quarter happens only while its domain is on. -/
def onQuarter (q : Nat) (f : State → State) (s : State) : State := if s.quarterOn q then f s else s

/-- Every quarter is stopped or has its domain off. -/
def State.allStopped (s : State) : Bool := (List.range 16).all fun q => s.stopped q || !s.quarterOn q

/-! ### Fault states as the result path and the sequencer read them (Table 16-2) -/

def State.siteFault (s : State) (i : Nat) : Bool := s.bit (F.FLT_SITEST_FAULT i)
def State.quarterFault (s : State) (q : Nat) : Bool := s.bit (F.FLT_QST_FAULT q)
def State.unitFault (s : State) (u : Nat) : Bool := s.bit (F.FLT_UST_FAULT u)
def State.chipFault (s : State) : Bool := s.bit F.FLT_CHIPST_FATAL

/-- Local site s of quarter q is masked in a body with site mask `smask` (R76). -/
def State.siteMasked (s : State) (q smask i : Nat) : Bool :=
  !smask.testBit i || !(s.fld (F.QSEQ_SITE_CFG_SITE_EN q)).testBit i || s.siteFault (q * 8 + i) ||
    (s.ent (q * 8 + i)).sinceStart ||
    ((s.fld (F.QSEQ_SITE_CFG_SOF q)).testBit i && (s.fld (F.QRES_SITES_SITE_FAIL q)).testBit i)

/-- Set bit i of a bit-set field. -/
def State.setBitOf (s : State) (f : Fld) (i : Nat) : State := s.setFld f (s.fld f ||| 2 ^ i)

/-- Tag the sites of a body that are not masked as timing-disturbed (R74, R75, R120). -/
def tagDisturbed (q smask : Nat) (s : State) : State :=
  forAll (List.range 8) (fun i t => if t.siteMasked q smask i then t else t.setBitOf (F.QRES_SITES_SITE_TDIST q) i) s

/-- The sites that a Supply Guard trip with action 1 fails while its TRIP bit is set (R173, R206), as a mask of
quarter q's local sites. -/
def State.sgFailMask (s : State) (q : Nat) : Nat :=
  (List.range 64).foldl (fun m n =>
    let t := s.fld (F.SG_TRIP_TRIP n)
    let hit := (List.range 4).any fun k => t.testBit k && fieldOf (s.reg (R.SG_ACT n)) (2 * k) 2 = 1
    if t ≠ 0 && s.bit (F.SG_OWN_OWN_EN n) && s.fld (F.SG_OWN_QUARTER n) = q && hit then
      m ||| s.fld (F.SG_OWN_SMASK n) else m) 0

/-! ### Wake events (R333, R334) -/

/-- The power states that a wake event ends (Table 15-6). -/
def wakeEnds (bit st : Nat) : Bool :=
  match bit with
  | 0 | 1 => st = 2 || st = 3
  | 2 => st = 3
  | 3 | 4 => st = 2 || st = 3 || st = 4
  | _ => st = 4

/-- An exit starts (R330): VID goes up; from NAP and PATROL to HOLD, from SHANK through the boot from step 2. -/
def startExit (s : State) : State :=
  let st := s.fld F.PWR_STAT_STATE
  let s := (s.setBit F.PWR_STAT_EXITING true).setFld F.PWR_VID_CUR 0x64
  let s := { s with
    pwr := { s.pwr with since := s.now, target := if st = 4 then 0 else 1, vidSince := some s.now }
    thm := { s.thm with napLock := false } }
  if st = 4 then { s.setFld F.CHIP_BOOT_STAT_STEP 2 with
    boot := { s.boot with running := true, shankExit := true, since := s.now } } else s

/-- A wake event: latched while an entry runs, noted during an exit, else it starts the exit. After a thermal entry
to NAP it is only noted (R346). -/
def wakeEvent (bit : Nat) (s : State) : State :=
  let entering := s.bit F.PWR_STAT_ENTERING
  let st := if entering then s.pwr.target else s.fld F.PWR_STAT_STATE
  if !(s.reg R.PWR_WAKE_EN).getLsbD bit || !wakeEnds bit st then s
  else
    let s := s.raiseMask R.PWR_WAKE_SRC (BitVec.ofNat 16 (2 ^ bit))
    if s.thm.napLock then s
    else
      if entering then
        { s.raise F.PWR_STAT_STATE_EVT with pwr := { s.pwr with wakeLatch := s.pwr.wakeLatch ||| 2 ^ bit } }
      else if s.bit F.PWR_STAT_EXITING then s
      else startExit (s.raise F.PWR_STAT_STATE_EVT)

/-- Count PCI Express packets received or sent (sources 0x88 and 0x89). -/
def countTlps (rx : Bool) (n : Nat) (s : State) : State := s.count (if rx then 0x88 else 0x89) n

/-! ### Building -/

/-- Bytes 0 to 59 of a record in a ring (Tables 9-2, 9-5), lowest first. -/
def recordBytes (chip rseq : Nat) (r : Record) : List Byte :=
  let central := r.flags.testBit 5
  let d0 := r.type + r.flags * 256 + chip * 2 ^ 16 + r.quarter * 2 ^ 22
  let d2 := if central then 0 else r.ssn
  let d3 := r.goff % 2 ^ 20 + (match r.site with
    | some i => i * 2 ^ 20
    | none => 2 ^ 27)
  bytesOf d0 4 ++ bytesOf rseq 4 ++ bytesOf d2 4 ++ bytesOf d3 4 ++ bytesOf (r.dtime % 2 ^ 64) 8 ++ bytesOf r.payload 36

/-- The 64 bytes with their CRC-32C (R212). -/
def recordUnit (chip rseq : Nat) (r : Record) : List Byte :=
  let b := recordBytes chip rseq r
  b ++ bytesOf (crc32c b) 4

/-- A field of the payload: byte offset in the record (24 to 59) and value. -/
def pf (byte v : Nat) : Nat := v * 2 ^ (8 * (byte - 24))

/-- FLAGS of a record the quarter builds: level in force, and what else holds (Table 9-3). -/
def State.flagsOf (s : State) (q : Nat) (aborted tdist shared : Bool) : Nat :=
  (if aborted then 1 else 0) + (if tdist then 2 else 0) + (if shared then 4 else 0) + 8 * s.fld (F.QRES_LSTAT_LEVEL q)

/-- Site i has failed in granule `goff` of the executing body: its failed bit, its first failure, `n` failing compares,
the body's summary with the failing channels `mask` (R206, R208). `shared`: by a channel with no site (R207). -/
def siteFail (q i goff n mask : Nat) (shared : Bool) (s : State) : State :=
  let x := s.q q
  match x.body with
  | none => s
  | some b =>
    let y := s.r q
    let first := if (s.fld (F.QRES_SITES_SITE_FAIL q)).testBit i then y.first
      else tabSet (fun _ => none) y.first i (some { pc := b.addr, ssn := s.ssn q, goff := goff })
    let s := s.setR q { y with
      fcount := tabSet (fun _ => 0) y.fcount i (min (tabGet (fun _ => 0) y.fcount i + n) (2 ^ 32 - 1)), first := first,
      sharedFail := if shared then y.sharedFail ||| 2 ^ i else y.sharedFail }
    let s := s.setBitOf (F.QRES_SITES_SITE_FAIL q) i
    let u := b.sums.getD i {}
    let u := { u with fail := true, fgoff := if u.fail then u.fgoff else goff, nfcmp := u.nfcmp + n,
                      chmask := u.chmask ||| mask, shared := u.shared || shared }
    s.setQ q { x with body := some { b with sums := b.sums.set i u } }

/-- Fail local site i in the granule of device time in which this happens (R164, R173, R206): in a granule that is in
progress at once, in one that is yet to be played when it is; in none while no body executes. -/
def failSite (q i : Nat) (s : State) : State :=
  match (s.q q).body with
  | none => s
  | some b =>
    let j := (s.now - b.start) / 8
    if s.qstate q ≠ 1 || s.siteMasked q (mwSmask b.word) i then s
    else if j < b.played then siteFail q i j 0 0 false s
    else s.setR q { s.r q with extraFail := (s.r q).extraFail ||| 2 ^ i }

/-- The last granule of the quarter's last body, which a record of a stall or a stopped quarter refers to. -/
def State.lastGoff (s : State) (q : Nat) : Nat :=
  match (s.q q).prev with
  | some (a, w, _) => (w - a) / 8 - 1
  | none => 0

def State.siteTdist (s : State) (q i : Nat) : Bool := (s.fld (F.QRES_SITES_SITE_TDIST q)).testBit i

/-- Show the queue's fill and its peak since START (R217). -/
def showFill (q : Nat) (s : State) : State :=
  let n := (s.r q).queue.length
  let t := s.setFld (F.QRES_FILL_FILL q) n
  if t.fld (F.QRES_PEAK_PEAK q) < n then t.setFld (F.QRES_PEAK_PEAK q) n else t

/-- Push a record, or drop it toward the next CAUSE 1 LOSS record (R214). -/
def pushRecord (q : Nat) (r : Record) (s : State) : State :=
  let x := s.r q
  let n := x.queue.length
  if n ≥ 512 || (!r.prio && n ≥ 480) then
    (s.setR q { x with drops := x.drops + 1 }).raise (F.QRES_STAT_LOSS q)
  else
    let t := showFill q (s.setR q { x with queue := x.queue ++ [r] })
    let t := if r.type = 0x01 then t.count (0x50 + q) 1 else t
    let t := if r.type = 0x07 then t.count 0x92 1 else t
    if r.flags.testBit 0 then t.count 0x93 1 else t

/-- The waiting records of the granule that ends: FAIL and FAILCNT in the order they were built, the PPMU records,
then the TIME records in ascending unit order (R214, R237; log entry 35). -/
def pushWaiting (q : Nat) (s : State) : State :=
  let x := s.r q
  let f (p : Record → Bool) (s : State) : State := (x.waiting.filter p).foldl (fun s r => pushRecord q r s) s
  f (·.type = 0x06) (f (·.type = 0x05) (f (·.type ≤ 0x02) (s.setR q { x with waiting := [] })))

/-- FAIL and FAILCNT records that an interrupted body has not pushed yet carry ABORTED (R80). -/
def abortWaiting (q : Nat) (s : State) : State :=
  let x := s.r q
  s.setR q { x with waiting := x.waiting.map fun r => if r.type ≤ 0x02 then { r with flags := r.flags ||| 1 } else r }

/-- A record waits for the boundary that ends its granule; a parked quarter builds none but those with ABORTED (R226). -/
def addWaiting (q : Nat) (r : Record) (s : State) : State :=
  if s.qstate q = 9 && !r.flags.testBit 0 then s else s.setR q { s.r q with waiting := (s.r q).waiting ++ [r] }

/-- A mean: exact where the division is, else one of the two neighbours, left free (log entry 6). -/
def State.meanFree (s : State) (sum : Int) (n : Nat) : Int × State :=
  if n = 0 then (signed 24 (bitsAt s.free.1.toNat 0 24), s.free.2)
  else if sum % (n : Int) = 0 then (sum / n, s)
  else (sum / n + (if s.free.1.getLsbD 0 then 1 else 0), s.free.2)

/-- The count a LOSS record carries (R220). -/
def lossCount (n : Nat) : Nat := if 2 ^ 32 - 2 < n then 0xFFFFFFFF else n

/-- A record of the quarter that goes to its RT_CTL ring: RATE, LOSS, START. -/
def ctlRecord (s : State) (q type dtime payload : Nat) : Record :=
  { type := type, flags := s.flagsOf q false false false, quarter := q, ssn := s.ssn q, goff := 0, site := none,
    dtime := dtime, payload := payload, ring := s.fld (F.QRES_RT_CTL_RING q), prio := true }

/-- The pending CAUSE 1 LOSS record, pushed at the first boundary at which a reserved entry is free (R214). -/
def pushPendingLoss (q t : Nat) (s : State) : State :=
  let x := s.r q
  if x.drops = 0 || 512 ≤ x.queue.length then s
  else pushRecord q (ctlRecord s q 0x08 t (pf 24 1 + pf 28 (lossCount x.drops))) (s.setR q { x with drops := 0 })

/-! ### Bins (R209) -/

/-- The bin table's entry that covers a PC: the valid entry with the greatest LO not above it. -/
def State.binOf (s : State) (q pc : Nat) : Option Nat :=
  let es := (List.range 16).filter fun e =>
    s.bit (F.QRES_BT_LO_VALID q e) && s.fld (F.QRES_BT_LO_LO q e) ≤ pc
  match es.foldl (fun best e => match best with
      | none => some e
      | some b => if s.fld (F.QRES_BT_LO_LO q b) < s.fld (F.QRES_BT_LO_LO q e) then some e else some b) none with
  | some e => some (s.fld (F.QRES_BT_BIN_BIN q e))
  | none => none

/-- The moments of Table 9-1. -/
inductive BinMoment where
  | park
  | halt
  | stop
  deriving DecidableEq, Repr

def State.firstFail (s : State) (q i : Nat) : Option FirstFail := tabGet (fun _ => none) (s.r q).first i

/-- Table 9-1: bin and reason of local site i. -/
def binDecision (s : State) (q : Nat) (m : BinMoment) (i : Nat) : Nat × Nat :=
  let fb := s.fld (F.QRES_BINS_FAULT_BIN q)
  match m with
  | .park => (fb, 4)
  | _ =>
    if (s.ent (q * 8 + i)).sinceStart || s.siteFault (q * 8 + i) then (fb, 2)
    else if m = .stop then (fb, 3)
    else if (s.fld (F.QRES_SITES_SITE_FAIL q)).testBit i then
      match s.firstFail q i with
      | some f => match s.binOf q f.pc with
        | some b => (b, 1)
        | none => (s.fld (F.QRES_DEF_FAIL_DEF_FAIL_BIN q), 1)
      | none => (s.fld (F.QRES_DEF_FAIL_DEF_FAIL_BIN q), 1)
    else (s.fld (F.QRES_BINS_PASS_BIN q), 0)

/-- Decide the bins of the enabled sites and build their BIN records (R209). `goff` is the body's last granule. -/
def binSites (q : Nat) (m : BinMoment) (aborted : Bool) (goff t : Nat) (s : State) : State :=
  forAll (List.range 8) (fun i s =>
    if (s.fld (F.QSEQ_SITE_CFG_SITE_EN q)).testBit i then
      let d := binDecision s q m i
      let s := (s.setFld (F.QRES_SITE_BIN_BIN q i) d.1).setFld (F.QRES_SITE_BIN_VALID q i) 1
      let ff := match s.firstFail q i with
        | some f => pf 26 (0x8000 + f.pc) + pf 28 f.ssn + pf 32 f.goff
        | none => 0
      pushRecord q
        { type := 0x04, flags := s.flagsOf q aborted (s.siteTdist q i) ((s.r q).sharedFail.testBit i), quarter := q, ssn := s.ssn q,
          goff := goff, site := some (q * 8 + i), dtime := t,
          payload := pf 24 d.1 + pf 25 d.2 + ff + pf 36 (tabGet (fun _ => 0) (s.r q).fcount i),
          ring := s.fld (F.QRES_RT_BIN_RING q), prio := true } s
    else s) s

/-! ### Rings: writing into HBM (R213, R218, R220) -/

def ringCap (x : Ring) : Nat := 64 * 2 ^ x.hsize
def hostCap (x : Ring) : Nat := 64 * 2 ^ x.hostSize

/-- The HBM address of the record with an RSEQ: its place is the RSEQ's (log entry 21). -/
def ringPlace (x : Ring) (rseq : Nat) : Nat := x.hbase * 4096 + rseq % ringCap x * 64

/-- Records in HBM from an RSEQ on. -/
def putUnits (x : Ring) : Nat → List (Nat × Record) → State → State
  | _, [], s => s
  | n, e :: l, s => putUnits x ((n + 1) % 2 ^ 32) l (s.setHbm (ringPlace x n) (recordUnit s.chipId n e.2))

/-- Write a record of quarter q into an enabled ring with space: it takes the next RSEQ, and its unit goes to HBM. Of
the quarters that write to the ring in one MCLK cycle the lower takes the lower RSEQ: records of higher quarters
written in this cycle, and still there, move up. -/
def ringStore (ri q : Nat) (r : Record) (s : State) : State :=
  let x := s.ring ri
  let recs := if x.cycle = s.now / 2 + 1 then x.cycleRecs else []
  let above := recs.filter (q < ·.1)
  let above := if above.length ≤ x.fill then above else []
  let n := (x.rseq + 2 ^ 32 - above.length) % 2 ^ 32
  let s := (putUnits x n ((q, r) :: above) s).setRing ri
    { x with rseq := (x.rseq + 1) % 2 ^ 32, fill := x.fill + 1, cycle := s.now / 2 + 1,
             cycleRecs := recs.take (recs.length - above.length) ++ (q, r) :: above }
  ((if r.type = 0x0A then s.count 0x94 1 else s).count 0x90 1).count (if ringPlace x x.rseq / 256 % 2 = 1 then 0x83 else 0x81) 1

/-- Count a record of quarter q lost in ring `ri` with a cause (R220). -/
def ringLose (ri q cause n : Nat) (s : State) : State :=
  let x := s.ring ri
  let l := if x.lost.any (fun e => e.1 = q && e.2.1 = cause) then
      x.lost.map (fun e => if e.1 = q && e.2.1 = cause then (e.1, e.2.1, e.2.2 + n) else e)
    else x.lost ++ [(q, cause, n)]
  (s.setRing ri { x with lost := l }).raise (F.QRES_STAT_LOSS q)

/-- The LOSS record of quarter q for a ring's CAUSE 2 or 3 (R220). -/
def lossRecord (s : State) (q cause n : Nat) : Record := ctlRecord s q 0x08 s.now (pf 24 cause + pf 28 (lossCount n))

/-- What waits for a ring with space goes into it: the LOSS records, then the ring engine's records (R220). -/
def flushRing (ri : Nat) (s : State) : State :=
  let s := (s.ring ri).lost.foldl (fun s e =>
    let x := s.ring ri
    if x.on && x.fill < ringCap x then
      ringStore ri e.1 (lossRecord s e.1 e.2.1 e.2.2) (s.setRing ri { x with lost := x.lost.erase e })
    else s) s
  (s.ring ri).waits.foldl (fun s e =>
    let x := s.ring ri
    if x.on && x.fill < ringCap x then ringStore ri e.1 e.2 (s.setRing ri { x with waits := x.waits.erase e }) else s) s

/-- A record for a ring that is not enabled: dropped and counted (R220). -/
def discardRecord (ri q : Nat) (s : State) : State :=
  ((ringLose ri q 3 1 s).raise F.RING_STAT_DISC_DROP).report 0x043 ri

/-- Nothing that was there before waits for the ring. -/
def Ring.clear (x : Ring) : Bool := x.lost.isEmpty && x.waits.isEmpty

/-- Write one record of quarter q's queue into its ring, as one write slot does: a record for a ring not enabled, or
a non-priority one without space, is dropped and counted; a priority one without space waits (R220). -/
def writeSlot (q : Nat) (s : State) : State :=
  let x := s.r q
  match x.queue with
  | [] => s
  | r :: rest =>
    let g := s.ring r.ring
    let drop (t : State) : State := showFill q (t.setR q { x with queue := rest })
    if !g.on then discardRecord r.ring q (drop s)
    else if g.clear && (g.fill + 64 < ringCap g || (r.prio && g.fill < ringCap g)) then ringStore r.ring q r (drop s)
    else if r.prio then s
    else flushRing r.ring (ringLose r.ring q 2 1 (drop s))

/-- A priority record waits at the head of quarter q's queue, or for the ring engine (R220). -/
def State.prioWaits (s : State) (q : Nat) : Bool :=
  (s.rings.any fun e => e.2.waits.any fun w => w.1 = q) ||
    match (s.r q).queue with
    | [] => false
    | r :: _ => r.prio && (s.ring r.ring).on && ringCap (s.ring r.ring) ≤ (s.ring r.ring).fill

/-- A record the ring engine builds itself for quarter q, a priority one (R226, R227).
`hq` is its QUARTER: 0 by Table 9-2, the quarter where R226 says so (log entry 34). -/
def centralRecord (s : State) (q hq type payload ring : Nat) : Record :=
  { type := type, flags := 32 + 8 * s.fld (F.QRES_LSTAT_LEVEL q), quarter := hq, ssn := 0, goff := 0, site := none,
    dtime := s.now, payload := payload, ring := ring, prio := true }

def centralWrite (q : Nat) (r : Record) (s : State) : State :=
  let g := s.ring r.ring
  if !g.on then discardRecord r.ring q s
  else if g.clear && g.fill < ringCap g then ringStore r.ring q r s
  else s.setRing r.ring { g with waits := g.waits ++ [(q, r)] }

/-- INVALIDATE records of a quarter (R226, R227): to its RT_CTL ring, and with CAUSE 1 to its RT_BIN ring if that
differs. -/
def invalidate (q cause : Nat) (s : State) : State :=
  let c := s.fld (F.QRES_RT_CTL_RING q)
  let b := s.fld (F.QRES_RT_BIN_RING q)
  let hq := if cause = 2 then q else 0
  let s := centralWrite q (centralRecord s q hq 0x0A (pf 24 cause) c) s
  if cause = 1 && b ≠ c then centralWrite q (centralRecord s q hq 0x0A (pf 24 cause) b) s else s

/-! ### The rate-reduction ladder (R217) -/

/-- The rings a quarter's records are routed to. -/
def State.routed (s : State) (q : Nat) : List Nat :=
  [s.fld (F.QRES_RT_FAIL_RING q), s.fld (F.QRES_RT_SUM_RING q), s.fld (F.QRES_RT_BIN_RING q),
   s.fld (F.QRES_RT_PPMU_RING q), s.fld (F.QRES_RT_TIME_RING q), s.fld (F.QRES_RT_CTL_RING q)].dedup

/-- The references of the last change: the queue's fill and the routed rings' fills. -/
def ladderRefs (q : Nat) (s : State) : State :=
  let x := s.r q
  s.setR q { x with refQ := x.queue.length,
                    refR := (s.routed q).foldl (fun t r => tabSet (fun _ => 0) t r (s.ring r).fill) [] }

def rateRecord (s : State) (q t old new cause ring : Nat) : Record :=
  ctlRecord s q 0x07 t (pf 24 old + pf 25 new + pf 26 cause + pf 28 (s.r q).queue.length +
    (if cause = 2 then pf 30 ring + pf 32 (s.ring ring).fill else 0))

/-- The level is never below MINLVL: a higher MINLVL, which is written in a stopped quarter, lifts it at once (R217). -/
def ladderLift (q : Nat) (s : State) : State :=
  let m := s.fld (F.QRES_CFG_MINLVL q)
  if s.fld (F.QRES_LSTAT_LEVEL q) < m then s.setFld (F.QRES_LSTAT_LEVEL q) m else s

/-- One evaluation at granule boundary `t` (R217). -/
def ladderEval (q t : Nat) (s : State) : State :=
  let x := s.r q
  let level := s.fld (F.QRES_LSTAT_LEVEL q)
  let minl := s.fld (F.QRES_CFG_MINLVL q)
  let qf := x.queue.length
  let hotQ := s.fld (F.QRES_LAD_HWM q) * 32 ≤ qf && x.refQ < qf
  let hotR := (s.routed q).find? fun r =>
    let g := s.ring r
    g.on && (g.hwm + 1) * ringCap g ≤ g.fill * 8 && tabGet (fun _ => 0) x.refR r < g.fill
  let low := qf < s.fld (F.QRES_LAD_LWM q) * 32 && (s.routed q).all fun r =>
    let g := s.ring r
    !g.on || g.fill * 8 < g.lwm * ringCap g
  let dwell := max 1 (s.fld (F.QRES_LAD_DWELL q)) * 80
  let s :=
    if level < 3 && (hotQ || hotR.isSome) then
      let rec1 := rateRecord s q t level (level + 1) (if hotQ then 1 else 2) (hotR.getD 0)
      let s := (s.setFld (F.QRES_LSTAT_LEVEL q) (level + 1)).raise (F.QRES_LSTAT_RISE q)
      let s := ladderRefs q (pushRecord q rec1 s)
      s.setR q { s.r q with quiet := 0 }
    else if low then
      if x.quiet + 1 = dwell && minl < level then
        let rec1 := rateRecord s q t level (level - 1) 3 0
        let s := (s.setFld (F.QRES_LSTAT_LEVEL q) (level - 1)).raise (F.QRES_LSTAT_FALL q)
        let s := pushRecord q rec1 (s.setR q { s.r q with quiet := 0 })
        ladderRefs q s
      else s.setR q { x with quiet := min (x.quiet + 1) dwell }
    else s.setR q { x with quiet := 0 }
  if s.fld (F.QRES_LSTAT_LEVEL q) = minl then s.setR q { s.r q with refQ := 0, refR := [] } else s

/-- START's part in the results (R208, R217): site outcomes cleared, the ladder at MINLVL, no bin decided. -/
def resultsStart (q : Nat) (s : State) : State :=
  let x := s.r q
  let s := s.setR q { x with first := [], fcount := [], quiet := 0, refQ := 0, refR := [], extraFail := 0, sharedFail := 0 }
  let s := (s.setReg (R.QRES_SITES q) 0).setFld (F.QRES_LSTAT_LEVEL q) (s.fld (F.QRES_CFG_MINLVL q))
  let s := s.setFld (F.QRES_PEAK_PEAK q) x.queue.length
  forAll (List.range 8) (fun i s =>
    (s.setReg (R.QRES_SITE_BIN q i) 0).setEnt (q * 8 + i) { s.ent (q * 8 + i) with sinceStart := false }) s

end Sys2Proof.Machine
end

