-- ==== Sys2Proof/Machine/Segments.lean ====
section
/-! DEFINITION. Segments: the four encodings and their decoder, the descriptor and timing-set checks, the fetch
engine's jobs, heads and staging (04_pattern_memory.md, R114, R115). -/

namespace Sys2Proof.Machine

def ceilDiv (a b : Nat) : Nat := (a + b - 1) / b

/-! ### Stored size (R90) -/

def lfsrCont (d : Desc) : Bool := (sdParam d).testBit 4

/-- Fetch volume V in units for a whole body, `n` channels in the group (Table 4-2). -/
def volume (d : Desc) (n : Nat) : Nat :=
  match sdEnc d with
  | 0 => ceilDiv (sdLen d * sdStride d) 64
  | 1 => ceilDiv (sdParam d * sdStride d) 64
  | 3 => if lfsrCont d then 0 else ceilDiv (4 * n) 64
  | _ => sdParam d

/-- Units a body of `b` granules fetches: only RAW is cut (R90). -/
def bodyVolume (d : Desc) (n b : Nat) : Nat :=
  if sdEnc d = 0 && b < sdLen d then ceilDiv (b * sdStride d) 64 else volume d n

/-! ### Descriptor check (R89, R103) -/

/-- Refill window n in bytes: base and end; closed windows are empty. -/
def State.window (s : State) (n : Nat) : Nat × Nat :=
  let b := s.fld (F.MEM_WIN_BASE_BASE n) * 2 ^ 20
  (b, b + s.fld (F.MEM_WIN_SIZE_SIZE n) * 2 ^ 20)

def State.insideWindow (s : State) (lo hi : Nat) : Bool :=
  (List.range 16).any fun n => (s.window n).1 ≤ lo && hi ≤ (s.window n).2 && (s.window n).1 < (s.window n).2

def State.meetsWindow (s : State) (lo hi : Nat) : Bool :=
  (List.range 16).any fun n => (s.window n).1 < hi && lo < (s.window n).2 && lo < hi && (s.window n).1 < (s.window n).2

/-- PARAM is valid for ENC (Table 4-2). -/
def paramOk (d : Desc) : Bool :=
  match sdEnc d with
  | 0 => sdParam d = 0
  | 1 => 1 ≤ sdParam d && sdParam d ≤ sdLen d && sdParam d * sdStride d ≤ 512 * 1024
  | 3 => sdParam d % 8 ≤ 5 && sdParam d / 32 = 0
  | _ => 1 ≤ sdParam d

/-- R89, but for the width: `width` is the sum of the group's field widths in bits. -/
def State.descOk (s : State) (d : Desc) (n width : Nat) : Bool :=
  let lo := sdAddr d * 64
  let hi := lo + volume d n * 64
  descCrcOk d && sdEnc d ≤ 4 && 8 ≤ sdLen d && (!sdHead d || sdResident d) && hi ≤ s.capacity &&
    (if sdResident d then !s.meetsWindow lo hi else s.insideWindow lo hi || lo = hi) && paramOk d &&
    (sdEnc d ≠ 4 || sdStride d % 2 = 0) && width = 8 * sdStride d

/-! ### Timing-set check (R115, Tables 5-2, 5-5) -/

def minSep (e : PinEntry) : Nat := if peStage e then 820 else 32

/-- The drive edges a format uses, with D0 at 0 where it is not enabled (R118). -/
def driveEdges (e : PinEntry) : List Nat :=
  let p0 := if edgeEn e.d0 then edgePos e.d0 else 0
  let p1 := if edgeEn e.d1 then [edgePos e.d1] else []
  let p2 := if edgeEn e.d2 then [edgePos e.d2] else []
  match peFmt e with
  | 0 => [p0]
  | 3 => p0 :: (p1 ++ p2)
  | _ => p0 :: p1

def strobeEdges (e : PinEntry) : List Nat :=
  (if edgeEn e.s0 then [edgePos e.s0] else []) ++ (if edgeEn e.s1 then [edgePos e.s1] else [])

/-- Rising with a least distance. -/
def spaced (d : Nat) : List Nat → Bool
  | a :: b :: t => a + d ≤ b && spaced d (b :: t)
  | _ => true

def uiSteps (e : PinEntry) : Nat := 32 * 2 ^ peLrate e

def edgeWords (e : PinEntry) : List Dword := [e.d0, e.d1, e.d2, e.d3, e.s0, e.s1]

/-- The cause of Table 5-2 for a channel's entry, 0 where the entry passes. `ftw` is the channel's oscillator
word in force. -/
def entryCause (e : PinEntry) (ftw : Nat) : Nat :=
  let mode := peMode e
  if e.cfg.toNat / 2 ^ 13 ≠ 0 || e.per.toNat / 2 ^ 24 ≠ 0 || (edgeWords e).any (fun d => bitsAt d.toNat 30 1 = 1) ||
      (mode = 1 && peW e = 3) || (mode = 2 && peLdir e = 3) then 1
  else if mode = 2 && peStage e then 2
  else if mode = 1 && !([4, 8, 16, 32].contains (pePer e) || pePer e % 64 = 0) then 3
  else if (mode = 1 && (edgeWords e).any (fun d => edgeEn d && 64 * pePer e ≤ edgePos d)) ||
      (mode = 2 && (edgeWords e).any (fun d => edgeEn d && uiSteps e ≤ edgePos d)) then 4
  else if mode = 1 && (!spaced (minSep e) (driveEdges e) || !spaced 32 (strobeEdges e)) then 5
  else if (mode = 1 && ((peFmt e ≠ 0 && !edgeEn e.d1) || (peFmt e = 3 && !edgeEn e.d2) ||
        (peWindow e && !(edgeEn e.s0 && edgeEn e.s1)))) ||
      (mode = 2 && peLdir e ≠ 0 && !edgeEn e.s0) then 6
  else if mode = 3 && (if peStage e then 0x0A0000000000 else 0x800000000000) < ftw then 7
  else 0

/-- The entries of a group's channels as they stand (R115). -/
def State.snapshotSet (s : State) (q set grp : Nat) : List PinEntry :=
  (members grp).map fun c => s.pinEntry q set c

/-- The first failing entry: (cause, local channel). -/
def State.snapFail (s : State) (q : Nat) (snap : List PinEntry) : Option (Nat × Nat) :=
  (snap.map fun e => (entryCause e (s.chan (q * 64 + e.ch)).ftw, e.ch)).find? fun x => x.1 ≠ 0

/-- The width in bits that a snapshot gives a group; a failing entry counts as 0 (R115). -/
def State.snapWidth (s : State) (q : Nat) (snap : List PinEntry) : Nat :=
  snap.foldl (fun a e => if entryCause e (s.chan (q * 64 + e.ch)).ftw = 0 then a + fieldWidth e else a) 0

/-! ### Decoding (R90 to R94) -/

/-- What the decoder gives for a granule. -/
inductive DecRes where
  | ok (d : Decoder) (lfsr : List (Nat × Nat))
  | missing
  | poison (hbmUnit : Nat)
  | err
  deriving DecidableEq, Repr

/-- A unit of a body's stored data in staging, as the decoder sees it. -/
abbrev UnitMap := List (Nat × BitVec 512 × Bool × Nat)

/-- The first unit among bytes [pos, pos + n) that is not there, or is poisoned. -/
def bytesState (u : UnitMap) (pos n : Nat) : DecRes :=
  if n = 0 then .ok {} [] else
  let ks := (List.range (((pos + n - 1) / 64) - pos / 64 + 1)).map (pos / 64 + ·)
  ks.foldl (fun acc k => match acc with
    | .ok _ _ => match u.find? (fun e => e.1 = k) with
      | none => .missing
      | some e => if e.2.2.1 then .poison e.2.2.2 else acc
    | _ => acc) (.ok {} [])

/-- `n` bytes from `pos` as a little-endian number. -/
def bytesAt (u : UnitMap) (pos : Nat) : Nat → Nat
  | 0 => 0
  | n + 1 => (match u.find? (fun e => e.1 = pos / 64) with
      | some e => bitsAt e.2.1.toNat (8 * (pos % 64)) 8
      | none => 0) + 256 * bytesAt u (pos + 1) n

/-- Generator widths and taps (R92). -/
def lfsrPoly : Nat → Nat × Nat
  | 0 => (7, 6)
  | 1 => (9, 5)
  | 2 => (11, 9)
  | 3 => (15, 14)
  | 4 => (23, 18)
  | _ => (31, 28)

/-- `n` symbol bits of a generator: the output bits, earliest lowest, and the new state (R92). -/
def lfsrRun (w k : Nat) (inv : Bool) : Nat → Nat → Nat × Nat
  | st, 0 => (0, st)
  | st, n + 1 =>
    let f := (bitsAt st (w - 1) 1 + bitsAt st (k - 1) 1) % 2
    let st' := (st * 2 + f) % 2 ^ w
    let r := lfsrRun w k inv st' n
    ((if inv then 1 - f else f) + 2 * r.1, r.2)

def lfsrStart (w st : Nat) : Nat := if st % 2 ^ w = 0 then 2 ^ w - 1 else st % 2 ^ w

/-- One granule of an LFSR body: every channel of the group runs its generator over its field. -/
def lfsrGranule (d : Desc) (snap : List PinEntry) (lfsr : List (Nat × Nat)) : Nat × List (Nat × Nat) :=
  let w := lfsrPoly (sdParam d % 8)
  let inv := (sdParam d).testBit 3
  let r := snap.foldl (fun (acc : Nat × Nat × List (Nat × Nat)) e =>
    let st := ((lfsr.find? fun x => x.1 = e.ch).map (·.2)).getD (2 ^ w.1 - 1)
    let o := lfsrRun w.1 w.2 inv st (fieldWidth e)
    (acc.1 + o.1 * 2 ^ acc.2.1, acc.2.1 + fieldWidth e, acc.2.2 ++ [(e.ch, o.2)])) (0, 0, [])
  (r.1, r.2.2 ++ lfsr.filter fun x => !snap.any fun e => e.ch = x.1)

/-- XOR a granule's DELTA entries into the vector; none where an index is out of range. -/
def deltaEntries (u : UnitMap) (stride : Nat) : Nat → Nat → Nat → Option Nat
  | _, v, 0 => some v
  | pos, v, k + 1 =>
    let i := bytesAt u pos 2
    if stride / 2 ≤ i then none
    else deltaEntries u stride (pos + 4) (v ^^^ (bytesAt u (pos + 2) 2 * 2 ^ (16 * i))) k

def roundUp (n m : Nat) : Nat := ceilDiv n m * m

/-- The vector of the next granule (R90 to R94). -/
def decodeNext (d : Desc) (snap : List PinEntry) (u : UnitMap) (lfsr : List (Nat × Nat)) (x : Decoder) : DecRes :=
  let st := sdStride d
  let endPos := sdParam d * 64
  let need (pos n : Nat) (k : DecRes) : DecRes := match bytesState u pos n with
    | .ok _ _ => k
    | r => r
  match sdEnc d with
  | 0 => need (x.produced * st) st
      (.ok { x with produced := x.produced + 1, pos := (x.produced + 1) * st, vec := bytesAt u (x.produced * st) st } lfsr)
  | 1 =>
    let p := x.produced % max 1 (sdParam d) * st
    need p st (.ok { x with produced := x.produced + 1, vec := bytesAt u p st } lfsr)
  | 2 =>
    if 0 < x.runLeft then .ok { x with produced := x.produced + 1, runLeft := x.runLeft - 1 } lfsr
    else if endPos < x.pos + 8 + roundUp st 8 then .err
    else need x.pos 8 (
      let h := bytesAt u x.pos 8
      let c := h % 2 ^ 20
      if c = 0 || h / 2 ^ 20 ≠ 0 || sdLen d < x.produced + c then .err
      else need (x.pos + 8) st (.ok { pos := x.pos + 8 + roundUp st 8, runLeft := c - 1, produced := x.produced + 1,
                                      vec := bytesAt u (x.pos + 8) st } lfsr))
  | 3 =>
    let w := (lfsrPoly (sdParam d % 8)).1
    let go (l : List (Nat × Nat)) : DecRes :=
      let r := lfsrGranule d snap l
      .ok { x with produced := x.produced + 1, vec := r.1 } r.2
    if x.produced = 0 then
      if lfsrCont d then
        go (snap.map (fun e => (e.ch, lfsrStart w (((lfsr.find? fun y => y.1 = e.ch).map (·.2)).getD (2 ^ w - 1)))) ++
          lfsr.filter fun y => !snap.any fun e => e.ch = y.1)
      else need 0 (4 * snap.length)
        (go ((snap.zipIdx.map fun e => (e.1.ch, lfsrStart w (bytesAt u (4 * e.2) 4))) ++
          lfsr.filter fun y => !snap.any fun e => e.ch = y.1))
    else go lfsr
  | _ =>
    if x.produced = 0 then
      if endPos < roundUp st 4 then .err
      else need 0 st (.ok { x with produced := 1, pos := roundUp st 4, vec := bytesAt u 0 st } lfsr)
    else if endPos < x.pos + 4 then .err
    else need x.pos 4 (
      let h := bytesAt u x.pos 4
      let k := h % 2 ^ 16
      if h / 2 ^ 16 ≠ 0 || st / 2 < k || endPos < x.pos + 4 + 4 * k then .err
      else need (x.pos + 4) (4 * k) (match deltaEntries u st (x.pos + 4) x.vec k with
        | none => .err
        | some v => .ok { x with produced := x.produced + 1, pos := x.pos + 4 + 4 * k, vec := v } lfsr))

/-- An error somewhere in the rest of the stream, among the data that has arrived (R94: the error is reported in
every case, also where its granule lies past a cut body's end). `u j`: the data of granule j. -/
def restHasError (d : Desc) (snap : List PinEntry) (u : Nat → UnitMap) (lfsr : List (Nat × Nat)) : Nat → Decoder → Bool
  | 0, _ => false
  | n + 1, x => match decodeNext d snap (u x.produced) lfsr x with
    | .ok x' l' => restHasError d snap u l' n x'
    | .err => true
    | _ => false

/-- The first stored byte that granule `h` needs, and so the first unit of a head's remainder (R99). Granules of
a run or a change are found by decoding from the start. -/
def neededFrom (d : Desc) (snap : List PinEntry) (u : UnitMap) : Nat → Decoder → Nat
  | 0, x => match sdEnc d with
    | 0 => x.produced * sdStride d
    | _ => x.pos
  | n + 1, x => match decodeNext d snap u [] x with
    | .ok x' _ => neededFrom d snap u n x'
    | _ => x.pos

/-! ### Fetch jobs (R97 to R100) -/

def State.rate (s : State) (q : Nat) : Nat :=
  let r := s.fld (F.MEM_QCFG_RATE q)
  if r = 0 || 64 < r then 64 else r

/-- The head store and the stream buffer of quarter q, bytes (R97). -/
def State.headBytes (s : State) (q : Nat) : Nat := min (s.fld (F.MEM_QCFG_HEAD_64K q)) 16 * 65536
def State.streamBytes (s : State) (q : Nat) : Nat := 2 * 2 ^ 20 - s.headBytes q

/-- The ready bit of a RID (R105). -/
def State.ridReady (s : State) (rid : Nat) : Bool := (s.reg (R.MEM_RDY (rid / 16))).getLsbD (rid % 16)

def clearRid (rid : Nat) (s : State) : State :=
  s.setReg (R.MEM_RDY (rid / 16)) (s.reg (R.MEM_RDY (rid / 16)) &&& ~~~ BitVec.ofNat 16 (2 ^ (rid % 16)))

/-- At most four jobs of a quarter are active; a waiting one starts when one finishes (R100). -/
def activate (t : Nat) (jobs : List Job) : List Job :=
  (jobs.foldl (fun (acc : List Job × Nat) j =>
    if j.total ≤ j.next then (acc.1 ++ [j], acc.2)
    else if acc.2 < 4 then (acc.1 ++ [if j.active then j else { j with active := true, point := t }], acc.2 + 1)
    else (acc.1 ++ [j], acc.2)) ([], 0)).1

/-- Add a job at its fetch point. -/
def addJob (q : Nat) (j : Job) (s : State) : State :=
  let x := s.m q
  s.setM q { x with jobs := activate j.point (x.jobs ++ [j]) }

/-- Bytes of the stream buffer in use: staged units and those requested that will be (log entry 10). -/
def QMem.used (x : QMem) : Nat := (x.staged.length + (x.flights.filter fun f => !f.drop).length) * 64

/-- Issue the units due in the granule that begins at `t`, of the jobs that run (R100): unit k of a job in the granule
of its fetch point + floor(k / RATE), and no unit without room in the stream buffer. -/
def issueUnits (q t : Nat) (runs : Job → Bool) (s : State) : State :=
  let rate := s.rate q
  let x := s.m q
  let jobs := activate t x.jobs
  let r := jobs.foldl (fun (acc : List Job × List Flight × Nat) j =>
    if j.active && j.point ≤ t && runs j then
      let due := min j.total (j.first + rate * ((t - j.point) / 8 + 1))
      let room := (s.streamBytes q - acc.2.2) / 64
      let n := min (due - j.next) room
      let fs := (List.range n).map fun i =>
        ({ gen := j.gen, addr := j.addr, unit := j.next + i, hbmUnit := sdAddr j.desc + j.next + i } : Flight)
      (acc.1 ++ [{ j with next := j.next + n }], acc.2.1 ++ fs, acc.2.2 + 64 * n)
    else (acc.1 ++ [j], acc.2.1, acc.2.2)) ([], [], x.used)
  let s := s.setM q { x with jobs := r.1, flights := x.flights ++ r.2.1 }
  let s := s.count (0x60 + q) r.2.1.length
  let a := (r.2.1.filter fun f => f.hbmUnit / 4 % 2 = 0).length
  let s := (s.count 0x80 a).count 0x82 (r.2.1.length - a)
  let kib := ceilDiv (s.m q).used 1024
  if s.fld (F.MEM_STAGE_PEAK_PEAK q) < kib then s.setFld (F.MEM_STAGE_PEAK_PEAK q) (min kib 0xFFFF) else s

/-- Discard the jobs and staged data of the bodies `gone` names by number and address; units already requested complete
and are discarded (R99, R108). A poisoned unit that no granule uses is a CORRECTED event of source 0x033 (R86). -/
def discardJobs (q : Nat) (gone : Nat → Nat → Bool) (s : State) : State :=
  let x := s.m q
  let lost := x.staged.filter fun u => gone u.gen u.addr && u.poison
  let s := lost.foldl (fun s u => s.report 0x033 u.hbmUnit) s
  s.setM q { x with jobs := x.jobs.filter (fun j => !gone j.gen j.addr),
                    flights := x.flights.map (fun f => if gone f.gen f.addr then { f with drop := true } else f),
                    staged := x.staged.filter (fun u => !gone u.gen u.addr),
                    tails := x.tails.filter (fun b => !gone b.no b.addr) }

/-- Discard the jobs and data of a body number but for the chosen candidate (R99). -/
def discardOthers (q gen keep : Nat) (s : State) : State := discardJobs q (fun g a => g = gen && a ≠ keep) s

/-- Discard the whole stream buffer (R108). -/
def flushStream (q : Nat) (s : State) : State := discardJobs q (fun _ _ => true) s

/-- The units that granule `j` of a body can read: those of the head for the granules it holds, else those of the
body's own job that have arrived by `t` (R97, R99). -/
def State.unitMap (s : State) (q : Nat) (b : Body) (j t : Nat) : UnitMap :=
  let x := s.m q
  if sdHead b.desc && (j < 64 || sdEnc b.desc = 1 || sdEnc b.desc = 3) then
    match x.heads.find? fun h => h.seg = mwSeg b.word with
    | some h => h.units
    | none => []
  else (x.staged.filter fun u => u.gen = b.no && u.addr = b.addr && u.arrived ≤ t).map fun u => (u.unit, u.data, u.poison, u.hbmUnit)

/-- Data of the ended or cut body `b` that has arrived by `t` holds a decode error past the body's end (R94). -/
def State.tailError (s : State) (q : Nat) (b : Body) (t : Nat) : Bool :=
  restHasError b.desc b.snap (fun j => s.unitMap q b j t) (s.m q).lfsr (b.segLen - b.dec.produced) b.dec

/-- The body's job has units left to issue, or to arrive. -/
def State.fetching (s : State) (q : Nat) (b : Body) : Bool :=
  let x := s.m q
  (x.jobs.any fun j => j.gen = b.no && j.addr = b.addr && j.next < j.total) ||
    x.flights.any fun f => f.gen = b.no && f.addr = b.addr && !f.drop

/-- A body ends: its job goes, or goes on until its whole volume is fetched (R90). -/
def endFetch (q : Nat) (b : Body) (s : State) : State :=
  if s.fetching q b then s.setM q { s.m q with tails := (s.m q).tails ++ [b] } else discardOthers q b.no 0x8000 s

/-- After an arrival: an ended body whose data shows an error is reported (R94); one that is fetched is discarded. -/
def checkTail (q : Nat) (b : Body) (s : State) : State :=
  if s.tailError q b s.now then
    let seg := mwSeg b.word
    let s := (s.setFld (F.MEM_ERR_SEG_L_SEG_L q) seg).setFld (F.MEM_ERR_SEG_H_SEG_H q) (seg / 2 ^ 16)
    discardOthers q b.no 0x8000 ((s.raise (F.MEM_QSTAT_DECODE_ERR q)).report (0x102 + 16 * q) seg)
  else if s.fetching q b then s
  else discardOthers q b.no 0x8000 s

end Sys2Proof.Machine
end

