-- ==== Sys2Proof/Machine/PortPins.lean ====
section
/-! DEFINITION. What a serial port's registers and setups say, the timing of its master units, and what a master
drives on its pins (12_serial_ports.md, R266 to R274; Table 12-3). -/

namespace Sys2Proof.Machine

/-! ### Registers of a port -/

def portBase (n : Nat) : Nat := if n = 16 then 0x80000 else 0x84000 + 0x2000 * n

def portReg (s : State) (n off : Nat) : Word := s.reg (portBase n + off)

def State.portEn (s : State) (n : Nat) : Bool := fieldOf (portReg s n 0) 0 1 = 1

/-- ROLE; SPX0 reads 0, a master. -/
def State.portSlave (s : State) (n : Nat) : Bool := n ≠ 16 && fieldOf (portReg s n 0) 1 1 = 1

/-- The eight registers of setup k (Table 12-9). -/
def State.portSetup (s : State) (n k : Nat) : List Word :=
  (List.range 8).map fun i => portReg s n (0x100 + 0x20 * k + 4 * i)

def suField (u : List Word) (i lo w : Nat) : Nat := fieldOf (u.getD i 0) lo w
def suDir (u : List Word) : Bool := suField u 0 0 1 = 1
def suLanes (u : List Word) (ph : Nat) : Nat := suField u 0 (1 + 2 * ph) 2
def suLen (u : List Word) : Nat := suField u 5 0 14 + 1

/-- Bits per SCK cycle of a lane code (Table 12-1). -/
def laneBits (code : Nat) : Nat := 2 ^ code

/-- Bits per cycle of the data phase: two a lane in DDR. -/
def suDataBits (u : List Word) : Nat := laneBits (suLanes u 2) * (if suField u 0 12 1 = 1 then 2 else 1)

/-- SCK cycles before the data phase, and those of `bits` data bits (R274). -/
def suHeadCycles (u : List Word) : Nat :=
  ceilDiv (suField u 2 0 5) (laneBits (suLanes u 0)) + ceilDiv (suField u 2 5 6) (laneBits (suLanes u 1)) +
    suField u 2 11 5
def suDataCycles (u : List Word) : Nat := ceilDiv (suLen u) (suDataBits u)
def suCycles (u : List Word) : Nat := suHeadCycles u + suDataCycles u

/-- The half period in 1/50 PCLK: DIV + 1 PCLK, or SPX0's frequencies (Table 12-8). -/
def State.half50 (s : State) (n : Nat) : Nat :=
  let d := fieldOf (portReg s n 4) 0 12
  if n = 16 then (match d with
    | 0 => 160
    | 1 => 120
    | 2 => 96
    | 3 => 80
    | _ => 640)
  else 50 * (d + 1)

/-- `m` half periods in PCLK. -/
def State.halves (s : State) (n m : Nat) : Nat := ceilDiv (m * s.half50 n) 50

/-- The end of a master unit's last cycle and of its select hold (Table 12-3), with `busy` busy beats. -/
def State.masterEnd (s : State) (n : Nat) (u : PortUnit) (busy : Nat) : Nat :=
  let t := portReg s n 8
  let bm := fieldOf (portReg s n 0xC) 8 8
  let beats := busy * ceilDiv 8 (suDataBits u.setup)
  let c := suHeadCycles u.setup + (if bm ≠ 0 && suDir u.setup then
    beats + (if bm ≤ busy then 0 else suDataCycles u.setup) else suDataCycles u.setup)
  u.t0 + s.halves n (max 1 (fieldOf t 0 4) + 2 * c + max 1 (fieldOf t 4 4))

/-! ### What a master drives (R267, R268, R271) -/

/-- SCK at `x`, in 1/50 PCLK after the first of `c` cycles of half period `h` began (no limit: none). The cycle begins
at the idle level and leads at its middle with CPHA = 0; it begins with the leading edge with CPHA = 1. -/
def sckLevel (cpol cpha : Bool) (h : Nat) (c : Option Nat) (x : Int) : Bool :=
  let k := (x / (max 1 h : Nat)).toNat
  if x < 0 || (match c with
    | some c => 2 * c ≤ k
    | none => false) then cpol
  else if (k % 2 == 1) != cpha then !cpol else cpol

/-- A phase's bit `b` on the wire of a value sent most significant bit first, `n` bits long (R267). -/
def msbBit (v n b : Nat) : Bool := v.testBit (n - 1 - b)

/-- What a master drives on lane `i` in a cycle of a head phase: bit string `v` of `n` bits, `k` cycles into it. -/
def headLane (code v n k i : Nat) : Option Bool :=
  let w := laneBits code
  if w ≤ i then none else some (msbBit v n (k * w + (w - 1 - i)))

/-- TX dword i of the setup. -/
def State.txDword (s : State) (n : Nat) (u : List Word) (i : Nat) : Dword :=
  s.winGet (portBase n + 0x1000 + 4 * ((suField u 6 0 9 + i) % 512))

/-- Dwords that port n's TX can still give the unit in flight: AVAIL, or what it had when it ran dry (R269). -/
def State.txHas (s : State) (n : Nat) : Nat :=
  let av := fieldOf (portReg s n 0x18) 0 10
  match (s.port n).unit.bind (·.dry) with
  | some d => min d av
  | none => av

/-- The dwords of a sending master unit whose first bit has been launched (Table 12-3). -/
def State.txBegun (s : State) (n : Nat) (u : PortUnit) : Nat :=
  let h := max 1 (s.half50 n)
  let a := 50 * u.t0 + h * (max 1 (fieldOf (portReg s n 8) 0 4) + 2 * suHeadCycles u.setup)
  if u.slave || suDir u.setup || 50 * s.now < a then 0
  else min (ceilDiv (suLen u.setup) 32) ((50 * s.now - a) / (2 * h) * suDataBits u.setup / 32 + 1)

/-- TX wire bit `b` of a setup: a word past those available repeats the one before (R267, R269). -/
def State.txBit (s : State) (n : Nat) (u : List Word) (b : Nat) : Bool :=
  let av := s.txHas n
  let w := if av = 0 then ((s.port n).sent.getLast?).getD 0 else s.txDword n u (min (b / 32) (av - 1))
  w.getLsbD (if suField u 0 11 1 = 1 then b % 32 else 31 - b % 32)

/-- What a master drives on lane `i` in half `h2` of data cycle `k` (R266, R267). -/
def State.dataLane (s : State) (n : Nat) (u : List Word) (k h2 i : Nat) : Option Bool :=
  let code := suLanes u 2
  let w := laneBits code
  if w ≤ i then none
  else if suDir u then (if code = 0 then some true else none)
  else
    let b := if suField u 0 12 1 = 1 then (2 * k + h2) * w + (w - 1 - i) else k * w + (w - 1 - i)
    if b < suLen u then some (s.txBit n u b) else none

/-- What a master's unit drives on lane `i` at `x`, in 1/50 PCLK after its first cycle began. -/
def State.laneDrive (s : State) (n : Nat) (u : List Word) (x : Int) (i : Nat) : Option Bool :=
  if x < 0 then none
  else
    let h := max 1 (s.half50 n)
    let k := x.toNat / (2 * h)
    let nc := ceilDiv (suField u 2 0 5) (laneBits (suLanes u 0))
    let na := ceilDiv (suField u 2 5 6) (laneBits (suLanes u 1))
    let addr := (u.getD 3 0).toNat + 2 ^ 16 * (u.getD 4 0).toNat
    if k < nc then headLane (suLanes u 0) (u.getD 1 0).toNat (suField u 2 0 5) k i
    else if k < nc + na then headLane (suLanes u 1) addr (suField u 2 5 6) (k - nc) i
    else if k < suHeadCycles u then none
    else s.dataLane n u (k - suHeadCycles u) (x.toNat / h % 2) i

/-- The unit whose cycles port n's pins show at time `t` of the timeline. -/
def Port.unitAt (x : Port) (t : Int) : Option PortUnit :=
  match x.unit, x.last with
  | some u, _ => if (u.t0 : Int) ≤ t then some u else x.last.bind fun e => if t < e.2 then some e.1 else none
  | none, some e => if t < e.2 then some e.1 else none
  | none, none => none

/-- What port n drives on pin j (0 SCK, 1 to 4 the selects, 5 to 12 the lanes) at time `t` of the timeline; none:
high-impedance. As master it drives SCK at CPOL and its selects high between units, and no lane (R271, Table 1-5); a
slave's lanes follow SCK edges from outside, which the model learns at the unit's end. -/
def State.portPin (s : State) (n j : Nat) (t : Int) : Option Bool :=
  let cpol := fieldOf (portReg s n 4) 13 1 = 1
  if s.portSlave n then none
  else match ((s.port n).unitAt t).filter (!·.slave) with
  | none => if j = 0 then some cpol else if j ≤ 4 then some true else none
  | some u =>
    let x : Int := 50 * (t - u.t0) - ((s.half50 n * max 1 (fieldOf (portReg s n 8) 0 4) : Nat) : Int)
    let waits := fieldOf (portReg s n 0xC) 8 8 ≠ 0 && suDir u.setup
    if j = 0 then
      some (sckLevel u.cpol (fieldOf (portReg s n 4) 14 1 = 1) (s.half50 n)
        (if waits then none else some (suCycles u.setup)) x)
    else if j ≤ 4 then some (!(suField u.setup 0 7 4).testBit (j - 1))
    else s.laneDrive n u.setup x (j - 5)

/-! ### Channels of a protocol engine (R270) -/

/-- Pin-map entry j of PEq names local channel i. -/
def State.pePinIs (s : State) (q j i : Nat) : Bool := s.bit (F.PE_PIN_EN q j) && s.fld (F.PE_PIN_CH q j) = i

/-- The channel belongs to its quarter's protocol engine: while it is enabled, and until a unit in flight has ended
(R270, R284). -/
def State.peOwns (s : State) (c : Nat) : Bool :=
  (s.bit (F.PE_CTRL_EN (c / 64)) || (s.port (c / 64)).unit.isSome) &&
    (List.range 13).any fun j => s.pePinIs (c / 64) j (c % 64)

/-- What the engine drives on its channel at time `t` of the timeline. -/
def State.peDrive (s : State) (c : Nat) (t : Int) : Option Bool :=
  ((List.range 13).find? fun j => s.pePinIs (c / 64) j (c % 64)).bind fun j => s.portPin (c / 64) j t

end Sys2Proof.Machine
end

