-- ==== Sys2Proof/Machine/Channel.lean ====
section
/-! DEFINITION. Pin channels: symbols, drive edges, strobes and lanes, the oscillator, clipping, park states,
level DACs, stage changes, over-voltage and the level queue (05_timing_waveforms.md, 06_pin_channel.md). -/

namespace Sys2Proof.Machine

/-! ### Observations

What reaches a comparator is a fact of the surroundings. A compare's observation holds, for each instant at which it
samples (a strobe or a UI; S0 and S1; every state of 150 ps or more for a window, R119, R121), the voltages that the
node took since the channel's last sample, in time order, the one at the instant last; none: the voltage stayed. Voltages
are in level codes: 250 µV about 0x8000. -/

abbrev Obs := List (List Int)

/-- Does a comparator state (above-high, below-low) agree with an expecting symbol? 2 'L', 3 'H', 5 'Z', 6 'V'
(Table 5-4). -/
def agrees (sym : Nat) (o : Bool × Bool) : Bool :=
  match sym with
  | 2 => o.2
  | 3 => o.1
  | 5 => !o.1 && !o.2
  | 6 => o.1 || o.2
  | _ => true

def expects (sym : Nat) : Bool := [2, 3, 5, 6].contains sym

/-- A compare's outcome from the states it saw: failed, and the ABOVE state recorded for it (R119, R210). -/
def outcome (sym : Nat) (o : List (Bool × Bool)) : Bool × Bool :=
  (!o.all (agrees sym), (o.head?.map (·.1)).getD false)

/-! ### Level codes and their limits (R133, R158, Table 6-1) -/

/-- Millivolts as a level code: 0x8000 is 0 V, 4 LSB a millivolt. -/
def mvCode (mv : Int) : Int := 32768 + 4 * mv

def mvRange (lo hi : Int) : Int × Int := (mvCode lo, mvCode hi)

/-- FORCE 0 off, 1 FV, 2 FI; 3 acts as 0 (Table 7-4). -/
def forceOf (v : Word) : Nat := if fieldOf v 0 2 = 3 then 0 else fieldOf v 0 2

/-- The usable range of DAC d as things stand, in codes (Table 6-1); a PPMU current saturates at full scale (R158). -/
def State.dacLimits (s : State) (c d : Nat) : Int × Int :=
  let fi := forceOf (s.reg (R.CH_PMU_CTRL c)) = 2
  match d with
  | 0 | 1 => if s.bit (F.CH_STAT_STAGE_ACT c) then mvRange (-1500) 5500 else mvRange (-500) 2000
  | 2 => if s.fld (F.CH_DRV_CTRL_TERM c) = 2 then mvRange (-1500) 5500 else mvRange (-500) 2000
  | 3 | 4 => mvRange (-1500) 5500
  | 5 | 6 => mvRange (-2000) 6000
  | 7 | 8 => mvRange (-2500) 7000
  | 9 => if fi then (0x4000, 0xC000) else mvRange (-1500) 5500
  | _ => if fi then mvRange (-2000) 6000 else (0x4000, 0xC000)

/-- What DAC d delivers: its output code, or the nearest limit of its range (R133). -/
def State.delivered (s : State) (c d : Nat) : Int :=
  clampInt (s.dacLimits c d).1 (s.dacLimits c d).2 (s.fld (F.CH_LVL_OUT_OUT c d))

/-- The code lies outside the DAC's range. -/
def State.outOfRange (s : State) (c d : Nat) : Bool := s.delivered c d ≠ (s.fld (F.CH_LVL_OUT_OUT c d) : Int)

/-! ### The window comparator (R143) -/

/-- The effective thresholds, with CMP_CORR, and half the hysteresis band, in LSB. -/
structure Thresholds where
  voh : Int
  vol : Int
  half : Int
  deriving DecidableEq, Repr

def State.thresholds (s : State) (c : Nat) : Thresholds :=
  let corr := signed 16 (s.reg (R.CH_CMP_CORR c)).toNat
  { voh := s.delivered c 3 + corr, vol := s.delivered c 4 + corr,
    half := match s.fld (F.CH_CMP_CTRL_HYST c) with
      | 0 => 0
      | 1 => 20
      | 2 => 50
      | _ => 100 }

/-- The comparator follows the node through voltages in time order: each threshold switches half the band beyond
itself. -/
def Chan.sense (h : Thresholds) (x : Chan) (vs : List Int) : Chan :=
  vs.foldl (fun x v => { x with
    node := v
    cmpAbove := if x.cmpAbove then h.voh - h.half < v else h.voh + h.half < v
    cmpBelow := if x.cmpBelow then v < h.vol + h.half else v < h.vol - h.half }) x

/-- The states the comparator shows at each sampled instant. -/
def Chan.senseAll (h : Thresholds) (x : Chan) : Obs → Chan × List (Bool × Bool)
  | [] => (x, [])
  | vs :: r =>
    let y := x.sense h vs
    let z := y.senseAll h r
    (z.1, (y.cmpAbove, y.cmpBelow) :: z.2)

/-! ### T_PIN (R111) -/

/-- What the timeline does at a device time shows at the pin so many PCLK later. -/
def tPin : Nat := 48

/-- The driver takes a state at step `t` of the timeline: on or off, and the data level. -/
def Chan.turn (x : Chan) (t : Int) (on level : Bool) : Chan :=
  if x.on = on && x.level = level then x
  else { x with on := on, level := level,
                turns := (x.turns.filter fun e => t < e.1 + 64 * 512) ++ [(t, x.on, x.level)] }

/-- The driver switches off at the pin at once: edges on their way act no more, and no state is kept. -/
def Chan.cut (x : Chan) : Chan := { x with on := false, turns := [], kept := none }

/-- The driver's state (on, level) at step `t` of the timeline. -/
def Chan.stateAt (x : Chan) (t : Int) : Bool × Bool :=
  match x.turns.find? fun e => t < e.1 with
  | some e => e.2
  | none => (x.on, x.level)

/-- The driver's state at the pin at step `t` of device time. -/
def Chan.pinAt (x : Chan) (t : Int) : Bool × Bool := x.stateAt (t - ((tPin * 512 : Nat) : Int))

/-- A device time in vernier steps. -/
def steps (t : Nat) : Int := ((t * 512 : Nat) : Int)

/-- A stage change that began at the welt `w` runs at the pin, deskew included (Table 6-3). -/
def Chan.stageOpen (x : Chan) (now : Nat) : Bool :=
  match x.stageSw with
  | some w => steps (w + tPin) + x.stageDly ≤ steps now
  | none => false

/-! ### Symbols and events -/

/-- The symbol of a code (R119): codes 8 to 15 act as 'K'. -/
def symbolOf (e : PinEntry) (code : Nat) : Nat :=
  match peW e with
  | 0 => if peW1 e then code + 2 else code
  | 1 => code
  | _ => if 8 ≤ code then 7 else code

def edgeOr0 (d : Dword) : Nat := if edgeEn d then edgePos d else 0

/-- The drive edges of a cycle that carries a symbol: position, driver on, level (Table 5-3, R118). -/
def symbolEdges (e : PinEntry) (sym : Nat) : List (Nat × Bool × Bool) :=
  if sym ≤ 1 then
    let d := sym = 1
    match peFmt e with
    | 0 => [(edgeOr0 e.d0, true, d)]
    | 1 => [(edgeOr0 e.d0, true, d), (edgePos e.d1, true, false)]
    | 2 => [(edgeOr0 e.d0, true, d), (edgePos e.d1, true, true)]
    | _ => [(edgeOr0 e.d0, true, !d), (edgePos e.d1, true, d), (edgePos e.d2, true, !d)]
  else if sym = 7 then []
  else [(edgeOr0 e.d3, false, false)]

/-- What one channel did in a granule. -/
structure Played where
  chan : Chan
  /-- Compares in time order: (failed, ABOVE). -/
  cmps : List (Bool × Bool) := []
  clips : Nat := 0
  ncoClip : Bool := false
  /-- Cycles that carried a reserved code. -/
  symErrs : Nat := 0
  supp : Bool := false
  deriving DecidableEq, Repr

/-- One drive edge at programmed time `t` (vernier steps, delay included): a transition closer than the minimum
separation to the last one is issued at that distance (R120); during a stage change it is suppressed (R139). -/
def driveAt (sep : Nat) (suppress : Bool) (p : Played) (t : Int) (on level : Bool) : Played :=
  if suppress then { p with chan := { p.chan with supp := some (on, level) }, supp := true }
  else if p.chan.on = on && (!on || p.chan.level = level) then p
  else
    let t' := if t < p.chan.lastDrive + sep then p.chan.lastDrive + sep else t
    { p with chan := { p.chan.turn t' on (if on then level else p.chan.level) with lastDrive := t' },
             clips := p.clips + (if t' ≠ t then 1 else 0) }

/-- One strobe instant: separation only (R120). -/
def strobeAt (p : Played) (t : Int) : Played :=
  let t' := if t < p.chan.lastStrobe + 32 then p.chan.lastStrobe + 32 else t
  { p with chan := { p.chan with lastStrobe := t' }, clips := p.clips + (if t' ≠ t then 1 else 0) }

/-- What the compares of a channel in a granule go by: the comparator's thresholds, the levels that the internal
loopback shows it (VIH, VIL, VIT, R147), whether DISC makes them fail (R146), and whether a stage change keeps them from
being made (R139). -/
structure CmpEnv where
  h : Thresholds
  loop : Option (Int × Int × Int)
  disc : Bool
  suppress : Bool

/-- The loopback's voltage at step `t`. -/
def Chan.loopAt (x : Chan) (l : Int × Int × Int) (t : Int) : Int :=
  let d := x.stateAt t
  if d.1 then (if d.2 then l.1 else l.2.1) else l.2.2

/-- A compare sampled at the steps `ts` of the timeline, over the whole stretch between them for a window; its
observation is the next of the list. -/
def compareAt (v : CmpEnv) (window : Bool) (sym : Nat) (ts : List Int) (acc : Played × List Obs) : Played × List Obs :=
  if v.suppress then ({ acc.1 with supp := true }, acc.2)
  else
    let x := acc.1.chan
    let seen := acc.2.headD []
    let o : Obs := match v.loop with
      | some l =>
        let inner := x.turns.filter fun e => ts.head?.any (· < e.1) && ts.getLast?.any (e.1 ≤ ·)
        (if window then ts.take 1 ++ inner.map (·.1) else ts).map fun t => [x.loopAt l t]
      | none => if window then (if seen = [] then [[]] else seen) else ts.zipIdx.map fun e => seen.getD e.2 []
    let y := x.senseAll v.h o
    let r := outcome sym y.2
    ({ acc.1 with chan := y.1, cmps := acc.1.cmps ++ [(r.1 || v.disc, r.2)] }, acc.2.tail)

/-- The edge-mode cycles that touch the granule: (start relative to the granule, steps; code, if it begins here). -/
def cyclesOf (e : PinEntry) (j : Nat) (field : Nat) : List (Int × Option Nat) :=
  let w := symBits e
  if pePer e ≤ 64 then
    (List.range (64 / pePer e)).map fun i => (((i * pePer e * 64 : Nat) : Int), some (bitsAt field (i * w) w))
  else
    let o := j * 64 % pePer e
    [(-((o * 64 : Nat) : Int), if o = 0 then some (bitsAt field 0 w) else none)]

/-- The strobes of a cycle that begins `c` steps after its granule's start and is cut `lim` steps after it (R123). -/
def strobesUntil (e : PinEntry) (c lim : Int) : List Nat := (strobeEdges e).filter fun (p : Nat) => c + p < lim

/-- An edge-mode cycle. `base` is the granule's start in steps of device time; `lim` the steps from the granule's start
to the end of the body's pattern. The last strobe that the cycle still makes places its compare in a granule. -/
def playCycle (e : PinEntry) (base lim : Int) (dD dC : Int) (v : CmpEnv) (mute : Bool)
    (acc : Played × List Obs) (cyc : Int × Option Nat) : Played × List Obs :=
  let p := acc.1
  let code := cyc.2.map (symbolOf e)
  let sym := code.getD p.chan.sym
  let p := { p with chan := { p.chan with sym := sym },
                    symErrs := p.symErrs + (if peW e = 2 && (cyc.2.getD 0) ≥ 8 then 1 else 0) }
  let inside (pos : Nat) : Bool := 0 ≤ cyc.1 + pos && cyc.1 + pos < 4096
  let p := (symbolEdges e sym).foldl (fun p x =>
    if inside x.1 && !mute then driveAt (minSep e) v.suppress p (base + cyc.1 + x.1 + dD) x.2.1 x.2.2 else p) p
  if expects sym then
    let ss := strobesUntil e cyc.1 lim
    let p := ss.foldl (fun p pos =>
      if inside pos && !v.suppress then strobeAt p (base + cyc.1 + pos + dC) else p) p
    match ss.getLast? with
    | some pos =>
      if inside pos then compareAt v (peWindow e) sym (ss.map fun (x : Nat) => base + cyc.1 + x + dC) (p, acc.2)
      else (p, acc.2)
    | none => (p, acc.2)
  else (p, acc.2)

/-- A lane-mode granule (R121); `first`: the body's first, from which LD drives and LC and LCM do not. -/
def playLane (e : PinEntry) (base : Int) (dD dC : Int) (v : CmpEnv) (mute first : Bool) (field : Nat)
    (acc : Played × List Obs) : Played × List Obs :=
  let n := 128 / 2 ^ peLrate e
  let ui := uiSteps e
  let acc :=
    if !first || mute then acc
    else if peLdir e ≠ 0 then (driveAt 32 v.suppress acc.1 (base + dD) false false, acc.2)
    else if v.suppress then ({ acc.1 with chan := { acc.1.chan with supp := some (true, acc.1.chan.level) } }, acc.2)
    else ({ acc.1 with chan := acc.1.chan.turn (max (base + dD) acc.1.chan.lastDrive) true acc.1.chan.level }, acc.2)
  (List.range n).foldl (fun acc k =>
    match peLdir e with
    | 0 => if mute then acc else
        (driveAt 32 v.suppress acc.1 (base + ((k * ui + edgeOr0 e.d0 : Nat) : Int) + dD) true (field.testBit k), acc.2)
    | d =>
      let bit := if d = 2 then field.testBit (2 * k) else field.testBit k
      if d = 2 && !field.testBit (2 * k + 1) then acc
      else
        let t := base + ((k * ui + edgePos e.s0 : Nat) : Int) + dC
        let p := if v.suppress then acc.1 else strobeAt acc.1 t
        compareAt v false (if bit then 3 else 2) [t] (p, acc.2)) acc

/-! ### The per-pin oscillator (R125, R126) -/

/-- The phase at `x` vernier steps after the quarter's time zero, scaled by 64 against the 48-bit phase. -/
def ncoPhase (ftw ph x : Nat) : Nat := (ftw * x + ph * 2 ^ 38) % 2 ^ 54

def ncoHigh (c : Chan) (x : Nat) : Bool := ncoPhase c.ftw c.ph x / 2 ^ 38 < c.duty

/-- The transitions whose vernier step falls in the granule that begins `x0` steps after time zero, in time order: the
step and the new level. The crossings are exact, at phases m (up) and m + duty (down); each is placed at the nearest
step, ties later (R113). -/
def ncoEdges (c : Chan) (x0 : Nat) : List (Nat × Bool) :=
  if c.ftw = 0 || c.duty = 0 then []
  else
    let p : Int := ((c.ph * 2 ^ 38 : Nat) : Int)
    let m0 := (c.ftw * (x0 - 1) + c.ph * 2 ^ 38) / 2 ^ 54
    let at_ (a : Nat) : Int := (2 * ((a : Nat) : Int) - 2 * p + c.ftw) / (2 * c.ftw : Nat)
    let all := (List.range (c.ftw * 4098 / 2 ^ 54 + 3)).flatMap fun k =>
      let a := (m0 + k) * 2 ^ 54
      [(at_ a, true), (at_ (a + c.duty * 2 ^ 38), false)]
    (all.filter fun e => (x0 : Int) ≤ e.1 && e.1 < (x0 : Int) + 4096).map fun e => (e.1.toNat, e.2)

/-- The granule of a clock pin: the driver is on. A transition closer than the separation to the previous one, as a
change of settings or a short pulse can make it, is delayed and sets NCO_CLIP (R126). -/
def playNco (e : PinEntry) (base : Int) (x0 : Nat) (dD : Int) (suppress mute : Bool) (p : Played) : Played :=
  if mute then p
  else
    let es := ncoEdges p.chan x0
    let before := match es with
      | x :: _ => !x.2
      | [] => ncoHigh p.chan x0
    let steady := p.chan.on && p.chan.level = before && !suppress
    -- a granule that does not find the pin in the oscillator's state takes it up at once
    let q := if steady then p else driveAt (minSep e) suppress p (base + dD) true (match es with
      | x :: _ => if x.1 = x0 then x.2 else !x.2
      | [] => before)
    let es := if steady then es else es.filter fun x => x.1 ≠ x0
    let r := es.foldl (fun r x =>
      driveAt (minSep e) suppress r (base + ((x.1 - x0 : Nat) : Int) + dD) true x.2) q
    { r with ncoClip := r.clips ≠ p.clips }

/-! ### One channel, one granule -/

/-- The channel's PPMU forces the node: driver, termination and drive edges are held off (R157). -/
def State.forcing (s : State) (c : Nat) : Bool := forceOf (s.reg (R.CH_PMU_CTRL c)) ≠ 0


/-- Delay of drive edges and of strobes in force: deskew and correction, saturated (R124). -/
def State.delays (s : State) (c : Nat) : Int × Int :=
  let x := s.chan c
  let q := c / 64
  let i := c % 64
  let corr (v : Word) : Int := signed 16 v.toNat
  (clampInt (-4096) 4095 (x.dskD + corr (s.reg (R.QTS_CORR_D q i))),
   clampInt (-4096) 4095 (x.dskC + corr (s.reg (R.QTS_CORR_C q i))))

/-- After a stage change the driver takes the state of the latest suppressed edge, or stays off. -/
def Chan.stageTake (x : Chan) (gt : Nat) : Chan :=
  match x.supp with
  | some e => { x.turn (steps gt) e.1 e.2 with supp := none }
  | none => x

/-- Drive edges do not act: the channel is disconnected, its PPMU forces, or its levels are still on their way back
(R146, R157, R152). -/
def State.muted (s : State) (c : Nat) : Bool := s.bit (F.CH_STAT_DISC c) || s.forcing c || (s.chan c).slewBack

/-- The levels that the internal loopback shows the comparator while LOOP = 1 (R147). -/
def State.loopLevels (s : State) (c : Nat) : Option (Int × Int × Int) :=
  if s.bit (F.CH_DRV_CTRL_LOOP c) then some (s.delivered c 0, s.delivered c 1, s.delivered c 2) else none

/-- 200 ns of the timeline lie in a stage change; then the latest suppressed edge's state holds (Table 6-3). -/
def Chan.suppresses (x : Chan) (gt : Nat) : Bool :=
  match x.stageSw with
  | some w => gt < w + 128
  | none => false

/-- Play granule `j` of body `b` on one channel of its group; `gt` is the granule's device time. -/
def playChannel (s : State) (q : Nat) (b : Body) (e : PinEntry) (j gt field : Nat) (obs : List Obs) : Played :=
  let c := q * 64 + e.ch
  let x := s.chan c
  let d := s.delays c
  let v : CmpEnv := { h := s.thresholds c, loop := s.loopLevels c, disc := s.bit (F.CH_STAT_DISC c),
                      suppress := x.suppresses gt }
  let x := if !v.suppress && x.supp.isSome then x.stageTake gt else x
  let base := steps gt
  let lim : Int := ((min b.len b.segLen - j : Nat) : Int) * 4096
  let p0 : Played := { chan := x }
  match peMode e with
  | 1 => ((cyclesOf e j field).foldl (fun acc cy => playCycle e base lim d.1 d.2 v (s.muted c) acc cy) (p0, obs)).1
  | 2 => (playLane e base d.1 d.2 v (s.muted c) (j = 0) field (p0, obs)).1
  | 3 => playNco e base ((gt - (s.q q).timeZero) * 512) d.1 v.suppress (s.muted c) p0
  | _ => p0

/-! ### Delayed events (R120, R126) -/

/-- The flags, the count, the reports and the disturbed tag of the events that came too close on local channel `i`;
`smask`: the body's site mask. -/
def clipEvents (q i smask : Nat) (p : Played) (s : State) : State :=
  if p.clips = 0 then s
  else
    let s := (s.raise (F.QTS_STAT_EDGE_CLIP q)).addSat (F.QTS_CLIP_CNT_CLIP_CNT q) p.clips
    let s := if p.ncoClip then s.raise (F.QTS_STAT_NCO_CLIP q) else s
    let s := forAll (List.range p.clips) (fun _ s => s.report (0x104 + 16 * q) 0) s
    match (s.chan (q * 64 + i)).site with
    | some k => s.setBitOf (F.QRES_SITES_SITE_TDIST q) k
    | none => tagDisturbed q smask s

/-- The site mask of the body that executes, or of the word that stalls. -/
def State.smaskNow (s : State) (q : Nat) : Nat :=
  match (s.q q).body, (s.q q).stall with
  | some b, _ => mwSmask b.word
  | none, some x => mwSmask x.word
  | none, none => 0

/-- The channel plays nothing of a body: the calibration engine or a protocol engine has it, it is forced, or its site
is off (R76, R270, R294). -/
def State.idlePin (s : State) (c : Nat) : Bool :=
  (s.chan c).calHeld || s.peOwns c || (s.chan c).forced || (match (s.chan c).site with
    | some i => !(s.fld (F.QSEQ_SITE_CFG_SITE_EN (c / 64))).testBit i
    | none => false)

/-! ### Park states (R148) -/

/-- The channel takes DRV_CTRL.PARK's state on the active stage (Table 6-5), its separation kept (R120). -/
def parkPin (c : Nat) (s : State) : State :=
  let x := s.chan c
  if s.peOwns c || x.calHeld || s.forcing c || x.forced || x.slewBack then s
  else
    let p := s.fld (F.CH_DRV_CTRL_PARK c)
    let sep := if s.bit (F.CH_STAT_STAGE_ACT c) then 820 else 32
    let r := driveAt sep false { chan := x } (steps s.now + (s.delays c).1) (2 ≤ p) (p = 3)
    clipEvents (c / 64) (c % 64) (s.smaskNow (c / 64)) r (s.setChan c { r.chan with sym := 4, parked := true })

/-- Every channel of the quarter parks for good. -/
def parkPins (q : Nat) (s : State) : State :=
  forAll (List.range 64) (fun i s =>
    let x := s.chan (q * 64 + i)
    parkPin (q * 64 + i) (if x.kept.isSome then s.setChan (q * 64 + i) { x with kept := none } else s)) s

/-- Every channel but the clock pins `keep` parks for a stall or a hold; what it did before is kept (R59, R70). -/
def stallPins (q : Nat) (keep : List PinEntry) (s : State) : State :=
  forAll ((List.range 64).filter fun i => !keep.any (·.ch = i)) (fun i s =>
    let x := s.chan (q * 64 + i)
    parkPin (q * 64 + i) (s.setChan (q * 64 + i) { x with kept := some (x.kept.getD (x.on, x.level, x.sym)) })) s

/-- The timeline goes on at `t`: a channel that a stall or a hold parked has the state again that it had before, until
the pattern's first edge (R59, R123). -/
def unparkPins (q t : Nat) (s : State) : State :=
  forAll (List.range 64) (fun i s =>
    let c := q * 64 + i
    let x := s.chan c
    if s.idlePin c || x.slewBack then s
    else match x.kept with
      | some k =>
        let y := if s.muted c then x else x.turn (max (steps t + (s.delays c).1) x.lastDrive) k.1 k.2.1
        s.setChan c { y with kept := none, sym := k.2.2, parked := false }
      | none => if x.parked then s.setChan c { x with parked := false } else s) s

/-- The clock-class pins of a body: those its snapshot drives from the oscillator (R70). -/
def clockPins (b : Body) : List PinEntry := b.snap.filter fun e => peMode e = 3

/-- Clock pins run on through a granule at `t` in which the timeline stands still (R70, R125). -/
def playClocks (q t smask : Nat) (es : List PinEntry) (s : State) : State :=
  es.foldl (fun s e =>
    let c := q * 64 + e.ch
    if s.idlePin c || t < (s.q q).timeZero then s
    else
      let x := s.chan c
      let sup := x.suppresses t
      let x := if !sup && x.supp.isSome then x.stageTake t else x
      let r := playNco e (steps t) ((t - (s.q q).timeZero) * 512) (s.delays c).1 sup (s.muted c) { chan := x }
      clipEvents q e.ch smask r (s.setChan c r.chan)) s

/-- What drives the channel at the pin now (on, level): its protocol engine, or the timing logic (R271). -/
def State.pinDrive (s : State) (c : Nat) : Bool × Bool :=
  if s.peOwns c then
    match s.peDrive c ((steps s.now - steps tPin - (s.delays c).1) / 512) with
    | some b => (true, b)
    | none => (false, false)
  else (s.chan c).pinAt (steps s.now)

/-- A condition of Table 6-6 or a PPMU force holds the driver and the termination off. -/
def State.heldOff (s : State) (c : Nat) : Bool :=
  s.bit (F.CH_STAT_DISC c) || s.forcing c || (s.chan c).forced || s.bit F.PWR_PAD_HOLD_HOLD || !s.quarterOn (c / 64) ||
    (s.chan c).stageOpen s.now

/-- The driver is really on at the ball side. -/
def State.driverOn (s : State) (c : Nat) : Bool := (s.pinDrive c).1 && !s.heldOff c && !(s.chan c).slewBack

/-! ### Stage changes (R139) -/

/-- At a welt `w`, the channels of the group with MODE EDGE, LANE or NCO whose stage is another, or is changing to
another, begin a stage change. -/
def startStages (q w : Nat) (snap : List PinEntry) (s : State) : State :=
  snap.foldl (fun s e =>
    let c := q * 64 + e.ch
    let x := s.chan c
    let now := if x.stageSw.isSome then x.stageTo else s.bit (F.CH_STAT_STAGE_ACT c)
    if peMode e ≠ 0 && peStage e ≠ now && !s.idlePin c then
      s.setChan c { x.turn (steps w) false x.level with
        stageSw := some w, stageDly := (s.delays c).1, stageTo := peStage e, supp := none, suppSeen := false }
    else s) s

/-! ### Levels (R133 to R137, R140, R152) -/

/-- A safe or fault condition forces VIH, VIL, VIT and PMUF to 0x8000; in the safe state VCH and VCL take the safe
codes (R152, Table 6-6). A parked quarter's PMUF is forced as in a fault state (R166). -/
def State.dacGoal (s : State) (c d : Nat) : Nat :=
  let x := s.chan c
  if (x.forced && [0, 1, 2, 9].contains d) || (d = 9 && s.qstate (c / 64) = 9) then 0x8000
  else if x.safe && d = 5 then s.fld (F.FLT_SAFE_VCH_VCH (c / 64))
  else if x.safe && d = 6 then s.fld (F.FLT_SAFE_VCL_VCL (c / 64))
  else s.fld (F.CH_LVL_TGT_TGT c d)

/-- One DAC's slew limiter at a DCLK edge (R136). -/
def slewStep (c d : Nat) (s : State) : State :=
  let x := s.chan c
  let goal := s.dacGoal c d
  let out := s.fld (F.CH_LVL_OUT_OUT c d)
  let cnt := tabGet (fun _ => 0) x.slew d
  if x.safe && (d = 5 || d = 6) then s.setFld (F.CH_LVL_OUT_OUT c d) goal
  else if 0 < cnt then s.setChan c { x with slew := tabSet (fun _ => 0) x.slew d (cnt - 1) }
  else if out = goal then s
  else
    let st := s.fld (F.CH_LVL_STEP_STEP c d)
    let st := if st = 0 then 4096 else st
    let new := if out < goal then out + min st (goal - out) else out - min st (out - goal)
    (s.setFld (F.CH_LVL_OUT_OUT c d) new).setChan c
      { x with slew := tabSet (fun _ => 0) x.slew d (s.fld (F.CH_LVL_RATE_RATE c d)) }

/-- Is a code inside a range given in millivolts? -/
def inRange (code : Nat) (lo hi : Int) : Bool := mvCode lo ≤ (code : Int) && (code : Int) ≤ mvCode hi

/-- The termination connects VIT: TERM selects it, the driver is off, nothing of Tables 6-3 and 6-6 or a PPMU force
holds it off, and a parked channel parks with TERM (R141, Table 6-5). -/
def State.termOn (s : State) (c : Nat) : Bool :=
  let term := s.fld (F.CH_DRV_CTRL_TERM c)
  (term = 1 || term = 2) && !(s.pinDrive c).1 && !s.heldOff c &&
    (s.peOwns c || !(s.chan c).parked || s.fld (F.CH_DRV_CTRL_PARK c) = 1)

/-- The range check of R140: does a level in use lie outside its range? `stage`: at the end of a stage change, which
looks at VIH and VIL whether or not the driver is on. -/
def State.rangeBad (s : State) (c : Nat) (stage : Bool) : Bool :=
  ((s.driverOn c || stage) && (s.outOfRange c 0 || s.outOfRange c 1)) ||
    ((s.termOn c || s.bit (F.CH_DRV_CTRL_LOOP c)) && s.outOfRange c 2)

/-- A level outside its range, which its DAC delivers at the range's limit, is flagged and reported against the site
(R140). -/
def rangeCheck (c : Nat) (stage : Bool) (s : State) : State :=
  if s.rangeBad c stage then (s.raise (F.CH_STAT_RANGE_CLIP c)).report (0x105 + 16 * (c / 64)) c else s

/-! ### Soft pull, clamps and switches (R132, R142, Table 6-6) -/

/-- The 100 kΩ pull is on: SOFTPULL_EN, or the Shank pad control while the domain is off, the pads are held, or the
channel is forced. -/
def State.softPull (s : State) (c : Nat) : Bool :=
  s.bit (F.CH_DRV_CTRL_SOFTPULL_EN c) || !s.quarterOn (c / 64) || s.bit F.PWR_PAD_HOLD_HOLD || (s.chan c).forced

/-- The reflection clamps are on; the pads held keep what they were then, and a disconnect turns them off (R145). -/
def State.clampsOn (s : State) (c : Nat) : Bool :=
  s.quarterOn (c / 64) && !s.bit (F.CH_STAT_DISC c) &&
    (if (s.chan c).safe then true
     else if s.bit F.PWR_PAD_HOLD_HOLD then s.pwr.clamps.contains c
     else s.bit (F.CH_PROT_CLAMP_EN c))

/-- The pads are held from now on; the clamps stay as they are (Table 6-6). -/
def holdPads (s : State) : State :=
  if s.bit F.PWR_PAD_HOLD_HOLD then s
  else { s.setBit F.PWR_PAD_HOLD_HOLD true with pwr := { s.pwr with clamps := (List.range 1024).filter s.clampsOn } }

/-- The voltage at which the clamps hold a node that is pushed to `v`, within their current limit (R142). -/
def State.clampNode (s : State) (c : Nat) (v : Int) : Int :=
  if s.clampsOn c then
    (if s.delivered c 5 < v then s.delivered c 5 else if v < s.delivered c 6 then s.delivered c 6 else v)
  else v

/-- The disconnect switch is open: an OVD trip or the safe state. -/
def State.disconnected (s : State) (c : Nat) : Bool := s.bit (F.CH_STAT_DISC c) || (s.chan c).safe

/-- The calibration isolation switch is open: CAL_ISO, which a calibration slot sets too. -/
def State.isolated (s : State) (c : Nat) : Bool := s.bit (F.CH_DRV_CTRL_CAL_ISO c)

/-! ### The level queue (R149 to R151) -/

/-- The DAC that LQ_CFG.DAC selects. -/
def State.lqDac (s : State) (c : Nat) : Nat :=
  match s.fld (F.CH_LQ_CFG_DAC c) with
  | 0 => 0
  | 1 => 1
  | 2 => 2
  | _ => 9

def showLq (c : Nat) (s : State) : State :=
  let x := s.chan c
  s.setFld (F.CH_LQ_STAT_FILL c) (if s.bit (F.CH_LQ_CFG_LOOP c) then x.lq.length else x.lq.length - x.lqPos)

/-- A push: appended, or discarded with LQ_OVF when 32 entries are unread or a looping queue runs (R149). -/
def lqPush (c : Nat) (code : Word) (s : State) : State :=
  let x := s.chan c
  if (s.bit (F.CH_LQ_CFG_EN c) && s.bit (F.CH_LQ_CFG_LOOP c)) || 32 ≤ x.lq.length - x.lqPos then
    s.raise (F.CH_LQ_STAT_LQ_OVF c)
  else showLq c (s.setChan c { x with lq := x.lq.drop x.lqPos ++ [code], lqPos := 0 })

/-- LQ_CLR: accepted only while EN = 0 (R149). -/
def lqClear (c : Nat) (s : State) : State :=
  if s.bit (F.CH_LQ_CFG_EN c) then s else showLq c (s.setChan c { s.chan c with lq := [], lqPos := 0 })

/-- Stop the queue: the unread entries go; a cause of R152 also sets LQ_ABORT (R151). -/
def lqStop (c : Nat) (abort : Bool) (s : State) : State :=
  if s.bit (F.CH_LQ_CFG_EN c) then
    let t := showLq c ((s.setBit (F.CH_LQ_CFG_EN c) false).setChan c { s.chan c with lq := [], lqPos := 0 })
    if abort then t.raise (F.CH_LQ_STAT_LQ_ABORT c) else t
  else s

/-- LOOP has fallen: entries already read are no longer held (R149). -/
def lqUnloop (c : Nat) (s : State) : State :=
  let x := s.chan c
  if s.bit (F.CH_LQ_CFG_LOOP c) || x.lqPos = 0 then s else s.setChan c { x with lq := x.lq.drop x.lqPos, lqPos := 0 }

/-- One sample at its DCLK edge (R150): with LOOP = 0 the entry leaves the queue (R149). -/
def lqSample (c : Nat) (s : State) : State :=
  let x := s.chan c
  let next := x.lqNext + 64 * (s.fld (F.CH_LQ_DIV_DIV c) + 1)
  let loop := s.bit (F.CH_LQ_CFG_LOOP c)
  let pos := if loop && x.lq.length ≤ x.lqPos then 0 else x.lqPos
  match x.lq.drop pos with
  | [] =>
    if loop then s.setChan c { x with lqNext := next }
    else ((showLq c (s.setChan c { x with lq := [], lqPos := 0 })).setBit (F.CH_LQ_CFG_EN c) false).raise
      (F.CH_LQ_STAT_LQ_DONE c)
  | code :: rest =>
    let s := s.setReg (R.CH_LVL_TGT c (s.lqDac c)) code
    showLq c (if loop then s.setChan c { x with lqPos := pos + 1, lqNext := next }
      else s.setChan c { x with lq := rest, lqPos := 0, lqNext := next })

/-! ### Over-voltage and disconnection (R145, R146) -/

/-- The owning site's or quarter's fault target is open. -/
def State.ownerFaulted (s : State) (c : Nat) : Bool :=
  match (s.chan c).site with
  | some i => s.siteFault (c / 64 * 8 + i) || s.quarterFault (c / 64)
  | none => s.quarterFault (c / 64)

/-- The trip: driver, termination, clamps and PPMU off, the switch open, the event reported (R145). -/
def ovdTrip (c : Nat) (high : Bool) (s : State) : State :=
  let s := s.setChan c { (s.chan c).cut with inSince := none, supp := none }
  let s := (s.setBit (F.CH_STAT_DISC c) true).raise (if high then F.CH_STAT_OVD_H c else F.CH_STAT_OVD_L c)
  s.report (0x105 + 16 * (c / 64)) c

/-- The ball has stayed inside the window for 10 µs, and no fault state holds (R146). -/
def State.discMayEnd (s : State) (c : Nat) : Bool :=
  (match (s.chan c).inSince with
    | some t => t + 10 * usPclk ≤ s.now
    | none => false) && !s.ownerFaulted c

/-- The channel reconnects in its park state. -/
def reconnect (c : Nat) (s : State) : State :=
  parkPin c (s.setBit (F.CH_STAT_DISC c) false)

/-- PROT.RECONNECT (R146): only while the quarter is stopped, and only if the two conditions hold now; then it ends a
disconnect, if there is one. -/
def protReconnect (c : Nat) (s : State) : State :=
  if s.stopped (c / 64) && s.discMayEnd c then (if s.bit (F.CH_STAT_DISC c) then reconnect c s else s)
  else (s.raise (F.CH_STAT_CFG_REJ c)).report (0x106 + 16 * (c / 64)) c

/-! ### Forcing (R152) -/

/-- A fault state of the site or quarter, or the safe state, forces the channel: driver off, levels forced, the
level queue stopped. -/
def forceChan (c : Nat) (s : State) : State :=
  let s := lqStop c true s
  (s.setChan c { (s.chan c).cut with forced := true, slewBack := false, parked := true }).setBit
    (F.CH_STAT_FORCED c) true

/-- The forcing ends: OUT moves back to TGT with the driver still off (R152). -/
def releaseChan (c : Nat) (s : State) : State :=
  (s.setChan c { s.chan c with forced := false, slewBack := true }).setBit (F.CH_STAT_FORCED c) false

/-- The levels that were forced are back at their targets: the channel follows its body again, or parks. -/
def slewBackEnd (c : Nat) (s : State) : State :=
  if (s.chan c).slewBack && [0, 1, 2, 9].all (fun d => s.fld (F.CH_LVL_OUT_OUT c d) = s.dacGoal c d) then
    let run := s.qstate (c / 64) = 1
    let s := s.setChan c { s.chan c with slewBack := false, parked := (s.chan c).parked && !run }
    if run then s else parkPin c s
  else s

/-- Channels of local site i of quarter q. -/
def State.siteChans (s : State) (q i : Nat) : List Nat :=
  ((List.range 64).map (q * 64 + ·)).filter fun c => (s.chan c).site = some i

end Sys2Proof.Machine
end

