-- ==== Sys2Proof/Machine/Lace.lean ====
section
/-! DEFINITION. The eyelet's request queue: what the sequencer, the forwarders, the host and the master hand over to
be sent as Lace events (11_lace.md, R252). -/

namespace Sys2Proof.Machine

/-- The LACE_ROLE strap (R248). -/
def State.laceMaster (s : State) : Bool := s.straps.getLsbD 11

/-- STAT.STATE: 0 OFF, 1 SEEKING, 2 SURVEY, 3 JOINED, 4 DETACHED (R261). -/
def State.laceState (s : State) : Nat := s.fld F.LACE_STAT_STATE

def State.laceJoined (s : State) : Bool := s.laceState = 3

/-- Effect time of an event taken at send boundary `b` (R252). -/
def laceEffect (b : Nat) : Nat := b + 2560

/-- Requests of one boundary are taken as master events, quarters, forwarders, host (R252). -/
def insertReq (r : LaceReq) : List LaceReq → List LaceReq
  | [] => [r]
  | x :: t => if r.at_ < x.at_ || (r.at_ = x.at_ && r.who < x.who) then r :: x :: t else x :: insertReq r t

/-- A request at send boundary `b`. A part that is not joined sends nothing; it refuses host events and forwards
none (R252, R261). -/
def laceRequest (who type num arg b : Nat) (s : State) : State :=
  if s.laceJoined && !s.lace.detaching then
    { s with lace := { s.lace with
        requests := insertReq { who := who, type := type, num := num, arg := arg, at_ := b } s.lace.requests } }
  else if 17 ≤ who then s.raise F.LACE_STAT_SEND_REFUSED
  else s

end Sys2Proof.Machine
end

