-- ==== Sys2Proof/Machine/Ledger.lean ====
section
/-! DEFINITION. The current ledger: charges, windows, checks at load and at run, the maintenance reserve
(08_schedule_contract.md, R190 to R204). -/

namespace Sys2Proof.Machine

/-! ### Charges (R191 to R193) -/

/-- PROF(p, g) in mA; profile 0 charges nothing (R191). -/
def State.prof (s : State) (p g : Nat) : Nat := if p = 0 then 0 else s.fld (F.LEDG_PROF_I p g)

/-- The charge of a tag on a group, in 1/64 mA per granule (R192). -/
def State.tagCharge (s : State) (tag g : Nat) : Nat := s.prof (bitsAt tag 8 8) g * (tag % 256)

/-- A base profile plus a tag plus the quarter's QADJ (R193). -/
def State.quarterCharge (s : State) (q base tag g : Nat) : Nat :=
  64 * s.prof base g + s.tagCharge tag g + s.tagCharge (s.reg (R.LEDG_QADJ q)).toNat g

/-- The reserve profile index of a maintenance activity (R199): 0 STORE, 1 DLL re-lock, 2 survey. -/
def resOf (a : Nat) : Option Nat := if a < 16 then some 1 else if a = 16 then some 2 else if a = 18 then some 0 else none

/-- The reserve of the activities that run, in mA on group g. -/
def State.resCharge (s : State) (g : Nat) : Nat :=
  (s.cal.running.filterMap resOf).foldl (fun a k => a + s.prof (s.fld (F.LEDG_RESPROF_PROF k)) g) 0

/-- What scope 16 is charged: CHIP_BASE and the reserve profiles of the admitted activities (R193). -/
def State.centralCharge (s : State) (g : Nat) : Nat :=
  64 * (s.fld (F.LEDG_CHIP_BASE_CHIP_BASE g) + s.resCharge g)

/-- Add a charge per group for `n` granules to a window's scope; a closed window takes none. -/
def addCharge (w scope n : Nat) (c : Nat → Nat) (l : Ledger) : Ledger :=
  if w < l.window || n = 0 then l
  else { l with acc := (List.range 8).foldl (fun t g =>
    if c g = 0 then t
    else
      let k := w * 136 + scope * 8 + g
      tabSet (fun _ => 0) t k (tabGet (fun _ => 0) t k + n * c g)) l.acc }

/-- Charge a scope from where it stands up to `t`, at one rate. -/
def chargeTo (scope t : Nat) (c : Nat → Nat) (l : Ledger) : Ledger :=
  let a := tabGet (fun _ => 0) l.upto scope
  if t ≤ a then l
  else
    -- the open window and the one after it are the only ones that can hold charges
    let d := (a / 640 + 1) * 640
    let l := addCharge (a / 640) scope ((min t d - a) / 8) c l
    let l := if d < t then addCharge (t / 640) scope ((t - max d (t / 640 * 640)) / 8) c l else l
    { l with upto := tabSet (fun _ => 0) l.upto scope t }

/-- The charge of quarter q outside a body, by its state (R193). -/
def State.restCharge (s : State) (q g : Nat) : Nat :=
  let st := s.qstate q
  if !s.quarterOn q then 0
  else if 2 ≤ st && st ≤ 7 then s.quarterCharge q (s.fld F.LEDG_BASE_BASE_STALL) (s.reg (R.QSEQ_STALL_LEDG q)).toNat g
  else s.quarterCharge q (s.fld F.LEDG_BASE_IDLE_BASE_IDLE) 0 g

/-- Charge quarter q up to `t` at the rate of its state outside a body. -/
def ledgerRest (q t : Nat) (s : State) : State := { s with led := chargeTo q t (s.restCharge q) s.led }

/-- Charge the played granule that begins at `gt` (R193). -/
def ledgerPlay (q gt tag : Nat) (s : State) : State :=
  let s := ledgerRest q gt s
  { s with led := chargeTo q (gt + 8) (s.quarterCharge q (s.fld F.LEDG_BASE_BASE_RUN) tag) s.led }

def ledgerCentral (t : Nat) (s : State) : State := { s with led := chargeTo 16 t s.centralCharge s.led }

/-- Before a setting that changes charges changes: every scope is charged at the old values up to the first
boundary after this MCLK cycle (R193). -/
def ledgerSettle (s : State) : State :=
  let t := granuleNext s.now
  ledgerCentral t (forAll ((List.range 16).filter fun q => s.qstate q ≠ 1) (fun q s => ledgerRest q t s) s)

/-- The same for one quarter, before its domain turns on or off. -/
def ledgerRestNow (q : Nat) (s : State) : State := if s.qstate q = 1 then s else ledgerRest q (granuleNext s.now) s

/-! ### Windows (R194, R198) -/

/-- FIRST takes an event if it is free (Table 8-6). -/
def ledgerFirst (cause scope group : Nat) (s : State) : State :=
  if s.led.firstHeld then s
  else
    let s := s.setReg R.LEDG_FIRST (BitVec.ofNat 16 (cause * 2 ^ 8 + scope * 2 ^ 3 + group))
    { s with led := { s.led with firstHeld := true } }

def centrallySensed (g : Nat) : Bool := g = 0 || g = 1 || g = 7

/-- The accumulated charge of a scope and group in window `w`. -/
def Ledger.sum (l : Ledger) (w scope g : Nat) : Nat := tabGet (fun _ => 0) l.acc (w * 136 + scope * 8 + g)

/-- P in mA (R194); for scope 16 of a centrally sensed group P_PART. -/
def Ledger.pred (l : Ledger) (w scope g : Nat) : Nat :=
  if scope = 16 && centrallySensed g then
    ceilDiv ((List.range 17).foldl (fun a i => a + l.sum w i g) 0) (80 * 64)
  else ceilDiv (l.sum w scope g) (80 * 64)

/-- In NAP and PATROL, and with the central domain off, the ledger forms no prediction (R328). -/
def State.ledgerOff (s : State) : Bool := 2 ≤ s.fld F.PWR_STAT_STATE

/-- Overrun of one quarter and group (R198). -/
def overrunCheck (w q g : Nat) (s : State) : State :=
  if s.fld (F.LEDG_QCEIL_QCEIL q g) < s.led.pred w q g then
    (ledgerFirst 3 q g (s.raise F.LEDG_STAT_OVERRUN)).report (0x108 + 16 * q) g
  else s

/-- The end of the open window, once it is past. -/
def ledgerWindowEnd (s : State) : State :=
  let w := s.led.window
  let d := 640 * (w + 1)
  if s.now < d then s
  else
    let s := ledgerCentral d (forAll (List.range 16) (fun q s => ledgerRest q d s) s)
    let close (s : State) : State :=
      let l := s.led
      { s with led := { l with window := w + 1, en := s.bit F.LEDG_CTRL_ANOM_EN,
                               acc := l.acc.filter fun e => (w + 1) * 136 ≤ e.1 } }
    if s.ledgerOff then { (close s) with led := { (close s).led with run := [] } }
    else
      let s := forAll (List.range 16) (fun q s => forAll (List.range 8) (fun g s => overrunCheck w q g s) s) s
      let keys := List.range 136
      let p : Tab Nat := keys.foldl (fun t k => tabSet (fun _ => 0) t k (s.led.pred w (k / 8) (k % 8))) []
      let peak : Tab Nat := keys.foldl (fun t k =>
        tabSet (fun _ => 0) t k (max (tabGet (fun _ => 0) t k) (tabGet (fun _ => 0) p k))) s.led.obsPeak
      let l := s.led
      close { s with led := { l with waitq := l.waitq ++ [{ no := w, pred := p, en := l.en }], obsPeak := peak } }

/-! ### Sensor results (R200) -/

/-- One scope and group: `m` is the measured current, none for a failed conversion; full scale counts as failed. -/
def sensorCompare (en : Bool) (scope g p : Nat) (m : Option Nat) (s : State) : State :=
  let rel := s.fld F.LEDG_CTRL_MARGIN_REL
  let ab := s.fld (F.LEDG_MARGIN_ABS_MARGIN_ABS g)
  let key := scope * 8 + g
  let setRun (n : Nat) (s : State) : State :=
    { s with led := { s.led with run := tabSet (fun _ => 0) s.led.run key n } }
  let src := if scope = 16 then 0x060 else 0x109 + 16 * scope
  let ok := match m with
    | some v => v < 65535
    | none => false
  let v := m.getD 0
  let low := ok && 100 * v + 100 * ab < p * (100 - rel)
  let under (s : State) : State := if low then s.raise F.LEDG_STAT_UNDER else s
  if !en then under (setRun 0 s)
  else if !ok then (ledgerFirst 5 scope g (s.raise F.LEDG_STAT_SENSOR_ERR)).report src g
  else if p * (100 + rel) + 100 * ab < 100 * v then
    let n := tabGet (fun _ => 0) s.led.run key + 1
    if max 1 (s.fld F.LEDG_CTRL_ANOM_N) ≤ n then
      ((ledgerFirst 4 scope g ((setRun 0 s).raise F.LEDG_STAT_ANOM)).report src g).count 0xA9 1
    else setRun n s
  else under (setRun 0 s)

/-- The results of the oldest closed window, 1.5 µs after its end. `ms` gives the measured current by
scope * 8 + group (0 where it is not listed), `bad` the failed conversions. -/
def ledgerSensor (ms : List (Nat × Nat)) (bad : List Nat) (s : State) : State :=
  match s.led.waitq with
  | [] => s
  | w :: rest =>
    if s.now < 640 * (w.no + 1) + 960 then s
    else
      let meas (k : Nat) : Option Nat :=
        if bad.contains k then none else some (((ms.find? fun e => e.1 = k).map (·.2)).getD 0)
      let keys := (List.range 136).filter fun k => k / 8 = 16 || !centrallySensed (k % 8)
      let s := forAll keys (fun k s =>
        sensorCompare w.en (k / 8) (k % 8) (tabGet (fun _ => 0) w.pred k) (meas k) s) s
      let s := s.count 0xA8 1
      let m : Tab Nat := keys.foldl (fun t k => tabSet (fun _ => 0) t k (min ((meas k).getD 0) 65535)) []
      { s with led := { s.led with waitq := rest, obsPred := w.pred, obsMeas := m, obsWin := w.no } }

/-! ### Load checks (R196) -/

def checkL1 (s : State) (g : Nat) : Bool :=
  s.fld (F.LEDG_CHIP_BASE_CHIP_BASE g) + s.fld (F.LEDG_RESV_RESV g) +
    (List.range 16).foldl (fun a q => a + s.fld (F.LEDG_QCEIL_QCEIL q g)) 0 ≤ s.fld (F.LEDG_BUDGET_BUDGET g)

/-- The first group whose charge over min(B, 80) granules exceeds the ceiling. -/
def overGroup (s : State) (q base tag b : Nat) : Option Nat :=
  (List.range 8).find? fun g =>
    s.fld (F.LEDG_QCEIL_QCEIL q g) * (64 * 80) < s.quarterCharge q base tag g * min b 80

/-- The written words of quarter q's control store, in address order; a word that nothing has written has OP 0. -/
def State.writtenWords (s : State) (q : Nat) : List Nat :=
  let lo := csAddr q 0
  (((s.win.map (·.1)).filter fun a => lo ≤ a && a < lo + 0x80000).map fun a => (a - lo) / 32).dedup

/-- Body length that L2 uses for a word: none where it skips it. -/
def State.l2Len (s : State) (q : Nat) (w : Micro) : Option Nat :=
  if mwSeg w = nullSeg then (if mwDur w = 0 then none else some (mwDur w))
  else
    let d := s.segDesc (mwSeg w)
    let grp := s.maskGroup q (sdGrp d)
    if s.descOk d (members grp).length (s.snapWidth q (s.snapshotSet q (mwTset w) grp)) then
      some (if mwDur w = 0 then sdLen d else mwDur w)
    else none

/-- The first failure of the word test in quarter q: (group, word). -/
def State.l2Word (s : State) (q : Nat) : Option (Nat × Nat) :=
  let run := s.fld F.LEDG_BASE_BASE_RUN
  (s.writtenWords q).findSome? fun a =>
    let w := s.csWord q a
    if mwOp w = 0 || 0x10 < mwOp w then none
    else match s.l2Len q w with
      | none => none
      | some b => (overGroup s q run (mwLedg w) b).map fun g => (g, a)

/-- The first L2 failure of quarter q: (cause, group). -/
def State.l2Fail (s : State) (q : Nat) : Option (Nat × Nat) :=
  match s.l2Word q with
  | some r => some (2, r.1)
  | none => match overGroup s q (s.fld F.LEDG_BASE_BASE_STALL) (s.reg (R.QSEQ_STALL_LEDG q)).toNat 80 with
    | some g => some (6, g)
    | none => (overGroup s q (s.fld F.LEDG_BASE_IDLE_BASE_IDLE) 0 80).map fun g => (7, g)

/-- Run L1 and L2: the status they set, and whether both passed (R196). L2_ADDR takes the first word of the first
powered quarter that fails the word test. -/
def loadChecks (s : State) : State × Bool :=
  let l1 := (List.range 8).find? fun g => !checkL1 s g
  let s := match l1 with
    | some g => ledgerFirst 1 16 g (s.raise F.LEDG_STAT_L1_FAIL)
    | none => s
  let on := (List.range 16).filter s.quarterOn
  let l2 := on.findSome? fun q => (s.l2Fail q).map fun r => (q, r)
  let s := match on.findSome? s.l2Word with
    | some r => s.setFld F.LEDG_L2_ADDR_ADDR r.2
    | none => s
  let s := match l2 with
    | some (q, cause, g) => ledgerFirst cause q g (s.raise F.LEDG_STAT_L2_FAIL)
    | none => s
  let ok := l1.isNone && l2.isNone
  ({ s with led := { s.led with passed := ok } }, ok)

/-- START of a quarter restarts its peaks (Table 8-6, OBS_PEAK). -/
def ledgerStart (q : Nat) (s : State) : State :=
  { s with led := { s.led with obsPeak := s.led.obsPeak.filter fun e => e.1 / 8 ≠ q } }

/-! ### The maintenance reserve (R199) -/

/-- A reserve profile fits beside those admitted. -/
def State.resFits (s : State) (k : Nat) : Bool :=
  (List.range 8).all fun g => s.resCharge g + s.prof (s.fld (F.LEDG_RESPROF_PROF k)) g ≤ s.fld (F.LEDG_RESV_RESV g)

/-- RESADM shows the profiles admitted. -/
def showRes (s : State) : State :=
  let ks := s.cal.running.filterMap resOf
  s.setFld F.LEDG_RESADM_ADM ([0, 1, 2].foldl (fun m k => if ks.contains k then m + 2 ^ k else m) 0)

end Sys2Proof.Machine
end

