-- ==== Sys2Proof/Machine/Nvm.lean ====
section
/-! DEFINITION. Persistent storage: page copies, the current copy, the values in force (13_calibration_nvm.md,
R288 to R293). -/

namespace Sys2Proof.Machine

/-! ### Page copies (R290, R291) -/

def State.pageDw (s : State) (p i : Nat) : Nat := (tabGet (fun _ => 0) s.nvm.pages (p * 1024 + i)).toNat

/-- Bytes of the first `n` dwords of a physical page. -/
def State.pageBytes (s : State) (p n : Nat) : List Byte :=
  (List.range n).flatMap fun i => bytesOf (s.pageDw p i) 4

/-- A copy of logical page `n` in physical page `p` is valid (R291). -/
def State.copyValid (s : State) (n p : Nat) : Bool :=
  s.pageDw p 0 % 2 ^ 16 = n && s.pageDw p 2 ≤ 4076 && s.pageDw p 1023 = crc32c (s.pageBytes p 1023)

/-- The physical page of the current copy of logical page `n` (R291). -/
def State.current (s : State) (n : Nat) : Option Nat :=
  let a := 2 * n
  let b := 2 * n + 1
  match s.copyValid n a, s.copyValid n b with
  | true, true =>
    let d := (s.pageDw b 1 + 2 ^ 32 - s.pageDw a 1) % 2 ^ 32
    if 1 ≤ d && d ≤ 2 ^ 31 - 1 then some b else some a
  | true, false => some a
  | false, true => some b
  | false, false => none

/-- The copy a STORE writes: the one that is not current, or copy A of a bad page (R292). -/
def State.storeTarget (s : State) (n : Nat) : Nat :=
  match s.current n with
  | some p => if p = 2 * n then 2 * n + 1 else 2 * n
  | none => 2 * n

def setPageDw (p i v : Nat) (s : State) : State :=
  { s with nvm := { s.nvm with pages := tabSet (fun _ => 0) s.nvm.pages (p * 1024 + i) (BitVec.ofNat 32 v) } }

/-! ### Values in force (R289, Table 13-1) -/

/-- The 16-bit value at payload byte `b` of logical page `n` in force; the defaults of a bad page are 0. -/
def State.nvmHalf (s : State) (n b : Nat) : Nat :=
  bitsAt (tabGet (fun _ => 0) s.nvm.force (n * 1024 + b / 4)).toNat (8 * (b % 4)) 16

def State.nvmInt (s : State) (n b : Nat) : Int := signed 16 (s.nvmHalf n b)

/-- A value of a channel's timing trims: 0 DSK_D, 1 DSK_C, 2 LOOP_DLY, 3 TDC path offset, 4 delay tempco. -/
def State.timingTrim (s : State) (c k : Nat) : Int :=
  s.nvmInt (26 + c / 256) (640 * (c / 64 % 4) + 10 * (c % 64) + 2 * k)

/-- The converter code of level DAC `d` for its output code, before the temperature correction (R289). -/
def State.converterCode (s : State) (c d : Nat) : Int :=
  let k : Int := s.fld (F.CH_LVL_OUT_OUT c d) - 32768
  let g := s.nvmInt (2 + c / 64) (48 * (c % 64) + 4 * d)
  let o := s.nvmInt (2 + c / 64) (48 * (c % 64) + 4 * d + 2)
  -- k (1 + g 2^-20) + o / 16, rounded to the nearest integer
  clampInt 0 65535 (32768 + (2 * (k * (2 ^ 20 + g) + o * 2 ^ 16) + 2 ^ 20) / 2 ^ 21)

/-- Temperature in force of sensor i, 1/16 °C (R342). -/
def State.temp (s : State) (i : Nat) : Int := signed 16 (s.fld (F.THM_T_T i))

/-- The goal of the reference temperature correction of a DAC (R348), in code steps. -/
def State.refGoal (s : State) (c d : Nat) : Int :=
  if s.bit F.THM_CFG_DAC_TC_EN then
    (s.converterCode c d - 32768) * s.nvmInt 1 (340 + 2 * (c / 64)) * (s.temp (c / 64) - 400) / 2 ^ 28
  else 0

/-- The correction moves by at most one code at a DCLK edge (R134). -/
def refStep (c d : Nat) (s : State) : State :=
  let x := s.chan c
  let v := tabGet (fun _ => 0) x.refCorr d
  let g := s.refGoal c d
  if v = g then s
  else s.setChan c { x with refCorr := tabSet (fun _ => 0) x.refCorr d (if v < g then v + 1 else v - 1) }

/-! ### LOAD (R293) -/

/-- The quarters that a page covers. -/
def pageQuarters (n : Nat) : List Nat :=
  if 2 ≤ n && n ≤ 17 then [n - 2]
  else if 18 ≤ n && n ≤ 25 then [2 * (n - 18), 2 * (n - 18) + 1]
  else if 26 ≤ n && n ≤ 29 then (List.range 4).map (4 * (n - 26) + ·)
  else List.range 16

/-- A write of a channel's deskew is in force from the first boundary after this MCLK cycle (R124). -/
def stageDeskew (c t : Nat) (s : State) : State :=
  let q := c / 64
  let i := c % 64
  let d := signed 13 (s.fld (F.QTS_DSK_D_DSK_D q i))
  let k := signed 13 (s.fld (F.QTS_DSK_C_DSK_C q i))
  s.setChan c { s.chan c with dskPend := some (t, d, k) }

/-- Put logical page `n` in force from its current copy; a bad page gives its defaults and is reported. -/
def loadPage (n : Nat) (s : State) : State :=
  let rest := s.nvm.force.filter fun e => e.1 / 1024 ≠ n
  let s := match s.current n with
    | some p =>
      let f := (List.range 1019).foldl (fun (t : Tab Dword) i =>
        tabSet (fun _ => 0) t (n * 1024 + i) (BitVec.ofNat 32 (s.pageDw p (4 + i)))) rest
      { s with nvm := { s.nvm with force := f, bad := if s.nvm.bad.testBit n then s.nvm.bad - 2 ^ n else s.nvm.bad } }
    | none =>
      let s := { s with nvm := { s.nvm with force := rest, bad := s.nvm.bad ||| 2 ^ n } }
      (s.raise F.NVM_STAT_PAGE_BAD).report 0x064 n
  let s := { s with nvm := { s.nvm with loaded := s.nvm.loaded ||| 2 ^ n } }
  let s := (s.setReg R.NVM_BAD_L (BitVec.ofNat 16 s.nvm.bad)).setReg R.NVM_BAD_H (BitVec.ofNat 16 (s.nvm.bad / 2 ^ 16))
  if 26 ≤ n && n ≤ 29 then
    forAll ((List.range 256).map (256 * (n - 26) + ·)) (fun c s =>
      let s := s.setFld (F.QTS_DSK_D_DSK_D (c / 64) (c % 64)) (s.timingTrim c 0 % 2 ^ 13).toNat
      let s := s.setFld (F.QTS_DSK_C_DSK_C (c / 64) (c % 64)) (s.timingTrim c 1 % 2 ^ 13).toNat
      stageDeskew c (granuleNext s.now) s) s
  else if n = 1 then
    let s := s.setReg R.TDCC_XO_AGE (BitVec.ofNat 16 (s.nvmHalf 1 32))
    if s.nvm.bad.testBit 1 then (s.raise F.TDCC_TB_STAT_TBL_ERR).report 0x065 0 else s
  else s

/-- LOAD: refused while a quarter that the page covers runs (R293). -/
def nvmLoad (s : State) : State :=
  let n := s.fld F.NVM_SEL_LPN
  if (pageQuarters n).all fun q => s.stopped q || !s.quarterOn q then { s with nvm := { s.nvm with loading := some n } }
  else s.raise F.NVM_STAT_REFUSED

def nvmLoadComplete (s : State) : State :=
  match s.nvm.loading with
  | some n => loadPage n { s with nvm := { s.nvm with loading := none } }
  | none => s

end Sys2Proof.Machine
end

