-- ==== Sys2Proof/Machine/Latch.lean ====
section
/-! DEFINITION. Trigger latches and deferred jumps of a quarter sequencer (R64 to R67, R71 to R73). -/

namespace Sys2Proof.Machine

/-! ### The quarter's timeline -/

/-- The core mode (R312): 0 RCO-direct, 1 XO-direct, 2 PLL. -/
def State.core (s : State) : Nat := s.fld F.CLK_STAT_CORE_ACT

/-- PCLK and the granules run: PLL mode, no clock-hold. -/
def State.patternClock (s : State) : Bool := s.core = 2 && s.bit F.CLK_STAT_PLL_LOCK && !s.bit F.CLK_STAT_HOLD

/-- A Lace hold has stopped the quarter's timeline at or before `t` (R74). -/
def State.heldAt (s : State) (q t : Nat) : Bool :=
  match (s.q q).laceHeld with
  | some h => h ≤ t
  | none => false

/-! ### Deferred jumps (R66, R67) -/

def setDefer (q : Nat) (t : Option Nat) (s : State) : State :=
  match t with
  | some a => s.setReg (R.QSEQ_DEFER q) (BitVec.ofNat 16 (0x8000 + a))
  | none => s.setReg (R.QSEQ_DEFER q) 0

def State.deferred (s : State) (q : Nat) : Option Nat :=
  if s.bit (F.QSEQ_DEFER_PEND q) then some (s.fld (F.QSEQ_DEFER_TGT q)) else none

/-! ### Latches (R64 to R66, R71, R73) -/

/-- FLAG shows the FLAG latches (Table 3-8). -/
def showFlags (q : Nat) (s : State) : State :=
  s.setReg (R.QSEQ_FLAG q) (BitVec.ofNat 16 ((s.q q).latch.toNat / 2 ^ 0x80))

def writeLatch (q trg : Nat) (b : Bool) (s : State) : State :=
  let x := s.q q
  let m := BitVec.ofNat 256 (2 ^ trg)
  showFlags q (s.setQ q { x with
    latch := if b then x.latch ||| m else x.latch &&& ~~~m
    latchAt := if b then tabSet (fun _ => 0) x.latchAt trg s.now else x.latchAt })

def State.latched (s : State) (q trg : Nat) : Bool := trg ≠ 0 && (s.q q).latch.getLsbD trg

/-- The latch set before the MCLK cycle that begins at `t` (R65, R71). -/
def State.latchedBefore (s : State) (q trg t : Nat) : Bool :=
  s.latched q trg && tabGet (fun _ => 0) (s.q q).latchAt trg < t

/-- Decision point and end of a body (R60, Table 3-2). -/
def Body.decision (b : Body) : Nat := b.start + 8 * (b.len - 4)
def Body.welt (b : Body) : Nat := b.start + 8 * b.len

/-- The exit boundary, once known; the release of a Lace hold that fell in the stall comes before it (R74). -/
def Stall.leave (x : Stall) : Option Nat := x.exit.map fun e => max e x.floor

/-- The latest device time at which a latch or a mark still ends a stall: its timeout (R71 to R73); none: no limit. -/
def Stall.expiry (x : Stall) : Option Nat :=
  let cnt := mwCnt x.word
  match mwOp x.word with
  | 0x08 => if cnt = 0 then none else some (x.welt + 8 * cnt)
  | 0x0F => if cnt = 0 then none else some (x.welt + 8 * cnt)
  | 0x09 => if cnt / 2 ^ 16 = 0 then none else some (x.welt + 640000 * (cnt / 2 ^ 16))
  | _ => none

/-- An event at `e` comes before the stall's timeout: in its MCLK cycle at the latest (R71). -/
def Stall.before (x : Stall) (e : Nat) : Bool :=
  match x.expiry with
  | some l => decide (e / 2 ≤ l / 2)
  | none => true

/-- The event `trg` at `now` ends a stall on it: exit at max(welt, g) + 4 granules (R71, R73). -/
def stallOnLatch (now trg : Nat) (x : Stall) : Stall :=
  let op := mwOp x.word
  if (op = 0x08 || op = 0x0F) && mwTrg x.word = trg && x.exit.isNone && x.before now then
    { x with exit := some (max x.welt (granuleAt now) + 32), byLatch := true }
  else x

/-- The present moment lies in the late window of the JCOND that plays body `b` (R66): from its decision point through
the last MCLK cycle before its welt, which a Lace hold begun since then moves on. -/
def State.inLateWindow (s : State) (q : Nat) (b : Body) : Bool :=
  match (s.q q).laceHeld with
  | some t => if t ≤ s.now then b.decision < t && t ≤ b.welt else b.decision ≤ s.now && s.now < b.welt
  | none => b.decision ≤ s.now && s.now < b.welt

/-- A trigger source's event in quarter q: its latch sets; in the late window of a JCOND on it, the event is
counted, consumed and recorded as a deferred jump (R64, R66). -/
def setLatch (q trg : Nat) (s : State) : State :=
  if trg = 0 || 256 ≤ trg || s.latched q trg then s
  else
    let x := s.q q
    match x.body with
    | some b =>
      if mwOp b.word = 3 && mwCond b.word = 2 && mwTrg b.word = trg && s.inLateWindow q b then
        let s := (s.addSat (F.QSEQ_LATE_LATE_CNT q) 1).count (0x20 + q) 1
        if b.decided then setDefer q (some (mwTgt b.word)) s
        else s.setQ q { x with body := some { b with lateTgt := some (mwTgt b.word) } }
      else writeLatch q trg true s
    | none =>
      let s := writeLatch q trg true s
      let x := s.q q
      s.setQ q { x with stall := x.stall.map (stallOnLatch s.now trg) }

/-! ### MARK contributions (R127) -/

/-- How long a contribution can still show after its end, in PCLK: T_PIN, one granule and the greatest DLY. -/
def markTail : Nat := 64

/-- The quarter contributes its MARK bits no more from `t` on. -/
def markStop (q t : Nat) (s : State) : State :=
  let x := s.q q
  s.setQ q { x with markRuns := x.markRuns.map fun r => if r.stop.isNone then { r with stop := some (max t r.start) } else r }

/-- From `t` on the quarter contributes the bits; `first`: the body begins there. -/
def markStart (q t bits : Nat) (first : Bool) (s : State) : State :=
  let s := markStop q t s
  let x := s.q q
  let live := x.markRuns.filter fun r => match r.stop with
    | some e => t < e + markTail
    | none => true
  s.setQ q { x with markRuns := if bits = 0 then live else live ++ [{ start := t, stop := none, bits := bits, first := first }] }

/-- The event in every quarter, as a pin edge or a Lace trigger is (R64, R251). -/
def setLatchAll (trg : Nat) (s : State) : State := forAll (List.range 16) (fun q s => setLatch q trg s) s

end Sys2Proof.Machine
end

