-- ==== Sys2Proof/Machine/Pmu.lean ====
section
/-! DEFINITION. Per-pin parametric measurement: force, range changes, converters, intervals and their records
(07_parametric_supply_guard.md, R157 to R167). -/

namespace Sys2Proof.Machine

/-! ### Force and range -/

/-- RANGE values 5 to 7 act as E (Table 7-1). -/
def rangeOf (v : Word) : Nat := min (fieldOf v 3 3) 4

/-- Settling of a range in PCLK (Table 7-1). -/
def rangeSettle : Nat → Nat
  | 0 => 5 * 640
  | 1 => 10 * 640
  | 2 => 20 * 640
  | 3 => 60 * 640
  | _ => 200 * 640

/-- The time of the last step of a range change after t0 (Table 7-2). -/
def rangeTime (fi : Bool) : Nat := if fi then 1440 else 1280

/-! ### Intervals (R163 to R165) -/

/-- Fail the channel's site in the granule in progress (R206). -/
def failSiteNow (c : Nat) (s : State) : State :=
  match (s.chan c).site with
  | some i => failSite (c / 64) i s
  | none => s

/-- The granule offset in the executing body, or the end of the last one. -/
def State.goffOf (s : State) (q : Nat) : Nat :=
  match (s.q q).body with
  | some b => b.played - 1
  | none => s.lastGoff q

/-- A PPMU result record (Table 9-5). -/
def pmuRecord (s : State) (c t : Nat) (merged nsamp : Nat) (r : Int) (lim part abort : Bool) (x : Pmu) : Record :=
  let q := c / 64
  let i := (s.chan c).site
  { type := 0x05
    flags := s.flagsOf q abort (match i with
      | some i => s.siteTdist q i
      | none => false) false
    quarter := q, ssn := s.ssn q, goff := s.goffOf q, site := i.map (q * 8 + ·), dtime := t
    payload := pf 24 (c % 64) + pf 25 (x.meas + 2 * x.range + (if lim then 16 else 0) + (if part then 32 else 0)) +
      pf 26 merged + pf 28 (r % 2 ^ 32).toNat + pf 32 nsamp
    ring := s.fld (F.QRES_RT_PPMU_RING q), prio := false }

/-- Intervals that a record would have merged with others are not consecutive any more. -/
def pmuUnmerge (c : Nat) (s : State) : State :=
  let y := s.pmu c
  if y.merged = 0 then s else s.setPmu c { y with merged := 0, mergeSum := 0, mergeN := 0 }

/-- The settings and the level that merged intervals share (R165). -/
def State.mergeKeyOf (s : State) (c level : Nat) : Nat :=
  ((s.reg (R.CH_PMU_CTRL c)).toNat * 2 ^ 16 + (s.reg (R.CH_PMU_MEAS c)).toNat) * 4 + level

/-- The record of an ended interval: at once, or one for every 2^level consecutive complete intervals under the same
settings and level (R165). -/
def pmuEmit (c t : Nat) (r : Int) (lim part abort : Bool) (x : Pmu) (s : State) : State :=
  let q := c / 64
  let level := s.fld (F.QRES_LSTAT_LEVEL q)
  if !s.bit (F.CH_PMU_CTRL_REC_EN c) || 3 ≤ level then pmuUnmerge c s
  else if part || level = 0 then pmuUnmerge c (addWaiting q (pmuRecord s c t 1 x.taken r lim part abort x) s)
  else
    let key := s.mergeKeyOf c level
    let y := s.pmu c
    let same := y.mergeKey = key && 0 < y.merged
    let m := if same then y.merged + 1 else 1
    let sum := if same then y.mergeSum + r else r
    let n := if same then y.mergeN + x.taken else x.taken
    if 2 ^ level ≤ m then
      let v := s.meanFree sum m
      pmuUnmerge c (addWaiting q (pmuRecord v.2 c t m n v.1 lim false false x) v.2)
    else s.setPmu c { y with merged := m, mergeSum := sum, mergeN := n, mergeKey := key }

/-- Start an interval at a trigger at `t` (R163): ignored with OVRUN while one runs. -/
def pmuTrigger (c t : Nat) (s : State) : State :=
  let x := s.pmu c
  if x.running then s.raise (F.CH_PMU_STAT_OVRUN c)
  else
    let w := s.reg (R.CH_PMU_CTRL c)
    (s.setPmu c { x with
      running := true, start := t + 64 * s.fld (F.CH_PMU_DLY_DLY c),
      need := 2 ^ min (s.fld (F.CH_PMU_MEAS_AVG_LOG2 c)) 16, taken := 0, sum := 0, meas := fieldOf w 2 1,
      range := rangeOf w, ovr := false, endAt := none }).setBit (F.CH_PMU_STAT_MBUSY c) true

/-- An interval ends at `t` with the samples taken (R164). -/
def pmuFinish (c t : Nat) (part abort : Bool) (s : State) : State :=
  let x := s.pmu c
  let v := s.meanFree x.sum x.taken
  let r := v.1
  let code := (r % 2 ^ 24).toNat
  let s := (v.2.setPmu c { v.2.pmu c with running := false, endAt := none }).setBit (F.CH_PMU_STAT_MBUSY c) false
  let s := ((s.setReg (R.CH_RES_L c) (BitVec.ofNat 16 code)).setFld (F.CH_RES_H_RES_H c) (code / 2 ^ 16)).setReg
    (R.CH_RES_CNT c) (BitVec.ofNat 16 (x.taken + 65535))
  let s := (s.setFld (F.CH_RES_INFO_MEAS c) x.meas).setFld (F.CH_RES_INFO_RANGE c) x.range
  let s := s.raise (F.CH_PMU_STAT_DONE c)
  let s := if part then s.raise (F.CH_PMU_STAT_PARTIAL c) else s
  let s := if abort then s.raise (F.CH_PMU_STAT_ABORT c) else s
  let s := if x.ovr then (s.raise (F.CH_PMU_STAT_OVRNG c)).report (0x107 + 16 * (c / 64)) c else s
  let lo := signed 24 ((s.reg (R.CH_LIMLO_L c)).toNat + 2 ^ 16 * s.fld (F.CH_LIMLO_H_LIMLO_H c))
  let hi := signed 24 ((s.reg (R.CH_LIMHI_L c)).toNat + 2 ^ 16 * s.fld (F.CH_LIMHI_H_LIMHI_H c))
  let lim := !part && s.bit (F.CH_PMU_CTRL_LIM_EN c) && (r < lo || hi < r)
  let s := if lim then failSiteNow c (s.raise (F.CH_PMU_STAT_LIM_FAIL c)) else s
  pmuEmit c t r lim part abort x s

/-- TRIG = 3: the next interval starts at the end of the previous one (log entry 36). -/
def pmuAgain (c t : Nat) (s : State) : State :=
  if s.fld (F.CH_PMU_MEAS_TRIG c) = 3 then pmuTrigger c t s else s

/-- MEAS_START (R163) and MEAS_STOP (R164). -/
def pmuMeasStart (c : Nat) (s : State) : State :=
  if s.fld (F.CH_PMU_MEAS_TRIG c) = 0 then pmuTrigger c s.now s else s

def pmuMeasStop (c : Nat) (s : State) : State :=
  if (s.pmu c).running then pmuAgain c s.now (pmuFinish c s.now true false s) else s

/-- A running interval ends after its current sample with PARTIAL and ABORT (R166). -/
def pmuAbort (c : Nat) (s : State) : State :=
  if (s.pmu c).running then pmuFinish c s.now true true s else s

/-- The force amplifier leaves the node: an OVD trip (R145). -/
def pmuOff (c : Nat) (s : State) : State := s.setPmu c { s.pmu c with connected := false }

/-- The safe state disconnects the force amplifier and ends a range change (R166). -/
def pmuSafe (c : Nat) (s : State) : State :=
  let s := pmuAbort c s
  let x := s.pmu c
  (s.setPmu c { x with connected := false, rangeAct := x.rangeTo.getD x.rangeAct, rangeTo := none,
                       rangeStep := 0 }).setBit (F.CH_PMU_STAT_RCHG c) false

/-- TRIG = 1: a body whose MARK has bit MSEL starts at `t` (R163). -/
def pmuMarkTrigger (q mark t : Nat) (s : State) : State :=
  if mark = 0 then s
  else forAll (List.range 64) (fun i s =>
    let c := q * 64 + i
    if s.fld (F.CH_PMU_MEAS_TRIG c) = 1 && mark.testBit (s.fld (F.CH_PMU_MEAS_MSEL c)) then pmuTrigger c t s else s) s

/-- TRIG = 2: a sample of the channel's level queue. -/
def pmuLqTrigger (c : Nat) (s : State) : State :=
  if s.fld (F.CH_PMU_MEAS_TRIG c) = 2 then pmuTrigger c s.now s else s

/-! ### Converters (R162) -/

/-- Channel `c` waits for a sample in the slot at `t`. -/
def State.wantsSample (s : State) (c t : Nat) : Bool :=
  let x := s.pmu c
  x.running && x.start ≤ t && x.taken < x.need && !s.bit (F.CH_PMU_STAT_RCHG c) && x.resumeAt ≤ t

/-- The next channel of converter `a` (4 a quarter) after the last one served, with wrap-around. -/
def State.adcNext (s : State) (a t : Nat) : Option Nat :=
  let base := a / 4 * 64 + a % 4 * 16
  let last := tabGet (fun _ => 0) s.adcs a
  (((List.range 16).map fun i => base + (last + i) % 16)).find? fun c => s.wantsSample c t

/-- One slot of converter `a`: slots begin at multiples of 320, one sample a slot. `v` is the sample in the scale of
RES, `lim` whether it reached a converter limit. -/
def adcSlot (a : Nat) (v : Int) (lim : Bool) (s : State) : State :=
  let t := s.now / 320 * 320
  if t < tabGet (fun _ => 0) s.adcAt a then s
  else match s.adcNext a t with
  | none => s
  | some c =>
    let x := s.pmu c
    let s := { s with adcs := tabSet (fun _ => 0) s.adcs a (c % 16 + 1),
                      adcAt := tabSet (fun _ => 0) s.adcAt a (t + 320) }
    s.setPmu c { x with taken := x.taken + 1, sum := x.sum + v, ovr := x.ovr || lim,
                        endAt := if x.taken + 1 = x.need then some (t + 320) else none }

/-- One slot after the Nth sample the interval ends (R164). -/
def pmuIntervalEnd (c : Nat) (s : State) : State :=
  match (s.pmu c).endAt with
  | some t => if t ≤ s.now then pmuAgain c t (pmuFinish c t false false s) else s
  | none => s

/-! ### Writes of PMU_CTRL and PMU_MEAS (R159, R160) -/

/-- The code of the node's present state, which a change of FORCE to `f` presets LVL9_OUT to (R159): the voltage for FV,
the current for FI, which is none when FORCE was 0. -/
def State.nodeCode (s : State) (c f0 f : Nat) : Nat :=
  if f = 1 then (clampInt 0 65535 (s.chan c).node).toNat
  else if f0 = 0 then 0x8000
  else (clampInt 0 65535 (s.chan c).amps).toNat

/-- A change of FORCE from `f0` to `f` takes effect: the force amplifier starts from the node's state, or leaves the
node to its park state (R157, R159). -/
def pmuForce (c f0 f : Nat) (s : State) : State :=
  let s := if f = 0 then s else s.setFld (F.CH_LVL_OUT_OUT c 9) (s.nodeCode c f0 f)
  let s := s.setPmu c { s.pmu c with connected := f ≠ 0 && !s.bit (F.CH_STAT_DISC c) }
  if f ≠ 0 then s.setChan c (s.chan c).cut
  else if s.qstate (c / 64) = 1 then s
  else parkPin c s

/-- PMU_CTRL takes a new value, of which the write selects the bits `m`. A write of RANGE during a range change is
ignored, with WRITE_LOST (R160). A change of RANGE while forcing starts a make-before-break change; otherwise the range
switches at once, and ends a running interval. -/
def pmuCtrlWrite (c : Nat) (w m : Word) (s : State) : State :=
  let old := s.reg (R.CH_PMU_CTRL c)
  let busy := s.bit (F.CH_PMU_STAT_RCHG c) && fieldOf m 3 3 ≠ 0
  let w := if busy then withField w 3 3 (fieldOf old 3 3) else w
  let s := if busy then (s.raise (F.CH_PSTAT_WRITE_LOST c)).count 0xA4 1 else s
  let s := s.setReg (R.CH_PMU_CTRL c) w
  let f0 := forceOf old
  let f := forceOf w
  let s := if f = f0 then s else pmuForce c f0 f s
  if fieldOf w 3 3 = fieldOf old 3 3 then s
  else if f ≠ 0 && f0 ≠ 0 then
    (s.setPmu c { s.pmu c with rangeTo := some (rangeOf w), rangeStep := 1, rangeT0 := s.now,
                               resumeAt := s.now + rangeTime (f = 2) + rangeSettle (rangeOf w) }).setBit
      (F.CH_PMU_STAT_RCHG c) true
  else
    let s := s.setPmu c { s.pmu c with rangeAct := rangeOf w, rangeTo := none }
    if (s.pmu c).running then pmuAgain c s.now (pmuFinish c s.now true false s) else s

/-- PMU_MEAS takes a new value; setting TRIG = 3 starts the first interval (log entry 36). -/
def pmuMeasWrite (c : Nat) (w : Word) (s : State) : State :=
  let old := s.fld (F.CH_PMU_MEAS_TRIG c)
  let s := s.setReg (R.CH_PMU_MEAS c) w
  if fieldOf w 6 2 = 3 && old ≠ 3 && !(s.pmu c).running then pmuTrigger c s.now s else s

/-- The next timed step of a range change (Table 7-2). -/
def pmuRangeStep (c : Nat) (s : State) : State :=
  let x := s.pmu c
  match x.rangeTo with
  | none => s
  | some r =>
    let fi := forceOf (s.reg (R.CH_PMU_CTRL c)) = 2
    if fi && x.rangeStep = 1 && x.rangeT0 + 160 ≤ s.now then s.setPmu c { x with rangeStep := 2 }
    else if x.rangeT0 + rangeTime fi ≤ s.now then
      (s.setPmu c { x with rangeAct := r, rangeTo := none, rangeStep := 0 }).setBit (F.CH_PMU_STAT_RCHG c) false
    else s

/-- A clamp that conducts while forcing; a reversed pair of delivered clamp levels also sets it (R158, R161). -/
def pmuClamp (c : Nat) (conducts : Bool) (s : State) : State :=
  if s.forcing c && (conducts || s.delivered c 10 < s.delivered c 11) then
    (s.raise (F.CH_PMU_STAT_CLAMP c)).report (0x107 + 16 * (c / 64)) c
  else s

end Sys2Proof.Machine
end

