-- ==== Sys2Proof/Machine/Tdc.lean ====
section
/-! DEFINITION. Time-interval units: arming, events, window closing, results and their records, the DLLs
(10_time_measurement.md, R231 to R243). -/

namespace Sys2Proof.Machine

/-! ### States and refusals (R231) -/

def State.tdcState (s : State) (u : Nat) : Nat := s.fld (F.TDC_STATE_STATE u)

/-- The largest ARG of an arm source (Table 10-1), none for a reserved source. -/
def armArgMax (src : Nat) : Option Nat :=
  if src = 0 || src = 5 || src = 6 || src = 7 then some 63 else if src ≤ 4 then some 3 else none

/-- The largest ARG of an event source (Table 10-2). -/
def evtArgMax (stop : Bool) (evt : Nat) : Option Nat :=
  if evt = 0x08 || evt = 0x09 then some 3
  else if evt = 0x0A || evt = 0x0B then some 7
  else if evt = 0x0D then (if stop then none else some 63)
  else if evt ≤ 0x0E then some 63
  else none

def argOk (m : Option Nat) (arg : Nat) : Bool :=
  match m with
  | some n => arg ≤ n
  | none => false

/-- Selections and arguments are all valid. -/
def State.tdcCfgOk (s : State) (u : Nat) : Bool :=
  argOk (armArgMax (s.fld (F.TDC_ARM_CFG_SRC u))) (s.fld (F.TDC_ARM_CFG_ARG u)) &&
    argOk (evtArgMax false (s.fld (F.TDC_START_SEL_EVT u))) (s.fld (F.TDC_START_SEL_ARG u)) &&
    argOk (evtArgMax true (s.fld (F.TDC_STOP_SEL_EVT u))) (s.fld (F.TDC_STOP_SEL_ARG u))

/-- The unit is not borrowed and its quarter's DLL is locked and not in a re-lock. -/
def State.tdcReady (s : State) (u : Nat) : Bool :=
  !(u < 2 && s.bit F.TDCC_BORROW_BORROW) && s.bit (F.TDCC_DLL_STAT_LOCKED (u / 4)) &&
    !s.bit (F.TDCC_DLL_STAT_RELOCKING (u / 4))

/-! ### Records (R237) -/

/-- SSN and GOFF of the body that ran at device time `t` (R237): the executing one, the one before it, or none. -/
def State.bodyAt (s : State) (q : Nat) (t : Nat) : Nat × Nat :=
  let x := s.q q
  match x.body with
  | some b =>
    if b.start ≤ t && t < b.welt then (s.ssn q, (t - b.start) / 8)
    else match x.prev with
      | some (a, w, n) => if a ≤ t && t < w then (n, (t - a) / 8) else (s.ssn q, 0xFFFFF)
      | none => (s.ssn q, 0xFFFFF)
  | none => match x.prev with
    | some (a, w, n) => if a ≤ t && t < w then (n, (t - a) / 8) else (s.ssn q, 0xFFFFF)
    | none => (s.ssn q, 0xFFFFF)

/-- One TIME record (Table 10-4). `st` is its byte 26 without CONT. -/
def timeRecord (s : State) (u dt fine st : Nat) (stops : List Nat) (first ssn goff : Nat) (abort : Bool) : Record :=
  let q := u / 4
  let site := if s.bit (F.TDC_CFG_SITE_VAL u) then some (s.fld (F.TDC_CFG_LSITE u)) else none
  let part := (stops.drop first).take 8
  { type := 0x06
    flags := s.flagsOf q abort (match site with
      | some i => s.siteTdist q i
      | none => false) false
    quarter := q, ssn := ssn, goff := goff, site := site.map (q * 8 + ·), dtime := dt
    payload := pf 24 (fine % 2048 + u % 4 * 2 ^ 11) + pf 26 (st + (if first = 8 then 128 else 0)) +
      pf 27 (stops.length + first * 16) +
      (part.zipIdx).foldl (fun a e => a + pf (28 + 4 * e.2) (e.1 % 2 ^ 32)) 0
    ring := s.fld (F.QRES_RT_TIME_RING q), prio := false }

/-- Build the records of a result or a refusal, unless the unit or the ladder suppresses them. -/
def timeEmit (u dt fine st : Nat) (stops : List Nat) (ssn goff : Nat) (abort : Bool) (s : State) : State :=
  let q := u / 4
  if !s.bit (F.TDC_CFG_REC_EN u) || 3 ≤ s.fld (F.QRES_LSTAT_LEVEL q) then s
  else
    let s := addWaiting q (timeRecord s u dt fine st stops 0 ssn goff abort) s
    if 8 < stops.length then addWaiting q (timeRecord s u dt fine st stops 8 ssn goff abort) s else s

def tipBit (s : State) (u : Nat) : Nat := if s.bit (F.TDC_CFG_REF_TIP u) then 64 else 0

/-! ### Arming (R231, Table 10-1) -/

/-- Arm unit `u` with a window that opens at `t`; `level`: a level gate opened it. -/
def tdcOpen (u t : Nat) (level : Bool) (s : State) : State :=
  let q := u / 4
  if !s.bit (F.TDC_CTRL_EN u) || s.tdcState u ≠ 0 || s.qstate q = 9 || s.chipFault then
    s.raise (F.TDC_STAT_ARM_OVR u)
  else if !s.tdcCfgOk u then
    let s := (s.raise (F.TDC_STAT_CFG_ERR u)).report (0x10B + 16 * q) u
    let b := s.bodyAt q (s.now - 48)
    timeEmit u s.now 0 (1 + tipBit s u) [] b.1 b.2 false s
  else if !s.tdcReady u then
    let s := (s.raise (F.TDC_STAT_NOT_READY u)).report (0x10B + 16 * q) u
    let b := s.bodyAt q (s.now - 48)
    timeEmit u s.now 0 (32 + tipBit s u) [] b.1 b.2 false s
  else
    (s.setTdc u { opens := t, level := level }).setFld (F.TDC_STATE_STATE u) 1

def tdcArm (u t : Nat) (s : State) : State := tdcOpen u t false s

/-- The event selected in ARM_CFG.SRC occurs (Table 10-1). Edges of a ball take 2 or 3 PCLK in the synchroniser:
`d` (Table 3-4). A Lace mark arms by its own effect. -/
def tdcArmSource (u d : Nat) (s : State) : State :=
  let src := s.fld (F.TDC_ARM_CFG_SRC u)
  if 1 ≤ src && src ≤ 4 then tdcOpen u (s.now + d) (3 ≤ src) s
  else if src = 5 || src = 6 then tdcOpen u s.now false s
  else s

/-! ### Closing (R234, R235) -/

/-- The window closes at `t` with the flags of its cause; the result follows at the second granule boundary. -/
def tdcClose (u t flags : Nat) (rearm : Bool) (s : State) : State :=
  let x := s.tdc u
  if s.tdcState u = 0 || x.result.isSome then s
  else
    let miss := if s.tdcState u = 1 then 4 else 8
    let f := if flags = 0 then 0 else (flags - flags % 2) + miss
    let b := match x.start with
      | some _ => (x.ssn, x.goff)
      | none => s.bodyAt (u / 4) (t - 48)
    s.setTdc u { x with result := some (granuleNext t + 8), flags := x.flags ||| f, rearm := rearm, closed := t,
                        ssn := b.1, goff := b.2 }

/-- The TDC path offset of a channel event's time, with REF_TIP = 1 (R232). -/
def State.tipOffset (s : State) (u : Nat) (evt arg : Nat) : Int :=
  if s.bit (F.TDC_CFG_REF_TIP u) && 1 ≤ evt && evt ≤ 7 then s.timingTrim (u / 4 * 64 + arg) 3 else 0

/-- A first crossing of SGn reaches the units now, 320 ns (204.8 PCLK) after it (R175). -/
def State.sgDelivers (s : State) (n : Nat) : Bool :=
  (s.sg n).crossed.any fun c => c + 204 ≤ s.now && s.now ≤ c + 205

/-- The event that a selection names can occur now: a granule reference at a boundary, a Supply Guard crossing with
its delay. -/
def State.eventNow (s : State) (evt arg : Nat) : Bool :=
  if evt = 0x0E then s.now % 8 = 0 else if evt = 0x0C then s.sgDelivers arg else true

/-- The window is open, or closes in this PCLK or later by another cause than its last stop: events still count (R234). -/
def State.tdcCounts (s : State) (u : Nat) : Bool :=
  let x := s.tdc u
  x.result.isNone || (s.now ≤ x.closed && x.stops.length < max 1 (s.fld (F.TDC_NSTOP_NSTOP u)))

/-- The first counted start event, at `fine` LSB in this PCLK (R233). Window open (0x0D) occurs as it opens. -/
def tdcStart (u fine : Nat) (s : State) : State :=
  let x := s.tdc u
  let evt := s.fld (F.TDC_START_SEL_EVT u)
  if s.tdcState u ≠ 1 || !s.tdcCounts u || evt = 0 || s.now < x.opens ||
      !s.eventNow evt (s.fld (F.TDC_START_SEL_ARG u)) then s
  else
    let t : Int := if evt = 0x0D then ((x.opens * 2048 : Nat) : Int)
      else if evt = 0x0E then ((s.now * 2048 : Nat) : Int)
      else ((s.now * 2048 + fine : Nat) : Int) - s.tipOffset u evt (s.fld (F.TDC_START_SEL_ARG u))
    let b := s.bodyAt (u / 4) ((t / 2048).toNat - 48)
    let flags := if x.flags.testBit 2 then x.flags - 4 + 8 else x.flags
    (s.setTdc u { x with start := some t, last := t, ssn := b.1, goff := b.2, flags := flags }).setFld (F.TDC_STATE_STATE u) 2

/-- A counted stop event (R233): nearer than one PCLK to the event before it, it is lost with COLLIDE. -/
def tdcStop (u fine : Nat) (s : State) : State :=
  let x := s.tdc u
  let evt := s.fld (F.TDC_STOP_SEL_EVT u)
  match x.start with
  | none => s
  | some t0 =>
    if s.tdcState u ≠ 2 || !s.tdcCounts u || evt = 0 ||
        !s.eventNow evt (s.fld (F.TDC_STOP_SEL_ARG u)) then s
    else
      let t : Int := if evt = 0x0E then ((s.now * 2048 : Nat) : Int)
        else ((s.now * 2048 + fine : Nat) : Int) - s.tipOffset u evt (s.fld (F.TDC_STOP_SEL_ARG u))
      if t - x.last < 2048 then
        (s.setTdc u { x with flags := x.flags ||| 0x20 }).raise (F.TDC_STAT_COLLIDE u)
      else
        let l := x.stops ++ [(t - t0).toNat]
        let s := s.setTdc u { x with stops := l, last := t }
        if max 1 (s.fld (F.TDC_NSTOP_NSTOP u)) ≤ l.length then
          tdcClose u s.now 0 true (s.setTdc u { s.tdc u with result := none, flags := (s.tdc u).flags &&& 0x20 })
        else s

/-- A level gate ends: its change plus the synchroniser delay. -/
def tdcGateClose (u d : Nat) (s : State) : State :=
  if (s.tdc u).level then tdcClose u (s.now + d) 0x10 true s else s

def tdcTimeout (u : Nat) (s : State) : State :=
  let t := (s.tdc u).opens + 640 * s.fld (F.TDC_TMO_TMO u)
  if s.fld (F.TDC_TMO_TMO u) ≠ 0 && t ≤ s.now then tdcClose u t 1 true s else s

/-- 2^32 LSB after the start, 2^21 PCLK. -/
def tdcRange (u : Nat) (s : State) : State :=
  match (s.tdc u).start with
  | some t =>
    let e := (t / 2048).toNat + 2 ^ 21
    if e ≤ s.now then tdcClose u e 1 true s else s
  | none => s

def tdcDisarm (u : Nat) (s : State) : State := tdcClose u s.now 1 false s

/-- R243: the window closes with ABORTED. -/
def tdcAbort (u : Nat) (s : State) : State := tdcClose u s.now 0x80 false s

def tdcAbortQuarter (q : Nat) (s : State) : State := forAll (List.range 4) (fun k s => tdcAbort (4 * q + k) s) s

/-! ### Results (R236) -/

def setStart (u : Nat) (dt fine : Nat) (s : State) : State :=
  let s := (s.setReg (R.TDC_START_DT0 u) (BitVec.ofNat 16 dt)).setReg (R.TDC_START_DT1 u) (BitVec.ofNat 16 (dt / 2 ^ 16))
  let s := (s.setReg (R.TDC_START_DT2 u) (BitVec.ofNat 16 (dt / 2 ^ 32))).setReg (R.TDC_START_DT3 u)
    (BitVec.ofNat 16 (dt / 2 ^ 48))
  s.setFld (F.TDC_START_FINE_FINE u) fine

/-- The result is written at its boundary: registers, DONE and flags, latch 0x92 + k, records. With no start, the
start registers take free values. -/
def tdcResult (u : Nat) (s : State) : State :=
  let x := s.tdc u
  match x.result with
  | none => s
  | some b =>
    if s.now < b then s
    else
      let q := u / 4
      let s := match x.start with
        | some t => setStart u (t / 2048).toNat (t % 2048).toNat s
        | none =>
          let a := s.free
          let c := a.2.free
          setStart u (a.1.toNat + 2 ^ 32 * c.1.toNat) (bitsAt c.2.free.1.toNat 0 11) c.2.free.2
      let s := forAll (List.range 15) (fun i s =>
        let v := x.stops.getD i 0
        (s.setReg (R.TDC_STOP_L u i) (BitVec.ofNat 16 v)).setReg (R.TDC_STOP_H u i) (BitVec.ofNat 16 (v / 2 ^ 16))) s
      let s := ((s.setFld (F.TDC_STATE_NGOT u) x.stops.length).setFld (F.TDC_STATE_STATE u) 0).setTdc u {}
      let s := s.raiseMask (R.TDC_STAT u) (BitVec.ofNat 16 (2 + x.flags))
      let s := if x.flags.testBit 6 then s.report (0x10B + 16 * q) u else s
      let s := (setLatch q (0x92 + u % 4) s).count (0x70 + q) 1
      let st := (if x.flags.testBit 2 then 1 else 0) + (if x.flags.testBit 3 then 2 else 0) +
        (if x.flags.testBit 4 then 4 else 0) + (if x.flags.testBit 5 then 8 else 0) +
        (if x.flags.testBit 6 then 16 else 0) + tipBit s u
      let dt := match x.start with
        | some t => (t / 2048).toNat
        | none => x.closed
      let fine := match x.start with
        | some t => (t % 2048).toNat
        | none => 0
      let s := timeEmit u dt fine st x.stops x.ssn x.goff (x.flags.testBit 7) s
      if x.rearm && s.bit (F.TDC_CTRL_REARM u) then tdcOpen u b x.level s else s

/-! ### DLLs (R239) -/

/-- The DLL of quarter q has locked. -/
def dllLocked (q : Nat) (s : State) : State :=
  (s.setBit (F.TDCC_DLL_STAT_LOCKED q) true).setDll q { lockTemp := s.temp q, lost := false }

end Sys2Proof.Machine
end

