-- ==== Sys2Proof/Machine/Calib.lean ====
section
/-! DEFINITION. Background calibration slots, their shadows, the maintenance arbiter and what it grants: DLL
re-locks, the Lace survey, absolute sessions, NVM STOREs (13_calibration_nvm.md, R288 to R304; R239 to R241). -/

namespace Sys2Proof.Machine

/-! ### The maintenance arbiter (R300, R301)

Activities: q re-lock of quarter q, 16 survey, 17 session, 18 STORE. -/

def State.slotRuns (s : State) (q : Nat) : Bool := (tabGet (fun _ => none) s.cal.slots q).isSome

/-- Table 13-5: activity `a` conflicts with one that runs. -/
def State.maintConflict (s : State) (a : Nat) : Bool :=
  let run := s.cal.running
  if a < 16 then s.slotRuns a || (run.contains 17 && s.cal.session = a) || run.contains a
  else if a = 16 then run.contains 18 || run.contains 16
  else if a = 17 then
    let q := s.fld F.CAL_MREQ_QUARTER
    s.slotRuns q || run.contains q || run.contains 17
  else run.contains 16 || run.contains 18

/-- A calibration slot of quarter q conflicts with a re-lock or a session there. -/
def State.slotConflict (s : State) (q : Nat) : Bool :=
  s.slotRuns q || s.cal.running.contains q || (s.cal.running.contains 17 && s.cal.session = q)

/-- What else must hold before an activity starts: the quarter's four units DISARMED unless the lock was lost
(R240); T00 and T01 DISARMED for a survey's borrow (R241). -/
def State.maintReady (s : State) (a : Nat) : Bool :=
  if a < 16 then (s.dll a).lost || (List.range 4).all fun k => s.tdcState (4 * a + k) = 0
  else if a = 16 then s.tdcState 0 = 0 && s.tdcState 1 = 0
  else true

/-- The ledger admits the activity's reserve beside those that run (R199). -/
def State.maintFits (s : State) (a : Nat) : Bool :=
  match resOf a with
  | some k => s.resFits k
  | none => true

def State.mayStart (s : State) (a : Nat) : Bool := !s.maintConflict a && s.maintReady a && s.maintFits a

/-- The ledger turns away the waiting activities that no conflict holds back and whose reserve does not fit: RES_WAIT,
counted as 0xAA, once for each request (R199). -/
def resWait (s : State) : State :=
  let l := s.cal.waiting.filter fun a => !s.maintConflict a && !s.maintFits a && !s.cal.resWaits.contains a
  let s := { s with cal := { s.cal with resWaits := s.cal.resWaits.filter s.cal.waiting.contains ++ l } }
  forAll l (fun a s =>
    let s := (s.raise F.LEDG_STAT_RES_WAIT).count 0xAA 1
    if a = 18 then s.raise F.NVM_STAT_ARB_WAIT else s) s

/-- ARB_Q, ARB_C and MREQ.GRANTED show what runs. -/
def showArb (s : State) : State :=
  let run := s.cal.running
  let busy := (List.range 16).foldl (fun m q => if s.slotConflict q then m + 2 ^ q else m) 0
  let s := s.setReg R.CAL_ARB_Q (BitVec.ofNat 16 busy)
  let s := s.setFld F.CAL_ARB_C_ACT (if run.contains 18 then 1 else if run.contains 16 then 2 else 0)
  s.setBit F.CAL_MREQ_GRANTED (run.contains 17)

/-- The set of running activities changes: the ledger settles at the old charges first. -/
def setRunning (l : List Nat) (s : State) : State :=
  let s := ledgerSettle s
  resWait (showArb (showRes { s with cal := { s.cal with running := l } }))

/-- The target of a STORE is erased; the count of STOREs made to it stays (R292). -/
def nvmErase (s : State) : State :=
  match s.nvm.storing with
  | none => s
  | some n =>
    let p := s.storeTarget n
    let c := s.pageDw p 3 + 1
    let s := { s with nvm := { s.nvm with pages := s.nvm.pages.filter (fun e => e.1 / 1024 ≠ p),
                                          erased := s.nvm.pages.filter (fun e => e.1 / 1024 = p),
                                          granted := true, cyc := c, target := p } }
    setPageDw p 3 c s

/-- An activity starts. -/
def maintStart (a : Nat) (s : State) : State :=
  let s := { s with cal := { s.cal with waiting := s.cal.waiting.filter (· ≠ a),
                                        session := if a = 17 then s.fld F.CAL_MREQ_QUARTER else s.cal.session } }
  let s := setRunning (s.cal.running ++ [a]) s
  if a < 16 then (s.setBit (F.TDCC_DLL_STAT_RELOCK_PEND a) false).setBit (F.TDCC_DLL_STAT_RELOCKING a) true
  else if a = 16 then
    let s := s.setBit F.TDCC_BORROW_BORROW true
    let s := if s.laceJoined then s else s.setFld F.LACE_STAT_STATE 2
    { s with lace := { s.lace with surveying := true, surveyReq := false } }
  else if a = 18 then nvmErase s
  else s

/-- An activity waits: flagged by the arbiter on a conflict, by the ledger without reserve; each counts 0xAA. -/
def maintWait (a : Nat) (s : State) : State :=
  let s := { s with cal := { s.cal with waiting := s.cal.waiting ++ [a] } }
  let s := if s.maintConflict a then
      let s := (s.raise (if a < 16 then F.CAL_ARB_WAIT_RELOCK_W else if a = 16 then F.CAL_ARB_WAIT_SURV_W
        else if a = 17 then F.CAL_ARB_WAIT_SESS_W else F.CAL_ARB_WAIT_STORE_W)).count 0xAA 1
      if a = 18 then s.raise F.NVM_STAT_ARB_WAIT else s
    else s
  resWait s

/-- Table 13-5: `a` and `b`, of which none is a calibration slot, conflict. -/
def State.maintPair (s : State) (a b : Nat) : Bool :=
  (a = b) || (a = 17 && b = s.cal.session) || (b = 17 && a = s.cal.session) || (15 < a && a ≠ 17 && 15 < b && b ≠ 17)

/-- An activity that started in this MCLK cycle gives its place back to a request that ranks before it (R301). -/
def takeBack (b : Nat) (s : State) : State :=
  let s := setRunning (s.cal.running.filter (· ≠ b)) s
  if b < 16 then (s.setBit (F.TDCC_DLL_STAT_RELOCK_PEND b) true).setBit (F.TDCC_DLL_STAT_RELOCKING b) false
  else if b = 18 then
    let rest := s.nvm.pages.filter fun e => e.1 / 1024 ≠ s.nvm.target
    { s with nvm := { s.nvm with granted := false,
                                 pages := s.nvm.erased.foldl (fun t e => tabSet (fun _ => 0) t e.1 e.2) rest } }
  else s

/-- The running activities that started at requests of this MCLK cycle. -/
def State.startedNow (s : State) : List Nat :=
  s.cal.running.filter fun b => s.cal.started.contains (b, s.now / 2)

/-- An activity starts at its request. -/
def maintBegin (a : Nat) (s : State) : State :=
  maintStart a { s with cal := { s.cal with
    started := (a, s.now / 2) :: s.cal.started.filter fun e => e.2 = s.now / 2 && e.1 ≠ a } }

/-- The activities of `l` give way to `f`, and wait where they may no longer run (R301). -/
def yieldTo (l : List Nat) (f : State → State) (s : State) : State :=
  l.foldl (fun t b => if t.mayStart b then maintStart b t else maintWait b t) (f (l.foldl (fun t b => takeBack b t) s))

/-- A request: it starts at once, or waits. It ranks before a conflicting one of the same MCLK cycle with a higher
number (R301). -/
def maintRequest (a : Nat) (s : State) : State :=
  let l := s.startedNow.filter fun b => a < b && s.maintPair a b
  if s.cal.running.contains a || s.cal.waiting.contains a then s
  else if s.mayStart a then maintBegin a s
  else if l ≠ [] && (l.foldl (fun t b => takeBack b t) s).mayStart a then yieldTo l (maintBegin a) s
  else maintWait a s

/-- An activity ends or is withdrawn. -/
def maintEnd (a : Nat) (s : State) : State :=
  let s := { s with cal := { s.cal with waiting := s.cal.waiting.filter (· ≠ a) } }
  if s.cal.running.contains a then setRunning (s.cal.running.filter (· ≠ a)) s else s

/-- The waiting activity to grant now: the first that may start, but among those that hold reserve the lowest k
(R199, R301). -/
def State.nextGrant (s : State) : Option Nat :=
  let l := s.cal.waiting.filter fun a => s.mayStart a
  match l.head? with
  | none => none
  | some a => match resOf a with
    | none => some a
    | some _ => [0, 1, 2].findSome? fun k => l.find? fun b => resOf b = some k

def maintGrant (s : State) : State :=
  match s.nextGrant with
  | some a => maintStart a s
  | none => s

/-! ### Re-locks (R239, R240) -/

def relockRequest (q : Nat) (s : State) : State :=
  if !s.quarterOn q || s.cal.running.contains q then s
  else
    let t := s.setBit (F.TDCC_DLL_STAT_RELOCK_PEND q) true
    maintRequest q t

/-- The DLL has lost its lock (R239): windows close, a re-lock follows. -/
def dllLost (q : Nat) (s : State) : State :=
  if !s.bit (F.TDCC_DLL_STAT_LOCKED q) then s
  else
    let s := (s.setBit (F.TDCC_DLL_STAT_LOCKED q) false).raise (F.TDCC_DLL_STAT_LOST q)
    let s := s.report (0x10B + 16 * q) (4 * q)
    let s := forAll (List.range 4) (fun k s => tdcClose (4 * q + k) s.now 0x41 false s) s
    relockRequest q (s.setDll q { s.dll q with lost := true })

def relockComplete (q : Nat) (s : State) : State :=
  if s.cal.running.contains q then
    maintEnd q (dllLocked q (s.setBit (F.TDCC_DLL_STAT_RELOCKING q) false))
  else s

/-! ### Absolute sessions -/

/-- MREQ takes a new value: a session is requested, held, ended or withdrawn (R300). -/
def mreqWrite (w : Word) (s : State) : State :=
  let old := s.reg R.CAL_MREQ
  let req := fieldOf w 4 1 = 1
  let same := fieldOf old 4 1 = 1 && fieldOf old 0 4 = fieldOf w 0 4
  let s := s.setReg R.CAL_MREQ (withField w 5 1 (fieldOf old 5 1))
  if req && same then s
  else
    let s := maintEnd 17 s
    if req then maintRequest 17 s else s

/-! ### STORE (R292) -/

/-- Page 0's current copy holds KEY_LOCK = 1. -/
def State.keyLocked (s : State) : Bool :=
  match s.current 0 with
  | some p => (s.pageDw p 17).testBit 0
  | none => false

def nvmStore (s : State) : State :=
  let n := s.fld F.NVM_SEL_LPN
  if s.nvm.storing.isSome then s
  else if 100000 ≤ s.pageDw (s.storeTarget n) 3 then s.raise F.NVM_STAT_WEAR_OUT
  else if n = 0 && s.keyLocked then s.raise F.NVM_STAT_LOCKED_REF
  else maintRequest 18 ({ s with nvm := { s.nvm with storing := some n, granted := false } }.setBit F.NVM_STAT_RUNNING true)

/-- The read-back of a STORE ends: the staging buffer's content with LPN, GEN, CYC and CRC is in the target, or the
target is left invalid. -/
def nvmStoreComplete (ok : Bool) (s : State) : State :=
  match s.nvm.storing, s.nvm.granted with
  | some n, true =>
    let p := s.nvm.target
    let gen := match s.current n with
      | some c => (s.pageDw c 1 + 1) % 2 ^ 32
      | none => 1
    let s :=
      if ok then
        let s := forAll (List.range 1023) (fun i s => setPageDw p i (s.winGet (0x5C000 + 4 * i)).toNat s) s
        let s := setPageDw p 0 (s.pageDw p 0 / 2 ^ 16 * 2 ^ 16 + n) s
        let s := setPageDw p 3 s.nvm.cyc (setPageDw p 1 gen s)
        setPageDw p 1023 (crc32c (s.pageBytes p 1023)) s
      else (s.raise F.NVM_STAT_VERIFY_ERR).report 0x063 n
    let s := { s with nvm := { s.nvm with storing := none, granted := false } }
    maintEnd 18 ((s.setBit F.NVM_STAT_RUNNING false).raise F.NVM_STAT_DONE)
  | _, _ => s

/-! ### Calibration slots (R294 to R299) -/

def setCalStat (c st : Nat) (s : State) : State := s.setCalCh c { s.calCh c with stat := st }

/-- The engine skips the channel (R297). -/
def State.calSkip (s : State) (c : Nat) : Bool :=
  let v (d : Nat) := s.fld (F.CH_LVL_OUT_OUT c d)
  s.bit (F.CH_STAT_STAGE_ACT c) || !inRange (v 0) (-500) 2000 || !inRange (v 1) (-500) 2000 || v 0 < v 1 + 400 ||
    s.bit (F.CH_STAT_DISC c) || s.ownerFaulted c || s.peOwns c

/-- The slot of channels `cs` runs from `t`, but for those that the engine skips (R297). -/
def calSlotRun (q t : Nat) (cs : List Nat) (s : State) : State :=
  let run := cs.filter fun c => !s.calSkip c
  let s := cs.foldl (fun s c => if run.contains c then s else setCalStat c 3 s) s
  let s := run.foldl (fun s c => (s.setChan c (s.chan c).cut).setBit (F.CH_DRV_CTRL_CAL_ISO c) true) s
  showArb { s with cal := { s.cal with slots := tabSet (fun _ => none) s.cal.slots q (some { start := t, chans := run }) } }

/-- The generators of a slot's channels have played PRBS for its granules 8 to `j`, at most to 472 (Table 13-4). -/
def calPrbs (x : CalSlot) (j : Nat) (s : State) : State :=
  x.chans.foldl (fun s c => s.setCalCh c { s.calCh c with prbs := (s.calCh c).prbs + 128 * (min j 472 - 8) }) s

/-- The slot is over: a channel of the body holds its park state to the welt (R294). -/
def calSlotOver (x : CalSlot) (s : State) : State :=
  x.chans.foldl (fun s c =>
    if (s.chan c).calHeld then
      let s := parkPin c (s.setChan c { s.chan c with calHeld := false })
      s.setChan c { s.chan c with calHeld := true }
    else s) s

/-- A CALWIN body starts at `t` with mask group `grp` (R294): its channels are handed over in their park state; a slot
runs if the engine is on and the arbiter grants it. -/
def calSlotStart (q grp t : Nat) (s : State) : State :=
  let cs := (members (s.maskGroup q grp)).map (q * 64 + ·)
  let s := cs.foldl (fun s c =>
    let s := parkPin c s
    s.setChan c { s.chan c with calHeld := true }) s
  let l := s.startedNow.filter fun b => b = q || (b = 17 && s.cal.session = q)
  if !s.bit F.CAL_CTRL_BG_EN then s
  else if (l.foldl (fun t b => takeBack b t) s).slotConflict q then
    let s := (s.raise F.CAL_ARB_WAIT_SLOT_REF).count 0xAA 1
    cs.foldl (fun s c => setCalStat c 2 s) s
  else yieldTo l (calSlotRun q t cs) s

/-- The actions of Table 13-4 at granule `j` of the slot. -/
def calSlotGranule (q j : Nat) (s : State) : State :=
  match tabGet (fun _ => none) s.cal.slots q with
  | none => s
  | some x =>
    if j = 8 then x.chans.foldl (fun s c =>
      (s.setChan c { s.chan c with on := true, turns := [], parked := false }).setBit (F.CH_DRV_CTRL_LOOP c) true) s
    else if j = 472 then x.chans.foldl (fun s c =>
      (s.setChan c (s.chan c).cut).setBit (F.CH_DRV_CTRL_LOOP c) false) s
    else if j = 496 then x.chans.foldl (fun s c => s.setBit (F.CH_DRV_CTRL_CAL_ISO c) false) s
    else s

/-- The slot's outcome on one channel (R295 to R297). -/
def calUpdate (c : Nat) (n trans k : Nat) (s : State) : State :=
  let q := c / 64
  let x := s.calCh c
  if n < 287 || 28385 < n || trans = 0 then
    (setCalStat c 5 (s.raise F.CAL_STAT_CMP_STUCK)).report (0x10A + 16 * q) c
  else
    let db : Int := s.fld F.CAL_CFG_DEADBAND
    let dx : Int := (n : Int) - 14336
    let dy : Int := 2 * (k : Int) - trans
    let sv := clampInt (-512) 512 (x.shadowS + (if db < dx then 1 else if dx < -db then -1 else 0))
    let ev := clampInt (-1024) 1024 (x.shadowE + (if db < dy then -1 else if dy < -db then 1 else 0))
    let lim := sv = 512 || sv = -512 || ev = 1024 || ev = -1024
    let s := s.setCalCh c { x with shadowS := sv, shadowE := ev, ageBase := (s.q q).bodyGran, stat := 1, stale := false }
    if lim then (s.raise F.CAL_STAT_DRIFT_LIM).report 0x062 c else s

/-- The end of a slot (R295): the shadow updates of its channels; what is not measured reads as a stuck comparator's. -/
def calSlotEnd (q : Nat) (rs : List CalResult) (s : State) : State :=
  match tabGet (fun _ => none) s.cal.slots q with
  | none => s
  | some x =>
    if s.now < x.start + 4096 then s
    else
      let s := x.chans.foldl (fun s c =>
        let r := (rs.find? fun r => r.ch = c).getD { ch := c, above := 0, trans := 0, early := 0 }
        calUpdate c r.above r.trans r.early s) (calSlotOver x (calPrbs x 472 s))
      resWait (showArb ({ s with cal := { s.cal with slots := tabErase s.cal.slots q } }.count (0xB0 + q) 1))

/-- The body ends: its channels come back from the engine. -/
def calRelease (q : Nat) (s : State) : State :=
  forAll (List.range 64) (fun i s =>
    let c := q * 64 + i
    if (s.chan c).calHeld then s.setChan c { s.chan c with calHeld := false } else s) s

/-- A slot in progress ends with no update (R302). -/
def calSlotAbort (q : Nat) (s : State) : State :=
  match tabGet (fun _ => none) s.cal.slots q with
  | none => calRelease q s
  | some x =>
    let s := calPrbs x ((s.now - x.start) / 8) s
    let s := x.chans.foldl (fun s c =>
      let s := s.setChan c (s.chan c).cut
      setCalStat c 4 ((s.setBit (F.CH_DRV_CTRL_LOOP c) false).setBit (F.CH_DRV_CTRL_CAL_ISO c) false)) s
    calRelease q (resWait (showArb { s with cal := { s.cal with slots := tabErase s.cal.slots q } }))

/-- Body granules since the channel's last completed slot (R298). -/
def State.calAge (s : State) (c : Nat) : Nat := (s.q (c / 64)).bodyGran - (s.calCh c).ageBase

/-- The age limit of a channel of an enabled site (R298), once for each overrun. -/
def calAgeLimit (c : Nat) (s : State) : State :=
  let q := c / 64
  let lim := max 1 (s.fld F.CAL_CFG_MAX_AGE) * 80000
  let owned := match (s.chan c).site with
    | some i => (s.fld (F.QSEQ_SITE_CFG_SITE_EN q)).testBit i
    | none => false
  if owned && s.bit F.CAL_CFG_AGE_EN && lim ≤ s.calAge c && !(s.calCh c).stale then
    ((s.setCalCh c { s.calCh c with stale := true }).raise F.CAL_STAT_CAL_STALE).report (0x10A + 16 * q) c
  else s

/-- CORR_D and CORR_C show the sum of the drift and the temperature term (R124). -/
def showCorr (c : Nat) (s : State) : State :=
  let q := c / 64
  let i := c % 64
  let x := s.chan c
  let vd := BitVec.ofInt 16 (x.driftD + x.temp)
  let vc := BitVec.ofInt 16 (x.driftC + x.temp)
  let s := if s.reg (R.QTS_CORR_D q i) = vd then s else s.setReg (R.QTS_CORR_D q i) vd
  if s.reg (R.QTS_CORR_C q i) = vc then s else s.setReg (R.QTS_CORR_C q i) vc

/-- The temperature term moves at welts only, while TCOMP_EN = 1 (R124, R348). -/
def tempTerm (c : Nat) (s : State) : State :=
  let q := c / 64
  if s.bit (F.QTS_CFG_TCOMP_EN q) then
    let v := (s.timingTrim c 4 * (s.temp q - 400) + 2048) / 4096
    if v = (s.chan c).temp then s else showCorr c (s.setChan c { s.chan c with temp := v })
  else s

/-- A channel's corrections come into force: drift terms and comparator threshold (R144, R299). -/
def putCorr (c : Nat) (d k v : Int) (s : State) : State :=
  showCorr c ((s.setReg (R.CH_CMP_CORR c) (BitVec.ofInt 16 v)).setChan c
    { s.chan c with driftD := d, driftC := k, corrPend := none })

/-- A commit point of quarter q at `t` copies the shadows into the corrections in force (R299): at once when `t` is a
granule boundary, else at the next one (R144). -/
def calCommit (q t : Nat) (s : State) : State :=
  if !s.bit (F.QTS_CFG_DRIFT_EN q) then s
  else forAll (List.range 64) (fun i s =>
    let c := q * 64 + i
    let x := s.calCh c
    let y := s.chan c
    if x.shadowS = 0 && x.shadowE = 0 && s.reg (R.CH_CMP_CORR c) = 0 && y.driftD = 0 && y.driftC = 0 && y.corrPend = none then s
    else
      let d := x.shadowE / 2
      if t % 8 = 0 then putCorr c (-d) (x.shadowE - d) x.shadowS s
      else s.setChan c { y with corrPend := some (granuleNext t, -d, x.shadowE - d, x.shadowS) }) s

end Sys2Proof.Machine
end

