-- ==== Sys2Proof/Machine/Ports.lean ====
section
/-! DEFINITION. The serial ports of one design: SPX0 (port 16) and the protocol engines (ports 0 to 15): starts,
refusals, master and slave units, their data, aborts (12_serial_ports.md, R266 to R275, R278, R284). -/

namespace Sys2Proof.Machine

/-! ### Flags of a port -/

/-- A STAT bit: 1 DONE, 2 BUSYSENT, 3 UNDERRUN, 4 FRAME_ERR, 5 OVERCLOCK, 6 INCOMPLETE, 7 START_LOST, 8 ABORTED,
9 PIN_CONFLICT, 10 CFG_ERR, 11 BUSY_TMO. -/
def portRaise (n bit : Nat) (s : State) : State := s.raiseMask (portBase n + 0x1C) (BitVec.ofNat 16 (2 ^ bit))

def portState (n st : Nat) (s : State) : State := s.setFld ⟨portBase n + 0x1C, 12, 2⟩ st

/-- A trigger latch of an engine's quarter; SPX0 has none. -/
def portLatch (n trg : Nat) (s : State) : State := if n < 16 then setLatch n trg s else s

/-! ### Starts (R272, R273) -/

/-- IO lane i is mapped on engine n. -/
def State.pinMapped (s : State) (n j : Nat) : Bool := s.bit (F.PE_PIN_EN n j)

/-- The lanes that a phase with a lane code uses: IO1 only where data come back. -/
def phaseLanes (code : Nat) (data : Bool) : List Nat :=
  if code = 0 then (if data then [0, 1] else [0]) else List.range (laneBits code)

/-- The setup fails R273. -/
def State.setupBad (s : State) (n : Nat) (u : List Word) : Bool :=
  let cb := suField u 2 0 5
  let ab := suField u 2 5 6
  let lanes := (if 0 < cb then phaseLanes (suLanes u 0) false else []) ++
    (if 0 < ab then phaseLanes (suLanes u 1) false else []) ++ phaseLanes (suLanes u 2) true ++
    (if (List.range 3).any fun ph => suLanes u ph = 3 then List.range 8 else [])
  let sck := n * 64 + s.fld (F.PE_PIN_CH n 0)
  16 < cb || 32 < ab ||
    (n < 16 && (suField u 0 12 1 = 1 || !s.pinMapped n 0 ||
      (List.range 4).any (fun i => (suField u 0 7 4).testBit i && !s.pinMapped n (1 + i)) ||
      lanes.any (fun i => !s.pinMapped n (5 + i)) ||
      (!s.portSlave n && fieldOf (portReg s n 4) 0 12 = 0 && s.bit (F.CH_STAT_STAGE_ACT sck))))

/-- Start setup k at `t`: a master's unit runs, a slave's setup is armed; or the start is refused. -/
def portStart (n k t : Nat) (s : State) : State :=
  let x := s.port n
  let u := s.portSetup n k
  if x.unit.isSome || x.armed.isSome || !s.portEn n || (n < 16 && (s.qstate n = 9 || s.chipFault)) then
    portLatch n 0x91 (portRaise n 7 s)
  else if s.setupBad n u then
    let s := portRaise n 10 s
    portLatch n 0x91 (if n < 16 then s.report (0x10C + 16 * n) 0 else s)
  else if s.portSlave n then portState n 1 (s.setPort n { x with armed := some u })
  else portState n 2 (s.setPort n { x with unit := some { setup := u, t0 := max t x.idleTo, slave := false,
                                                          cpol := fieldOf (portReg s n 4) 13 1 = 1 } })

/-- CTRL.START takes effect at the next granule boundary; on SPX0, which follows no quarter, it is placed at once. -/
def portStartWrite (n : Nat) (s : State) : State :=
  let k := fieldOf (portReg s n 0) 4 4
  let t := granuleNext s.now
  if n = 16 then portStart n k t s
  else s.setPort n { s.port n with startAt := some (t, k) }

/-- A software start whose boundary is at or before `b` takes effect. -/
def portSettle (n b : Nat) (s : State) : State :=
  match (s.port n).startAt with
  | some (t, k) => if t ≤ b then portStart n k t (s.setPort n { s.port n with startAt := none }) else s
  | none => s

/-- PXFER starts setup k at body start `t`; a software start of the same boundary is refused (R272). -/
def peStart (n k t : Nat) (s : State) : State :=
  match (s.port n).startAt with
  | some (b, _) =>
    if b < t then portStart n k t (portSettle n b s)
    else if b = t then
      let s := s.setPort n { s.port n with startAt := none }
      portLatch n 0x91 (portRaise n 7 (portStart n k t s))
    else portStart n k t s
  | none => portStart n k t s

/-- A body's group contains a PE channel (R270). -/
def peConflict (q group : Nat) (s : State) : State :=
  if (members group).any fun i => s.peOwns (q * 64 + i) then (portRaise q 9 s).report (0x10C + 16 * q) 0 else s

/-! ### Data (R267, R269) -/

/-- Store received data bits in wire order from the setup's dword offset, wrapping at the buffer's end. -/
def rxStore (n : Nat) (u : List Word) (bits : List Bool) (s : State) : State :=
  (bits.zipIdx).foldl (fun s e =>
    let a := portBase n + 0x1800 + 4 * ((suField u 7 0 9 + e.2 / 32) % 512)
    let p := if suField u 0 11 1 = 1 then e.2 % 32 else 31 - e.2 % 32
    let m : Dword := BitVec.ofNat 32 (2 ^ p)
    let v := s.winGet a
    s.winSet a (if e.1 then v ||| m else v &&& ~~~m)) s

/-- A sending data phase: the dwords that go out and what it leaves of AVAIL; a slave without a dword sends
BUSY_PAT, a phase that runs dry repeats the word before (R269), or BUSY_PAT in a slave that stops (R284). -/
def txSend (n : Nat) (slave : Bool) (u : List Word) (s : State) : State × Bool :=
  let need := ceilDiv (suLen u) 32
  let av := fieldOf (portReg s n 0x18) 0 10
  let x := s.port n
  if slave && av = 0 then
    let p := fieldOf (portReg s n 0xC) 0 8
    let w : Dword := BitVec.ofNat 32 (p * 0x1010101)
    (portRaise n 2 (s.setPort n { x with sent := List.replicate need w }), false)
  else
    let k := min need (s.txHas n)
    let ds := (List.range k).map fun i => s.txDword n u i
    let stops := slave && (match x.unit with
      | some v => v.abort
      | none => false)
    let last := if stops then BitVec.ofNat 32 (fieldOf (portReg s n 0xC) 0 8 * 0x1010101)
      else (ds.getLast?).getD ((x.sent.getLast?).getD 0)
    let s := s.setPort n { x with sent := ds ++ List.replicate (need - k) last }
    let s := s.setFld ⟨portBase n + 0x18, 0, 10⟩ (av - k)
    if k < need then (portRaise n 3 s, true) else (s, false)

/-- Data come in: the slave sends to a master, the master to a slave, and a classic phase is full duplex. -/
def receives (slave : Bool) (u : List Word) : Bool := suDir u ≠ slave || suLanes u 2 = 0
def sends (slave : Bool) (u : List Word) : Bool := suDir u = slave

/-- The engine gives its channels back: selects released, lanes high-impedance, and outside a body their park states
(R148, R270, R284). -/
def peGiveBack (n : Nat) (s : State) : State :=
  if 16 ≤ n || s.portEn n || (s.port n).unit.isSome then s
  else forAll (List.range 13) (fun j s =>
    if s.pinMapped n j then
      let c := n * 64 + s.fld (F.PE_PIN_CH n j)
      let s := s.setChan c (s.chan c).cut
      if s.qstate n = 1 then s else parkPin c s
    else s) s

/-- A unit ends at `e` with `cnt` bits stored: an abort shows now, DONE later. -/
def portUnitEnd (n e cnt : Nat) (err : Bool) (s : State) : State :=
  let x := s.port n
  let ab := match x.unit with
    | some u => u.abort
    | none => false
  let idle := match x.unit with
    | some u => if u.slave then x.idleTo else e + s.halves n (max 1 (fieldOf (portReg s n 8) 8 4))
    | none => x.idleTo
  let s := s.setPort n { x with
    unit := none, last := x.unit.map (fun u => (u, e)), idleTo := idle,
    dones := x.dones ++ [(granuleAt (e + 64), err || ab, cnt)] }
  let s := peGiveBack n (portState n 0 s)
  if ab then portLatch n 0x91 (portRaise n 8 s) else s

/-- A master unit's end (R274): `bits` came in on the in lane, after `busy` busy beats. -/
def portMasterEnd (n : Nat) (bits : List Bool) (busy : Nat) (s : State) : State :=
  match (s.port n).unit with
  | none => s
  | some u =>
    let bm := fieldOf (portReg s n 0xC) 8 8
    let waits := bm ≠ 0 && suDir u.setup
    let busy := if waits then min busy bm else 0
    let e := s.masterEnd n u busy
    if u.slave || s.now < e then s
    else if waits && bm ≤ busy then portUnitEnd n e 0 true (portRaise n 11 s)
    else
      let tx := if sends false u.setup then txSend n false u.setup s else (s, false)
      let rx := receives false u.setup
      let got := (List.range (suLen u.setup)).map fun i => bits.getD i false
      let s := if rx then rxStore n u.setup got tx.1 else tx.1
      portUnitEnd n e (if rx then suLen u.setup else 0) tx.2 s

/-- A select assertion starts an armed slave unit (R272), whose CPOL is SCK's level then (R268). -/
def portSelect (n : Nat) (sck : Bool) (s : State) : State :=
  let x := s.port n
  match x.armed with
  | some u => portState n 2 (s.setPort n { x with
      armed := none, unit := some { setup := u, t0 := s.now, slave := true, cpol := sck } })
  | none => s

/-- Data bits a slave took in `cycles` SCK cycles. -/
def slaveBits (u : List Word) (cycles : Nat) : Nat :=
  min (suLen u) ((cycles - suHeadCycles u) * suDataBits u)

/-- A select release ends a slave unit after `cycles` SCK cycles (R269). -/
def portRelease (n : Nat) (bits : List Bool) (cycles : Nat) (s : State) : State :=
  match (s.port n).unit with
  | none => s
  | some u =>
    if !u.slave then s
    else
      let c := suCycles u.setup
      let tx := if sends true u.setup && suHeadCycles u.setup < cycles then txSend n true u.setup s else (s, false)
      let s := tx.1
      let cut := cycles < c
      let k := slaveBits u.setup cycles
      let k := if cut then k / 32 * 32 else k
      let rx := receives true u.setup
      let s := if rx then rxStore n u.setup ((List.range k).map fun i => bits.getD i false) s else s
      let s := if cut then portRaise n 4 s else if c < cycles then portRaise n 5 s else s
      portUnitEnd n s.now (if rx then k else 0) (tx.2 || cycles ≠ c) s

/-- A slave sees no SCK edge for IDLE_TMO (R269): the partial word is stored and closed with INCOMPLETE. -/
def portIdle (n : Nat) (bits : List Bool) (cycles : Nat) (s : State) : State :=
  match (s.port n).unit with
  | none => s
  | some u =>
    let tmo := 6400 * max 1 (fieldOf (portReg s n 0x10) 0 8)
    if !u.slave || s.now < u.t0 + tmo then s
    else
      let tx := if sends true u.setup && suHeadCycles u.setup < cycles then txSend n true u.setup s else (s, false)
      let s := tx.1
      let k := slaveBits u.setup cycles
      let rx := receives true u.setup
      let s := if rx then rxStore n u.setup ((List.range k).map fun i => bits.getD i false) s else s
      let s := if suCycles u.setup < cycles then portRaise n 5 s else s
      let s := (portRaise n 6 s).setFld ⟨portBase n + 0x24, 0, 5⟩ (if rx then k % 32 else 0)
      portUnitEnd n s.now (if rx then k else 0) true s

/-- DONE at its boundary (R274, R275). -/
def portDone (n : Nat) (s : State) : State :=
  let x := s.port n
  match x.dones with
  | [] => s
  | (t, err, cnt) :: rest =>
    if s.now < t then s
    else
      let s := (portRaise n 1 (s.setPort n { x with dones := rest })).setFld ⟨portBase n + 0x20, 0, 15⟩ cnt
      portLatch n (if err then 0x91 else 0x90) s

/-- A sending master unit has launched more dwords than TX gave it: the phase stays dry (R269). -/
def portDry (n : Nat) (s : State) : State :=
  match (s.port n).unit with
  | some u =>
    if s.txHas n < s.txBegun n u then
      s.setPort n { s.port n with unit := some { u with dry := some (s.txHas n) } }
    else s
  | none => s

/-- TX_ADD: dwords become available (Table 12-8). -/
def portTxAdd (n k : Nat) (s : State) : State :=
  let s := portDry n s
  s.setFld ⟨portBase n + 0x18, 0, 10⟩ (min 512 (fieldOf (portReg s n 0x18) 0 10 + k))

/-! ### Disable and park (R284) -/

/-- The port stops: a unit in flight completes and then shows ABORTED; without one it shows at once. -/
def portAbort (n : Nat) (s : State) : State :=
  let x := s.port n
  if !s.portEn n then s
  else match x.unit with
    | some u => s.setPort n { x with unit := some { u with abort := true }, armed := none, startAt := none }
    | none => portLatch n 0x91 (portRaise n 8 (portState n 0 (s.setPort n { x with armed := none, startAt := none })))

def peAbort (q : Nat) (s : State) : State := portAbort q s

/-- The engine takes its channels: what the timing logic drove on them ends (R270). -/
def peTake (n : Nat) (s : State) : State :=
  if 16 ≤ n then s
  else forAll ((List.range 13).filter (s.pinMapped n)) (fun j s =>
    let c := n * 64 + s.fld (F.PE_PIN_CH n j)
    s.setChan c (s.chan c).cut) s

/-- CTRL takes a new value: EN falling stops the port. -/
def portCtrlWrite (n : Nat) (w : Word) (s : State) : State :=
  let old := s.portEn n
  let s := if fieldOf w 0 1 = 0 then portAbort n s else s
  let s := s.setReg (portBase n) w
  if fieldOf w 0 1 = 0 then (if old then peGiveBack n s else s) else if old then s else peTake n s

/-- WARM, COLD and FULL reset: units in flight are abandoned. -/
def portReset (n : Nat) (s : State) : State := s.setPort n {}

end Sys2Proof.Machine
end

