-- ==== Sys2Proof/Machine/Sequencer.lean ====
section
/-! DEFINITION. The quarter sequencer: latches and deferred jumps, stacks, successor selection, stalls, body
start, welts, stop and park (03_sequencer.md, R89, R99, R106, R107, R115). -/

namespace Sys2Proof.Machine

/-! ### Fault flags of the sequencer -/

/-- Set a QSEQ.FAULT bit and report its CONTAINED event with the PC; `atWelt`: the quarter parks at the welt. -/
def seqFault (q : Nat) (f : Fld) (pc : Nat) (atWelt : Bool) (s : State) : State :=
  let t := (s.raise f).setFld (F.QSEQ_FAULT_PC_FAULT_PC q) pc
  { t with reported := t.reported ++ [{ src := 0x100 + 16 * q, cls := 1, addr := pc, time := s.now, quarter := q,
                                        atWelt := atWelt }] }

/-- Report a CONTAINED event of the quarter that parks it at the welt (R89, R115). -/
def reportAtWelt (src addr : Nat) (s : State) : State :=
  { s with reported := s.reported ++ [{ src := src, cls := 1, addr := addr, time := s.now, atWelt := true }] }

/-! ### Transactions of a quarter (R44) -/

/-- The base of a transaction unit: quarter n, or 16 for the chip's (Table 2-3). -/
def txnBase (u : Nat) : Nat := if u < 16 then R.QTXN_CTRL u else 0x6C000

def txnState (s : State) (u : Nat) : Nat := fieldOf (s.reg (txnBase u + 8)) 0 2
def txnOwner (s : State) (u : Nat) : Nat := fieldOf (s.reg (txnBase u + 8)) 2 3

def setTxnState (u st owner : Nat) (s : State) : State :=
  s.setReg (txnBase u + 8) (BitVec.ofNat 16 (st + 4 * owner))

/-- The queue and its FILL; what COMMIT brought of the site assignment goes with a queue that is discarded. -/
def setTxnQueue (u : Nat) (l : List PendWrite) (s : State) : State :=
  (s.setTxn u { s.txn u with queue := l, sites := [] }).setReg (txnBase u + 12) (BitVec.ofNat 16 l.length)

/-- Abort an OPEN or PENDING unit: nothing of the queue is applied (R44). -/
def txnAbort (u : Nat) (s : State) : State :=
  if txnState s u = 1 || txnState s u = 2 then
    (setTxnState u 3 (txnOwner s u) (setTxnQueue u [] s)).raiseMask (txnBase u + 8) 0x400
  else s

/-- The quarter's timeline goes on at `t`: a CMODE 1 commit accepted in the stall takes effect there (R42). -/
def txnStallEnd (q t : Nat) (s : State) : State :=
  let x := s.txn q
  if txnState s q = 2 && x.cmode = 1 && x.due = 0 then s.setTxn q { x with due := t } else s

/-! ### Stacks (R68, R69) -/

/-- STACK and LOOP show the depths and the innermost count. -/
def showStack (q : Nat) (s : State) : State :=
  let x := s.q q
  let c := (x.loopStack.head?.map (·.2)).getD 0
  ((s.setReg (R.QSEQ_STACK q) (BitVec.ofNat 16 (x.callStack.length + 16 * x.loopStack.length))).setReg
    (R.QSEQ_LOOP_L q) (BitVec.ofNat 16 c)).setReg (R.QSEQ_LOOP_H q) (BitVec.ofNat 16 (c / 2 ^ 16))

/-! ### Fetch, legality and the successor (R56, R58, R60, R89, R115) -/

/-- Fetch a word: corrected words are written back; none where the word is uncorrectable (R56). `stall`: at a stall's
exit decision point, so that the quarter parks at the exit boundary (R408). -/
def fetchWord (q a : Nat) (stall : Bool) (s : State) : State × Option Micro :=
  match checkMicro (s.csWord q a) with
  | none => (seqFault q (F.QSEQ_FAULT_CHK_UNCORR q) a stall s, none)
  | some (w, false) => (s, some w)
  | some (w, true) =>
    (((s.setCsWord q a w).raise (F.QSEQ_FAULT_CHK_CORR q)).report (0x101 + 16 * q) a, some w)

/-- Body length of a word (R59). -/
def bodyLen (w : Micro) (d : Desc) : Nat := if mwDur w = 0 then sdLen d else mwDur w

def reservedTrg (t : Nat) : Bool :=
  (0x19 ≤ t && t ≤ 0x1F) || 0x96 ≤ t

/-- R58. `d` is the segment's descriptor; `inLoop`: the loop stack is not empty. -/
def illegalWord (w : Micro) (d : Desc) (dOk inLoop : Bool) : Bool :=
  let op := mwOp w
  let null := mwSeg w = nullSeg
  op = 0 || 0x10 < op || mwReserved w ≠ 0 ||
    (op = 3 && (5 ≤ mwCond w || (mwCond w = 2 && reservedTrg (mwTrg w)))) ||
    ((op = 0x08 || op = 0x0F) && reservedTrg (mwTrg w)) ||
    (null && mwDur w = 0) ||
    ((null || dOk || mwDur w ≠ 0) && (bodyLen w d < 8 || (op = 0x0E && bodyLen w d < 512))) ||
    (op = 0x06 && mwCnt w = 0) ||
    (!null && dOk && !sdResident d && inLoop)

/-- A control-store word as a fetch would use it, with no effect: corrected where it can be (R56). -/
def State.microAt (s : State) (q a : Nat) : Micro :=
  match checkMicro (s.csWord q a) with
  | some (w, _) => w
  | none => s.csWord q a

/-- Read a segment's descriptor at a fetch point: whether it passes R89 with the set the word names, and whether
it is job-ready (R105). -/
def readCand (q a : Nat) (s : State) : Option Cand :=
  let w := s.microAt q a
  if mwSeg w = nullSeg then none
  else
    let d := s.segDesc (mwSeg w)
    let grp := s.maskGroup q (sdGrp d)
    let snap := s.snapshotSet q (mwTset w) grp
    let ok := s.descOk d (members grp).length (s.snapWidth q snap)
    some { addr := a, desc := d, ok := ok, ready := sdResident d || s.ridReady (sdRid d) }

/-- Select the word at `a` as successor, with everything a decision point does for it (R60, R408). `cands`: what
was read at the fetch point; `pc`: the word that selects; `stall`: it leaves a stall. The snapshot takes the whole set,
of which the body plays the channels that its group has at its start (R95, R115). -/
def selectSucc (q pc a : Nat) (stall : Bool) (cands : List Cand) (s : State) : State × Option Succ :=
  if 0x3FFF < a then
    (seqFault q (F.QSEQ_FAULT_PC_OVF q) pc true s, some { addr := a, word := 0, park := true })
  else match fetchWord q a stall s with
  | (s, none) => (s, if stall then some { addr := a, word := 0, park := true } else none)
  | (s, some w) =>
    let null := mwSeg w = nullSeg
    let cand : Option Cand := if null then none else match cands.find? fun c => c.addr = a with
      | some c => some c
      | none => (readCand q a s).map fun (c : Cand) => { c with ready := sdResident c.desc }
    let d := match cand with
      | some c => c.desc
      | none => 0
    let dOk := match cand with
      | some c => c.ok
      | none => true
    if illegalWord w d dOk (0 < (s.q q).loopStack.length) then
      (seqFault q (F.QSEQ_FAULT_ILLEGAL q) a stall s, if stall then some { addr := a, word := 0, park := true } else none)
    else
      let grp := if null then 0 else s.maskGroup q (sdGrp d)
      let snap := if null then [] else s.snapshotSet q (mwTset w) (2 ^ 64 - 1)
      let tsBad := s.snapFail q (snap.filter fun e => grp.testBit e.ch)
      let s := match tsBad with
        | some (cause, ch) =>
          let code := cause * 2 ^ 11 + ch * 2 ^ 5 + mwTset w
          let s := if (s.q q).tsHeld then s
            else (s.setReg (R.QTS_ERR_TS q) (BitVec.ofNat 16 code)).setQ q { s.q q with tsHeld := true }
          reportAtWelt (0x103 + 16 * q) code (s.raise (F.QTS_STAT_TS_ERR q))
        | none => s
      let s := if dOk then s else
        let s := (s.setFld (F.MEM_ERR_SEG_L_SEG_L q) (mwSeg w)).setFld (F.MEM_ERR_SEG_H_SEG_H q) (mwSeg w / 2 ^ 16)
        reportAtWelt (0x102 + 16 * q) (mwSeg w) (s.raise (F.MEM_QSTAT_DESC_ERR q))
      (s, some { addr := a, word := w, desc := d, snap := snap, park := !dOk || tsBad.isSome,
                 ready := match cand with
                   | some c => c.ready
                   | none => true })

/-- What a word's stack and loop effects give: the new stacks and the successor, or a stack fault (R62, R68, R69).
`taken`: a JCOND's condition. -/
inductive Sel where
  | go (a : Nat)
  | fault (f : Fld)
  deriving DecidableEq, Repr

def stackEffect (q : Nat) (w : Micro) (pc : Nat) (taken : Bool) (x : QSeq) : QSeq × Sel :=
  match mwOp w with
  | 0x02 => (x, .go (mwTgt w))
  | 0x03 => (x, .go (if taken then mwTgt w else pc + 1))
  | 0x04 =>
    if 8 ≤ x.callStack.length then (x, .fault (F.QSEQ_FAULT_CALL_OVF q))
    else ({ x with callStack := (pc + 1) :: x.callStack }, .go (mwTgt w))
  | 0x05 => match x.callStack with
    | [] => (x, .fault (F.QSEQ_FAULT_CALL_UNF q))
    | a :: r => ({ x with callStack := r }, .go a)
  | 0x06 =>
    if 4 ≤ x.loopStack.length then (x, .fault (F.QSEQ_FAULT_LOOP_OVF q))
    else ({ x with loopStack := (pc + 1, mwCnt w) :: x.loopStack }, .go (pc + 1))
  | 0x07 => match x.loopStack with
    | [] => (x, .fault (F.QSEQ_FAULT_LOOP_UNF q))
    | (a, n) :: r =>
      if 1 < n then ({ x with loopStack := (a, n - 1) :: r }, .go a)
      else ({ x with loopStack := r }, .go (pc + 1))
  | _ => (x, .go (pc + 1))

/-- With a pending deferred jump only the closing effects act (R67). -/
def closingEffect (q : Nat) (w : Micro) (tgt : Nat) (x : QSeq) : QSeq × Sel :=
  match mwOp w with
  | 0x05 => match x.callStack with
    | [] => (x, .fault (F.QSEQ_FAULT_CALL_UNF q))
    | _ :: r => ({ x with callStack := r }, .go tgt)
  | 0x07 => match x.loopStack with
    | [] => (x, .fault (F.QSEQ_FAULT_LOOP_UNF q))
    | _ :: r => ({ x with loopStack := r }, .go tgt)
  | _ => (x, .go tgt)

/-- A JCOND's condition (Table 3-5). -/
def condHolds (s : State) (q : Nat) (w : Micro) : Bool :=
  let c := ((s.q q).loopStack.head?.map (·.2))
  match mwCond w with
  | 0 => true
  | 2 => s.latched q (mwTrg w)
  | 3 => match c with
    | some n => n = 1
    | none => true
  | 4 => match c with
    | some n => 1 < n
    | none => false
  | _ => false

/-- The successor is fixed: the jobs and data of the candidates not chosen are discarded (R99). -/
def dropUnchosen (q : Nat) (u : Option Succ) (s : State) : State :=
  discardOthers q ((s.q q).bodyNo + 1) (match u with
    | some u => u.addr
    | none => 0x8000) s

/-- Put the body's decision in place. -/
def putSucc (q : Nat) (r : State × Option Succ) : State :=
  let s := dropUnchosen q r.2 r.1
  let x := s.q q
  let s := s.setQ q { x with body := x.body.map fun b => { b with succ := r.2, decided := true } }
  -- a late latch of the deciding word itself becomes the pending jump now (R67)
  match (x.body.bind (·.lateTgt)) with
  | some t => setDefer q (some t) s
  | none => s

/-- The successor of the word at the decision point of body `b` (R60 to R69, the pseudocode of R67). -/
def decideBody (q : Nat) (b : Body) (s : State) : State :=
  let w := b.word
  let x := s.q q
  match s.deferred q with
  | some tgt =>
    let s := if mwOp w = 3 && condHolds s q w then s.addSat (F.QSEQ_DEFER_OVR_DEFER_OVR q) 1 else s
    let r := closingEffect q w tgt x
    let s := showStack q (setDefer q none (s.setQ q r.1))
    match r.2 with
    | .go a => putSucc q (selectSucc q b.addr a false b.cands s)
    | .fault f => putSucc q (seqFault q f b.addr true s, some { addr := 0, word := 0, park := true })
  | none =>
    let taken := condHolds s q w
    let s := if mwOp w = 3 && mwCond w = 2 && taken then writeLatch q (mwTrg w) false s else s
    let r := stackEffect q w b.addr taken (s.q q)
    let s := showStack q (s.setQ q r.1)
    match r.2 with
    | .go a => putSucc q (selectSucc q b.addr a false b.cands s)
    | .fault f => putSucc q (seqFault q f b.addr true s, some { addr := 0, word := 0, park := true })

/-- HALT's decision: no successor, and a pending deferred jump is dropped (R67). -/
def decideHalt (q : Nat) (b : Body) (s : State) : State :=
  let s := if (s.deferred q).isSome then (setDefer q none s).raise (F.QSEQ_STAT_DEFER_DROP q) else s
  s.setQ q { s.q q with body := some { b with decided := true } }

/-- The elastic word's own selection, at its decision point or at its exit decision point: a deferred jump, else
PC + 1, or TGT after a timeout (R67, R408). -/
def elasticSelect (q : Nat) (w : Micro) (pc : Nat) (stall timeout : Bool) (cands : List Cand) (s : State) :
    State × Option Succ :=
  match s.deferred q with
  | some tgt => selectSucc q pc tgt stall cands (setDefer q none s)
  | none => selectSucc q pc (if timeout then mwTgt w else pc + 1) stall cands s

/-! ### Body start (R59, R61, R77, R99) -/

/-- Candidate successors at a word's body start (Table 4-3). -/
def candidates (s : State) (q : Nat) (w : Micro) (pc : Nat) : List Nat :=
  let x := s.q q
  let cnt := mwCnt w
  match mwOp w with
  | 0x02 | 0x04 => [mwTgt w]
  | 0x03 => if mwCond w = 2 then [pc + 1, mwTgt w] else [if condHolds s q w then mwTgt w else pc + 1]
  | 0x05 => x.callStack.head?.toList
  | 0x07 => match x.loopStack with
    | [] => []
    | (a, n) :: _ => [if 1 < n then a else pc + 1]
  | 0x08 | 0x0F => (pc + 1) :: (if cnt = 0 then [] else [mwTgt w])
  | 0x09 => (pc + 1) :: (if cnt / 2 ^ 16 = 0 then [] else [mwTgt w])
  | 0x10 => []
  | _ => [pc + 1]

/-- Read the candidates and issue their jobs at the fetch point `t` of body number `gen` (R99). -/
def issueCandidates (q gen t : Nat) (w : Micro) (pc : Nat) (s : State) : State × List Cand :=
  ((candidates s q w pc).dedup.filter (· ≤ 0x3FFF)).foldl (fun (acc : State × List Cand) a =>
    match readCand q a acc.1 with
    | none => acc
    | some c =>
      let cw := acc.1.microAt q a
      let n := (members (acc.1.maskGroup q (sdGrp c.desc))).length
      let s := if c.ok && c.ready && !sdHead c.desc then
          addJob q { gen := gen + 1, addr := a, seg := mwSeg cw, desc := c.desc, point := t, next := 0,
                     total := bodyVolume c.desc n (bodyLen cw c.desc) } acc.1
        else acc.1
      (s, acc.2 ++ [c])) (s, [])

/-- The remainder job of a HEAD = 1 body, issued at its own start (R99). -/
def issueRemainder (q t : Nat) (b : Body) (s : State) : State :=
  if sdHead b.desc && sdEnc b.desc ≠ 1 && sdEnc b.desc ≠ 3 then
    let h := min (sdLen b.desc) 64
    let first := neededFrom b.desc b.snap (s.unitMap q b 0 t) h {} / 64
    let total := bodyVolume b.desc (members b.group).length b.len
    if first < total then
      addJob q { gen := b.no, addr := b.addr, seg := mwSeg b.word, desc := b.desc, point := t, next := first,
                 total := total, first := first } s
    else s
  else s

/-- Jobs that were suspended for `d` PCLK go on (R100); those of body number `but` ran on (R106). -/
def shiftJobs (q d but : Nat) (s : State) : State :=
  s.setM q { s.m q with jobs := (s.m q).jobs.map fun j => if j.gen = but then j else { j with point := j.point + d } }

/-- Start the body of a selected word at device time `t`. -/
def startBody (q t : Nat) (u : Succ) (s : State) : State :=
  let x := s.q q
  let no := x.bodyNo + 1
  let s := txnStallEnd q t (discardOthers q no u.addr s)
  let s := markStart q t (mwMark u.word) true (unparkPins q t s)
  let s := if x.ssnFresh then s else s.setSsn q ((s.ssn q + 1) % 2 ^ 32)
  let s := (s.setFld (F.QSEQ_PC_PC q) u.addr).setFld (F.QTS_ACTIVE_TSET q) (mwTset u.word)
  let s := if s.qstate q = 1 then s else s.setQstate q 1
  let null := mwSeg u.word = nullSeg
  let op := mwOp u.word
  let group := if null then 0 else s.maskGroup q (sdGrp u.desc)
  let b : Body :=
    { no := no, start := t, len := bodyLen u.word u.desc, segLen := if null then 0 else sdLen u.desc,
      addr := u.addr, word := u.word, desc := if null then 0 else u.desc, group := group,
      snap := u.snap.filter fun e => group.testBit e.ch, acted := !(0x0B ≤ op && op ≤ 0x0E),
      sums := List.replicate 8 {} }
  let c := issueCandidates q no t u.word u.addr s
  let b := { b with cands := c.2 }
  let s := c.1.setQ q { c.1.q q with bodyNo := no, body := some b, stall := none, ssnFresh := false }
  let s := issueRemainder q t b s
  let s := forAll (List.range 64) (fun i s => tempTerm (q * 64 + i) s) s
  let s := peConflict q group s
  let s := startStages q t b.snap s
  let s := pmuMarkTrigger q (mwMark u.word) t s
  if (s.reg (R.QSEQ_MARK_IRQ_MASK q)).toNat &&& mwMark u.word ≠ 0 then s.raise (F.QSEQ_IRQ_STAT_MARK_EVT q) else s

/-! ### End of a body: summaries (R216) and the boundary's other records -/

/-- SUMMARY records of a body (Tables 9-5, 9-6). -/
def summaries (q : Nat) (b : Body) (goff t : Nat) (aborted : Bool) (s : State) : State :=
  let level := s.fld (F.QRES_LSTAT_LEVEL q)
  forAll (List.range 8) (fun i s =>
    let u := b.sums.getD i {}
    let keep := (s.fld (F.QSEQ_SITE_CFG_SITE_EN q)).testBit i &&
      (if level ≤ 1 then s.bit (F.QRES_CFG_SUM_EN q) else level = 2 && u.fail)
    if keep then
      pushRecord q
        { type := 0x03, flags := s.flagsOf q aborted (s.siteTdist q i) u.shared, quarter := q, ssn := s.ssn q,
          goff := goff, site := some (q * 8 + i), dtime := t,
          payload := pf 24 b.addr + pf 26 (if u.fail then 1 else 0) + pf 28 b.len + pf 32 u.fgoff +
            pf 36 (min u.nfcmp 0xFFFFFFFF) + pf 40 u.chmask,
          ring := s.fld (F.QRES_RT_SUM_RING q), prio := false } s
    else s) s

/-- The rest of a granule boundary's record work, in the order of R214: records that wait, the pending LOSS record,
`bins`, and the ladder's evaluation, once; a parked quarter builds nothing but its ABORTED records (R226). -/
def boundaryEnd (q t : Nat) (bins : State → State) (s : State) : State :=
  let parked := s.qstate q = 9
  let s := if parked then pushWaiting q s else bins (pushPendingLoss q t (pushWaiting q s))
  if (s.r q).ladAt = t + 1 then s
  else
    let s := (if s.prioWaits q then s.count 0x95 1 else s)
    let s := s.setR q { s.r q with ladAt := t + 1 }
    if parked then s else ladderEval q t s

/-! ### Park, stop, stall -/

/-- Stop what a quarter's work in flight holds: PPMU intervals, time-interval windows, the protocol engine, a
calibration slot (R166, R243, R284, R302). -/
def abortUnits (q : Nat) (s : State) : State :=
  let s := forAll (List.range 64) (fun i s => pmuAbort (q * 64 + i) s) s
  calSlotAbort q (peAbort q (tdcAbortQuarter q s))

/-- A pending START is discarded (R335). -/
def dropPending (q : Nat) (s : State) : State :=
  if s.pwr.pendStart.contains q then
    { s with pwr := { s.pwr with pendStart := s.pwr.pendStart.filter (· ≠ q) } }.raise (F.QSEQ_STAT_START_REFUSED q)
  else s

/-- The quarter parks at the boundary `t`, in whatever state it is: its work in flight ends, the bins are decided, the
pins parked, the transaction aborted, the stream buffer discarded (R80, R108, R209). -/
def parkAt (q t goff : Nat) (aborted : Bool) (s : State) : State :=
  let s := abortUnits q s
  let s := boundaryEnd q t (binSites q .park aborted goff t) s
  let s := parkPins q (markStop q t (setDefer q none s))
  let s := s.setQ q { s.q q with body := none, stall := none, startDue := none, first := none, stopReq := false,
                                 laceHeld := none, parkDue := none }
  let s := txnAbort q (flushStream q s)
  s.setQstate q 9

/-- The quarter parks at `t`, records of the interrupted body ABORTED (R80). -/
def parkNow (q : Nat) (s : State) : State :=
  let t := (s.q q).parkDue.getD (granuleAt s.now)
  let s := abortUnits q s
  match (s.q q).body with
  | some b => parkAt q t (b.played - 1) true (summaries q b (b.played - 1) t true (pushWaiting q (abortWaiting q s)))
  | none => parkAt q t (s.lastGoff q) false s

/-- A granule of the quarter's body is in flight. -/
def State.inFlight (s : State) (q : Nat) : Bool :=
  match (s.q q).body with
  | some b => s.qstate q = 1 && s.patternClock && !s.heldAt q s.now && (b.played < b.len || s.now < b.welt)
  | none => false

/-- The quarter parks after the granule in flight; with none in flight, at once (R27, R80). -/
def parkQuarter (q : Nat) (s : State) : State :=
  let s := dropPending q s
  if s.qstate q = 9 then s
  else if s.inFlight q then
    let x := s.q q
    s.setQ q { x with parkDue := some (x.parkDue.getD (granuleNext s.now)) }
  else parkNow q s

/-- The granule that was in flight has ended. -/
def parkMoment (q : Nat) (s : State) : State :=
  match (s.q q).parkDue with
  | some t => if t ≤ s.now then parkNow q s else s
  | none => s

/-- STOP's or HALT's end: pins parked, HALTED, the bins decided (R79, R209). -/
def haltQuarter (q t : Nat) (m : BinMoment) (goff : Nat) (aborted : Bool) (s : State) : State :=
  let s := txnStallEnd q t (boundaryEnd q t (binSites q m aborted goff t) s)
  let s := parkPins q (markStop q t (setDefer q none s))
  let s := s.setQ q { s.q q with body := none, stall := none, startDue := none, first := none, stopReq := false,
                                 laceHeld := none, parkDue := none }
  (discardOthers q ((s.q q).bodyNo + 1) 0x8000 s).setQstate q 8

/-- Enter a stall at the welt (R70): the timeline stops, the pins but the clock pins park. -/
def enterStall (q st : Nat) (x : Stall) (s : State) : State :=
  let s := markStop q x.welt (stallPins q x.clocks s)
  (s.setQ q { s.q q with body := none, stall := some x }).setQstate q st

/-- The successor's segment is not ready: REFILL_HOLD at `t` (R75, R106). `clk`: the clock-class pins, which run on. -/
def enterRefillHold (q t : Nat) (u : Succ) (clk : List PinEntry) (smask : Nat) (s : State) : State :=
  let s := markStop q t (stallPins q clk s)
  let s := tagDisturbed q smask (s.setQ q { s.q q with
    body := none, stall := some { addr := u.addr, word := u.word, welt := t, succ := some u, clocks := clk } })
  let s := ((s.setQstate q 6).raise (F.MEM_QSTAT_REFILL_LATE q)).count (0x40 + q) 1
  if s.bit (F.QSEQ_CFG_REFILL_LACE_HOLD q) && s.laceJoined then laceRequest (1 + q) 4 0 q t s else s

/-- Go on to a selected successor at boundary `t`: park, hold or start its body. `goff`: the last granule of the body
that ends there. -/
def enterSucc (q t goff : Nat) (u : Option Succ) (clk : List PinEntry) (smask : Nat) (s : State) : State :=
  match u with
  | none => parkAt q t goff false s
  | some u =>
    if u.park then
      -- a fault state of the quarter that opened before the welt forces its channels now (Table 16-2)
      let s := parkAt q t goff false s
      if s.quarterFault q then forAll (List.range 64) (fun i s => forceChan (q * 64 + i) s) s else s
    else if !u.ready then enterRefillHold q t u clk smask s
    else startBody q t u s

/-! ### Start (R79, R196, R230, R335) -/

/-- Clear every latch of the quarter (R64). -/
def clearLatches (q : Nat) (s : State) : State := showFlags q (s.setQ q { s.q q with latch := 0 })

/-- START is accepted in IDLE and HALTED, and in PARKED, while no fault state of the quarter or chip is open, with
a valid START_MODE (R79), in PLL mode (R312). -/
def State.startAllowed (s : State) (q : Nat) : Bool :=
  s.stopped q && !s.quarterFault q && !s.chipFault && s.fld (F.QSEQ_CTRL_START_MODE q) ≠ 3 &&
    (s.q q).startDue.isNone && s.fld F.CLK_STAT_CORE_ACT = 2

/-- START's effect once accepted (R79): stacks, latches and deferred jump cleared, PC and SSN set, the first word
selected, the start moment armed. -/
def armStart (q : Nat) (s : State) : State :=
  let a := s.fld (F.QSEQ_START_ADDR_ADDR q)
  let mode := s.fld (F.QSEQ_CTRL_START_MODE q)
  let s := setDefer q none (clearLatches q s)
  let s := s.setQ q { s.q q with callStack := [], loopStack := [], stopReq := false, body := none, stall := none }
  let s := (showStack q s).setFld (F.QSEQ_PC_PC q) a
  let keep := s.bit (F.QSEQ_CFG_SSN_KEEP q)
  let s := if keep then s else s.setSsn q 0
  let s := s.setQ q { s.q q with ssnFresh := !keep }
  let s := s.setM q { s.m q with lfsr := [] }
  let s := ((s.setReg (R.QTS_CLIP_CNT q) 0).setReg (R.MEM_MIN_SLACK q) 0xFFFF).setReg (R.MEM_STAGE_PEAK q) 0
  let s := ledgerStart q (resultsStart q s)
  -- a START accepted in HOLD moves the part to RUN (R329)
  let s := if s.fld F.PWR_STAT_STATE = 1 then (s.setFld F.PWR_STAT_STATE 0).raise F.PWR_STAT_STATE_EVT else s
  let r := selectSucc q a a false [] s
  let u := r.2.map fun u => { u with ready := true }
  let s := r.1.setQ q { r.1.q q with first := u, startDue := if mode = 0 then some (granuleNext s.now) else none }
  if mode = 0 then (if s.qstate q = 9 then s.setQstate q 0 else s) else s.setQstate q 10

/-- A ring that a START needs is not enabled (R230). -/
def State.routeBad (s : State) (q : Nat) : Bool :=
  !(s.ring (s.fld (F.QRES_RT_BIN_RING q))).on || !(s.ring (s.fld (F.QRES_RT_CTL_RING q))).on

/-- START (R79): refused in other states, where the load check that it ran failed (R196), or while a needed ring is off
(R230). -/
def qStart (q : Nat) (checked : Bool) (s : State) : State :=
  let s' := if s.routeBad q then s.raise (F.QRES_STAT_ROUTE_ERR q) else s
  if checked && s.startAllowed q && !s.routeBad q then armStart q s else s'.raise (F.QSEQ_STAT_START_REFUSED q)

/-- A START is written: the load check runs (R196). While the quarter's levels settle the START is held pending; a second
one is refused (R335). -/
def qStartWrite (q : Nat) (s : State) : State :=
  let c := loadChecks s
  let s := c.1
  if !(s.reg R.PWR_QSETTLE).getLsbD q then qStart q c.2 s
  else if !c.2 || s.pwr.pendStart.contains q then s.raise (F.QSEQ_STAT_START_REFUSED q)
  else { s with pwr := { s.pwr with pendStart := s.pwr.pendStart ++ [q] } }

/-- STOP (R79). -/
def qStop (q : Nat) (s : State) : State :=
  let s := dropPending q s
  let x := s.q q
  match s.qstate q with
  | 1 => setDefer q none (s.setQ q { x with stopReq := true })
  | 7 =>
    let goff := match x.body with
      | some b => b.played - 1
      | none => 0
    let s := match x.body with
      | some b => summaries q b goff s.now true (pushWaiting q s)
      | none => s
    abortUnits q (haltQuarter q (granuleAt s.now) .stop goff x.body.isSome s)
  | 10 => (s.setQ q { x with startDue := none, first := none, laceHeld := none }).setQstate q 8
  | st =>
    if 2 ≤ st && st ≤ 6 then haltQuarter q (granuleAt s.now) .stop (s.lastGoff q) false s
    else if x.startDue.isSome then (s.setQ q { x with startDue := none, first := none, laceHeld := none }).setQstate q 8
    else s

/-- RELEASE ends a HOLD stall whose wait has not run out (R73): the exit four granules after the first boundary at or
after the write. -/
def qRelease (q : Nat) (s : State) : State :=
  let x := s.q q
  if s.qstate q = 5 then
    s.setQ q { x with stall := x.stall.map fun y =>
      if y.exit.isNone && y.before s.now then { y with exit := some (max y.welt (granuleAt s.now) + 32) } else y }
  else s

/-- CNT_CLR (Table 3-8). -/
def qCntClr (q : Nat) (s : State) : State := (s.setReg (R.QSEQ_LATE q) 0).setReg (R.QSEQ_DEFER_OVR q) 0

/-- DISABLE: a quarter in flight loses its transaction at once (R44) and parks after its granule (R27). -/
def qDisable (q : Nat) (s : State) : State := parkQuarter q (if s.stopped q then s else txnAbort q s)

/-- The actions of one write to QSEQ.CTRL in their order (R82): bits [5:0] of `n`. -/
def qCtrl (q n : Nat) (s : State) : State :=
  let s := if n.testBit 4 then clearLatches q s else s
  let s := if n.testBit 5 then qCntClr q s else s
  let s := if n.testBit 3 then qRelease q s else s
  let s := if n.testBit 0 then qStartWrite q s else s
  let s := if n.testBit 1 then qStop q s else s
  if n.testBit 2 then qDisable q s else s

/-- The start moment (R79): time zero, the START record, the first body. -/
def startMoment (q : Nat) (s : State) : State :=
  let x := s.q q
  match x.startDue with
  | none => s
  | some t =>
    if s.now < t || x.laceHeld.isSome then s else
    let s := s.setQ q { x with startDue := none, first := none, timeZero := t, started := true }
    let r := ctlRecord s q 0x09 t (pf 24 (s.fld (F.QSEQ_START_ADDR_ADDR q)) + pf 26 (s.fld (F.QSEQ_CTRL_START_MODE q)))
    enterSucc q t (s.lastGoff q) x.first [] 0 (pushRecord q r (pushPendingLoss q t (pushWaiting q s)))

/-! ### Marks and holds (R72, R74, R251) -/

/-- A Lace mark is known to take effect at `eff`: a stall that waits on its number takes it as its exit, unless
the wait times out before (R72). -/
def noteMark (q num eff : Nat) (s : State) : State :=
  let x := s.q q
  let x := { x with marks := x.marks ++ [(num, eff)] }
  let f (y : Stall) : Stall :=
    if (mwOp y.word = 0x09 || mwOp y.word = 0x0A) && mwCnt y.word % 2 ^ 16 = num && y.exit.isNone && y.welt ≤ eff &&
        y.before eff then { y with exit := some eff }
    else y
  s.setQ q { x with stall := if s.qstate q = 6 then x.stall else x.stall.map f }

/-- The first known effect of a mark number at or after `t`. -/
def State.markAfter (s : State) (q num t : Nat) : Option Nat :=
  ((s.q q).marks.filter fun m => m.1 = num && t ≤ m.2).head?.map (·.2)

/-- A Lace HOLD stops the quarter's timeline at `t` (R74): mid-body, or on top of a stall; without LACE_HOLD_EN it is
ignored. -/
def laceHoldQuarter (q t : Nat) (s : State) : State :=
  let x := s.q q
  let st := s.qstate q
  if !s.bit (F.QSEQ_CFG_LACE_HOLD_EN q) then s.raise (F.QSEQ_STAT_LACE_HOLD_IGN q)
  else if ((1 ≤ st && st ≤ 6) || (st = 10 && x.startDue.isSome)) && x.laceHeld.isNone then
    let s := match x.body with
      | some b => tagDisturbed q (mwSmask b.word) s
      | none => s
    s.setQ q { x with laceHeld := some t, heldState := st, heldStuck := false }
  else s

/-- The hold of an executing body begins: LACE_HOLD, the pins but the clock pins parked (R70, R74). -/
def holdMoment (q : Nat) (s : State) : State :=
  if s.qstate q = 1 && s.heldAt q s.now then
    let clk := match (s.q q).body with
      | some b => clockPins b
      | none => []
    (markStop q ((s.q q).laceHeld.getD s.now) (stallPins q clk s)).setQstate q 7
  else s

/-- The matching release at `t` (R74): a body that was held resumes from the same granule, and what it has before it
moves by the whole time held; a stall or a start that was held ends no earlier than the release. -/
def laceResumeQuarter (q t : Nat) (s : State) : State :=
  let x := s.q q
  match (if x.heldStuck then none else x.laceHeld), x.body with
  | none, _ => s
  | some t0, some b =>
    let s := s.setQ q { x with laceHeld := none, body := some { b with start := b.start + (t - t0) } }
    let s := shiftJobs q (t - t0) 0 s
    if s.qstate q = 7 then
      markStart q t (mwMark b.word) false (unparkPins q t ((txnStallEnd q t s).setFld (F.QSEQ_STAT_STATE q) x.heldState))
    else s
  | some _, none =>
    s.setQ q { x with laceHeld := none, startDue := x.startDue.map (max t),
                      stall := x.stall.map fun y => { y with floor := max t y.floor } }

end Sys2Proof.Machine
end

