-- ==== Sys2Proof/Machine/Granule.lean ====
section
/-! DEFINITION. One granule of a quarter: staging check, decoding, drive and compare on every pin, site outcomes,
records, capture; and the arrival of fetched units, heads, scrubs (04, 05, 09; R86, R102, R206 to R216). -/

namespace Sys2Proof.Machine

/-! ### HBM errors (R86) -/

/-- The stack of a unit: address bit [8] (R83). False: HBM-A. -/
def stackB (u : Nat) : Bool := u / 4 % 2 = 1

/-- The first error's unit address since ERR_ADDR2 was last read. -/
def captureErr (u : Nat) (s : State) : State :=
  if s.errAddrHeld then s
  else
    { (((s.setFld F.MEM_ERR_ADDR0_ERR_ADDR u).setFld F.MEM_ERR_ADDR1_ERR_ADDR (u / 2 ^ 16)).setFld
        F.MEM_ERR_ADDR2_ERR_ADDR (u / 2 ^ 32)) with errAddrHeld := true }

/-- A corrected error in a read of unit `u`. -/
def corrected (u : Nat) (s : State) : State :=
  let s := captureErr u s
  if stackB u then ((s.count 0x85 1).raise F.MEM_FAULT_CE_B).report 0x031 u
  else ((s.count 0x84 1).raise F.MEM_FAULT_CE_A).report 0x030 u

/-- An uncorrectable error in a read of unit `u`: the flags; what follows is the reader's. -/
def uncorrected (u : Nat) (s : State) : State :=
  let s := captureErr u s
  if stackB u then (s.count 0x87 1).raise F.MEM_FAULT_UE_B else (s.count 0x86 1).raise F.MEM_FAULT_UE_A

/-- What a read of unit `u` finds: 0 no error, 1 a corrected one, 2 an uncorrectable one. -/
def readOutcome (ecc u : Nat) (s : State) : State :=
  if ecc = 1 then corrected u s else if ecc = 2 then uncorrected u s else s

/-- The oldest requested unit of quarter q arrives in staging, or is discarded (R86, R108). `ecc`: what the read
finds. -/
def unitArrives (q ecc : Nat) (s : State) : State :=
  let x := s.m q
  match x.flights with
  | [] => s
  | f :: rest =>
    let s := readOutcome ecc f.hbmUnit s
    if f.drop then
      let s := s.setM q { x with flights := rest }
      if ecc = 2 then s.report 0x033 f.hbmUnit else s
    else
      let s := s.setM q { x with flights := rest,
                                 staged := x.staged ++ [{ gen := f.gen, addr := f.addr, unit := f.unit, hbmUnit := f.hbmUnit,
                                                          arrived := s.now, poison := ecc = 2, data := s.hbmUnit f.hbmUnit }] }
      match x.tails.find? fun b => b.no = f.gen && b.addr = f.addr with
      | some b => checkTail q b s
      | none => s

/-- One scrub read of a stack, at most one in 80 granules, walking the capacity in ascending order (R85, R86). -/
def scrubStack (b : Bool) (ecc : Nat) (s : State) : State :=
  let units := s.capacity / 64
  let pos := if b then s.scrubB else s.scrubA
  -- a stack holds the blocks of four units whose address bit [8] is its own
  let u := pos / 4 * 8 + (if b then 4 else 0) + pos % 4
  if !s.bit F.MEM_CFG_SCRUB_EN || s.now < (if b then s.scrubAtB else s.scrubAtA) then s
  else
    let s := readOutcome ecc u (s.count (if b then 0x82 else 0x80) 1)
    let s := if ecc = 2 then s.report 0x033 u else s
    let next := if pos + 1 < units / 2 then pos + 1 else 0
    if b then { s with scrubB := next, scrubAtB := s.now + 640 } else { s with scrubA := next, scrubAtA := s.now + 640 }

/-! ### Heads (R97, R98) -/

/-- The words of quarter q's control store that name a segment: one word for each index, the lowest address first.
A word that nothing has written is zero and names segment 0. -/
def namedSegs (q : Nat) (s : State) : List (Nat × Micro) :=
  let lo := csAddr q 0
  let as := ((s.win.map (·.1)).filter fun a => lo ≤ a && a < lo + 0x80000).map fun a => (a - lo) / 32
  let as := as.dedup
  let ws := as.map fun a => s.csWord q a
  let ws := if as.length < 16384 then ws ++ [0] else ws
  (ws.filter fun w => mwSeg w ≠ nullSeg).map fun w => (mwSeg w, w)

/-- Insertion sort by segment index, the first of equal ones kept. -/
def insertSeg (e : Nat × Micro) : List (Nat × Micro) → List (Nat × Micro)
  | [] => [e]
  | f :: t => if e.1 < f.1 then e :: f :: t else if e.1 = f.1 then f :: t else f :: insertSeg e t

/-- All units of a segment as they stand in HBM, for the build's decoder. -/
def State.hbmUnits (s : State) (d : Desc) (n : Nat) : UnitMap :=
  (List.range n).map fun k => (k, s.hbmUnit (sdAddr d + k), false, sdAddr d + k)

/-- Build one head, if its segment has one: staged, or skipped with HEAD_ERR (R97, R98). `ecc`: the units in whose reads
an error was found, with what was. -/
def buildHead (q : Nat) (ecc : List (Nat × Fin 3)) (e : Nat × Micro) (s : State) : State :=
  let d := s.segDesc e.1
  if !sdHead d then s
  else
    let grp := s.maskGroup q (sdGrp d)
    let snap := s.snapshotSet q (mwTset e.2) grp
    let n := (members grp).length
    let h := min (sdLen d) 64
    let exp := if sdEnc d = 1 then sdParam d * sdStride d else h * sdStride d
    let bytes := roundUp (exp + 64 + (if sdEnc d = 4 then sdStride d else 0)) 1024
    let used := (s.m q).heads.foldl (fun a x => a + x.bytes) 0
    if !s.descOk d n (s.snapWidth q snap) || (sdEnc d = 1 && 64 * 1024 < exp) || s.headBytes q < used + bytes then
      s.raise (F.MEM_QSTAT_HEAD_ERR q)
    else
      let all := s.hbmUnits d (volume d n)
      let k := match sdEnc d with
        | 0 => min (volume d n) (ceilDiv (h * sdStride d) 64)
        | 1 => volume d n
        | 3 => volume d n
        | _ => min (volume d n) (ceilDiv (neededFrom d snap all h {}) 64)
      let found (u : Nat) : Nat := ((ecc.find? fun y => y.1 = u).map (·.2.val)).getD 0
      let units := (all.take k).map fun x => (x.1, x.2.1, found x.2.2.2 == 2, x.2.2.2)
      let inA := (units.filter fun x => !stackB x.2.2.2).length
      let s := units.foldl (fun s x => readOutcome (found x.2.2.2) x.2.2.2 s) ((s.count 0x80 inA).count 0x82 (k - inA))
      { s.setM q { s.m q with heads := (s.m q).heads ++ [{ seg := e.1, bytes := bytes, units := units }] } with
        hostBudget := s.hostBudget - k }

/-- A head build starts (R98): accepted in IDLE, HALTED and PARKED. -/
def startBuild (q : Nat) (s : State) : State :=
  if s.stopped q then
    (s.setM q { s.m q with build := true, heads := [] }).setBit (F.MEM_QSTAT_HEAD_BUSY q) true
  else s

/-- A head build ends: every HEAD = 1 segment named in the control store, in ascending index order. -/
def endBuild (q : Nat) (ecc : List (Nat × Fin 3)) (s : State) : State :=
  if (s.m q).build then
    let segs := (namedSegs q s).foldl (fun l e => insertSeg e l) []
    let s := segs.foldl (fun s e => buildHead q ecc e s) s
    (s.setM q { s.m q with build := false }).setBit (F.MEM_QSTAT_HEAD_BUSY q) false
  else s

/-! ### Changes that wait for a boundary (R124, R126, R144) -/

def settleChan (c b : Nat) (s : State) : State :=
  let x := s.chan c
  let x := match x.dskPend with
    | some (t, d, k) => if t ≤ b then { x with dskD := d, dskC := k, dskPend := none } else x
    | none => x
  let x := match x.ncoPend with
    | some (t, f, p, d) => if t ≤ b then { x with ftw := f, ph := p, duty := d, ncoPend := none } else x
    | none => x
  let s := if x = s.chan c then s else s.setChan c x
  match x.corrPend with
  | some (t, d, k, v) => if t ≤ b then putCorr c d k v s else s
  | none => s

def settleQuarter (q b : Nat) (s : State) : State := forAll (List.range 64) (fun i s => settleChan (q * 64 + i) b s) s

/-! ### Capture (R210) -/

/-- Completed capture units go to HBM in the granule after the one that completed them. -/
def writeCapture (q : Nat) (s : State) : State :=
  let x := s.r q
  x.capOut.foldl (fun s u =>
    let base := s.fld (F.QRES_CAP_BASE_L_BASE q) + 2 ^ 16 * s.fld (F.QRES_CAP_BASE_H_BASE q)
    let size := 64 * 2 ^ s.fld (F.QRES_CAP_SIZE_SIZE q)
    let w := s.fld (F.QRES_CAP_WIDX_L_WIDX q) + 2 ^ 16 * s.fld (F.QRES_CAP_WIDX_H_WIDX q)
    let unit := base * 64 + w
    let s := (s.setHbm (unit * 64) (bytesOf u.toNat 64)).count (if stackB unit then 0x83 else 0x81) 1
    let w' := if w + 1 < size then w + 1 else 0
    let s := (s.setFld (F.QRES_CAP_WIDX_L_WIDX q) w').setFld (F.QRES_CAP_WIDX_H_WIDX q) (w' / 2 ^ 16)
    if w' = 0 then s.raise (F.QRES_STAT_CAP_WRAP q) else s) (s.setR q { x with capOut := [] })

/-- Append bits to the capture stream. -/
def captureBits (q : Nat) (bits : List Bool) (s : State) : State :=
  let x := s.r q
  let v := bits.foldr (fun b a => (if b then 1 else 0) + 2 * a) 0
  let all := x.capBits + v * 2 ^ x.capLen
  let len := x.capLen + bits.length
  let n := len / 512
  s.setR q { x with
    capOut := x.capOut ++ (List.range n).map (fun k => BitVec.ofNat 512 (all / 2 ^ (512 * k)))
    capBits := all / 2 ^ (512 * n)
    capLen := len - 512 * n }

/-! ### One granule -/

/-- What a channel of the group did, with the site it counts for. -/
structure ChanOut where
  ch : Nat
  site : Option Nat
  cmps : List (Bool × Bool)
  deriving DecidableEq, Repr

/-- One channel's granule, with its effects on the state. -/
def channelGranule (q : Nat) (b : Body) (j gt : Nat) (vec : Nat) (samples : List (Nat × List Obs))
    (acc : State × Nat × List ChanOut) (e : PinEntry) : State × Nat × List ChanOut :=
  let s := acc.1
  let w := fieldWidth e
  let field := bitsAt vec acc.2.1 w
  let c := q * 64 + e.ch
  let x := s.chan c
  if s.idlePin c then (s, acc.2.1 + w, acc.2.2)
  else
    let obs := ((samples.find? fun o => o.1 = e.ch).map (·.2)).getD []
    let p := playChannel s q b e j gt field obs
    let first := p.supp && !x.suppSeen
    let s := s.setChan c { p.chan with suppSeen := x.suppSeen || p.supp }
    let s := if first then (s.raise (F.CH_STAT_STAGE_SUPP c)).report (0x106 + 16 * q) c else s
    let s := if p.symErrs = 0 then s
      else forAll (List.range p.symErrs) (fun _ s => s.report (0x104 + 16 * q) 0) (s.raise (F.QTS_STAT_SYM_ERR q))
    let s := clipEvents q e.ch (mwSmask b.word) p s
    let masked := match x.site with
      | some i => s.siteMasked q (mwSmask b.word) i
      | none => false
    (s, acc.2.1 + w, acc.2.2 ++ [{ ch := e.ch, site := x.site, cmps := if masked then [] else p.cmps }])

def failCount (o : ChanOut) : Nat := (o.cmps.filter (·.1)).length

def bitsNat (l : List Bool) : Nat := l.foldr (fun b a => (if b then 1 else 0) + 2 * a) 0

/-- FAIL and FAILCNT records of a group of channels (Table 9-6, R214): a site's, or those with no site. -/
def failRecords (q : Nat) (goff gt : Nat) (site : Option Nat) (shared : Bool) (bad : List ChanOut) (s : State) : State :=
  let level := s.fld (F.QRES_LSTAT_LEVEL q)
  if bad = [] || 2 ≤ level || !s.bit (F.QRES_CFG_FAIL_EN q) then s
  else
    let tdist := match site with
      | some i => s.siteTdist q i
      | none => false
    let mk (type payload : Nat) (s : State) : Record :=
      { type := type, flags := s.flagsOf q false tdist shared, quarter := q, ssn := s.ssn q, goff := goff,
        site := site.map (q * 8 + ·), dtime := gt, payload := payload, ring := s.fld (F.QRES_RT_FAIL_RING q),
        prio := false }
    let l := if level = 1 then bad.take 4 else bad
    let s := l.foldl (fun s o => addWaiting q (mk 0x01 (pf 24 o.ch + pf 25 o.cmps.length +
      pf 28 (bitsNat (o.cmps.map (·.1))) + pf 44 (bitsNat (o.cmps.map (·.2)))) s) s) s
    if level = 1 && 4 < bad.length && site.isSome then
      addWaiting q (mk 0x02 (pf 24 bad.length + pf 26 (bad.foldl (fun a o => a + failCount o) 0) +
        pf 28 (bad.foldl (fun a o => a + 2 ^ o.ch) 0)) s) s
    else s

/-- Site i's outcome in the granule (R206 to R208): failed bit, first failure, counts, the body's summary. -/
def siteGranule (q : Nat) (goff : Nat) (outs : List ChanOut) (shared : Bool) (extra : Nat) (i : Nat) (s : State) : State :=
  match (s.q q).body with
  | none => s
  | some b =>
    let bad := outs.filter fun o => o.site = some i && 0 < failCount o
    if s.siteMasked q (mwSmask b.word) i || (bad = [] && !shared && !extra.testBit i) then s
    else
      siteFail q i goff (bad.foldl (fun a o => a + failCount o) 0) (bad.foldl (fun a o => a ||| 2 ^ o.ch) 0) shared s

/-- The units whose bytes granule `x` to `x'` used, and the smallest margin between arrival and use (R102). -/
def noteSlack (q gt : Nat) (b : Body) (x x' : Decoder) (s : State) : State :=
  let d := b.desc
  let r := match sdEnc d with
    | 0 => (x.produced * sdStride d, (x.produced + 1) * sdStride d)
    | 1 => (x.produced % max 1 (sdParam d) * sdStride d, (x.produced % max 1 (sdParam d) + 1) * sdStride d)
    | 3 => if x.produced = 0 then (0, 4 * b.snap.length) else (0, 0)
    | _ => (x.pos, x'.pos)
  let mine := (s.m q).staged.filter fun u => u.gen = b.no && u.addr = b.addr
  let usedU := mine.filter fun u => r.1 < r.2 && r.1 / 64 ≤ u.unit && u.unit ≤ (r.2 - 1) / 64
  let slack := usedU.foldl (fun a u => min a ((gt - u.arrived) / 8)) (s.fld (F.MEM_MIN_SLACK_MIN_SLACK q))
  let s := s.setFld (F.MEM_MIN_SLACK_MIN_SLACK q) slack
  -- units wholly behind the decoder leave staging; REPEAT and LFSR data stay to the body's end (R90)
  let behind := match sdEnc d with
    | 0 => (x.produced + 1) * sdStride d / 64
    | 1 => 0
    | 3 => 0
    | _ => x'.pos / 64
  if behind = 0 then s
  else s.setM q { s.m q with staged := (s.m q).staged.filter fun u => !(u.gen = b.no && u.addr = b.addr && u.unit < behind) }

/-- The granule's data is not there, is poisoned or is not decodable: the quarter parks before the granule, which
never plays (R86, R94, R102). -/
def dataFault (q : Nat) (b : Body) (r : DecRes) (s : State) : State :=
  match r with
  | .missing => parkNow q (seqFault q (F.QSEQ_FAULT_SLIP q) b.addr false s)
  | .poison u =>
    -- the unit that parks the quarter is needed, so it is no unused one (R86)
    let s := s.setM q { s.m q with staged := (s.m q).staged.map fun x =>
      if x.gen = b.no && x.addr = b.addr && x.hbmUnit = u then { x with poison := false } else x }
    parkNow q ((s.raise (F.MEM_QSTAT_UE_PARK q)).report (0x102 + 16 * q) u)
  | .err =>
    let seg := mwSeg b.word
    let s := (s.setFld (F.MEM_ERR_SEG_L_SEG_L q) seg).setFld (F.MEM_ERR_SEG_H_SEG_H q) (seg / 2 ^ 16)
    parkNow q ((s.raise (F.MEM_QSTAT_DECODE_ERR q)).report (0x102 + 16 * q) seg)
  | .ok _ _ => s

/-- The pins, sites and records of granule `j`, whose vector is `vec` (none: the null segment, in which every pin
holds and nothing is strobed). -/
def playVector (q : Nat) (b : Body) (j gt : Nat) (vec : Option Nat) (samples : List (Nat × List Obs)) (s : State) :
    State :=
  let r := match vec with
    | some v => b.snap.foldl (channelGranule q b j gt v samples) (s, 0, [])
    | none => (s, 0, [])
  let outs := r.2.2
  let s := r.1
  let sharedBad := outs.filter fun o => o.site.isNone && 0 < failCount o
  let shared := sharedBad ≠ []
  let s := if shared then s.raise (F.QRES_STAT_SHARED_FAIL q) else s
  let extra := (s.r q).extraFail ||| s.sgFailMask q
  let s := s.setR q { s.r q with extraFail := 0 }
  let s := forAll (List.range 8) (siteGranule q j outs shared extra) s
  let s := forAll (List.range 8) (fun i s =>
    failRecords q j gt (some i) false (outs.filter fun o => o.site = some i && 0 < failCount o) s) s
  let s := failRecords q j gt none true sharedBad s
  let cap := s.bit (F.QRES_CAP_CFG_EN q) && (mwMark b.word).testBit (s.fld (F.QRES_CAP_CFG_MSEL q))
  let grp := s.maskGroup q (s.fld (F.QRES_CAP_CFG_CHGRP q))
  if cap then captureBits q ((outs.filter fun o => grp.testBit o.ch).flatMap fun o => o.cmps.map (·.2)) s else s

/-- Play the next granule of the executing body. -/
def playGranule (q : Nat) (b : Body) (samples : List (Nat × List Obs)) (s : State) : State :=
  let j := b.played
  let gt := b.start + 8 * j
  let s := settleQuarter q gt (writeCapture q s)
  let s := issueUnits q gt (fun _ => true) s
  let next (s : State) (b' : Body) : State :=
    let s := s.setQ q { s.q q with bodyGran := (s.q q).bodyGran + 1,
                                   body := (s.q q).body.map fun y => { y with played := j + 1, dec := b'.dec } }
    ledgerPlay q gt (mwLedg b.word) (s.count (0x10 + q) 1)
  if j < b.segLen then
    let m := s.m q
    -- the check is made one granule before the boundary (R102)
    let staged := s.unitMap q b j (gt - 8)
    match decodeNext b.desc b.snap staged m.lfsr b.dec with
    | .ok d' l' =>
      let s := s.setM q { s.m q with lfsr := if sdEnc b.desc = 3 then l' else (s.m q).lfsr }
      let s := boundaryEnd q gt id s
      let s := if sdHead b.desc && j < 64 then s else noteSlack q gt b b.dec d' s
      next (playVector q b j gt (some d'.vec) samples s) { b with dec := d' }
    | r => dataFault q b r s
  else next (playVector q b j gt none samples (boundaryEnd q gt id s)) b

/-- A granule boundary of device time outside a body (R42, R100, R215): changes settle, captured units and waiting
records go out, the stalled granule is counted and charged, a held word's own job goes on. -/
def idleBoundary (q t : Nat) (s : State) : State :=
  let st := s.qstate q
  let s := portSettle q t (settleQuarter q t (writeCapture q s))
  let s := s.setQ q { s.q q with lastBoundary := t }
  let s := if 2 ≤ st && st ≤ 7 then s.count (0x30 + q) 1 else s
  let s := ledgerRest q (t + 8) s
  let own := (s.q q).bodyNo + 1
  let s := issueUnits q t (fun j => if st = 6 then j.gen = own else st = 0 || st = 8 || st = 10) s
  let s := match (s.q q).stall, (s.q q).body with
    | some x, _ => if 2 ≤ st && st ≤ 6 then playClocks q t (mwSmask x.word) x.clocks s else s
    | none, some b => if st = 7 then playClocks q t (mwSmask b.word) (clockPins b) s else s
    | none, none => s
  let s := s.setR q { s.r q with extraFail := 0 }
  boundaryEnd q t id s

end Sys2Proof.Machine
end

