-- ==== Sys2Proof/Machine/Rings.lean ====
section
/-! DEFINITION. Rings: descriptors, enabling and disabling, write slots, the ring pump and its host traffic
(09_results_rings.md, R213, R215, R218 to R224). -/

namespace Sys2Proof.Machine

/-! ### Slots (R215, R221) -/

/-- Slots that `u` units per 8 granules have in granule `g` of a span: unit k is issued in granule floor(8k / u). -/
def slotsIn (u g : Nat) : Nat := ceilDiv ((g + 1) * u) 8 - ceilDiv (g * u) 8

/-- A write slot of quarter q: one of those its allotment gives the granule in progress. -/
def recordSlot (q : Nat) (s : State) : State :=
  let t := granuleOf s.now
  let x := s.r q
  let used := if x.slotAt = t then x.slotUsed else 0
  if slotsIn (max 1 (min 64 (s.fld (F.QRES_REC_UNITS_UNITS q)))) (t / 8 % 8) ≤ used then s
  else writeSlot q (s.setR q { x with slotAt := t, slotUsed := used + 1 })

/-! ### Descriptors (R218, R219) -/

def ringAddr (r : Nat) : Nat := 0xE00000 + 16 * r

def State.ringDesc (s : State) (r : Nat) : Desc :=
  let d (j : Nat) : Dword := s.winGet (ringAddr r + 4 * j)
  d 3 ++ d 2 ++ d 1 ++ d 0

def rdHbase (d : Desc) : Nat := bitsAt d.toNat 0 23
def rdHsize (d : Desc) : Nat := bitsAt d.toNat 23 4
def rdHostBase (d : Desc) : Nat := bitsAt d.toNat 27 52
def rdHostSize (d : Desc) : Nat := bitsAt d.toNat 79 4
def rdVec (d : Desc) : Nat := bitsAt d.toNat 83 11
def rdHwm (d : Desc) : Nat := bitsAt d.toNat 96 3
def rdLwm (d : Desc) : Nat := bitsAt d.toNat 99 3
def rdEn (d : Desc) : Bool := bitsAt d.toNat 102 1 = 1
def rdIe (d : Desc) : Bool := bitsAt d.toNat 103 1 = 1

/-- Bytes [lo, hi) of HBM that a ring of this base and size takes. -/
def ringRange (hbase hsize : Nat) : Nat × Nat := (hbase * 4096, hbase * 4096 + 4096 * 2 ^ hsize)

/-- No other enabled ring overlaps ring r's range. -/
def State.ringAlone (s : State) (r lo hi : Nat) : Bool :=
  s.rings.all fun e => e.1 = r || !e.2.on ||
    hi ≤ (ringRange e.2.hbase e.2.hsize).1 || (ringRange e.2.hbase e.2.hsize).2 ≤ lo

/-- The checks of an enable (R219). -/
def State.ringOk (s : State) (r : Nat) (d : Desc) : Bool :=
  let h := ringRange (rdHbase d) (rdHsize d)
  descCrcOk d && bitsAt d.toNat 94 2 = 0 && bitsAt d.toNat 104 8 = 0 && rdHbase d % 2 ^ rdHsize d = 0 &&
    rdHostBase d % 2 ^ rdHostSize d = 0 && h.2 ≤ s.capacity && !s.meetsWindow h.1 h.2 && s.ringAlone r h.1 h.2

/-- EN rises: the descriptor is checked, and the ring starts empty. -/
def ringEnable (r : Nat) (s : State) : State :=
  let d := s.ringDesc r
  let x := s.ring r
  if x.on then s
  else if s.ringOk r d then
    flushRing r (s.setRing r { x with
      on := true, hbase := rdHbase d, hsize := rdHsize d, hostBase := rdHostBase d, hostSize := rdHostSize d,
      vec := rdVec d, hwm := rdHwm d, lwm := rdLwm d, ie := rdIe d, drained := x.rseq, fill := 0, waitHost := false })
  else ((s.setFld F.RING_ERR_RING_RING r).raise F.RING_STAT_DESC_ERR).report 0x041 r

/-- The quarter of the record at a place of a ring in HBM. -/
def State.recQuarter (s : State) (x : Ring) (n : Nat) : Nat :=
  bitsAt (s.hbmNat (x.hbase * 4096 + n % ringCap x * 64) 4) 22 4

/-- EN falls: the records left are discarded and counted toward the LOSS of the next enable (R226). -/
def ringDisable (r : Nat) (s : State) : State :=
  let x := s.ring r
  if !x.on then s
  else
    let qs := (List.range x.fill).map fun i => s.recQuarter x (x.drained + i)
    let s := s.setRing r { x with on := false, fill := 0, drained := x.rseq, waitHost := false, waits := [] }
    let s := qs.foldl (fun s q => ringLose r q 3 1 s) s
    x.waits.foldl (fun s e => discardRecord r e.1 s) s

/-- EN stays 1: HWM, LWM and IE apply at once. -/
def ringParam (r : Nat) (s : State) : State :=
  let d := s.ringDesc r
  s.setRing r { s.ring r with hwm := rdHwm d, lwm := rdLwm d, ie := rdIe d }

/-- What a write of a descriptor's dword 3 does, once the dword is stored. -/
def ringDword3 (r : Nat) (s : State) : State :=
  let en := rdEn (s.ringDesc r)
  if (s.ring r).on then (if en then ringParam r s else ringDisable r s)
  else if en then ringEnable r s else s

/-! ### The pump (R221 to R223) -/

def State.hostFull (s : State) (r : Nat) : Bool :=
  let x := s.ring r
  hostCap x ≤ (x.drained + 2 ^ 32 - x.cons) % 2 ^ 32

/-- Rings with records to drain. -/
def State.pumpable (s : State) : List Nat :=
  (s.rings.filter fun e => e.2.on && 0 < e.2.fill).map (·.1)

/-- The next ring in round-robin order whose host buffer has room. -/
def State.pumpPick (s : State) : Option Nat :=
  let l := s.pumpable.filter fun r => !s.hostFull r
  match l.find? fun r => s.pumpNext ≤ r with
  | some r => some r
  | none => l.head?

/-- Rings that find their host buffer full wait for it; HOST_FULL is set while one stays full (R222). -/
def markFull (s : State) : State :=
  (s.pumpable.filter fun r => s.hostFull r).foldl (fun s r =>
    (s.setRing r { s.ring r with waitHost := true }).raise F.RING_STAT_HOST_FULL) s

/-- The host address of ring r's control block. -/
def State.controlBlock (s : State) (r : Nat) : Nat :=
  (s.fld F.RING_CB_BASE0_CB + 2 ^ 16 * s.fld F.RING_CB_BASE1_CB + 2 ^ 32 * s.fld F.RING_CB_BASE2_CB +
    2 ^ 48 * s.fld F.RING_CB_BASE3_CB) * 4096 + 16 * r

/-- A posted write to host memory: one packet. -/
def hostWrite (a : Nat) (b : List Byte) (s : State) : State :=
  countTlps false 1 { s with hostMem := s.hostMem ++ [{ addr := a, bytes := b }] }

/-- Send the ring's vector, if it may send one, and start a new count of uncovered records (R223). -/
def ringMessage (r : Nat) (s : State) : State :=
  let x := s.ring r
  if x.ie && 256 ≤ x.vec then (s.setRing r { x with uncovered := 0 }).sendVec x.vec else s

/-- The LOSS record that stands in for a record that cannot be delivered (R221). -/
def substitute (s : State) (rseq : Nat) : List Byte :=
  recordUnit s.chipId rseq
    { type := 0x08, flags := 32, quarter := 0, ssn := 0, goff := 0, site := none, dtime := s.now,
      payload := pf 24 5 + pf 28 1, ring := 0, prio := true }

/-- Drain one record of ring r; `ecc`: what the HBM read found. -/
def pumpOne (r ecc : Nat) (s : State) : State :=
  let x := s.ring r
  let a := x.hbase * 4096 + x.drained % ringCap x * 64
  let u := a / 64
  let e := ecc
  let s := if e = 1 then corrected u s else if e = 2 then uncorrected u s else s
  let bytes := (List.range 64).map fun i => s.hbmByte (a + i)
  let ok := e ≠ 2 && crc32c (bytes.take 60) = s.hbmNat (a + 60) 4 && s.hbmNat (a + 4) 4 = x.drained
  let out := if ok then bytes else substitute s x.drained
  let s := if ok then s else (s.raise F.RING_STAT_UE_SUB).report 0x042 r
  let s := hostWrite (x.hostBase * 4096 + x.drained % hostCap x * 64) out s
  let next := (x.drained + 1) % 2 ^ 32
  let s := hostWrite (s.controlBlock r) (bytesOf next 4) s
  let s := s.setRing r { x with drained := next, fill := x.fill - 1, uncovered := x.uncovered + 1,
                                uncSince := if x.uncovered = 0 then s.now else x.uncSince }
  let s := flushRing r ((s.count 0x91 1).count (if stackB u then 0x82 else 0x80) 1)
  if max 1 (s.fld F.RING_COAL_COUNT) ≤ (s.ring r).uncovered then ringMessage r s else s

/-- One read slot of the pump. -/
def pumpGrant (ecc : Nat) (s : State) : State :=
  let t := granuleOf s.now
  let used := if s.pumpAt = t then s.pumpUsed else 0
  if !s.bit F.RING_CTRL_PUMP_EN || !s.linkUp || slotsIn (max 1 (s.fld F.RING_PUMPBW_UNITS)) (t / 8 % 8) ≤ used then s
  else
    let s := markFull s
    match s.pumpPick with
    | none => s
    | some r => pumpOne r ecc { s with pumpNext := r + 1, pumpAt := t, pumpUsed := used + 1 }

/-- CONS is read from host memory for a ring whose buffer is full, at most once per µs (R222). -/
def consPoll (r cons : Nat) (s : State) : State :=
  let x := s.ring r
  if !x.on || !x.waitHost || !s.bit F.RING_CTRL_PUMP_EN || !s.linkUp || (x.lastPoll ≠ 0 && s.now < x.lastPoll + usPclk) then s
  else
    let s := countTlps true 1 (countTlps false 1 (s.setRing r { x with cons := cons % 2 ^ 32, lastPoll := s.now }))
    let full := s.hostFull r
    let s := s.setRing r { s.ring r with waitHost := full }
    if full then s.raise F.RING_STAT_HOST_FULL else s

/-- COAL.TIME after the first uncovered record. -/
def coalesce (r : Nat) (s : State) : State :=
  let x := s.ring r
  if 0 < x.uncovered && x.uncSince + usPclk * s.fld F.RING_COAL_TIME ≤ s.now then ringMessage r s else s

/-- A pump access to host memory fails (R224); `write`: it was a DMA write. -/
def dmaError (r : Nat) (write : Bool) (s : State) : State :=
  if !s.bit F.RING_CTRL_PUMP_EN then s
  else
    let s := ((s.raise F.RING_STAT_DMA_ERR).setFld F.RING_ERR_RING_RING r).setBit F.RING_CTRL_PUMP_EN false
    { s with reported := s.reported ++
        [{ src := 0x040, cls := 1, addr := r, master := 6, acc := if write then 5 else 4, time := s.now, shank := s.shankStamps }] }

end Sys2Proof.Machine
end

