-- ==== Sys2Proof/Machine/LaceRing.lean ====
section
/-! DEFINITION. The eyelet: frames and slots, sending and receiving, holds, offset tracking, epochs, detaching, the
survey (11_lace.md, R248 to R264). -/

namespace Sys2Proof.Machine

/-- The eyelet relays: RING_EN = 1 and the core runs on the PLL (R261, R262, R312). -/
def State.laceRelays (s : State) : Bool :=
  s.bit F.LACE_CTRL_RING_EN && s.bit F.CLK_STAT_PLL_LOCK && s.fld F.CLK_STAT_CORE_ACT = 2

/-- HOLD_STAT.KEYS. -/
def showKeys (s : State) : State := s.setFld F.LACE_HOLD_STAT_KEYS (min 127 s.lace.keys.length)

/-! ### Detaching (R261) -/

/-- The eyelet detaches: no event, no key, nothing to send; quarters that follow holds stop at the next boundary and stay
held. -/
def laceDetach (s : State) : State :=
  if s.laceState = 0 || s.laceState = 4 then s
  else
    let s := s.setFld F.LACE_STAT_STATE 4
    let s := showKeys { s with lace := { s.lace with keys := [], effects := [], requests := [], detaching := false } }
    forAll (List.range 16) (fun q s =>
      if s.bit (F.QSEQ_CFG_LACE_HOLD_EN q) then
        let s := laceHoldQuarter q (granuleNext s.now) s
        s.setQ q { s.q q with heldStuck := true }
      else s) s

/-- A cause of detaching that is a CONTAINED event against the eyelet. -/
def laceFail (f : Fld) (src addr : Nat) (s : State) : State := laceDetach ((s.raise f).report src addr)

/-- RING_EN and the PLL decide between OFF and SEEKING (R261). -/
def laceUpdate (s : State) : State :=
  if !s.bit F.LACE_CTRL_RING_EN then
    showKeys { s.setFld F.LACE_STAT_STATE 0 with
      lace := { s.lace with keys := [], effects := [], requests := [], detaching := false } }
  else if s.laceState = 0 && s.laceRelays then s.setFld F.LACE_STAT_STATE 1
  else s

/-! ### Events acted on (R253, R254) -/

/-- An event of ORIG, ESEQ takes effect here at `eff`. -/
def laceTake (e : LaceEff) (eseq : Nat) (s : State) : State :=
  let l := s.lace
  let s := { s with lace := { l with effects := l.effects ++ [e], acted := ((e.orig, eseq) :: l.acted).take 64 } }
  if e.type = 2 then forAll (List.range 16) (fun q s => noteMark q e.num e.eff s) s else s

/-! ### Sending (R252) -/

/-- The first empty slot of a frame that the part owns. -/
def State.ownedSlot (s : State) (slots : List LaceSlot) : Option Nat :=
  (List.range 16).find? fun k =>
    (s.fld F.LACE_SLOTS_OWN).testBit k && (k ≠ 0 || s.laceMaster) && !slots.any fun x => x.k = k

/-- No slot is free for a request. -/
def laceSlip (r : LaceReq) (s : State) : State :=
  if r.who = 0 then s
  else if r.who ≤ 16 then
    let q := r.who - 1
    seqFault q (F.QSEQ_FAULT_SLIP q) (s.fld (F.QSEQ_PC_PC q)) false (s.raise F.LACE_STAT_SLIP)
  else if r.who ≤ 24 then (s.raise F.LACE_STAT_SLIP).report 0x056 0
  else s.raise F.LACE_STAT_SEND_REFUSED

/-- Place one request into a frame, or turn it away. -/
def lacePlace (acc : State × List LaceSlot) (r : LaceReq) : State × List LaceSlot :=
  let s := acc.1
  match s.ownedSlot acc.2 with
  | none => (laceSlip r s, acc.2)
  | some k =>
    let eff := laceEffect r.at_
    let n := s.fld F.LACE_ESEQ_ESEQ
    let slot : LaceSlot := { k := k, good := true, type := r.type, copy := false, orig := s.chipId, eseq := n,
                             num := r.num, arg := r.arg, eff := if r.type = 7 then eff else eff % 2 ^ 32 }
    let s := (s.setFld F.LACE_ESEQ_ESEQ (n + 1)).count 0x98 1
    (laceTake { type := r.type, orig := s.chipId, num := r.num, arg := r.arg, eff := eff } n s, acc.2 ++ [slot])

/-- Place every request whose first frame is the one that begins at `begin`, in the slots that are empty. DETACH is
complete once its releases are on their way. -/
def laceFill (begin_ : Nat) (slots : List LaceSlot) (s : State) : State × List LaceSlot :=
  let due := s.lace.requests.filter fun r => r.at_ < begin_
  let s := { s with lace := { s.lace with requests := s.lace.requests.filter fun r => !(r.at_ < begin_) } }
  let r := due.foldl lacePlace (s, slots)
  (if r.1.lace.detaching && r.1.lace.requests = [] then laceDetach r.1 else r.1, r.2)

/-! ### The master's frames (R250) -/

/-- The end of phase 2 (R257): HOP_DLY is half of the mean round trip less the echo's latency, RELAY_DLY the mean of the
latencies. -/
def surveyDelays (d : SurveyDelays) (s : State) : State :=
  let n := d.rtts.length
  let a := s.meanFree ((d.rtts.sum : Int) - (n * d.echo : Nat)) (2 * n)
  let b := a.2.meanFree d.relays.sum d.relays.length
  (b.2.setReg R.LACE_HOP_DLY (BitVec.ofInt 16 a.1)).setReg R.LACE_RELAY_DLY (BitVec.ofInt 16 b.1)

/-- The frame whose begin has come: copies of the last round, then the master's own events. -/
def laceFrameStart (s : State) : State :=
  let f := s.now / 640
  let n := s.lace.surveyFrames
  let survey := s.lace.surveying && n < 16
  if !s.laceMaster || !s.laceRelays || s.laceState = 0 || f < s.lace.nextFrame then s
  else
    let copies := s.lace.copies
    let s := { s with lace := { s.lace with nextFrame := f + 1, copies := [],
                                            surveyFrames := if s.lace.surveying then s.lace.surveyFrames + 1 else s.lace.surveyFrames } }
    -- phase 4 of the survey: the EPOCH after 16 + 64 + 256 frames (R257)
    let s := if s.lace.surveying && s.lace.surveyFrames = 336 then
        { s with lace := { s.lace with requests := insertReq { who := 0, type := 7, num := 0, arg := 0, at_ := 640 * f - 8 } s.lace.requests } }
      else s
    let r := laceFill (640 * f) copies s
    let acc := (Config.laceLaunch.toNat + s.fld F.LACE_HOP_DLY_HOP_DLY) % 2 ^ 24
    { r.1 with lace := { r.1.lace with out := { fn := f % 2 ^ 16, hop := 0, survey := survey, acc := acc, slots := r.2 } } }

/-! ### Receiving (R250, R253, R254, R259) -/

/-- An effect time carried in 32 bits, as the one value within 2^31 of device time `t`. -/
def extendEff (t eff : Nat) : Nat :=
  let d := (eff + 2 ^ 32 - t % 2 ^ 32) % 2 ^ 32
  if d < 2 ^ 31 then t + d else t + d - 2 ^ 32

/-- Types of Table 11-5. -/
def laceTypeOk (t : Nat) : Bool := [1, 2, 3, 4, 5, 7].contains t

/-- The frame number of an SOF at `sof`, from its low 16 bits. -/
def frameOf (sof fn : Nat) : Nat :=
  let f := sof / 640
  f - (f + 2 ^ 16 - fn % 2 ^ 16) % 2 ^ 16

/-- This part's device time at the master's time `eff`, to the nearest PCLK: counted from the SOF of frame `fn`, which
arrived `fine` LSB into PCLK `sof` and left the master D before (R257, R260). -/
def State.localMoment (s : State) (sof fine fn eff : Nat) : Nat :=
  let d : Int := s.fld F.LACE_D_L_D + 2 ^ 16 * s.fld F.LACE_D_H_D
  ((((sof * 2048 + fine : Nat) : Int) - d + 1024) / 2048 + ((eff : Int) - ((640 * frameOf eff fn : Nat) : Int))).toNat

/-- One occupied slot of a frame whose SOF came at `sof`: a bad one in any state; else it is read by a joined part, and the
survey's EPOCH by a part in a survey. -/
def laceReadSlot (sof fine fn : Nat) (x : LaceSlot) (s : State) : State :=
  if !x.good || !laceTypeOk x.type then laceFail F.LACE_STAT_FRAME_ERR 0x053 (if x.good then x.orig else 0) (s.count 0x9C 1)
  else if !s.laceJoined && !(s.lace.surveying && x.type = 7) then s
  else if x.orig = s.chipId || s.lace.acted.contains (x.orig, x.eseq) then s
  else
    let want := tabGet (fun _ => none) s.lace.expect x.orig
    if want.isSome && want ≠ some x.eseq then laceFail F.LACE_STAT_GAP 0x052 x.orig (s.count 0x9B 1)
    else
      let s := { s with lace := { s.lace with
          expect := tabSet (fun _ => none) s.lace.expect x.orig (some ((x.eseq + 1) % 2 ^ 16)) } }
      let eff := if x.type = 7 then x.eff else extendEff sof x.eff
      let due := if x.type = 7 && !s.laceMaster then s.localMoment sof fine fn eff else eff
      -- the slot is complete 24 + 16 k symbols of 1.25 PCLK after the SOF; late: less than 64 PCLK before EFF
      if 4 * due < 4 * sof + 5 * (24 + 16 * x.k) + 256 then laceFail F.LACE_STAT_LATE_RX 0x051 x.orig s
      else laceTake { type := x.type, orig := x.orig, num := x.num, arg := x.arg, eff := eff, due := due } x.eseq (s.count 0x99 1)

/-- Offset tracking on an SOF that arrived `fine` LSB into PCLK `sof` (R259): a mean over `cap` frames. A mean that
leaves ±20 LSB while joined is a drift. -/
def laceTrack (sof fine f cap : Nat) (s : State) : State :=
  let d : Int := s.fld F.LACE_D_L_D + 2 ^ 16 * s.fld F.LACE_D_H_D
  let o : Int := ((sof * 2048 + fine : Nat) : Int) - (((640 * f * 2048 : Nat) : Int) + d)
  let offs := (s.lace.offs ++ [o]).drop (s.lace.offs.length + 1 - cap)
  let s := { s with lace := { s.lace with offs := offs } }
  let old := signed 16 (s.reg R.LACE_OFFSET).toNat
  let m := s.meanFree (offs.foldl (· + ·) 0) offs.length
  let v := clampInt (-32768) 32767 m.1
  let s := m.2.setReg R.LACE_OFFSET (BitVec.ofInt 16 v)
  let out (x : Int) : Bool := x < -20 || 20 < x
  if s.laceJoined && out v && !out old then (s.raise F.LACE_STAT_DRIFT).report 0x056 0 else s

/-- CTRL.SURVEY: the master asks for a survey. -/
def laceSurvey (s : State) : State :=
  if s.laceMaster && s.laceRelays && 0 < s.laceState && !s.lace.surveyReq && !s.lace.surveying then
    maintRequest 16 { s with lace := { s.lace with surveyReq := true, surveySince := s.now, surveyFrames := 0 } }
  else s

/-- A frame arrives on DI: its SOF `fine` LSB into PCLK `sof`, frame number `fn`, HOP and SURVEY of its SOF and ACC,
whether the SOF is good, and its occupied slots in order. A survey's phase 2 ends with its 80th frame, which the master
has back before the next one starts. -/
def laceFrame (sof fine fn hop : Nat) (survey : Bool) (acc : Nat) (sofOk : Bool) (slots : List LaceSlot)
    (d : SurveyDelays) (s : State) : State :=
  if !s.laceRelays || s.laceState = 0 then s
  else if !sofOk then laceFail F.LACE_STAT_FRAME_ERR 0x053 0 (s.count 0x9C 1)
  else if s.laceMaster then
    let f := frameOf sof fn
    if f + 2 < s.lace.nextFrame || s.lace.nextFrame ≤ f then laceFail F.LACE_STAT_ROLE_ERR 0x055 0 s
    else
      let s :=
        if s.lace.lost then
          let s := { s with lace := { s.lace with lost := false } }
          if s.bit F.LACE_CTRL_AUTO_SURVEY then laceSurvey s else s
        else s
      let s := { s with lace := { s.lace with lastGood := sof, accBack := acc } }
      let s := if survey then s.setFld F.LACE_RING_N hop else s
      let s := if s.lace.surveying && s.lace.surveyFrames = 80 then surveyDelays d s else s
      let copies := (slots.filter fun x => !x.copy && x.orig ≠ s.chipId).map fun (x : LaceSlot) => { x with copy := true }
      let s := { s with lace := { s.lace with copies := copies } }
      slots.foldl (fun s x => laceReadSlot sof fine fn x s) s
  else
    let f := frameOf sof fn
    let s := { s with lace := { s.lace with lastGood := sof, lost := false } }
    let s :=
      if survey then
        let s := s.setFld F.LACE_RING_POS hop
        if s.lace.surveying || s.lace.surveyReq then s
        else maintRequest 16 { s with lace := { s.lace with surveyReq := true, surveySince := sof, surveyFrames := 0 } }
      else s
    let n := s.lace.surveyFrames
    let busy := s.lace.surveyReq || s.lace.surveying
    -- phase 3: D is ACC on arrival
    let s := if busy && 80 ≤ n && n < 336 then (s.setReg R.LACE_D_L (BitVec.ofNat 16 acc)).setFld F.LACE_D_H_D (acc / 2 ^ 16) else s
    let s := { s with lace := { s.lace with surveyFrames := if busy then n + 1 else n } }
    let s := if busy && n = 80 then surveyDelays d { s with lace := { s.lace with offs := [] } } else s
    let s := if busy && 80 ≤ n && n < 336 then laceTrack sof fine f 256 s
      -- phase 5: O after the survey's EPOCH
      else if busy && 336 ≤ n then laceTrack sof fine f 16 s
      else if s.laceJoined then laceTrack sof fine f 64 s else s
    let s := slots.foldl (fun s x => laceReadSlot sof fine fn x (s.count 0x9A 1)) s
    let r := laceFill (640 * f) slots s
    let out : LaceFrame :=
      { fn := fn % 2 ^ 16, hop := if survey then hop + 1 else hop, survey := survey, slots := r.2,
        acc := (acc + s.fld F.LACE_RELAY_DLY_RELAY_DLY + s.fld F.LACE_HOP_DLY_HOP_DLY) % 2 ^ 24 }
    { r.1 with lace := { r.1.lace with out := out } }

/-- Two frames without a valid SOF, or two of the master's that do not return (R250). -/
def ringLost (s : State) : State :=
  if s.laceState < 2 || s.lace.lost || s.now < s.lace.lastGood + 1280 then s
  else
    let s := { s with lace := { s.lace with lost := true } }
    laceFail F.LACE_STAT_RING_LOST 0x050 0 s

/-! ### Effects at EFF (R255, R256, R260) -/

/-- Order of effects of one EFF: TRIG, MARK, START; HOLD, RELEASE; EPOCH. -/
def effClass (type : Nat) : Nat := if type ≤ 3 then 0 else if type ≤ 5 then 1 else 2

/-- The effect of one of these types that is due and before which no other is (R256). -/
def State.dueEffect (s : State) (types : List Nat) : Option LaceEff :=
  (s.lace.effects.filter fun e => types.contains e.type && e.due ≤ s.now).find? fun e =>
    s.lace.effects.all fun x => e.due < x.due || (e.due = x.due && effClass e.type ≤ effClass x.type)

def dropEffect (p : LaceEff → Bool) (s : State) : State :=
  { s with lace := { s.lace with effects := s.lace.effects.filter fun e => !p e } }

def laceTrigEffect (s : State) : State :=
  match s.dueEffect [1] with
  | some e => setLatchAll (0x20 + e.num % 32) (dropEffect (· = e) s)
  | none => s

/-- Quarters in STARTING under START_MODE `mode` start at `eff` (R79). -/
def startStarting (mode : Nat) (ok : Nat → Bool) (eff : Nat) (s : State) : State :=
  forAll ((List.range 16).filter ok) (fun q s =>
    if s.qstate q = 10 && s.fld (F.QSEQ_CTRL_START_MODE q) = mode && (s.q q).startDue.isNone then
      s.setQ q { s.q q with startDue := some eff }
    else s) s

def laceStartEffect (s : State) : State :=
  match s.dueEffect [3] with
  | some e => startStarting 1 (fun _ => true) e.eff (dropEffect (· = e) s)
  | none => s

/-- A key set after one event. -/
def keyStep (l : List Nat) (e : LaceEff) : List Nat :=
  let k := e.orig * 32 + e.arg % 32
  if e.type = 4 then (if l.contains k then l else l ++ [k]) else l.filter (· ≠ k)

/-- All HOLD and RELEASE events of one EFF act together, with their net result (R255, R256). -/
def laceHoldEffect (type : Nat) (s : State) : State :=
  match s.dueEffect [type] with
  | none => s
  | some e =>
    let same (x : LaceEff) : Bool := (x.type = 4 || x.type = 5) && x.eff = e.eff
    let old := s.lace.keys
    let keys := (s.lace.effects.filter same).foldl keyStep old
    let s := dropEffect same s
    let s := showKeys { s with lace := { s.lace with keys := keys } }
    if old = [] && keys ≠ [] then forAll (List.range 16) (fun q s => laceHoldQuarter q e.eff s) s
    else if old ≠ [] && keys = [] then forAll (List.range 16) (fun q s => laceResumeQuarter q e.eff s) s
    else s

/-- An EPOCH on a member: device time steps if it differs, and the RCLK phase moves by −OFFSET (R260). -/
def laceEpochEffect (s : State) : State :=
  match s.dueEffect [7] with
  | none => s
  | some e =>
    let s := dropEffect (· = e) s
    if s.laceMaster then s
    else
      let off := e.eff ≠ e.due
      if off && !s.allStopped then laceFail F.LACE_STAT_ALIGN_ERR 0x054 e.orig s
      else
        let m := s.meanFree (s.lace.offs.foldl (· + ·) 0) s.lace.offs.length
        let s := if off then { m.2 with now := e.eff + (s.now - e.due) } else s
        let s := if off || s.lace.surveying then { s with lace := { s.lace with offs := [] } } else s
        -- the step takes the whole PCLK of the offset, the phase what is left
        let o := if off then (m.1 + 1024) % 2048 - 1024 else signed 16 (s.reg R.LACE_OFFSET).toNat
        let m := (2 - o) / 4
        let m := if s.lace.surveying then m else clampInt (-4) 4 m
        let p := signed 10 (s.fld F.LACE_PHASE_PHASE)
        s.setFld F.LACE_PHASE_PHASE (unsigned 10 (p + m))

/-! ### The host's and the master's requests (R252, R259, R261) -/

/-- SEND_GO. -/
def laceSendGo (s : State) : State :=
  let t := s.fld F.LACE_SEND_CTL_TYPE
  if [1, 2, 4, 5].contains t then
    laceRequest 25 t (s.fld F.LACE_SEND_NUM_NUM) (s.fld F.LACE_SEND_CTL_ARG) (granuleAt s.now) s
  else s.raise F.LACE_STAT_SEND_REFUSED

/-- START_SEND and EPOCH_NOW: refused on a member. -/
def laceMasterSend (type : Nat) (s : State) : State :=
  if s.laceMaster then laceRequest 25 type 0 0 (granuleAt s.now) s else s.raise F.LACE_STAT_SEND_REFUSED

/-- The epoch due every EPOCH_PER frames. -/
def laceEpochDue (s : State) : State :=
  let per := s.fld F.LACE_EPOCH_PER_PER
  if !s.laceMaster || per = 0 || !s.laceJoined || s.lace.nextFrame < s.lace.epochNext then s
  else
    let s := { s with lace := { s.lace with epochNext := s.lace.nextFrame + per } }
    laceRequest 0 7 0 0 (granuleAt s.now) s

/-- CTRL.DETACH: a RELEASE for each own key, then the detach. -/
def laceDetachCmd (s : State) : State :=
  let own := s.lace.keys.filter fun k => k / 32 = s.chipId
  let s := own.foldl (fun s k => laceRequest 25 5 0 (k % 32) (granuleAt s.now) s) s
  if own = [] || !s.laceJoined then laceDetach s else { s with lace := { s.lace with detaching := true } }

/-! ### The survey (R257, R258) -/

def surveyRelease (s : State) : State :=
  let s := { s with lace := { s.lace with surveying := false, surveyReq := false, surveyFrames := 0 } }
  maintEnd 16 (s.setBit F.TDCC_BORROW_BORROW false)

/-- The survey fails (R257): frames do not return, ACC on return is off the measured loop by more than 20 + 2 N LSB, the
loop is longer than 900 ns or a hop than 20 ns, or two parts share a CHIP_ID. The last three are the master's. -/
def State.surveyFails (s : State) (r : SurveyResult) : Bool :=
  let tol := 20 + 2 * s.fld F.LACE_RING_N
  let chips := r.roster.map (·.2.1)
  r.err || (s.laceMaster &&
    (r.loop + tol < s.lace.accBack || s.lace.accBack + tol < r.loop || 1179648 < r.loop ||
      (s.fld F.LACE_HOP_DLY_HOP_DLY :: r.hops).any (26214 < ·) || chips.dedup ≠ chips))

/-- The part is aligned: the master, or a member with |O| at most 8 LSB in phase 5 (R257). -/
def State.surveyAligned (s : State) : Bool :=
  let o := signed 16 (s.reg R.LACE_OFFSET).toNat
  s.laceMaster || (s.lace.offs ≠ [] && -8 ≤ o && o ≤ 8)

def laceSurveyComplete (r : SurveyResult) (s : State) : State :=
  if !s.lace.surveying then s
  else
    let aligned := s.surveyAligned
    let fails := s.surveyFails r
    let s := surveyRelease s
    if fails then
      let s := if s.laceMaster then (s.raise F.LACE_STAT_SURVEY_ERR).report 0x057 0 else s
      if s.laceJoined then s else s.setFld F.LACE_STAT_STATE 4
    else
      let s :=
        if s.laceMaster then
          let s := (s.setReg R.LACE_LOOP_L (BitVec.ofNat 16 r.loop)).setFld F.LACE_LOOP_H_LOOP (r.loop / 2 ^ 16)
          forAll (List.range 64) (fun p s =>
            s.setReg (R.LACE_ROSTER p) (match r.roster.find? fun e => e.1 = p with
              | some e => BitVec.ofNat 16 (0x8000 + (if e.2.2 then 0x4000 else 0) + e.2.1 % 64)
              | none => 0)) s
        else s
      let s := { s with lace := { s.lace with
        expect := r.rejoined.foldl (fun t c => tabErase t c) s.lace.expect } }
      if aligned then s.setFld F.LACE_STAT_STATE 3
      else if s.laceJoined then laceDetach s
      else s.setFld F.LACE_STAT_STATE 4

/-- A member whose borrow is not complete 100 µs after the first SURVEY frame stays DETACHED. -/
def surveyTimeout (s : State) : State :=
  if s.lace.surveyReq && !s.lace.surveying && !s.laceMaster && s.lace.surveySince + 64000 ≤ s.now then
    let s := surveyRelease s
    if s.laceJoined then s else s.setFld F.LACE_STAT_STATE 4
  else s

end Sys2Proof.Machine
end

