-- ==== Sys2Proof/Machine/Supply.lean ====
section
/-! DEFINITION. The Supply Guard: gates, comparators, blanking, trips and their actions, measurement periods
(07_parametric_supply_guard.md, R168 to R177). -/

namespace Sys2Proof.Machine

/-- The local sites that SGn names, if it names any (R173). -/
def State.sgOwned (s : State) (n : Nat) : List Nat :=
  if s.bit (F.SG_OWN_OWN_EN n) then
    ((List.range 8).filter (s.fld (F.SG_OWN_SMASK n)).testBit).map (s.fld (F.SG_OWN_QUARTER n) * 8 + ·)
  else []

/-- The conditions under which the part drives GATE high (R169, R177). -/
def State.gateMay (s : State) (n : Nat) : Bool :=
  s.bit (F.SG_CTRL_EN n) && s.bit (F.SG_CTRL_GATE_ON n) && !s.chipFault && !s.bit F.PWR_PAD_HOLD_HOLD &&
    s.fld F.PWR_STAT_STATE ≠ 4 && !s.bit F.PWR_STAT_BACKSTOP &&
    (if s.bit (F.SG_OWN_OWN_EN n) then (s.sgOwned n).any fun i => !s.siteFault i
     else !s.unitFault (16 + n))

/-- Action of comparator k: 0 VLO, 1 VHI, 2 ILO, 3 IHI, 4 ICRIT (R173). -/
def State.sgAction (s : State) (n k : Nat) : Nat := if k = 4 then 2 else fieldOf (s.reg (R.SG_ACT n)) (2 * k) 2

/-- GATE low at once, CTRL.GATE_ON cleared (R173). -/
def gateOff (n : Nat) (s : State) : State :=
  let s := s.setBit (F.SG_CTRL_GATE_ON n) false
  s.setSg n { s.sg n with gate := false }

/-- A crossing of comparator k acts: the TRIP bit and, where it was clear, the window trip (R172, R175), then the
action, whether or not the bit was set (R173). Action 1 fails the owned sites in the granule of the latch
(Table 16-4), and in every body during which the bit is set. -/
def sgTrip (n k : Nat) (s : State) : State :=
  let m := BitVec.ofNat 16 (2 ^ k)
  let s := if s.sgAction n k = 1 then
      forAll (s.sgOwned n) (fun i s => failSite (i / 8) (i % 8) s) s else s
  let s := if (s.fld (F.SG_TRIP_TRIP n)).testBit k then s
    else
      let s := s.setFld (F.SG_TRIP_TRIP n) (s.fld (F.SG_TRIP_TRIP n) ||| 2 ^ k)
      let s := setLatchAll (0x40 + n) ((s.raiseMask (R.SG_TRIP_EVT n) m).count (0xC0 + n) 1)
      if s.bit (F.SG_CTRL_WAKE_EN n) then wakeEvent 0 s else s
  if 2 ≤ s.sgAction n k then
    let s := (gateOff n s).report (0x080 + n) n
    s.setSg n { s.sg n with restore := true }
  else s

/-- GATE follows its conditions. At a rising edge GON_BLANK starts and an ICRIT already outside its window crosses
anew (R171). -/
def sgGate (n : Nat) (s : State) : State :=
  let x := s.sg n
  let may := s.gateMay n
  if may = x.gate then s
  else if may then
    let s := s.setSg n { x with gate := true, gonEnd := some (s.now + 640 * s.fld (F.SG_BLANK_GON_BLANK n)) }
    if x.live.getLsbD 4 then sgTrip n 4 s else s
  else s.setSg n { x with gate := false }

/-- All gates, after a change that several depend on. Channels that nothing has set up have no gate to move. -/
def sgGates (s : State) : State :=
  forAll ((List.range 64).filter fun n => s.bit (F.SG_CTRL_EN n) || (s.sg n).gate) (fun n s => sgGate n s) s

/-- The end of GON_BLANK (R171): comparators still outside their windows cross. -/
def sgGonEnd (n : Nat) (s : State) : State :=
  match (s.sg n).gonEnd with
  | none => s
  | some e =>
    if s.now < e then s
    else
      let s := s.setSg n { s.sg n with gonEnd := none }
      forAll ((List.range 4).filter (s.sg n).live.getLsbD) (sgTrip n) s

/-- GON_BLANK is running: trips of comparators 0 to 3 are suppressed. -/
def State.gonBlank (s : State) (n : Nat) : Bool :=
  match (s.sg n).gonEnd with
  | some e => s.now < e
  | none => false

/-- A change of comparator k's output acts (R170): with timer blanking it starts a blanking time from `t`. -/
def sgAct (n k t : Nat) (s : State) : State :=
  let x := s.sg n
  let out := x.live.getLsbD k
  let m : BitVec 5 := BitVec.ofNat 5 (2 ^ k)
  let x := { x with acted := if out then x.acted ||| m else x.acted &&& ~~~m }
  let x := if s.bit (F.SG_CTRL_FILT n) && k < 4 then
      { x with blankEnd := tabSet (fun _ => 0) x.blankEnd k (t + 640 * max 1 (s.fld (F.SG_BLANK_T n))) }
    else x
  let s := s.setSg n x
  if out && !(k < 4 && s.gonBlank n) then sgTrip n k s else s

/-- A comparator that trips above (or below) `thr` with half a hysteresis band, at an input `x`; `was`: tripped before. -/
def beyond (above was : Bool) (half thr x : Int) : Bool :=
  if above then (if was then thr - half < x else thr + half < x)
  else (if was then x < thr + half else x < thr - half)

/-- Half a hysteresis band by its code, for the smallest full band `full` (R170). -/
def hystHalf (full : Int) (code : Nat) : Int := if code = 0 then 0 else full * 2 ^ (min code 4 - 1) / 2

/-- A threshold code in the scale of the results, 256 to a code (R168, R176). -/
def sgThr (v : Word) : Int := ((v.toNat : Int) - 32768) * 256

/-- The comparator outputs for the inputs `v` and `i`, given those before: bits VLO, VHI, ILO, IHI, ICRIT (R168). With
timer blanking only ICRIT has hysteresis (R170). The shunt's bands, 78.125 µV and up, are in 1/100 of the result's
step. -/
def State.sgOutputs (s : State) (n : Nat) (was : BitVec 5) (v i : Int) : BitVec 5 :=
  let filt := s.bit (F.SG_CTRL_FILT n)
  let vh := if filt then 0 else hystHalf 5120 (s.fld (F.SG_HYST_VHYST n))
  let crit := hystHalf 524288 (s.fld (F.SG_HYST_IHYST n))
  let ih := if filt then 0 else crit
  let bit (k : Nat) (b : Bool) : BitVec 5 := if b then BitVec.ofNat 5 (2 ^ k) else 0
  bit 0 (beyond false (was.getLsbD 0) vh (sgThr (s.reg (R.SG_VLO n))) v) |||
    bit 1 (beyond true (was.getLsbD 1) vh (sgThr (s.reg (R.SG_VHI n))) v) |||
    bit 2 (beyond false (was.getLsbD 2) ih (100 * sgThr (s.reg (R.SG_ILO n))) (100 * i)) |||
    bit 3 (beyond true (was.getLsbD 3) ih (100 * sgThr (s.reg (R.SG_IHI n))) (100 * i)) |||
    bit 4 (beyond true (was.getLsbD 4) crit (100 * sgThr (s.reg (R.SG_ICRIT n))) (100 * i))

/-- A comparator's first crossing, one into a state whose TRIP bit is clear, goes to the time-interval units (R175). -/
def sgCross (n : Nat) (rises : BitVec 5) (s : State) : State :=
  let first := (List.range 5).any fun k => rises.getLsbD k && !(s.fld (F.SG_TRIP_TRIP n)).testBit k
  if s.bit (F.SG_CTRL_TDC_EN n) && first then
    let x := s.sg n
    s.setSg n { x with crossed := (x.crossed.filter fun c => s.now < c + 640) ++ [s.now] }
  else s

/-- The inputs change (R168, R170). Comparators of a channel with EN = 0, or in SHANK, are stopped. -/
def sgCompare (n : Nat) (v i : Int) (s : State) : State :=
  if !s.bit (F.SG_CTRL_EN n) || s.fld F.PWR_STAT_STATE = 4 then s
  else
    let was := (s.sg n).live
    let live := s.sgOutputs n was v i
    let s := sgCross n (live &&& ~~~was) s
    let s := (s.setSg n { s.sg n with live := live }).setFld (F.SG_LIVE_LIVE n) live.toNat
    forAll (List.range 5) (fun k s =>
      let x := s.sg n
      let blanked := s.bit (F.SG_CTRL_FILT n) && k < 4 && s.now < tabGet (fun _ => 0) x.blankEnd k
      if x.live.getLsbD k ≠ x.acted.getLsbD k && !blanked then sgAct n k s.now s else s) s

/-- The end of a blanking time: an output that differs from the state last acted on acts now (R170). -/
def sgBlankEnd (n k : Nat) (s : State) : State :=
  let x := s.sg n
  let e := tabGet (fun _ => 0) x.blankEnd k
  if e = 0 || s.now < e then s
  else
    let s := s.setSg n { x with blankEnd := tabErase x.blankEnd k }
    if x.live.getLsbD k ≠ x.acted.getLsbD k && s.bit (F.SG_CTRL_EN n) then sgAct n k e s else s

/-- VSG is lost: every GATE falls (R398). -/
def vsgLost (s : State) : State := forAll (List.range 64) (fun n s => s.setSg n { s.sg n with gate := false }) s

/-- TRIP_CLR: every bit whose comparator is inside its window clears (R172). -/
def sgTripClr (n : Nat) (s : State) : State :=
  s.setFld (F.SG_TRIP_TRIP n) (s.fld (F.SG_TRIP_TRIP n) &&& (s.sg n).live.toNat)

def setRes24 (lo hi : Fld) (v : Int) (s : State) : State :=
  let c := (v % 2 ^ 24).toNat
  (s.setFld lo c).setFld hi (c / 2 ^ 16)

/-- PERIOD + 1 scans of 16 µs (R176). -/
def State.sgPeriod (s : State) (n : Nat) : Nat := (s.fld (F.SG_PERIOD_PERIOD n) + 1) * 10240

/-- V_RES and I_RES take the means of a period's conversions, and NEW (R176). -/
def sgResults (n : Nat) (vs is : List Int) (s : State) : State :=
  let a := s.meanFree vs.sum vs.length
  let b := a.2.meanFree is.sum is.length
  let s := setRes24 (F.SG_V_RES_L_V n) (F.SG_V_RES_H_V n) a.1 b.2
  (setRes24 (F.SG_I_RES_L_I n) (F.SG_I_RES_H_I n) b.1 s).raise (F.SG_RES_STAT_NEW n)

/-- The end of a measurement period (R176): its conversions, one of each quantity a scan; or the end with PARTIAL of
the period that EN = 0 cut, once the conversion in flight is complete (R177). -/
def sgPeriodEnd (n : Nat) (vs is : List Int) (s : State) : State :=
  let x := s.sg n
  if x.ending then (sgResults n vs is (s.setSg n { x with ending := false })).raise (F.SG_RES_STAT_PARTIAL n)
  else if !s.bit (F.SG_CTRL_EN n) || s.now < x.periodStart + s.sgPeriod n then s
  else
    let k := s.fld (F.SG_PERIOD_PERIOD n) + 1
    let take (l : List Int) := (List.range k).map fun i => l.getD i 0
    let s := sgResults n (take vs) (take is) (s.setSg n { x with periodStart := x.periodStart + s.sgPeriod n })
    if s.bit (F.SG_CTRL_LATCH_MODE n) then sgTripClr n s else s

/-- CTRL takes a new value. EN rising starts the comparators and a period; EN falling drops the gate, stops the
comparators, and ends the period with the conversion in flight (R177). -/
def sgCtrlWrite (n : Nat) (m w : Word) (s : State) : State :=
  let en := s.bit (F.SG_CTRL_EN n)
  let s := s.setBits (R.SG_CTRL n) m w
  let en' := s.bit (F.SG_CTRL_EN n)
  let s := if !en && en' then
      s.setSg n { s.sg n with periodStart := s.now, live := 0, acted := 0, blankEnd := [], ending := false }
    else if en && !en' then
      (s.setSg n { s.sg n with live := 0, acted := 0, blankEnd := [], ending := true }).setFld (F.SG_LIVE_LIVE n) 0
    else s
  let s := if s.bit (F.SG_CTRL_GATE_ON n) then s.setSg n { s.sg n with restore := false } else s
  sgGate n s

/-- AUTO_RESTORE: the part sets GATE_ON itself when the first owned site, or the unit, leaves its fault state
(R174). -/
def sgRestore (n : Nat) (s : State) : State :=
  if (s.sg n).restore && s.bit (F.SG_CTRL_AUTO_RESTORE n) then
    let s := s.setBit (F.SG_CTRL_GATE_ON n) true
    sgGate n (s.setSg n { s.sg n with restore := false })
  else sgGate n s

/-- SGn names a site of the entities `ends`, or is the unit of one of them. -/
def State.sgConcerned (s : State) (ends : List Nat) (n : Nat) : Bool :=
  ends.contains (160 + n) || (s.sgOwned n).any fun i => ends.contains i

/-- The Supply Guard after the fault states of the entities `ends` have ended together: each channel acts once. -/
def sgAfter (ends : List Nat) (s : State) : State :=
  let s := forAll ((List.range 64).filter (s.sgConcerned ends)) sgRestore s
  if ends.contains 224 then sgGates s else s

end Sys2Proof.Machine
end

