-- ==== Sys2Proof/Machine/Faults.lean ====
section
/-! DEFINITION. The fault collector: classification, counting, fault states and their effects, the safe state,
quiet-period recovery, first-error capture, voted fields (16_safety_faults.md, R354 to R372; R39). -/

namespace Sys2Proof.Machine

/-! ### Attribution of addresses (R390) -/

/-- The quarter that a BAR0 address belongs to. -/
def addrQuarter (a : Nat) : Option Nat :=
  if 0x100000 ≤ a && a < 0x200000 then some ((a - 0x100000) / 0x10000)
  else if 0x200000 ≤ a && a < 0x400000 then some ((a - 0x200000) / 0x20000)
  else if 0x400000 ≤ a && a < 0xC00000 then some ((a - 0x400000) / 0x80000)
  else if 0x38000 ≤ a && a < 0x3C000 then some ((a - 0x38000) / 0x400)
  else if 0x84000 ≤ a && a < 0xA4000 then some ((a - 0x84000) / 0x2000)
  else none

/-- The central region of an address that belongs to no quarter. -/
def addrRegion (a : Nat) : Option Nat :=
  if (addrQuarter a).isSome then none
  else if 0xC00000 ≤ a && a < 0xE00000 then some 3
  else if 0xE00000 ≤ a && a < 0xF00000 then some 4
  else if a < 0x90000 then some (a / 0x10000)
  else none

/-! ### Entities (Table 16-2)

Keys: site i at i, quarter q at 128 + q, unit u at 144 + u, the chip at 224. -/

def entAddr (x : Nat) : Nat :=
  if x < 128 then 0x11000 + 4 * x
  else if x < 144 then 0x11200 + 4 * (x - 128)
  else if x < 224 then 0x11300 + 4 * (x - 144)
  else 0x10008

/-- 0 site, 1 quarter, 2 unit, 3 chip. -/
def entKind (x : Nat) : Nat := if x < 128 then 0 else if x < 144 then 1 else if x < 224 then 2 else 3
def entIndex (x : Nat) : Nat := if x < 128 then x else if x < 144 then x - 128 else if x < 224 then x - 144 else 0

def entFault (x : Nat) : Fld := ⟨entAddr x, 15, 1⟩
def entRcnt (x : Nat) : Fld := ⟨entAddr x, 0, 4⟩

def State.entOpen (s : State) (x : Nat) : Bool := s.bit (entFault x)

/-- The quiet period in PCLK (R360). -/
def State.quiet (s : State) (x : Nat) : Nat :=
  2 ^ min (fieldOf (s.reg R.FLT_QUIET) (4 * entKind x) 4) 14 * msPclk

def State.recLimit (s : State) (x : Nat) : Nat := max 1 (fieldOf (s.reg R.FLT_RECLIM) (4 * entKind x) 4)

def State.faultLatched (s : State) : Bool := s.bit F.FLT_CHIPST_LATCHED

/-- The targets of an event (Table 16-1). -/
def State.targets (s : State) (e : FaultEvent) : List Nat :=
  let src := e.src
  if src = 0x001 || src = 0x016 then
    match addrQuarter e.addr, addrRegion e.addr with
    | some q, _ => [128 + q]
    | none, some r => if r = 1 then [] else [144 + 2 + r]
    | none, none => []
  else if 0x080 ≤ src && src < 0x0C0 then
    let own := s.sgOwned (src - 0x080)
    if own = [] then [144 + 16 + (src - 0x080)] else own
  else if 0x100 ≤ src && src < 0x200 then
    let q := (src - 0x100) / 16
    if [5, 6, 7, 10].contains (src % 16) then
      match (s.chan e.addr).site with
      | some i => [q * 8 + i]
      | none => [128 + q]
    else [128 + q]
  else if 0x050 ≤ src && src ≤ 0x055 then [144]
  else if src = 0x040 then [145]
  else [224]

/-! ### Effects of fault states (Tables 16-2, 16-3) -/

/-- A channel whose site, quarter or chip state is still open stays forced. -/
def State.keepsForced (s : State) (c : Nat) : Bool := s.ownerFaulted c || s.chipFault

/-- Force a channel unless it is. -/
def forceOnce (c : Nat) (s : State) : State := if (s.chan c).forced then s else forceChan c s

/-- A fault state forces the channel and ends its PPMU's interval (R166). -/
def faultChan (c : Nat) (s : State) : State := pmuAbort c (forceOnce c s)

/-- Release a channel that nothing holds any more. -/
def releaseFree (c : Nat) (s : State) : State :=
  if (s.chan c).forced && !s.keepsForced c then releaseChan c s else s

/-- Table 16-3, one channel: forced, its switch open, its clamps at the safe window, its PPMU off. -/
def safeChan (c : Nat) (s : State) : State :=
  let s := pmuSafe c (forceOnce c s)
  (s.setChan c { s.chan c with safe := true, inSince := none }).setBit (F.CH_STAT_DISC c) true

/-- The safe state is entered (R363). -/
def safeEntry (s : State) : State :=
  let s := forAll (List.range 16) txnAbort s
  let s := forAll ((List.range 16).filter s.quarterOn) (fun q s => parkQuarter q s) s
  let s := forAll (List.range 1024) safeChan (s.setBit F.FLT_CHIPST_SAFE true)
  let s := sgGates (txnAbort 16 (laceDetach s))
  forAll ((List.range 16).filter fun q => (s.q q).started) (fun q s => invalidate q 1 s) s

/-- The quarter's word in progress ends at a welt that parks it (R63, R68, R89, R115). -/
def State.parksAtWelt (s : State) (q : Nat) : Bool :=
  let x := s.q q
  match x.body, x.stall with
  | some b, _ => match b.succ with
    | some u => u.park
    | none => false
  | none, some y => match y.succ with
    | some u => u.park
    | none => false
  | none, none => false

/-- What opening an entity's state does. -/
def openEffect (x : Nat) (atWelt : Bool) (s : State) : State :=
  if x < 128 then
    let s := s.setEnt x { s.ent x with sinceStart := true }
    sgGates ((s.siteChans (x / 8) (x % 8)).foldl (fun s c => faultChan c s) s)
  else if x < 144 then
    let q := x - 128
    let s := txnAbort q s
    if atWelt && s.parksAtWelt q then s
    else forAll (List.range 64) (fun i s => faultChan (q * 64 + i) s) (parkQuarter q s)
  else if x = 144 then laceDetach s
  else if x = 145 then s.setBit F.RING_CTRL_PUMP_EN false
  else if x < 160 then s
  else if x < 224 then gateOff (x - 160) s
  else safeEntry s

/-- Open an entity's fault state. -/
def openEnt (x : Nat) (atWelt : Bool) (s : State) : State :=
  if s.entOpen x then s else openEffect x atWelt (s.setBit (entFault x) true)

/-- The chip opens or latches: CAUSE records the source. -/
def setCause (src : Nat) (s : State) : State := s.setFld F.FLT_CAUSE_SRC src

/-- Latch the FATAL (R361). -/
def latchFatal (src : Nat) (s : State) : State :=
  let s := openEnt 224 false (setCause src s)
  (s.setBit F.FLT_CHIPST_LATCHED true).raise F.FLT_STAT_LATCH_EVT

/-- A period's start waits for the end of clock-hold (bit 0) or, for SHUT, for the temperature (bit 1). -/
def State.freezeOf (s : State) (src : Nat) : Nat :=
  (if s.bit F.CLK_STAT_HOLD then 1 else 0) + (if src = 0x024 then 2 else 0)

/-- One target of an event of class CONTAINED or FATAL. -/
def hitEnt (e : FaultEvent) (latchNow : Bool) (x : Nat) (s : State) : State :=
  let closed := !s.entOpen x
  let s :=
    if latchNow || (closed && s.recLimit x ≤ s.fld (entRcnt x)) then latchFatal e.src (openEnt x e.atWelt s)
    else if closed then openEnt x e.atWelt (if x = 224 then setCause e.src s else s)
    else s
  s.setEnt x { s.ent x with qend := e.time + s.quiet x, frozen := (s.ent x).frozen ||| s.freezeOf e.src }

/-! ### First-error capture (R367) -/

def feTake (corr : Bool) (e : FaultEvent) (kind idx : Nat) (f : FeCopy) : FeCopy :=
  if e.cls = 0 && !corr then f
  else match f.valid, f.ev with
    | true, some o =>
      if o.time / 2 = e.time / 2 then
        if o.cls < e.cls || (o.cls = e.cls && e.src < o.src) then { f with ev := some e, kind := kind, index := idx } else f
      else { f with more := min 0xFFFF (f.more + 1) }
    | _, _ => { f with valid := true, ev := some e, kind := kind, index := idx, more := 0 }

/-! ### The counting stage (R356, R357) -/

def sscfg (src : Nat) : Nat := 0x14000 + 4 * src
def ssstat (src : Nat) : Nat := 0x16000 + 4 * src

def State.srcCount (s : State) (src : Nat) : Nat := s.fld ⟨ssstat src, 8, 8⟩
def setSrcCount (src n : Nat) (s : State) : State := s.setFld ⟨ssstat src, 8, 8⟩ n

/-- Count an event: the state and the class it takes. -/
def countEvent (e : FaultEvent) (s : State) : State × Nat :=
  let cfg := s.reg (sscfg e.src)
  let n := max 1 (fieldOf cfg 8 8)
  let esc := min 2 (fieldOf cfg 2 2)
  let x := s.srcCnt e.src
  let c := if x.wend / 2 < e.time / 2 then 0 else s.srcCount e.src
  let s := if c = 0 then s.setSrcCnt e.src { wend := e.time + 2 ^ fieldOf cfg 4 4 * msPclk } else s
  if n ≤ c + 1 then
    (((setSrcCount e.src 0 s).raiseMask (ssstat e.src) 4).raise F.FLT_STAT_SEV_EVT, max e.cls esc)
  else (setSrcCount e.src (c + 1) s, e.cls)

/-- Classify and act on one event. -/
def collect (e : FaultEvent) (s : State) : State :=
  let r := countEvent e s
  let e := { e with cls := r.2 }
  let s := r.1.count (0xA0 + e.cls) 1
  let s := s.raise (if e.cls = 0 then F.FLT_STAT_CORR_EVT else if e.cls = 1 then F.FLT_STAT_CONT_EVT else F.FLT_STAT_FATAL_EVT)
  let ts := s.targets e
  let t := ts.head?.getD 147
  let corr := s.bit F.FLT_CTRL_FE_CORR
  let s := { s with feHost := feTake corr e (entKind t) (entIndex t) s.feHost,
                    feSpx1 := feTake corr e (entKind t) (entIndex t) s.feSpx1 }
  if e.cls = 0 then s
  else
    let ts := if e.cls = 2 && !ts.contains 224 then ts ++ [224] else ts
    let latch := e.src = 0x019 || e.src = 0x022
    ts.foldl (fun s x => hitEnt e (latch && x = 224) x s) s

/-- The next event: of the earliest MCLK cycle reported, the lowest source (R354). -/
def nextEvent : List FaultEvent → Option FaultEvent
  | [] => none
  | e :: t => match nextEvent t with
    | none => some e
    | some f => if f.time / 2 < e.time / 2 || (f.time / 2 = e.time / 2 && f.src < e.src) then some f else some e

/-- The collector takes one reported event. -/
def faultEvent (s : State) : State :=
  match nextEvent s.reported with
  | none => s
  | some e => collect e { s with reported := s.reported.erase e }

/-- The end of a source's window (R356). -/
def faultWindow (src : Nat) (s : State) : State :=
  if s.srcCount src ≠ 0 && (s.srcCnt src).wend ≤ s.now then setSrcCount src 0 s else s

/-! ### Recovery (R360, R364) -/

/-- A parked quarter whose fault states are over goes to IDLE (R80). -/
def unpark (q : Nat) (s : State) : State :=
  if s.qstate q = 9 && !s.quarterFault q && !s.chipFault then s.setQstate q 0 else s

/-- What the end of an entity's state does. -/
def closeEffect (x : Nat) (s : State) : State :=
  if x < 128 then (s.siteChans (x / 8) (x % 8)).foldl (fun s c => releaseFree c s) s
  else if x < 144 then
    let q := x - 128
    unpark q (forAll (List.range 64) (fun i s => releaseFree (q * 64 + i) s) s)
  else if x < 224 then s
  else
    let s := s.setBit F.FLT_CHIPST_SAFE false
    let s := forAll (List.range 1024) (fun c s => releaseFree c (s.setChan c { s.chan c with safe := false })) s
    forAll (List.range 16) unpark s

/-- The state may end now: its period has passed with no event left to process, and the chip is not latched. -/
def State.entDue (s : State) (x : Nat) : Bool :=
  s.entOpen x && !s.faultLatched && (s.ent x).frozen = 0 && (s.ent x).qend ≤ s.now && s.reported = []

/-- An entity's fault state ends: RCNT counts the recovery (R360). -/
def endEnt (x : Nat) (s : State) : State :=
  let s := s.setBit (entFault x) false
  (s.setFld (entRcnt x) (min 15 (s.fld (entRcnt x) + 1))).raise F.FLT_STAT_RECOVERED

/-- The entities whose states end with that of `x`: those whose periods end in the same MCLK cycle. -/
def State.entsWith (s : State) (x : Nat) : List Nat :=
  (List.range 225).filter fun y => s.entDue y && (s.ent y).qend / 2 = (s.ent x).qend / 2

/-- The end of a quiet period (R360): the states of one MCLK cycle end first, then what depends on them acts. -/
def faultQuiet (x : Nat) (s : State) : State :=
  if s.entDue x then
    let ends := s.entsWith x
    sgAfter ends (forAll ends closeEffect (forAll ends endEnt s))
  else s

/-- RCLR (R362). In the MCLK cycle in which the state ends, the clear applies first. -/
def faultRclr (x : Nat) (s : State) : State :=
  if s.faultLatched || (s.entOpen x && !s.entDue x) then s.raise F.FLT_STAT_CFG_REJ
  else if !s.entOpen x && (s.ent x).qend ≠ 0 && (s.ent x).qend / 2 = s.now / 2 then s.setFld (entRcnt x) 1
  else s.setFld (entRcnt x) 0

/-- A condition that held quiet periods back ends: they start now. -/
def thaw (bit : Nat) (s : State) : State :=
  forAll (List.range 225) (fun x s =>
    let y := s.ent x
    if y.frozen.testBit bit then
      let f := y.frozen - 2 ^ bit
      s.setEnt x { y with frozen := f, qend := s.now + s.quiet x }
    else s) s

/-! ### Voted fields (R39, R366) -/

/-- A copy of a voted register is upset: `k` 0, 1 or 2, in the bits of `m`. -/
def upset (a k : Nat) (m : Word) (s : State) : State :=
  let cb := tabGet (fun _ => 0) s.copyB a
  let cc := tabGet (fun _ => 0) s.copyC a
  match k with
  | 0 => { s with regs := tabSet regReset s.regs a (tabGet regReset s.regs a ^^^ m),
                  copyB := tabSet (fun _ => 0) s.copyB a (cb ^^^ m), copyC := tabSet (fun _ => 0) s.copyC a (cc ^^^ m) }
  | 1 => { s with copyB := tabSet (fun _ => 0) s.copyB a (cb ^^^ m) }
  | _ => { s with copyC := tabSet (fun _ => 0) s.copyC a (cc ^^^ m) }

/-- Fields of the register at `a` in which a copy disagrees. -/
def State.disagreements (s : State) (a : Nat) : Nat :=
  let d := tabGet (fun _ => 0) s.copyB a ||| tabGet (fun _ => 0) s.copyC a
  match rowOf a with
  | some r => (r.voted.filter fun f => fieldOf d f.1 f.2 ≠ 0).length
  | none => 0

/-- Event source 0xA3 counts vote disagreements; each is a CORRECTED event of source 0x002. -/
def reportVotes (a : Nat) (s : State) : State :=
  (List.range (s.disagreements a)).foldl (fun s _ => (s.count 0xA3 1).report 0x002 a) s

/-- The scrub of one register: disagreeing copies take the majority. -/
def scrubReg (a : Nat) (s : State) : State := if s.disagreements a = 0 then s else (reportVotes a s).setReg a (s.reg a)

/-- The scrub of every voted field, once per ms; `ups` are the upsets since the last one. -/
def votedScrub (ups : List (Nat × Nat × Word)) (s : State) : State :=
  let s := ups.foldl (fun s u => upset u.1 u.2.1 u.2.2 s) s
  if s.bit F.FLT_CTRL_SCRUB_EN then
    (((s.copyB.map (·.1)) ++ (s.copyC.map (·.1))).dedup).foldl (fun s a => scrubReg a s) s
  else s

end Sys2Proof.Machine
end

