-- ==== Sys2Proof/Machine/Clock.lean ====
section
/-! DEFINITION. Clock sources, monitors, the PLLs, core modes, switching, clock-hold, oscillator trim and pulling
(14_clocks.md, R306 to R322; R238). -/

namespace Sys2Proof.Machine

/-! ### Sources (R306, R307)

Sources: 0 XO, 1 RCO, 2 LACE_REF, 3 SKO. -/

def readyFld (k : Nat) : Fld :=
  if k = 0 then F.CLK_STAT_XO_READY else if k = 1 then F.CLK_STAT_RCO_READY
  else if k = 2 then F.CLK_STAT_LACE_READY else F.CLK_STAT_SKO_OK

def State.srcReady (s : State) (k : Nat) : Bool := s.bit (readyFld k)

/-- The source is powered: the RCO with the central domain, the XO while XO_EN is high, LACE_REF on members. -/
def State.srcPowered (s : State) (k : Nat) : Bool :=
  if k = 0 then s.clk.xoOn else if k = 1 then s.fld F.PWR_STAT_STATE ≠ 4 || s.bit F.PWR_STAT_EXITING
  else if k = 2 then !s.laceMaster && s.fld F.PWR_STAT_STATE ≠ 4 else k = 3

/-- Milliseconds of an XO start delay code (Table 14-2). -/
def xoDelayMs (c : Nat) : Nat := [1, 2, 5, 10, 20, 50, 100, 200].getD c 200

/-- The start delay code in force (R307). -/
def State.xoDelay (s : State) : Nat :=
  if s.bit F.CLK_XO_DLY_OVR_VALID then s.fld F.CLK_XO_DLY_OVR else fieldOf s.straps 8 3

/-- XO_EN goes high and the start delay begins. -/
def xoEnable (s : State) : State :=
  if s.clk.xoOn then s
  else { s with clk := { s.clk with xoOn := true, xoCounting := false, xoEnd := s.now + xoDelayMs s.xoDelay * msPclk } }

/-- The end of the start delay: monitor windows count from now on. -/
def xoDelayEnd (s : State) : State :=
  if s.clk.xoOn && !s.clk.xoCounting && s.clk.xoEnd ≤ s.now then { s with clk := { s.clk with xoCounting := true } } else s

/-- A source meets its READY condition. The XO counts windows only after its start delay; monitor windows need
MON_EN. XO_EN rises when the RCO becomes READY. -/
def clockReady (k : Nat) (s : State) : State :=
  let ok := s.srcPowered k && (k = 1 || k = 3 || s.bit F.CLK_MON_CFG_MON_EN) && (k ≠ 0 || s.clk.xoCounting)
  if !ok || s.srcReady k then s
  else
    let s := s.setBit (readyFld k) true
    if k = 1 then xoEnable s else if k = 3 then { s with clk := { s.clk with skoRan := true } } else s

/-! ### Core modes (R312, R315)

CORE_ACT: 0 RCO-direct, 1 XO-direct, 2 PLL. -/

/-- The core leaves PLL mode: the eyelet no longer relays. -/
def setCore (m : Nat) (s : State) : State :=
  let old := s.core
  let s := s.setFld F.CLK_STAT_CORE_ACT m
  if old = 2 && m ≠ 2 then laceDetach s else if old ≠ 2 && m = 2 then laceUpdate s else s

/-- The source of PLL_REF's code: 0 XO, 1 LACE_REF, 2 RCO. -/
def refSource (ref : Nat) : Nat := if ref = 1 then 2 else if ref = 2 then 1 else 0

/-! ### Clock-hold (R318, R319) -/

/-- Clock-hold begins: pads held by the Shank, its record. `fb`: the fall-back awaited, 0 RCO, 1 XO, 2 none. -/
def enterClockHold (fb : Nat) (s : State) : State :=
  if s.bit F.CLK_STAT_HOLD then (if fb = 2 then { s with clk := { s.clk with holdFall := 2 } } else s)
  else
    let s := { s with clk := { s.clk with holdSince := some s.now, holdFall := fb, holdLocked := false } }
    let s := holdPads (s.setBit F.CLK_STAT_HOLD true)
    sgGates (s.raise F.CLK_EVT_HOLD_ENTERED)

def State.holdFallReady (s : State) : Bool :=
  (s.clk.holdFall = 0 && s.srcReady 1) || (s.clk.holdFall = 1 && s.srcReady 0)

/-- The core goes to the fall-back of its mode, or into clock-hold where that is not READY. -/
def fallBack (s : State) : State :=
  let fb := if s.core = 0 then 1 else 0
  let s := if s.core = 2 then s.setBit F.CLK_STAT_PLL_LOCK false else s
  if s.srcReady (if fb = 0 then 1 else 0) then setCore fb s else enterClockHold fb (if s.core = 2 then laceDetach s else s)

/-- Clock-hold can end: it lasts, has not run out, and its fall-back is READY. -/
def State.holdOver (s : State) : Bool := s.clk.holdSince.isSome && !s.clk.holdLocked && s.holdFallReady

/-- The fall-back has become READY: the core switches to it. -/
def clockHoldExit (s : State) : State :=
  match s.clk.holdSince with
  | none => s
  | some t =>
    if !s.holdOver then s
    else
      let s := { s with clk := { s.clk with holdSince := none },
                        boot := { s.boot with since := s.boot.since + (s.now - t) } }
      let s := (s.setBit F.CLK_STAT_HOLD false).setFld F.CLK_HOLD_TIME_TIME (min 0xFFFF ((s.now - t) / usPclk))
      thaw 0 (setCore s.clk.holdFall s)

/-- 10 ms without a READY fall-back. -/
def clockHoldTimeout (s : State) : State :=
  match s.clk.holdSince with
  | none => s
  | some t =>
    if s.clk.holdLocked || s.holdFallReady || s.now < t + 10 * msPclk then s
    else ({ s with clk := { s.clk with holdLocked := true } }.raise F.CLK_EVT_HOLD_TMO).report 0x019 0

/-! ### Monitors (R313, R314)

Watched: 0 XO, 1 RCO, 2 LACE_REF, 3 SKO, 4 main PLL, 5 interface PLL. -/

def tripFlag (k : Nat) : Fld := ⟨R.CLK_EVT, k + 1, 1⟩

/-- The watched clock is there to be lost. -/
def State.monitored (s : State) (k : Nat) : Bool :=
  s.bit F.CLK_MON_CFG_MON_EN &&
    (if k = 4 then s.bit F.CLK_STAT_PLL_LOCK else if k = 5 then s.bit F.CLK_STAT_IPLL_LOCK else s.srcPowered k && (k ≠ 0 || s.clk.xoCounting))

/-- The source loses READY, or the PLL its lock. -/
def clearReady (k : Nat) (s : State) : State :=
  if k = 4 then s.setBit F.CLK_STAT_PLL_LOCK false
  else if k = 5 then s.setBit F.CLK_STAT_IPLL_LOCK false
  else s.setBit (readyFld k) false

/-- SW_REFUSED, a CORRECTED source. -/
def swRefused (s : State) : State := (s.raise F.CLK_EVT_SW_REFUSED).report 0x017 0

/-- A monitor trips; the role of the watched clock at that moment classes the event. -/
def clockTrip (k : Nat) (s : State) : State :=
  if 5 < k || !s.monitored k then s
  else
    let ref := refSource (s.fld F.CLK_SRC_PLL_REF)
    let core := s.core
    let held := s.bit F.CLK_STAT_HOLD
    -- the Shank runs on the SKO, without it on the RCO (R309), and now has no clock (R319)
    let shank := (k = 3 && !s.srcReady 1) || (k = 1 && s.srcReady 1 && !s.srcReady 3)
    let pllRole := core = 2 && !held && (k = ref || k = 4)
    let direct := !held && ((core = 0 && k = 1) || (core = 1 && k = 0))
    let newRef := s.bit F.CLK_STAT_SWITCHING && k = ref
    let s := clearReady k (s.raise (tripFlag k))
    let s := if newRef then swRefused (s.setBit F.CLK_STAT_SWITCHING false) else s
    if shank then (enterClockHold 2 s).reportC (0x010 + k) 2 0
    else if pllRole || direct then (fallBack s).reportC (0x010 + k) 2 0
    else if k = 5 then s.reportC 0x015 2 0
    else s.reportC (0x010 + k) 0 0

/-! ### The PLLs and switching (R310, R311, R316, R317) -/

/-- The settling of VID_CFG.SETTLE µs after a change of VID, with PGOOD high (R336). -/
def State.vidSettled (s : State) : Bool :=
  match s.pwr.vidSince with
  | some t => t + usPclk * s.fld F.PWR_VID_CFG_SETTLE ≤ s.now
  | none => true

/-- The PLLs run: not stopped by a power state, with the core voltage up and settled (R336). -/
def State.pllPowered (s : State) : Bool :=
  s.fld F.PWR_VID_CUR = 0x64 && s.vidSettled && !s.bit F.CLK_STAT_HOLD && (s.fld F.PWR_STAT_STATE < 2 || s.bit F.PWR_STAT_EXITING)

def pllLock (s : State) : State :=
  if s.pllPowered && s.srcReady (refSource (s.fld F.CLK_SRC_PLL_REF)) then laceUpdate (s.setBit F.CLK_STAT_PLL_LOCK true) else s

def ipllLock (s : State) : State :=
  if s.pllPowered && s.srcReady (refSource (s.fld F.CLK_SRC_PLL_REF)) then s.setBit F.CLK_STAT_IPLL_LOCK true else s

/-- The conditions of R316 for new values of CORE and PLL_REF. -/
def State.srcWriteOk (s : State) (core ref : Nat) : Bool :=
  core ≠ 3 && ref ≠ 3 && s.allStopped &&
    (if core = 0 then s.srcReady 1 else if core = 1 then s.srcReady 0
     else s.bit F.CLK_STAT_PLL_LOCK && s.srcReady (refSource (s.fld F.CLK_SRC_PLL_REF))) &&
    s.srcReady (refSource ref) && !(ref = 2 && core = 2 && !s.boot.running)

/-- CLK.SRC takes the new value `w`, written in the bits `m`, or refuses it. -/
def clkSrcWrite (m w : Word) (s : State) : State :=
  let old := s.reg R.CLK_SRC
  let core := fieldOf w 0 2
  let ref := fieldOf w 2 2
  if core = fieldOf old 0 2 && ref = fieldOf old 2 2 then s.setBits R.CLK_SRC m w
  else if !s.srcWriteOk core ref then swRefused s
  else
    let s := s.setBits R.CLK_SRC m w
    let s := if ref = fieldOf old 2 2 then s
      else (s.setBit F.CLK_STAT_PLL_LOCK false).setBit F.CLK_STAT_IPLL_LOCK false
    if core = 2 && ref ≠ fieldOf old 2 2 then setCore 0 (s.setBit F.CLK_STAT_SWITCHING true)
    else setCore core (s.setBit F.CLK_STAT_SWITCHING false)

/-- The relock to the new reference is done: the core returns to PLL mode. -/
def refSwitchComplete (s : State) : State :=
  if s.bit F.CLK_STAT_SWITCHING && s.bit F.CLK_STAT_PLL_LOCK && s.bit F.CLK_STAT_IPLL_LOCK then
    setCore 2 (s.setBit F.CLK_STAT_SWITCHING false)
  else s

/-! ### Trim and pulling (R308, R238) -/

/-- The next multiple of one ms. -/
def nextMs (t : Nat) : Nat := (t / msPclk + 1) * msPclk

/-- One trim step per ms toward the reference; `up`: the count asks for a higher code. A step past either end of
the code has no stated result. -/
def rcoTrimStep (up : Bool) (s : State) : State :=
  if !s.bit F.CLK_RCO_TRIM_TRIM_EN || !s.srcPowered 1 || s.now < s.clk.trimNext then s
  else
    let s := { s with clk := { s.clk with trimNext := nextMs s.now } }
    let src := if s.srcReady 0 then 1 else if s.laceJoined then 2 else 0
    let s := s.setFld F.CLK_RCO_TRIM_TSRC src
    if src = 0 then (s.raise F.CLK_EVT_TRIM_HOLD).report 0x018 0
    else
      let c := s.fld F.CLK_RCO_TRIM_CODE
      if (up && c = 1023) || (!up && c = 0) then s.free.2.setFld F.CLK_RCO_TRIM_CODE (bitsAt s.free.1.toNat 0 10)
      else s.setFld F.CLK_RCO_TRIM_CODE (if up then c + 1 else c - 1)

/-- The table term of R238: linear between the 16 points; exact, else one of the two neighbouring codes, and free
outside −10 °C to +110 °C. -/
def State.pullTable (s : State) : Int × State :=
  let t := s.temp 16 + 160
  let pt (i : Nat) : Int := s.nvmHalf 1 (2 * i)
  if t < 0 || 1920 < t then (bitsAt s.free.1.toNat 0 16, s.free.2)
  else
    let i := (t / 128).toNat
    let f := t % 128
    let n := (128 - f) * pt i + f * pt (min 15 (i + 1))
    if n % 128 = 0 then (n / 128, s) else (n / 128 + (if s.free.1.getLsbD 0 then 1 else 0), s.free.2)

/-- The computed code. -/
def State.pullGoal (s : State) : Nat × State :=
  if !s.bit F.TDCC_TB_CFG_PULL_EN || !s.nvm.loaded.testBit 1 || s.nvm.bad.testBit 1 then (0x8000, s)
  else
    let r := if s.bit F.TDCC_TB_CFG_TCOMP_EN then s.pullTable else ((0x8000 : Int), s)
    let age : Int := if s.bit F.TDCC_TB_CFG_AGE_EN then signed 16 (s.fld F.TDCC_XO_AGE_AGE) else 0
    ((clampInt 0 0xFFFF (r.1 + age)).toNat, r.2)

/-- Once per ms XO_VC moves one code toward the computed one. -/
def xoPullStep (s : State) : State :=
  if s.now < s.clk.pullNext then s
  else
    let s := { s with clk := { s.clk with pullNext := nextMs s.now } }
    let g := s.pullGoal
    let c := s.fld F.TDCC_XO_PULL_PULL
    let c' := if c < g.1 then c + 1 else if g.1 < c then c - 1 else c
    (g.2.setFld F.TDCC_XO_PULL_PULL c').setBit F.TDCC_TB_STAT_SLEW (c' ≠ g.1)

/-! ### Accesses that do not complete (R50, R321) -/

/-- An access has found no completion 4,096 MCLK after its domain was ready, or after a gate was deferred for it. -/
def accessTimeout (m : Master) (write gate : Bool) (a : Nat) (s : State) : State :=
  let s := s.count 0xAB 1
  let s := if gate then (s.addSat F.CLK_DEFER_CNT_CNT 1).raise F.CLK_EVT_GATE_TMO else s
  let s := if write then s else { s with reads := 0 :: s.reads }
  s.reportAccess (if gate then 0x016 else 0x001) a m (if write then 2 else 1)

end Sys2Proof.Machine
end

