-- ==== Sys2Proof/Machine/Power.lean ====
section
/-! DEFINITION. Power states, quarter domains, wakes, VID, pad hold and patrol (15_power_thermal.md, R326 to R341). -/

namespace Sys2Proof.Machine

def State.pstate (s : State) : Nat := s.fld F.PWR_STAT_STATE
def State.inTransit (s : State) : Bool := s.bit F.PWR_STAT_ENTERING || s.bit F.PWR_STAT_EXITING

/-! ### Quarter domains (R326, R327, R335) -/

def setQmask (q : Nat) (on : Bool) (s : State) : State :=
  let m := BitVec.ofNat 16 (2 ^ q)
  s.setReg R.PWR_QMASK (if on then s.reg R.PWR_QMASK ||| m else s.reg R.PWR_QMASK &&& ~~~m)

def setQsettle (q : Nat) (on : Bool) (s : State) : State :=
  let m := BitVec.ofNat 16 (2 ^ q)
  s.setReg R.PWR_QSETTLE (if on then s.reg R.PWR_QSETTLE ||| m else s.reg R.PWR_QSETTLE &&& ~~~m)

/-- Quarter q's domain turns off: isolated pins, DLL and units unpowered, registers kept. -/
def quarterOff (q : Nat) (s : State) : State :=
  let s := dropPending q s
  let s := { s with pwr := { s.pwr with waking := s.pwr.waking.filter fun e => e.1 ≠ q } }
  if !s.quarterOn q then s
  else
    let s := forAll (List.range 64) (fun i s => lqStop (q * 64 + i) true s) s
    let s := (setQsettle q false (setQmask q false (ledgerRestNow q s))).setBit (F.TDCC_DLL_STAT_LOCKED q) false
    forAll (List.range 64) (fun i s => s.setChan (q * 64 + i) (s.chan (q * 64 + i)).cut) s

def allQuartersOff (s : State) : State := forAll (List.range 16) quarterOff s

/-- At most two domains turn on at a time; the others wait. In PATROL the central domain first wakes within 60 µs
(R335). -/
def startWakes (s : State) : State :=
  let t := max s.now (s.pwr.central.getD 0)
  let busy := (s.pwr.waking.filter fun e => e.2.isSome).length
  let r := s.pwr.waking.foldl (fun (acc : List (Nat × Option Nat) × Nat) e =>
    match e.2 with
    | some _ => (acc.1 ++ [e], acc.2)
    | none => if acc.2 < 2 then (acc.1 ++ [(e.1, some t)], acc.2 + 1) else (acc.1 ++ [e], acc.2)) ([], busy)
  { s with pwr := { s.pwr with waking := r.1 } }

/-- Quarter q is to turn on. -/
def quarterWake (q : Nat) (s : State) : State :=
  if s.quarterOn q || s.pwr.waking.any fun e => e.1 = q then s
  else startWakes { s with pwr := { s.pwr with waking := s.pwr.waking ++ [(q, none)] } }

/-- A powered-up quarter: levels at 0x8000 to slew to their targets, driver and termination off, DLL locked in PLL
mode. -/
def quarterPowered (q : Nat) (s : State) : State :=
  let s := setQsettle q true (setQmask q true (ledgerRestNow q s))
  let s := forAll (List.range 64) (fun i s =>
    let c := q * 64 + i
    let s := s.setChan c { (s.chan c).cut with slew := [] }
    forAll (List.range 12) (fun d s => s.setFld (F.CH_LVL_OUT_OUT c d) 0x8000) s) s
  let s := s.setQ q { s.q q with scrubPos := 0 }
  if s.core = 2 then dllLocked q s else s

/-- 180 µs after its wake began, quarter q's bias has settled. -/
def biasSettled (q : Nat) (s : State) : State :=
  match s.pwr.waking.find? fun e => e.1 = q with
  | some (_, some t) =>
    if s.now < t + 180 * usPclk then s
    else startWakes (quarterPowered q { s with pwr := { s.pwr with waking := s.pwr.waking.filter fun e => e.1 ≠ q } })
  | _ => s

/-- Every level of quarter q has reached its goal. -/
def State.quarterSettled (s : State) (q : Nat) : Bool :=
  (List.range 64).all fun i => (List.range 12).all fun d =>
    s.fld (F.CH_LVL_OUT_OUT (q * 64 + i) d) = s.dacGoal (q * 64 + i) d

/-- The levels of a woken quarter have settled: park states, and a pending START. -/
def quarterSettleEnd (q : Nat) (s : State) : State :=
  if !(s.reg R.PWR_QSETTLE).getLsbD q || !s.quarterSettled q then s
  else
    let s := parkPins q (setQsettle q false s)
    if s.pwr.pendStart.contains q then
      qStart q true { s with pwr := { s.pwr with pendStart := s.pwr.pendStart.filter (· ≠ q) } }
    else s

/-- QOFF: quarters that are not stopped are ignored. -/
def qoffWrite (m : Word) (s : State) : State :=
  forAll ((List.range 16).filter fun q => m.getLsbD q && s.stopped q) quarterOff s

def qonWrite (m : Word) (s : State) : State :=
  forAll ((List.range 16).filter fun q => m.getLsbD q) quarterWake s

/-! ### Requests and entries (R329, R330) -/

/-- Table 15-3's condition for entries to NAP and below. -/
def State.mayNap (s : State) : Bool :=
  s.allStopped && !s.bit F.NVM_STAT_RUNNING && !s.lace.surveying && !s.bit F.CLK_STAT_HOLD

def State.patrolSet (s : State) : Bool :=
  (List.range 16).any (fun i => s.bit (F.PWR_PSG_EN i)) || (List.range 4).any (fun j => s.bit (F.PWR_PTS_EN j)) ||
    (List.range 64).any (fun k => s.bit (F.PWR_PPM_EN k))

/-- A transition that Table 15-3 lists, with its condition. -/
def State.powerOk (s : State) (t : Nat) : Bool :=
  match s.pstate, t with
  | 0, 1 => s.allStopped
  | 1, 0 => true
  | 0, 2 => s.mayNap
  | 1, 2 => s.mayNap
  | 3, 2 => true
  | 0, 3 => s.mayNap && s.patrolSet
  | 1, 3 => s.mayNap && s.patrolSet
  | 2, 3 => s.mayNap && s.patrolSet
  | 2, 1 => true
  | 3, 1 => true
  | 4, _ => false
  | _, 4 => s.mayNap && s.srcReady 3
  | _, _ => false

/-- The state in force becomes `t`. -/
def setPstate (t : Nat) (s : State) : State :=
  let s := (s.setFld F.PWR_STAT_STATE t).raise F.PWR_STAT_STATE_EVT
  sgGates { s with pwr := { s.pwr with entered := s.now, tmrDone := false, central := none } }

/-- An access to a quarter that is off, or is being turned off, while an entry or exit runs: it completes with an
error (R331). -/
def rejectAccess (m : Master) (write : Bool) (a : Nat) (s : State) : State :=
  let s := if write then s else { s with reads := 0 :: s.reads }
  (s.raise F.PWR_STAT_ACC_REJ).reportAccess 0x023 a m (if write then 2 else 1)

/-- The stalled accesses to quarters, rejected at the start of an entry. -/
def rejectStalled (s : State) : State :=
  let l := s.pwr.stalled
  let s := { s with pwr := { s.pwr with stalled := l.filter fun x => (addrQuarter x.addr).isNone } }
  (l.filter fun x => (addrQuarter x.addr).isSome).foldl (fun s x => rejectAccess x.master x.write x.addr s) s

/-- An entry begins (Table 15-4): the quarters go off; below HOLD the eyelet detaches, the core goes to its direct
mode, both PLLs stop and VID goes down. At the start of a SHANK entry the pads are held. -/
def startEntry (t : Nat) (s : State) : State :=
  let s := (s.setBit F.PWR_STAT_ENTERING true).setFld F.PWR_REQ_TARGET t
  let s := { s with pwr := { s.pwr with target := t, since := s.now, wakeLatch := 0,
                                        restore := if t = 2 || t = 3 then (s.reg R.PWR_QMASK).toNat else s.pwr.restore } }
  let s := rejectStalled (allQuartersOff s)
  if t = 1 then s
  else
    let s := if t = 4 then sgGates (holdPads s) else s
    let s := laceDetachCmd s
    let s := laceDetach s
    let s := setCore (if s.srcReady 0 then 1 else 0) s
    let s := ((s.setBit F.CLK_STAT_PLL_LOCK false).setBit F.CLK_STAT_IPLL_LOCK false).setBit F.CLK_STAT_SWITCHING false
    if s.fld F.PWR_VID_CUR = 0x3C then s
    else { s.setFld F.PWR_VID_CUR 0x3C with pwr := { s.pwr with vidSince := some s.now } }

/-- A request with GO (R329). -/
def powerReq (t : Nat) (s : State) : State :=
  let s := s.setFld F.PWR_REQ_TARGET t
  if s.inTransit then s.raise F.PWR_STAT_REFUSED
  else if t = s.pstate then s
  else if 5 ≤ t || !s.powerOk t then s.raise F.PWR_STAT_REFUSED
  else if s.pstate = 1 && t = 0 then setPstate 0 s
  else if t = 1 && 2 ≤ s.pstate then startExit s
  else startEntry t s


/-- The part wakes (R333): latched events start the exit as soon as the entry is complete. -/
def replayWake (s : State) : State :=
  if s.pwr.wakeLatch = 0 then s
  else startExit ({ s with pwr := { s.pwr with wakeLatch := 0 } }.raise F.PWR_WAKE_SRC_REPLAYED)

/-- PRES.VALID shows results since the entry to PATROL. -/
def clearPres (s : State) : State := forAll (List.range 100) (fun i s => s.setReg (R.PWR_PRES_H i) 0) s

/-! ### Wakes -/

/-- The Shank timer (R333): once in a state, SHANK_TMR seconds after its entry. -/
def shankTimer (s : State) : State :=
  let n := s.fld F.PWR_SHANK_TMR_SEC
  if n = 0 || s.pstate < 2 || s.bit F.PWR_STAT_ENTERING || s.pwr.tmrDone || s.now < s.pwr.entered + n * 1000 * msPclk then s
  else wakeEvent 4 { s with pwr := { s.pwr with tmrDone := true } }

/-! ### VCORE (R336, R337) -/

/-- PGOOD low for more than 1 µs outside a VID change. -/
def pgoodLost (s : State) : State :=
  if s.pwr.vidSince.isSome then s
  else (s.raise F.PWR_STAT_PGOOD_LOST).report 0x020 (s.fld F.PWR_VID_CUR)

/-- PGOOD is not high TMO after a VID change: an entry goes on at the lower frequency; an exit from NAP or PATROL stops,
and the state stays (R337). -/
def vidTimeout (s : State) : State :=
  match s.pwr.vidSince with
  | none => s
  | some t =>
    if s.now < t + 100 * usPclk * max 1 (s.fld F.PWR_VID_CFG_TMO) then s
    else
      let s := (s.raise F.PWR_STAT_VID_TMO).report 0x021 (s.fld F.PWR_VID_CUR)
      let s := { s with pwr := { s.pwr with vidSince := none } }
      if s.bit F.PWR_STAT_EXITING && s.pstate ≠ 4 then s.setBit F.PWR_STAT_EXITING false else s

/-! ### Pad hold (R338, R339) -/

/-- A write of HOLD = 0: refused without a passed load check, in clock-hold, or after the backstop. -/
def padRelease (s : State) : State :=
  if !s.bit F.PWR_PAD_HOLD_HOLD then s
  else if !s.led.passed || s.bit F.CLK_STAT_HOLD || s.bit F.PWR_STAT_BACKSTOP then s.raise F.PWR_PAD_HOLD_REL_REFUSED
  else sgGates (s.setBit F.PWR_PAD_HOLD_HOLD false)

/-! ### Patrol (R340, R341) -/

/-- Write one PRES entry. -/
def setPres (i : Nat) (v : Int) (fail : Bool) (s : State) : State :=
  let c := (v % 2 ^ 24).toNat
  (s.setReg (R.PWR_PRES_L i) (BitVec.ofNat 16 c)).setReg (R.PWR_PRES_H i)
    (BitVec.ofNat 16 (c / 2 ^ 16 + 0x4000 + (if fail then 0x8000 else 0)))

/-- The outcome of entry `e` of a cycle, whose results stand at the indices of `rs`: its failures in a row, and a
violation at VIOL_N of them. -/
def patrolResult (e : Nat) (rs : List (Nat × Int)) (ok : Bool) (acc : State × List Nat) : State × List Nat :=
  let s := rs.foldl (fun s r => setPres r.1 r.2 (!ok) s) acc.1
  let n := if ok then 0 else tabGet (fun _ => 0) s.pwr.fails e + 1
  let s := { s with pwr := { s.pwr with fails := tabSet (fun _ => 0) s.pwr.fails e n } }
  (s, if !ok && max 1 (s.fld F.PWR_PAT_CFG2_VIOL_N) ≤ n then acc.2 ++ rs.map (·.1) else acc.2)

/-- V_RES and I_RES of an SG channel, and a threshold code in their scale. -/
def State.sgResult (s : State) (lo hi : Fld) : Int := signed 24 (s.fld lo + 2 ^ 16 * s.fld hi)
def codeScale (k : Nat) : Int := ((k : Int) - 32768) * 256

def patrolSg (i : Nat) (acc : State × List Nat) : State × List Nat :=
  let s := acc.1
  if !s.bit (F.PWR_PSG_EN i) then acc
  else
    let n := s.fld (F.PWR_PSG_SG i)
    let v := s.sgResult (F.SG_V_RES_L_V n) (F.SG_V_RES_H_V n)
    let a := s.sgResult (F.SG_I_RES_L_I n) (F.SG_I_RES_H_I n)
    let inside (x : Int) (l h : Nat) : Bool := codeScale l ≤ x && x ≤ codeScale h
    patrolResult i [(i, v), (16 + i, a)]
      (inside v (s.fld (F.SG_VLO_VLO n)) (s.fld (F.SG_VHI_VHI n)) &&
        inside a (s.fld (F.SG_ILO_ILO n)) (s.fld (F.SG_IHI_IHI n))) acc

def patrolPpmu (ps : List PatrolPpmu) (k : Nat) (acc : State × List Nat) : State × List Nat :=
  let s := acc.1
  if !s.bit (F.PWR_PPM_EN k) then acc
  else
    let c := s.fld (F.PWR_PPM_CH k)
    match ps.find? fun p => p.k = k with
    | none => acc
    | some p =>
      let w := s.reg (R.CH_PMU_CTRL c)
      let need := 2 ^ min (s.fld (F.CH_PMU_MEAS_AVG_LOG2 c)) 16
      let s := s.setPmu c { s.pmu c with running := true, need := need, taken := need, sum := p.sum,
                                         meas := fieldOf w 2 1, range := rangeOf w, ovr := false, endAt := none }
      let s := pmuFinish c s.now false false s
      let r := signed 24 ((s.reg (R.CH_RES_L c)).toNat + 2 ^ 16 * s.fld (F.CH_RES_H_RES_H c))
      let lo := signed 24 ((s.reg (R.CH_LIMLO_L c)).toNat + 2 ^ 16 * s.fld (F.CH_LIMLO_H_LIMLO_H c))
      let hi := signed 24 ((s.reg (R.CH_LIMHI_L c)).toNat + 2 ^ 16 * s.fld (F.CH_LIMHI_H_LIMHI_H c))
      patrolResult (20 + k) [(36 + k, r)] (lo ≤ r && r ≤ hi) (s, acc.2)

/-- The patrol period in PCLK. -/
def State.patrolPeriod (s : State) : Nat := msPclk * min 10000 (max 1 (s.fld F.PWR_PAT_CFG_PER_MS))

end Sys2Proof.Machine
end

