-- ==== Sys2Proof/Machine/Thermal.lean ====
section
/-! DEFINITION. The sensor network, warning and shutdown, the backstop (15_power_thermal.md, R342 to R348). -/

namespace Sys2Proof.Machine

/-! ### Cross-check (R343) -/

def State.sensorBroken (s : State) (i : Nat) : Bool :=
  if i < 16 then (s.reg R.THM_BROKEN_L).getLsbD i else (s.reg R.THM_BROKEN_H).getLsbD 0

def setBroken (i : Nat) (b : Bool) (s : State) : State :=
  s.setBit (if i < 16 then ⟨R.THM_BROKEN_L, i, 1⟩ else ⟨R.THM_BROKEN_H, 0, 1⟩) b

def neighbours (i : Nat) : List Nat := if i < 16 then [(i + 15) % 16, (i + 1) % 16, 16] else List.range 16

/-- A reading that counts: converted, from −55 °C to +150 °C. -/
def validReading (r : Option Int) : Option Int :=
  match r with
  | some t => if -880 ≤ t && t ≤ 2400 then some t else none
  | none => none

def insertInt (x : Int) : List Int → List Int
  | [] => [x]
  | y :: t => if x ≤ y then x :: y :: t else y :: insertInt x t

/-- The middle value, of an even count the higher one. -/
def median (l : List Int) : Option Int := (l.foldr insertInt [])[l.length / 2]?

def State.neighbourMedian (s : State) (rs : List (Option Int)) (i : Nat) : Option Int :=
  median ((neighbours i).filterMap fun j => if s.sensorBroken j then none else validReading (rs.getD j none))

/-- The cross-check of sensor i: three deviations in a row break it. -/
def crossCheck (rs : List (Option Int)) (s0 : State) (i : Nat) (s : State) : State :=
  let dev := match validReading (rs.getD i none) with
    | none => true
    | some t => match s0.neighbourMedian rs i with
      | some m => m + 128 < t || t < m - 128
      | none => false
  let n := if dev then tabGet (fun _ => 0) s.thm.devCnt i + 1 else 0
  let s := { s with thm := { s.thm with devCnt := tabSet (fun _ => 0) s.thm.devCnt i (min n 3) } }
  if n < 3 || s.sensorBroken i then s
  else
    let s := ((setBroken i true s).raise F.THM_STAT_BROKEN_EVT).report 0x027 i
    if 3 ≤ ((List.range 17).filter s.sensorBroken).length then (s.raise F.THM_STAT_MULTI_BROKEN).report 0x025 i else s

/-! ### Warning and shutdown (R344 to R346) -/

/-- WARN, never above 105 °C. -/
def State.warnLimit (s : State) : Int := ((min (s.fld F.THM_WARN_WARN) 0x0690 : Nat) : Int)

def State.hottest (s : State) : Int := signed 16 (s.fld F.THM_MAX_H)

/-- The thermal entry to NAP, or its wait for a STORE, a clock-hold, or an entry or exit in progress. -/
def thermalNap (s : State) : State :=
  if 2 ≤ s.pstate && !s.bit F.PWR_STAT_EXITING then { s with thm := { s.thm with shutPend := false } }
  else if s.bit F.PWR_STAT_ENTERING && s.pwr.target ≠ 1 then { s with thm := { s.thm with shutPend := false } }
  else if s.bit F.NVM_STAT_RUNNING || s.bit F.CLK_STAT_HOLD || s.inTransit then { s with thm := { s.thm with shutPend := true } }
  else
    let s := if s.lace.surveying then surveyRelease s else s
    startEntry 2 { s with thm := { s.thm with shutPend := false, napLock := true } }

/-- A clock-hold has ended: the thermal entry that it held back follows only while H is at or above WARN − 5 °C
(R346). -/
def thermalHoldEnd (s : State) : State :=
  if s.bit F.CLK_STAT_HOLD || s.bit F.NVM_STAT_RUNNING || s.inTransit || s.warnLimit - 80 ≤ s.hottest then s
  else { s with thm := { s.thm with shutPend := false } }

/-- What held the thermal entry back has ended. -/
def thermalResume (s : State) : State := if s.thm.shutPend then thermalNap s else s

/-- The network's rate: 0 10 ms, 1 1 ms, 2 100 µs. -/
def thmRate (h w : Int) (r : Nat) : Nat :=
  if 1888 ≤ h || (r = 2 && 1872 ≤ h) then 2 else if w - 80 ≤ h || (1 ≤ r && w - 96 ≤ h) then 1 else 0

/-- The hottest sensor's number, for the fault's address. -/
def State.hotSensor (s : State) : Nat := ((List.range 17).find? fun i => s.temp i = s.hottest).getD 0

/-- What a new H does; `old` is the H before. -/
def thermalAct (old : Int) (s : State) : State :=
  let h := s.hottest
  let w := s.warnLimit
  let s :=
    if w ≤ h && !s.bit F.THM_STAT_WARN_ACT then
      wakeEvent 1 (((s.setBit F.THM_STAT_WARN_ACT true).raise F.THM_STAT_WARN_EVT).report 0x026 s.hotSensor)
    else if h < w - 32 then s.setBit F.THM_STAT_WARN_ACT false
    else s
  let s := if 1920 ≤ h && old < 1920 then thermalNap ((s.raise F.THM_STAT_SHUT).report 0x024 s.hotSensor) else s
  let s := if h < w - 80 then thaw 1 { s with thm := { s.thm with napLock := false } } else s
  s.setFld F.THM_STAT_RATE (thmRate h w (s.fld F.THM_STAT_RATE))

/-! ### One reading of the network (R342 to R348) -/

/-- The in-force value of sensor i: its reading, or for a broken one its median. -/
def inForce (rs : List (Option Int)) (i : Nat) (s : State) : State :=
  let put (t : Int) : State := s.setReg (R.THM_T i) (BitVec.ofInt 16 t)
  if s.sensorBroken i then
    match s.neighbourMedian rs i with
    | some m => put m
    | none => s
  else match validReading (rs.getD i none) with
    | some t => put t
    | none => s

/-- All 17 sensors are read together; `rs`: the offset-corrected readings in 1/16 °C, none where a conversion
failed. -/
def thmReading (rs : List (Option Int)) (s : State) : State :=
  if s.pstate = 3 || s.pstate = 4 || s.bit F.PWR_STAT_BACKSTOP then s
  else
    let old := s.hottest
    let all := List.range 17
    let s := forAll all (fun i s => match rs.getD i none with
      | some t => s.setReg (R.THM_RAW i) (BitVec.ofInt 16 t)
      | none => s) s
    let s := if s.bit F.THM_CFG_XCHK_EN then forAll all (crossCheck rs s) s else s
    let s := forAll all (inForce rs) s
    let known := all.filter fun i => !s.sensorBroken i || (s.neighbourMedian rs i).isSome
    let h := match known.map s.temp with
      | [] => s.hottest
      | t :: l => l.foldl max t
    -- a broken sensor with no valid neighbour takes H
    let s := forAll (all.filter fun i => !known.contains i) (fun i s => s.setReg (R.THM_T i) (BitVec.ofInt 16 h)) s
    let s := thermalAct old (s.setReg R.THM_MAX (BitVec.ofInt 16 h))
    forAll (List.range 16) (fun q s =>
      let d := s.temp q - (s.dll q).lockTemp
      if s.bit (F.TDCC_DLL_STAT_LOCKED q) && (160 ≤ d || d ≤ -160) && !s.bit (F.TDCC_DLL_STAT_RELOCK_PEND q) then relockRequest q s
      else s) s

/-! ### Patrol's cycles (R340, R341) -/

/-- Entry j samples its sensor (R340): the reading, or what is in force for a broken one (R342). -/
def patrolTemp (ts : List Int) (j : Nat) (acc : State × List Nat) : State × List Nat :=
  let s := acc.1
  if !s.bit (F.PWR_PTS_EN j) then acc
  else
    let i := min 16 (s.fld (F.PWR_PTS_SENSOR j))
    let t := if s.sensorBroken i then s.temp i else ts.getD i (s.temp i)
    patrolResult (16 + j) [(32 + j, t)] (signed 16 (s.fld F.PWR_PAT_TLO_TLO) ≤ t && t ≤ signed 16 (s.fld F.PWR_PAT_THI_THI)) acc

/-- The sensors that a patrol cycle samples show their readings; H and what it does follow (R342, R345, R346). -/
def patrolReadings (ts : List Int) (s : State) : State :=
  let old := s.hottest
  let is := ((List.range 4).filter fun j => s.bit (F.PWR_PTS_EN j)).map fun j => min 16 (s.fld (F.PWR_PTS_SENSOR j))
  let s := forAll is (fun i s =>
    let t := BitVec.ofInt 16 (ts.getD i (s.temp i))
    let s := s.setReg (R.THM_RAW i) t
    if s.sensorBroken i then s else s.setReg (R.THM_T i) t) s
  match is with
  | [] => s
  | _ => thermalAct old (s.setReg R.THM_MAX (BitVec.ofInt 16 (((List.range 16).map s.temp).foldl max (s.temp 16))))

/-- One patrol cycle that began when it was due: the sensors' readings, the PPMU intervals and its length. -/
def patrolCycle (ts : List Int) (ps : List PatrolPpmu) (dur : Nat) (s : State) : State :=
  if s.pstate ≠ 3 || s.inTransit || s.now < s.pwr.patrolNext then s
  else
    let t0 := s.pwr.patrolNext
    let next := t0 + s.patrolPeriod
    let s := { s with pwr := { s.pwr with patrolNext := max next (t0 + dur) } }
    let s := if next < t0 + dur then s.raise F.PWR_PAT_STAT_OVERLAP else s
    let r := (List.range 16).foldl (fun acc i => patrolSg i acc) (patrolReadings ts s, [])
    let r := (List.range 4).foldl (fun acc j => patrolTemp ts j acc) r
    let r := (List.range 64).foldl (fun acc k => patrolPpmu ps k acc) r
    match r.2 with
    | [] => r.1
    | l => wakeEvent 2 ((r.1.setFld F.PWR_PAT_STAT_FIRST (l.foldl min 127)).raise F.PWR_PAT_STAT_VIOL)

/-- BROKEN_CLR of the sensors in a 17-bit mask. -/
def brokenClear (m : Nat) (s : State) : State :=
  forAll ((List.range 17).filter fun i => m.testBit i && s.sensorBroken i) (fun i s =>
    setBroken i false { s with thm := { s.thm with devCnt := tabSet (fun _ => 0) s.thm.devCnt i 0 } }) s

/-- The backstop (R347): pad hold, every domain but the Shank off, a latched FATAL. -/
def backstopTrip (s : State) : State :=
  if s.pstate = 4 || s.bit F.PWR_STAT_BACKSTOP then s
  else
    let s := (holdPads s).setBit F.PWR_STAT_BACKSTOP true
    let s := { s with reported := s.reported ++ [{ src := 0x022, cls := 2, addr := 16, time := s.now, shank := true }] }
    let s := setCore 0 (laceDetach (allQuartersOff s))
    sgGates ((s.setBit F.CLK_STAT_PLL_LOCK false).setBit F.CLK_STAT_IPLL_LOCK false)

end Sys2Proof.Machine
end

