-- ==== Sys2Proof/Machine/Reset.lean ====
section
/-! DEFINITION. What each reset level and the loss of power do to the state; the ends of power entries and exits
(17_boot_reset.md, R373 to R376; R330, R370; Table 6-6). -/

namespace Sys2Proof.Machine

/-! ### Registers -/

/-- Registers of the Shank (Table 17-2, R351, R370, R372, R385). -/
def shankReg (a : Nat) : Bool :=
  a = 0x10 || a = 0x100C || a = 0x13FC || (0x2000 ≤ a && a < 0x2800) || (0x10008 ≤ a && a < 0x10018) ||
    (0x11000 ≤ a && a < 0x12000)

/-- The output code of a level DAC, which a reset does not set but slews to 0x8000 (Table 6-6). -/
def outReg (a : Nat) : Bool :=
  0x100000 ≤ a && a < 0x200000 && 0x8000 ≤ a % 0x10000 && 0x40 ≤ a % 0x200 && a % 0x200 < 0x100 && a % 0x10 = 4

/-- Registers of quarter q: QSEQ, QTS, Qq.TXN, Tnn, CH and PPMU, PEq. -/
def quarterReg (q a : Nat) : Bool :=
  (0x100000 + q * 0x10000 ≤ a && a < 0x110000 + q * 0x10000) || (0x84000 + q * 0x2000 ≤ a && a < 0x85000 + q * 0x2000)

/-- Every register but those in `keep` holds its reset value; nothing waits for one. -/
def resetRegs (keep : Nat → Bool) (s : State) : State :=
  let f {α : Type} (t : Tab α) : Tab α := t.filter fun e => keep e.1
  { s with regs := f s.regs, copyB := f s.copyB, copyC := f s.copyC, hostRc := f s.hostRc, spx1Rc := f s.spx1Rc,
           holdH := f s.holdH, holdS := f s.holdS, posted := f s.posted, handed := f s.handed }

/-! ### Quarters -/

/-- Quarter q outside its registers after a reset: nothing in flight but reads of HBM, pins as at power-up; head
store, site map and body-granule count stay. -/
def resetQuarter (q : Nat) (s : State) : State :=
  let s := s.setQ q { bodyGran := (s.q q).bodyGran, lastBoundary := granuleOf s.now, timeZero := s.now }
  let s := s.setM q { heads := (s.m q).heads, build := (s.m q).build, flights := (s.m q).flights }
  let s := s.setR q {}
  let s := forAll (List.range 64) (fun i s =>
    let c := q * 64 + i
    (s.setChan c { site := (s.chan c).site }).setPmu c {}) s
  let s := forAll (List.range 4) (fun k s => s.setTdc (4 * q + k) {}) s
  let s := { s with adcs := s.adcs.filter (fun e => e.1 / 4 ≠ q), adcAt := s.adcAt.filter (fun e => e.1 / 4 ≠ q),
                    pwr := { s.pwr with pendStart := s.pwr.pendStart.filter (· ≠ q) },
                    cal := { s.cal with slots := tabErase s.cal.slots q } }
  resWait (showArb ((portReset q s).setTxn q {}))

/-- A level queue runs on channel c. -/
def State.lqRuns (s : State) (c : Nat) : Bool := s.bit (F.CH_LQ_CFG_EN c)

/-- The queues that the reset stopped, of the channels that had them running before it (R151). -/
def lqAborted (s0 : State) (cs : List Nat) (s : State) : State :=
  forAll (cs.filter s0.lqRuns) (fun c s => s.raise (F.CH_LQ_STAT_LQ_ABORT c)) s

/-- Channels whose fault states a reset leaves open stay forced. -/
def reforce (q : Nat) (s : State) : State :=
  forAll (List.range 64) (fun i s =>
    let c := q * 64 + i
    if s.chipFault then safeChan c s else if s.ownerFaulted c then forceOnce c s else s) s

/-- A WARM reset of quarter q (R226, R243, R284, R302, R370). -/
def warmQuarter (q : Nat) (s0 : State) : State :=
  let n := (s0.r q).queue.length
  let s := flushStream q (ledgerSettle s0)
  let s := resetRegs (fun a => !quarterReg q a || outReg a) s
  let s := forAll (List.range 8) (fun i s => s.setEnt (q * 8 + i) { s.ent (q * 8 + i) with sinceStart := false }) s
  let s := showFill q (resetQuarter q s)
  let ring := s.fld (F.QRES_RT_CTL_RING q)
  let s := centralWrite q (centralRecord s q q 0x08 (pf 24 4 + pf 28 (lossCount n)) ring) s
  reforce q (lqAborted s0 ((List.range 64).map (q * 64 + ·)) (invalidate q 2 s))

/-! ### COLD and FULL -/

/-- The sources as they run, shown again after CLK.STAT returned to reset: the reset stops none of them (R322). -/
def keepSources (old s : State) : State :=
  let s := forAll (List.range 4) (fun k s => s.setBit (readyFld k) (old.srcReady k)) s
  s.setBit F.CLK_STAT_HOLD (old.bit F.CLK_STAT_HOLD)

/-- The central blocks and the quarters outside their registers after a COLD reset; the ledger begins its next
window at the next window boundary. -/
def resetBlocks (s : State) : State :=
  let w := (s.now + 639) / 640
  let s := forAll (List.range 16) (fun q s => (resetQuarter q s).setM q {}) s
  { s with
    win := s.win.filter (fun e => !(0x47000 ≤ e.1 && e.1 < 0x50000))
    linkUp := false, pcie := {}
    evcs := [], txns := [], srcs := [], sgs := [], rings := [], pumpNext := 0, pumpAt := 0, pumpUsed := 0
    led := { window := w, upto := (List.range 17).foldl (fun t i => tabSet (fun _ => 0) t i (640 * w)) [] }
    dlls := [], lace := {}, ports := [], spx1 := { frame := if s.spx1.frame = 0 then 0 else 4 }
    calch := [], cal := {}, thm := {}
    nvm := { pages := s.nvm.pages }
    clk := { s.clk with trimNext := 0, pullNext := 0 }
    hostBudget := 44, heldHost := [], scrubA := 0, scrubB := 0, scrubAtA := 0, scrubAtB := 0, errAddrHeld := false }

/-- A COLD reset (R374, R349): everything outside the Shank, STATE to RUN, pad hold. -/
def coldReset (s0 : State) : State :=
  let s := resetBlocks (resetRegs (fun a => shankReg a || (outReg a && s0.quarterOn ((a - 0x100000) / 0x10000))) s0)
  let s := keepSources s0 s
  let s := { (s.setFld F.PWR_STAT_STATE 0).setBit F.PWR_PAD_HOLD_HOLD true with pwr := { s.pwr with clamps := [] } }
  forAll (List.range 16) reforce (lqAborted s0 (List.range 1024) s)

/-- A cause of reset in RST_CAUSE. -/
def setCauseBit (b : Nat) (s : State) : State := s.setRc R.CHIP_RST_CAUSE (BitVec.ofNat 16 (2 ^ b))

/-- The boot restarts at a step. -/
def bootFrom (n : Nat) (s : State) : State :=
  { s.setFld F.CHIP_BOOT_STAT_STEP n with boot := { up := true, running := true, since := s.now, released := s.now } }

/-- COLD, requested by software: the boot restarts at step 4. -/
def coldCommand (s : State) : State :=
  let s := bootFrom 4 (setCauseBit 1 (coldReset s))
  { s with boot := { s.boot with buildDue := true } }

/-- Everything the part holds returns to reset, with the straps sampled anew (R375, R376); `power`: the supplies
were lost, so SRAM contents are gone; without that the levels slew to 0x8000 from where they are (Table 6-6). Outputs, waiting commands, the model's counter and the NVM's pages stay. -/
def fullReset (straps : Word) (cause : Nat) (power : Bool) (s : State) : State :=
  let slews (a : Nat) : Bool := !power && outReg a && s.quarterOn ((a - 0x100000) / 0x10000)
  let t : State := { regs := s.regs.filter fun e => slews e.1
                     clk := { skoRan := !power && s.clk.skoRan }
                     pending := s.pending, freeCount := s.freeCount, msgs := s.msgs, hostMem := s.hostMem, reads := s.reads,
                     win := if power then [] else s.win.filter (fun e => !(0x47000 ≤ e.1 && e.1 < 0x50000)),
                     nvm := { pages := s.nvm.pages }, straps := straps, installed := s.installed,
                     spx1 := { frame := if power || s.spx1.frame = 0 then 0 else 4 },
                     tap := if power then {} else s.tap,
                     chans := if power then [] else (s.chans.map fun e => (e.1, ({ site := e.2.site } : Chan))).filter fun e => e.2.site.isSome }
  let t := bootFrom 1 (setCauseBit cause t)
  if power then t else lqAborted s (List.range 1024) t

/-- The release of power-on reset: the straps, and the HBM that the part carries (R397, R83). -/
def powerOn (straps : Word) (gib32 : Bool) (s : State) : State :=
  fullReset straps 4 true { s with installed := if gib32 then 2 else 1 }

/-- A WARM request (R376): the quarters of RST_QMASK, unless a boot is past step 4. -/
def State.bootBusy (s : State) : Bool :=
  (s.boot.running && 5 ≤ s.fld F.CHIP_BOOT_STAT_STEP) || s.bit F.CHIP_BOOT_STAT_WAIT_IMAGE

def warmCommand (s : State) : State :=
  if s.bootBusy then s.raise F.CHIP_BOOT_STAT_BUSY_REJ
  else
    let m := s.reg R.CHIP_RST_QMASK
    forAll ((List.range 16).filter m.getLsbD) warmQuarter (setCauseBit 0 s)

/-- A write to CHIP.RST with its KEY: the highest level named (R376). -/
def rstWrite (w : Word) (straps : Word) (s : State) : State :=
  if fieldOf w 8 8 ≠ 0x5A then s
  else if w.getLsbD 2 then fullReset straps 2 false s
  else if w.getLsbD 1 then coldCommand s
  else if w.getLsbD 0 then warmCommand s
  else s

/-! ### Ends of power entries and exits (R330) -/

/-- SHANK takes the power of every other domain: their state is lost, the XO and the RCO stop. -/
def losePower (s0 : State) : State :=
  let s := resetBlocks (resetRegs shankReg s0)
  let s := { s with win := [], hbm := [], clk := { s.clk with xoOn := false, xoCounting := false } }
  (s.setBit F.CLK_STAT_SKO_OK (s0.srcReady 3)).setFld F.PWR_STAT_STATE (s0.fld F.PWR_STAT_STATE)

/-- The last step of an entry: PGOOD and SETTLE over where VID changed, unless they timed out. -/
def entryComplete (s : State) : State :=
  if !s.bit F.PWR_STAT_ENTERING || !s.vidSettled then s
  else
    let t := s.pwr.target
    let s := { s.setBit F.PWR_STAT_ENTERING false with pwr := { s.pwr with vidSince := none } }
    let s := if t = 4 then losePower s else if t = 3 then clearPres s else s
    let s := setPstate t s
    let s := { s with pwr := { s.pwr with patrolNext := s.now, fails := [] } }
    replayWake (thermalResume s)

/-- An exit to HOLD completes once both PLLs are locked; the eyelet seeks, the quarters of the restore mask wake. An
exit from SHANK ends in RUN when the boot has reached its end. -/
def exitComplete (s : State) : State :=
  if !s.bit F.PWR_STAT_EXITING then s
  else if s.pstate = 4 then
    if s.boot.running || s.fld F.CHIP_BOOT_STAT_STEP ≠ 13 then s
    else setPstate 0 { s.setBit F.PWR_STAT_EXITING false with pwr := { s.pwr with vidSince := none } }
  else if !s.vidSettled || !s.bit F.CLK_STAT_PLL_LOCK || !s.bit F.CLK_STAT_IPLL_LOCK then s
  else
    let s := { s.setBit F.PWR_STAT_EXITING false with pwr := { s.pwr with vidSince := none } }
    let s := setCore 2 s
    let s := if s.bit F.LACE_CTRL_RING_EN then s.setFld F.LACE_STAT_STATE 1 else s
    let s := setPstate 1 s
    let s := forAll ((List.range 16).filter s.pwr.restore.testBit) quarterPowered s
    thermalResume { s with pwr := { s.pwr with restore := 0 } }

end Sys2Proof.Machine
end

