-- ==== Sys2Proof/Machine/Views.lean ====
section
/-! DEFINITION. What a read of a register returns: fields shown from the state, the two copies of RC fields,
latched reads of each reader, vote disagreements (02_registers_host.md, R33, R36, R39, R46). -/

namespace Sys2Proof.Machine

def word (n : Nat) : Word := BitVec.ofNat 16 n
def intWord (i : Int) : Word := BitVec.ofInt 16 i

/-! ### Views of blocks that show state held elsewhere -/

/-- CAL.S_* of channel SEL (Table 13-7). -/
def State.viewCal (s : State) (a : Nat) : Option Word :=
  let x := s.calCh (s.fld F.CAL_SEL_CH)
  if a = R.CAL_S_THR then some (intWord x.shadowS)
  else if a = R.CAL_S_EDGE then some (intWord x.shadowE)
  else if a = R.CAL_S_AGE then some (word (min 0xFFFF (s.calAge (s.fld F.CAL_SEL_CH) / 800)))
  else if a = R.CAL_S_STAT then some (withField (s.reg a) 0 3 x.stat)
  else none

/-- RING.S_* of ring SEL (Table 9-8). -/
def State.viewRing (s : State) (a : Nat) : Option Word :=
  let x := s.ring (s.fld F.RING_SEL_RING)
  let lost := x.lost.foldl (fun n e => n + e.2.2) 0
  if a = R.RING_S_STAT then
    some (withField (s.reg a) 0 3 ((if x.on then 1 else 0) + (if x.on && ringCap x ≤ x.fill + 64 then 2 else 0) +
      (if x.waitHost then 4 else 0)))
  else if a = R.RING_S_FILL_L then some (word x.fill)
  else if a = R.RING_S_FILL_H then some (word (x.fill / 2 ^ 16))
  else if a = R.RING_S_RSEQ_L then some (word x.rseq)
  else if a = R.RING_S_RSEQ_H then some (word (x.rseq / 2 ^ 16))
  else if a = R.RING_S_LOST then some (word (min 0xFFFF lost))
  else none

/-- LEDG.OBS_* of the scope and group in OBS_SEL (Table 8-6). -/
def State.viewLedg (s : State) (a : Nat) : Option Word :=
  let k := min 16 (s.fld F.LEDG_OBS_SEL_SCOPE) * 8 + s.fld F.LEDG_OBS_SEL_GROUP
  let get (t : Tab Nat) : Word := word (min 0xFFFF (tabGet (fun _ => 0) t k))
  if a = R.LEDG_OBS_PRED then some (get s.led.obsPred)
  else if a = R.LEDG_OBS_MEAS then some (get s.led.obsMeas)
  else if a = R.LEDG_OBS_PEAK then some (get s.led.obsPeak)
  else if a = R.LEDG_OBS_WIN then some (word s.led.obsWin)
  else none

/-- NVM.CUR, GEN and CYC of page SEL.LPN (Table 13-8). -/
def State.viewNvm (s : State) (a : Nat) : Option Word :=
  let n := s.fld F.NVM_SEL_LPN
  let cur := s.current n
  let gen := match cur with
    | some p => s.pageDw p 1
    | none => 0
  let cyc := s.pageDw (s.storeTarget n) 3
  if a = R.NVM_CUR then
    some (withField (s.reg a) 13 3 ((if cur = some (2 * n + 1) then 1 else 0) + (if s.copyValid n (2 * n + 1) then 2 else 0) +
      (if s.copyValid n (2 * n) then 4 else 0)))
  else if a = R.NVM_GEN_L then some (word gen)
  else if a = R.NVM_GEN_H then some (word (gen / 2 ^ 16))
  else if a = R.NVM_CYC_L then some (word cyc)
  else if a = R.NVM_CYC_H then some (word (cyc / 2 ^ 16 % 2))
  else none

/-- A channel's STAT.SLEWING and CMP_STATE, and LQ_PUSH, which reads 0 (Table 6-8). -/
def State.viewChan (s : State) (a : Nat) : Option Word :=
  let c := (a - 0x100000) / 0x10000 * 64 + (a % 0x10000 - 0x8000) / 0x200
  let x := s.chan c
  if a = R.CH_STAT c then
    let slewing := (List.range 12).any fun d => s.fld (F.CH_LVL_OUT_OUT c d) ≠ s.dacGoal c d
    let sw := F.CH_STAT_STAGE_SW c
    some (withField (withField (s.reg a) 0 1 (if slewing then 1 else 0)) sw.lo sw.w (if x.stageOpen s.now then 1 else 0))
  else if a = R.CH_CMP_STATE c then
    some (withField (s.reg a) 0 2 ((if x.cmpBelow then 1 else 0) + (if x.cmpAbove then 2 else 0)))
  else if a = R.CH_LQ_PUSH c then some 0
  else none

/-- The fields of a captured event at the FE addresses (R367, Table 16-6). -/
def feWord (e : Option FaultEvent) (kind index more : Nat) (a : Nat) : Word :=
  match e with
  | none => 0
  | some e =>
    if a = R.FLT_FE_SRC then word (e.cls * 512 + e.src)
    else if a = R.FLT_FE_MST then word ((if e.shank then 0x8000 else 0) + e.quarter * 256 + e.master * 16 + e.acc)
    else if a = R.FLT_FE_TGT then word (kind * 2 ^ 14 + index)
    else if a = R.FLT_FE_ADDR0 then word e.addr
    else if a = R.FLT_FE_ADDR1 then word (e.addr / 2 ^ 16)
    else if a = R.FLT_FE_ADDR2 then word (e.addr / 2 ^ 32 % 16)
    else if a = R.FLT_FE_T0 then word e.time
    else if a = R.FLT_FE_T1 then word (e.time / 2 ^ 16)
    else if a = R.FLT_FE_T2 then word (e.time / 2 ^ 32)
    else if a = R.FLT_FE_T3 then word (e.time / 2 ^ 48)
    else if a = R.FLT_FE_MORE then word more
    else 0

/-- The reader has the SPX1 copies and holds; every other master the host's (R36, R46). -/
def isSpx1 : Master → Bool
  | .spx1 => true
  | _ => false

/-- Reads that clear and latch: the boot loader, the sequencers and the calibration engine do neither (R36). -/
def clears : Master → Bool
  | .pcie => true
  | .spx1 => true
  | _ => false

def State.feCopy (s : State) (m : Master) : FeCopy := if isSpx1 m then s.feSpx1 else s.feHost

/-- TX_AVAIL of port n: the dwords not yet sent, those of a running master unit counted as they go out (Table 12-8). -/
def State.viewAvail (s : State) (n : Nat) : Word :=
  let v := portReg s n 0x18
  match (s.port n).unit with
  | some u => withField v 0 10 (fieldOf v 0 10 - min (s.txHas n) (s.txBegun n u))
  | none => v

/-- A reader's base of counter n (R46). -/
def State.evcView (s : State) (m : Master) (n : Nat) : Nat :=
  let e := s.evc n
  (e.count + 2 ^ 48 - (if isSpx1 m then e.spx1Base else e.hostBase)) % 2 ^ 48

/-- The value of a register before its RC fields: what is shown from the state, or what the register holds. -/
def State.view (s : State) (m : Master) (a : Nat) : Word :=
  let o : Option Word :=
    if a = R.CHIP_STRAP then some (withField (s.reg a) 0 12 s.straps.toNat)
    else if a = R.CLK_XO_DLY then some (withField (s.reg a) 0 3 (fieldOf s.straps 8 3))
    else if a = R.LACE_STAT then some (withField (s.reg a) 3 1 (if s.laceMaster then 1 else 0))
    else if a = R.HOST_LINK_STAT then some (withField (s.reg a) 8 1 (if s.linkUp then 1 else 0))
    else if 0x10020 ≤ a && a < 0x1004C then
      let f := s.feCopy m
      if a = R.FLT_FE_SRC then
        some (s.reg a ||| withField (feWord f.ev f.kind f.index f.more a) 15 1 (if f.valid then 1 else 0))
      else some (s.reg a ||| feWord f.latched f.lkind f.lindex f.lmore a)
    else if 0x40128 ≤ a && a < 0x40140 then s.viewRing a
    else if 0x50084 ≤ a && a < 0x50094 then s.viewCal a
    else if 0x5800C ≤ a && a < 0x58020 then s.viewNvm a
    else if 0x660B4 ≤ a && a < 0x660C4 then s.viewLedg a
    else if 0x68000 ≤ a && a < 0x68800 && a % 32 = 4 then some (word (s.evcView m ((a - 0x68000) / 32)))
    else if 0x100000 ≤ a && a < 0x200000 && 0x8000 ≤ a % 0x10000 then s.viewChan a
    else if a = 0x80018 then some (s.viewAvail 16)
    else if 0x84000 ≤ a && a < 0xA4000 && a % 0x2000 = 0x18 then some (s.viewAvail ((a - 0x84000) / 0x2000))
    else none
  o.getD (s.reg a)

/-! ### Latched reads -/

/-- The registers that a read of `a` latches for its reader. -/
def latchedBy (a : Nat) : List Nat :=
  let q := (a - 0x100000) / 0x10000
  let o := a % 0x10000
  if a = R.RING_S_FILL_L then [R.RING_S_FILL_H, R.RING_S_RSEQ_L, R.RING_S_RSEQ_H, R.RING_S_LOST]
  else if a = R.LEDG_OBS_PRED then [R.LEDG_OBS_MEAS, R.LEDG_OBS_PEAK, R.LEDG_OBS_WIN]
  else if a = R.LACE_D_L then [R.LACE_D_H]
  else if a = R.LACE_LOOP_L then [R.LACE_LOOP_H]
  else if a = R.NVM_GEN_L then [R.NVM_GEN_H]
  else if 0x2400 ≤ a && a < 0x2720 && a % 8 = 0 then [a + 4]
  else if 0x41000 ≤ a && a < 0x42000 && a % 0x100 = 0x70 then [a + 4]
  else if 0x70000 ≤ a && a < 0x80000 && (a % 0x400 = 0x40 || a % 0x400 = 0x48) then [a + 4]
  else if 0x68000 ≤ a && a < 0x68800 && a % 32 = 4 then [a + 4, a + 8]
  else if 0x100000 ≤ a && a < 0x200000 then
    if a = R.QSEQ_SSN_L q then [R.QSEQ_SSN_H q]
    else if 0x3000 ≤ o && o < 0x3400 && o % 0x100 = 0x28 then
      [a + 4, a + 8, a + 12, a + 16, a - 4] ++ (List.range 30).map fun i => a + 0x18 + 4 * i
    else if 0x8000 ≤ o && o % 0x200 = 0x194 then [a + 4, a + 8, a + 12]
    else []
  else []

/-- The registers that only show what a latching read held: the first part of the pair decides. TDC.STATE is not one
of them: its NGOT is latched, its STATE live. -/
def heldReg (a : Nat) : Bool :=
  let o := a % 0x10000
  a = R.RING_S_FILL_H || a = R.RING_S_RSEQ_L || a = R.RING_S_RSEQ_H || a = R.RING_S_LOST ||
    a = R.LEDG_OBS_MEAS || a = R.LEDG_OBS_PEAK || a = R.LEDG_OBS_WIN || a = R.LACE_D_H || a = R.LACE_LOOP_H ||
    a = R.NVM_GEN_H || (0x2400 ≤ a && a < 0x2720 && a % 8 = 4) || (0x41000 ≤ a && a < 0x42000 && a % 0x100 = 0x74) ||
    (0x70000 ≤ a && a < 0x80000 && (a % 0x400 = 0x44 || a % 0x400 = 0x4C)) ||
    (0x68000 ≤ a && a < 0x68800 && (a % 32 = 8 || a % 32 = 12)) ||
    (0x100000 ≤ a && a < 0x200000 &&
      (o = 0x18 || (0x3000 ≤ o && o < 0x3400 && ((0x2C ≤ o % 0x100 && o % 0x100 ≤ 0x38) || (0x40 ≤ o % 0x100 && o % 0x100 < 0xB8))) ||
        (0x8000 ≤ o && (o % 0x200 = 0x198 || o % 0x200 = 0x19C || o % 0x200 = 0x1A0))))

def State.hold (s : State) (m : Master) (a : Nat) : Word :=
  tabGet (fun _ => 0) (if isSpx1 m then s.holdS else s.holdH) a

def State.setHold (s : State) (m : Master) (a : Nat) (v : Word) : State :=
  if isSpx1 m then { s with holdS := tabSet (fun _ => 0) s.holdS a v } else { s with holdH := tabSet (fun _ => 0) s.holdH a v }

/-- What a latching read of `a` puts into the hold of register `b`. -/
def State.latchValue (s : State) (m : Master) (a b : Nat) : Word :=
  if 0x68000 ≤ a && a < 0x68800 then word (s.evcView m ((a - 0x68000) / 32) / 2 ^ (16 * ((b - a) / 4)))
  else s.view m b

/-- The RC fields of the reader's copy in register `a`. -/
def State.rcView (s : State) (m : Master) (a : Nat) : Word := if isSpx1 m then s.rcSpx1 a else s.rcHost a

/-! ### One read -/

/-- The value that a read of register `a` returns (R34: the mask half reads 0). -/
def State.readValue (s : State) (m : Master) (a rc : Nat) : Word :=
  let r := BitVec.ofNat 16 rc
  let v :=
    if clears m && heldReg a then s.hold m a
    else if clears m && 0x100000 ≤ a && a < 0x200000 && 0x3000 ≤ a % 0x10000 && a % 0x10000 < 0x3400 && a % 0x100 = 0x24 then
      withField (s.view m a) 4 4 (fieldOf (s.hold m a) 4 4)
    else s.view m a
  if a = R.FLT_FE_SRC then v else (v &&& ~~~r) ||| (s.rcView m a &&& r)

/-- A reader's FE_SRC read: the copy is latched and re-armed (R367). -/
def feRead (m : Master) (s : State) : State :=
  let f := s.feCopy m
  let f := { f with latched := f.ev, lkind := f.kind, lindex := f.index, lmore := f.more, valid := false }
  if isSpx1 m then { s with feSpx1 := f } else { s with feHost := f }

/-- What a read does besides returning a value: it latches, clears the reader's copy, rebases a counter, re-arms a
capture, and reports votes. -/
def readEffect (m : Master) (a rc : Nat) (s : State) : State :=
  let s := reportVotes a s
  if !clears m then s
  else
    let t := (latchedBy a).foldl (fun t b => t.setHold m b (s.latchValue m a b)) s
    let t := if rc = 0 then t else if isSpx1 m then t.clrRcSpx1 a else t.clrRcHost a
    let t := if a = R.FLT_FE_SRC then feRead m t else t
    let t := if 0x100000 ≤ a && a % 0x10000 = 0x1004 then
        let q := (a - 0x100000) / 0x10000
        if (t.q q).tsHeld then t.setQ q { t.q q with tsHeld := false } else t
      else t
    let t := if a = R.LEDG_STAT then { t with led := { t.led with firstHeld := false } } else t
    let t := if a = R.MEM_ERR_ADDR2 then { t with errAddrHeld := false } else t
    if 0x68000 ≤ a && a < 0x68800 && a % 32 = 4 then
      let n := (a - 0x68000) / 32
      if t.bit (F.EVC_SEL_RDCLR n) then
        let e := t.evc n
        t.setEvc n (if isSpx1 m then { e with spx1Base := e.count } else { e with hostBase := e.count })
      else t
    else t

end Sys2Proof.Machine
end

