-- ==== Sys2Proof/Machine/Writes.lean ====
section
/-! DEFINITION. What an applied write does to its register, block by block: refusals, start actions and the
settings that need more than their register (R34 and the register chapters). -/

namespace Sys2Proof.Machine

/-! ### The boot's GO and data registers (R382) -/

/-- BOOT_CTRL.GO: refused with no image awaited, for a reserved source, or after a failed training. -/
def bootGo (s : State) : State :=
  let src := s.fld F.CHIP_BOOT_CTRL_SRC
  if !s.bit F.CHIP_BOOT_STAT_WAIT_IMAGE || 2 ≤ src || s.bit F.MEM_FAULT_TRAIN_FAIL || s.fld F.CHIP_BOOT_ERR_CODE = 0x0B then
    s.raise F.CHIP_BOOT_STAT_GO_REF
  else
    let s := (s.setBit F.CHIP_BOOT_STAT_WAIT_IMAGE false).setFld F.CHIP_BOOT_STAT_STEP 5
    { s with boot := { s.boot with running := true, since := s.now, header := [], fromHbm := src = 1 } }

/-- HADDR as one number. -/
def State.haddr (s : State) : Nat :=
  s.fld F.CHIP_BOOT_HADDR0_HADDR + 2 ^ 16 * s.fld F.CHIP_BOOT_HADDR1_HADDR + 2 ^ 32 * s.fld F.CHIP_BOOT_HADDR2_HADDR

/-- A write of HDATA_H has stored its half: the dword goes to HBM, HADDR advances by 4. A place outside the installed
capacity takes nothing. -/
def hdataStore (s : State) : State :=
  let a := s.haddr
  let v := s.fld F.CHIP_BOOT_HDATA_L_HDATA + 2 ^ 16 * s.fld F.CHIP_BOOT_HDATA_H_HDATA
  let s := if a + 4 ≤ s.capacity then s.setHbm a (bytesOf v 4) else s
  let n := (a + 4) % 2 ^ 35
  ((s.setFld F.CHIP_BOOT_HADDR0_HADDR n).setFld F.CHIP_BOOT_HADDR1_HADDR (n / 2 ^ 16)).setFld F.CHIP_BOOT_HADDR2_HADDR (n / 2 ^ 32)

/-! ### Parts of a write -/

/-- What a write brings: its master, register, mask and data, the register's writable and start bits, and the boundary
from which boundary-synchronised settings are in force. -/
structure Wr where
  m : Master
  a : Nat
  mask : Word
  data : Word
  rw : Nat
  wt : Nat
  bdry : Nat
  deriving DecidableEq, Repr

/-- The register's value after the write (R34). -/
def Wr.value (w : Wr) (s : State) : Word :=
  let e := w.mask &&& BitVec.ofNat 16 w.rw
  (s.reg w.a &&& ~~~e) ||| (w.data &&& e)

/-- The start bits written as 1. -/
def Wr.start (w : Wr) : Word := w.mask &&& w.data &&& BitVec.ofNat 16 w.wt

/-- The bits of the register that the write changes. -/
def Wr.bits (w : Wr) : Word := w.mask &&& BitVec.ofNat 16 w.rw

/-- The register takes its value, its fields that the mask leaves out keep their copies (R39); a mask of 0 changes
nothing. -/
def Wr.put (w : Wr) (s : State) : State := if w.mask = 0 then s else s.setBits w.a w.bits w.data

/-- A change of an enable raises the vector it gates, if that rises (R53). -/
def Wr.putVec (w : Wr) (v : Nat) (s : State) : State := withVec v w.put s

abbrev Applied := State × Bool

def done (s : State) : Applied := (s, true)
def refused (s : State) : Applied := (s, false)

/-! ### Blocks -/

def wrChip (w : Wr) (s : State) : Applied :=
  if w.a = 0x8 then
    done (if fieldOf w.mask 8 8 = 0xFF then rstWrite w.start s.straps (w.put s) else w.put s)
  else if w.a = R.CHIP_BOOT_CTRL then
    let t := w.put s
    done (if w.start.getLsbD 0 then bootGo t else t)
  else if w.a = R.CHIP_BOOT_HDATA_L || w.a = R.CHIP_BOOT_HDATA_H then
    if s.boot.running then refused (s.raise F.CHIP_BOOT_STAT_BUSY_REJ)
    else if w.a = R.CHIP_BOOT_HDATA_H then done (hdataStore (w.put s)) else done (w.put s)
  else done (w.put s)

def wrClk (w : Wr) (s : State) : Applied :=
  if w.a = R.CLK_SRC then
    let v := w.value s
    let t := clkSrcWrite w.bits v s
    (t, t.reg R.CLK_SRC = v)
  else done (w.put s)

def wrPwr (w : Wr) (s : State) : Applied :=
  if w.a = R.PWR_REQ then
    let t := w.put s
    done (if w.start.getLsbD 4 then powerReq (t.fld F.PWR_REQ_TARGET) t else t)
  else if w.a = R.PWR_PAD_HOLD then
    if (w.value s).getLsbD 0 then done (sgGates (w.put s))
    else
      let t := padRelease s
      if t.bit F.PWR_PAD_HOLD_HOLD then refused t else done (w.put t)
  else if w.a = R.PWR_QOFF then done (qoffWrite w.start s)
  else if w.a = R.PWR_QON then done (qonWrite w.start s)
  else done (w.put s)

/-- The entity whose state register lies at `a` (Table 16-6). -/
def entityAt (a : Nat) : Nat :=
  if a < 0x11000 then 224 else if a < 0x11200 then (a - 0x11000) / 4 else if a < 0x11300 then 128 + (a - 0x11200) / 4
  else 144 + (a - 0x11300) / 4

def wrFlt (w : Wr) (s : State) : Applied :=
  if w.a = R.FLT_CTRL then
    let t := w.put s
    done (if w.start.getLsbD 0 then t.reportAccess 0x003 0 w.m 2 else t)
  else if w.a = R.FLT_CHIPST || (0x11000 ≤ w.a && w.a < 0x12000) then
    let t := w.put s
    if w.start.getLsbD 8 then
      let x := entityAt w.a
      if s.faultLatched || (s.entOpen x && !s.entDue x) then refused (faultRclr x t) else done (faultRclr x t)
    else done t
  else if w.a = R.FLT_QUIET || w.a = R.FLT_RECLIM || (0x12000 ≤ w.a && w.a < 0x16000) then
    if s.allStopped then done (w.put s) else refused (s.raise F.FLT_STAT_CFG_REJ)
  else done (w.put s)

/-- LACE.CTRL: RING_EN, then SURVEY, EPOCH_NOW, START_SEND, SEND_GO and DETACH. -/
def laceCtrl (w : Wr) (s : State) : State :=
  let old := s.bit F.LACE_CTRL_RING_EN
  let s := w.put s
  let s := if s.bit F.LACE_CTRL_RING_EN = old then s else laceUpdate s
  let k := w.start
  let s := if k.getLsbD 2 then laceSurvey s else s
  let s := if k.getLsbD 3 then laceMasterSend 7 s else s
  let s := if k.getLsbD 4 then laceMasterSend 3 s else s
  let s := if k.getLsbD 5 then laceSendGo s else s
  if k.getLsbD 6 then laceDetachCmd s else s

def wrLace (w : Wr) (s : State) : Applied :=
  if w.a = R.LACE_CTRL then done (laceCtrl w s) else done (w.put s)

def wrTdcc (w : Wr) (s : State) : Applied :=
  if w.a = R.TDCC_RELOCK then done (forAll ((List.range 16).filter w.start.getLsbD) relockRequest s) else done (w.put s)

def wrMem (w : Wr) (s : State) : Applied :=
  if 0x30100 ≤ w.a && w.a < 0x30200 then
    if s.allStopped then done (w.put s) else refused (s.raise F.MEM_FAULT_WIN_REFUSED)
  else if 0x30200 ≤ w.a && w.a < 0x30400 && w.a % 0x20 = 4 then
    done (if w.start.getLsbD 0 then startBuild ((w.a - 0x30200) / 0x20) s else s)
  else done (w.put s)

/-- CFG, RT_*, REC_UNITS, CAP_* and the bin table wait for a stopped quarter (R230). -/
def qresGuarded (o : Nat) : Bool := o ≤ 0x1C || (0x60 ≤ o && o ≤ 0x6C) || 0x80 ≤ o

def wrRing (w : Wr) (s : State) : Applied :=
  if 0x41000 ≤ w.a then
    let q := (w.a - 0x41000) / 0x100
    if qresGuarded (w.a % 0x100) && !s.stopped q then refused (s.raise (F.QRES_STAT_CFG_REJ q))
    else done (if w.a % 0x100 = 0 then ladderLift q (w.put s) else w.put s)
  else done (w.put s)

def wrCal (w : Wr) (s : State) : Applied :=
  if w.a = R.CAL_MREQ then done (if w.mask = 0 then s else mreqWrite (w.value s) s) else done (w.put s)

def wrNvm (w : Wr) (s : State) : Applied :=
  if w.a = R.NVM_CMD then
    let k := w.start
    let t := w.put s
    let t := if k.getLsbD 0 then nvmStore t else t
    done (if k.getLsbD 1 then nvmLoad t else t)
  else done (w.put s)

def wrThm (w : Wr) (s : State) : Applied :=
  if w.a = R.THM_BROKEN_CLR_L then done (brokenClear w.start.toNat s)
  else if w.a = R.THM_BROKEN_CLR_H then done (brokenClear (w.start.toNat * 2 ^ 16) (w.put s))
  else done (w.put s)

/-- The registers of R197: PROF, BUDGET, CHIP_BASE, RESV, QCEIL, BASE and BASE_IDLE, RESPROF. -/
def ledgGuarded (a : Nat) : Bool :=
  a < 0x66060 || (0x66084 ≤ a && a < 0x660A0) || (0x66100 ≤ a && a < 0x66300)

def wrLedg (w : Wr) (s : State) : Applied :=
  if ledgGuarded w.a && !s.allStopped then
    refused ((s.raise F.LEDG_STAT_CFG_REJ).reportAccess 0x061 w.a w.m 2)
  else
    let t := w.put (ledgerSettle s)
    done (if w.a = R.LEDG_CTRL && w.start.getLsbD 10 then (loadChecks t).1 else t)

def wrEvc (w : Wr) (s : State) : Applied :=
  if w.a = R.EVC_CTRL then
    let t := w.put s
    let t := if w.start.getLsbD 0 then { t with evcs := [] } else t
    done (if w.start.getLsbD 2 then t.snapshot else t)
  else
    let t := w.put s
    done (if w.a % 32 = 0 && w.start.getLsbD 11 then t.setEvc ((w.a - 0x68000) / 32) {} else t)

def wrSg (w : Wr) (s : State) : Applied :=
  let n := (w.a - 0x70000) / 0x400
  let o := w.a % 0x400
  if o = 0 then done (if w.mask = 0 then s else sgCtrlWrite n w.bits (w.value s) s)
  else if o = 0x2C then done (if w.start.getLsbD 0 then sgTripClr n (w.put s) else w.put s)
  else if o = 0x3C then done (w.putVec (128 + n) s)
  else if o = 0xC then done (sgGate n (w.put s))
  else done (w.put s)

/-- A port: SPX0 is port 16 (Tables 12-8, 12-9). -/
def wrPort (n o : Nat) (w : Wr) (s : State) : Applied :=
  if o = 0 then
    if n = 16 && (s.boot.running || s.bit F.CHIP_BOOT_STAT_WAIT_IMAGE) then refused (portRaise 16 10 s)
    else
      let t := if w.mask = 0 then s else portCtrlWrite n (w.value s) s
      done (if w.start.getLsbD 2 then portStartWrite n t else t)
  else if o = 0x14 then done (portTxAdd n (fieldOf (w.data &&& w.mask) 0 10) s)
  else if n < 16 && 0x40 ≤ o && o < 0x74 && s.portEn n then
    refused ((portRaise n 10 s).report (0x10C + 16 * n) 0)
  else done (w.put s)

/-- The pins of a site whose SITE_EN falls in a run park, and stay so (R76); `old`: SITE_EN before. -/
def siteOff (q old : Nat) (s : State) : State :=
  if s.stopped q then s
  else forAll (List.range 64) (fun i s =>
    match (s.chan (q * 64 + i)).site with
    | some k =>
      if old.testBit k && !(s.fld (F.QSEQ_SITE_CFG_SITE_EN q)).testBit k then
        parkPin (q * 64 + i) (s.setChan (q * 64 + i) { s.chan (q * 64 + i) with kept := none })
      else s
    | none => s) s

def wrQseq (q o : Nat) (w : Wr) (s : State) : Applied :=
  if o = 0 then done (qCtrl q w.start.toNat (w.put s))
  else if o = 0x24 then done (forAll ((List.range 16).filter w.start.getLsbD) (fun i s => setLatch q (0x80 + i) s) s)
  else if o = 0x2C then done (forAll ((List.range 16).filter w.start.getLsbD) (fun i s => writeLatch q (0x80 + i) false s) s)
  else if o = 0x1C then
    let t := w.put s
    done (if !s.bit (F.QSEQ_CFG_SCRUB_EN q) && t.bit (F.QSEQ_CFG_SCRUB_EN q) then t.setQ q { t.q q with scrubPos := 0 } else t)
  else if o = 0x48 then done (w.put (ledgerSettle s))
  else if o = 0x4C then done (w.putVec (64 + 4 * q) s)
  else if o = 0x20 then
    let t := w.put s
    done (siteOff q (s.fld (F.QSEQ_SITE_CFG_SITE_EN q)) t)
  else done (w.put s)

/-- The oscillator settings that are in force or staged for a boundary; `f` changes them, for the boundary `b`. -/
def stageNco (c b : Nat) (f : Nat × Nat × Nat → Nat × Nat × Nat) (s : State) : State :=
  let s := settleChan c (granuleOf s.now) s
  let x := s.chan c
  let cur := match x.ncoPend with
    | some (_, v) => v
    | none => (x.ftw, x.ph, x.duty)
  s.setChan c { x with ncoPend := some (b, f cur) }

def wrQts (q o : Nat) (w : Wr) (s : State) : Applied :=
  let t := w.put s
  if o < 0x1800 then done t
  else
    let i := (o - 0x1800) / 0x20
    let c := q * 64 + i
    let k := o % 0x20
    if k = 0 || k = 4 then done (stageDeskew c w.bdry (settleChan c (granuleOf s.now) t))
    else if k = 0x10 then
      let f := t.fld (F.QTS_FTW_L_FTW_L q i) + 2 ^ 16 * t.fld (F.QTS_FTW_M_FTW_M q i) + 2 ^ 32 * t.fld (F.QTS_FTW_H_FTW_H q i)
      done (stageNco c w.bdry (fun v => (f, v.2)) t)
    else if k = 0x14 then done (stageNco c w.bdry (fun v => (v.1, t.fld (F.QTS_NCO_PH_NCO_PH q i), v.2.2)) t)
    else if k = 0x18 then done (stageNco c w.bdry (fun v => (v.1, v.2.1, t.fld (F.QTS_NCO_DUTY_NCO_DUTY q i))) t)
    else done t

/-- A time-interval unit: its settings wait for DISARMED (R245); ARM acts before DISARM. -/
def wrTdc (u o : Nat) (w : Wr) (s : State) : Applied :=
  if o = 0 then
    let en := s.bit (F.TDC_CTRL_EN u)
    let t := w.putVec (66 + 4 * (u / 4)) s
    let t := if en && !t.bit (F.TDC_CTRL_EN u) then tdcAbort u t else t
    let t := if w.start.getLsbD 1 then tdcArm u (granuleNext s.now + 48) t else t
    done (if w.start.getLsbD 2 then tdcDisarm u t else t)
  else if (o = 4 || (0xC ≤ o && o ≤ 0x1C)) && s.tdcState u ≠ 0 then
    refused ((s.raise (F.TDC_STAT_CFG_ERR u)).report (0x10B + 16 * (u / 4)) u)
  else done (w.put s)

/-- DRV_CTRL (R147): LOOP or CAL_ISO rise only while the quarter is stopped; the engine's channels keep both. -/
def wrDrv (c : Nat) (w : Wr) (s : State) : Applied :=
  let q := c / 64
  let old := fieldOf (s.reg w.a) 5 2
  let v := w.value s
  let v := if (s.chan c).calHeld then withField v 5 2 old else v
  let rises := (fieldOf v 5 1 = 1 && old % 2 = 0) || (fieldOf v 6 1 = 1 && old / 2 = 0)
  if rises && !s.stopped q then refused ((s.raise (F.CH_STAT_CFG_REJ c)).report (0x106 + 16 * q) c)
  else
    let t := if w.mask = 0 then s else s.setBits w.a w.bits v
    let clock := match (t.q q).stall with
      | some x => x.clocks.any (·.ch = c % 64)
      | none => match (t.q q).body with
        | some b => (clockPins b).any (·.ch = c % 64)
        | none => false
    done (if t.qstate q = 1 || clock || t.bit (F.CH_STAT_DISC c) then t else parkPin c t)

/-- LQ_CFG: CLR acts on EN as it was; EN rising sets the first sample, at the first DCLK edge at or after it. -/
def wrLqCfg (c : Nat) (w : Wr) (s : State) : Applied :=
  let s := if w.start.getLsbD 4 then lqClear c s else s
  let old := s.bit (F.CH_LQ_CFG_EN c)
  let v := w.value s
  if old && fieldOf v 3 1 = 0 then
    let t := lqStop c false s
    done (showLq c (lqUnloop c (if w.mask = 0 then t else t.setReg w.a v)))
  else
    let t := w.put s
    done (showLq c (if !old && t.bit (F.CH_LQ_CFG_EN c) then
      lqUnloop c (t.setChan c { t.chan c with lqNext := (t.now + 63) / 64 * 64 }) else lqUnloop c t))

def wrChan (c o : Nat) (w : Wr) (s : State) : Applied :=
  if o = 0 then wrDrv c w s
  else if o = 8 then
    let t := w.put s
    if w.start.getLsbD 4 then
      let ok := t.stopped (c / 64) && t.discMayEnd c && t.bit (F.CH_STAT_DISC c)
      (protReconnect c t, ok)
    else done t
  else if 0x40 ≤ o && o < 0x100 && o % 16 = 0 && s.bit (F.CH_LQ_CFG_EN c) && s.lqDac c = (o - 0x40) / 16 then
    refused (s.raise (F.CH_LQ_STAT_LQ_CONFLICT c))
  else if o = 0x100 then wrLqCfg c w s
  else if o = 0x108 then done (if w.mask = 0 then s else lqPush c (w.data &&& w.mask) s)
  else if o = 0x180 then done (if w.mask = 0 then s else withVec (67 + 4 * (c / 64)) (pmuCtrlWrite c (w.value s) w.mask) s)
  else if o = 0x184 then done (if w.mask = 0 then s else pmuMeasWrite c (w.value s) s)
  else if o = 0x18C then
    let t := w.put s
    let t := if w.start.getLsbD 0 then pmuMeasStart c t else t
    done (if w.start.getLsbD 1 then pmuMeasStop c t else t)
  else done (w.put s)

def wrQuarter (w : Wr) (s : State) : Applied :=
  let q := (w.a - 0x100000) / 0x10000
  let o := w.a % 0x10000
  if o < 0x1000 then wrQseq q o w s
  else if o < 0x2000 then wrQts q o w s
  else if o < 0x3000 then done (w.put s)
  else if o < 0x8000 then wrTdc (4 * q + (o - 0x3000) / 0x100) (o % 0x100) w s
  else wrChan (64 * q + (o - 0x8000) / 0x200) (o % 0x200) w s

/-- Apply a masked write to a register, and whether its target accepted it. An address with no register takes
nothing. -/
def applyReg (m : Master) (a : Nat) (mask data : Word) (bdry : Nat) (s : State) : Applied :=
  match rowOf a with
  | none => done s
  | some r =>
    let w : Wr := { m := m, a := a, mask := mask, data := data, rw := r.rw, wt := r.wt, bdry := bdry }
    if 0x100000 ≤ a then wrQuarter w s
    else if a < 0x400 then wrChip w s
    else if a < 0x1000 then done (w.put s)
    else if a < 0x2000 then wrClk w s
    else if a < 0x3000 then wrPwr w s
    else if 0x10000 ≤ a && a < 0x18000 then wrFlt w s
    else if 0x20000 ≤ a && a < 0x20200 then wrLace w s
    else if 0x28000 ≤ a && a < 0x28100 then wrTdcc w s
    else if 0x30000 ≤ a && a < 0x36000 then wrMem w s
    else if 0x40100 ≤ a && a < 0x42000 then wrRing w s
    else if 0x50000 ≤ a && a < 0x50100 then wrCal w s
    else if 0x58000 ≤ a && a < 0x58400 then wrNvm w s
    else if 0x60000 ≤ a && a < 0x60100 then wrThm w s
    else if 0x64000 ≤ a && a < 0x66400 then wrLedg w s
    else if 0x68000 ≤ a && a < 0x68900 then wrEvc w s
    else if 0x70000 ≤ a && a < 0x80000 then wrSg w s
    else if 0x80000 ≤ a && a < 0x80300 then wrPort 16 (a - 0x80000) w s
    else if 0x84000 ≤ a && a < 0xA4000 then wrPort ((a - 0x84000) / 0x2000) ((a - 0x84000) % 0x2000) w s
    else done (w.put s)

end Sys2Proof.Machine
end

