-- ==== Sys2Proof/Machine/Txn.lean ====
section
/-! DEFINITION. Transactions: scopes, commands, capture, commit moments; writes to posted blocks
(02_registers_host.md, R37, R38, R40 to R44). -/

namespace Sys2Proof.Machine

/-! ### Posted blocks (R37) -/

/-- The PSTAT of the posted block that holds the register at `a`; PSTAT itself is not posted. -/
def pstatOf (a : Nat) : Option Nat :=
  let p : Option Nat :=
    if a = R.CLK_XO_DLY then some 0x13FC
    else if 0x2000 ≤ a && a < 0x2800 then some 0x23FC
    else if 0x58000 ≤ a && a < 0x58400 then some 0x583FC
    else if 0x70000 ≤ a && a < 0x80000 then some (a / 0x400 * 0x400 + 0x3FC)
    else if 0x100000 ≤ a && a < 0x200000 && 0x8000 ≤ a % 0x10000 then some (a / 0x200 * 0x200 + 0x1FC)
    else none
  if p = some a then none else p

def State.busy (s : State) (p : Nat) : Bool := (s.reg p).getLsbD 0
def setBusy (p : Nat) (b : Bool) (s : State) : State := s.setReg p (withField (s.reg p) 0 1 (if b then 1 else 0))

/-- A write to a posted block was dropped (R38). -/
def writeLost (p : Nat) (s : State) : State := (s.raiseMask p 2).count 0xA4 1

/-- A direct write to the posted block of `p` (R38). During a STORE the NVM drops writes other than to its status. -/
def postWrite (p : Nat) (w : PendWrite) (s : State) : State :=
  if s.busy p || (p = 0x583FC && s.bit F.NVM_STAT_RUNNING && w.addr ≠ R.NVM_STAT) then writeLost p s
  else setBusy p true { s with posted := tabSet (fun _ => none) s.posted p (some w) }

def State.handedTo (s : State) (p : Nat) : Handed := tabGet (fun _ => {}) s.handed p
def putHanded (p : Nat) (h : Handed) (s : State) : State := { s with handed := tabSet (fun _ => {}) s.handed p h }

/-- What commits handed to the block takes effect, in queue order (R43). -/
def handedApply (p : Nat) (s : State) : State :=
  (s.handedTo p).writes.foldl (fun s w => (applyReg .pcie w.addr w.mask w.data s.now s).1) (putHanded p {} s)

/-- The pending write of the block takes effect in the target domain. Writes that a commit handed over behind it
follow at the first ACLK edge after it; those handed over before it was accepted come first (R43). -/
def postDeliver (p : Nat) (s : State) : State :=
  match tabGet (fun _ => none) s.posted p with
  | none => s
  | some w =>
    let h := s.handedTo p
    if h.writes ≠ [] && !h.behind && s.now < h.due then s
    else
      let s := if h.writes ≠ [] && !h.behind then handedApply p s else s
      let s := if h.behind then putHanded p { h with behind := false, due := granuleNext s.now } s else s
      let s := setBusy p false { s with posted := tabErase s.posted p }
      (applyReg .pcie w.addr w.mask w.data (granuleNext s.now) s).1

/-! ### Scopes (Table 2-3) -/

/-- The transaction unit whose registers hold `a`. -/
def txnUnitAt (a : Nat) : Option Nat :=
  if 0x6C000 ≤ a && a < 0x6C020 then some 16
  else if 0x100000 ≤ a && a < 0x200000 && 0x2000 ≤ a % 0x10000 && a % 0x10000 < 0x2020 then some ((a - 0x100000) / 0x10000)
  else none

/-- The units whose scope holds the register at `a`. A port's registers lie in its quarter's and in the chip's. -/
def txnScopes (a : Nat) : List Nat :=
  if (txnUnitAt a).isSome then []
  else if 0x100000 ≤ a && a < 0x200000 then [(a - 0x100000) / 0x10000]
  else if 0x84000 ≤ a && a < 0xA4000 then [(a - 0x84000) / 0x2000, 16]
  else if a < 0x400 then []
  else if 0x68000 ≤ a && a < 0x68800 && 4 ≤ a % 32 && a % 32 ≤ 0x18 then []
  else if a = R.CLK_XO_DLY then []
  else if (0x2000 ≤ a && a < 0x2800) || (0x40000 ≤ a && a < 0x40100) || (0x58000 ≤ a && a < 0x58400) then []
  else if a < 0x100000 then [16]
  else []

def ownerCode : Master → Nat
  | .pcie => 1
  | .spx1 => 2
  | .boot => 3
  | _ => 0

def ownerOf (c : Nat) : Master := if c = 2 then .spx1 else if c = 3 then .boot else .pcie

/-- The unit that captures a write of `m` to `a`. -/
def State.capturer (s : State) (m : Master) (a : Nat) : Option Nat :=
  (txnScopes a).find? fun u => txnState s u ≠ 0 && ownerCode m ≠ 0 && txnOwner s u = ownerCode m

/-- A captured write (R41, R44). -/
def captureWrite (u : Nat) (w : PendWrite) (s : State) : State :=
  match txnState s u with
  | 1 =>
    let l := (s.txn u).queue
    if 1024 ≤ l.length then
      ((setTxnState u 3 (txnOwner s u) (setTxnQueue u [] s)).raiseMask (txnBase u + 8) 0x80).count 0xA5 1
    else setTxnQueue u (l ++ [w]) s
  | 2 => s.raiseMask (txnBase u + 8) 0x200
  | _ => s

/-! ### Commands (R41, R42) -/

def txnRefuse (u : Nat) (s : State) : State := s.raiseMask (txnBase u + 8) 0x100

def txnRollback (m : Master) (u : Nat) (s : State) : State :=
  if txnState s u = 0 then s
  else if txnOwner s u ≠ ownerCode m then txnRefuse u s
  else ((setTxnState u 0 0 (setTxnQueue u [] s)).raiseMask (txnBase u + 8) 0x40).count 0xA7 1

def txnBegin (m : Master) (u : Nat) (s : State) : State :=
  if txnState s u = 0 || (txnState s u = 3 && txnOwner s u = ownerCode m) then
    setTxnState u 1 (ownerCode m) (setTxnQueue u [] s)
  else txnRefuse u s

/-- CMODE values that a unit allows (Table 2-4). -/
def cmodeOk (u c : Nat) : Bool := c ≤ 1 || c = 3 || (u < 16 && c ≤ 4)

/-- Quarter q is stopped for the commit moments of R42: IDLE, HALTED, STARTING or PARKED. -/
def State.idleTimeline (s : State) (q : Nat) : Bool := s.qstate q = 0 || 8 ≤ s.qstate q

/-- What COMMIT samples: the moment, or what it waits for. A CMODE 1 commit accepted in a stall has no moment yet
(0). -/
def txnArm (u : Nat) (s : State) : Txn :=
  let c := fieldOf (s.reg (txnBase u)) 4 3
  let stalled := u < 16 && 2 ≤ s.qstate u && s.qstate u ≤ 7
  { s.txn u with
    cmode := c
    mark := (s.reg (txnBase u + 4)).toNat
    due := if c = 0 then (s.now / 2 + 1) * 2 else if c = 1 && stalled then 0 else granuleNext s.now
    bodyNo := if c ≠ 2 || s.idleTimeline u then 0
      else (s.q u).bodyNo + (if s.qstate u = 1 || s.qstate u = 7 then 0 else 1) }

def txnCommitCmd (m : Master) (u : Nat) (s : State) : State :=
  if txnState s u = 1 && txnOwner s u = ownerCode m && cmodeOk u (fieldOf (s.reg (txnBase u)) 4 3) then
    setTxnState u 2 (ownerCode m) (s.setTxn u (txnArm u s))
  else txnRefuse u s

/-- A write to a TXN register. Internal masters' writes are discarded (R41). -/
def txnWrite (m : Master) (u a : Nat) (mask data : Word) (s : State) : State :=
  if ownerCode m = 0 then s
  else match rowOf a with
  | none => s
  | some r =>
    let w : Wr := { m := m, a := a, mask := mask, data := data, rw := r.rw, wt := r.wt, bdry := 0 }
    let s := w.put s
    let k := w.start
    let s := if k.getLsbD 2 then txnRollback m u s else s
    let s := if k.getLsbD 0 then txnBegin m u s else s
    if k.getLsbD 1 then txnCommitCmd m u s else s

/-! ### The commit (R43) -/

/-- Apply one queued write at the commit moment `t`, or hand it to its posted block: behind a pending write, or for
the first ACLK edge at or after `t`. An RDY write of the host stays behind the BAR2 writes held back (R105). -/
def commitOne (m : Master) (t bdry : Nat) (w : PendWrite) (s : State) : State :=
  match pstatOf w.addr with
  | none =>
    if 0x34000 ≤ w.addr && w.addr < 0x36000 && m = .pcie && s.heldHost ≠ [] then { s with heldHost := s.heldHost ++ [.rdy w] }
    else (applyReg m w.addr w.mask w.data bdry s).1
  | some p =>
    let h := s.handedTo p
    if h.writes ≠ [] then putHanded p { h with writes := h.writes ++ [w] } s
    else if s.busy p || t % 8 ≠ 0 then putHanded p { behind := s.busy p, due := granuleAt t, writes := [w] } s
    else (applyReg m w.addr w.mask w.data bdry s).1

/-- The transaction's changes of the site assignment (R14). -/
def commitSites (u : Nat) (l : List (Nat × Option Nat)) (s : State) : State :=
  l.foldl (fun s e => s.setChan (u * 64 + e.1) { s.chan (u * 64 + e.1) with site := e.2 }) s

/-- The unit applies its queue at `t`; a quarter's unit also brings the calibration corrections into force (R299). -/
def commitUnit (u t : Nat) (s : State) : State :=
  let l := (s.txn u).queue
  let sites := (s.txn u).sites
  let m := ownerOf (txnOwner s u)
  let s := setTxnState u 0 0 (setTxnQueue u [] s)
  let s := forAll (List.range 4) (fun i s => s.setReg (txnBase u + 16 + 4 * i) (word (t / 2 ^ (16 * i)))) s
  let s := (s.raiseMask (txnBase u + 8) 0x20).count 0xA6 1
  let s := l.foldl (fun s w => commitOne m t (if t % 8 = 0 then t else granuleNext t) w s) s
  if u < 16 then calCommit u t (commitSites u sites s) else s

/-- The moment of a CMODE 2 commit, once the body it waits for has ended. -/
def State.bodyEndOf (s : State) (u n : Nat) : Option Nat :=
  let x := s.q u
  match x.body with
  | some b =>
    if b.no = n then (if b.welt ≤ s.now then some b.welt else none)
    else if n < b.no then some (match x.prev with
      | some (_, w, _) => w
      | none => s.now)
    else none
  | none =>
    if n ≤ x.bodyNo || s.idleTimeline u then some (match x.prev with
      | some (_, w, _) => w
      | none => s.now)
    else none

/-- The commit moment of a PENDING unit in CMODE 0, 1 or 2, if it has come. -/
def State.commitDue (s : State) (u : Nat) : Option Nat :=
  let x := s.txn u
  if txnState s u ≠ 2 then none
  else if x.cmode = 2 && x.bodyNo ≠ 0 then s.bodyEndOf u x.bodyNo
  else if x.cmode ≤ 2 then
    if x.due = 0 then (if u < 16 && 2 ≤ s.qstate u && s.qstate u ≤ 7 then none else some s.now)
    else if x.due ≤ s.now then some x.due else none
  else none

def txnMoment (u : Nat) (s : State) : State :=
  match s.commitDue u with
  | some t => commitUnit u t s
  | none => s

/-- A COMMIT microword's start (R62): the CMODE 4 transaction, else the corrections alone. -/
def commitWord (q t : Nat) (s : State) : State :=
  if txnState s q = 2 && (s.txn q).cmode = 4 then commitUnit q t s else calCommit q t s

/-- A Lace mark takes effect at `t`: CMODE 3 commits that await it. -/
def commitMark (num t : Nat) (s : State) : State :=
  forAll (List.range 17) (fun u s =>
    if txnState s u = 2 && (s.txn u).cmode = 3 && (s.txn u).mark = num then commitUnit u t s else s) s

/-- The queued writes that a commit handed over take effect at their ACLK edge: behind a write that was pending at
the commit, the first one after it (R43). -/
def deferredApply (p : Nat) (s : State) : State :=
  let h := s.handedTo p
  if h.writes = [] || h.behind || s.now < h.due then s else handedApply p s

end Sys2Proof.Machine
end

