-- ==== Sys2Proof/Machine/Fabric.lean ====
section
/-! DEFINITION. One access on the register fabric: what is discarded, what stalls, windows, captured and posted
writes, applied writes, reads (02_registers_host.md, R33 to R38, R50; R331, R335, R383, R390). -/

namespace Sys2Proof.Machine

/-! ### Table windows (Tables 18-1, 18-3) -/

/-- The address lies in a window of plain memory. -/
def isWindow (a : Nat) : Bool :=
  (0x47000 ≤ a && a < 0x47100) || (0x48000 ≤ a && a < 0x50000) || (0x5C000 ≤ a && a < 0x5E000) ||
    (0x81020 ≤ a && a < 0x82000) || (0x84000 ≤ a && a < 0xA4000 && 0x1000 ≤ (a - 0x84000) % 0x2000) ||
    (0x200000 ≤ a && a < 0xF00000)

/-- The address holds a register or window, or an unlisted offset of a listed range. -/
def mapped (a : Nat) : Bool := isWindow a || (rowOf a).isSome || inListedRange a

/-- Vector `w` becomes unmasked with its PBA bit set: the pending message goes out (R52). -/
def msixUnmask (w : Nat) (s : State) : State :=
  let a := 0x47000 + w / 32 * 4
  let v := s.winGet a
  if s.pcie.cfg.msixEnable && v.getLsbD (w % 32) && !s.msixMasked w then
    (s.winSet a (v &&& ~~~ BitVec.ofNat 32 (2 ^ (w % 32)))).sendMsix w else s

/-- Store the enabled bytes of a dword. -/
def winPut (a : Nat) (be : BitVec 4) (v : Dword) (s : State) : State := s.winSet a (mergeBytes (s.winGet a) v be)

/-- A write to a timing set (R112, R116). -/
def timingWrite (m : Master) (a : Nat) (be : BitVec 4) (v : Dword) (s : State) : State :=
  let q := (a - 0x200000) / 0x20000
  if 0x20 ≤ a % 0x40 then s
  else if a % 0x40 < 8 && !s.stopped q then (s.raise (F.QTS_STAT_TS_WRITE_REJ q)).reportAccess (0x104 + 16 * q) 0 m 2
  else winPut a be v s

/-- A write to a control store (R54, R55). -/
def storeWrite (m : Master) (a : Nat) (be : BitVec 4) (v : Dword) (s : State) : State :=
  let q := (a - 0x400000) / 0x80000
  if 24 ≤ a % 32 then s
  else if !s.stopped q then
    (s.raise (F.QSEQ_FAULT_CS_WRITE_REJ q)).reportAccess (0x101 + 16 * q) ((a - 0x400000) % 0x80000 / 32) m 2
  else winPut a be v s

/-- A write to a window. -/
def winWrite (m : Master) (a : Nat) (be : BitVec 4) (v : Dword) (s : State) : State :=
  if 0x48000 ≤ a && a < 0x50000 && a % 16 = 12 then
    let t := winPut a be v s
    if (s.winGet a).getLsbD 0 && !(t.winGet a).getLsbD 0 then msixUnmask ((a - 0x48000) / 16) t else t
  else if 0x5C000 ≤ a && a < 0x5D000 then
    if s.bit F.NVM_STAT_RUNNING then writeLost R.NVM_PSTAT s else winPut a be v s
  else if 0x5D000 ≤ a && a < 0x5E000 then s
  else if 0x200000 ≤ a && a < 0x400000 then timingWrite m a be v s
  else if 0x400000 ≤ a && a < 0xC00000 then storeWrite m a be v s
  else if 0xE00000 ≤ a && a % 16 = 12 then ringDword3 ((a - 0xE00000) / 16) (winPut a be v s)
  else winPut a be v s

/-- What a window dword reads as. The NVM read window shows the copy that SEL names. -/
def State.winRead (s : State) (a : Nat) : Dword :=
  if 0x5D000 ≤ a && a < 0x5E000 then
    BitVec.ofNat 32 (s.pageDw (2 * s.fld F.NVM_SEL_LPN + s.fld F.NVM_SEL_COPY) ((a - 0x5D000) / 4))
  else s.winGet a

/-! ### Host writes held back (R85, R105) -/

def unitsOf (a n : Nat) : Nat := if n = 0 then 0 else (a + n - 1) / 64 - a / 64 + 1

/-- Units of stack B among `n` units from `u`. -/
def unitsB (u n : Nat) : Nat := ((List.range n).filter fun i => stackB (u + i)).length

/-- A BAR2 write reaches HBM; the bytes beyond the capacity are discarded and counted (R49). -/
def hbmWrite (a : Nat) (bytes : List Byte) (s : State) : State :=
  let cap := s.capacity
  let keep := bytes.take (cap - a)
  let n := unitsOf a keep.length
  let b := unitsB (a / 64) n
  let s := s.setHbm a keep
  let s := if 0 < n - b then s.count 0x81 (n - b) else s
  let s := if 0 < b then s.count 0x83 b else s
  if keep.length < bytes.length then s.count 0x8F 1 else s

def applyRdy (w : PendWrite) (s : State) : State := (applyReg .pcie w.addr w.mask w.data 0 s).1

/-- A BAR2 write lands: while a quarter is not stopped only inside a refill window, else it is discarded and reported
(R104). -/
def bar2Land (a : Nat) (bytes : List Byte) (s : State) : State :=
  if !s.allStopped && !s.insideWindow a (a + bytes.length) then
    (s.raise F.MEM_FAULT_BAR2_BLOCK).reportAccess 0x032 (a / 64) .pcie 2
  else hbmWrite a bytes { s with hostBudget := s.hostBudget - unitsOf a bytes.length }

/-- Let go of what the pace admits, oldest first. A write larger than a whole span takes a span of its own. -/
def drainHeld : List HeldHost → State → State
  | [], s => { s with heldHost := [] }
  | .rdy w :: l, s => drainHeld l (applyRdy w s)
  | .hbm a b :: l, s =>
    if unitsOf a b.length ≤ s.hostBudget || s.hostBudget = max 1 (s.fld F.MEM_HOSTBW_UNITS) then
      drainHeld l (bar2Land a b s)
    else { s with heldHost := .hbm a b :: l }

/-- What a BAR2 read behind the held writes must see: all of them landed (R35). -/
def State.behindHeld (s : State) : State :=
  s.heldHost.foldl (fun t h => match h with
    | .hbm a b => bar2Land a b t
    | .rdy w => applyRdy w t) s

/-! ### What is refused at the fabric -/

/-- A boot discards these writes (R383). -/
def State.bootRefuses (s : State) (m : Master) (a : Nat) : Bool :=
  clears m && s.bootBusy &&
    !(a < 0x400 || (0x1000 ≤ a && a < 0x1400) || (0x2000 ≤ a && a < 0x2800 && a ≠ R.PWR_REQ) || (0x10000 ≤ a && a < 0x18000) ||
      (0x68000 ≤ a && a < 0x68900))

/-- The central region of the address is in its fault state (Table 16-2). -/
def State.regionClosed (s : State) (a : Nat) : Bool :=
  match addrRegion a with
  | some r => r ≠ 1 && s.unitFault (2 + r)
  | none => false

/-- A write that the fabric discards at once, whatever domain it is for. -/
def State.discards (s : State) (m : Master) (a : Nat) (be : BitVec 4) : Bool :=
  !mapped a || (!isWindow a && be ≠ 0xF) || s.regionClosed a || s.bootRefuses m a

def discardWrite (m : Master) (a : Nat) (be : BitVec 4) (s : State) : State :=
  if !mapped a || (!isWindow a && be ≠ 0xF) then (s.count 0x8F 1).reportAccess 0x000 a m 2
  else if s.regionClosed a then s
  else s.raise F.CHIP_BOOT_STAT_BUSY_REJ

/-! ### One access served -/

/-- A master's place in the order in which the fabric settles writes of one MCLK cycle (R35). -/
def masterRank : Master → Nat
  | .pcie => 0
  | .spx1 => 1
  | .boot => 2
  | .qseq q => 3 + q.val
  | .cal => 19

/-- The bits of the register at `a` that a master settled after `m` has written in this MCLK cycle: its write stands
(R35). -/
def State.outranked (s : State) (m : Master) (a : Nat) : Word :=
  s.cycle.foldl (fun x e => if e.cycle = s.now / 2 && e.addr = a && masterRank m < e.rank then x ||| e.mask else x) 0

/-- The write is remembered for the rest of its MCLK cycle. -/
def noteCycle (m : Master) (a : Nat) (mask : Word) (s : State) : State :=
  { s with cycle := s.cycle.filter (fun e => e.cycle = s.now / 2) ++
      [{ cycle := s.now / 2, rank := masterRank m, addr := a, mask := mask }] }

/-- A full write to a register, by `m`: TXN registers, captured, held behind BAR2 writes, posted, or applied (R40, R41,
R105, R38, R34). -/
def regWrite (m : Master) (a : Nat) (v : Dword) (s : State) : State :=
  let w : PendWrite := { addr := a, mask := (v >>> 16).setWidth 16, data := v.setWidth 16 }
  match txnUnitAt a with
  | some u => txnWrite m u a w.mask w.data s
  | none =>
    match rowOf a with
    | none => s
    | some r =>
      match s.capturer m a with
      | some u => captureWrite u w s
      | none =>
        if 0x34000 ≤ a && a < 0x36000 && m = .pcie && s.heldHost ≠ [] then { s with heldHost := s.heldHost ++ [.rdy w] }
        else match pstatOf a with
          | some p => postWrite p w s
          | none =>
            let rw := BitVec.ofNat 16 r.rw
            (applyReg m a (w.mask &&& ~~~(s.outranked m a &&& rw)) w.data (granuleNext s.now)
              (noteCycle m a (w.mask &&& rw) s)).1

def serveWrite (m : Master) (a : Nat) (be : BitVec 4) (v : Dword) (s : State) : State :=
  if s.discards m a be then discardWrite m a be s
  else if isWindow a then winWrite m a be v s
  else regWrite m a v s

/-- The dword that a read returns now. -/
def State.readDword (s : State) (m : Master) (a : Nat) : Dword :=
  if !mapped a || s.regionClosed a then 0
  else if isWindow a then s.winRead a
  else match rowOf a with
    | none => 0
    | some r => (s.readValue m a r.rc).setWidth 32

/-- LAST_ADDR and LAST_DATA take the last read of SPX1 (R280). -/
def keepCut (s : State) : State :=
  let a := s.spx1.lastAddr
  let v := s.spx1.lastData.toNat
  (((s.setFld F.SPX1_LAST_ADDR_L_ADDR a).setFld F.SPX1_LAST_ADDR_H_ADDR (a / 2 ^ 16)).setFld F.SPX1_LAST_DATA_L_DATA v).setFld
    F.SPX1_LAST_DATA_H_DATA (v / 2 ^ 16)

/-- A read's value reaches its reader. -/
def pushRead (m : Master) (a : Nat) (v : Dword) (s : State) : State :=
  let s := { s with reads := v :: s.reads }
  if !isSpx1 m then s
  else
    let s := { s with spx1 := { s.spx1 with lastAddr := a, lastData := v } }
    if s.spx1.cut then keepCut { s with spx1 := { s.spx1 with cut := false } } else s

def serveRead (m : Master) (a : Nat) (s : State) : State :=
  let v := s.readDword m a
  let s := if !mapped a then s.count 0x8F 1 else s
  let s := if !mapped a || s.regionClosed a || isWindow a then s
    else match rowOf a with
      | none => s
      | some r => readEffect m a r.rc s
  pushRead m a v s

def serve (x : Stalled) (s : State) : State :=
  if x.write then serveWrite x.master x.addr x.be x.data s else serveRead x.master x.addr s

/-! ### The fabric -/

/-- The fabric has no clock or no supply: SHANK, or after the backstop. -/
def State.fabricDown (s : State) : Bool := (s.pstate = 4 && !s.bit F.PWR_STAT_EXITING) || s.bit F.PWR_STAT_BACKSTOP

/-- The quarter whose power the access needs and that is off. -/
def State.offQuarter (s : State) (x : Stalled) : Option Nat :=
  if x.write && s.discards x.master x.addr x.be then none
  else match addrQuarter x.addr with
    | some q => if s.quarterOn q then none else some q
    | none => none

def stallAccess (x : Stalled) (s : State) : State := { s with pwr := { s.pwr with stalled := s.pwr.stalled ++ [x] } }

/-- A host write to an RDY register waits behind BAR2 writes (R105): the host's later accesses wait too (R35). -/
def State.rdyHeld (s : State) : Bool := s.heldHost.any fun h => match h with
  | .rdy _ => true
  | .hbm _ _ => false

/-- The access waits: behind another of its master, an RDY write held back, or for a stopped clock. -/
def State.mustWait (s : State) (m : Master) : Bool :=
  s.pwr.stalled.any (fun y => y.master = m) || (m = .pcie && s.rdyHeld)

/-- An access in PATROL wakes the central domain within 60 µs; it stays on until the next state entry (R335). -/
def wakeCentral (s : State) : State :=
  if s.pstate = 3 && s.centralOff then { s with pwr := { s.pwr with central := some (s.now + 60 * usPclk) } } else s

/-- An access: served, rejected, or stalled behind another of its master, a stopped clock or a domain that is off. -/
def access (x : Stalled) (s0 : State) : State :=
  let s := wakeCentral s0
  if s.fabricDown then s
  else if s.bit F.CLK_STAT_HOLD || s.mustWait x.master then stallAccess x s
  else match s.offQuarter x with
    | none => serve x s
    | some q =>
      if s.inTransit then rejectAccess x.master x.write x.addr s
      else quarterWake q (stallAccess x s)

/-- Accesses are dwords aligned to 4 bytes, in the 24-bit space of BAR0 (R33). -/
def busAddr (a : Nat) : Nat := a % 2 ^ 24 / 4 * 4

/-- A host access is one packet received; a read's completion is one sent. -/
def hostTlps (m : Master) (write : Bool) (s : State) : State :=
  if m = .pcie && !s.fabricDown then
    let t := countTlps true 1 s
    if write then t else countTlps false 1 t
  else s

def busWrite (m : Master) (a : Nat) (be : BitVec 4) (v : Dword) (s : State) : State :=
  access { master := m, write := true, addr := busAddr a, data := v, be := be, since := s.now } (hostTlps m true s)

def busRead (m : Master) (a : Nat) (s : State) : State :=
  access { master := m, write := false, addr := busAddr a, data := 0, be := 0xF, since := s.now } (hostTlps m false s)

/-- A masked write of `data` under `mask` (R5). -/
def busReg (m : Master) (a : Nat) (mask data : Word) (s : State) : State := busWrite m a 0xF (mask ++ data) s

/-- The clocks run again, or a domain is on: what waited is served in order, each master's accesses behind one another. -/
def serveStalled (s : State) : State :=
  if s.bit F.CLK_STAT_HOLD then s
  else
    let l := s.pwr.stalled
    l.foldl (fun s x =>
      if s.mustWait x.master then stallAccess x s
      else match s.offQuarter x with
        | none => serve x s
        | some q => quarterWake q (stallAccess x s)) { s with pwr := { s.pwr with stalled := [] } }

/-- Every 8 granules the pace admits UNITS more (R85); what waited behind an RDY write goes on. -/
def hostSpan (s : State) : State :=
  let t := drainHeld s.heldHost { s with hostBudget := max 1 (s.fld F.MEM_HOSTBW_UNITS) }
  if s.rdyHeld && !t.rdyHeld then serveStalled t else t

/-! ### BAR2 (R49, R104) -/

/-- A host write through BAR2. It needs the link; during a boot it needs an awaited image; while a quarter is not
stopped it must lie in a refill window. -/
def bar2Write (a : Nat) (bytes : List Byte) (s : State) : State :=
  if s.fabricDown || !s.linkUp || bytes = [] then s
  else if s.bootBusy && !s.bit F.CHIP_BOOT_STAT_WAIT_IMAGE then s.raise F.CHIP_BOOT_STAT_BUSY_REJ
  else if s.capacity ≤ a then s.count 0x8F 1
  else
    let s := countTlps true 1 s
    if (s.heldHost = [] && unitsOf a bytes.length ≤ s.hostBudget) || (!s.allStopped && !s.insideWindow a (a + bytes.length)) then
      bar2Land a bytes s
    else { s with heldHost := s.heldHost ++ [.hbm a bytes] }

/-- The unit `u` is read for the host; `ecc`: what the read finds. An uncorrectable error poisons the completion and
is an uncorrectable error of AER (R210). -/
def bar2Unit (u ecc : Nat) (s : State) : State :=
  let s := s.count (if stackB u then 0x82 else 0x80) 1
  if ecc = 1 then corrected u s
  else if ecc = 2 then
    let t := uncorrected u s
    ({ t with ep := true, pcie := { t.pcie with aerUncorr := true } }).count 0x8D 1
  else s

/-- One dword of a BAR2 read; a place beyond the capacity reads 0. -/
def bar2Dword (a : Nat) (s : State) : State :=
  { s with reads := (if s.capacity ≤ a then 0 else BitVec.ofNat 32 (s.behindHeld.hbmNat a 4)) :: s.reads }

/-- A host read of `n` dwords from `a`: each unit is read once, `ecc` is for the first one, and the dwords come back in
rising order (R49). -/
def bar2ReadAll (a n ecc : Nat) (s : State) : State :=
  if s.fabricDown then s
  else
    let a := a / 4 * 4
    let s := countTlps false 1 (countTlps true 1 { s with ep := false })
    let u := a / 64
    let us := (List.range (unitsOf a (4 * n))).filter fun i => (u + i) * 64 < s.capacity
    let s := forAll us (fun i s => bar2Unit (u + i) (if i = 0 then ecc else 0) s) s
    forAll (List.range n) (fun i s => bar2Dword (a + 4 * i) s) s

/-! ### Effects in a target domain, and accesses that wake a quarter -/

/-- The write of a posted register takes effect in its domain, which has power and a clock. -/
def postedEffect (a : Nat) (mask data : Word) (s : State) : State :=
  let off := match addrQuarter a with
    | some q => !s.quarterOn q
    | none => false
  if s.fabricDown || s.bit F.CLK_STAT_HOLD || off then s else (applyReg .pcie a mask data (granuleNext s.now) s).1

/-- An access to a quarter whose domain is off (R335). -/
def wakeAccess (m : Master) (write : Bool) (a : Nat) (be : BitVec 4) (v : Dword) (s : State) : State :=
  match addrQuarter (busAddr a) with
  | some q => if s.quarterOn q then s else if write then busWrite m a be v s else busRead m a s
  | none => s

end Sys2Proof.Machine
end

