-- ==== Sys2Proof/Machine/CalCmds.lean ====
section
/-! DEFINITION. Commands and events of calibration and the NVM (13_calibration_nvm.md). -/

namespace Sys2Proof.Machine

/-- R292: STORE takes effect. -/
def execNvmStore (s : State) : Answer :=
  .next (postedEffect (R.NVM_CMD) 1 1 s)

/-- R292, R346: the read-back of a STORE ends; a thermal entry that waited goes on. -/
def execNvmStoreComplete (ok : Bool) (s : State) : Answer :=
  .next (thermalResume (nvmStoreComplete ok s))

/-- R293: LOAD takes effect. -/
def execNvmLoad (s : State) : Answer :=
  .next (postedEffect (R.NVM_CMD) 2 2 s)

/-- R293: a LOAD ends. -/
def execNvmLoadComplete (s : State) : Answer :=
  .next (nvmLoadComplete s)

/-- R295 to R297: the end of a calibration slot. -/
def execCalSlotEnd (q : Fin 16) (rs : List CalResult) (s : State) : Answer :=
  .next (calSlotEnd q.val rs s)

/-- R298: a channel's calibration is too old. -/
def execCalAgeLimit (c : Fin 1024) (s : State) : Answer :=
  .next (calAgeLimit c.val s)

/-- R301: a request of a session. -/
def execCalSessionRequest (m : Master) (q : Fin 16) (s : State) : Answer :=
  .next (busReg m R.CAL_MREQ 0x1F (word (16 + q.val)) s)

end Sys2Proof.Machine
end

