-- ==== Sys2Proof/Machine/ClockCmds.lean ====
section
/-! DEFINITION. Commands and events of the clocks (14_clocks.md). -/

namespace Sys2Proof.Machine

/-- R307: the end of the XO start delay. -/
def execXoStartDelayEnd (s : State) : Answer :=
  .next (xoDelayEnd s)

/-- R306: a source is READY. -/
def execClockSourceReady (k : Fin 4) (s : State) : Answer :=
  .next (clockReady k.val s)

/-- R314: a monitor trips. -/
def execClockMonitorTrip (k : Fin 6) (s : State) : Answer :=
  .next (clockTrip k.val s)

/-- R318, R346: clock-hold ends; what waited for the clocks goes on. -/
def execClockHoldExit (s : State) : Answer :=
  .next (if s.holdOver then serveStalled (thermalResume (thermalHoldEnd (clockHoldExit s))) else s)

/-- R318: clock-hold has lasted 10 ms. -/
def execClockHoldTimeout (s : State) : Answer :=
  .next (clockHoldTimeout s)

/-- R308: a step of the RCO trim. -/
def execRcoTrimStep (up : Bool) (s : State) : Answer :=
  .next (rcoTrimStep up s)

/-- R310: the main PLL locks. -/
def execPllLock (s : State) : Answer :=
  .next (pllLock s)

/-- R311: the interface PLL locks. -/
def execInterfacePllLock (s : State) : Answer :=
  .next (ipllLock s)

/-- R316: a write of CLK.SRC. -/
def execClkSrcWrite (m : Master) (mask data : Word) (s : State) : Answer :=
  .next (busReg m R.CLK_SRC mask data s)

/-- R317: the switch of the PLL reference is complete. -/
def execPllRefSwitchComplete (s : State) : Answer :=
  .next (refSwitchComplete s)

end Sys2Proof.Machine
end

