-- ==== Sys2Proof/Machine/FaultCmds.lean ====
section
/-! DEFINITION. Commands and events of the fault collector (16_safety_faults.md). -/

namespace Sys2Proof.Machine

/-- R354 to R363: the collector takes a reported event. -/
def execFaultEvent (s : State) : Answer :=
  .next (faultEvent s)

/-- R356: a counting window ends. -/
def execFaultWindowExpiry (src : Fin 512) (s : State) : Answer :=
  .next (faultWindow src.val s)

/-- R360, R364: a quiet period ends. -/
def execFaultQuietExpiry (x : Fin 225) (s : State) : Answer :=
  .next (faultQuiet x.val s)

/-- R362: RCLR. -/
def execFaultRclr (m : Master) (x : Fin 225) (s : State) : Answer :=
  .next (busReg m (entAddr x.val) 0x100 0x100 s)

/-- R355: SAFE_REQ. -/
def execSafeReq (m : Master) (s : State) : Answer :=
  .next (busReg m R.FLT_CTRL 1 1 s)

/-- R366: the scrub of the voted fields. -/
def execVotedFieldScrub (ups : List (Nat × Nat × Word)) (s : State) : Answer :=
  .next (votedScrub ups s)

/-- R367: a read of FE_SRC. -/
def execFeSrcRead (m : Master) (s : State) : Answer :=
  .next (busRead m R.FLT_FE_SRC s)

end Sys2Proof.Machine
end

