-- ==== Sys2Proof/Machine/Link.lean ====
section
/-! DEFINITION. The PCI Express link and its resets (02_registers_host.md, R51; R224, R375). -/

namespace Sys2Proof.Machine

/-- An event of LINK_STAT. -/
def linkEvent (f : Fld) (s : State) : State := s.raise f

/-- A Function Level Reset or hot reset: the configuration, the MSI-X table and its PBA return to reset; of the pump's host-side state,
CB_BASE0 to 3 and PUMP_EN, so that the host rewrites them (R224); rings, RSEQ and the copies of CONS stay. -/
def hostReset (s : State) : State :=
  let s := { s with win := s.win.filter (fun e => !(0x47000 ≤ e.1 && e.1 < 0x50000)), pcie := {} }
  let s := s.setBit F.RING_CTRL_PUMP_EN false
  let s := (((s.setFld F.RING_CB_BASE0_CB 0).setFld F.RING_CB_BASE1_CB 0).setFld F.RING_CB_BASE2_CB 0).setFld F.RING_CB_BASE3_CB 0
  linkEvent F.HOST_LINK_STAT_FLR_EVT s

/-- The function reset reaches the endpoint only where its domain runs. -/
def functionReset (s : State) : State := if s.fabricDown then s else hostReset s

/-- The link leaves L0: refill through BAR2 and ring drain are suspended. -/
def linkLost (s : State) : State :=
  if s.fabricDown || !s.linkUp then s
  else linkEvent F.HOST_LINK_STAT_LINK_DOWN_EVT { s with linkUp := false }

/-- The link may train: the boot has reached its step 4, where the endpoint leaves Detect, or with BOOT_SRC 2 step 13
(R380, R382). -/
def State.linkMay (s : State) : Bool :=
  s.boot.up && !s.fabricDown &&
    (if fieldOf s.straps 6 2 = 2 then s.fld F.CHIP_BOOT_STAT_STEP = 13
     else !s.boot.running || 4 ≤ s.fld F.CHIP_BOOT_STAT_STEP)

/-- The function mask is cleared: the pending messages of the vectors not masked themselves go out (R52). -/
def msixFunctionUnmask (s : State) : State :=
  let s := { s with pcie := { s.pcie with cfg := { s.pcie.cfg with functionMask := false } } }
  forAll ((List.range 2048).filter fun w => (s.winGet (0x47000 + w / 32 * 4)).getLsbD (w % 32) && !s.msixMasked w) msixUnmask s

/-- The host configures the function. -/
def configure (cfg : PcieConfig) (s : State) : State :=
  let t := { s with pcie := { s.pcie with cfg := cfg } }
  if cfg.functionMask then t else msixFunctionUnmask t

/-- The link is active at a speed and width, and the host configures the function. -/
def linkTrained (speed width : Nat) (cfg : PcieConfig) (s : State) : State :=
  if s.linkMay then
    configure cfg { (s.setFld F.HOST_LINK_STAT_SPEED speed).setFld F.HOST_LINK_STAT_WIDTH width with linkUp := true }
  else s

/-- PERST_N: a hot reset at its assertion; its rising edge is wake event 6 (R375, Table 15-6). -/
def perstPulse (s : State) : State := wakeEvent 6 (functionReset s)

end Sys2Proof.Machine
end

