-- ==== Sys2Proof/Machine/HostCmds.lean ====
section
/-! DEFINITION. Commands of the register fabric and the host link: accesses, counters, BAR2, the link (02_registers_host.md). -/

namespace Sys2Proof.Machine

/-- R33 to R35: a write on the fabric. -/
def execRegisterWrite (m : Master) (addr : Nat) (be : BitVec 4) (v : Dword) (s : State) : Answer :=
  .next (busWrite m addr be v s)

/-- R38: the pending write of the block takes effect and BUSY clears; not while the clocks stand still. -/
def execPostedWriteDelivery (pstat : Nat) (s : State) : Answer :=
  .next (if s.bit F.CLK_STAT_HOLD then s else postDeliver pstat s)

/-- R36: a read answers the reader's copy of RC fields and clears it. -/
def execReadClear (m : Master) (addr : Nat) (s : State) : Answer :=
  .next (busRead m addr s)

/-- R46: a read of the low half of a wide value latches the upper halves for the reader. -/
def execLatchedRead (m : Master) (addr : Nat) (s : State) : Answer :=
  .next (busRead m addr s)

/-- R46: a read of CNT_L latches the upper bits and, with RDCLR, rebases the reader. -/
def execEvcCntLRead (m : Master) (n : Fin 64) (s : State) : Answer :=
  .next (busRead m (R.EVC_CNT_L n.val) s)

/-- R39: a read answers the majority of the copies; a disagreement is counted and reported. -/
def execVotedFieldRead (m : Master) (addr : Nat) (s : State) : Answer :=
  .next (busRead m addr s)

/-- R45: CLR sets the count and both bases to 0. -/
def execEvcClr (m : Master) (n : Fin 64) (s : State) : Answer :=
  .next (busReg m (R.EVC_SEL n.val) 0x800 0x800 s)

/-- R45: CLEAR_ALL clears every event counter. -/
def execEvcClearAll (m : Master) (s : State) : Answer :=
  .next (busReg m R.EVC_CTRL 1 1 s)

/-- R47: SNAP_NOW takes a snapshot at once. -/
def execEvcSnapNow (m : Master) (s : State) : Answer :=
  .next (busReg m R.EVC_CTRL 4 4 s)

/-- R49, R85, R104: a host write to HBM through BAR2. -/
def execBar2Write (addr : Nat) (bytes : List Byte) (s : State) : Answer :=
  .next (bar2Write addr bytes s)

/-- R49: a host read from HBM through BAR2. -/
def execBar2Read (addr n : Nat) (ecc : Fin 3) (s : State) : Answer :=
  .next (bar2ReadAll addr n ecc.val s)

/-- R50, R321: an access without a completion after 4,096 MCLK ends with an error. -/
def execFabricAccessTimeout (m : Master) (write gate : Bool) (addr : Nat) (s : State) : Answer :=
  .next (accessTimeout m write gate (busAddr addr) s)

/-- R335: an access to a quarter whose domain is off; where it is on, this is not that event. -/
def execQuarterWake (m : Master) (write : Bool) (addr : Nat) (be : BitVec 4) (v : Dword) (s : State) : Answer :=
  .next (wakeAccess m write addr be v s)

/-- R51: a Function Level Reset or hot reset. -/
def execFunctionLevelReset (s : State) : Answer :=
  .next (functionReset s)

/-- R51: the link goes down. -/
def execLinkDown (s : State) : Answer :=
  .next (linkLost s)

/-- R51: the link is back; the host configures the function. -/
def execLinkUp (link : Fin 16 × Fin 16) (cfg : PcieConfig) (s : State) : Answer :=
  .next (linkTrained link.1.val link.2.val cfg s)

/-- R375: PERST_N acts as a hot reset; its rising edge is a wake event. -/
def execPerstN (s : State) : Answer :=
  .next (perstPulse s)

/-- R52: the host clears the mask of a vector, or the function mask. -/
def execMsixVectorUnmask (w : Option (Fin 2048)) (s : State) : Answer :=
  .next (match w with
    | some w => busWrite .pcie (0x48000 + 16 * w.val + 12) 1 0 s
    | none => if s.fabricDown then s else msixFunctionUnmask s)

end Sys2Proof.Machine
end

