-- ==== Sys2Proof/Machine/Marks.lean ====
section
/-! DEFINITION. A Lace MARK's effect (11_lace.md, R251): commits, snapshots, time-interval units, quarter starts.
Waits in the sequencers take it when it becomes known (R72). -/

namespace Sys2Proof.Machine

/-- An armed snapshot on the mark (R47). -/
def snapOnMark (num : Nat) (s : State) : State :=
  if s.bit F.EVC_CTRL_SNAP_ARM && s.fld F.EVC_SNAP_MARK_MARK_N = num then
    (s.setBit F.EVC_CTRL_SNAP_ARM false).snapshot
  else s

/-- Units armed by the mark (R231, SRC 7), their windows 48 PCLK after it. -/
def armOnMark (num t : Nat) (s : State) : State :=
  forAll ((List.range 64).filter fun u => s.fld (F.TDC_ARM_CFG_SRC u) = 7 && s.fld (F.TDC_ARM_MARK_MARK_N u) = num)
    (fun u s => tdcOpen u (t + 48) false s) s

def laceMarkEffect (s : State) : State :=
  match s.dueEffect [2] with
  | none => s
  | some e =>
    let s := commitMark e.num e.eff (dropEffect (· = e) s)
    let s := armOnMark e.num e.eff (snapOnMark e.num s)
    startStarting 2 (fun q => s.fld (F.QSEQ_MARK_N_MARK_N q) = e.num) e.eff s

end Sys2Proof.Machine
end

