-- ==== Sys2Proof/Machine/LaceCmds.lean ====
section
/-! DEFINITION. Commands and events of the Lace eyelet (11_lace.md). -/

namespace Sys2Proof.Machine

/-- R250, R252: the master starts a frame. -/
def execLaceFrameStart (s : State) : Answer :=
  .next (laceFrameStart s)

/-- R250, R253, R254, R259: a frame on DI. -/
def execLaceFrameReceive (sof : Nat × Nat) (fn hop : Nat) (survey : Bool) (acc : Nat) (sofOk : Bool) (slots : List LaceSlot)
    (delays : SurveyDelays) (s : State) : Answer :=
  .next (laceFrame sof.1 sof.2 fn hop survey acc sofOk slots delays s)

/-- R251: a TRIG takes effect. -/
def execLaceTrigEffect (s : State) : Answer :=
  .next (laceTrigEffect s)

/-- R251: a MARK takes effect. -/
def execLaceMarkEffect (s : State) : Answer :=
  .next (laceMarkEffect s)

/-- R251: the start mark takes effect. -/
def execLaceStartEffect (s : State) : Answer :=
  .next (laceStartEffect s)

/-- R255, R74: a HOLD takes effect. -/
def execLaceHoldEffect (s : State) : Answer :=
  .next (laceHoldEffect 4 s)

/-- R255, R74: a RELEASE takes effect. -/
def execLaceReleaseEffect (s : State) : Answer :=
  .next (laceHoldEffect 5 s)

/-- R260: an EPOCH takes effect. -/
def execLaceEpochEffect (s : State) : Answer :=
  .next (laceEpochEffect s)

/-- R252: SEND_GO. -/
def execLaceSendGo (m : Master) (s : State) : Answer :=
  .next (busReg m R.LACE_CTRL 0x20 0x20 s)

/-- R252: START_SEND. -/
def execLaceStartSend (m : Master) (s : State) : Answer :=
  .next (busReg m R.LACE_CTRL 0x10 0x10 s)

/-- R259: EPOCH_NOW. -/
def execLaceEpochNow (m : Master) (s : State) : Answer :=
  .next (busReg m R.LACE_CTRL 8 8 s)

/-- R259: the epoch of EPOCH_PER is due. -/
def execLaceEpochDue (s : State) : Answer :=
  .next (laceEpochDue s)

/-- R257: SURVEY. -/
def execLaceSurvey (m : Master) (s : State) : Answer :=
  .next (busReg m R.LACE_CTRL 4 4 s)

/-- R258: a survey ends. -/
def execLaceSurveyComplete (r : SurveyResult) (s : State) : Answer :=
  .next (laceSurveyComplete r s)

/-- R257: a member's borrow comes too late. -/
def execSurveyBorrowTimeout (s : State) : Answer :=
  .next (surveyTimeout s)

/-- R261: DETACH. -/
def execLaceDetach (m : Master) (s : State) : Answer :=
  .next (busReg m R.LACE_CTRL 0x40 0x40 s)

/-- R250: the ring is lost. -/
def execRingLost (s : State) : Answer :=
  .next (ringLost s)

end Sys2Proof.Machine
end

