-- ==== Sys2Proof/Machine/LedgerCmds.lean ====
section
/-! DEFINITION. Commands and events of the current ledger and the maintenance arbiter (08_schedule_contract.md; R301). -/

namespace Sys2Proof.Machine

/-- R196: CHECK. -/
def execLedgerCheck (m : Master) (s : State) : Answer :=
  .next (busReg m R.LEDG_CTRL 0x400 0x400 s)

/-- R194, R198: the end of a ledger window. -/
def execLedgerWindowEnd (s : State) : Answer :=
  .next (ledgerWindowEnd s)

/-- R200: the measured currents of a window. -/
def execLedgerSensorResult (ms : List (Nat × Nat)) (bad : List Nat) (s : State) : Answer :=
  .next (ledgerSensor ms bad s)

/-- R301, R199: the arbiter grants a waiting activity. -/
def execMaintenanceGrant (s : State) : Answer :=
  .next (maintGrant s)

end Sys2Proof.Machine
end

