-- ==== Sys2Proof/Machine/Edge.lean ====
section
/-! DEFINITION. What a channel does at a DCLK edge, and the ends of stage changes and disconnects
(06_pin_channel.md, R136, R139, R140, R146, R150; R134, R161). -/

namespace Sys2Proof.Machine

/-- The slew limiters of the twelve DACs. -/
def slewAll (c : Nat) (s : State) : State := forAll (List.range 12) (slewStep c) s

/-- The reference temperature corrections of the twelve DACs (R134). -/
def refAll (c : Nat) (s : State) : State := forAll (List.range 12) (refStep c) s

/-- What the channel's node did, or what the loopback shows its comparator, the PPMU's current, and for how long the
ball has been inside the OVD window. -/
def sensePin (c : Nat) (node : List Int) (amps : Int) (within : Nat) (s : State) : State :=
  let x := s.chan c
  let vs := match s.loopLevels c with
    | some l => [x.loopAt l (steps s.now - steps tPin)]
    | none => node
  s.setChan c { x.sense (s.thresholds c) vs with
    amps := amps, inSince := if within = 0 then none else some (s.now - within) }

/-- DCLK runs and the channel's domain is powered. -/
def State.dclkAt (s : State) (c : Nat) : Bool := s.now % 64 = 0 && !s.bit F.CLK_STAT_HOLD && s.quarterOn (c / 64)

/-- The over-voltage detector trips while it is enabled and powered: the PPMU goes off with the channel (R145, R166). -/
def ovdEvent (c : Nat) (high : Bool) (s : State) : State :=
  if s.bit (F.CH_PROT_OVD_EN c) && s.quarterOn (c / 64) then ovdTrip c high (pmuOff c (pmuAbort c s)) else s

/-- A DCLK edge on channel c. -/
def dclkEdge (c : Nat) (node : List Int) (amps : Int) (clamp : Bool) (within : Nat) (s : State) : State :=
  if !s.dclkAt c then s
  else rangeCheck c false (pmuClamp c clamp (refAll c (slewBackEnd c (slewAll c (sensePin c node amps within s)))))

/-- The queue's sample at its DCLK edge; it can trigger the PPMU (R163). -/
def lqEdge (c : Nat) (s : State) : State :=
  if s.dclkAt c && s.bit (F.CH_LQ_CFG_EN c) && (s.chan c).lqNext ≤ s.now then
    let t := lqSample c s
    if t.bit (F.CH_LQ_CFG_EN c) then pmuLqTrigger c t else t
  else s

/-- 200 ns after the welt at the pin, deskew included: the new stage connects. The driver takes the state of the
latest suppressed edge, if no granule has yet (Table 6-3). -/
def stageDone (c : Nat) (s : State) : State :=
  let x := s.chan c
  match x.stageSw with
  | none => s
  | some w =>
    if steps s.now < steps (w + tPin + 128) + x.stageDly then s
    else
      let off := x.forced || s.muted c
      let y := if off then { x.cut with supp := none } else x.stageTake s.now
      let s := (s.setBit (F.CH_STAT_STAGE_ACT c) x.stageTo).setChan c { y with stageSw := none }
      rangeCheck c true s

/-- A disconnect ends once its conditions hold, at a welt or, outside RUN, at a granule boundary (R146). -/
def discEnd (c : Nat) (s : State) : State :=
  let q := c / 64
  let at_ := match (s.q q).body with
    | some b => if s.qstate q = 1 then s.now = b.start || s.now = b.welt else s.now % 8 = 0
    | none => s.now % 8 = 0
  if s.bit (F.CH_STAT_DISC c) && s.discMayEnd c && at_ then reconnect c s else s

end Sys2Proof.Machine
end

