-- ==== Sys2Proof/Machine/MeasCmds.lean ====
section
/-! DEFINITION. Commands and events of the PPMUs and the Supply Guard (07_parametric_supply_guard.md). -/

namespace Sys2Proof.Machine

/-- R163: MEAS_START takes effect. -/
def execPmuMeasStart (c : Fin 1024) (s : State) : Answer :=
  .next (postedEffect (R.CH_PMU_CMD c.val) 1 1 s)

/-- R164: MEAS_STOP takes effect. -/
def execPmuMeasStop (c : Fin 1024) (s : State) : Answer :=
  .next (postedEffect (R.CH_PMU_CMD c.val) 2 2 s)

/-- R160, Table 7-2: a timed step of a range change. -/
def execPmuRangeChangeStep (c : Fin 1024) (s : State) : Answer :=
  .next (onQuarter (c.val / 64) (pmuRangeStep c.val) s)

/-- R162: a converter slot. -/
def execPmuAdcSlot (a : Fin 64) (v : Int) (lim : Bool) (s : State) : Answer :=
  .next (onQuarter (a.val / 4) (adcSlot a.val v lim) s)

/-- R164, R165: the end of an interval. -/
def execPmuIntervalEnd (c : Fin 1024) (s : State) : Answer :=
  .next (onQuarter (c.val / 64) (pmuIntervalEnd c.val) s)

/-- R170 to R175: comparators of a Supply Guard channel cross. -/
def execSgTrip (n : Fin 64) (x : Int × Int) (s : State) : Answer :=
  .next (sgCompare n.val x.1 x.2 s)

/-- R170: a blanking time ends. -/
def execSgBlankExpiry (n : Fin 64) (k : Fin 5) (s : State) : Answer :=
  .next (sgBlankEnd n.val k.val s)

/-- R171: GON_BLANK ends. -/
def execSgGonBlankEnd (n : Fin 64) (s : State) : Answer :=
  .next (sgGonEnd n.val s)

/-- R172: TRIP_CLR takes effect. -/
def execSgTripClr (n : Fin 64) (s : State) : Answer :=
  .next (postedEffect (R.SG_CMD n.val) 1 1 s)

/-- R176: a measurement period ends. -/
def execSgPeriodEnd (n : Fin 64) (vs is : List Int) (s : State) : Answer :=
  .next (sgPeriodEnd n.val vs is s)

end Sys2Proof.Machine
end

