-- ==== Sys2Proof/Machine/Crypto.lean ====
section
/-! DEFINITION. What authentication computes (R379): SHA-256 (FIPS 180-4) and the verification of an ECDSA signature
over the curve P-256 (FIPS 186-5). The constants are those of the two standards (log entry 40). -/

namespace Sys2Proof.Machine

/-! ### SHA-256 -/

def shaRotr (x : Dword) (n : Nat) : Dword := x.rotateRight n
def shaCh (x y z : Dword) : Dword := (x &&& y) ^^^ (~~~x &&& z)
def shaMaj (x y z : Dword) : Dword := (x &&& y) ^^^ (x &&& z) ^^^ (y &&& z)
def shaS0 (x : Dword) : Dword := shaRotr x 2 ^^^ shaRotr x 13 ^^^ shaRotr x 22
def shaS1 (x : Dword) : Dword := shaRotr x 6 ^^^ shaRotr x 11 ^^^ shaRotr x 25
def shaM0 (x : Dword) : Dword := shaRotr x 7 ^^^ shaRotr x 18 ^^^ (x >>> 3)
def shaM1 (x : Dword) : Dword := shaRotr x 17 ^^^ shaRotr x 19 ^^^ (x >>> 10)

def shaK : List Dword := [
    0x428A2F98, 0x71374491, 0xB5C0FBCF, 0xE9B5DBA5, 0x3956C25B, 0x59F111F1, 0x923F82A4, 0xAB1C5ED5,
    0xD807AA98, 0x12835B01, 0x243185BE, 0x550C7DC3, 0x72BE5D74, 0x80DEB1FE, 0x9BDC06A7, 0xC19BF174,
    0xE49B69C1, 0xEFBE4786, 0x0FC19DC6, 0x240CA1CC, 0x2DE92C6F, 0x4A7484AA, 0x5CB0A9DC, 0x76F988DA,
    0x983E5152, 0xA831C66D, 0xB00327C8, 0xBF597FC7, 0xC6E00BF3, 0xD5A79147, 0x06CA6351, 0x14292967,
    0x27B70A85, 0x2E1B2138, 0x4D2C6DFC, 0x53380D13, 0x650A7354, 0x766A0ABB, 0x81C2C92E, 0x92722C85,
    0xA2BFE8A1, 0xA81A664B, 0xC24B8B70, 0xC76C51A3, 0xD192E819, 0xD6990624, 0xF40E3585, 0x106AA070,
    0x19A4C116, 0x1E376C08, 0x2748774C, 0x34B0BCB5, 0x391C0CB3, 0x4ED8AA4A, 0x5B9CCA4F, 0x682E6FF3,
    0x748F82EE, 0x78A5636F, 0x84C87814, 0x8CC70208, 0x90BEFFFA, 0xA4506CEB, 0xBEF9A3F7, 0xC67178F2]

/-- The working variables a to h. -/
structure ShaVars where
  a : Dword
  b : Dword
  c : Dword
  d : Dword
  e : Dword
  f : Dword
  g : Dword
  h : Dword
  deriving DecidableEq, Repr

def shaInit : ShaVars :=
  ⟨0x6A09E667, 0xBB67AE85, 0x3C6EF372, 0xA54FF53A, 0x510E527F, 0x9B05688C, 0x1F83D9AB, 0x5BE0CD19⟩

/-- One round; the schedule's window of 16 words moves on by one. -/
def shaRound (acc : ShaVars × List Dword) (k : Dword) : ShaVars × List Dword :=
  let v := acc.1
  let l := acc.2
  let t1 := v.h + shaS1 v.e + shaCh v.e v.f v.g + k + l.headD 0
  let t2 := shaS0 v.a + shaMaj v.a v.b v.c
  let w := shaM1 (l.getD 14 0) + l.getD 9 0 + shaM0 (l.getD 1 0) + l.headD 0
  (⟨t1 + t2, v.a, v.b, v.c, v.d + t1, v.e, v.f, v.g⟩, l.tail ++ [w])

/-- One block of 16 words. -/
def shaBlock (v : ShaVars) (l : List Dword) : ShaVars :=
  let r := (shaK.foldl shaRound (v, l)).1
  ⟨v.a + r.a, v.b + r.b, v.c + r.c, v.d + r.d, v.e + r.e, v.f + r.f, v.g + r.g, v.h + r.h⟩

/-- Big-endian words of a byte string whose length is a multiple of 4. -/
def shaWords : List Byte → List Dword
  | a :: b :: c :: d :: l => (a ++ b ++ c ++ d) :: shaWords l
  | _ => []

/-- The message and its padding: 0x80, zeros, the length in bits as 8 bytes. -/
def shaPad (m : List Byte) : List Byte :=
  m ++ 0x80 :: (List.replicate ((55 + 64 - m.length % 64) % 64) 0 ++ (bytesOf (8 * m.length) 8).reverse)

/-- All blocks, `n` of them. -/
def shaBlocks : Nat → ShaVars → List Dword → ShaVars
  | 0, v, _ => v
  | n + 1, v, l => shaBlocks n (shaBlock v (l.take 16)) (l.drop 16)

/-- The hash, as a number: big-endian. -/
def sha256 (m : List Byte) : Nat :=
  let l := shaWords (shaPad m)
  let v := shaBlocks (l.length / 16) shaInit l
  (v.a ++ v.b ++ v.c ++ v.d ++ v.e ++ v.f ++ v.g ++ v.h).toNat

/-! ### ECDSA over P-256 -/

def p256P : Nat := 0xFFFFFFFF00000001000000000000000000000000FFFFFFFFFFFFFFFFFFFFFFFF
def p256N : Nat := 0xFFFFFFFF00000000FFFFFFFFFFFFFFFFBCE6FAADA7179E84F3B9CAC2FC632551
def p256B : Nat := 0x5AC635D8AA3A93E7B3EBBD55769886BC651D06B0CC53B0F63BCE3C3E27D2604B
def p256G : Nat × Nat :=
  (0x6B17D1F2E12C4247F8BCE6E563A440F277037D812DEB33A0F4A13945D898C296,
   0x4FE342E2FE1A7F9B8EE7EB4A7C0F9E162BCE33576B315ECECBB6406837BF51F5)

/-- x to the power e modulo m; e has at most `n` bits. -/
def powMod (m : Nat) : Nat → Nat → Nat → Nat
  | 0, _, _ => 1
  | n + 1, x, e => (if e % 2 = 1 then x else 1) * powMod m n (x * x % m) (e / 2) % m

/-- The inverse modulo a prime. -/
def invMod (m x : Nat) : Nat := powMod m 256 x (m - 2)

/-- Points of the curve y² = x³ - 3x + b; none is the point at infinity. -/
abbrev Point := Option (Nat × Nat)

def onCurve (x y : Nat) : Bool := x < p256P && y < p256P && y * y % p256P = (x * x * x + (p256P - 3) * x + p256B) % p256P

/-- The third point of a line of slope l through points with abscissae x1 and x2, reflected. -/
def chord (l x1 y1 x2 : Nat) : Point :=
  let x := (l * l + (p256P - x1) + (p256P - x2)) % p256P
  some (x, (l * (x1 + (p256P - x)) + (p256P - y1)) % p256P)

def pointDouble : Point → Point
  | none => none
  | some (x, y) => if y = 0 then none else chord ((3 * x * x + (p256P - 3)) * invMod p256P (2 * y % p256P) % p256P) x y x

def pointAdd (a b : Point) : Point :=
  match a, b with
  | none, b => b
  | a, none => a
  | some (x1, y1), some (x2, y2) =>
    if x1 = x2 then (if y1 = y2 then pointDouble (some (x1, y1)) else none)
    else chord ((y2 + (p256P - y1)) * invMod p256P ((x2 + (p256P - x1)) % p256P) % p256P) x1 y1 x2

/-- k times a point; k has at most `n` bits. -/
def pointMul : Nat → Nat → Point → Point
  | 0, _, _ => none
  | n + 1, k, a => pointAdd (if k % 2 = 1 then a else none) (pointMul n (k / 2) (pointDouble a))

/-- The signature (r, s) over the hash `e` verifies against the public key (x, y). -/
def ecdsaOk (x y r s e : Nat) : Bool :=
  if !onCurve x y || r = 0 || p256N ≤ r || s = 0 || p256N ≤ s then false
  else
    let w := invMod p256N s
    match pointAdd (pointMul 256 (e * w % p256N) (some p256G)) (pointMul 256 (r * w % p256N) (some (x, y))) with
    | none => false
    | some (v, _) => v % p256N = r

end Sys2Proof.Machine
end

