-- ==== Sys2Proof/Machine/Image.lean ====
section
/-! DEFINITION. The Last image: its header and sections, their checks, and what loading a section does
(17_boot_reset.md, R377 to R379). -/

namespace Sys2Proof.Machine

/-! ### Fields -/

/-- Little-endian number of a byte list. -/
def leNat : List Byte → Nat
  | [] => 0
  | b :: l => b.toNat + 256 * leNat l

def beNat (l : List Byte) : Nat := leNat l.reverse

/-- `n` bytes from offset `o`; what lies past the end reads 0. -/
def slice (l : List Byte) (o n : Nat) : List Byte :=
  let x := (l.drop o).take n
  x ++ List.replicate (n - x.length) 0

def hdr (h : List Byte) (o n : Nat) : Nat := leNat (slice h o n)

/-- A section entry (R377). -/
structure Section where
  idx : Nat
  type : Nat
  arg : Nat
  len : Nat
  off : Nat
  dest : Nat
  hash : Nat
  deriving DecidableEq, Repr

def sectionAt (h : List Byte) (i : Nat) : Section :=
  let e := slice h (0x100 + 64 * i) 64
  { idx := i, type := hdr e 0 2, arg := hdr e 2 2, len := hdr e 4 4, off := hdr e 8 4, dest := hdr e 16 8,
    hash := beNat (slice e 32 32) }

def sections (h : List Byte) : List Section := (List.range (hdr h 6 2)).map (sectionAt h)

/-! ### Checks of the header (R377) -/

def zeroIn (h : List Byte) (o n : Nat) : Bool := (slice h o n).all (· = 0)

/-- A mode-entry command: no bit set that Table 17-3 does not list, at most 4 data bytes. -/
def modeOk (h : List Byte) (k : Nat) : Bool :=
  let o := 0x14 + 12 * k
  hdr h (o + 1) 1 < 16 && hdr h (o + 1) 1 / 2 ≤ 4 && zeroIn h (o + 2) 2

/-- MAGIC, FMT, every field in its range, every unlisted byte 0. -/
def headerOk (h : List Byte) : Bool :=
  let n := hdr h 6 2
  h.length = 4096 && hdr h 0 4 = 0x5453414C && hdr h 4 2 = 1 && 1 ≤ n && n ≤ 56 && 4096 ≤ hdr h 8 4 && hdr h 0xC 2 < 32 &&
    hdr h 0xE 1 ≤ 2 && hdr h 0x11 1 ≤ 31 && hdr h 0x12 1 ≤ 4 && (List.range (hdr h 0x12 1)).all (modeOk h) &&
    1 ≤ hdr h 0x44 1 && hdr h 0x44 1 ≤ 64 && hdr h 0x48 2 ≤ 1000 &&
    zeroIn h 0x13 1 && zeroIn h 0x45 1 && zeroIn h 0x4C 4 && zeroIn h 0x60 0xA0 &&
    zeroIn h (0x100 + 64 * n) (0xE00 - 64 * n) && zeroIn h 0xF80 0x80 &&
    (List.range n).all fun i => zeroIn h (0x100 + 64 * i + 12) 4 && zeroIn h (0x100 + 64 * i + 24) 8

/-! ### Well-formed sections (Table 17-4, R378) -/

def sectionOk (h : List Byte) (x : Section) : Bool :=
  0x1000 ≤ x.off && x.off % 64 = 0 && x.off + x.len ≤ hdr h 8 4 &&
    (if x.type = 1 then x.arg < 16 && x.len % 24 = 0 && x.len ≤ 393216
     else if x.type = 2 then x.len % 16 = 0 && x.len ≤ 2 * 2 ^ 20
     else if x.type = 3 then x.len % 16 = 0 && x.len ≤ 2 ^ 20
     else if x.type = 4 then x.arg < 16 && x.len % 32 = 0 && x.len ≤ 65536
     else if x.type = 5 || x.type = 6 then x.len % 8 = 0
     else x.type = 7 && x.len % 64 = 0 && x.dest % 64 = 0)

def meets (a n b m : Nat) : Bool := a < b + m && b < a + n && 0 < n && 0 < m

/-- The first section that overlaps an earlier one, in the image or in HBM. -/
def overlapping (l : List Section) : Option Section :=
  l.find? fun x => l.any fun y => y.idx < x.idx &&
    (meets x.off x.len y.off y.len || (x.type = 7 && y.type = 7 && meets x.dest x.len y.dest y.len))

/-- The first section that makes the image ill formed. `base`: where the image itself stands in HBM, if it does. -/
def illFormed (cap : Nat) (base : Option Nat) (h : List Byte) : Option Section :=
  let l := sections h
  match l.find? fun x => !sectionOk h x || (x.type = 7 && (cap < x.dest + x.len || match base with
      | some b => meets x.dest x.len b (hdr h 8 4)
      | none => false)) with
  | some x => some x
  | none => overlapping l

/-! ### Authentication (R379) -/

/-- The pinned key hash of NVM page 0. -/
def State.pinnedKey (s : State) : Option Nat :=
  (s.current 0).map fun p => beNat ((List.range 8).flatMap fun i => bytesOf (s.pageDw p (4 + i)) 4)

/-- The failure code of step 6, 0 for none, and whether the key was not pinned. -/
def State.authenticate (s : State) (h : List Byte) : Nat × Bool :=
  let key := slice h 0xF00 64
  let sig (_ : Unit) : Bool := ecdsaOk (beNat (slice h 0xF00 32)) (beNat (slice h 0xF20 32)) (beNat (slice h 0xF40 32))
    (beNat (slice h 0xF60 32)) (sha256 (h.take 0xF40))
  match s.pinnedKey with
  | some k => if sha256 key ≠ k then (5, false) else if sig () then (0, false) else (6, false)
  | none => if !s.boot.fromHbm then (4, false) else if sig () then (0, true) else (6, false)

/-! ### Loading (R378) -/

/-- Bytes of the image: from the flash, or from HBM. -/
def State.imageBytes (s : State) (flash : List Byte) (o n : Nat) : List Byte :=
  if s.boot.fromHbm then (List.range n).map fun i => s.hbmByte (s.fld F.CHIP_BOOT_SRCADDR_BASE * 2 ^ 20 + o + i)
  else slice flash o n

/-- Store a window's dwords in order: `f i` is the address of dword i. -/
def loadDwords (f : Nat → Nat) : Nat → List Byte → State → State
  | i, a :: b :: c :: d :: l, s => loadDwords f (i + 1) l (s.winSet (f i) (d ++ c ++ b ++ a))
  | _, _, s => s

/-- The ring descriptors of a loaded table act as writes of their dwords 3 (R219). -/
def loadRings (n : Nat) (s : State) : State := forAll (List.range n) ringDword3 s

/-- A list entry's address is one that type 5 refuses: CHIP, PWR, a TXN unit, HOST, NVM, LEDG, or a window. -/
def listBars (a : Nat) : Bool :=
  a < 0x400 || (0x2000 ≤ a && a < 0x2800) || (txnUnitAt a).isSome || (0x40000 ≤ a && a < 0x40100) ||
    (0x58000 ≤ a && a < 0x58400) || (0x64000 ≤ a && a < 0x67000) || isWindow a

/-- Apply one entry of a register list (type 5) or ledger list (type 6); none: refused. The loader waits out BUSY. -/
def loadEntry (ledger : Bool) (a v : Nat) (s : State) : Option State :=
  let mask := word (v / 2 ^ 16)
  let wt := match rowOf a with
    | some r => r.wt
    | none => 0
  if mask &&& word wt ≠ 0 || 2 ^ 24 ≤ a || a % 4 ≠ 0 then none
  else if (if ledger then !(0x64000 ≤ a && a < 0x67000) else listBars a) then none
  else if !mapped a then some (discardWrite .boot a 0xF s)
  else
    let s := match pstatOf a with
      | some p => postDeliver p s
      | none => s
    let r := applyReg .boot a mask (word v) (granuleNext s.now) s
    if r.2 then some r.1 else none

def loadEntries (ledger : Bool) : List Byte → State → State × Bool
  | a :: b :: c :: d :: e :: f :: g :: h :: l, s =>
    match loadEntry ledger (leNat [a, b, c, d]) (leNat [e, f, g, h]) s with
    | some s => loadEntries ledger l s
    | none => (s, false)
  | _, s => (s, true)

/-- Load a section of types 1 to 6; false: an entry was refused. -/
def loadSection (x : Section) (l : List Byte) (s : State) : State × Bool :=
  match x.type with
  | 1 => (loadDwords (fun i => csAddr x.arg (i / 6) + 4 * (i % 6)) 0 l s, true)
  | 2 => (loadDwords (fun i => 0xC00000 + 4 * i) 0 l s, true)
  | 3 => (loadRings (x.len / 16) (loadDwords (fun i => 0xE00000 + 4 * i) 0 l s), true)
  | 4 => (loadDwords (fun i => 0x200000 + x.arg * 0x20000 + i / 8 * 0x40 + 4 * (i % 8)) 0 l s, true)
  | 5 => loadEntries false l s
  | 6 => loadEntries true l s
  | _ => (s, true)

end Sys2Proof.Machine
end

