-- ==== Sys2Proof/Machine/Boot.lean ====
section
/-! DEFINITION. The boot sequence and its failures (17_boot_reset.md, R380 to R384). -/

namespace Sys2Proof.Machine

/-! ### Facts of the header -/

def State.bootHdr (s : State) (o n : Nat) : Nat := hdr s.boot.header o n

/-- SURVEY_WAIT in PCLK, START_DLY in PCLK (R377). -/
def State.surveyWait (s : State) : Nat := max 1 (s.bootHdr 0x48 2) * msPclk
def State.startDly (s : State) : Nat := max 100 (s.bootHdr 0x4A 2) * usPclk
def State.startMask (s : State) : Nat := s.bootHdr 0x46 2

/-- NPARTS parts read ALIGNED in ROSTER (R381). -/
def State.rosterComplete (s : State) : Bool :=
  s.bootHdr 0x44 1 ≤ ((List.range 64).filter fun p => s.bit (F.LACE_ROSTER_VALID p) && s.bit (F.LACE_ROSTER_ALIGNED p)).length

def State.bootStep (s : State) : Nat := s.fld F.CHIP_BOOT_STAT_STEP

/-! ### Failure and end (R384) -/

/-- The boot fails: its FATAL event, an internal COLD reset, the error, the wait for an image. -/
def bootFail (code sec off : Nat) (s0 : State) : State :=
  let s := coldReset (s0.reportC 0x034 2 off)
  let s := (((s.setBit F.CHIP_BOOT_STAT_FAILED true).setFld F.CHIP_BOOT_ERR_SEC sec).setFld F.CHIP_BOOT_ERR_CODE code).setBit
    F.CHIP_BOOT_STAT_WAIT_IMAGE (code ≠ 0x0B)
  let s := if s.boot.shankExit then s.setBit F.PWR_STAT_EXITING false else s
  { s with boot := { up := true, released := s.boot.released, buildDue := true } }

/-- The boot is complete: STEP reads 13, BOOT_MS the time since the release of reset. -/
def bootEnd (s : State) : State :=
  let s := (s.setFld F.CHIP_BOOT_STAT_STEP 13).setReg R.CHIP_BOOT_MS (word ((s.now - s.boot.released) / msPclk))
  { s with boot := { s.boot with running := false, shankExit := false, startAt := none } }

/-- A step begins. Step 2 raises XO_EN; at step 10 a member moves to LACE_REF if FLAGS says so, and the master's surveys
are set. -/
def enterStep (n : Nat) (s : State) : State :=
  let s := { s.setFld F.CHIP_BOOT_STAT_STEP n with boot := { s.boot with since := s.now } }
  if n = 2 then xoEnable s
  else if n = 10 then
    let s := { s with boot := { s.boot with surveys := 0, surveyNext := s.now + s.surveyWait } }
    if !s.laceMaster && (s.bootHdr 0xC 2).testBit 4 then clkSrcWrite 0xC (withField (s.reg R.CLK_SRC) 2 2 1) s else s
  else s

/-- The quarters of START_QMASK get a START. -/
def bootStart (mode : Nat) (s : State) : State :=
  forAll ((List.range 16).filter s.startMask.testBit)
    (fun q s => qStartWrite q (s.setFld (F.QSEQ_CTRL_START_MODE q) mode)) s

/-! ### Steps 1 to 4 -/

def stepClocks (s : State) : State :=
  match s.bootStep with
  | 1 => if s.srcReady 3 then enterStep 2 s else s
  | 2 => if s.srcReady 1 && s.clk.xoOn then enterStep 3 s else s
  | 3 => if s.srcReady 0 then enterStep 4 s else s
  | _ =>
    if !s.bit F.CLK_STAT_PLL_LOCK || !s.bit F.CLK_STAT_IPLL_LOCK then s
    else
      let s := setCore 2 (s.setFld F.CLK_SRC_CORE 2)
      let s := forAll (List.range 16) quarterPowered s
      enterStep (if fieldOf s.straps 6 2 = 0 then 5 else 8) s

/-! ### Steps 5 to 8 -/

/-- An uncorrectable read of the header (0xFF) or of a section that this step reads. -/
def ueFail (f : BootFacts) (ok : Section → Bool) (s : State) : Option Section :=
  if !s.boot.fromHbm then none
  else f.ue.bind fun i => (sections s.boot.header).find? fun x => x.idx = i && ok x

/-- Step 5: the header is read and checked. -/
def stepHeader (f : BootFacts) (s : State) : State :=
  let h := s.imageBytes f.flash 0 4096
  let flash := !s.boot.fromHbm
  let base := if flash then none else some (s.fld F.CHIP_BOOT_SRCADDR_BASE * 2 ^ 20)
  if !flash && f.ue.isSome then bootFail 0x0C 0 0 s
  else if flash && (h.all (· = 0) || h.all (· = 0xFF)) then (bootFail 0x01 0 0 s).setBit F.SPX0_BOOT_STAT_NO_FLASH true
  else if !headerOk h then bootFail 0x02 0 0 s
  else match illFormed s.capacity base h with
    | some x => bootFail 0x08 x.idx x.off s
    | none =>
      let l6 := (sections h).filter fun x => x.type = 6
      if l6.length ≠ 1 then
        let x := l6.getLast?
        bootFail 0x0A ((x.map (·.idx)).getD 0) ((x.map (·.off)).getD 0) s
      else
        let s := { s with boot := { s.boot with header := h } }
        let s := if flash then
            let s := s.setBit F.SPX0_BOOT_STAT_OCTAL (hdr h 0xF 1 ≤ 3 && !f.fallback)
            if f.fallback then (s.setBit F.SPX0_BOOT_STAT_FALLBACK true).reportC 0x034 0 0 else s
          else s
        enterStep 6 s

/-- Step 6: authentication; the XO override and IMGID. -/
def stepAuth (s : State) : State :=
  let h := s.boot.header
  let r := s.authenticate h
  if r.1 ≠ 0 then bootFail r.1 0 0 s
  else
    let s := s.setBit F.CHIP_BOOT_STAT_UNPINNED r.2
    let fl := hdr h 0xC 2
    let s := if fl.testBit 0 then (s.setBit F.CLK_XO_DLY_OVR_VALID true).setFld F.CLK_XO_DLY_OVR (fl / 2) else s
    enterStep 7 (forAll (List.range 8) (fun i s => s.setReg (R.CHIP_BOOT_IMGID i) (word (hdr h (0x50 + 2 * i) 2))) s)

/-- Load sections in table order until one fails. -/
def loadAll (f : BootFacts) (load : Section → List Byte → State → State × Bool) : List Section → State → State × Option (Nat × Section)
  | [], s => (s, none)
  | x :: l, s =>
    let b := s.imageBytes f.flash x.off x.len
    if sha256 b ≠ x.hash then (s, some (0x07, x))
    else
      let r := load x b s
      if r.2 then loadAll f load l r.1 else (r.1, some (0x09, x))

/-- The image's assignment of channels to sites is in force; a channel that it does not list has no site (R14). -/
def loadSites (l : List (Nat × Fin 8)) (s : State) : State :=
  forAll (List.range 1024) (fun c s =>
    let i := (l.find? fun e => e.1 = c).map (·.2.val)
    if (s.chan c).site = i then s else s.setChan c { s.chan c with site := i }) s

/-- Step 7: sections of types 1 to 6, and the site assignment. -/
def stepLoad (f : BootFacts) (s : State) : State :=
  match ueFail f (·.type ≤ 6) s with
  | some x => bootFail 0x0C x.idx x.off s
  | none =>
    let r := loadAll f loadSection ((sections s.boot.header).filter (·.type ≤ 6)) s
    match r.2 with
    | some (c, x) => bootFail c x.idx x.off r.1
    | none => enterStep 8 (loadSites f.sites r.1)

/-- Step 8: training has ended; with no image read yet the part waits for one, else CAP_REQ, type 7, head builds. -/
def stepHbm (f : BootFacts) (s : State) : State :=
  if !s.bit F.MEM_ID_TRAINED && !s.boot.fromHbm then s
  else if s.boot.header = [] then
    { s.setBit F.CHIP_BOOT_STAT_WAIT_IMAGE true with boot := { s.boot with running := false } }
  else if s.installed < s.bootHdr 0xE 1 then bootFail 0x03 0 0 s
  else match ueFail f (·.type = 7) s with
    | some x => bootFail 0x0C x.idx x.off s
    | none =>
      let r := loadAll f (fun x b s => (s.setHbm x.dest b, true)) ((sections s.boot.header).filter (·.type = 7)) s
      match r.2 with
      | some (c, x) => bootFail c x.idx x.off r.1
      | none =>
        let s := if s.boot.fromHbm then r.1 else r.1.setBit F.SPX0_BOOT_STAT_DONE true
        enterStep 9 (forAll (List.range 16) (fun q s => endBuild q f.heads (startBuild q s)) s)

/-! ### Steps 9 to 12 -/

/-- Step 9: pages 1 to 30, then the load check. -/
def stepNvm (s : State) : State :=
  let s := forAll ((List.range 30).map (· + 1)) loadPage s
  let c := loadChecks s
  if !c.2 then bootFail 0x0D 0 0 c.1
  else if c.1.bit F.LACE_CTRL_RING_EN then enterStep 10 c.1
  else if c.1.boot.shankExit then bootEnd c.1
  else enterStep 11 c.1

/-- Step 10 ends on the master when the roster is complete or the eighth survey is over, on a member when it is JOINED. -/
def stepLace (s : State) : State :=
  let ended := !s.lace.surveying && !s.lace.surveyReq
  let ok := if s.laceMaster then ended && (s.rosterComplete || 8 ≤ s.boot.surveys) else s.laceJoined
  if !ok then s
  else if s.boot.shankExit then bootEnd s
  else
    let s := if s.laceMaster then { s with boot := { s.boot with startAt := some (s.now + s.startDly) } } else s
    enterStep 11 s

/-- Step 11: the pads are released once the chip's fault state is closed. -/
def stepPads (s : State) : State :=
  if s.chipFault then s
  else
    let s := padRelease s
    if s.bit F.PWR_PAD_HOLD_HOLD then s
    else if s.bit F.LACE_CTRL_RING_EN then bootStart 1 (enterStep 12 s)
    else bootEnd (bootStart 0 s)

/-- Step 12 ends once START has been sent and the start mark has taken effect. -/
def stepStart (s : State) : State :=
  if s.boot.startAt.isSome || (List.range 16).any fun q =>
      s.startMask.testBit q && s.qstate q = 10 && (s.q q).startDue.isNone then s
  else bootEnd s

/-- The step in progress has finished. -/
def bootStepDone (f : BootFacts) (s : State) : State :=
  if !s.boot.running || s.bit F.CLK_STAT_HOLD then s
  else match s.bootStep with
    | 1 | 2 | 3 | 4 => stepClocks s
    | 5 => stepHeader f s
    | 6 => stepAuth s
    | 7 => stepLoad f s
    | 8 => stepHbm f s
    | 9 => stepNvm s
    | 10 => stepLace s
    | 11 => stepPads s
    | 12 => stepStart s
    | _ => s

/-! ### Other events of the boot -/

/-- HBM training ends (R83); a failure is the boot's. -/
def hbmTrained (ok : Bool) (s : State) : State :=
  if s.bit F.MEM_ID_TRAINED || !((s.boot.running && s.bootStep = 8) || s.bit F.CHIP_BOOT_STAT_WAIT_IMAGE) then s
  else if ok then
    let s := (s.setBit F.MEM_ID_TRAINED true).setFld F.MEM_ID_CAP s.installed
    -- a COLD reset starts the head builds once HBM is trained (R98)
    if s.boot.buildDue then
      forAll (List.range 16) startBuild { s with boot := { s.boot with buildDue := false } }
    else s
  else (bootFail 0x0B 0 0 s).raise F.MEM_FAULT_TRAIN_FAIL

/-- Bytes of the sections that a step loads. -/
def State.loadLen (s : State) (p : Section → Bool) : Nat :=
  ((sections s.boot.header).filter p).foldl (fun n x => n + x.len) 0

/-- The budget of the step in progress (Table 17-5), in PCLK; none where no budget counts. The flash is read at 400 MB/s,
HBM at 20 GB/s. -/
def State.budget (s : State) : Option Nat :=
  let rate (n : Nat) : Nat := if s.boot.fromHbm then n * 4 / 125 else n * 8 / 5
  match s.bootStep with
  | 1 => some msPclk
  | 2 => some (100 * usPclk)
  | 3 => some (xoDelayMs s.xoDelay * msPclk + 10 * usPclk)
  | 4 => some (200 * usPclk)
  | 5 => some (if s.boot.fromHbm then rate 4096 else 2 * msPclk)
  | 6 => some (5 * msPclk)
  | 7 => some (rate (s.loadLen (·.type ≤ 6)) + msPclk)
  | 8 => some (50 * msPclk + s.loadLen (·.type = 7) * 8 / 5 + 1600 * usPclk)
  | 9 => some (2 * msPclk)
  | 10 => if s.laceMaster then some (8 * (s.surveyWait + 400 * usPclk)) else none
  | 11 => if s.chipFault then none else some (10 * usPclk)
  | 12 => if s.laceMaster then some (s.startDly + 4 * usPclk) else none
  | _ => none

def overBudget (s : State) : State :=
  if !s.boot.running || s.bit F.CLK_STAT_HOLD then s
  else match s.budget with
    | some b => if s.now ≤ s.boot.since + b then s else bootFail 0x0E 0 0 s
    | none => s

/-- The master's next boot survey. -/
def surveyRetry (s : State) : State :=
  if !s.boot.running || s.bootStep ≠ 10 || !s.laceMaster || s.now < s.boot.surveyNext || 8 ≤ s.boot.surveys ||
      (0 < s.boot.surveys && s.rosterComplete) || s.lace.surveying || s.lace.surveyReq then s
  else
    laceSurvey { s with boot := { s.boot with surveys := s.boot.surveys + 1, surveyNext := s.boot.surveyNext + s.surveyWait } }

/-- The master sends START; with an incomplete roster it sets START_PARTIAL. -/
def bootSend (s : State) : State :=
  match s.boot.startAt with
  | some t =>
    if !s.boot.running || s.bootStep ≠ 12 || s.now < t then s
    else
      let s := laceMasterSend 3 { s with boot := { s.boot with startAt := none } }
      if s.rosterComplete then s else s.raise F.CHIP_BOOT_STAT_START_PARTIAL
  | none => s

/-- A member that is not JOINED in time ends its boot with pads held. -/
def noRing (s : State) : State :=
  if !s.boot.running || s.bootStep ≠ 10 || s.laceMaster || s.laceJoined ||
      s.now < s.boot.since + 9 * s.surveyWait + 4 * msPclk then s
  else bootEnd ((s.raise F.CHIP_BOOT_STAT_NO_RING).reportC 0x034 0 0)

end Sys2Proof.Machine
end

