-- ==== Sys2Proof/Machine/MemCmds.lean ====
section
/-! DEFINITION. Commands and events of the pattern memory (04_pattern_memory.md, R83 to R105). -/

namespace Sys2Proof.Machine

/-- R86, R94: a fetch unit arrives in staging. -/
def execHbmReadComplete (q : Fin 16) (ecc : Fin 3) (s : State) : Answer :=
  .next (unitArrives q.val ecc.val s)

/-- R98: HEAD_BUILD. -/
def execHeadBuild (m : Master) (q : Fin 16) (s : State) : Answer :=
  .next (busReg m (R.MEM_QCMD q.val) 1 1 s)

/-- R98: the head build ends. -/
def execHeadBuildComplete (b : Fin 16 × List (Nat × Fin 3)) (s : State) : Answer :=
  .next (endBuild b.1.val b.2 s)

/-- R105: a write to an RDY register. -/
def execMemRdyWrite (m : Master) (k : Fin 2048) (mask data : Word) (s : State) : Answer :=
  .next (busReg m (R.MEM_RDY k.val) mask data s)

/-- R103: a write to a refill-window register. -/
def execWinWrite (m : Master) (n : Fin 16) (size : Bool) (mask data : Word) (s : State) : Answer :=
  .next (busReg m (if size then R.MEM_WIN_SIZE n.val else R.MEM_WIN_BASE n.val) mask data s)

/-- R85: the scrub of a stack. -/
def execHbmScrub (stackB : Bool) (ecc : Fin 3) (s : State) : Answer :=
  .next (scrubStack stackB ecc.val s)

/-- R83: HBM training ends. -/
def execHbmTrainingComplete (ok : Bool) (s : State) : Answer :=
  .next (hbmTrained ok s)

end Sys2Proof.Machine
end

