-- ==== Sys2Proof/Machine/PinCmds.lean ====
section
/-! DEFINITION. Commands and events of the pin channels (06_pin_channel.md; R126). -/

namespace Sys2Proof.Machine

/-- R126: a write to FTW_H. -/
def execFtwHWrite (m : Master) (c : Fin 1024) (mask data : Word) (s : State) : Answer :=
  .next (busReg m (R.QTS_FTW_H (c.val / 64) (c.val % 64)) mask data s)

/-- R136, R140: a DCLK edge on a channel. -/
def execDclkEdge (c : Fin 1024) (node : List Int) (amps : Int) (clamp : Bool) (within : Nat) (s : State) : Answer :=
  .next (dclkEdge c.val node amps clamp within s)

/-- R145: the over-voltage detector trips. -/
def execOvdTrip (c : Fin 1024) (high : Bool) (s : State) : Answer :=
  .next (ovdEvent c.val high s)

/-- R146: a disconnect ends. -/
def execDiscEnd (c : Fin 1024) (s : State) : Answer :=
  .next (discEnd c.val s)

/-- R146: RECONNECT takes effect. -/
def execProtReconnect (c : Fin 1024) (s : State) : Answer :=
  .next (postedEffect (R.CH_PROT c.val) 0x10 0x10 s)

/-- R139: a stage change ends. -/
def execStageChangeComplete (c : Fin 1024) (s : State) : Answer :=
  .next (stageDone c.val s)

/-- R147: a write of DRV_CTRL takes effect. -/
def execDrvCtrlWrite (c : Fin 1024) (mask data : Word) (s : State) : Answer :=
  .next (postedEffect (R.CH_DRV_CTRL c.val) mask data s)

/-- R149: a push takes effect. -/
def execLqPush (c : Fin 1024) (code : Word) (s : State) : Answer :=
  .next (postedEffect (R.CH_LQ_PUSH c.val) 0xFFFF code s)

/-- R149: LQ_CLR takes effect. -/
def execLqClr (c : Fin 1024) (s : State) : Answer :=
  .next (postedEffect (R.CH_LQ_CFG c.val) 0x10 0x10 s)

/-- R150: a sample of the level queue. -/
def execLqSample (c : Fin 1024) (s : State) : Answer :=
  .next (lqEdge c.val s)

end Sys2Proof.Machine
end

