-- ==== Sys2Proof/Machine/Spx.lean ====
section
/-! DEFINITION. The maintenance port SPX1 (12_serial_ports.md, R279 to R283, R269). -/

namespace Sys2Proof.Machine

/-- An SPX1 error flag, a CORRECTED source at `a` (R287). -/
def spxError (f : Fld) (a : Nat) (s : State) : State := (s.raise f).report 0x066 a

/-- A command byte that ends the frame: reserved OP, bits [1:0] not 0, or lane code 3 (R279). STATUS has no address
phase. -/
def spxBad (cmd : Byte) : Bool :=
  let c := cmd.toNat
  c / 64 = 3 || c % 4 ≠ 0 || c / 4 % 4 = 3 || (c / 64 ≠ 2 && c / 16 % 4 = 3)

/-- The select asserts and a command byte arrives: the wake event of SHANK, then the frame `kind`, or one that is
ignored to the release of the select. -/
def spxOpen (cmd : Byte) (kind : Nat) (s : State) : State :=
  let s := wakeEvent 5 s
  if spxBad cmd then
    spxError F.SPX1_STAT_FRAME_ERR 0 { s with spx1 := { s.spx1 with frame := 4 } }
  else { s with spx1 := { s.spx1 with frame := kind } }

/-- A BUSY_PAT of 0xA5 acts as 0xFF and is an error of a frame with tokens (R279). -/
def spxToken (s : State) : State := if s.fld F.SPX1_CFG_BUSY_PAT = 0xA5 then spxError F.SPX1_STAT_FRAME_ERR 0 s else s

/-- The frame's address: bits [1:0] ignored with ALIGN; the burst's block is that of its first address. -/
def spxAddr (a : Nat) (s : State) : State :=
  let s := if a % 4 = 0 then s else s.raise F.SPX1_STAT_ALIGN
  let a := a % 2 ^ 24 / 4 * 4
  { s with spx1 := { s.spx1 with first := a, addr := a } }

/-- The next address lies past the end of the burst's block (R282). -/
def State.spxPast (s : State) : Bool := s.spx1.addr / 0x10000 ≠ s.spx1.first / 0x10000

def spxNext (s : State) : State := { s with spx1 := { s.spx1 with addr := s.spx1.addr + 4 } }

def showWq (s : State) : State := s.setFld F.SPX1_WQ_FILL s.spx1.queue.length

/-- Apply the oldest queued dword as one fabric access; it waits while an access of SPX1 stalls. -/
def spxApply (s : State) : State :=
  match s.spx1.queue with
  | [] => s
  | (a, v) :: l =>
    if s.pwr.stalled.any (fun y => y.master = .spx1) then s
    else busWrite .spx1 a 0xF v (showWq { s with spx1 := { s.spx1 with queue := l } })

/-- The queue ahead of a read goes to the fabric in order (R35). -/
def spxDrain (s : State) : State :=
  let l := s.spx1.queue
  l.foldl (fun s e => busWrite .spx1 e.1 0xF e.2 s) (showWq { s with spx1 := { s.spx1 with queue := [] } })

/-- One dword of a READ frame. -/
def spxReadOne (s : State) : State :=
  if s.spxPast then spxNext (spxError F.SPX1_STAT_PAST_END s.spx1.addr { s with reads := 0 :: s.reads })
  else spxNext (busRead .spx1 s.spx1.addr s)

/-- A READ frame in which `n` dwords begin. -/
def spxRead (cmd : Byte) (a n : Nat) (s : State) : State :=
  if s.spx1.frame ≠ 0 || (cmd.toNat / 64 ≠ 0 && cmd.toNat / 64 ≠ 3) then s
  else
    let s := spxOpen cmd 1 s
    if s.spx1.frame ≠ 1 then s else Nat.repeat spxReadOne n (spxDrain (spxAddr a (spxToken s)))

/-- One complete dword of a WRITE frame. -/
def spxQueue (v : Dword) (s : State) : State :=
  if s.spxPast then spxNext (spxError F.SPX1_STAT_PAST_END s.spx1.addr s)
  else if 64 ≤ s.spx1.queue.length then spxNext (spxError F.SPX1_STAT_WR_DROP s.spx1.addr s)
  else spxNext (showWq { s with spx1 := { s.spx1 with queue := s.spx1.queue ++ [(s.spx1.addr, v)] } })

/-- A WRITE frame with these complete dwords. -/
def spxWrite (cmd : Byte) (a : Nat) (vs : List Dword) (s : State) : State :=
  if s.spx1.frame ≠ 0 || (cmd.toNat / 64 ≠ 1 && cmd.toNat / 64 ≠ 3) then s
  else
    let s := spxOpen cmd 2 s
    if s.spx1.frame ≠ 2 then s else vs.foldl (fun s v => spxQueue v s) (spxAddr a s)

/-- The attention summary (R283). -/
def State.attention (s : State) : Nat :=
  (List.range 16).foldl (fun n v => n + if vecActive s.rcSpx1 s v then 2 ^ v else 0) 0

/-- The ball SPX1_ATTN_N is low. -/
def State.attnLow (s : State) : Bool := s.attention &&& s.fld F.SPX1_ATTN_MASK_MASK ≠ 0

/-- A STATUS frame; `extra`: SCK went on past its one dword. -/
def spxStatus (cmd : Byte) (extra : Bool) (s : State) : State :=
  if s.spx1.frame ≠ 0 || cmd.toNat / 64 < 2 then s
  else
    let s := spxOpen cmd 3 s
    if s.spx1.frame ≠ 3 then s
    else
      let s := spxToken s
      let v := s.readValue .spx1 R.SPX1_STAT 0xFE ++ word s.attention
      let s := { s with reads := v :: s.reads }.clrRcSpx1 R.SPX1_STAT
      if extra then s.raise F.SPX1_STAT_OVERCLOCK else s

/-- A read was cut after its access was issued (R280). Of the stalled accesses of the frame only the first had been
issued. -/
def spxCut (s : State) : State :=
  let st := s.pwr.stalled.filter fun y => y.master = .spx1
  let s := spxError F.SPX1_STAT_RD_CUT (s.spx1.addr - 4) s
  if st = [] then keepCut s
  else
    { s with pwr := { s.pwr with stalled := s.pwr.stalled.filter (fun y => y.master ≠ .spx1) ++
                                   st.filter (·.write) ++ (st.filter (fun y => !y.write)).take 1 },
             spx1 := { s.spx1 with cut := true } }

/-- The frame has issued an access whose dword is going out, of which `bits` bits have gone. -/
def State.spxOut (s : State) (bits : Nat) : Bool :=
  s.spx1.frame = 1 && s.spx1.first < s.spx1.addr && bits < 32 && (s.spx1.addr - 4) / 0x10000 = s.spx1.first / 0x10000

/-- The select is released, `bits` bits into a dword: of a READ, out of the part; of a WRITE, into it; of a STATUS, out. -/
def spxRelease (bits : Nat) (s : State) : State :=
  let k := s.spx1.frame
  let s := if s.spxOut bits || s.spx1.late then spxCut s
    else if (k = 2 && bits % 32 ≠ 0) || (k = 3 && bits < 32) then spxError F.SPX1_STAT_FRAME_ERR s.spx1.addr s
    else s
  { s with spx1 := { s.spx1 with frame := 0, late := false } }

/-- No SCK edge for IDLE_TMO with the select held: the dword is closed after `bits` bits and SCK is ignored to the
release (R269). -/
def spxIdle (bits : Nat) (s : State) : State :=
  if s.spx1.frame = 0 || s.spx1.frame = 4 then s
  else
    let late := s.spxOut bits
    let s := (s.raise F.SPX1_STAT_INCOMPLETE).setFld F.SPX1_STAT_INC_BITS bits
    { s with spx1 := { s.spx1 with frame := 4, late := late } }

end Sys2Proof.Machine
end

