-- ==== Sys2Proof/Machine/PortCmds.lean ====
section
/-! DEFINITION. Commands and events of the clocked serial ports (12_serial_ports.md). -/

namespace Sys2Proof.Machine

/-- R272: START, with the SSEL of the same write. -/
def execPeStart (m : Master) (n : Fin 16) (ssel : Option (Fin 16)) (s : State) : Answer :=
  .next (busReg m (R.PE_CTRL n.val) (if ssel.isSome then 0xF4 else 4) (word (16 * (ssel.getD 0).val + 4)) s)

/-- R272: a select is asserted, SCK at the level `x.2` (R268). -/
def execPeSelectAssert (x : Fin 16 × Bool) (s : State) : Answer :=
  .next (portSelect x.1.val x.2 s)

/-- R269: a select is released. -/
def execPeSelectRelease (n : Fin 16) (bits : List Bool) (cycles : Nat) (s : State) : Answer :=
  .next (portRelease n.val bits cycles s)

/-- R269: a slave saw no SCK edge for IDLE_TMO. -/
def execPeIdleTimeout (n : Fin 16) (bits : List Bool) (cycles : Nat) (s : State) : Answer :=
  .next (portIdle n.val bits cycles s)

/-- R274: a master unit ends. -/
def execPeUnitEnd (n : Fin 17) (bits : List Bool) (busy : Nat) (s : State) : Answer :=
  .next (portMasterEnd n.val bits busy s)

/-- R274, R275: DONE. -/
def execPeDone (n : Fin 17) (s : State) : Answer :=
  .next (portDone n.val s)

/-- R269: a write of TX_ADD. -/
def execPeTxAdd (m : Master) (n : Fin 17) (k : Fin 1024) (s : State) : Answer :=
  .next (busReg m (portBase n.val + 0x14) 0x3FF (word k.val) s)

/-- R280: a READ frame. -/
def execSpx1Read (cmd : Byte) (addr n : Nat) (s : State) : Answer :=
  .next (spxRead cmd addr n s)

/-- R281: a WRITE frame. -/
def execSpx1Write (cmd : Byte) (addr : Nat) (vs : List Dword) (s : State) : Answer :=
  .next (spxWrite cmd addr vs s)

/-- R283: a STATUS frame. -/
def execSpx1Status (cmd : Byte) (extra : Bool) (s : State) : Answer :=
  .next (spxStatus cmd extra s)

/-- R281: a queued dword is applied. -/
def execSpx1WriteApply (s : State) : Answer :=
  .next (spxApply s)

/-- R280: the select is released. -/
def execSpx1SelectRelease (bits : Fin 33) (s : State) : Answer :=
  .next (spxRelease bits.val s)

/-- R269: a held select with no SCK edge for IDLE_TMO. -/
def execSpx1IdleTimeout (bits : Fin 32) (s : State) : Answer :=
  .next (spxIdle bits.val s)

end Sys2Proof.Machine
end

