-- ==== Sys2Proof/Machine/PowerCmds.lean ====
section
/-! DEFINITION. Commands and events of power states, domains and temperature (15_power_thermal.md). -/

namespace Sys2Proof.Machine

/-- R329: GO with TARGET RUN. -/
def execPowerReqRun (s : State) : Answer :=
  .next (postedEffect (R.PWR_REQ) 0x1F 0x10 s)

/-- R329: GO with TARGET HOLD. -/
def execPowerReqHold (s : State) : Answer :=
  .next (postedEffect (R.PWR_REQ) 0x1F 0x11 s)

/-- R329: GO with TARGET NAP. -/
def execPowerReqNap (s : State) : Answer :=
  .next (postedEffect (R.PWR_REQ) 0x1F 0x12 s)

/-- R329: GO with TARGET PATROL. -/
def execPowerReqPatrol (s : State) : Answer :=
  .next (postedEffect (R.PWR_REQ) 0x1F 0x13 s)

/-- R329: GO with TARGET SHANK. -/
def execPowerReqShank (s : State) : Answer :=
  .next (postedEffect (R.PWR_REQ) 0x1F 0x14 s)

/-- R330, R334: an entry is complete. -/
def execPowerEntryComplete (s : State) : Answer :=
  .next (entryComplete s)

/-- R330, R346: an exit is complete. -/
def execPowerExitComplete (s : State) : Answer :=
  .next (exitComplete s)

/-- R333: a wake event. -/
def execWakeEvent (bit : Fin 7) (s : State) : Answer :=
  .next (wakeEvent bit.val s)

/-- R333: the Shank timer has run out. -/
def execShankTimerExpiry (s : State) : Answer :=
  .next (shankTimer s)

/-- R326: QOFF takes effect. -/
def execQoff (mask data : Word) (s : State) : Answer :=
  .next (postedEffect (R.PWR_QOFF) mask data s)

/-- R335: QON takes effect. -/
def execQon (mask data : Word) (s : State) : Answer :=
  .next (postedEffect (R.PWR_QON) mask data s)

/-- R335: the bias of a woken quarter has settled; its stalled accesses are served. -/
def execBiasSettled (q : Fin 16) (s : State) : Answer :=
  .next (serveStalled (biasSettled q.val s))

/-- R335: the levels of a woken quarter have settled. -/
def execQuarterSettleEnd (q : Fin 16) (s : State) : Answer :=
  .next (quarterSettleEnd q.val s)

/-- R341: a patrol cycle. -/
def execPatrolCycle (ts : List Int) (ps : List PatrolPpmu) (dur : Nat) (s : State) : Answer :=
  .next (patrolCycle ts ps dur s)

/-- R337: PGOOD is lost. -/
def execPgoodLost (s : State) : Answer :=
  .next (pgoodLost s)

/-- R337: PGOOD does not come back after a VID change. -/
def execVidTimeout (s : State) : Answer :=
  .next (vidTimeout s)

/-- R339: a write of HOLD = 0 takes effect. -/
def execPadHoldRelease (s : State) : Answer :=
  .next (postedEffect (R.PWR_PAD_HOLD) 1 0 s)

/-- R342 to R346: the sensors are read. -/
def execThmReading (rs : List (Option Int)) (s : State) : Answer :=
  .next (thmReading rs s)

/-- R343: a write of BROKEN_CLR. -/
def execBrokenClr (m : Master) (high : Bool) (mask data : Word) (s : State) : Answer :=
  .next (busReg m (if high then R.THM_BROKEN_CLR_H else R.THM_BROKEN_CLR_L) mask data s)

/-- R347: the backstop trips. -/
def execBackstopTrip (s : State) : Answer :=
  .next (backstopTrip s)

/-- R398: VSG is lost. -/
def execVsgLost (s : State) : Answer :=
  .next (vsgLost s)

end Sys2Proof.Machine
end

