-- ==== Sys2Proof/Machine/Program.lean ====
section
/-! DEFINITION. The executing program of a quarter: granules, start-of-body actions, decision points, welts, stalls and
their exits, REFILL_HOLD, the control-store scrub (03_sequencer.md; R99, R106, R107). -/

namespace Sys2Proof.Machine

/-! ### The executing word -/

/-- The body that quarter q executes with opcode `op`, its timeline running. -/
def State.executing (s : State) (q op : Nat) : Option Body :=
  match (s.q q).body with
  | some b => if s.qstate q = 1 && mwOp b.word = op && !s.heldAt q s.now && (s.q q).parkDue.isNone then some b else none
  | none => none

/-- The word's action at its body start (R61), once. -/
def startAction (q : Nat) (b : Body) (s : State) : State :=
  if b.acted || s.now < b.start then s
  else
    let s := s.setQ q { s.q q with body := some { b with acted := true } }
    let cnt := mwCnt b.word
    match mwOp b.word with
    | 0x0B => commitWord q b.start s
    | 0x0C => peStart q (cnt % 16) b.start s
    | 0x0D => forAll ((List.range 4).filter cnt.testBit) (fun k s => tdcArm (4 * q + k) (b.start + 48) s) s
    | 0x0E => calSlotStart q (cnt % 64) b.start s
    | _ => s

/-- The decision point of the executing body has come and is not done. -/
def State.decides (s : State) (b : Body) : Bool := !b.decided && b.decision ≤ s.now

/-- The decision of a word that is neither elastic nor HALT. -/
def decideWord (q op : Nat) (s : State) : State :=
  match s.executing q op with
  | some b => if s.decides b then decideBody q b s else s
  | none => s

/-- A word with an action at its body start: the action, then its decision. -/
def actWord (q op : Nat) (s : State) : State :=
  let s := match s.executing q op with
    | some b => startAction q b s
    | none => s
  decideWord q op s

/-- An elastic word that does not stall selects at its own decision point; one that will stall selects nothing
(R408). -/
def decideElastic (q : Nat) (b : Body) (welt : Bool) (s : State) : State :=
  if welt then
    let r := elasticSelect q b.word b.addr false false b.cands s
    putSucc q (r.1, some (r.2.getD { addr := 0, word := 0, park := true }))
  else s.setQ q { s.q q with body := some { b with decided := true } }

/-- WAITTRG: a latch set at the decision point is consumed, and there is no stall (R71). -/
def decideWaittrg (q : Nat) (s : State) : State :=
  match s.executing q 0x08 with
  | some b =>
    if !s.decides b then s
    else
      let hit := s.latchedBefore q (mwTrg b.word) b.decision
      decideElastic q b hit (if hit then writeLatch q (mwTrg b.word) false s else s)
  | none => s

/-- WAITMARK: a mark known to take effect at the welt makes no stall (R72). -/
def decideWaitmark (q : Nat) (s : State) : State :=
  match s.executing q 0x09 with
  | some b =>
    if !s.decides b then s
    else decideElastic q b (s.markAfter q (mwCnt b.word % 2 ^ 16) b.welt = some b.welt) s
  | none => s

/-- SYNC sends its mark at the decision point, or runs without a ring (R72). -/
def decideSync (q : Nat) (s : State) : State :=
  match s.executing q 0x0A with
  | some b =>
    if !s.decides b then s
    else
      let s := decideElastic q b false s
      if s.laceJoined then laceRequest (1 + q) 2 (mwCnt b.word % 2 ^ 16) 0 b.decision s
      else s.raise (F.QSEQ_STAT_SYNC_LOCAL q)
  | none => s

def decideHold (q : Nat) (s : State) : State :=
  match s.executing q 0x0F with
  | some b => if s.decides b then decideElastic q b false s else s
  | none => s

def decideHaltWord (q : Nat) (s : State) : State :=
  match s.executing q 0x10 with
  | some b => if s.decides b then decideHalt q b s else s
  | none => s

/-! ### Granule boundaries -/

/-- What comes first at a boundary: a parking or a hold that is due. -/
def boundaryFirst (q : Nat) (s : State) : State := holdMoment q (parkMoment q s)

/-- The quarter waits at boundary `t` for an event of its own: a start moment or a stall's exit. -/
def State.awaits (s : State) (q t : Nat) : Bool :=
  let x := s.q q
  let past (o : Option Nat) : Bool := match o with
    | some e => e ≤ t
    | none => false
  x.laceHeld.isNone && (past x.startDue || past (x.stall.bind (·.leave)))

/-- The next granule boundary of quarter q: the next granule of its body, or a boundary outside a body. -/
def granuleBoundary (q : Nat) (samples : List (Nat × List Obs)) (s : State) : State :=
  let s := boundaryFirst q s
  if !s.patternClock || !s.quarterOn q then s
  else match (if s.qstate q = 1 then (s.q q).body else none) with
  | some b =>
    let gt := b.start + 8 * b.played
    if b.len ≤ b.played || s.now < gt || s.heldAt q gt then s
    else
      let s := startAction q b s
      match (s.q q).body with
      | none => s
      | some b =>
        let s := portSettle q gt s
        let s := if mwOp b.word = 0x0E then calSlotGranule q b.played s else s
        playGranule q b samples s
  | none =>
    let t := granuleOf s.now
    if t ≤ (s.q q).lastBoundary || s.awaits q t then s else idleBoundary q t s

/-! ### The welt (R59, R61, R107) -/

/-- State code of an elastic word's stall. -/
def stallState (op : Nat) : Nat := if op = 0x08 then 2 else if op = 0x09 then 3 else if op = 0x0A then 4 else 5

/-- The stall that an elastic word enters at the welt, with its exit where that is already known. -/
def State.stallOf (s : State) (q : Nat) (b : Body) : Stall :=
  let w := b.welt
  let x : Stall := { addr := b.addr, word := b.word, welt := w, cands := b.cands, clocks := clockPins b }
  match mwOp b.word with
  | 0x0A => { x with exit := some (b.decision + 2560) }
  | 0x09 => match s.markAfter q (mwCnt b.word % 2 ^ 16) w with
    | some e => if x.before e then { x with exit := some e } else x
    | none => x
  | _ => if s.latched q (mwTrg b.word) then { x with exit := some (w + 32), byLatch := true } else x

/-- A refill segment is consumed: its ready bit clears, LAST_RID shows it (R107). -/
def consumeRid (q : Nat) (b : Body) (s : State) : State :=
  if mwSeg b.word = nullSeg || sdResident b.desc then s
  else
    let r := sdRid b.desc
    (clearRid r (s.setFld (F.MEM_LAST_RID_RID q) r)).raise (F.MEM_LAST_RID_VALID q)

/-- The end of the body. -/
def welt (q : Nat) (s : State) : State :=
  let s := boundaryFirst q s
  match (s.q q).body with
  | none => s
  | some b =>
    let w := b.welt
    if s.qstate q ≠ 1 || b.played < b.len || s.now < w || !b.decided || s.heldAt q w then s
    else
      let s := s.setQ q { s.q q with prev := some (b.start, w, s.ssn q) }
      let s := consumeRid q b (calRelease q s)
      -- a decode error past the end of a cut body parks the quarter at its welt (R94)
      if b.len < b.segLen && s.tailError q b w then dataFault q b .err s
      else
        let s := endFetch q b (summaries q b (b.len - 1) w false (pushWaiting q s))
        let op := mwOp b.word
        if op = 0x10 then haltQuarter q w .halt (b.len - 1) false s
        else if (s.q q).stopReq then haltQuarter q w .stop (b.len - 1) false s
        else if b.succ.isNone && [0x08, 0x09, 0x0A, 0x0F].contains op then
          enterStall q (stallState op) (s.stallOf q b) s
        else
          enterSucc q w (b.len - 1) b.succ (clockPins b) (mwSmask b.word) s

/-! ### Stalls (R70 to R73, R408) -/

/-- The stall of quarter q in one of the states 2 to 5. -/
def State.stalling (s : State) (q : Nat) : Option Stall :=
  if 2 ≤ s.qstate q && s.qstate q ≤ 5 && !s.heldAt q s.now then (s.q q).stall else none

/-- Four granules before the exit the elastic word selects. -/
def exitDecision (q : Nat) (s : State) : State :=
  match s.stalling q with
  | none => s
  | some x =>
    match x.leave with
    | none => s
    | some e =>
      if x.decided || s.now + 32 < e then s
      else
        let r := elasticSelect q x.word x.addr true x.timeout x.cands s
        let s := dropUnchosen q r.2 r.1
        s.setQ q { s.q q with stall := some { x with decided := true, succ := r.2 } }

/-- The wait has run out with no event in the timeout's MCLK cycle either (R71): the stall ends 4 granules later toward TGT. -/
def waitTimeout (q : Nat) (s : State) : State :=
  match s.stalling q with
  | none => s
  | some x =>
    match x.expiry with
    | none => s
    | some e =>
      if x.exit.isSome || s.now / 2 ≤ e / 2 then s
      else
        (s.setQ q { s.q q with stall := some { x with exit := some (e + 32), timeout := true } }).raise
          (F.QSEQ_STAT_WAIT_TIMEOUT q)


/-- The exit boundary: the latch is consumed, the successor starts. -/
def stallExit (q : Nat) (s : State) : State :=
  match s.stalling q with
  | none => s
  | some x =>
    match x.leave with
    | none => s
    | some e =>
      if s.now < e || !x.decided then s
      else
        let s := if x.byLatch then writeLatch q (mwTrg x.word) false s else s
        let s := ledgerRest q e (shiftJobs q (e - x.welt) 0 s)
        let s := s.setQ q { s.q q with marks := (s.q q).marks.filter fun m => e ≤ m.2 }
        enterSucc q e (s.lastGoff q) x.succ x.clocks (mwSmask x.word) s

/-! ### REFILL_HOLD (R106) -/

/-- The held word's job is issued at the first boundary at or after the welt with its ready bit set; the matching Lace
release is sent. -/
def refillIssue (q : Nat) (s : State) : State :=
  match (if s.qstate q = 6 then (s.q q).stall else none) with
  | none => s
  | some x =>
    match x.succ with
    | none => s
    | some u =>
      if x.jobAt.isSome || s.now % 8 ≠ 0 || s.now < x.welt || !s.ridReady (sdRid u.desc) then s
      else
        let n := (members (s.maskGroup q (sdGrp u.desc))).length
        let s := addJob q { gen := (s.q q).bodyNo + 1, addr := u.addr, seg := mwSeg u.word, desc := u.desc, point := s.now,
                            next := 0, total := bodyVolume u.desc n (bodyLen u.word u.desc) } s
        let send := s.bit (F.QSEQ_CFG_REFILL_LACE_HOLD q) && s.laceJoined
        let s := s.setQ q { s.q q with stall := some { x with
          jobAt := some s.now, release := if send then some (s.now + 2560) else none } }
        if send then laceRequest (1 + q) 5 0 q s.now s else s

/-- The held body starts 64 granules after its job, or at the release's effect if that is later. -/
def refillExit (q : Nat) (s : State) : State :=
  match (if s.qstate q = 6 && !s.heldAt q s.now then (s.q q).stall else none) with
  | none => s
  | some x =>
    match x.jobAt, x.succ with
    | some j, some u =>
      let e := max (max (j + 512) (x.release.getD 0)) x.floor
      if s.now < e then s
      else startBody q e u (ledgerRest q e (shiftJobs q (e - x.welt) ((s.q q).bodyNo + 1) s))
    | _, _ => s

/-! ### The control-store scrub (R56) -/

/-- One word of the scrub, at most one in 64 MCLK. -/
def storeScrub (q : Nat) (s : State) : State :=
  let x := s.q q
  if !s.bit (F.QSEQ_CFG_SCRUB_EN q) || !s.quarterOn q || s.now < x.scrubNext then s
  else
    let a := x.scrubPos
    let s := s.setQ q { x with scrubPos := (a + 1) % 16384, scrubNext := s.now + 128 }
    match checkMicro (s.csWord q a) with
    | some (_, false) => s
    | some (w, true) => ((s.setCsWord q a w).raise (F.QSEQ_FAULT_CHK_CORR q)).report (0x101 + 16 * q) a
    | none => (s.setFld (F.QSEQ_FAULT_PC_FAULT_PC q) a).report (0x101 + 16 * q) a

end Sys2Proof.Machine
end

