-- ==== Sys2Proof/Machine/Trigger.lean ====
section
/-! DEFINITION. Edges of the TRIG_IN and GATE balls: latches, forwarding on the Lace, the wake of TRIG_IN[7] (R64,
R252, R333). -/

namespace Sys2Proof.Machine

/-- TFWDn sends the edge `trg` of TRIG_IN[n] as a Lace trigger, at the first granule boundary after it (R252). -/
def forwardEdge (n trg : Nat) (s : State) : State :=
  if s.bit (F.LACE_TFWD_EN n) && trg = (if s.bit (F.LACE_TFWD_EDGE n) then 9 else 1) + n then
    laceRequest (17 + n) 1 (s.fld (F.LACE_TFWD_NUM n)) 0 (granuleNext s.now) s
  else s

/-- An edge, by the TRG code of its latch: 0x01 to 0x08 TRIG_IN rising, to 0x10 falling, 0x11 to 0x18 GATE. -/
def triggerEdge (trg : Nat) (s : State) : State :=
  if trg = 0 || 0x18 < trg then s
  else
    let s := setLatchAll trg s
    let s := forAll (List.range 8) (fun n s => forwardEdge n trg s) s
    if trg = 8 then wakeEvent 3 s else s

end Sys2Proof.Machine
end

