-- ==== Sys2Proof/Machine/QseqCmds.lean ====
section
/-! DEFINITION. Commands and events of the quarter sequencers (03_sequencer.md, R64, R79 to R82; R102). -/

namespace Sys2Proof.Machine

/-- R79: START, with the START_MODE of the same write. -/
def execQseqStart (m : Master) (q : Fin 16) (mode : Option (Fin 4)) (s : State) : Answer :=
  .next (busReg m (R.QSEQ_CTRL q.val) (if mode.isSome then 0xC1 else 1) (word (64 * (mode.getD 0).val + 1)) s)

/-- R79: STOP. -/
def execQseqStop (m : Master) (q : Fin 16) (s : State) : Answer :=
  .next (busReg m (R.QSEQ_CTRL q.val) 2 2 s)

/-- R80: DISABLE. -/
def execQseqDisable (m : Master) (q : Fin 16) (s : State) : Answer :=
  .next (busReg m (R.QSEQ_CTRL q.val) 4 4 s)

/-- R73: RELEASE. -/
def execQseqRelease (m : Master) (q : Fin 16) (s : State) : Answer :=
  .next (busReg m (R.QSEQ_CTRL q.val) 8 8 s)

/-- R64: LATCH_RESET. -/
def execQseqLatchReset (m : Master) (q : Fin 16) (s : State) : Answer :=
  .next (busReg m (R.QSEQ_CTRL q.val) 16 16 s)

/-- R82: CNT_CLR. -/
def execQseqCntClr (m : Master) (q : Fin 16) (s : State) : Answer :=
  .next (busReg m (R.QSEQ_CTRL q.val) 32 32 s)

/-- R79: the start moment. -/
def execStartMoment (q : Fin 16) (s : State) : Answer :=
  .next (startMoment q.val s)

/-- R64: a write to FLAG_SET. -/
def execFlagSet (m : Master) (q : Fin 16) (mask data : Word) (s : State) : Answer :=
  .next (busReg m (R.QSEQ_FLAG_SET q.val) mask data s)

/-- R64: a write to FLAG_CLR. -/
def execFlagClr (m : Master) (q : Fin 16) (mask data : Word) (s : State) : Answer :=
  .next (busReg m (R.QSEQ_FLAG_CLR q.val) mask data s)

/-- R64, R252, R333: an edge of a TRIG_IN or GATE ball. -/
def execTriggerLatchSet (trg : Fin 256) (s : State) : Answer :=
  .next (triggerEdge trg.val s)

/-- R102: a granule boundary of the quarter. -/
def execGranuleBoundary (q : Fin 16) (samples : List (Nat × List (List (List Int)))) (s : State) : Answer :=
  .next (granuleBoundary q.val samples s)

end Sys2Proof.Machine
end

