-- ==== Sys2Proof/Machine/ResetCmds.lean ====
section
/-! DEFINITION. Resets and the boot (17_boot_reset.md; R397, R398). -/

namespace Sys2Proof.Machine

/-- R397, R373: the release of power-on reset. -/
def execPowerOnReset (straps : Word) (gib32 : Bool) (s : State) : Answer :=
  .next (powerOn straps gib32 s)

/-- R375: a low pulse on RESET_N; one below 10 µs does nothing (log entry 37). -/
def execResetN (straps : Word) (low : Nat) (s : State) : Answer :=
  .next (if low < 6400 then s else fullReset straps 3 false s)

/-- R398: a rail below its threshold acts as power-on reset. -/
def execSupplyDipReset (s : State) : Answer :=
  .next (fullReset s.straps 4 true s)

/-- R376: a WARM reset. -/
def execWarmReset (m : Master) (s : State) : Answer :=
  .next (busReg m R.CHIP_RST (0xFF00 + 1) (0x5A00 + 1) s)

/-- R376: a COLD reset. -/
def execColdReset (m : Master) (s : State) : Answer :=
  .next (busReg m R.CHIP_RST (0xFF00 + 2) (0x5A00 + 2) s)

/-- R376: a FULL reset. -/
def execFullReset (m : Master) (s : State) : Answer :=
  .next (busReg m R.CHIP_RST (0xFF00 + 4) (0x5A00 + 4) s)

/-- R382: GO, with the SRC of the same write. -/
def execBootGo (m : Master) (src : Fin 4) (s : State) : Answer :=
  .next (busReg m R.CHIP_BOOT_CTRL 7 (word (2 * src.val + 1)) s)

/-- R382: a write of BOOT_HDATA_H. -/
def execBootHdataHWrite (m : Master) (v : Word) (s : State) : Answer :=
  .next (busReg m R.CHIP_BOOT_HDATA_H 0xFFFF v s)

/-- R380, R384: a boot step ends. -/
def execBootStepComplete (f : BootFacts) (s : State) : Answer :=
  .next (bootStepDone f s)

/-- R380: a boot step exceeds its budget. -/
def execBootStepOverBudget (s : State) : Answer :=
  .next (overBudget s)

/-- R381: the boot survey is repeated. -/
def execBootSurveyRetry (s : State) : Answer :=
  .next (surveyRetry s)

/-- R381: the master sends START. -/
def execBootStartSend (s : State) : Answer :=
  .next (bootSend s)

/-- R381: a member has no ring. -/
def execBootNoRing (s : State) : Answer :=
  .next (noRing s)

end Sys2Proof.Machine
end

