-- ==== Sys2Proof/Machine/RingCmds.lean ====
section
/-! DEFINITION. Commands and events of result records and rings (09_results_rings.md). -/

namespace Sys2Proof.Machine

/-- R215: a write slot of the quarter's record queue. -/
def execRecordWriteSlot (q : Fin 16) (s : State) : Answer :=
  .next (recordSlot q.val s)

/-- R219: a dword-3 write with EN rising. -/
def execRingEnable (m : Master) (r : Fin 65536) (v : Dword) (s : State) : Answer :=
  .next (busWrite m (ringAddr r.val + 12) 0xF v s)

/-- R219: a dword-3 write with EN falling. -/
def execRingDisable (m : Master) (r : Fin 65536) (v : Dword) (s : State) : Answer :=
  .next (busWrite m (ringAddr r.val + 12) 0xF v s)

/-- R219: a dword-3 write with EN staying 1. -/
def execRingParamUpdate (m : Master) (r : Fin 65536) (v : Dword) (s : State) : Answer :=
  .next (busWrite m (ringAddr r.val + 12) 0xF v s)

/-- R221, R222: a slot of the ring pump. -/
def execRingPumpGrant (ecc : Fin 3) (s : State) : Answer :=
  .next (pumpGrant ecc.val s)

/-- R222: CONS is read from host memory. -/
def execRingConsPoll (r : Fin 65536) (cons : BitVec 32) (s : State) : Answer :=
  .next (consPoll r.val cons.toNat s)

/-- R223: the coalescing time has run out. -/
def execRingCoalesceTimeout (r : Fin 65536) (s : State) : Answer :=
  .next (coalesce r.val s)

/-- R224: a pump access to host memory fails. -/
def execDmaError (r : Fin 65536) (write : Bool) (s : State) : Answer :=
  .next (dmaError r.val write s)

end Sys2Proof.Machine
end

