-- ==== Sys2Proof/Machine/StoreCmds.lean ====
section
/-! DEFINITION. Commands of the control stores and timing sets (R55, R56, R116). -/

namespace Sys2Proof.Machine

/-- R54, R55: a write to the control store window. -/
def execControlStoreWrite (m : Master) (q : Fin 16) (a : Fin 16384) (j : Fin 8) (be : BitVec 4) (v : Dword) (s : State) : Answer :=
  .next (busWrite m (csAddr q.val a.val + 4 * j.val) be v s)

/-- R56: the scrub checks the next word. -/
def execControlStoreScrub (q : Fin 16) (s : State) : Answer :=
  .next (storeScrub q.val s)

/-- R112, R116: a write to the timing-set array. -/
def execTimingSetWrite (m : Master) (q : Fin 16) (set : Fin 32) (c : Fin 64) (j : Fin 16) (be : BitVec 4) (v : Dword) (s : State) : Answer :=
  .next (busWrite m (tsAddr q.val set.val c.val + 4 * j.val) be v s)

end Sys2Proof.Machine
end

