-- ==== Sys2Proof/Machine/Tap.lean ====
section
/-! DEFINITION. The test access port, limited to boundary scan (19_electrical_package.md, R406, Table 19-12). -/

namespace Sys2Proof.Machine

/-- The 32-bit identification: [31:28] die revision [3:0], [27:12] 0x1024, [11:1] 0x2A7, [0] 1. -/
def idcode : Dword := BitVec.ofNat 32 (Config.dieRev.toNat % 16 * 2 ^ 28 + 0x1024 * 2 ^ 12 + 0x2A7 * 2 + 1)

/-- Put an instruction into the instruction register. -/
def tapInstr (code : Nat) (extest highz : Bool) (s : State) : State :=
  { s with tap := { s.tap with instr := code, extest := extest, highz := highz } }

/-- BYPASS, or a code that Table 19-12 does not list. A listed code is not this command. -/
def tapBypass (code : BitVec 6) (s : State) : State :=
  if code.toNat ≤ 3 then s else tapInstr code.toNat false false s

def tapIdcode (s : State) : State := tapInstr 1 false false s

/-- SAMPLE/PRELOAD: the register takes the balls' levels, then its latch takes what was shifted in. -/
def tapSample (pins preload : Nat) (s : State) : State :=
  let s := tapInstr 2 false false s
  { s with tap := { s.tap with sampled := pins, boundary := preload } }

def tapExtest (s : State) : State := tapInstr 0 true false s
def tapHighz (s : State) : State := tapInstr 3 false true s

/-- The data register that the instruction selects: the identification, the one-bit bypass, or the chain. -/
inductive TapReg where
  | bypass
  | idcode (v : Dword)
  | boundary (sampled : Nat)
  deriving DecidableEq, Repr

/-- HIGHZ selects the bypass register, as IEEE 1149.1 does. -/
def State.tapReg (s : State) : TapReg :=
  if s.tap.instr = 1 then .idcode idcode
  else if s.tap.instr = 0 || s.tap.instr = 2 then .boundary s.tap.sampled
  else .bypass

end Sys2Proof.Machine
end

