-- ==== Sys2Proof/Machine/TapCmds.lean ====
section
/-! DEFINITION. The instructions of the test access port (19_electrical_package.md, R406). -/

namespace Sys2Proof.Machine

/-- R406: BYPASS, or a code not listed. -/
def execTapBypass (code : BitVec 6) (s : State) : Answer :=
  .next (tapBypass code s)

/-- R406: IDCODE. -/
def execTapIdcode (s : State) : Answer :=
  .next (tapIdcode s)

/-- R406: SAMPLE/PRELOAD. -/
def execTapSamplePreload (pins preload : Nat) (s : State) : Answer :=
  .next (tapSample pins preload s)

/-- R406: EXTEST. -/
def execTapExtest (s : State) : Answer :=
  .next (tapExtest s)

/-- R406: HIGHZ. -/
def execTapHighz (s : State) : Answer :=
  .next (tapHighz s)

end Sys2Proof.Machine
end

