-- ==== Sys2Proof/Machine/TdcCmds.lean ====
section
/-! DEFINITION. Commands and events of the time-interval units (10_time_measurement.md). -/

namespace Sys2Proof.Machine

/-- R231: ARM. -/
def execTdcArm (m : Master) (u : Fin 64) (s : State) : Answer :=
  .next (busReg m (R.TDC_CTRL u.val) 2 2 s)

/-- R234: DISARM. -/
def execTdcDisarm (m : Master) (u : Fin 64) (s : State) : Answer :=
  .next (busReg m (R.TDC_CTRL u.val) 4 4 s)

/-- R231: the selected source arms the unit. -/
def execTdcArmSource (u : Fin 64) (d : Nat) (s : State) : Answer :=
  .next (onQuarter (u.val / 4) (tdcArmSource u.val d) s)

/-- R232, R233: a start event. -/
def execTdcStartEvent (u : Fin 64) (fine : Nat) (s : State) : Answer :=
  .next (onQuarter (u.val / 4) (tdcStart u.val fine) s)

/-- R233, R234: a stop event. -/
def execTdcStopEvent (u : Fin 64) (fine : Nat) (s : State) : Answer :=
  .next (onQuarter (u.val / 4) (tdcStop u.val fine) s)

/-- R234: the end of a level gate. -/
def execTdcGateClose (u : Fin 64) (d : Nat) (s : State) : Answer :=
  .next (onQuarter (u.val / 4) (tdcGateClose u.val d) s)

/-- R234: TMO has run out. -/
def execTdcTimeout (u : Fin 64) (s : State) : Answer :=
  .next (onQuarter (u.val / 4) (tdcTimeout u.val) s)

/-- R234: 2^24 ticks after the start. -/
def execTdcRangeLimit (u : Fin 64) (s : State) : Answer :=
  .next (onQuarter (u.val / 4) (tdcRange u.val) s)

/-- R236, R237: the result is written. -/
def execTdcResultWrite (u : Fin 64) (s : State) : Answer :=
  .next (onQuarter (u.val / 4) (tdcResult u.val) s)

/-- R239: the DLL of a quarter loses its lock. -/
def execDllLockLost (q : Fin 16) (s : State) : Answer :=
  .next (dllLost q.val s)

/-- R239: a write of RELOCK. -/
def execTdcRelock (m : Master) (mask data : Word) (s : State) : Answer :=
  .next (busReg m R.TDCC_RELOCK mask data s)

/-- R240: a re-lock ends. -/
def execDllRelockComplete (q : Fin 16) (s : State) : Answer :=
  .next (relockComplete q.val s)

/-- R238: a step of the crystal's pulling. -/
def execXoPullStep (s : State) : Answer :=
  .next (xoPullStep s)

end Sys2Proof.Machine
end

