-- ==== Sys2Proof/Machine/TxnCmds.lean ====
section
/-! DEFINITION. Commands of the transaction units (02_registers_host.md, R41 to R43). -/

namespace Sys2Proof.Machine

/-- R41: BEGIN. -/
def execTxnBegin (m : Master) (u : Fin 17) (s : State) : Answer :=
  .next (busReg m (txnBase u.val) 1 1 s)

/-- R41, R42, R14: COMMIT, with the CMODE of the same write; a transaction that becomes PENDING holds the changes of
the site assignment. -/
def execTxnCommit (m : Master) (u : Fin 17) (c : Option (Fin 8) × List (Fin 64 × Option (Fin 8))) (s : State) : Answer :=
  let t := busReg m (txnBase u.val) (if c.1.isSome then 0x72 else 2) (word (16 * (c.1.getD 0).val + 2)) s
  .next (if c.2 ≠ [] && txnState s u.val ≠ 2 && txnState t u.val = 2 then
      t.setTxn u.val { t.txn u.val with sites := c.2.map fun e => (e.1.val, e.2.map (·.val)) }
    else t)

/-- R41: ROLLBACK. -/
def execTxnRollback (m : Master) (u : Fin 17) (s : State) : Answer :=
  .next (busReg m (txnBase u.val) 4 4 s)

/-- R42, R43: the commit moment of CMODE 0, 1 or 2 has come. -/
def execTxnCommitMoment (u : Fin 17) (s : State) : Answer :=
  .next (if s.bit F.CLK_STAT_HOLD then s else txnMoment u.val s)

/-- R43: what a commit handed to a busy block takes effect. -/
def execTxnDeferredPostedApply (pstat : Nat) (s : State) : Answer :=
  .next (if s.bit F.CLK_STAT_HOLD then s else deferredApply pstat s)

end Sys2Proof.Machine
end

