-- ==== Sys2Proof/Machine/WordCmds.lean ====
section
/-! DEFINITION. The microwords and the events of their bodies (03_sequencer.md, R59 to R73, R106, R408). -/

namespace Sys2Proof.Machine

/-- R62: NEXT. -/
def execNext (q : Fin 16) (s : State) : Answer :=
  .next (decideWord q.val 0x01 s)

/-- R62: JMP. -/
def execJmp (q : Fin 16) (s : State) : Answer :=
  .next (decideWord q.val 0x02 s)

/-- R65: JCOND. -/
def execJcond (q : Fin 16) (s : State) : Answer :=
  .next (decideWord q.val 0x03 s)

/-- R62, R68: CALL. -/
def execCall (q : Fin 16) (s : State) : Answer :=
  .next (decideWord q.val 0x04 s)

/-- R62, R68: RET. -/
def execRet (q : Fin 16) (s : State) : Answer :=
  .next (decideWord q.val 0x05 s)

/-- R69: LOOPB. -/
def execLoopb (q : Fin 16) (s : State) : Answer :=
  .next (decideWord q.val 0x06 s)

/-- R62, R69: LOOPE. -/
def execLoope (q : Fin 16) (s : State) : Answer :=
  .next (decideWord q.val 0x07 s)

/-- R71, R408: WAITTRG. -/
def execWaittrg (q : Fin 16) (s : State) : Answer :=
  .next (decideWaittrg q.val s)

/-- R72, R408: WAITMARK. -/
def execWaitmark (q : Fin 16) (s : State) : Answer :=
  .next (decideWaitmark q.val s)

/-- R72: SYNC. -/
def execSync (q : Fin 16) (s : State) : Answer :=
  .next (decideSync q.val s)

/-- R62: COMMIT. -/
def execCommit (q : Fin 16) (s : State) : Answer :=
  .next (actWord q.val 0x0B s)

/-- R62, R272: PXFER. -/
def execPxfer (q : Fin 16) (s : State) : Answer :=
  .next (actWord q.val 0x0C s)

/-- R62: TARM. -/
def execTarm (q : Fin 16) (s : State) : Answer :=
  .next (actWord q.val 0x0D s)

/-- R294: CALWIN. -/
def execCalwin (q : Fin 16) (s : State) : Answer :=
  .next (actWord q.val 0x0E s)

/-- R73: HOLD. -/
def execHold (q : Fin 16) (s : State) : Answer :=
  .next (decideHold q.val s)

/-- R62: HALT. -/
def execHalt (q : Fin 16) (s : State) : Answer :=
  .next (decideHaltWord q.val s)

/-- R59, R61: the end of a body. -/
def execWelt (q : Fin 16) (s : State) : Answer :=
  .next (welt q.val s)

/-- R408: four granules before a stall's exit. -/
def execExitDecisionPoint (q : Fin 16) (s : State) : Answer :=
  .next (exitDecision q.val s)

/-- R70: the exit boundary. -/
def execStallExit (q : Fin 16) (s : State) : Answer :=
  .next (stallExit q.val s)

/-- R71 to R73: a wait has run out. -/
def execWaitTimeout (q : Fin 16) (s : State) : Answer :=
  .next (waitTimeout q.val s)

/-- R106: the held word's job. -/
def execRefillJobIssue (q : Fin 16) (s : State) : Answer :=
  .next (refillIssue q.val s)

/-- R106: the held body starts. -/
def execRefillHoldExit (q : Fin 16) (s : State) : Answer :=
  .next (refillExit q.val s)

end Sys2Proof.Machine
end

