-- ==== Sys2Proof/Machine/Dispatch.lean ====
section
/-! DEFINITION. One arm for each command: a direct call of its meaning. -/

namespace Sys2Proof.Machine

def exec (i : Instr) (s : State) : Host.Outcome State Fault Refusal :=
  match i with
  | .registerWrite m addr be v => Sys2Proof.Machine.execRegisterWrite m addr be v s
  | .postedWriteDelivery pstat => Sys2Proof.Machine.execPostedWriteDelivery pstat s
  | .readClear m addr => Sys2Proof.Machine.execReadClear m addr s
  | .latchedRead m addr => Sys2Proof.Machine.execLatchedRead m addr s
  | .evcCntLRead m n => Sys2Proof.Machine.execEvcCntLRead m n s
  | .txnBegin m u => Sys2Proof.Machine.execTxnBegin m u s
  | .txnCommit m u c => Sys2Proof.Machine.execTxnCommit m u c s
  | .txnRollback m u => Sys2Proof.Machine.execTxnRollback m u s
  | .txnCommitMoment u => Sys2Proof.Machine.execTxnCommitMoment u s
  | .txnDeferredPostedApply pstat => Sys2Proof.Machine.execTxnDeferredPostedApply pstat s
  | .evcClr m n => Sys2Proof.Machine.execEvcClr m n s
  | .evcClearAll m => Sys2Proof.Machine.execEvcClearAll m s
  | .evcSnapNow m => Sys2Proof.Machine.execEvcSnapNow m s
  | .bar2Write addr bytes => Sys2Proof.Machine.execBar2Write addr bytes s
  | .bar2Read addr n ecc => Sys2Proof.Machine.execBar2Read addr n ecc s
  | .fabricAccessTimeout m write gate addr => Sys2Proof.Machine.execFabricAccessTimeout m write gate addr s
  | .quarterWake m write addr be v => Sys2Proof.Machine.execQuarterWake m write addr be v s
  | .quarterSettleEnd q => Sys2Proof.Machine.execQuarterSettleEnd q s
  | .functionLevelReset => Sys2Proof.Machine.execFunctionLevelReset s
  | .linkDown => Sys2Proof.Machine.execLinkDown s
  | .linkUp link cfg => Sys2Proof.Machine.execLinkUp link cfg s
  | .msixVectorUnmask w => Sys2Proof.Machine.execMsixVectorUnmask w s
  | .controlStoreWrite m q a j be v => Sys2Proof.Machine.execControlStoreWrite m q a j be v s
  | .controlStoreScrub q => Sys2Proof.Machine.execControlStoreScrub q s
  | .next q => Sys2Proof.Machine.execNext q s
  | .jmp q => Sys2Proof.Machine.execJmp q s
  | .jcond q => Sys2Proof.Machine.execJcond q s
  | .call q => Sys2Proof.Machine.execCall q s
  | .ret q => Sys2Proof.Machine.execRet q s
  | .loopb q => Sys2Proof.Machine.execLoopb q s
  | .loope q => Sys2Proof.Machine.execLoope q s
  | .waittrg q => Sys2Proof.Machine.execWaittrg q s
  | .waitmark q => Sys2Proof.Machine.execWaitmark q s
  | .sync q => Sys2Proof.Machine.execSync q s
  | .commit q => Sys2Proof.Machine.execCommit q s
  | .pxfer q => Sys2Proof.Machine.execPxfer q s
  | .tarm q => Sys2Proof.Machine.execTarm q s
  | .calwin q => Sys2Proof.Machine.execCalwin q s
  | .hold q => Sys2Proof.Machine.execHold q s
  | .halt q => Sys2Proof.Machine.execHalt q s
  | .welt q => Sys2Proof.Machine.execWelt q s
  | .exitDecisionPoint q => Sys2Proof.Machine.execExitDecisionPoint q s
  | .stallExit q => Sys2Proof.Machine.execStallExit q s
  | .waitTimeout q => Sys2Proof.Machine.execWaitTimeout q s
  | .refillJobIssue q => Sys2Proof.Machine.execRefillJobIssue q s
  | .refillHoldExit q => Sys2Proof.Machine.execRefillHoldExit q s
  | .qseqStart m q mode => Sys2Proof.Machine.execQseqStart m q mode s
  | .qseqStop m q => Sys2Proof.Machine.execQseqStop m q s
  | .qseqDisable m q => Sys2Proof.Machine.execQseqDisable m q s
  | .qseqRelease m q => Sys2Proof.Machine.execQseqRelease m q s
  | .qseqLatchReset m q => Sys2Proof.Machine.execQseqLatchReset m q s
  | .qseqCntClr m q => Sys2Proof.Machine.execQseqCntClr m q s
  | .startMoment q => Sys2Proof.Machine.execStartMoment q s
  | .flagSet m q mask data => Sys2Proof.Machine.execFlagSet m q mask data s
  | .flagClr m q mask data => Sys2Proof.Machine.execFlagClr m q mask data s
  | .triggerLatchSet trg => Sys2Proof.Machine.execTriggerLatchSet trg s
  | .granuleBoundary q samples => Sys2Proof.Machine.execGranuleBoundary q samples s
  | .hbmReadComplete q ecc => Sys2Proof.Machine.execHbmReadComplete q ecc s
  | .headBuild m q => Sys2Proof.Machine.execHeadBuild m q s
  | .headBuildComplete b => Sys2Proof.Machine.execHeadBuildComplete b s
  | .memRdyWrite m k mask data => Sys2Proof.Machine.execMemRdyWrite m k mask data s
  | .winWrite m n size mask data => Sys2Proof.Machine.execWinWrite m n size mask data s
  | .hbmScrub stackB ecc => Sys2Proof.Machine.execHbmScrub stackB ecc s
  | .hbmTrainingComplete ok => Sys2Proof.Machine.execHbmTrainingComplete ok s
  | .timingSetWrite m q set c j be v => Sys2Proof.Machine.execTimingSetWrite m q set c j be v s
  | .ftwHWrite m c mask data => Sys2Proof.Machine.execFtwHWrite m c mask data s
  | .dclkEdge c node amps clamp within => Sys2Proof.Machine.execDclkEdge c node amps clamp within s
  | .ovdTrip c high => Sys2Proof.Machine.execOvdTrip c high s
  | .discEnd c => Sys2Proof.Machine.execDiscEnd c s
  | .protReconnect c => Sys2Proof.Machine.execProtReconnect c s
  | .stageChangeComplete c => Sys2Proof.Machine.execStageChangeComplete c s
  | .drvCtrlWrite c mask data => Sys2Proof.Machine.execDrvCtrlWrite c mask data s
  | .lqPush c code => Sys2Proof.Machine.execLqPush c code s
  | .lqClr c => Sys2Proof.Machine.execLqClr c s
  | .lqSample c => Sys2Proof.Machine.execLqSample c s
  | .pmuMeasStart c => Sys2Proof.Machine.execPmuMeasStart c s
  | .pmuMeasStop c => Sys2Proof.Machine.execPmuMeasStop c s
  | .pmuRangeChangeStep c => Sys2Proof.Machine.execPmuRangeChangeStep c s
  | .pmuAdcSlot a v lim => Sys2Proof.Machine.execPmuAdcSlot a v lim s
  | .pmuIntervalEnd c => Sys2Proof.Machine.execPmuIntervalEnd c s
  | .sgTrip n x => Sys2Proof.Machine.execSgTrip n x s
  | .sgBlankExpiry n k => Sys2Proof.Machine.execSgBlankExpiry n k s
  | .sgGonBlankEnd n => Sys2Proof.Machine.execSgGonBlankEnd n s
  | .sgTripClr n => Sys2Proof.Machine.execSgTripClr n s
  | .sgPeriodEnd n vs is => Sys2Proof.Machine.execSgPeriodEnd n vs is s
  | .ledgerCheck m => Sys2Proof.Machine.execLedgerCheck m s
  | .ledgerWindowEnd => Sys2Proof.Machine.execLedgerWindowEnd s
  | .ledgerSensorResult ms bad => Sys2Proof.Machine.execLedgerSensorResult ms bad s
  | .maintenanceGrant => Sys2Proof.Machine.execMaintenanceGrant s
  | .recordWriteSlot q => Sys2Proof.Machine.execRecordWriteSlot q s
  | .ringEnable m r v => Sys2Proof.Machine.execRingEnable m r v s
  | .ringDisable m r v => Sys2Proof.Machine.execRingDisable m r v s
  | .ringParamUpdate m r v => Sys2Proof.Machine.execRingParamUpdate m r v s
  | .ringPumpGrant ecc => Sys2Proof.Machine.execRingPumpGrant ecc s
  | .ringConsPoll r cons => Sys2Proof.Machine.execRingConsPoll r cons s
  | .ringCoalesceTimeout r => Sys2Proof.Machine.execRingCoalesceTimeout r s
  | .dmaError r write => Sys2Proof.Machine.execDmaError r write s
  | .tdcArm m u => Sys2Proof.Machine.execTdcArm m u s
  | .tdcDisarm m u => Sys2Proof.Machine.execTdcDisarm m u s
  | .tdcArmSource u d => Sys2Proof.Machine.execTdcArmSource u d s
  | .tdcStartEvent u fine => Sys2Proof.Machine.execTdcStartEvent u fine s
  | .tdcStopEvent u fine => Sys2Proof.Machine.execTdcStopEvent u fine s
  | .tdcGateClose u d => Sys2Proof.Machine.execTdcGateClose u d s
  | .tdcTimeout u => Sys2Proof.Machine.execTdcTimeout u s
  | .tdcRangeLimit u => Sys2Proof.Machine.execTdcRangeLimit u s
  | .tdcResultWrite u => Sys2Proof.Machine.execTdcResultWrite u s
  | .dllLockLost q => Sys2Proof.Machine.execDllLockLost q s
  | .tdcRelock m mask data => Sys2Proof.Machine.execTdcRelock m mask data s
  | .dllRelockComplete q => Sys2Proof.Machine.execDllRelockComplete q s
  | .xoPullStep => Sys2Proof.Machine.execXoPullStep s
  | .laceFrameStart => Sys2Proof.Machine.execLaceFrameStart s
  | .laceFrameReceive sof fn hop survey acc sofOk slots delays => Sys2Proof.Machine.execLaceFrameReceive sof fn hop survey acc sofOk slots delays s
  | .laceTrigEffect => Sys2Proof.Machine.execLaceTrigEffect s
  | .laceMarkEffect => Sys2Proof.Machine.execLaceMarkEffect s
  | .laceStartEffect => Sys2Proof.Machine.execLaceStartEffect s
  | .laceHoldEffect => Sys2Proof.Machine.execLaceHoldEffect s
  | .laceReleaseEffect => Sys2Proof.Machine.execLaceReleaseEffect s
  | .laceEpochEffect => Sys2Proof.Machine.execLaceEpochEffect s
  | .laceSendGo m => Sys2Proof.Machine.execLaceSendGo m s
  | .laceStartSend m => Sys2Proof.Machine.execLaceStartSend m s
  | .laceEpochNow m => Sys2Proof.Machine.execLaceEpochNow m s
  | .laceEpochDue => Sys2Proof.Machine.execLaceEpochDue s
  | .laceSurvey m => Sys2Proof.Machine.execLaceSurvey m s
  | .laceSurveyComplete r => Sys2Proof.Machine.execLaceSurveyComplete r s
  | .surveyBorrowTimeout => Sys2Proof.Machine.execSurveyBorrowTimeout s
  | .laceDetach m => Sys2Proof.Machine.execLaceDetach m s
  | .ringLost => Sys2Proof.Machine.execRingLost s
  | .peStart m n ssel => Sys2Proof.Machine.execPeStart m n ssel s
  | .peSelectAssert x => Sys2Proof.Machine.execPeSelectAssert x s
  | .peSelectRelease n bits cycles => Sys2Proof.Machine.execPeSelectRelease n bits cycles s
  | .peIdleTimeout n bits cycles => Sys2Proof.Machine.execPeIdleTimeout n bits cycles s
  | .peUnitEnd n bits busy => Sys2Proof.Machine.execPeUnitEnd n bits busy s
  | .peDone n => Sys2Proof.Machine.execPeDone n s
  | .peTxAdd m n k => Sys2Proof.Machine.execPeTxAdd m n k s
  | .spx1Read cmd addr n => Sys2Proof.Machine.execSpx1Read cmd addr n s
  | .spx1Write cmd addr vs => Sys2Proof.Machine.execSpx1Write cmd addr vs s
  | .spx1Status cmd extra => Sys2Proof.Machine.execSpx1Status cmd extra s
  | .spx1WriteApply => Sys2Proof.Machine.execSpx1WriteApply s
  | .spx1SelectRelease bits => Sys2Proof.Machine.execSpx1SelectRelease bits s
  | .spx1IdleTimeout bits => Sys2Proof.Machine.execSpx1IdleTimeout bits s
  | .nvmStore => Sys2Proof.Machine.execNvmStore s
  | .nvmStoreComplete ok => Sys2Proof.Machine.execNvmStoreComplete ok s
  | .nvmLoad => Sys2Proof.Machine.execNvmLoad s
  | .nvmLoadComplete => Sys2Proof.Machine.execNvmLoadComplete s
  | .calSlotEnd q rs => Sys2Proof.Machine.execCalSlotEnd q rs s
  | .calAgeLimit c => Sys2Proof.Machine.execCalAgeLimit c s
  | .calSessionRequest m q => Sys2Proof.Machine.execCalSessionRequest m q s
  | .xoStartDelayEnd => Sys2Proof.Machine.execXoStartDelayEnd s
  | .clockSourceReady k => Sys2Proof.Machine.execClockSourceReady k s
  | .clockMonitorTrip k => Sys2Proof.Machine.execClockMonitorTrip k s
  | .clockHoldExit => Sys2Proof.Machine.execClockHoldExit s
  | .clockHoldTimeout => Sys2Proof.Machine.execClockHoldTimeout s
  | .rcoTrimStep up => Sys2Proof.Machine.execRcoTrimStep up s
  | .pllLock => Sys2Proof.Machine.execPllLock s
  | .interfacePllLock => Sys2Proof.Machine.execInterfacePllLock s
  | .clkSrcWrite m mask data => Sys2Proof.Machine.execClkSrcWrite m mask data s
  | .pllRefSwitchComplete => Sys2Proof.Machine.execPllRefSwitchComplete s
  | .powerReqRun => Sys2Proof.Machine.execPowerReqRun s
  | .powerReqHold => Sys2Proof.Machine.execPowerReqHold s
  | .powerReqNap => Sys2Proof.Machine.execPowerReqNap s
  | .powerReqPatrol => Sys2Proof.Machine.execPowerReqPatrol s
  | .powerReqShank => Sys2Proof.Machine.execPowerReqShank s
  | .powerEntryComplete => Sys2Proof.Machine.execPowerEntryComplete s
  | .powerExitComplete => Sys2Proof.Machine.execPowerExitComplete s
  | .wakeEvent bit => Sys2Proof.Machine.execWakeEvent bit s
  | .shankTimerExpiry => Sys2Proof.Machine.execShankTimerExpiry s
  | .qoff mask data => Sys2Proof.Machine.execQoff mask data s
  | .qon mask data => Sys2Proof.Machine.execQon mask data s
  | .patrolCycle ts ps dur => Sys2Proof.Machine.execPatrolCycle ts ps dur s
  | .pgoodLost => Sys2Proof.Machine.execPgoodLost s
  | .vidTimeout => Sys2Proof.Machine.execVidTimeout s
  | .padHoldRelease => Sys2Proof.Machine.execPadHoldRelease s
  | .thmReading rs => Sys2Proof.Machine.execThmReading rs s
  | .brokenClr m high mask data => Sys2Proof.Machine.execBrokenClr m high mask data s
  | .backstopTrip => Sys2Proof.Machine.execBackstopTrip s
  | .supplyDipReset => Sys2Proof.Machine.execSupplyDipReset s
  | .faultEvent => Sys2Proof.Machine.execFaultEvent s
  | .faultWindowExpiry src => Sys2Proof.Machine.execFaultWindowExpiry src s
  | .faultQuietExpiry x => Sys2Proof.Machine.execFaultQuietExpiry x s
  | .faultRclr m x => Sys2Proof.Machine.execFaultRclr m x s
  | .safeReq m => Sys2Proof.Machine.execSafeReq m s
  | .votedFieldScrub ups => Sys2Proof.Machine.execVotedFieldScrub ups s
  | .feSrcRead m => Sys2Proof.Machine.execFeSrcRead m s
  | .powerOnReset straps gib32 => Sys2Proof.Machine.execPowerOnReset straps gib32 s
  | .resetN straps low => Sys2Proof.Machine.execResetN straps low s
  | .perstN => Sys2Proof.Machine.execPerstN s
  | .warmReset m => Sys2Proof.Machine.execWarmReset m s
  | .coldReset m => Sys2Proof.Machine.execColdReset m s
  | .fullReset m => Sys2Proof.Machine.execFullReset m s
  | .bootGo m src => Sys2Proof.Machine.execBootGo m src s
  | .bootHdataHWrite m v => Sys2Proof.Machine.execBootHdataHWrite m v s
  | .bootStepOverBudget => Sys2Proof.Machine.execBootStepOverBudget s
  | .bootSurveyRetry => Sys2Proof.Machine.execBootSurveyRetry s
  | .bootStartSend => Sys2Proof.Machine.execBootStartSend s
  | .bootNoRing => Sys2Proof.Machine.execBootNoRing s
  | .tapBypass code => Sys2Proof.Machine.execTapBypass code s
  | .tapIdcode => Sys2Proof.Machine.execTapIdcode s
  | .tapSamplePreload pins preload => Sys2Proof.Machine.execTapSamplePreload pins preload s
  | .tapExtest => Sys2Proof.Machine.execTapExtest s
  | .tapHighz => Sys2Proof.Machine.execTapHighz s
  | .bootStepComplete f => Sys2Proof.Machine.execBootStepComplete f s
  | .biasSettled q => Sys2Proof.Machine.execBiasSettled q s
  | .votedFieldRead m addr => Sys2Proof.Machine.execVotedFieldRead m addr s
  | .vsgLost => Sys2Proof.Machine.execVsgLost s

end Sys2Proof.Machine
end

