-- ==== Sys2Proof/Machine/Tick.lean ====
section
/-! DEFINITION. Time passing while no command waits (log entry 2): one PCLK, or one SKO period in the modes in which
the Shank's keeper carries device time (R21, R312, R332). -/

namespace Sys2Proof.Machine

/-- Spans of eight granules begin: BAR2's pace is filled up (R85). -/
def spans : Nat → State → State
  | 0, s => s
  | n + 1, s => spans n (hostSpan s)

/-- One PCLK of the pattern clocks: an MCLK cycle every second one, a granule every eighth (Table 2-7). -/
def tickPclk (s : State) : State :=
  let t := clock64 (s.now + 1)
  let s := { s with now := t }
  let s := if t % 2 = 0 then s.count 0x01 1 else s
  let s := if t % 8 = 0 then s.count 0x02 1 else s
  if t % 64 = 0 then hostSpan s else s

/-- One SKO period: 640 of device time. In a direct mode with power, 40 cycles of a 40 MHz MCLK pass. -/
def tickSko (s : State) : State :=
  let s := { s with now := clock64 (s.now + 640) }
  if s.bit F.CLK_STAT_HOLD || s.centralOff then s
  else spans 10 ((s.count 0x01 40).count 0x02 80)

/-- The part is held in power-on reset, or the Shank has no clock (R319). -/
def State.noClock (s : State) : Bool :=
  !s.boot.up || (s.bit F.CLK_STAT_HOLD && s.clk.holdFall = 2)

def tick (s : State) : State :=
  if s.noClock then s else if s.patternClock then tickPclk s else tickSko s

end Sys2Proof.Machine
end

