-- ==== Sys2Proof/Machine/Outputs.lean ====
section
/-! DEFINITION. Balls that follow from the state alone: MARK (05_timing_waveforms.md, R127), FAULT_N
(16_safety_faults.md, R368), the Lace outputs, and where the balls lie (19_electrical_package.md, R394, R395, R404). -/

namespace Sys2Proof.Machine

/-! ### MARK (R127) -/

/-- Where a contribution shows on ball n, in vernier steps of device time: DLY after the pin time of its start, to the
same time after its end, or for one granule of a body's beginning with PULSE. -/
def State.markShows (s : State) (n : Nat) (r : MarkRun) (step : Nat) : Bool :=
  let at_ (t : Nat) : Nat := (t + tPin) * 512 + s.fld (F.MARK_CFG_DLY n)
  let pulse := s.bit (F.MARK_CFG_PULSE n)
  r.bits.testBit n && at_ r.start ≤ step && (r.first || !pulse) && (!pulse || step < at_ (r.start + 8)) &&
    (match r.stop with
     | some e => step < at_ e
     | none => true)

/-- The level of ball MARK[n] at a vernier step of device time up to now: the OR over the quarters of QMASK; low in the
safe state and under pad hold (Table 15-8). -/
def State.markBall (s : State) (n step : Nat) : Bool :=
  !s.bit F.FLT_CHIPST_SAFE && !s.bit F.PWR_PAD_HOLD_HOLD &&
    (List.range 16).any fun q =>
      (s.fld (F.MARK_SRC_QMASK n)).testBit q && (s.q q).markRuns.any fun r => s.markShows n r step

/-! ### FAULT_N (R368) -/

/-- The part pulls FAULT_N low: before the SKO runs, in the chip's fault state, in clock-hold, with a latched FATAL,
after the backstop. -/
def State.faultLow (s : State) : Bool :=
  !s.clk.skoRan || s.chipFault || s.bit F.CLK_STAT_HOLD || s.faultLatched || s.bit F.PWR_STAT_BACKSTOP

/-! ### LACE_REFO, LACE_DO, LACE_UO (R404) -/

/-- The LVDS and CML outputs drive: the main PLL is not stopped. -/
def State.laceDrives (s : State) : Bool := s.pllPowered

/-- LACE_REFO carries LACE_REF: on the master only (Table 11-1). -/
def State.refDrives (s : State) : Bool := s.laceMaster && s.laceDrives

/-- What LACE_DO carries: the last frame begun, or nothing while it is high-impedance. -/
def State.laceLine (s : State) : Option LaceFrame := if s.laceDrives then some s.lace.out else none

/-! ### Ball positions (R394, R395): (row, column), each from 1 to 54 -/

/-- The position with band coordinates u along the edge and v inward, in band b. -/
def bandPos (b u v : Nat) : Nat × Nat :=
  match b with
  | 0 => (1 + v, 1 + u)
  | 1 => (1 + u, 54 - v)
  | 2 => (54 - v, 54 - u)
  | _ => (54 - u, 1 + v)

/-- The ball of local channel c of quarter q, and DUTGNDq. -/
def ballOf (q : Fin 16) (c : Fin 64) : Nat × Nat := bandPos (q.val / 4) (2 + 11 * (q.val % 4) + c.val % 8) (c.val / 8)
def groundBall (q : Fin 16) : Nat × Nat := bandPos (q.val / 4) (10 + 11 * (q.val % 4)) 0

/-- The k-th ball, from 0, of inner zone A to E of Table 19-3, filled row by row. -/
def zoneBall (zone : Fin 5) (k : Nat) : Nat × Nat :=
  let z := ([(9, 9, 38), (18, 38, 9), (18, 9, 9), (18, 18, 20), (38, 9, 38)] : List (Nat × Nat × Nat)).getD zone.val (9, 9, 38)
  (z.1 + k / z.2.2, z.2.1 + k % z.2.2)

end Sys2Proof.Machine
end

