-- ==== Sys2Proof/Safety.lean ====
section
/-! DEFINITION. What claims call a sound state: every table in its canonical form, so that equal contents are equal
data, and a size of HBM that the part has. -/

namespace Sys2Proof.Machine

/-- The memories: HBM bytes and table windows. -/
def State.memWf (s : State) : Bool := tabWf (fun _ => 0) s.hbm && tabWf winReset s.win

/-- Every sparse table of the state is canonical: the memories, the register bank (values, the other two copies, the
two copies of the RC fields, the held and the waiting values) and the tables of per-instance structures; and the HBM
carried is one of the two sizes of R83. -/
structure State.Sound (s : State) : Prop where
  hbm : tabWf (fun _ => 0) s.hbm = true
  win : tabWf winReset s.win = true
  regs : tabWf regReset s.regs = true
  copyB : tabWf (fun _ => 0) s.copyB = true
  copyC : tabWf (fun _ => 0) s.copyC = true
  hostRc : tabWf (fun _ => 0) s.hostRc = true
  spx1Rc : tabWf (fun _ => 0) s.spx1Rc = true
  holdH : tabWf (fun _ => 0) s.holdH = true
  holdS : tabWf (fun _ => 0) s.holdS = true
  posted : tabWf (fun _ => none) s.posted = true
  handed : tabWf (fun _ => {}) s.handed = true
  evcs : tabWf (fun _ => {}) s.evcs = true
  txns : tabWf (fun _ => {}) s.txns = true
  srcs : tabWf (fun _ => {}) s.srcs = true
  ents : tabWf (fun _ => {}) s.ents = true
  qs : tabWf (fun _ => {}) s.qs = true
  qm : tabWf (fun _ => {}) s.qm = true
  qr : tabWf (fun _ => {}) s.qr = true
  chans : tabWf (fun _ => {}) s.chans = true
  pmus : tabWf (fun _ => {}) s.pmus = true
  adcs : tabWf (fun _ => 0) s.adcs = true
  adcAt : tabWf (fun _ => 0) s.adcAt = true
  sgs : tabWf (fun _ => {}) s.sgs = true
  rings : tabWf (fun _ => {}) s.rings = true
  tdcs : tabWf (fun _ => {}) s.tdcs = true
  dlls : tabWf (fun _ => {}) s.dlls = true
  ports : tabWf (fun _ => {}) s.ports = true
  calch : tabWf (fun _ => {}) s.calch = true
  installed : s.installed = 1 ∨ s.installed = 2

/-! ### What a command leaves alone -/

/-- `t` differs from `s` at most in what status events touch: the two copies of RC fields (R36), the event counters
(R45), and the interrupt messages with their pending bits (R52), which lie in the MSI-X window. -/
def State.eventsOnly (s t : State) : Prop :=
  t = { s with hostRc := t.hostRc, spx1Rc := t.spx1Rc, evcs := t.evcs, win := t.win, msgs := t.msgs } ∧
    ∀ a, a < 0x47000 ∨ 0x47100 ≤ a → t.winGet a = s.winGet a

/-- Every register outside `l` reads in `t` what it reads in `s`. -/
def State.regsKept (l : List Nat) (s t : State) : Prop := ∀ a, a ∉ l → t.reg a = s.reg a

/-- HBM and the table windows read in `t` what they read in `s`, but for the pending bits of MSI-X vectors, which
interrupt messages set (R52). -/
def State.memoryKept (s t : State) : Prop :=
  t.hbm = s.hbm ∧ ∀ a, a < 0x47000 ∨ 0x47100 ≤ a → t.winGet a = s.winGet a

/-- The fabric serves an access of `m` to `a` at once (R33, R35, R50, R331, R335): it has clock and supply, the access
wakes no domain, nothing of the master waits ahead, the quarter that holds `a` is on and the region of `a` is not
closed. -/
structure State.Serves (s : State) (m : Master) (a : Nat) : Prop where
  up : s.fabricDown = false
  clocked : s.bit F.CLK_STAT_HOLD = false
  awake : s.pstate ≠ 3 ∨ s.centralOff = false
  ahead : s.mustWait m = false
  domain : ∀ q, addrQuarter a = some q → s.quarterOn q = true
  region : s.regionClosed a = false

/-- It takes a write of `m` to `a` at once: the boot does not refuse it, no transaction captures it, and no master that
ranks after `m` has written the register in the same MCLK cycle (R41, R383, R35). -/
structure State.Takes (s : State) (m : Master) (a : Nat) : Prop extends State.Serves s m a where
  boot : s.bootRefuses m a = false
  free : s.capturer m a = none
  first : s.outranked m a = 0

/-- `s` with what every access leaves beside its own effect: the packets of a host access counted (Table 2-7), and, as
in `t`, the write's place in its MCLK cycle (R35). -/
def State.heard (s : State) (m : Master) (write : Bool) (t : State) : State :=
  { hostTlps m write s with cycle := t.cycle }

/-- The copies of the register at `a` agree, and it is stored once: a write of its own value changes nothing. -/
def State.agrees (s : State) (a : Nat) : Prop :=
  tabGet (fun _ => 0) s.copyB a = 0 ∧ tabGet (fun _ => 0) s.copyC a = 0

/-- The event that an access reports: its source and base class, address, master and access type, 1 read, 2 write
(R354, R355). -/
def State.accessEvent (s : State) (src addr : Nat) (m : Master) (acc : Nat) : FaultEvent :=
  { src := src, cls := baseClass src, addr := addr, master := masterCode m, quarter := masterQuarter m, acc := acc,
    time := s.now, shank := s.shankStamps }

/-- An event of its base class that no access made. -/
def State.plainEvent (s : State) (src addr : Nat) : FaultEvent :=
  { src := src, cls := baseClass src, addr := addr, time := s.now, shank := s.shankStamps }

/-- The bits of an RC field are set in both readers' copies (R36). -/
def State.flagged (s : State) (f : Fld) : Prop :=
  s.rcHost f.addr &&& fldMask f = fldMask f ∧ s.rcSpx1 f.addr &&& fldMask f = fldMask f

/-- The part runs on its own clocks with nothing held: for effects of posted writes in their domain (R37, R38). -/
structure State.Runs (s : State) (a : Nat) : Prop where
  up : s.fabricDown = false
  clocked : s.bit F.CLK_STAT_HOLD = false
  domain : ∀ q, addrQuarter a = some q → s.quarterOn q = true

/-! ### The sequencer -/

/-- The word at `a` of quarter q's store is intact and legal and plays the null segment: only the sequencer's own
rules bear on its selection. -/
def State.plainWord (s : State) (q a : Nat) : Prop :=
  a ≤ 0x3FFF ∧ ∃ w, checkMicro (s.csWord q a) = some (w, false) ∧ mwSeg w = nullSeg ∧ illegalWord w 0 true false = false

/-- The successor of the executing body. -/
def State.successor (s : State) (q : Nat) : Option Succ := (s.q q).body.bind (·.succ)

/-- The body whose decision point has come in quarter q, on a word of opcode `op` (R60). -/
def State.deciding (s : State) (q op : Nat) : Option Body := (s.executing q op).filter s.decides

/-- The registers that a decision may write: the stacks, the deferred jump and FLAG as they are shown, and what a failed
check of the successor shows (R56, R64, R66 to R69, R89, R115). -/
def decisionRegs (q : Nat) : List Nat :=
  [R.QSEQ_STACK q, R.QSEQ_LOOP_L q, R.QSEQ_LOOP_H q, R.QSEQ_DEFER q, R.QSEQ_DEFER_OVR q, R.QSEQ_FLAG q,
    (F.QSEQ_FAULT_PC_FAULT_PC q).addr, R.QTS_ERR_TS q, (F.MEM_ERR_SEG_L_SEG_L q).addr, (F.MEM_ERR_SEG_H_SEG_H q).addr]

/-- What a decision of quarter q leaves alone: HBM, other registers, other quarters' sequencers and stream buffers, the
reports made before; and all the rest of the state but the control store, where a corrected word is written back. -/
def State.decisionFrame (s : State) (q : Nat) (t : State) : Prop :=
  s.regsKept (decisionRegs q) t ∧ (∀ k, k ≠ q → t.q k = s.q k ∧ t.m k = s.m k) ∧
    t.reported.take s.reported.length = s.reported ∧
    t = { s with regs := t.regs, copyB := t.copyB, copyC := t.copyC, qs := t.qs, qm := t.qm, reported := t.reported,
                 hostRc := t.hostRc, spx1Rc := t.spx1Rc, evcs := t.evcs, win := t.win, msgs := t.msgs }

/-- From `s` to `t` the decision of body `b` in quarter q selects the word at `a` (R60): the body is decided, and its
successor is that word, ready to start where it is intact, legal and plays the null segment; where it cannot be read
or parks nothing else is selected; an address past 0x3FFF parks at the welt with PC_OVF (R63). A word corrected at its
fetch is written back (R56). -/
def State.goes (s : State) (q : Nat) (b : Body) (a : Nat) (t : State) : Prop :=
  (t.q q).body = some { b with decided := true, succ := t.successor q } ∧
    (∀ v, t.successor q = some v → v.addr = a ∨ v.park = true) ∧
    (s.plainWord q a → (∃ v, t.successor q = some v ∧ v.addr = a ∧ v.park = false ∧ v.ready = true) ∧ s.memoryKept t ∧
      s.regsKept [R.QSEQ_STACK q, R.QSEQ_LOOP_L q, R.QSEQ_LOOP_H q, R.QSEQ_DEFER q, R.QSEQ_DEFER_OVR q, R.QSEQ_FLAG q] t) ∧
    (a ≤ 0x3FFF → checkMicro (s.csWord q a) = none → t.flagged (F.QSEQ_FAULT_CHK_UNCORR q) ∧
      ∀ v, t.successor q = some v → v.park = true) ∧
    (0x3FFF < a → (∃ v, t.successor q = some v ∧ v.park = true) ∧ t.flagged (F.QSEQ_FAULT_PC_OVF q)) ∧
    s.decisionFrame q t

/-- From `s` to `t` a stack fault of the word of body `b` in quarter q: its flag `f`, its CONTAINED event that parks at
the welt, FAULT_PC, and a successor that parks (R68, R69). -/
def State.stackFault (s : State) (q : Nat) (b : Body) (f : Fld) (t : State) : Prop :=
  t.flagged f ∧ t.fld (F.QSEQ_FAULT_PC_FAULT_PC q) = b.addr % 2 ^ (F.QSEQ_FAULT_PC_FAULT_PC q).w ∧
    { src := 0x100 + 16 * q, cls := 1, addr := b.addr, time := s.now, quarter := q, atWelt := true } ∈
      t.reported.drop s.reported.length ∧
    (t.q q).body = some { b with decided := true, succ := t.successor q } ∧
    (∃ u, t.successor q = some u ∧ u.park = true) ∧ s.decisionFrame q t ∧ s.memoryKept t

/-- Body `b` of quarter q is at its welt, played and decided, with no hold or parking due and no decode error in the data
that a cut left behind (R59, R61, R94). -/
structure State.AtWelt (s : State) (q : Nat) (b : Body) : Prop where
  body : (s.q q).body = some b
  run : s.qstate q = 1
  played : b.len ≤ b.played
  due : b.welt ≤ s.now
  decided : b.decided = true
  held : (s.q q).laceHeld = none
  park : (s.q q).parkDue = none
  tail : b.len < b.segLen → s.tailError q b b.welt = false

/-- From the state on, quarter q executes the body of the word at `a`, begun at `e`: its MARK bits show on the selected
balls from its pin time and DLY on (R127). -/
def State.executes (s : State) (q a e : Nat) : Prop :=
  s.qstate q = 1 ∧ s.fld (F.QSEQ_PC_PC q) = a % 2 ^ (F.QSEQ_PC_PC q).w ∧
    ∃ b, (s.q q).body = some b ∧ b.addr = a ∧ b.start = e ∧ b.played = 0 ∧
      ∀ n, n < 16 → (mwMark b.word).testBit n = true → (s.fld (F.MARK_SRC_QMASK n)).testBit q = true →
        s.bit F.FLT_CHIPST_SAFE = false → s.bit F.PWR_PAD_HOLD_HOLD = false →
        s.markBall n ((e + tPin) * 512 + s.fld (F.MARK_CFG_DLY n)) = true

/-! ### Time-interval units -/

/-- From `s` to `t` unit u meets an arm whose window opens at `opens` (R231): it arms, or the arm is refused with its
flag, its event and, where the unit and the ladder let it, a TIME record. -/
def State.arms (s : State) (u opens : Nat) (level : Bool) (t : State) : Prop :=
  s.memoryKept t ∧
    (if s.bit (F.TDC_CTRL_EN u) = false ∨ s.tdcState u ≠ 0 ∨ s.qstate (u / 4) = 9 ∨ s.chipFault = true then
      t.flagged (F.TDC_STAT_ARM_OVR u) ∧ s.regsKept [] t ∧ t.tdcs = s.tdcs ∧ t.reported = s.reported ∧ t.qr = s.qr
     else if s.tdcCfgOk u = false ∨ s.tdcReady u = false then
      t.flagged (if s.tdcCfgOk u = false then F.TDC_STAT_CFG_ERR u else F.TDC_STAT_NOT_READY u) ∧ s.regsKept [] t ∧
        t.tdcs = s.tdcs ∧ t.reported = s.reported ++ [s.plainEvent (0x10B + 16 * (u / 4)) u] ∧
        (if s.bit (F.TDC_CFG_REC_EN u) = true ∧ s.fld (F.QRES_LSTAT_LEVEL (u / 4)) < 3 then
          ∃ r, (t.r (u / 4)).waiting = (s.r (u / 4)).waiting ++ [r] ∧ r.type = 6 ∧ r.quarter = u / 4 ∧ r.dtime = s.now
         else t.qr = s.qr)
     else t.tdcState u = 1 ∧ t.tdc u = { opens := opens, level := level } ∧ s.regsKept [R.TDC_STATE u] t ∧
      t.reported = s.reported ∧ t.qr = s.qr ∧ ∀ k, k ≠ u → t.tdc k = s.tdc k)

/-- From `s` to `t` the open window of unit u closes at `c`, before its stops are taken (Table 10-3): the result is due
at the second granule boundary after it, with MISS_STOP or NO_START beside the flags `extra`; only the units' own
state changes. -/
def State.closesWindow (s : State) (u c extra : Nat) (rearm : Bool) (t : State) : Prop :=
  (t.tdc u).result = some (granuleNext c + 8) ∧ (t.tdc u).rearm = rearm ∧
    (t.tdc u).flags = (s.tdc u).flags ||| (extra + if s.tdcState u = 1 then 4 else 8) ∧
    (t.tdc u).start = (s.tdc u).start ∧ (t.tdc u).stops = (s.tdc u).stops ∧ ∀ k, k ≠ u → t.tdc k = s.tdc k

/-! ### Lace holds -/

/-- From `s` to `t` the HOLD (`type` 4) or RELEASE (5) that is due acts, with every other one of its effect time (R255,
R256): its key is set or removed; the first key stops the quarters that follow holds, the last one removed lets them
go on: a body from the granule in which it stopped, a stall or a start no earlier than the release (R74). -/
def State.keysTurn (s : State) (type : Nat) (t : State) : Prop :=
  (s.dueEffect [type] = none → t = s) ∧
  ∀ e, s.dueEffect [type] = some e →
    let same := s.lace.effects.filter fun x => (x.type = 4 || x.type = 5) && x.eff = e.eff
    t.lace.effects = s.lace.effects.filter (fun x => !((x.type = 4 || x.type = 5) && x.eff = e.eff)) ∧
    t.lace.keys = same.foldl keyStep s.lace.keys ∧
    (same = [e] → type = 4 → e.orig * 32 + e.arg % 32 ∉ s.lace.keys →
      t.lace.keys = s.lace.keys ++ [e.orig * 32 + e.arg % 32]) ∧
    (same = [e] → type = 5 → t.lace.keys = s.lace.keys.filter (· ≠ e.orig * 32 + e.arg % 32)) ∧
    t.fld F.LACE_HOLD_STAT_KEYS = min 127 t.lace.keys.length ∧ s.memoryKept t ∧
    (s.lace.keys = [] → t.lace.keys ≠ [] → ∀ q : Fin 16,
      (s.bit (F.QSEQ_CFG_LACE_HOLD_EN q) = false → t.q q = s.q q ∧ t.flagged (F.QSEQ_STAT_LACE_HOLD_IGN q)) ∧
      (s.bit (F.QSEQ_CFG_LACE_HOLD_EN q) = true → (s.q q).laceHeld = none →
        (1 ≤ s.qstate q ∧ s.qstate q ≤ 6) ∨ (s.qstate q = 10 ∧ (s.q q).startDue.isSome = true) →
        (t.q q).laceHeld = some e.eff ∧ (t.q q).heldState = s.qstate q)) ∧
    (s.lace.keys ≠ [] → t.lace.keys = [] → ∀ q : Fin 16,
      ((s.q q).heldStuck = true ∨ (s.q q).laceHeld = none → t.q q = s.q q) ∧
      (∀ t0, (s.q q).heldStuck = false → (s.q q).laceHeld = some t0 → (t.q q).laceHeld = none ∧
        (∀ b, (s.q q).body = some b → (t.q q).body = some { b with start := b.start + (e.eff - t0) } ∧
          (s.qstate q = 7 → t.qstate q = (s.q q).heldState)) ∧
        ((s.q q).body = none → (t.q q).startDue = (s.q q).startDue.map (max e.eff) ∧
          (t.q q).stall = (s.q q).stall.map fun y => { y with floor := max e.eff y.floor }))) ∧
    ((s.lace.keys = [] ↔ t.lace.keys = []) → t.qs = s.qs)

/-! ### Serial ports -/

/-- A flag of port n's STAT is set in both copies. -/
def State.portFlagged (s : State) (n bit : Nat) : Prop := s.flagged ⟨portBase n + 0x1C, bit, 1⟩

/-- From `s` to `t` the unit `u` of port n ends at `e` with `cnt` bits stored (R274, R275, R284): DONE or an error is due
at its boundary, an aborted unit shows ABORTED, the port is idle; HBM and the windows but the port's receive buffer
stay. -/
def State.unitEnds (s : State) (n e cnt : Nat) (err : Bool) (u : PortUnit) (t : State) : Prop :=
  (t.port n).unit = none ∧ (t.port n).dones = (s.port n).dones ++ [(granuleAt (e + 64), err || u.abort, cnt)] ∧
    fieldOf (portReg t n 0x1C) 12 2 = 0 ∧ (u.abort = true → t.portFlagged n 8) ∧ (∀ j, j ≠ n → t.port j = s.port j) ∧
    t.hbm = s.hbm ∧ ∀ a, a < 0x47000 ∨ 0x47100 ≤ a → a < portBase n + 0x1800 ∨ portBase n + 0x2000 ≤ a → t.winGet a = s.winGet a

/-- The first `k` of `bits` stand in port n's receive buffer, in the wire order of setup `u` from its offset (R267). -/
def State.received (s : State) (n : Nat) (u : List Word) (bits : List Bool) (k : Nat) : Prop :=
  ∀ i, i < k → (s.winGet (portBase n + 0x1800 + 4 * ((suField u 7 0 9 + i / 32) % 512))).getLsbD
    (if suField u 0 11 1 = 1 then i % 32 else 31 - i % 32) = bits.getD i false

/-- From `s` to `t` a sending data phase of unit `u` takes its dwords from TX (R269): as many as there are; a slave with
none sends BUSY_PAT with BUSYSENT, a phase that runs dry shows UNDERRUN. -/
def State.phaseSends (s : State) (n : Nat) (u : PortUnit) (t : State) : Prop :=
  let need := ceilDiv (suLen u.setup) 32
  let av := fieldOf (portReg s n 0x18) 0 10
  (t.port n).sent.length = need ∧
    (if u.slave = true ∧ av = 0 then fieldOf (portReg t n 0x18) 0 10 = 0 ∧ t.portFlagged n 2 ∧
      ∀ w ∈ (t.port n).sent, w = BitVec.ofNat 32 (fieldOf (portReg s n 0xC) 0 8 * 0x1010101)
     else fieldOf (portReg t n 0x18) 0 10 = av - min need (s.txHas n) ∧ (s.txHas n < need → t.portFlagged n 3) ∧
      ∀ i, i < min need (s.txHas n) → (t.port n).sent[i]? = some (s.txDword n u.setup i))

/-- The data phase of unit `u` runs dry: its TX had dwords, or it is a master's, and fewer than it sends (R269). -/
def State.runsDry (s : State) (n : Nat) (u : PortUnit) : Bool :=
  (u.slave = false || fieldOf (portReg s n 0x18) 0 10 ≠ 0) && s.txHas n < ceilDiv (suLen u.setup) 32

/-- From `s` to `t` SPX1 meets a command byte that cannot be: FRAME_ERR, its event, and the frame is ignored to the
release of the select (R279). Outside RUN the select's wake event acts too (R333). -/
def State.spxIgnored (s t : State) : Prop :=
  t.flagged F.SPX1_STAT_FRAME_ERR ∧ t.spx1.frame = 4 ∧ t.reads = s.reads ∧
    (s.pstate = 0 → s.bit F.PWR_STAT_ENTERING = false → t.reported = s.reported ++ [s.plainEvent 0x066 0] ∧
      s.regsKept [] t ∧ s.memoryKept t ∧ t.spx1 = { s.spx1 with frame := 4 })

/-! ### The boot -/

/-- From `s` to `t` the boot fails with `code` at section `sec` (R384): its FATAL event, BOOT_ERR, the pads held, and the
wait for an image, but for a failed training. -/
def State.bootFails (s : State) (code sec : Nat) (t : State) : Prop :=
  t.bit F.CHIP_BOOT_STAT_FAILED = true ∧ t.fld F.CHIP_BOOT_ERR_CODE = code ∧
    t.fld F.CHIP_BOOT_ERR_SEC = sec % 2 ^ (F.CHIP_BOOT_ERR_SEC).w ∧
    t.bit F.CHIP_BOOT_STAT_WAIT_IMAGE = (code ≠ 0x0B) ∧ t.boot.running = false ∧ t.bit F.PWR_PAD_HOLD_HOLD = true ∧
    (∃ e ∈ t.reported, e.src = 0x034 ∧ e.cls = 2 ∧ e.time = s.now) ∧ t.nvm.pages = s.nvm.pages

/-- From `s` to `t` the boot goes on to step `n` now (R380). -/
def State.bootsOn (s : State) (n : Nat) (t : State) : Prop :=
  t.bootStep = n ∧ t.boot.running = true ∧ t.boot.since = s.now ∧ t.boot.released = s.boot.released ∧ t.now = s.now

/-- From `s` to `t` the boot ends: STEP reads 13, BOOT_MS the time since the release of reset (R380). -/
def State.bootEnds (s t : State) : Prop :=
  t.bootStep = 13 ∧ t.boot.running = false ∧ t.reg R.CHIP_BOOT_MS = BitVec.ofNat 16 ((s.now - s.boot.released) / 640000)

/-! ### Resets -/

/-- `a` is an output code of a level of a powered quarter: a reset without loss of power does not set it, it slews
(Table 6-6). -/
def State.slewsOn (s : State) (a : Nat) : Bool := outReg a && s.quarterOn ((a - 0x100000) / 0x10000)

/-- From `s` to `t` the part is reset as a whole: every register is at its reset value, but for the step of the boot,
which starts at 1, and, with `power` kept, the levels, which slew; the NVM's pages stay, the link is down. -/
def State.resetAll (s : State) (kept : Bool) (t : State) : Prop :=
  (∀ a, a ≠ R.CHIP_BOOT_STAT → t.reg a = if kept = true ∧ s.slewsOn a = true then s.reg a else regReset a) ∧
    t.bootStep = 1 ∧ t.boot.running = true ∧ t.nvm.pages = s.nvm.pages ∧ t.linkUp = false ∧ t.hbm = [] ∧
    t.lace = {} ∧ t.qs = [] ∧ t.reported = []

end Sys2Proof.Machine
end

