-- ==== Sys2Proof/Certificates/Slice0/Obligations.lean ====
section
/-! DEFINITION. The statements for the provers, each about the block's state and one or a few commands; LAWS and tests
are beside them. -/

open Sys2Proof Sys2Proof.Machine

/-- For every command c and state s, a step of s with c at the front of its queue is exec of c on s with the queue's
rest. (R35.) -/
def Obligations.StepRunsFront : Prop :=
  ∀ (s : State) (c : Instr) (rest : List Instr), s.pending = c :: rest → step s = exec c { s with pending := rest }

/-- With an empty queue a step passes time: one PCLK of device time where the pattern clock runs and 640 elsewhere,
modulo 2^64, and nothing at all while the Shank has no clock. Where no host write waits for the memory pace, nothing
but time, that pace and the counted clock cycles changes. (That an idle step is a tick is the model's choice, log
entry 2.) (R10, R21.) -/
def Obligations.IdleStep : Prop :=
  ∀ s : State, s.pending = [] →
    (s.noClock = true → step s = .next s) ∧
    (s.noClock = false → ∃ t, step s = .next t ∧ t.now = (s.now + if s.patternClock = true then 1 else 640) % 2 ^ 64 ∧
      (s.heldHost = [] → State.eventsOnly { s with now := t.now, hostBudget := t.hostBudget } t ∧
        (s.patternClock = true → t.now % 64 ≠ 0 → t.hostBudget = s.hostBudget)))

/-- From every sound state, a step that answers a next state answers a sound one: HBM bytes, table windows, registers
with their second and third copies, both copies of the RC fields and every table of instances stay in canonical form,
and the HBM carried stays one of the two sizes of R83. (R33, R83.) -/
def Obligations.EveryStepKeepsSound : Prop :=
  ∀ s t : State, s.Sound → step s = .next t → t.Sound

/-- The state after power-on is sound and its memory lists nothing. (R8.) -/
def Obligations.ResetIsSound : Prop :=
  State.reset.Sound ∧ State.reset.memWf = true ∧ State.reset.hbm = [] ∧ State.reset.win = []

/-- From every sound state, whatever the command does, the commands behind it wait unchanged and in order. (R35.) -/
def Obligations.QueueFirstInFirstOut : Prop :=
  ∀ (s t : State) (c : Instr) (rest : List Instr), s.Sound → s.pending = c :: rest → step s = .next t →
    t.pending = rest

/-- After power-on every register outside the RC fields reads its reset column, RST_CAUSE shows the power-on cause to
both readers, the quarters are IDLE, no ring is on, no message was sent and the link is down. (Reserved bits read 0
and memory reads 0 by the model's choice, log entries 3 and 4.) (R8, R374, R397.) -/
def Obligations.ResetValues : Prop :=
  (∀ a, State.reset.reg a = regReset a) ∧ State.reset.rcHost 0x10 = 0x10 ∧ State.reset.rcSpx1 0x10 = 0x10 ∧
    (∀ a, a ≠ 0x10 → State.reset.rcHost a = 0 ∧ State.reset.rcSpx1 a = 0) ∧ State.reset.reg 0xC = 0xFFFF ∧
    (∀ q : Fin 16, State.reset.qstate q = 0) ∧ (∀ r, (State.reset.ring r).on = false) ∧ State.reset.linkUp = false ∧
    (∀ a, State.reset.hbmByte a = 0) ∧ State.reset.msgs = []

/-- Raising an RC field sets its bits in the host copy and in the SPX1 copy, clears no bit of either, and touches nothing
beyond RC fields, event counters and interrupt messages. (R36.) -/
def Obligations.EventsSetBothCopies : Prop :=
  ∀ (s : State) (f : Fld),
    (s.raise f).rcHost f.addr &&& fldMask f = fldMask f ∧ (s.raise f).rcSpx1 f.addr &&& fldMask f = fldMask f ∧
      (∀ a, s.rcHost a &&& (s.raise f).rcHost a = s.rcHost a ∧ s.rcSpx1 a &&& (s.raise f).rcSpx1 a = s.rcSpx1 a) ∧
      s.eventsOnly (s.raise f)

/-- A counted event of a source adds the increment, modulo 2^48, to every counter enabled on that source and to no other,
and keeps every base; without messages enabled nothing else is counted with it. (R45.) -/
def Obligations.CountersAdd : Prop :=
  ∀ (s : State) (src n : Nat) (i : Fin 64), s.bit F.HOST_IRQ_CFG_IRQ_EN = false →
    ((s.count src n).evc i = if i.val ∈ s.countersOn src then
      { s.evc i with count := ((s.evc i).count + n) % 2 ^ 48 } else s.evc i) ∧
      s.eventsOnly (s.count src n)

/-- A register reads what was last written to it and no write to another register changes it; while the copies agree, an
upset of any one copy leaves the value that a read returns. A write of some bits of a register changes these alone,
and brings its copies together in these alone. (R39.) -/
def Obligations.VotedCopies : Prop :=
  ∀ (s : State) (a b : Nat) (v m : Word) (k : Fin 3),
    (s.setReg a v).reg a = v ∧ (b ≠ a → (s.setReg a v).reg b = s.reg b) ∧
      (upset a k m (s.setReg a v)).reg a = v ∧ (b ≠ a → (upset a k m s).reg b = s.reg b) ∧
      (s.setBits a m v).reg a = (s.reg a &&& ~~~m) ||| (v &&& m) ∧ (b ≠ a → (s.setBits a m v).reg b = s.reg b) ∧
      tabGet (fun _ => 0) (s.setBits a m v).copyB a = tabGet (fun _ => 0) s.copyB a &&& ~~~m ∧
      tabGet (fun _ => 0) (s.setBits a m v).copyC a = tabGet (fun _ => 0) s.copyC a &&& ~~~m

/-- Where the fabric takes the write, CLR sets a counter's count and both bases to 0 and leaves every other counter, and
CLEAR_ALL does it for all; no register changes its value and, beside the host's own packets, nothing else is counted.
SNAP_NOW copies the count of every counter that takes part into its SNAP registers and sets SNAP_VALID for both
readers; no other register changes, and with messages off no count. (R45, R47.) -/
def Obligations.EventCountersClear : Prop :=
  ∀ (s : State) (m : Master),
    (∀ n : Fin 64, s.Takes m (R.EVC_SEL n) → ∃ t, exec (.evcClr m n) s = .next t ∧
      t.evc n = { count := 0, hostBase := 0, spx1Base := 0 } ∧ (∀ k, k ≠ n.val →
        t.evc k = (hostTlps m true s).evc k) ∧
      s.regsKept [] t ∧ t =
        { s.heard m true t with evcs := t.evcs, regs := t.regs, copyB := t.copyB, copyC := t.copyC }) ∧
    (s.Takes m R.EVC_CTRL → ∃ t, exec (.evcClearAll m) s = .next t ∧
      (∀ k, t.evc k = { count := 0, hostBase := 0, spx1Base := 0 }) ∧
      s.regsKept [] t ∧ t =
        { s.heard m true t with evcs := t.evcs, regs := t.regs, copyB := t.copyB, copyC := t.copyC }) ∧
    (s.Takes m R.EVC_CTRL → ∃ t, exec (.evcSnapNow m) s = .next t ∧
      (∀ n : Fin 64, s.bit (F.EVC_SEL_SNAP_EN n) = true →
        t.reg (R.EVC_SNAP_L n) = BitVec.ofNat 16 ((hostTlps m true s).evc n).count ∧
        t.reg (R.EVC_SNAP_M n) = BitVec.ofNat 16 (((hostTlps m true s).evc n).count / 2 ^ 16) ∧
        t.reg (R.EVC_SNAP_H n) = BitVec.ofNat 16 (((hostTlps m true s).evc n).count / 2 ^ 32) ∧
        t.flagged (F.EVC_STAT_SNAP_VALID n)) ∧
      (∀ a, (∀ n : Fin 64, s.bit (F.EVC_SEL_SNAP_EN n) = true →
        a ≠ R.EVC_SNAP_L n ∧ a ≠ R.EVC_SNAP_M n ∧ a ≠ R.EVC_SNAP_H n) → t.reg a = s.reg a) ∧
      (s.bit F.HOST_IRQ_CFG_IRQ_EN = false → t.evcs = (hostTlps m true s).evcs) ∧ s.memoryKept t ∧
          t = { s with
            regs := t.regs, copyB := t.copyB, copyC := t.copyC, hostRc := t.hostRc, spx1Rc := t.spx1Rc,
            cycle := t.cycle, win := t.win, msgs := t.msgs, evcs := t.evcs })

/-- A read of CNT_L answers the low half of the reader's count; for the host and SPX1 it latches the upper halves for
that reader, and with RDCLR rebases that reader. A latched read of any register answers its value and, for these two
readers, holds for the reader what the read latches; an address that holds nothing reads 0. A boot loader's,
sequencer's or calibration engine's read latches and rebases nothing. Other counters, HBM, registers and windows
stay. (R46, R36.) -/
def Obligations.LatchedReads : Prop :=
  ∀ (s : State) (m : Master),
    (∀ n : Fin 64, s.Serves m (R.EVC_CNT_L n) → ∃ t, exec (.evcCntLRead m n) s = .next t ∧
      t.reads = (BitVec.ofNat 16 ((hostTlps m false s).evcView m n)).setWidth 32 :: s.reads ∧
      (clears m = true →
        t.hold m (R.EVC_CNT_M n) = BitVec.ofNat 16 ((hostTlps m false s).evcView m n / 2 ^ 16) ∧
        t.hold m (R.EVC_CNT_H n) = BitVec.ofNat 16 ((hostTlps m false s).evcView m n / 2 ^ 32) ∧
        (s.bit (F.EVC_SEL_RDCLR n) = true → t.evcView m n = 0)) ∧
      (clears m = false → t.holdH = s.holdH ∧ t.holdS = s.holdS) ∧
      (t.evc n).count = ((hostTlps m false s).evc n).count ∧
      (clears m = false ∨ s.bit (F.EVC_SEL_RDCLR n) = false → t.evcs = (hostTlps m false s).evcs) ∧
      (∀ k, k ≠ n.val → t.evc k = (hostTlps m false s).evc k) ∧ s.memoryKept t ∧
      (s.spx1.cut = false → s.regsKept [] t)) ∧
    (∀ a r, rowOf a = some r → a % 4 = 0 → a < 2 ^ 24 → isWindow a = false → s.Serves m a →
      ∃ t, exec (.latchedRead m a) s = .next t ∧
        t.reads = ((hostTlps m false s).readValue m a r.rc).setWidth 32 :: s.reads ∧
        (∀ b, b ∈ latchedBy a → clears m = true → t.hold m b = (hostTlps m false s).latchValue m a b) ∧
        (clears m = false → t.holdH = s.holdH ∧ t.holdS = s.holdS) ∧
        s.memoryKept t ∧ (s.spx1.cut = false → s.regsKept [] t)) ∧
    (∀ a, a % 4 = 0 → a < 2 ^ 24 → mapped a = false → s.Serves m a → ∃ t, exec (.latchedRead m a) s = .next t ∧
      t.reads = 0 :: s.reads ∧ s.memoryKept t ∧ (s.spx1.cut = false → s.regsKept [] t)) ∧
    (∀ a, a % 4 = 0 → a < 2 ^ 24 → isWindow a = true → s.Serves m a → ∃ t, exec (.latchedRead m a) s = .next t ∧
      t.reads = (hostTlps m false s).winRead a :: s.reads ∧ s.memoryKept t ∧ (s.spx1.cut = false → s.regsKept [] t))

/-- A full write changes the masked writable bits of its register and nothing else (the marker registers as the group),
but for those that a master which ranks after its own has written in the same MCLK cycle; a write to a register with
no writable bit changes nothing. A write that does not enable all four bytes of a register, or to an address that
holds nothing, is discarded and reported with its address and master: no register, window or byte changes. (R33, R34,
R35, R5.) -/
def Obligations.MaskedWrites : Prop :=
  ∀ (s : State) (m : Master) (a : Nat) (mask data : Word),
    (∀ r, rowOf a = some r → 0x400 ≤ a → a < 0x480 → a % 4 = 0 → s.Serves m a → s.bootRefuses m a = false →
      s.capturer m a = none → ∃ t, exec (.registerWrite m a 0xF (mask ++ data)) s = .next t ∧
        t.reg a = (s.reg a &&& ~~~(mask &&& BitVec.ofNat 16 r.rw &&& ~~~s.outranked m a)) |||
          (data &&& (mask &&& BitVec.ofNat 16 r.rw &&& ~~~s.outranked m a)) ∧
        s.regsKept [a] t ∧ t = { s.heard m true t with regs := t.regs, copyB := t.copyB, copyC := t.copyC }) ∧
    (∀ r, rowOf a = some r → a % 4 = 0 → a < 2 ^ 24 → isWindow a = false → r.rw = 0 → r.wt = 0 → pstatOf a = none →
      txnUnitAt a = none → s.Takes m a → ∃ t, exec (.registerWrite m a 0xF (mask ++ data)) s = .next t ∧
        s.regsKept [] t ∧
        t = { s.heard m true t with regs := t.regs, copyB := t.copyB, copyC := t.copyC }) ∧
    (∀ be v, a % 4 = 0 → a < 2 ^ 24 → s.Serves m a → mapped a = false ∨ (isWindow a = false ∧ be ≠ 0xF) →
      ∃ t, exec (.registerWrite m a be v) s = .next t ∧
        t.reported = s.reported ++ [s.accessEvent 0x000 a m 2] ∧

          t = { s with
            hostRc := t.hostRc, spx1Rc := t.spx1Rc, win := t.win, msgs := t.msgs, evcs := t.evcs,
            reported := t.reported } ∧ s.memoryKept t)

/-- A write to a register of a posted block while BUSY = 0 waits, sets BUSY and changes no other register; while BUSY = 1
it is dropped and sets WRITE_LOST for both readers (the NVM, which drops writes during a STORE too, apart). A
delivery with nothing pending or with the clocks held does nothing; for the limits of a Supply Guard channel it
clears BUSY, changes the masked bits and empties the slot. (R37, R38, R34.) -/
def Obligations.PostedWriteRules : Prop :=
  ∀ (s : State) (m : Master) (a : Nat) (mask data : Word),
    (∀ r, rowOf a = some r → ∀ p, pstatOf a = some p → a % 4 = 0 → a < 2 ^ 24 → isWindow a = false → p ≠ R.NVM_PSTAT →
      s.Takes m a → ∃ t, exec (.registerWrite m a 0xF (mask ++ data)) s = .next t ∧
        (if s.busy p = true then t.rcHost p &&& 2 = 2 ∧ t.rcSpx1 p &&& 2 = 2 ∧ s.eventsOnly t
         else t.busy p = true ∧ tabGet (fun _ => none) t.posted p = some { addr := a, mask := mask, data := data } ∧
          s.regsKept [p] t ∧
          t = { s.heard m true t with regs := t.regs, copyB := t.copyB, copyC := t.copyC, posted := t.posted })) ∧
    (∀ p, s.bit F.CLK_STAT_HOLD = true ∨ tabGet (fun _ => none) s.posted p = none →
      exec (.postedWriteDelivery p) s = .next s) ∧
    (∀ n : Fin 64, a ∈ [R.SG_VLO n, R.SG_VHI n, R.SG_ILO n, R.SG_IHI n, R.SG_ICRIT n] →
      s.bit F.CLK_STAT_HOLD = false →
      (s.handedTo (R.SG_PSTAT n)).writes = [] →
      tabGet (fun _ => none) s.posted (R.SG_PSTAT n) = some { addr := a, mask := mask, data := data } →
      ∃ t, exec (.postedWriteDelivery (R.SG_PSTAT n)) s = .next t ∧ t.busy (R.SG_PSTAT n) = false ∧
        tabGet (fun _ => none) t.posted (R.SG_PSTAT n) = none ∧ t.reg a = (s.reg a &&& ~~~mask) ||| (data &&& mask) ∧
        s.regsKept [R.SG_PSTAT n, a] t ∧
        t = { s with regs := t.regs, copyB := t.copyB, copyC := t.copyC, posted := t.posted, handed := t.handed })

/-- A read of a register with RC fields answers the reader's copy of them (with the shown value of the others), clears
that reader's copy of that register only, and leaves the other reader's copies, every register, window and byte. A
boot loader's, sequencer's or calibration engine's read clears nothing. (R36.) -/
def Obligations.ReadsClearOneCopy : Prop :=
  ∀ (s : State) (m : Master) (a : Nat) (r : RegRow), rowOf a = some r → a % 4 = 0 → a < 2 ^ 24 → isWindow a = false →
    heldReg a = false → a ≠ R.FLT_FE_SRC → r.rc ≠ 0 → s.Serves m a → s.disagreements a = 0 →
    ∃ t, exec (.readClear m a) s = .next t ∧
      t.reads = (((hostTlps m false s).view m a &&& ~~~(BitVec.ofNat 16 r.rc)) |||
        ((if isSpx1 m then s.rcSpx1 a else (hostTlps m false s).rcHost a) &&& BitVec.ofNat 16 r.rc)).setWidth 32 ::
          s.reads ∧
      (∀ b, t.rcHost b = if m = .pcie ∧ b = a then 0 else (hostTlps m false s).rcHost b) ∧
      (∀ b, t.rcSpx1 b = if m = .spx1 ∧ b = a then 0 else (hostTlps m false s).rcSpx1 b) ∧
      t.win = (hostTlps m false s).win ∧ t.hbm = s.hbm ∧ t.reported = s.reported ∧
        t.msgs = (hostTlps m false s).msgs ∧
      (s.spx1.cut = false → t.regs = s.regs)

/-- A read of a register answers the majority of its copies, as the register shows it to the reader; each voted field
whose copies disagree gives one CORRECTED event of source 0x002, and the read repairs no copy. A window's word is
answered as it stands, and an address that holds nothing reads 0. (R39.) -/
def Obligations.VotedReads : Prop :=
  ∀ (s : State) (m : Master) (a : Nat), a % 4 = 0 → a < 2 ^ 24 → s.Serves m a →
    (∀ r, rowOf a = some r → isWindow a = false →
      ∃ t, exec (.votedFieldRead m a) s = .next t ∧
        t.reads = ((hostTlps m false s).readValue m a r.rc).setWidth 32 :: s.reads ∧
        (0x12000 ≤ a → a < 0x18000 → t.reads = (s.reg a).setWidth 32 :: s.reads) ∧
        t.reported = s.reported ++ List.replicate (s.disagreements a) (s.plainEvent 0x002 a) ∧
        (s.spx1.cut = false → t.regs = s.regs ∧ t.copyB = s.copyB ∧ t.copyC = s.copyC) ∧ s.memoryKept t) ∧
    (isWindow a = true → ∃ t, exec (.votedFieldRead m a) s = .next t ∧ t.reported = s.reported ∧
      t.reads = (hostTlps m false s).winRead a :: s.reads ∧ s.memoryKept t) ∧
    (mapped a = false → ∃ t, exec (.votedFieldRead m a) s = .next t ∧ t.reads = 0 :: s.reads ∧
      t.reported = s.reported ∧
      s.memoryKept t)

/-- A host write through BAR2 that the pace admits stores its bytes, as far as the capacity reaches, in ascending
addresses of HBM and no other byte; above the pace, or behind a held one, it waits in order; while a quarter runs, a
write outside every refill window stores nothing, sets BAR2_BLOCK and is reported; a boot refuses it with BUSY_REJ;
with no link, no fabric or no bytes nothing happens. A read answers the dwords stored, those beyond the capacity 0,
marked poisoned where the first unit has an uncorrectable error, and stores nothing. (R49, R85, R104, R210.) -/
def Obligations.HostMemoryWindow : Prop :=
  ∀ s : State,
    (∀ a bytes, s.fabricDown = true ∨ s.linkUp = false ∨ bytes = [] → exec (.bar2Write a bytes) s = .next s) ∧
    (∀ a bytes, s.fabricDown = false → s.linkUp = true → bytes ≠ [] →
      (s.bootBusy = true ∧ s.bit F.CHIP_BOOT_STAT_WAIT_IMAGE = false → ∃ t, exec (.bar2Write a bytes) s = .next t ∧
        t.flagged F.CHIP_BOOT_STAT_BUSY_REJ ∧ s.eventsOnly t) ∧
      (s.bootBusy = false ∨ s.bit F.CHIP_BOOT_STAT_WAIT_IMAGE = true →
        (s.capacity ≤ a → ∃ t, exec (.bar2Write a bytes) s = .next t ∧ s.eventsOnly t) ∧
        (a < s.capacity → s.allStopped = false → s.insideWindow a (a + bytes.length) = false →
          ∃ t, exec (.bar2Write a bytes) s = .next t ∧ t.flagged F.MEM_FAULT_BAR2_BLOCK ∧
            t.reported = s.reported ++ [s.accessEvent 0x032 (a / 64) .pcie 2] ∧ s.memoryKept t ∧
          t = { s with
            hostRc := t.hostRc, spx1Rc := t.spx1Rc, win := t.win, msgs := t.msgs, evcs := t.evcs,
            reported := t.reported }) ∧
        (a < s.capacity → s.allStopped = true ∨ s.insideWindow a (a + bytes.length) = true →
          ∃ t, exec (.bar2Write a bytes) s = .next t ∧
            (if s.heldHost = [] ∧ unitsOf a bytes.length ≤ s.hostBudget then
              (∀ i, (h : i < bytes.length) → a + i < s.capacity → t.hbmByte (a + i) = bytes[i]) ∧
              (∀ b, b < a ∨ a + bytes.length ≤ b ∨ s.capacity ≤ b → t.hbmByte b = s.hbmByte b) ∧
              t.hostBudget = s.hostBudget - unitsOf a bytes.length ∧
              (∀ b, b < 0x47000 ∨ 0x47100 ≤ b → t.winGet b = s.winGet b) ∧
          t = { s with
            hostRc := t.hostRc, spx1Rc := t.spx1Rc, win := t.win, hbm := t.hbm, msgs := t.msgs, evcs := t.evcs,
            hostBudget := t.hostBudget }
            else t.heldHost = s.heldHost ++ [.hbm a bytes] ∧ s.memoryKept t ∧
          t = { s with
            hostRc := t.hostRc, spx1Rc := t.spx1Rc, win := t.win, msgs := t.msgs, evcs := t.evcs,
            heldHost := t.heldHost })))) ∧
    (∀ a n ecc, (s.fabricDown = true → exec (.bar2Read a n ecc) s = .next s) ∧
      (s.fabricDown = false → ∃ t, exec (.bar2Read a n ecc) s = .next t ∧
        t.reads = ((List.range n).map fun i => if s.capacity ≤ a / 4 * 4 + 4 * i then 0
          else BitVec.ofNat 32 (s.behindHeld.hbmNat (a / 4 * 4 + 4 * i) 4)).reverse ++ s.reads ∧
        t.ep = (decide (ecc.val = 2) && decide (0 < n) && decide (a / 64 * 64 < s.capacity)) ∧ s.memoryKept t ∧
        (ecc.val = 0 → s.regsKept [] t ∧
          t = { s with
            hostRc := t.hostRc, spx1Rc := t.spx1Rc, win := t.win, msgs := t.msgs, reads := t.reads, ep := t.ep,
            evcs := t.evcs })))

/-- A Function Level Reset returns the MSI-X table and the configuration to reset, clears PUMP_EN and CB_BASE and sets
FLR_EVT, and leaves every ring and every other register; link down and link up set the link's state and link up the
configuration; PERST_N is the same reset as FLR, and with its wake event enabled and ending the state it is also
noted in WAKE_SRC. Clearing the mask of a vector, or of the function, sends the pending messages that no mask holds
back and clears their pending bits. Without power, or where the boot does not let the link train, nothing happens.
(That rings and CONS copies stay is the model's reading of R51 and R224.) (R51, R52, R224, R375.) -/
def Obligations.LinkEvents : Prop :=
  ∀ s : State,
    (s.fabricDown = true → exec .functionLevelReset s = .next s ∧ exec .linkDown s = .next s ∧
      exec (.msixVectorUnmask none) s = .next s) ∧
    (s.fabricDown = false → ∃ t, exec .functionLevelReset s = .next t ∧
      (∀ a, 0x48000 ≤ a → a < 0x50000 → t.winGet a = winReset a) ∧ t.pcie = {} ∧ t.bit F.RING_CTRL_PUMP_EN = false ∧
      t.fld F.RING_CB_BASE0_CB = 0 ∧ t.fld F.RING_CB_BASE1_CB = 0 ∧ t.fld F.RING_CB_BASE2_CB = 0 ∧
      t.fld F.RING_CB_BASE3_CB = 0 ∧ t.flagged F.HOST_LINK_STAT_FLR_EVT ∧
      s.regsKept [R.RING_CTRL, R.RING_CB_BASE0, R.RING_CB_BASE1, R.RING_CB_BASE2, R.RING_CB_BASE3] t ∧
      (∀ a, a < 0x47000 ∨ 0x50000 ≤ a → t.winGet a = s.winGet a) ∧
          t = { s with
            regs := t.regs, copyB := t.copyB, copyC := t.copyC, hostRc := t.hostRc, spx1Rc := t.spx1Rc,
            win := t.win, msgs := t.msgs, pcie := t.pcie, evcs := t.evcs }) ∧
    (s.fabricDown = false → ∃ t, exec .linkDown s = .next t ∧ (s.linkUp = false → t = s) ∧
      (s.linkUp = true → t.linkUp = false ∧ t.flagged F.HOST_LINK_STAT_LINK_DOWN_EVT ∧ s.memoryKept t ∧
          t = { s with
            hostRc := t.hostRc, spx1Rc := t.spx1Rc, win := t.win, msgs := t.msgs, linkUp := t.linkUp,
            evcs := t.evcs })) ∧
    (∀ speed width cfg, ∃ t, exec (.linkUp (speed, width) cfg) s = .next t ∧ (s.linkMay = false → t = s) ∧
      (s.linkMay = true → t.linkUp = true ∧ t.pcie = { s.pcie with cfg := cfg } ∧
        t.fld F.HOST_LINK_STAT_SPEED = speed ∧
        t.fld F.HOST_LINK_STAT_WIDTH = width ∧ s.regsKept [R.HOST_LINK_STAT] t ∧
          t = { s with
            regs := t.regs, copyB := t.copyB, copyC := t.copyC, hostRc := t.hostRc, spx1Rc := t.spx1Rc,
            win := t.win, msgs := t.msgs, linkUp := t.linkUp, pcie := t.pcie, evcs := t.evcs })) ∧
    ((s.reg R.PWR_WAKE_EN).getLsbD 6 = false → exec .perstN s = exec .functionLevelReset s) ∧
    (∃ t, exec .perstN s = .next t ∧ (s.fabricDown = false → t.bit F.RING_CTRL_PUMP_EN = false ∧
        t.flagged F.HOST_LINK_STAT_FLR_EVT ∧ ∀ a, 0x48000 ≤ a → a < 0x50000 → t.winGet a = winReset a) ∧
      ((s.reg R.PWR_WAKE_EN).getLsbD 6 = true →
        wakeEnds 6 (if s.bit F.PWR_STAT_ENTERING = true then s.pwr.target else s.pstate) = true →
        t.rcHost R.PWR_WAKE_SRC &&& 0x40 = 0x40 ∧ t.rcSpx1 R.PWR_WAKE_SRC &&& 0x40 = 0x40)) ∧
    (∀ w : Fin 2048, s.Serves .pcie (0x48000 + 16 * w.val + 12) →
      s.bootRefuses .pcie (0x48000 + 16 * w.val + 12) = false →
      ∃ t, exec (.msixVectorUnmask (some w)) s = .next t ∧ (t.winGet (0x48000 + 16 * w.val + 12)).getLsbD 0 = false ∧
        (∀ a, a ≠ 0x48000 + 16 * w.val + 12 → a < 0x47000 ∨ 0x47100 ≤ a → t.winGet a = s.winGet a) ∧ s.regsKept [] t ∧
        ((s.winGet (0x48000 + 16 * w.val + 12)).getLsbD 0 = true → s.pcie.cfg.msixEnable = true →
          s.pcie.cfg.functionMask = false → (s.winGet (0x47000 + w.val / 32 * 4)).getLsbD (w.val % 32) = true →
          w.val ∈ t.msgs.drop s.msgs.length ∧
          (s.bit F.HOST_IRQ_CFG_IRQ_EN = false → t.msgs = s.msgs ++ [w.val] ∧
            (t.winGet (0x47000 + w.val / 32 * 4)).getLsbD (w.val % 32) = false))) ∧
    (s.fabricDown = false → ∃ t, exec (.msixVectorUnmask none) s = .next t ∧ t.pcie.cfg.functionMask = false ∧
      s.regsKept [] t ∧ (∀ a, a < 0x47000 ∨ 0x47100 ≤ a → t.winGet a = s.winGet a) ∧
      (s.pcie.cfg.msixEnable = true → ∀ w : Fin 2048,
        (s.winGet (0x47000 + w.val / 32 * 4)).getLsbD (w.val % 32) = true →
        (s.winGet (0x48000 + 16 * w.val + 12)).getLsbD 0 = false → w.val ∈ t.msgs.drop s.msgs.length) ∧

          t = { s with
            hostRc := t.hostRc, spx1Rc := t.spx1Rc, win := t.win, msgs := t.msgs, pcie := t.pcie, evcs := t.evcs })

/-- An access that finds no answer is counted and reported as CONTAINED with its address and master, a read answers 0,
and one behind a gate also counts in DEFER_CNT and sets GATE_TMO. An access to a quarter whose domain is off waits in
order and wakes the quarter; while an entry or exit runs it ends with an error, ACC_REJ and a CORRECTED event, a read
answering 0; where the quarter is on, or the address lies in none, this is not that event. (R50, R321, R331, R335.) -/
def Obligations.AccessesThatWait : Prop :=
  ∀ (s : State) (m : Master) (a : Nat) (write : Bool),
    (∃ t, exec (.fabricAccessTimeout m write false a) s = .next t ∧
      t.reported = s.reported ++ [s.accessEvent 0x001 (busAddr a) m (if write then 2 else 1)] ∧
      t.reads = (if write then s.reads else 0 :: s.reads) ∧ s.memoryKept t ∧
          t = { s with
            hostRc := t.hostRc, spx1Rc := t.spx1Rc, win := t.win, msgs := t.msgs, reads := t.reads,
            evcs := t.evcs, reported := t.reported }) ∧
    (∃ t, exec (.fabricAccessTimeout m write true a) s = .next t ∧
      t.reported = s.reported ++ [s.accessEvent 0x016 (busAddr a) m (if write then 2 else 1)] ∧
      t.fld F.CLK_DEFER_CNT_CNT = min (s.fld F.CLK_DEFER_CNT_CNT + 1) (2 ^ F.CLK_DEFER_CNT_CNT.w - 1) ∧
      t.flagged F.CLK_EVT_GATE_TMO ∧
      s.regsKept [R.CLK_DEFER_CNT] t ∧ s.memoryKept t) ∧
    (∀ (be : BitVec 4) (v : Dword),
      (addrQuarter (busAddr a) = none → exec (.quarterWake m write a be v) s = .next s) ∧
      (∀ q : Fin 16, addrQuarter (busAddr a) = some q.val →
        (s.quarterOn q = true → exec (.quarterWake m write a be v) s = .next s) ∧
        (s.quarterOn q = false → s.fabricDown = false → s.bit F.CLK_STAT_HOLD = false → s.mustWait m = false →
          s.pstate ≠ 3 ∨ s.centralOff = false → write = false ∨ s.discards m (busAddr a) be = false →
          ∃ t, exec (.quarterWake m write a be v) s = .next t ∧ s.memoryKept t ∧
            (if s.inTransit = true then
              t.flagged F.PWR_STAT_ACC_REJ ∧ t.reads = (if write then s.reads else 0 :: s.reads) ∧
              t.reported = s.reported ++ [s.accessEvent 0x023 (busAddr a) m (if write then 2 else 1)] ∧ t.pwr = s.pwr
             else
              t.pwr.stalled = s.pwr.stalled ++
                [{ master := m, write := write, addr := busAddr a, data := if write then v else 0, be := if write then be else 0xF, since := s.now }] ∧
              (∃ e, e ∈ t.pwr.waking ∧ e.1 = q.val) ∧ t = { hostTlps m write s with pwr := t.pwr }))))

/-- BEGIN opens an idle unit, or an aborted one of the same owner, for its master with an empty queue, and COMMIT arms an
open one of its owner with an allowed CMODE (the one written with it, or the one held) and takes the site changes it
names; anywhere else the unit refuses, sets REFUSED and stays as it is. ROLLBACK discards the owner's queue and does
nothing when idle. A sequencer's or the calibration engine's writes change nothing. Other units stay. (R41, R42,
R14.) -/
def Obligations.TransactionCommands : Prop :=
  ∀ (s : State) (m : Master) (u : Fin 17), s.Serves m (txnBase u) → s.bootRefuses m (txnBase u) = false →
    s.capturer m (txnBase u) = none →
    (ownerCode m = 0 → exec (.txnBegin m u) s = .next s ∧ exec (.txnRollback m u) s = .next s ∧
      ∀ c l, exec (.txnCommit m u (c, l)) s = .next s) ∧
    (ownerCode m ≠ 0 → ∃ t, exec (.txnBegin m u) s = .next t ∧
      (if txnState s u = 0 ∨ (txnState s u = 3 ∧ txnOwner s u = ownerCode m) then
        txnState t u = 1 ∧ txnOwner t u = ownerCode m ∧ (t.txn u).queue = [] ∧ t.reg (txnBase u + 12) = 0
      else t.reg (txnBase u + 8) = s.reg (txnBase u + 8) ∧ t.txns = s.txns ∧
        t.rcHost (txnBase u + 8) &&& 0x100 = 0x100) ∧
      s.regsKept [txnBase u + 8, txnBase u + 12] t ∧ (∀ k, k ≠ u.val → t.txn k = s.txn k) ∧ s.memoryKept t ∧

          t = { s with
            regs := t.regs, copyB := t.copyB, copyC := t.copyC, hostRc := t.hostRc, spx1Rc := t.spx1Rc,
            win := t.win, msgs := t.msgs, evcs := t.evcs, txns := t.txns }) ∧
    (∀ (c : Option (Fin 8)) (l : List (Fin 64 × Option (Fin 8))), ownerCode m ≠ 0 →
      let v := match c with
        | some k => k.val
        | none => fieldOf (s.reg (txnBase u)) 4 3
      ∃ t, exec (.txnCommit m u (c, l)) s = .next t ∧ fieldOf (t.reg (txnBase u)) 4 3 = v ∧
        (if txnState s u = 1 ∧ txnOwner s u = ownerCode m ∧ cmodeOk u v = true then
          txnState t u = 2 ∧ txnOwner t u = ownerCode m ∧ (t.txn u).queue = (s.txn u).queue ∧ (t.txn u).cmode = v ∧
            (t.txn u).mark = (s.reg (txnBase u + 4)).toNat ∧
            (l ≠ [] → (t.txn u).sites = l.map fun e => (e.1.val, e.2.map (·.val)))
        else t.reg (txnBase u + 8) = s.reg (txnBase u + 8) ∧ t.txns = s.txns ∧
          t.rcHost (txnBase u + 8) &&& 0x100 = 0x100) ∧
        s.regsKept [txnBase u, txnBase u + 8] t ∧ (∀ k, k ≠ u.val → t.txn k = s.txn k) ∧ s.memoryKept t ∧

          t = { s with
            regs := t.regs, copyB := t.copyB, copyC := t.copyC, hostRc := t.hostRc, spx1Rc := t.spx1Rc,
            win := t.win, msgs := t.msgs, evcs := t.evcs, txns := t.txns }) ∧
    (ownerCode m ≠ 0 → ∃ t, exec (.txnRollback m u) s = .next t ∧
      (if txnState s u = 0 then s.regsKept [] t ∧ t.txns = s.txns
      else if txnOwner s u ≠ ownerCode m then s.regsKept [] t ∧ t.txns = s.txns ∧
        t.rcHost (txnBase u + 8) &&& 0x100 = 0x100
      else txnState t u = 0 ∧ (t.txn u).queue = [] ∧ t.reg (txnBase u + 12) = 0 ∧
        t.rcHost (txnBase u + 8) &&& 0x40 = 0x40) ∧
      s.regsKept [txnBase u + 8, txnBase u + 12] t ∧ (∀ k, k ≠ u.val → t.txn k = s.txn k) ∧ s.memoryKept t ∧

          t = { s with
            regs := t.regs, copyB := t.copyB, copyC := t.copyC, hostRc := t.hostRc, spx1Rc := t.spx1Rc,
            win := t.win, msgs := t.msgs, evcs := t.evcs, txns := t.txns })

/-- A write in the scope of an open unit from its owner is queued and not applied; the 1,025th discards the queue and
aborts the unit with OVERFLOW; one while PENDING is discarded with LATE_WRITE, and one while ABORTED is discarded.
(R40, R41, R44.) -/
def Obligations.CapturedWrites : Prop :=
  ∀ (s : State) (m : Master) (a : Nat) (u : Fin 17) (mask data : Word) (r : RegRow),
    rowOf a = some r → s.Serves m a → s.bootRefuses m a = false → a % 4 = 0 → a < 2 ^ 24 → isWindow a = false →
    txnUnitAt a = none → s.capturer m a = some u.val →
    ∃ t, exec (.registerWrite m a 0xF (mask ++ data)) s = .next t ∧
      (txnState s u = 1 → (s.txn u).queue.length < 1024 →
        (t.txn u).queue = (s.txn u).queue ++ [{ addr := a, mask := mask, data := data }] ∧
        t.reg (txnBase u + 12) = BitVec.ofNat 16 ((s.txn u).queue.length + 1) ∧ s.regsKept [txnBase u + 12] t) ∧
      (txnState s u = 1 → 1024 ≤ (s.txn u).queue.length →
        (t.txn u).queue = [] ∧ txnState t u = 3 ∧ t.rcHost (txnBase u + 8) &&& 0x80 = 0x80) ∧
      (txnState s u = 2 → t.txns = s.txns ∧ s.regsKept [] t ∧ t.rcHost (txnBase u + 8) &&& 0x200 = 0x200) ∧
      (txnState s u = 3 → s.eventsOnly t) ∧
      (∀ k, k ≠ u.val → t.txn k = s.txn k) ∧
      s.regsKept [txnBase u + 8, txnBase u + 12] t ∧ s.memoryKept t ∧
          t = { s with
            regs := t.regs, copyB := t.copyB, copyC := t.copyC, hostRc := t.hostRc, spx1Rc := t.spx1Rc,
            win := t.win, msgs := t.msgs, evcs := t.evcs, txns := t.txns }

/-- At its moment a pending unit applies its queue (here, for the chip's unit, one write to a marker register), sets
COMMITTED, records the device time in CTIME and returns to IDLE with an empty queue; before its moment, and while the
clocks are held, nothing happens. Writes handed to a posted block take effect at the first ACLK edge after it is free
(here one write to a limit of a Supply Guard channel), and not before. (R41, R43, R299.) -/
def Obligations.CommitApplies : Prop :=
  ∀ s : State,
    (∀ u : Fin 17, (s.bit F.CLK_STAT_HOLD = true ∨ s.commitDue u = none → exec (.txnCommitMoment u) s = .next s) ∧
      (∀ e, s.commitDue u = some e → s.bit F.CLK_STAT_HOLD = false → ∃ t, exec (.txnCommitMoment u) s = .next t ∧
        txnState t u = 0 ∧ (t.txn u).queue = [] ∧ t.rcHost (txnBase u + 8) &&& 0x20 = 0x20 ∧
        t.rcSpx1 (txnBase u + 8) &&& 0x20 = 0x20 ∧
        t.reg (txnBase u + 16) = BitVec.ofNat 16 e ∧ t.reg (txnBase u + 20) = BitVec.ofNat 16 (e / 2 ^ 16) ∧
        t.reg (txnBase u + 24) = BitVec.ofNat 16 (e / 2 ^ 32) ∧
          t.reg (txnBase u + 28) = BitVec.ofNat 16 (e / 2 ^ 48) ∧
        (∀ k, k ≠ u.val → t.txn k = s.txn k) ∧
        (∀ w, (s.txn 16).queue = [w] → ∀ r, rowOf w.addr = some r → u.val = 16 → 0x400 ≤ w.addr → w.addr < 0x480 →
          w.addr % 4 = 0 →
          t.reg w.addr =
            (s.reg w.addr &&& ~~~(w.mask &&& BitVec.ofNat 16 r.rw)) ||| (w.data &&& (w.mask &&& BitVec.ofNat 16
              r.rw)) ∧
          s.regsKept [w.addr, 0x6C008, 0x6C00C, 0x6C010, 0x6C014, 0x6C018, 0x6C01C] t ∧ s.memoryKept t))) ∧
    (∀ p, s.bit F.CLK_STAT_HOLD = true ∨ (s.handedTo p).writes = [] ∨ (s.handedTo p).behind = true ∨ s.now <
      (s.handedTo p).due →
      exec (.txnDeferredPostedApply p) s = .next s) ∧
    (∀ (w : PendWrite) (n : Fin 64), w.addr = R.SG_VHI n → (s.handedTo (R.SG_PSTAT n)).writes = [w] →
      s.bit F.CLK_STAT_HOLD = false → (s.handedTo (R.SG_PSTAT n)).behind = false →
      (s.handedTo (R.SG_PSTAT n)).due ≤ s.now →
      ∃ t, exec (.txnDeferredPostedApply (R.SG_PSTAT n)) s = .next t ∧
        t.reg w.addr = (s.reg w.addr &&& ~~~w.mask) ||| (w.data &&& w.mask) ∧
        (t.handedTo (R.SG_PSTAT n)).writes = [] ∧ s.regsKept [w.addr] t ∧
        t = { s with regs := t.regs, copyB := t.copyB, copyC := t.copyC, handed := t.handed })

/-- Before its decision point, or while the quarter does not execute it, a word does nothing. At it, NEXT selects PC + 1
and JMP selects TGT; JCOND selects TGT where its condition holds (ALWAYS; a set latch, which it consumes; LAST, with
an empty loop stack too; NOT_LAST) and PC + 1 elsewhere; with a deferred jump pending each selects its target and no
latch is consumed. The stacks stay, and only the sequencer's own registers change. (R60, R62, R63, R65, R66.) -/
def Obligations.FlowWords : Prop :=
  ∀ (s : State) (q : Fin 16),
    let count := (s.q q).loopStack.head?.map (·.2)
    (∃ t, exec (.next q) s = .next t ∧ (s.deciding q 0x01 = none → t = s) ∧
      ∀ b, s.deciding q 0x01 = some b → s.goes q b ((s.deferred q).getD (b.addr + 1)) t ∧
        (t.q q).callStack = (s.q q).callStack ∧ (t.q q).loopStack = (s.q q).loopStack ∧
          (t.q q).latch = (s.q q).latch) ∧
    (∃ t, exec (.jmp q) s = .next t ∧ (s.deciding q 0x02 = none → t = s) ∧
      ∀ b, s.deciding q 0x02 = some b → s.goes q b ((s.deferred q).getD (mwTgt b.word)) t ∧
        (t.q q).callStack = (s.q q).callStack ∧ (t.q q).loopStack = (s.q q).loopStack ∧
          (t.q q).latch = (s.q q).latch) ∧
    (∃ t, exec (.jcond q) s = .next t ∧ (s.deciding q 0x03 = none → t = s) ∧
      ∀ b, s.deciding q 0x03 = some b →
        (t.q q).callStack = (s.q q).callStack ∧ (t.q q).loopStack = (s.q q).loopStack ∧
        (∀ a, s.deferred q = some a → s.goes q b a t ∧ (t.q q).latch = (s.q q).latch) ∧
        (s.deferred q = none →
          (mwCond b.word = 0 → s.goes q b (mwTgt b.word) t) ∧
          (mwCond b.word = 1 → s.goes q b (b.addr + 1) t) ∧
          (mwCond b.word = 2 → if s.latched q (mwTrg b.word) = true
            then s.goes q b (mwTgt b.word) t ∧ t.latched q (mwTrg b.word) = false
            else s.goes q b (b.addr + 1) t) ∧
          (mwCond b.word = 3 → s.goes q b (if count.getD 1 = 1 then mwTgt b.word else b.addr + 1) t) ∧
          (mwCond b.word = 4 → s.goes q b (if 1 < count.getD 0 then mwTgt b.word else b.addr + 1) t) ∧
          (mwCond b.word ≠ 2 → (t.q q).latch = (s.q q).latch)))

/-- Before their decision points CALL and RET do nothing. CALL pushes PC + 1 on fewer than 8 return addresses and goes to
TGT; RET pops one and goes there. A CALL at depth 8 sets CALL_OVF and a RET at depth 0 sets CALL_UNF; both are
reported as CONTAINED events of the quarter, and the quarter parks at the welt of the failing word. (What a pending
deferred jump changes is stated with it.) (R68.) -/
def Obligations.CallStack : Prop :=
  ∀ (s : State) (q : Fin 16),
    (∃ t, exec (.call q) s = .next t ∧ (s.deciding q 0x04 = none → t = s) ∧
      ∀ b, s.deciding q 0x04 = some b → s.deferred q = none →
        (if (s.q q).callStack.length < 8 then
          (t.q q).callStack = (b.addr + 1) :: (s.q q).callStack ∧ s.goes q b (mwTgt b.word) t ∧
          t.reg (R.QSEQ_STACK q) = BitVec.ofNat 16 ((s.q q).callStack.length + 1 + 16 * (s.q q).loopStack.length)
         else s.stackFault q b (F.QSEQ_FAULT_CALL_OVF q) t ∧ (t.q q).callStack = (s.q q).callStack) ∧
        (t.q q).loopStack = (s.q q).loopStack ∧ (t.q q).latch = (s.q q).latch) ∧
    (∃ t, exec (.ret q) s = .next t ∧ (s.deciding q 0x05 = none → t = s) ∧
      ∀ b, s.deciding q 0x05 = some b → s.deferred q = none →
        (∀ a, (s.q q).callStack.head? = some a → s.goes q b a t) ∧
        ((s.q q).callStack = [] → s.stackFault q b (F.QSEQ_FAULT_CALL_UNF q) t) ∧
        (t.q q).callStack = (s.q q).callStack.drop 1 ∧ (t.q q).loopStack = (s.q q).loopStack ∧
        (t.q q).latch = (s.q q).latch) ∧
    (∀ b u, s.AtWelt q b → mwOp b.word = 0x04 ∨ mwOp b.word = 0x05 → b.succ = some u → u.park = true →
      (s.q q).stopReq = false →
      ∃ t, exec (.welt q) s = .next t ∧ t.qstate q = 9 ∧ (t.q q).body = none ∧
        t.flagged (F.QSEQ_STAT_PARK_EVT q))

/-- Before their decision points LOOPB and LOOPE do nothing. LOOPB pushes the address behind it with its count and goes
there, so that the body of the loop runs CNT times; LOOPE goes back with the count one less while more than one is
left, and drops the frame and goes on at the last. A LOOPB at depth 4 and a LOOPE at depth 0 are faults. The call
stack and the latches stay. (R69, R62.) -/
def Obligations.LoopStack : Prop :=
  ∀ (s : State) (q : Fin 16),
    (∃ t, exec (.loopb q) s = .next t ∧ (s.deciding q 0x06 = none → t = s) ∧
      ∀ b, s.deciding q 0x06 = some b → s.deferred q = none →
        (if (s.q q).loopStack.length < 4 then
          (t.q q).loopStack = (b.addr + 1, mwCnt b.word) :: (s.q q).loopStack ∧ s.goes q b (b.addr + 1) t ∧
          t.reg (R.QSEQ_STACK q) = BitVec.ofNat 16 ((s.q q).callStack.length + 16 * ((s.q q).loopStack.length + 1)) ∧
          t.reg (R.QSEQ_LOOP_L q) = BitVec.ofNat 16 (mwCnt b.word) ∧
          t.reg (R.QSEQ_LOOP_H q) = BitVec.ofNat 16 (mwCnt b.word / 2 ^ 16)
         else s.stackFault q b (F.QSEQ_FAULT_LOOP_OVF q) t ∧ (t.q q).loopStack = (s.q q).loopStack) ∧
        (t.q q).callStack = (s.q q).callStack ∧ (t.q q).latch = (s.q q).latch) ∧
    (∃ t, exec (.loope q) s = .next t ∧ (s.deciding q 0x07 = none → t = s) ∧
      ∀ b, s.deciding q 0x07 = some b → s.deferred q = none →
        (∀ f, (s.q q).loopStack.head? = some f →
          (1 < f.2 → (t.q q).loopStack = (f.1, f.2 - 1) :: (s.q q).loopStack.drop 1 ∧ s.goes q b f.1 t) ∧
          (f.2 ≤ 1 → (t.q q).loopStack = (s.q q).loopStack.drop 1 ∧ s.goes q b (b.addr + 1) t)) ∧
        ((s.q q).loopStack = [] → s.stackFault q b (F.QSEQ_FAULT_LOOP_UNF q) t ∧ (t.q q).loopStack = []) ∧
        (t.q q).callStack = (s.q q).callStack ∧ (t.q q).latch = (s.q q).latch)

/-- With a deferred jump pending, the next decision goes to its target and clears it: RET and LOOPE still pop (an empty
stack is their fault), CALL and LOOPB push nothing, a JCOND whose own condition holds counts in DEFER_OVR and leaves
its latch. HALT drops it with DEFER_DROP. A latch that sets in the late window of a JCOND on it is consumed and
counted, and becomes the pending jump: at once where the word has decided, with its decision elsewhere. (R66, R67.) -/
def Obligations.DeferredJumps : Prop :=
  ∀ (s : State) (q : Fin 16),
    let count := (s.q q).loopStack.head?.map (·.2)
    (∀ tgt, s.deferred q = some tgt →
      (∀ b, s.deciding q 0x03 = some b → ∃ t, exec (.jcond q) s = .next t ∧ s.goes q b tgt t ∧
        (b.lateTgt = none → t.deferred q = none) ∧ (∀ a, b.lateTgt = some a → a ≤ 0x3FFF → t.deferred q = some a) ∧
        t.fld (F.QSEQ_DEFER_OVR_DEFER_OVR q) =
          if mwCond b.word = 0 ∨ (mwCond b.word = 2 ∧ s.latched q (mwTrg b.word) = true) ∨
              (mwCond b.word = 3 ∧ count.getD 1 = 1) ∨ (mwCond b.word = 4 ∧ 1 < count.getD 0)
          then min (s.fld (F.QSEQ_DEFER_OVR_DEFER_OVR q) + 1) (2 ^ (F.QSEQ_DEFER_OVR_DEFER_OVR q).w - 1)
          else s.fld (F.QSEQ_DEFER_OVR_DEFER_OVR q)) ∧
      (∀ b, s.deciding q 0x04 = some b → ∃ t, exec (.call q) s = .next t ∧ s.goes q b tgt t ∧
        (t.q q).callStack = (s.q q).callStack ∧ (b.lateTgt = none → t.deferred q = none)) ∧
      (∀ b, s.deciding q 0x05 = some b → ∃ t, exec (.ret q) s = .next t ∧
        (t.q q).callStack = (s.q q).callStack.drop 1 ∧ (b.lateTgt = none → t.deferred q = none) ∧
        if (s.q q).callStack = [] then s.stackFault q b (F.QSEQ_FAULT_CALL_UNF q) t else s.goes q b tgt t) ∧
      (∀ b, s.deciding q 0x06 = some b → ∃ t, exec (.loopb q) s = .next t ∧ s.goes q b tgt t ∧
        (t.q q).loopStack = (s.q q).loopStack ∧ (b.lateTgt = none → t.deferred q = none)) ∧
      (∀ b, s.deciding q 0x07 = some b → ∃ t, exec (.loope q) s = .next t ∧
        (t.q q).loopStack = (s.q q).loopStack.drop 1 ∧ (b.lateTgt = none → t.deferred q = none) ∧
        if (s.q q).loopStack = [] then s.stackFault q b (F.QSEQ_FAULT_LOOP_UNF q) t else s.goes q b tgt t)) ∧
    (∃ t, exec (.halt q) s = .next t ∧ (s.deciding q 0x10 = none → t = s) ∧
      ∀ b, s.deciding q 0x10 = some b → t.deferred q = none ∧ (t.q q).body = some { b with decided := true } ∧
        ((s.deferred q).isSome = true → t.flagged (F.QSEQ_STAT_DEFER_DROP q)) ∧ s.regsKept [R.QSEQ_DEFER q] t ∧
        (∀ k, k ≠ q.val → t.q k = s.q k) ∧
          t = { s with
            regs := t.regs, copyB := t.copyB, copyC := t.copyC, hostRc := t.hostRc, spx1Rc := t.spx1Rc,
            win := t.win, msgs := t.msgs, evcs := t.evcs, qs := t.qs } ∧ s.memoryKept t) ∧
    (∀ (trg : Fin 256) (b : Body), 1 ≤ trg.val → trg.val ≤ 0x18 → (s.q q).body = some b → s.latched q trg = false →
      mwOp b.word = 0x03 → mwCond b.word = 2 → mwTrg b.word = trg.val → s.inLateWindow q b = true →
      ∃ t, exec (.triggerLatchSet trg) s = .next t ∧ t.latched q trg = false ∧
        (if b.decided = true then t.deferred q = some (mwTgt b.word % 2 ^ 14) ∧ (t.q q).body = some b
         else t.deferred q = s.deferred q ∧ (t.q q).body = some { b with lateTgt := some (mwTgt b.word) }) ∧
        t.fld (F.QSEQ_LATE_LATE_CNT q) =
          min (s.fld (F.QSEQ_LATE_LATE_CNT q) + 1) (2 ^ (F.QSEQ_LATE_LATE_CNT q).w - 1))

/-- Before their decision points these words do nothing. WAITTRG whose latch was set before it consumes it and selects PC
+ 1, or the target of a pending deferred jump, and WAITMARK does so where a known mark takes effect at its welt;
otherwise, and always for HOLD and SYNC, the word selects nothing and will stall. SYNC sends its mark for its
decision point, or without a ring sets SYNC_LOCAL. (R67, R71, R72, R73, R408.) -/
def Obligations.ElasticWords : Prop :=
  ∀ (s : State) (q : Fin 16),
    (∃ t, exec (.waittrg q) s = .next t ∧ (s.deciding q 0x08 = none → t = s) ∧
      ∀ b, s.deciding q 0x08 = some b →
        (s.latchedBefore q (mwTrg b.word) b.decision = true → s.goes q b ((s.deferred q).getD (b.addr + 1)) t ∧
          (t.successor q).isSome = true ∧ t.latched q (mwTrg b.word) = false) ∧
        (s.latchedBefore q (mwTrg b.word) b.decision = false → t = { s with qs := t.qs } ∧
          (t.q q).body = some { b with decided := true } ∧ (t.q q).latch = (s.q q).latch ∧ ∀ k, k ≠ q.val →
            t.q k = s.q k)) ∧
    (∃ t, exec (.waitmark q) s = .next t ∧ (s.deciding q 0x09 = none → t = s) ∧
      ∀ b, s.deciding q 0x09 = some b →
        (s.markAfter q (mwCnt b.word % 2 ^ 16) b.welt = some b.welt →
          s.goes q b ((s.deferred q).getD (b.addr + 1)) t ∧
          (t.successor q).isSome = true) ∧
        (s.markAfter q (mwCnt b.word % 2 ^ 16) b.welt ≠ some b.welt → t = { s with qs := t.qs } ∧
          (t.q q).body = some { b with decided := true } ∧ ∀ k, k ≠ q.val → t.q k = s.q k)) ∧
    (∃ t, exec (.sync q) s = .next t ∧ (s.deciding q 0x0A = none → t = s) ∧
      ∀ b, s.deciding q 0x0A = some b → (t.q q).body = some { b with decided := true } ∧
        (s.laceJoined = false → t.flagged (F.QSEQ_STAT_SYNC_LOCAL q)) ∧
        (s.laceJoined = true → s.lace.detaching = false →
          { who := 1 + q.val, type := 2, num := mwCnt b.word % 2 ^ 16, arg := 0, at_ := b.decision } ∈
            t.lace.requests) ∧
        s.regsKept [] t ∧ (∀ k, k ≠ q.val → t.q k = s.q k) ∧ s.memoryKept t ∧
          t = { s with
            hostRc := t.hostRc, spx1Rc := t.spx1Rc, win := t.win, msgs := t.msgs, evcs := t.evcs, qs := t.qs,
            lace := t.lace }) ∧
    (∃ t, exec (.hold q) s = .next t ∧ (s.deciding q 0x0F = none → t = s) ∧
      ∀ b, s.deciding q 0x0F = some b → (t.q q).body = some { b with decided := true } ∧
        (∀ k, k ≠ q.val → t.q k = s.q k) ∧ t = { s with qs := t.qs })

/-- Once, at its body start, COMMIT applies the quarter's CMODE 4 transaction and records its moment, PXFER starts setup
CNT of the quarter's port as a master (a port that is busy, off or stopped refuses it and latches its error), TARM
arms the units that CNT names with windows 48 PCLK after the start (a unit that is not ready for it says why and
stays), and CALWIN hands the channels of its group to the engine and runs a calibration slot while background
calibration is enabled and nothing conflicts. Before the start, or where the quarter does not execute the word,
nothing happens; after it the word goes on to PC + 1 or a pending jump's target at its decision point. (R61, R62,
R231, R272, R294.) -/
def Obligations.BodyStartActions : Prop :=
  ∀ (s : State) (q : Fin 16),
    (∃ t, exec (.commit q) s = .next t ∧
      (∀ b, s.executing q 0x0B = none ∨ (s.executing q 0x0B = some b ∧ (b.acted = true ∨ s.now < b.start) ∧
        s.decides b = false) →
        t = s) ∧
      (∀ b, s.deciding q 0x0B = some b → b.acted = true → s.goes q b ((s.deferred q).getD (b.addr + 1)) t) ∧
      ∀ b, s.executing q 0x0B = some b → b.acted = false → b.start ≤ s.now →
        (txnState s q = 2 → (s.txn q).cmode = 4 → (s.txn q).queue = [] →
          txnState t q = 0 ∧ t.rcHost (txnBase q + 8) &&& 0x20 = 0x20 ∧ t.rcSpx1 (txnBase q + 8) &&& 0x20 = 0x20 ∧
          (∀ i : Fin 4, t.reg (txnBase q + 16 + 4 * i.val) = BitVec.ofNat 16 (b.start / 2 ^ (16 * i.val))) ∧
          (∀ k, k ≠ q.val → t.txn k = s.txn k)) ∧
        (txnState s q ≠ 2 ∨ (s.txn q).cmode ≠ 4 → t.txns = s.txns ∧ txnState t q = txnState s q) ∧
        ((txnState s q = 2 → (s.txn q).cmode = 4 → (s.txn q).queue = []) →
          ∃ c, (t.q q).body = some c ∧ c.acted = true ∧ c.start = b.start ∧ c.played = b.played)) ∧
    (∃ t, exec (.pxfer q) s = .next t ∧
      (∀ b, s.executing q 0x0C = none ∨ (s.executing q 0x0C = some b ∧ (b.acted = true ∨ s.now < b.start) ∧
        s.decides b = false) →
        t = s) ∧
      (∀ b, s.deciding q 0x0C = some b → b.acted = true → s.goes q b ((s.deferred q).getD (b.addr + 1)) t) ∧
      ∀ b, s.executing q 0x0C = some b → b.acted = false → b.start ≤ s.now →
        ((s.port q).unit = none → (s.port q).armed = none → (s.port q).startAt = none → s.portEn q = true →
          s.chipFault = false → s.setupBad q (s.portSetup q (mwCnt b.word % 16)) = false →
          (s.portSlave q = false → ∃ u, (t.port q).unit = some u ∧ u.setup = s.portSetup q (mwCnt b.word % 16) ∧
            u.t0 = max b.start (s.port q).idleTo ∧ u.slave = false) ∧
          (s.portSlave q = true → (t.port q).armed = some (s.portSetup q (mwCnt b.word % 16)))) ∧
        ((s.port q).startAt = none → (s.port q).unit.isSome = true ∨ (s.port q).armed.isSome = true ∨ s.portEn q =
          false ∨
          s.chipFault = true → t.port q = s.port q ∧ t.latched q 0x91 = true) ∧
        (∀ k, k ≠ q.val → t.port k = s.port k) ∧
        (∃ c, (t.q q).body = some c ∧ c.acted = true ∧ c.start = b.start ∧ c.played = b.played) ∧
        ∀ k, k ≠ q.val → t.q k = s.q k) ∧
    (∃ t, exec (.tarm q) s = .next t ∧
      (∀ b, s.executing q 0x0D = none ∨ (s.executing q 0x0D = some b ∧ (b.acted = true ∨ s.now < b.start) ∧
        s.decides b = false) →
        t = s) ∧
      (∀ b, s.deciding q 0x0D = some b → b.acted = true → s.goes q b ((s.deferred q).getD (b.addr + 1)) t) ∧
      ∀ b, s.executing q 0x0D = some b → b.acted = false → b.start ≤ s.now →
        (∀ k : Fin 4, (mwCnt b.word).testBit k = true →
          if s.bit (F.TDC_CTRL_EN (4 * q.val + k.val)) = true ∧ s.tdcState (4 * q.val + k.val) = 0 ∧
            s.chipFault = false then
            (if s.tdcCfgOk (4 * q.val + k.val) = true ∧ s.tdcReady (4 * q.val + k.val) = true then
              t.tdcState (4 * q.val + k.val) = 1 ∧ t.tdc (4 * q.val + k.val) = { opens := b.start + 48 }
             else t.tdc (4 * q.val + k.val) = s.tdc (4 * q.val + k.val) ∧
              (s.tdcCfgOk (4 * q.val + k.val) = false → t.flagged (F.TDC_STAT_CFG_ERR (4 * q.val + k.val))) ∧
              (s.tdcCfgOk (4 * q.val + k.val) = true → t.flagged (F.TDC_STAT_NOT_READY (4 * q.val + k.val))))
          else t.tdc (4 * q.val + k.val) = s.tdc (4 * q.val + k.val) ∧
            t.flagged (F.TDC_STAT_ARM_OVR (4 * q.val + k.val))) ∧
        (∀ i, (∀ k : Fin 4, (mwCnt b.word).testBit k = true → i ≠ 4 * q.val + k.val) → t.tdc i = s.tdc i) ∧
        (∃ c, (t.q q).body = some c ∧ c.acted = true ∧ c.start = b.start ∧ c.played = b.played) ∧
        ∀ k, k ≠ q.val → t.q k = s.q k) ∧
    (∃ t, exec (.calwin q) s = .next t ∧
      (∀ b, s.executing q 0x0E = none ∨ (s.executing q 0x0E = some b ∧ (b.acted = true ∨ s.now < b.start) ∧
        s.decides b = false) →
        t = s) ∧
      (∀ b, s.deciding q 0x0E = some b → b.acted = true → s.goes q b ((s.deferred q).getD (b.addr + 1)) t) ∧
      ∀ b, s.executing q 0x0E = some b → b.acted = false → b.start ≤ s.now →
        (∀ i : Fin 64, (s.maskGroup q (mwCnt b.word % 64)).testBit i = true →
          (t.chan (q.val * 64 + i.val)).calHeld = true) ∧
        (s.bit F.CAL_CTRL_BG_EN = true → s.slotConflict q = false → t.slotRuns q = true) ∧
        (s.bit F.CAL_CTRL_BG_EN = false → t.slotRuns q = s.slotRuns q) ∧
        (∃ c, (t.q q).body = some c ∧ c.acted = true ∧ c.start = b.start ∧ c.played = b.played) ∧
        ∀ k, k ≠ q.val → t.q k = s.q k)

/-- Before the last granule has played, or before its decision, a welt does nothing. At the welt of a decided body: HALT
makes the quarter HALTED and flags it, and so does a STOP without the flag; an elastic word that selected nothing
stalls in its own state; a ready successor's body begins at the welt with no gap, PC and SSN stepping on; one that
parks parks; a segment not ready holds. A decode error behind the cut parks the quarter. A parking or a Lace hold
that is due comes first. At a granule boundary of a body the next granule plays, or where its data is not there or
not decodable the quarter parks; outside a body each boundary counts once. (R59, R61, R62, R70, R74, R77, R79, R80,
R94, R102, R127.) -/
def Obligations.EndsOfBodies : Prop :=
  ∀ (s : State) (q : Fin 16),
    (∀ b, (s.q q).body = some b → (s.q q).laceHeld = none → (s.q q).parkDue = none →
      b.played < b.len ∨ s.now < b.welt ∨ b.decided = false ∨ s.qstate q ≠ 1 → exec (.welt q) s = .next s) ∧
    ((s.q q).body = none → (s.q q).laceHeld = none → (s.q q).parkDue = none → exec (.welt q) s = .next s) ∧
    (∀ e, (s.q q).parkDue = some e → e ≤ s.now → ∃ t, exec (.welt q) s = .next t ∧ t.qstate q = 9 ∧
      (t.q q).body = none ∧
      (t.q q).parkDue = none ∧ t.flagged (F.QSEQ_STAT_PARK_EVT q)) ∧
    (∀ e, (s.q q).laceHeld = some e → e ≤ s.now → s.qstate q = 1 → (s.q q).parkDue = none → ∃ t,
      exec (.welt q) s = .next t ∧
      t.qstate q = 7 ∧ (t.q q).body = (s.q q).body) ∧
    (∀ b, s.AtWelt q b → ∃ t, exec (.welt q) s = .next t ∧ (t.q q).prev = some (b.start, b.welt, s.ssn q) ∧
      (mwOp b.word = 0x10 → t.qstate q = 8 ∧ (t.q q).body = none ∧ t.flagged (F.QSEQ_IRQ_STAT_HALT_EVT q)) ∧
      (mwOp b.word ≠ 0x10 → (s.q q).stopReq = true → t.qstate q = 8 ∧ (t.q q).body = none ∧ (t.q q).stopReq = false) ∧
      (mwOp b.word ≠ 0x10 → (s.q q).stopReq = false →
        (b.succ = none → mwOp b.word ∈ [0x08, 0x09, 0x0A, 0x0F] →
          t.qstate q = (if mwOp b.word = 0x08 then 2 else if mwOp b.word = 0x09 then 3 else if mwOp b.word = 0x0A
            then 4 else 5) ∧
          (t.q q).body = none ∧ ∃ x, (t.q q).stall = some x ∧ x.addr = b.addr ∧ x.word = b.word ∧ x.welt = b.welt) ∧
        (b.succ = none → mwOp b.word ∉ [0x08, 0x09, 0x0A, 0x0F] → t.qstate q = 9 ∧ (t.q q).body = none) ∧
        (∀ u, b.succ = some u →
          (u.park = true → t.qstate q = 9 ∧ (t.q q).body = none) ∧
          (u.park = false → u.ready = false → t.qstate q = 6 ∧ t.flagged (F.MEM_QSTAT_REFILL_LATE q) ∧
            t.ssn q = s.ssn q ∧ ∃ x, (t.q q).stall = some x ∧ x.succ = some u ∧ x.welt = b.welt) ∧
          (u.park = false → u.ready = true → t.executes q u.addr b.welt ∧ (t.q q).bodyNo = (s.q q).bodyNo + 1 ∧
            t.ssn q = if (s.q q).ssnFresh = true then s.ssn q else (s.ssn q + 1) % 2 ^ 32)))) ∧
    (∀ b, (s.q q).body = some b → s.qstate q = 1 → (s.q q).laceHeld = none → (s.q q).parkDue = none →
      b.len ≤ b.played →
      b.welt ≤ s.now → b.decided = true → b.len < b.segLen → s.tailError q b b.welt = true →
      ∃ t, exec (.welt q) s = .next t ∧ t.qstate q = 9 ∧ (t.q q).body = none ∧ t.flagged (F.MEM_QSTAT_DECODE_ERR q)) ∧
    (∀ samples b, (s.q q).body = some b → s.qstate q = 1 → s.patternClock = true → s.quarterOn q = true →
      (s.q q).laceHeld = none → (s.q q).parkDue = none → b.acted = true ∨ mwOp b.word ≠ 0x0B → b.played < b.len →
      b.start + 8 * b.played ≤ s.now →
      ∃ t, exec (.granuleBoundary q samples) s = .next t ∧
        (((t.q q).bodyGran = (s.q q).bodyGran + 1 ∧ t.qstate q = 1 ∧
          ∃ c, (t.q q).body = some c ∧ c.played = b.played + 1 ∧ c.addr = b.addr ∧ c.start = b.start ∧
            c.succ = b.succ) ∨
         (b.played < b.segLen ∧ t.qstate q = 9 ∧ (t.q q).body = none)) ∧
        (∀ k, k ≠ q.val → t.q k = s.q k)) ∧
    (∀ samples, s.qstate q ≠ 1 → (s.q q).parkDue = none → ∃ t, exec (.granuleBoundary q samples) s = .next t ∧
      (if s.patternClock = true ∧ s.quarterOn q = true ∧ (s.q q).lastBoundary < granuleOf s.now ∧
        s.awaits q (granuleOf s.now) = false
       then (t.q q).lastBoundary = granuleOf s.now ∧ t.qstate q = s.qstate q ∧ (t.q q).body = (s.q q).body
       else t = s))

/-- Outside a stall, or before their moments, these events do nothing. Four granules before its exit a stalled word
selects PC + 1, or TGT after a timeout, or a pending deferred jump's target; at the exit its successor's body begins
there, holds for its segment or parks, and a latch that ended the stall is consumed; a wait that has run out sets
WAIT_TIMEOUT and exits four granules later. (R67, R70, R71, R73, R408.) -/
def Obligations.StallsEnd : Prop :=
  ∀ (s : State) (q : Fin 16),
    (s.stalling q = none → exec (.exitDecisionPoint q) s = .next s ∧ exec (.stallExit q) s = .next s ∧
      exec (.waitTimeout q) s = .next s) ∧
    (∀ x, s.stalling q = some x →
      (∃ t, exec (.exitDecisionPoint q) s = .next t ∧
        (x.leave = none ∨ x.decided = true ∨ s.now + 32 < x.leave.getD 0 → t = s) ∧
        (x.leave.isSome = true → x.decided = false → x.leave.getD 0 ≤ s.now + 32 →
          let a := (s.deferred q).getD (if x.timeout = true then mwTgt x.word else x.addr + 1)
          (t.q q).stall = some { x with decided := true, succ := (t.q q).stall.bind (·.succ) } ∧
          (∀ v, (t.q q).stall.bind (·.succ) = some v → v.addr = a) ∧
          (s.plainWord q a → ∃ v, (t.q q).stall.bind (·.succ) = some v ∧ v.park = false ∧ v.ready = true) ∧
          (0x3FFF < a ∨ checkMicro (s.csWord q a) = none → ∃ v, (t.q q).stall.bind (·.succ) = some v ∧
            v.park = true) ∧
          t.deferred q = none ∧ s.decisionFrame q t)) ∧
      (∃ t, exec (.stallExit q) s = .next t ∧
        (x.leave = none ∨ x.decided = false ∨ s.now < x.leave.getD 0 → t = s) ∧
        (∀ e, x.leave = some e → e ≤ s.now → x.decided = true →
          (x.byLatch = true → (t.q q).latch.getLsbD (mwTrg x.word) = false) ∧
          (x.succ = none → t.qstate q = 9 ∧ (t.q q).stall = none) ∧
          (∀ u, x.succ = some u →
            (u.park = true → t.qstate q = 9 ∧ (t.q q).stall = none) ∧
            (u.park = false → u.ready = false → t.qstate q = 6 ∧ t.flagged (F.MEM_QSTAT_REFILL_LATE q) ∧
              ∃ y, (t.q q).stall = some y ∧ y.succ = some u ∧ y.welt = e) ∧
            (u.park = false → u.ready = true → t.executes q u.addr e ∧ (t.q q).stall = none)))) ∧
      (∃ t, exec (.waitTimeout q) s = .next t ∧
        (x.expiry = none ∨ x.exit.isSome = true ∨ s.now / 2 ≤ x.expiry.getD 0 / 2 → t = s) ∧
        (∀ e, x.expiry = some e → x.exit = none → e / 2 < s.now / 2 →
          (t.q q).stall = some { x with exit := some (e + 32), timeout := true } ∧
          t.flagged (F.QSEQ_STAT_WAIT_TIMEOUT q) ∧ (t.q q).latch = (s.q q).latch ∧
          (∀ k, k ≠ q.val → t.q k = s.q k) ∧ s.regsKept [] t ∧ s.memoryKept t ∧
          t = { s with
            hostRc := t.hostRc, spx1Rc := t.spx1Rc, win := t.win, msgs := t.msgs, evcs := t.evcs, qs := t.qs })))

/-- In REFILL_HOLD the held word's job goes out at the first boundary with its ready bit set, not before, with the
matching release where REFILL_LACE_HOLD asks for one; its body begins 64 granules later, or at the release's effect,
or a Lace release's, if that is later; elsewhere these events do nothing. At the welt of a body that played a refill
segment, its ready bit clears and LAST_RID shows it. (R106, R107, R75.) -/
def Obligations.RefillHolds : Prop :=
  ∀ (s : State) (q : Fin 16),
    (s.qstate q ≠ 6 ∨ (s.q q).stall = none → exec (.refillJobIssue q) s = .next s ∧
      exec (.refillHoldExit q) s = .next s) ∧
    (∀ x, (s.q q).stall = some x → s.qstate q = 6 →
      (x.succ = none → exec (.refillJobIssue q) s = .next s ∧ exec (.refillHoldExit q) s = .next s) ∧
      (∀ u, x.succ = some u →
        (∃ t, exec (.refillJobIssue q) s = .next t ∧
          (if x.jobAt = none ∧ s.now % 8 = 0 ∧ x.welt ≤ s.now ∧ s.ridReady (sdRid u.desc) = true then
            (∃ y, (t.q q).stall = some y ∧ y.jobAt = some s.now ∧ y.succ = some u ∧
              y.release = if s.bit (F.QSEQ_CFG_REFILL_LACE_HOLD q) = true ∧
                s.laceJoined = true then some (s.now + 2560) else none) ∧
            (∃ j, j ∈ (t.m q).jobs ∧ j.addr = u.addr ∧ j.seg = mwSeg u.word ∧ j.point = s.now)
           else t = s) ∧
          (∀ k, k ≠ q.val → t.q k = s.q k) ∧ s.regsKept [] t ∧ s.memoryKept t) ∧
        (x.jobAt = none ∨ s.heldAt q s.now = true → exec (.refillHoldExit q) s = .next s) ∧
        (∀ j, x.jobAt = some j → s.heldAt q s.now = false →
          ∃ t, exec (.refillHoldExit q) s = .next t ∧
            if max (max (j + 512) (x.release.getD 0)) x.floor ≤ s.now then
              t.executes q u.addr (max (max (j + 512) (x.release.getD 0)) x.floor) ∧ (t.q q).stall = none
            else t = s))) ∧
    (∀ b, s.AtWelt q b → mwSeg b.word ≠ nullSeg → sdResident b.desc = false →
      ∃ t, exec (.welt q) s = .next t ∧ t.ridReady (sdRid b.desc) = false ∧ t.flagged (F.MEM_LAST_RID_VALID q) ∧
        t.fld (F.MEM_LAST_RID_RID q) = sdRid b.desc % 2 ^ (F.MEM_LAST_RID_RID q).w)

/-- LATCH_RESET clears every latch and FLAG; CNT_CLR clears LATE and DEFER_OVR; RELEASE ends a HOLD stall whose wait has
not run out four granules after the next boundary, and does nothing elsewhere; STOP lets a running body end, ends a
stall, a held body or a start that waits at once in HALTED, and does nothing to a stopped quarter; DISABLE parks
after the granule in flight, at once where none is, and does nothing in PARKED. STOP and DISABLE drop a pending
START. Other quarters' sequencers stay. (R44, R64, R73, R79, R80, R82, R335.) -/
def Obligations.SequencerControls : Prop :=
  ∀ (s : State) (m : Master) (q : Fin 16), s.Takes m (R.QSEQ_CTRL q) →
    (∃ t, exec (.qseqLatchReset m q) s = .next t ∧ (t.q q).latch = 0 ∧ t.reg (R.QSEQ_FLAG q) = 0 ∧
      (t.q q).body = (s.q q).body ∧ (t.q q).stall = (s.q q).stall ∧
      s.regsKept [R.QSEQ_FLAG q] t ∧ (∀ k, k ≠ q.val → t.q k = s.q k) ∧
      t = { s.heard m true t with regs := t.regs, copyB := t.copyB, copyC := t.copyC, qs := t.qs }) ∧
    (∃ t, exec (.qseqCntClr m q) s = .next t ∧ t.reg (R.QSEQ_LATE q) = 0 ∧ t.reg (R.QSEQ_DEFER_OVR q) = 0 ∧
      s.regsKept [R.QSEQ_LATE q, R.QSEQ_DEFER_OVR q] t ∧
      t = { s.heard m true t with regs := t.regs, copyB := t.copyB, copyC := t.copyC }) ∧
    (∃ t, exec (.qseqRelease m q) s = .next t ∧ s.regsKept [] t ∧ (∀ k, k ≠ q.val → t.q k = s.q k) ∧
      (s.qstate q ≠ 5 → t.qs = s.qs) ∧
      (s.qstate q = 5 → ∀ y, (s.q q).stall = some y → (t.q q).stall =
        some (if y.exit = none ∧ y.before s.now = true
          then { y with exit := some (max y.welt (granuleAt s.now) + 32) } else y)) ∧
      t = { s.heard m true t with regs := t.regs, copyB := t.copyB, copyC := t.copyC, qs := t.qs }) ∧
    (∃ t, exec (.qseqStop m q) s = .next t ∧ t.pwr.pendStart.contains q.val = false ∧
      (s.pwr.pendStart.contains q.val = true → t.flagged (F.QSEQ_STAT_START_REFUSED q)) ∧
      (∀ k, k ≠ q.val → t.q k = s.q k) ∧
      (s.qstate q = 1 → (t.q q).stopReq = true ∧ t.deferred q = none ∧ (t.q q).body = (s.q q).body ∧
        s.regsKept [R.QSEQ_DEFER q] t ∧ s.memoryKept t) ∧
      (2 ≤ s.qstate q ∧ s.qstate q ≤ 7 ∨ s.qstate q = 10 → t.qstate q = 8 ∧ (t.q q).body = none ∨ s.qstate q = 10 ∧
        t.qstate q = 8) ∧
      (2 ≤ s.qstate q → s.qstate q ≤ 7 → t.deferred q = none ∧ (t.q q).stall = none ∧ (t.q q).laceHeld = none ∧
        (t.q q).startDue = none) ∧
      (s.qstate q = 10 → (t.q q).startDue = none ∧ (t.q q).laceHeld = none) ∧
      (s.qstate q = 0 ∨ s.qstate q = 8 ∨ s.qstate q = 9 →
        ((s.q q).startDue = none → t.qs = s.qs ∧ s.regsKept [] t ∧ s.memoryKept t) ∧
        ((s.q q).startDue.isSome = true → t.qstate q = 8 ∧ (t.q q).startDue = none))) ∧
    (∃ t, exec (.qseqDisable m q) s = .next t ∧ t.pwr.pendStart.contains q.val = false ∧ (∀ k, k ≠ q.val →
      t.q k = s.q k) ∧
      (s.stopped q = false → txnState t q ≠ 1 ∧ txnState t q ≠ 2) ∧
      (s.qstate q = 9 → t.qs = s.qs ∧ s.regsKept [] t ∧ s.memoryKept t) ∧
      (s.qstate q ≠ 9 → s.inFlight q = true → (t.q q).parkDue = some ((s.q q).parkDue.getD (granuleNext s.now)) ∧
        (t.q q).body = (s.q q).body ∧ t.qstate q = 1) ∧
      (s.qstate q ≠ 9 → s.inFlight q = false → t.qstate q = 9 ∧ (t.q q).body = none ∧ (t.q q).stall = none ∧
        t.deferred q = none ∧ t.flagged (F.QSEQ_STAT_PARK_EVT q)))

/-- A START write sets START_MODE where it names one and runs the load check. Where the state, the check or a needed ring
does not allow it, it is refused (a ring that is off sets ROUTE_ERR too) and the sequencer stays; while the quarter's
levels settle it is held pending. An accepted START clears stacks, latches and deferred jump, sets PC to START_ADDR
and SSN to 0 unless kept, and arms the next granule boundary in mode 0 or enters STARTING. Before its moment, or
held, a start moment does nothing; at it the first word's body begins and device time zero is taken, or a first word
that parks parks. (R77, R79, R196, R230, R312, R335.) -/
def Obligations.Starting : Prop :=
  ∀ (s : State) (m : Master) (q : Fin 16),
    (∀ mode : Option (Fin 4), s.Takes m (R.QSEQ_CTRL q) →
      let md := match mode with
        | some k => k.val
        | none => s.fld (F.QSEQ_CTRL_START_MODE q)
      let allowed := s.stopped q = true ∧ s.quarterFault q = false ∧ s.chipFault = false ∧ md ≠ 3 ∧
        (s.q q).startDue = none ∧ s.fld F.CLK_STAT_CORE_ACT = 2 ∧ (loadChecks s).2 = true
      ∃ t, exec (.qseqStart m q mode) s = .next t ∧ t.fld (F.QSEQ_CTRL_START_MODE q) = md ∧
        (∀ k, k ≠ q.val → t.q k = s.q k) ∧
        ((s.reg R.PWR_QSETTLE).getLsbD q = true → t.qs = s.qs ∧
          if (loadChecks s).2 = true ∧ s.pwr.pendStart.contains q.val = false then t.pwr.pendStart = s.pwr.pendStart
            ++ [q.val]
          else t.flagged (F.QSEQ_STAT_START_REFUSED q) ∧ t.pwr = s.pwr) ∧
        ((s.reg R.PWR_QSETTLE).getLsbD q = false → ¬(allowed ∧ s.routeBad q = false) →
          t.flagged (F.QSEQ_STAT_START_REFUSED q) ∧ (s.routeBad q = true → t.flagged (F.QRES_STAT_ROUTE_ERR q)) ∧
          t.qs = s.qs ∧ t.chans = s.chans ∧ t.txns = s.txns ∧ s.memoryKept t) ∧
        ((s.reg R.PWR_QSETTLE).getLsbD q = false → allowed → s.routeBad q = false →
          (t.q q).callStack = [] ∧ (t.q q).loopStack = [] ∧
          (t.q q).latch = 0 ∧ t.deferred q = none ∧ t.fld (F.QSEQ_PC_PC q) = s.fld (F.QSEQ_START_ADDR_ADDR q) ∧
          (s.bit (F.QSEQ_CFG_SSN_KEEP q) = false → t.ssn q = 0) ∧
          (s.bit (F.QSEQ_CFG_SSN_KEEP q) = true → t.ssn q = s.ssn q) ∧
          (if md = 0 then (t.q q).startDue = some (granuleNext s.now) ∧
            t.qstate q = (if s.qstate q = 9 then 0 else s.qstate q)
           else t.qstate q = 10 ∧ (t.q q).startDue = none) ∧
          (s.plainWord q (s.fld (F.QSEQ_START_ADDR_ADDR q)) → ∃ u, (t.q q).first = some u ∧
            u.addr = s.fld (F.QSEQ_START_ADDR_ADDR q) ∧ u.park = false ∧ u.ready = true))) ∧
    ((s.q q).startDue = none → exec (.startMoment q) s = .next s) ∧
    (∀ e, (s.q q).startDue = some e →
      (s.now < e ∨ (s.q q).laceHeld.isSome = true → exec (.startMoment q) s = .next s) ∧
      (e ≤ s.now → (s.q q).laceHeld = none → ∃ t, exec (.startMoment q) s = .next t ∧ (t.q q).startDue = none ∧
        (t.q q).timeZero = e ∧ (t.q q).started = true ∧
        ((s.q q).first = none → t.qstate q = 9 ∧ (t.q q).body = none) ∧
        (∀ u, (s.q q).first = some u →
          (u.park = true → t.qstate q = 9 ∧ (t.q q).body = none) ∧
          (u.park = false → u.ready = true → t.executes q u.addr e ∧
            t.ssn q = if (s.q q).ssnFresh = true then s.ssn q else (s.ssn q + 1) % 2 ^ 32))))

/-- FLAG_SET sets the latches of its bits and FLAG_CLR clears them; an edge of a ball sets its latch in every quarter;
every other latch stays. The one exception is a latch in the late window of the executing JCOND that waits on it,
which stays clear and makes the deferred jump. A code that is no edge does nothing. (R64, R66, R252.) -/
def Obligations.Flags : Prop :=
  ∀ (s : State) (m : Master) (q : Fin 16) (mask data : Word),
    (s.Takes m (R.QSEQ_FLAG_SET q) → ∃ t, exec (.flagSet m q mask data) s = .next t ∧
      (∀ i, i < 16 → (∀ b, (s.q q).body = some b → mwOp b.word ≠ 0x03 ∨ mwCond b.word ≠ 2 ∨ mwTrg b.word ≠ 0x80 + i ∨
          s.inLateWindow q b = false) →
        (t.q q).latch.getLsbD (0x80 + i) = ((s.q q).latch.getLsbD (0x80 + i) || (mask &&& data).getLsbD i)) ∧
      (∀ i, i < 16 → ∀ b, (s.q q).body = some b → mwOp b.word = 0x03 → mwCond b.word = 2 → mwTrg b.word = 0x80 + i →
        s.inLateWindow q b = true → b.decided = true → (mask &&& data).getLsbD i = true →
          s.latched q (0x80 + i) = false →
        t.latched q (0x80 + i) = false ∧ t.deferred q = some (mwTgt b.word % 2 ^ 14)) ∧
      (∀ k, k < 0x80 ∨ 0x90 ≤ k → (t.q q).latch.getLsbD k = (s.q q).latch.getLsbD k) ∧
      s.regsKept [R.QSEQ_FLAG q, R.QSEQ_DEFER q, R.QSEQ_LATE q] t ∧ (∀ k, k ≠ q.val → t.q k = s.q k) ∧
        s.memoryKept t ∧

          t = { s with
            regs := t.regs, copyB := t.copyB, copyC := t.copyC, hostRc := t.hostRc, spx1Rc := t.spx1Rc,
            cycle := t.cycle, win := t.win, msgs := t.msgs, evcs := t.evcs, qs := t.qs }) ∧
    (s.Takes m (R.QSEQ_FLAG_CLR q) →
      ∃ t, exec (.flagClr m q mask data) s = .next t ∧
        (∀ i, i < 16 → (t.q q).latch.getLsbD (0x80 + i) = ((s.q q).latch.getLsbD (0x80 + i) && !(mask &&&
          data).getLsbD i)) ∧
        (∀ k, k < 0x80 ∨ 0x90 ≤ k → (t.q q).latch.getLsbD k = (s.q q).latch.getLsbD k) ∧
        s.regsKept [R.QSEQ_FLAG q] t ∧ (∀ k, k ≠ q.val → t.q k = s.q k) ∧
        t = { s.heard m true t with regs := t.regs, copyB := t.copyB, copyC := t.copyC, qs := t.qs }) ∧
    (∀ trg : Fin 256, trg.val = 0 ∨ 0x18 < trg.val → exec (.triggerLatchSet trg) s = .next s) ∧
    (∀ trg : Fin 256, 1 ≤ trg.val → trg.val ≤ 0x18 → ∃ t, exec (.triggerLatchSet trg) s = .next t ∧
      (∀ k : Fin 16, (∀ b, (s.q k).body = some b → mwOp b.word ≠ 0x03 ∨ mwCond b.word ≠ 2 ∨ mwTrg b.word ≠ trg.val ∨
          s.inLateWindow k b = false) → t.latched k trg = true) ∧
      (∀ (k : Fin 16) (j : Nat), j ≠ trg.val → (t.q k).latch.getLsbD j = (s.q k).latch.getLsbD j) ∧ s.memoryKept t)

/-- In IDLE, HALTED and PARKED a write to a quarter's control store window replaces the enabled bytes of its dword and
nothing else (the two dwords behind the microword take none); in any other state it is discarded, CS_WRITE_REJ is set
and a CORRECTED event is reported with the address and the master. A read is served in every state. (R55.) -/
def Obligations.ControlStoreWindow : Prop :=
  ∀ (s : State) (m : Master) (q : Fin 16) (a : Fin 16384) (j : Fin 8) (be : BitVec 4) (v : Dword),
    s.Serves m (csAddr q a + 4 * j.val) →
    (s.bootRefuses m (csAddr q a + 4 * j.val) = false → ∃ t, exec (.controlStoreWrite m q a j be v) s = .next t ∧
      (6 ≤ j.val → t = hostTlps m true s) ∧
      (j.val < 6 → s.qstate q = 0 ∨ s.qstate q = 8 ∨ s.qstate q = 9 →
        t.winGet (csAddr q a + 4 * j.val) = mergeBytes (s.winGet (csAddr q a + 4 * j.val)) v be ∧
        (∀ b, b ≠ csAddr q a + 4 * j.val → t.winGet b = (hostTlps m true s).winGet b) ∧
        t = { hostTlps m true s with win := t.win }) ∧
      (j.val < 6 → ¬(s.qstate q = 0 ∨ s.qstate q = 8 ∨ s.qstate q = 9) → t.flagged (F.QSEQ_FAULT_CS_WRITE_REJ q) ∧
        t.reported = s.reported ++ [s.accessEvent (0x101 + 16 * q.val) a m 2] ∧ baseClass (0x101 + 16 * q.val) = 0 ∧
        s.memoryKept t ∧ s.regsKept [] t ∧
          t = { s with
            hostRc := t.hostRc, spx1Rc := t.spx1Rc, win := t.win, msgs := t.msgs, evcs := t.evcs,
            reported := t.reported })) ∧
    (∃ t, exec (.votedFieldRead m (csAddr q a + 4 * j.val)) s = .next t ∧
      t.reads = s.winGet (csAddr q a + 4 * j.val) :: s.reads ∧ s.memoryKept t)

/-- A write to an edge word of a timing set is always stored; one to PINCFG or PERIOD only while the quarter is stopped,
and otherwise is discarded with TS_WRITE_REJ; one behind the entry's words is discarded. The scrub, while it is
enabled and its time has come, steps on by one word: an intact word stays, a correctable one is rewritten and
reported, an uncorrectable one is reported and recorded in FAULT_PC; elsewhere it does nothing. (R54, R56, R112,
R116.) -/
def Obligations.ArraysAndScrub : Prop :=
  ∀ (s : State) (q : Fin 16),
    (∀ (m : Master) (set : Fin 32) (c : Fin 64) (j : Fin 16) (be : BitVec 4) (v : Dword),
      s.Serves m (tsAddr q set c + 4 * j.val) → s.bootRefuses m (tsAddr q set c + 4 * j.val) = false →
      ∃ t, exec (.timingSetWrite m q set c j be v) s = .next t ∧
        (8 ≤ j.val → t = hostTlps m true s) ∧
        (j.val < 8 → if s.stopped q = true ∨ 2 ≤ j.val then
          t.winGet (tsAddr q set c + 4 * j.val) = mergeBytes (s.winGet (tsAddr q set c + 4 * j.val)) v be ∧
          (∀ b, b ≠ tsAddr q set c + 4 * j.val → t.winGet b = (hostTlps m true s).winGet b) ∧
          t = { hostTlps m true s with win := t.win }
        else t.flagged (F.QTS_STAT_TS_WRITE_REJ q) ∧
          t.reported = s.reported ++ [s.accessEvent (0x104 + 16 * q.val) 0 m 2] ∧
          s.memoryKept t ∧ s.regsKept [] t ∧
          t = { s with
            hostRc := t.hostRc, spx1Rc := t.spx1Rc, win := t.win, msgs := t.msgs, evcs := t.evcs,
            reported := t.reported })) ∧
    (∃ t, exec (.controlStoreScrub q) s = .next t ∧
      if s.bit (F.QSEQ_CFG_SCRUB_EN q) = true ∧ s.quarterOn q = true ∧ (s.q q).scrubNext ≤ s.now then
        (t.q q).scrubPos = ((s.q q).scrubPos + 1) % 16384 ∧
        (t.q q).scrubNext = s.now + 128 ∧ (∀ k, k ≠ q.val → t.q k = s.q k) ∧ t.hbm = s.hbm ∧
        (∀ w, checkMicro (s.csWord q (s.q q).scrubPos) = some (w, false) → t = { s with qs := t.qs }) ∧
        (∀ w, checkMicro (s.csWord q (s.q q).scrubPos) = some (w, true) → (s.q q).scrubPos < 16384 →
          t.csWord q (s.q q).scrubPos = w ∧ t.flagged (F.QSEQ_FAULT_CHK_CORR q) ∧ s.regsKept [] t ∧
          t.reported = s.reported ++ [s.plainEvent (0x101 + 16 * q.val) (s.q q).scrubPos]) ∧
        (checkMicro (s.csWord q (s.q q).scrubPos) = none → s.memoryKept t ∧
          s.regsKept [(F.QSEQ_FAULT_PC_FAULT_PC q).addr] t ∧ t.hostRc = s.hostRc ∧
          t.fld (F.QSEQ_FAULT_PC_FAULT_PC q) = (s.q q).scrubPos % 2 ^ (F.QSEQ_FAULT_PC_FAULT_PC q).w ∧
          t.reported = s.reported ++ [s.plainEvent (0x101 + 16 * q.val) (s.q q).scrubPos])
      else t = s)

/-- With no unit requested nothing arrives. The oldest requested unit goes into staging with its data and arrival time,
poisoned after an uncorrectable error, which sets its stack's flag as a corrected one sets its own with its event;
the unit of a discarded job is dropped, an uncorrectable one with its CORRECTED event. A head build starts only in a
stopped quarter, empties the heads and shows HEAD_BUSY, which its end clears; with no build running an end does
nothing. (R86, R97, R98, R99, R108.) -/
def Obligations.SegmentStaging : Prop :=
  ∀ (s : State) (q : Fin 16),
    (∀ ecc, (s.m q).flights = [] → exec (.hbmReadComplete q ecc) s = .next s) ∧
    (∀ (ecc : Fin 3) (f : Flight), (s.m q).flights.head? = some f →
      ∃ t, exec (.hbmReadComplete q ecc) s = .next t ∧ (t.m q).flights = (s.m q).flights.drop 1 ∧
        (∀ k, k ≠ q.val → t.m k = s.m k) ∧ s.memoryKept t ∧
        (ecc.val = 0 → s.regsKept [(F.MEM_ERR_SEG_L_SEG_L q).addr, (F.MEM_ERR_SEG_H_SEG_H q).addr] t) ∧
        (ecc.val = 1 → t.flagged (if stackB f.hbmUnit = true then F.MEM_FAULT_CE_B else F.MEM_FAULT_CE_A) ∧
          s.plainEvent (if stackB f.hbmUnit = true then 0x031 else 0x030) f.hbmUnit ∈ t.reported.drop
            s.reported.length) ∧
        (ecc.val = 2 → t.flagged (if stackB f.hbmUnit = true then F.MEM_FAULT_UE_B else F.MEM_FAULT_UE_A)) ∧
        (f.drop = true → (t.m q).staged = (s.m q).staged ∧
          (ecc.val = 0 → t = { s with qm := t.qm }) ∧
          (ecc.val = 2 → t.reported = s.reported ++ [s.plainEvent 0x033 f.hbmUnit])) ∧
        (f.drop = false → (∀ b, b ∈ (s.m q).tails → b.no ≠ f.gen ∨ b.addr ≠ f.addr) →
          (t.m q).staged = (s.m q).staged ++
            [{ gen := f.gen, addr := f.addr, unit := f.unit, hbmUnit := f.hbmUnit, arrived := s.now, poison := decide (ecc.val = 2), data := s.hbmUnit f.hbmUnit }] ∧
          (ecc.val = 0 → t = { s with qm := t.qm }))) ∧
    (∀ m : Master, s.Takes m (R.MEM_QCMD q) → ∃ t, exec (.headBuild m q) s = .next t ∧
      (if s.stopped q = true then (t.m q).build = true ∧ (t.m q).heads = [] ∧ t.bit (F.MEM_QSTAT_HEAD_BUSY q) = true ∧
          (t.m q).staged = (s.m q).staged ∧ s.regsKept [R.MEM_QSTAT q] t ∧ (∀ k, k ≠ q.val → t.m k = s.m k) ∧
          t = { s.heard m true t with regs := t.regs, copyB := t.copyB, copyC := t.copyC, qm := t.qm }
        else s.regsKept [] t ∧ t = { s.heard m true t with regs := t.regs, copyB := t.copyB, copyC := t.copyC })) ∧
    (∀ ecc, ∃ t, exec (.headBuildComplete (q, ecc)) s = .next t ∧
      (if (s.m q).build = true then (t.m q).build = false ∧ t.bit (F.MEM_QSTAT_HEAD_BUSY q) = false ∧
        (∀ h, h ∈ (t.m q).heads.drop (s.m q).heads.length → sdHead (s.segDesc h.seg) = true) ∧
        (t.m q).staged = (s.m q).staged ∧ (∀ k, k ≠ q.val → t.m k = s.m k) ∧
        (ecc = [] → s.regsKept [R.MEM_QSTAT q] t ∧ t.reported = s.reported) ∧ s.memoryKept t
       else t = s))

/-- A write to RDY sets its masked bits, or waits behind the host's held BAR2 writes; a window register takes its bits
only while every quarter is stopped, and is otherwise refused with WIN_REFUSED. The scrub of a stack, while enabled
and at its pace, counts a read, steps on and wraps at the stack's end; an error in the read sets its flag and is
reported; elsewhere it does nothing. A good training shows TRAINED and the size carried, and after a COLD reset
starts the head builds; one that the part does not wait for does nothing, and a failed one sets TRAIN_FAIL. (R83,
R85, R86, R98, R103, R105.) -/
def Obligations.MemorySettings : Prop :=
  ∀ (s : State) (m : Master) (mask data : Word),
    (∀ k : Fin 2048, s.Takes m (R.MEM_RDY k) → ∃ t, exec (.memRdyWrite m k mask data) s = .next t ∧
      (if m = .pcie ∧ s.heldHost ≠ [] then
        t =
          { hostTlps m true s with heldHost := s.heldHost ++ [.rdy { addr := R.MEM_RDY k, mask := mask, data := data }] }
       else t.reg (R.MEM_RDY k) = (s.reg (R.MEM_RDY k) &&& ~~~mask) ||| (data &&& mask) ∧
          s.regsKept [R.MEM_RDY k] t ∧ t =
            { s.heard m true t with regs := t.regs, copyB := t.copyB, copyC := t.copyC })) ∧
    (∀ (n : Fin 16) (size : Bool), s.Takes m (if size = true then R.MEM_WIN_SIZE n else R.MEM_WIN_BASE n) →
      let a := if size = true then R.MEM_WIN_SIZE n else R.MEM_WIN_BASE n
      ∃ t, exec (.winWrite m n size mask data) s = .next t ∧
        (if s.allStopped = true then t.reg a = (s.reg a &&& ~~~(mask &&& 0x7FFF)) ||| (data &&& (mask &&& 0x7FFF)) ∧
            s.regsKept [a] t ∧ t = { s.heard m true t with regs := t.regs, copyB := t.copyB, copyC := t.copyC }
          else t.flagged F.MEM_FAULT_WIN_REFUSED ∧ s.regsKept [] t ∧ s.memoryKept t ∧
          t = { s with
            hostRc := t.hostRc, spx1Rc := t.spx1Rc, cycle := t.cycle, win := t.win, msgs := t.msgs,
            evcs := t.evcs })) ∧
    (∀ (b : Bool) (ecc : Fin 3), ∃ t, exec (.hbmScrub b ecc) s = .next t ∧
      let pos := if b = true then s.scrubB else s.scrubA
      let u := pos / 4 * 8 + (if b = true then 4 else 0) + pos % 4
      if s.bit F.MEM_CFG_SCRUB_EN = true ∧ (if b = true then s.scrubAtB else s.scrubAtA) ≤ s.now then
        (if b = true then t.scrubB else t.scrubA) = (if pos + 1 < s.capacity / 128 then pos + 1 else 0) ∧
        (if b = true then t.scrubAtB else t.scrubAtA) = s.now + 640 ∧
        (if b = true then t.scrubA = s.scrubA ∧ t.scrubAtA = s.scrubAtA else t.scrubB = s.scrubB ∧
          t.scrubAtB = s.scrubAtB) ∧
        s.memoryKept t ∧
        (ecc.val = 0 → s.regsKept [] t ∧ t.reported = s.reported) ∧
        (ecc.val = 1 → t.flagged (if stackB u = true then F.MEM_FAULT_CE_B else F.MEM_FAULT_CE_A) ∧
          t.reported = s.reported ++ [s.plainEvent (if stackB u = true then 0x031 else 0x030) u]) ∧
        (ecc.val = 2 → t.flagged (if stackB u = true then F.MEM_FAULT_UE_B else F.MEM_FAULT_UE_A) ∧
          t.reported = s.reported ++ [s.plainEvent 0x033 u]) ∧
          t = { s with
            regs := t.regs, copyB := t.copyB, copyC := t.copyC, hostRc := t.hostRc, spx1Rc := t.spx1Rc,
            win := t.win, msgs := t.msgs, evcs := t.evcs, reported := t.reported, scrubA := t.scrubA,
            scrubB := t.scrubB, scrubAtA := t.scrubAtA, scrubAtB := t.scrubAtB, errAddrHeld := t.errAddrHeld }
      else t = s) ∧
    (∀ ok, s.bit F.MEM_ID_TRAINED = true ∨ ¬((s.boot.running = true ∧
      s.bootStep = 8) ∨ s.bit F.CHIP_BOOT_STAT_WAIT_IMAGE = true) →
      exec (.hbmTrainingComplete ok) s = .next s) ∧
    (s.bit F.MEM_ID_TRAINED = false → (s.boot.running = true ∧
      s.bootStep = 8) ∨ s.bit F.CHIP_BOOT_STAT_WAIT_IMAGE = true →
      s.installed = 1 ∨ s.installed = 2 →
      (∃ t, exec (.hbmTrainingComplete true) s = .next t ∧ t.bit F.MEM_ID_TRAINED = true ∧
        t.fld F.MEM_ID_CAP = s.installed ∧ s.memoryKept t ∧ t.boot.buildDue = false ∧
        (s.boot.buildDue = true → ∀ q : Fin 16, s.stopped q = true → (t.m q).build = true ∧
          t.bit (F.MEM_QSTAT_HEAD_BUSY q) = true) ∧
        (s.boot.buildDue = false → s.regsKept [R.MEM_ID] t ∧
          t = { s with regs := t.regs, copyB := t.copyB, copyC := t.copyC })) ∧
      (∃ t, exec (.hbmTrainingComplete false) s = .next t ∧ t.flagged F.MEM_FAULT_TRAIN_FAIL ∧
        t.bit F.MEM_ID_TRAINED = false))

/-- A write to FTW_H stages the whole tuning word for the next granule boundary. At a DCLK edge each level output moves
toward its goal by at most STEP (0: 4,096) and then pauses for RATE edges, the safe clamp codes apart, which are
taken at once, and the comparators follow the node around their thresholds; off an edge nothing happens. An enabled
trip opens the switch, turns the driver and the PPMU off, is flagged and reported; a disabled or unpowered one does
nothing. The disconnect ends when its conditions hold, by itself at a boundary or by RECONNECT in a stopped quarter;
else RECONNECT is refused. (R126, R136, R143, R145, R146.) -/
def Obligations.PinSettings : Prop :=
  ∀ (s : State) (c : Fin 1024),
    (∀ (m : Master) (mask data : Word), s.Takes m (R.QTS_FTW_H (c.val / 64) (c.val % 64)) →
      ∃ t, exec (.ftwHWrite m c mask data) s = .next t ∧
        t.reg (R.QTS_FTW_H (c.val / 64) (c.val % 64)) =
          (s.reg (R.QTS_FTW_H (c.val / 64) (c.val % 64)) &&& ~~~mask) ||| (data &&& mask) ∧
        (∃ v, (t.chan c).ncoPend = some v ∧ v.1 = granuleNext s.now ∧
          v.2.1 = (t.reg (R.QTS_FTW_L (c.val / 64) (c.val % 64))).toNat +
            2 ^ 16 * (t.reg (R.QTS_FTW_M (c.val / 64) (c.val % 64))).toNat +
            2 ^ 32 * (t.reg (R.QTS_FTW_H (c.val / 64) (c.val % 64))).toNat ∧
          ((s.chan c).ncoPend = none → v.2.2 = ((s.chan c).ph, (s.chan c).duty))) ∧
        (∀ k, k ≠ c.val → t.chan k = s.chan k) ∧ s.memoryKept t ∧
        ((s.chan c).corrPend = none → s.regsKept [R.QTS_FTW_H (c.val / 64) (c.val % 64)] t ∧
          t = { s.heard m true t with regs := t.regs, copyB := t.copyB, copyC := t.copyC, chans := t.chans })) ∧
    (∀ node amps clamp within, ∃ t, exec (.dclkEdge c node amps clamp within) s = .next t ∧
      (if s.dclkAt c = false then t = s else
        (∀ k, k ≠ c.val → t.chan k = s.chan k) ∧ s.memoryKept t ∧ (t.chan c).amps = amps ∧
        (t.chan c).inSince = (if within = 0 then none else some (s.now - within)) ∧
        (s.bit (F.CH_DRV_CTRL_LOOP c) = false → node = [] → (t.chan c).cmpAbove = (s.chan c).cmpAbove ∧
          (t.chan c).cmpBelow = (s.chan c).cmpBelow) ∧
        (∀ v, s.bit (F.CH_DRV_CTRL_LOOP c) = false → node = [v] → (t.chan c).node = v ∧
          ((t.chan c).cmpAbove = true ↔ (if (s.chan c).cmpAbove = true then (s.thresholds c).voh - (s.thresholds
            c).half < v
            else (s.thresholds c).voh + (s.thresholds c).half < v)) ∧
          ((t.chan c).cmpBelow = true ↔ (if (s.chan c).cmpBelow = true then v < (s.thresholds c).vol + (s.thresholds
            c).half
            else v < (s.thresholds c).vol - (s.thresholds c).half))) ∧
        (∀ d : Fin 12,
          let out := s.fld (F.CH_LVL_OUT_OUT c d)
          let goal := s.dacGoal c d
          let step := if s.fld (F.CH_LVL_STEP_STEP c d) = 0 then 4096 else s.fld (F.CH_LVL_STEP_STEP c d)
          let pause := tabGet (fun _ => 0) (s.chan c).slew d
          if (s.chan c).safe = true ∧ (d.val = 5 ∨ d.val = 6) then t.fld (F.CH_LVL_OUT_OUT c d) = goal
          else if 0 < pause then t.fld (F.CH_LVL_OUT_OUT c d) = out ∧
            tabGet (fun _ => 0) (t.chan c).slew d = pause - 1
          else t.fld (F.CH_LVL_OUT_OUT c d) = (if out ≤ goal then min goal (out + step) else max goal (out - step)) ∧
            tabGet (fun _ => 0) (t.chan c).slew d = if out = goal then 0 else s.fld (F.CH_LVL_RATE_RATE c d)))) ∧
    (∀ high, ∃ t, exec (.ovdTrip c high) s = .next t ∧
      (if s.bit (F.CH_PROT_OVD_EN c) = true ∧ s.quarterOn (c.val / 64) = true then
        t.bit (F.CH_STAT_DISC c) = true ∧ (t.chan c).on = false ∧ (t.pmu c).connected = false ∧
          (t.pmu c).running = false ∧
        t.flagged (if high = true then F.CH_STAT_OVD_H c else F.CH_STAT_OVD_L c) ∧
        s.plainEvent (0x105 + 16 * (c.val / 64)) c ∈ t.reported.drop s.reported.length ∧
        ((s.pmu c).running = false → s.regsKept [R.CH_STAT c] t) ∧ (∀ k, k ≠ c.val → t.chan k = s.chan k) ∧
          s.memoryKept t
       else t = s)) ∧
    (∃ t, exec (.discEnd c) s = .next t ∧
      (s.bit (F.CH_STAT_DISC c) = false ∨ s.discMayEnd c = false → t = s) ∧
      (s.bit (F.CH_STAT_DISC c) = true → s.discMayEnd c = true →
        (s.q (c.val / 64)).body = none ∨ s.qstate (c.val / 64) ≠ 1 →
        if s.now % 8 = 0 then t.bit (F.CH_STAT_DISC c) = false ∧ s.regsKept [R.CH_STAT c] t ∧
          (∀ k, k ≠ c.val → t.chan k = s.chan k) ∧
          t = { s with regs := t.regs, copyB := t.copyB, copyC := t.copyC, chans := t.chans }
        else t = s) ∧
      (∀ b, s.bit (F.CH_STAT_DISC c) = true → s.discMayEnd c = true → s.qstate (c.val / 64) = 1 →
        (s.q (c.val / 64)).body = some b →
        if s.now = b.start ∨ s.now = b.welt then t.bit (F.CH_STAT_DISC c) = false ∧ s.regsKept [R.CH_STAT c] t
        else t = s)) ∧
    (¬s.Runs (R.CH_PROT c) → exec (.protReconnect c) s = .next s) ∧
    (s.Runs (R.CH_PROT c) → ∃ t, exec (.protReconnect c) s = .next t ∧ (∀ k, k ≠ c.val → t.chan k = s.chan k) ∧
      s.memoryKept t ∧
      (if s.stopped (c.val / 64) = true ∧ s.discMayEnd c = true then
        t.bit (F.CH_STAT_DISC c) = false ∧ s.regsKept [R.CH_STAT c] t ∧ t.reported = s.reported
       else t.flagged (F.CH_STAT_CFG_REJ c) ∧ t.reported = s.reported ++ [s.plainEvent (0x106 + 16 * (c.val / 64)) c]
         ∧
        t.chans = s.chans ∧ s.regsKept [] t))

/-- A stage change ends when its time at the pin is over, and not before. DRV_CTRL takes its bits (LOOP and CAL_ISO of a
channel that the engine holds stay), but a rise of LOOP or CAL_ISO outside a stopped quarter is refused and reported.
A push is queued or, on a full or looping queue, dropped with LQ_OVF; CLR empties a stopped queue only; a sample
moves the next code into its DAC's target, for good or, in a looping queue, in turn, and an empty queue stops with
LQ_DONE; with no clock or domain none of these takes effect. (R139, R147, R149, R150, R163.) -/
def Obligations.StagesAndQueues : Prop :=
  ∀ (s : State) (c : Fin 1024),
    ((s.chan c).stageSw = none → exec (.stageChangeComplete c) s = .next s) ∧
    (∀ w, (s.chan c).stageSw = some w → ∃ t, exec (.stageChangeComplete c) s = .next t ∧
      (if ((s.now * 512 : Nat) : Int) < (((w + 48 + 128) * 512 : Nat) : Int) + (s.chan c).stageDly then t = s
       else t.bit (F.CH_STAT_STAGE_ACT c) = (s.chan c).stageTo ∧ (t.chan c).stageSw = none ∧
         s.regsKept [R.CH_STAT c] t ∧
        (∀ k, k ≠ c.val → t.chan k = s.chan k) ∧ s.memoryKept t)) ∧
    (∀ mask data : Word, (¬s.Runs (R.CH_DRV_CTRL c) → exec (.drvCtrlWrite c mask data) s = .next s) ∧
      (s.Runs (R.CH_DRV_CTRL c) → ∀ r, rowOf (R.CH_DRV_CTRL c) = some r →
      let sel := mask &&& BitVec.ofNat 16 r.rw &&& (if (s.chan c).calHeld = true then ~~~0x60 else 0xFFFF)
      let v := (s.reg (R.CH_DRV_CTRL c) &&& ~~~sel) ||| (data &&& sel)
      ∃ t, exec (.drvCtrlWrite c mask data) s = .next t ∧
        (if s.stopped (c.val / 64) = true ∨ (v &&& 0x60 &&& ~~~s.reg (R.CH_DRV_CTRL c)) = 0 then
          t.reg (R.CH_DRV_CTRL c) = v ∧ s.regsKept [R.CH_DRV_CTRL c] t ∧ (∀ k, k ≠ c.val → t.chan k = s.chan k) ∧
          t = { s with regs := t.regs, copyB := t.copyB, copyC := t.copyC, chans := t.chans }
         else t.flagged (F.CH_STAT_CFG_REJ c) ∧ t.reported = s.reported ++ [s.plainEvent (0x106 + 16 * (c.val / 64))
           c] ∧
          s.regsKept [] t ∧ t.chans = s.chans))) ∧
    (∀ code, (¬s.Runs (R.CH_LQ_PUSH c) → exec (.lqPush c code) s = .next s) ∧
      (s.Runs (R.CH_LQ_PUSH c) → ∃ t, exec (.lqPush c code) s = .next t ∧
      (if (s.bit (F.CH_LQ_CFG_EN c) = true ∧ s.bit (F.CH_LQ_CFG_LOOP c) = true) ∨ 32 ≤ (s.chan c).lq.length - (s.chan
        c).lqPos then
        t.flagged (F.CH_LQ_STAT_LQ_OVF c) ∧ s.eventsOnly t
       else (t.chan c).lq = (s.chan c).lq.drop (s.chan c).lqPos ++ [code] ∧ (t.chan c).lqPos = 0 ∧
        s.regsKept [R.CH_LQ_STAT c] t ∧ (∀ k, k ≠ c.val → t.chan k = s.chan k) ∧
        t = { s with regs := t.regs, copyB := t.copyB, copyC := t.copyC, chans := t.chans }))) ∧
    (¬s.Runs (R.CH_LQ_CFG c) → exec (.lqClr c) s = .next s) ∧
    (s.Runs (R.CH_LQ_CFG c) → ∃ t, exec (.lqClr c) s = .next t ∧
      (if s.bit (F.CH_LQ_CFG_EN c) = false then (t.chan c).lq = [] ∧ t.fld (F.CH_LQ_STAT_FILL c) = 0
       else (s.bit (F.CH_LQ_CFG_LOOP c) = true → (t.chan c).lq = (s.chan c).lq) ∧
        (t.chan c).lq.drop (t.chan c).lqPos = (s.chan c).lq.drop (s.chan c).lqPos) ∧
      s.regsKept [R.CH_LQ_STAT c] t ∧ (∀ k, k ≠ c.val → t.chan k = s.chan k) ∧
      t = { s with regs := t.regs, copyB := t.copyB, copyC := t.copyC, chans := t.chans }) ∧
    (∃ t, exec (.lqSample c) s = .next t ∧ s.memoryKept t ∧
      if s.dclkAt c = true ∧ s.bit (F.CH_LQ_CFG_EN c) = true ∧ (s.chan c).lqNext ≤ s.now then
        let loop := s.bit (F.CH_LQ_CFG_LOOP c)
        let pos := if loop = true ∧ (s.chan c).lq.length ≤ (s.chan c).lqPos then 0 else (s.chan c).lqPos
        (∀ code, ((s.chan c).lq.drop pos).head? = some code → t.reg (R.CH_LVL_TGT c (s.lqDac c)) = code ∧
          (t.chan c).lqNext = (s.chan c).lqNext + 64 * (s.fld (F.CH_LQ_DIV_DIV c) + 1) ∧
          (loop = true → (t.chan c).lq = (s.chan c).lq ∧ (t.chan c).lqPos = pos + 1) ∧
          (loop = false → (t.chan c).lq = (s.chan c).lq.drop (pos + 1) ∧ (t.chan c).lqPos = 0)) ∧
        ((s.chan c).lq.drop pos = [] → loop = false →
          t.bit (F.CH_LQ_CFG_EN c) = false ∧ t.flagged (F.CH_LQ_STAT_LQ_DONE c) ∧
          ∀ d : Fin 12, t.reg (R.CH_LVL_TGT c d) = s.reg (R.CH_LVL_TGT c d)) ∧
        (∀ k, k ≠ c.val → t.chan k = s.chan k)
      else t = s)

/-- MEAS_START begins an interval of 2^AVG samples after its delay where software triggers it, or with one running sets
OVRUN; MEAS_STOP ends a running one with PARTIAL; a slot serves the next waiting channel after the last one served
and no other; one slot after the last sample the interval ends with DONE, RES the mean (exact where the division is)
and RES_CNT the count less one; a range change takes its step and ends at its time, and not before. Other channels'
units stay; with no clock or domain nothing happens. (Free running begins the next interval at once by the model's
choice, log entry 36.) (R160, R162, R163, R164.) -/
def Obligations.Measurements : Prop :=
  ∀ (s : State) (c : Fin 1024),
    (¬s.Runs (R.CH_PMU_CMD c) → exec (.pmuMeasStart c) s = .next s ∧ exec (.pmuMeasStop c) s = .next s) ∧
    (s.Runs (R.CH_PMU_CMD c) →
      (∃ t, exec (.pmuMeasStart c) s = .next t ∧
        (s.fld (F.CH_PMU_MEAS_TRIG c) ≠ 0 → t = s) ∧
        (s.fld (F.CH_PMU_MEAS_TRIG c) = 0 → if (s.pmu c).running = true then t.flagged (F.CH_PMU_STAT_OVRUN c) ∧
          t.pmus = s.pmus
         else (t.pmu c).running = true ∧ (t.pmu c).taken = 0 ∧ (t.pmu c).sum = 0 ∧
          (t.pmu c).need = 2 ^ min (s.fld (F.CH_PMU_MEAS_AVG_LOG2 c)) 16 ∧
          (t.pmu c).start = s.now + 64 * s.fld (F.CH_PMU_DLY_DLY c) ∧ t.bit (F.CH_PMU_STAT_MBUSY c) = true) ∧
        s.regsKept [R.CH_PMU_STAT c] t ∧ (∀ k, k ≠ c.val → t.pmu k = s.pmu k) ∧ s.memoryKept t) ∧
      (∃ t, exec (.pmuMeasStop c) s = .next t ∧
        ((s.pmu c).running = false → t = s) ∧
        ((s.pmu c).running = true → t.flagged (F.CH_PMU_STAT_DONE c) ∧ t.flagged (F.CH_PMU_STAT_PARTIAL c) ∧
          t.reg (R.CH_RES_CNT c) = BitVec.ofNat 16 ((s.pmu c).taken + 65535) ∧
          (s.fld (F.CH_PMU_MEAS_TRIG c) ≠ 3 → (t.pmu c).running = false ∧ t.bit (F.CH_PMU_STAT_MBUSY c) = false) ∧
          (s.fld (F.CH_PMU_MEAS_TRIG c) = 3 → (t.pmu c).running = true ∧ (t.pmu c).taken = 0)) ∧
        (∀ k, k ≠ c.val → t.pmu k = s.pmu k) ∧ s.memoryKept t)) ∧
    (∀ (a : Fin 64) v lim, ∃ t, exec (.pmuAdcSlot a v lim) s = .next t ∧
      (if s.quarterOn (a.val / 4) = true ∧ tabGet (fun _ => 0) s.adcAt a ≤ s.now / 320 * 320 then
        (∀ k, s.adcNext a (s.now / 320 * 320) = some k → (t.pmu k).taken = (s.pmu k).taken + 1 ∧
          (t.pmu k).sum = (s.pmu k).sum + v ∧ tabGet (fun _ => 0) t.adcs a = k % 16 + 1 ∧
          tabGet (fun _ => 0) t.adcAt a = s.now / 320 * 320 + 320 ∧
          ((t.pmu k).taken = (s.pmu k).need → (t.pmu k).endAt = some (s.now / 320 * 320 + 320)) ∧
          (∀ j, j ≠ k → t.pmu j = s.pmu j)) ∧
        (s.adcNext a (s.now / 320 * 320) = none → t = s)
       else t = s) ∧
      t = { s with pmus := t.pmus, adcs := t.adcs, adcAt := t.adcAt }) ∧
    ((s.pmu c).endAt = none ∨ s.now < (s.pmu c).endAt.getD 0 ∨ s.quarterOn (c.val / 64) = false →
      exec (.pmuIntervalEnd c) s = .next s) ∧
    (∀ e, (s.pmu c).endAt = some e → e ≤ s.now → s.quarterOn (c.val / 64) = true →
      ∃ t, exec (.pmuIntervalEnd c) s = .next t ∧ t.flagged (F.CH_PMU_STAT_DONE c) ∧
        t.reg (R.CH_RES_CNT c) = BitVec.ofNat 16 ((s.pmu c).taken + 65535) ∧
        (∀ r : Int, 0 < (s.pmu c).taken → (s.pmu c).sum = r * (s.pmu c).taken →
          t.reg (R.CH_RES_L c) = BitVec.ofNat 16 (r % 2 ^ 24).toNat) ∧
        (if s.fld (F.CH_PMU_MEAS_TRIG c) = 3 then (t.pmu c).running = true ∧ (t.pmu c).taken = 0 ∧
            (t.pmu c).start = e + 64 * s.fld (F.CH_PMU_DLY_DLY c)
         else (t.pmu c).running = false ∧ t.bit (F.CH_PMU_STAT_MBUSY c) = false) ∧
        (∀ k, k ≠ c.val → t.pmu k = s.pmu k) ∧ s.memoryKept t) ∧
    ((s.pmu c).rangeTo = none ∨ s.quarterOn (c.val / 64) = false → exec (.pmuRangeChangeStep c) s = .next s) ∧
    (∀ r, (s.pmu c).rangeTo = some r → s.quarterOn (c.val / 64) = true →
      let fi := forceOf (s.reg (R.CH_PMU_CTRL c)) = 2
      ∃ t, exec (.pmuRangeChangeStep c) s = .next t ∧
        (if fi ∧ (s.pmu c).rangeStep = 1 ∧ (s.pmu c).rangeT0 + 160 ≤ s.now then
          (t.pmu c).rangeStep = 2 ∧ (t.pmu c).rangeTo = some r ∧ (t.pmu c).rangeAct = (s.pmu c).rangeAct ∧
            s.regsKept [] t
         else if (s.pmu c).rangeT0 + (if fi then 1440 else 1280) ≤ s.now then
          (t.pmu c).rangeAct = r ∧ (t.pmu c).rangeTo = none ∧ t.bit (F.CH_PMU_STAT_RCHG c) = false ∧
          s.regsKept [R.CH_PMU_STAT c] t
         else t = s) ∧
        (∀ k, k ≠ c.val → t.pmu k = s.pmu k) ∧
        t = { s with regs := t.regs, copyB := t.copyB, copyC := t.copyC, pmus := t.pmus })

/-- With EN = 0, or in SHANK, the comparators stand still. Elsewhere LIVE shows them as the thresholds and their
hysteresis give them, and one that leaves its window, where nothing blanks it, sets its TRIP bit and its event and,
with an action that drops the gate, drops GATE and GATE_ON and is reported. The end of a blanking time acts on what
still differs, that of GON_BLANK trips what is outside, TRIP_CLR clears the bits whose comparators are back, and a
period's end, at its time, stores its means; a period that EN cut ends with PARTIAL. (R168, R170, R171, R172, R173,
R176, R177.) -/
def Obligations.SupplyGuard : Prop :=
  ∀ (s : State) (n : Fin 64),
    (∀ v i, s.bit (F.SG_CTRL_EN n) = false ∨ s.fld F.PWR_STAT_STATE = 4 → exec (.sgTrip n (v, i)) s = .next s) ∧
    (∀ v i, s.bit (F.SG_CTRL_EN n) = true → s.fld F.PWR_STAT_STATE ≠ 4 →
      ∃ t, exec (.sgTrip n (v, i)) s = .next t ∧
        t.fld (F.SG_LIVE_LIVE n) = (s.sgOutputs n (s.sg n).live v i).toNat ∧
        (t.sg n).live = s.sgOutputs n (s.sg n).live v i ∧
        (s.bit (F.SG_CTRL_FILT n) = false → (s.fld (F.SG_HYST_VHYST n) = 0 →
          ((t.sg n).live.getLsbD 0 = true ↔ v < (((s.reg (R.SG_VLO n)).toNat : Int) - 32768) * 256) ∧
          ((t.sg n).live.getLsbD 1 = true ↔ (((s.reg (R.SG_VHI n)).toNat : Int) - 32768) * 256 < v)) ∧
          (s.fld (F.SG_HYST_IHYST n) = 0 →
          ((t.sg n).live.getLsbD 2 = true ↔ i < (((s.reg (R.SG_ILO n)).toNat : Int) - 32768) * 256) ∧
          ((t.sg n).live.getLsbD 3 = true ↔ (((s.reg (R.SG_IHI n)).toNat : Int) - 32768) * 256 < i) ∧
          ((t.sg n).live.getLsbD 4 = true ↔ (((s.reg (R.SG_ICRIT n)).toNat : Int) - 32768) * 256 < i))) ∧
        (∀ k : Fin 5, (t.sg n).live.getLsbD k = true → (s.sg n).acted.getLsbD k = false →
          k.val = 4 ∨ (s.gonBlank n = false ∧ (s.bit (F.SG_CTRL_FILT n) = false ∨
            tabGet (fun _ => 0) (s.sg n).blankEnd k ≤ s.now)) →
          (t.fld (F.SG_TRIP_TRIP n)).testBit k = true ∧ (t.sg n).acted.getLsbD k = true ∧
          ((s.fld (F.SG_TRIP_TRIP n)).testBit k = false →
            t.rcHost (R.SG_TRIP_EVT n) &&& BitVec.ofNat 16 (2 ^ k.val) = BitVec.ofNat 16 (2 ^ k.val) ∧
            t.rcSpx1 (R.SG_TRIP_EVT n) &&& BitVec.ofNat 16 (2 ^ k.val) = BitVec.ofNat 16 (2 ^ k.val)) ∧
          (2 ≤ s.sgAction n k → (t.sg n).gate = false ∧ t.bit (F.SG_CTRL_GATE_ON n) = false ∧
            s.plainEvent (0x080 + n.val) n ∈ t.reported.drop s.reported.length)) ∧
        ((∀ k : Fin 5, (t.sg n).live.getLsbD k = (s.sg n).acted.getLsbD k) →
          t.fld (F.SG_TRIP_TRIP n) = s.fld (F.SG_TRIP_TRIP n) ∧ (t.sg n).gate = (s.sg n).gate ∧
            t.reported = s.reported) ∧
        (∀ j, j ≠ n.val → t.sg j = s.sg j) ∧ s.memoryKept t) ∧
    (∀ k : Fin 5, ∃ t, exec (.sgBlankExpiry n k) s = .next t ∧ (∀ j, j ≠ n.val → t.sg j = s.sg j) ∧ s.memoryKept t ∧
      (if tabGet (fun _ => 0) (s.sg n).blankEnd k = 0 ∨ s.now < tabGet (fun _ => 0) (s.sg n).blankEnd k then t = s
       else if (s.sg n).live.getLsbD k = (s.sg n).acted.getLsbD k ∨ s.bit (F.SG_CTRL_EN n) = false then
        tabGet (fun _ => 0) (t.sg n).blankEnd k = 0 ∧ t = { s with sgs := t.sgs }
       else (t.sg n).acted.getLsbD k = (s.sg n).live.getLsbD k ∧
        ((s.sg n).live.getLsbD k = true → k.val = 4 ∨ s.gonBlank n = false →
          (t.fld (F.SG_TRIP_TRIP n)).testBit k = true))) ∧
    (∃ t, exec (.sgGonBlankEnd n) s = .next t ∧ (∀ j, j ≠ n.val → t.sg j = s.sg j) ∧ s.memoryKept t ∧
      (if (s.sg n).gonEnd = none ∨ s.now < (s.sg n).gonEnd.getD 0 then t = s
       else (t.sg n).gonEnd = none ∧
        (∀ k : Fin 4, (s.sg n).live.getLsbD k = true → (t.fld (F.SG_TRIP_TRIP n)).testBit k = true) ∧
        ((∀ k : Fin 4, (s.sg n).live.getLsbD k = false) → t = { s with sgs := t.sgs }))) ∧
    (¬s.Runs (R.SG_CMD n) → exec (.sgTripClr n) s = .next s) ∧
    (s.Runs (R.SG_CMD n) → ∃ t, exec (.sgTripClr n) s = .next t ∧
      t.fld (F.SG_TRIP_TRIP n) = s.fld (F.SG_TRIP_TRIP n) &&& (s.sg n).live.toNat ∧ s.regsKept [R.SG_TRIP n] t ∧
      t = { s with regs := t.regs, copyB := t.copyB, copyC := t.copyC }) ∧
    (∀ vs is : List Int, ∃ t, exec (.sgPeriodEnd n vs is) s = .next t ∧ (∀ j, j ≠ n.val → t.sg j = s.sg j) ∧
      s.memoryKept t ∧
      (if (s.sg n).ending = true then (t.sg n).ending = false ∧ t.flagged (F.SG_RES_STAT_NEW n) ∧
          t.flagged (F.SG_RES_STAT_PARTIAL n) ∧ t.fld (F.SG_TRIP_TRIP n) = s.fld (F.SG_TRIP_TRIP n)
       else if s.bit (F.SG_CTRL_EN n) = true ∧ (s.sg n).periodStart + (s.fld (F.SG_PERIOD_PERIOD n) + 1) * 10240 ≤
         s.now then
        (t.sg n).periodStart = (s.sg n).periodStart + (s.fld (F.SG_PERIOD_PERIOD n) + 1) * 10240 ∧
        (∀ v i, s.fld (F.SG_PERIOD_PERIOD n) = 0 → vs = [v] → is = [i] →
          t.reg (R.SG_V_RES_L n) = BitVec.ofInt 16 v ∧ t.reg (R.SG_I_RES_L n) = BitVec.ofInt 16 i) ∧
        t.flagged (F.SG_RES_STAT_NEW n) ∧
        t.fld (F.SG_TRIP_TRIP n) = (if s.bit (F.SG_CTRL_LATCH_MODE n) = true then s.fld (F.SG_TRIP_TRIP n) &&& (s.sg
          n).live.toNat
          else s.fld (F.SG_TRIP_TRIP n))
       else t = s))

/-- CHECK passes exactly where L1 holds for every group and no powered quarter fails L2, and what fails is flagged. A
window closes once it is past, not before; its predictions then wait for the sensors, and one above QCEIL sets
OVERRUN and is reported against its quarter; from NAP on no prediction is formed. The results of the oldest closed
window are taken 1.5 µs after its end, not before: a failed or full-scale sensor of an enabled window sets
SENSOR_ERR, an exceedance for the ANOM_Nth window in a row is an anomaly, reported by its scope. (R194, R196, R198,
R200, R328.) -/
def Obligations.LedgerWindows : Prop :=
  ∀ s : State,
    (∀ m : Master, s.Takes m R.LEDG_CTRL → ∃ t, exec (.ledgerCheck m) s = .next t ∧
      (t.led.passed = true ↔ (∀ g, g < 8 → checkL1 s g = true) ∧ (∀ q, q < 16 → s.quarterOn q = true →
        s.l2Fail q = none)) ∧
      ((∃ g : Fin 8, checkL1 s g = false) → t.flagged F.LEDG_STAT_L1_FAIL) ∧
      ((∃ q : Fin 16, s.quarterOn q = true ∧ (s.l2Fail q).isSome = true) → t.flagged F.LEDG_STAT_L2_FAIL) ∧
      s.regsKept [R.LEDG_FIRST, R.LEDG_L2_ADDR] t ∧ s.memoryKept t ∧
          t = { s with
            regs := t.regs, copyB := t.copyB, copyC := t.copyC, hostRc := t.hostRc, spx1Rc := t.spx1Rc,
            cycle := t.cycle, win := t.win, msgs := t.msgs, evcs := t.evcs, led := t.led }) ∧
    (∃ t, exec .ledgerWindowEnd s = .next t ∧
      (if s.now < 640 * (s.led.window + 1) then t = s else
        t.led.window = s.led.window + 1 ∧ s.regsKept [R.LEDG_FIRST] t ∧ s.memoryKept t ∧
        t.led.en = s.bit F.LEDG_CTRL_ANOM_EN ∧
        (2 ≤ s.pstate → t.led.waitq = s.led.waitq ∧ t.reported = s.reported) ∧
        (s.pstate < 2 → t.led.waitq.dropLast = s.led.waitq ∧ t.led.waitq.length = s.led.waitq.length + 1 ∧
          (∀ w, t.led.waitq.getLast? = some w → w.no = s.led.window ∧ w.en = s.led.en ∧
            (∀ (q : Fin 16) (g : Fin 8), s.fld (F.LEDG_QCEIL_QCEIL q g) < tabGet (fun _ => 0) w.pred (q.val * 8 +
              g.val) →
              t.flagged F.LEDG_STAT_OVERRUN ∧
              s.plainEvent (0x108 + 16 * q.val) g ∈ t.reported.drop s.reported.length))) ∧
          t = { s with
            regs := t.regs, copyB := t.copyB, copyC := t.copyC, hostRc := t.hostRc, spx1Rc := t.spx1Rc,
            win := t.win, msgs := t.msgs, evcs := t.evcs, reported := t.reported, led := t.led })) ∧
    (∀ ms bad, s.led.waitq = [] → exec (.ledgerSensorResult ms bad) s = .next s) ∧
    (∀ (ms : List (Nat × Nat)) (bad : List Nat) (w : LedWin), s.led.waitq.head? = some w →
      ∃ t, exec (.ledgerSensorResult ms bad) s = .next t ∧
      (if s.now < 640 * (w.no + 1) + 960 then t = s else
        t.led.waitq = s.led.waitq.drop 1 ∧ t.led.obsPred = w.pred ∧ t.led.obsWin = w.no ∧
          s.regsKept [R.LEDG_FIRST] t ∧
        s.memoryKept t ∧ (w.en = false → t.reported = s.reported) ∧
        (∀ k : Fin 136, k.val / 8 = 16 ∨ (k.val % 8 ≠ 0 ∧ k.val % 8 ≠ 1 ∧ k.val % 8 ≠ 7) → w.en = true →
          let m := ((ms.find? fun e => e.1 == k.val).map (·.2)).getD 0
          let src := if k.val / 8 = 16 then 0x060 else 0x109 + 16 * (k.val / 8)
          let exceeds := tabGet (fun _ => 0) w.pred k * (100 + s.fld F.LEDG_CTRL_MARGIN_REL) +
            100 * s.fld (F.LEDG_MARGIN_ABS_MARGIN_ABS (k.val % 8)) < 100 * m
          (k.val ∈ bad ∨ 65535 ≤ m → t.flagged F.LEDG_STAT_SENSOR_ERR ∧
            s.plainEvent src (k.val % 8) ∈ t.reported.drop s.reported.length) ∧
          (k.val ∉ bad → m < 65535 → exceeds →
            if max 1 (s.fld F.LEDG_CTRL_ANOM_N) ≤ tabGet (fun _ => 0) s.led.run k + 1 then
              t.flagged F.LEDG_STAT_ANOM ∧ s.plainEvent src (k.val % 8) ∈ t.reported.drop s.reported.length ∧
              tabGet (fun _ => 0) t.led.run k = 0
            else tabGet (fun _ => 0) t.led.run k = tabGet (fun _ => 0) s.led.run k + 1) ∧
          (k.val ∉ bad → m < 65535 → ¬exceeds → tabGet (fun _ => 0) t.led.run k = 0)) ∧
          t = { s with
            regs := t.regs, copyB := t.copyB, copyC := t.copyC, hostRc := t.hostRc, spx1Rc := t.spx1Rc,
            win := t.win, msgs := t.msgs, evcs := t.evcs, reported := t.reported, led := t.led }))

/-- A grant starts the activity it names and takes it off the waiting list, and with nothing to grant does nothing. A
session request on a free quarter is granted at once and on a quarter with a slot waits with SESS_W; a repeated
request changes nothing. A slot's end, at its time and not before, moves each channel's threshold and edge shadows by
at most one toward balance beyond the dead band, within their limits, or flags a stuck comparator; an overdue channel
of an enabled site is flagged once. (R199, R295, R296, R297, R298, R300, R301.) -/
def Obligations.Calibration : Prop :=
  ∀ s : State,
    (s.nextGrant = none → exec .maintenanceGrant s = .next s) ∧
    (∀ a, s.nextGrant = some a → ∃ t, exec .maintenanceGrant s = .next t ∧
      a ∈ t.cal.running ∧ a ∉ t.cal.waiting ∧ (∀ b, b ∈ s.cal.running → b ∈ t.cal.running) ∧
      (a < 16 → t.bit (F.TDCC_DLL_STAT_RELOCKING a) = true ∧ t.bit (F.TDCC_DLL_STAT_RELOCK_PEND a) = false) ∧
      (a = 16 → t.bit F.TDCC_BORROW_BORROW = true ∧ t.lace.surveying = true) ∧
      (a = 17 → t.bit F.CAL_MREQ_GRANTED = true ∧ t.cal.session = s.fld F.CAL_MREQ_QUARTER) ∧
      (a = 18 → ∀ n, s.nvm.storing = some n → t.nvm.granted = true ∧ t.nvm.target = s.storeTarget n)) ∧
    (∀ (m : Master) (q : Fin 16), s.Takes m R.CAL_MREQ →
      (fieldOf (s.reg R.CAL_MREQ) 4 1 = 1 → s.fld F.CAL_MREQ_QUARTER = q.val → ∃ t,
        exec (.calSessionRequest m q) s = .next t ∧
        t.cal = s.cal ∧ s.regsKept [] t ∧ s.memoryKept t) ∧
      (fieldOf (s.reg R.CAL_MREQ) 4 1 = 0 → 17 ∉ s.cal.running → 17 ∉ s.cal.waiting →
        ∃ t, exec (.calSessionRequest m q) s = .next t ∧ fieldOf (t.reg R.CAL_MREQ) 4 1 = 1 ∧
          t.fld F.CAL_MREQ_QUARTER = q.val ∧
        (s.slotRuns q = false → q.val ∉ s.cal.running →
          17 ∈ t.cal.running ∧ t.cal.session = q ∧ t.bit F.CAL_MREQ_GRANTED = true) ∧
        (s.slotRuns q = true → 17 ∈ t.cal.waiting ∧ 17 ∉ t.cal.running ∧ t.flagged F.CAL_ARB_WAIT_SESS_W ∧
          t.cal.running = s.cal.running) ∧ s.memoryKept t)) ∧
    (∀ (q : Fin 16) (rs : List CalResult), s.slotRuns q = false → exec (.calSlotEnd q rs) s = .next s) ∧
    (∀ (q : Fin 16) (rs : List CalResult) (x : CalSlot), tabGet (fun _ => none) s.cal.slots q = some x →
      x.chans.Nodup →
      ∃ t, exec (.calSlotEnd q rs) s = .next t ∧
        (if s.now < x.start + 4096 then t = s else
          t.slotRuns q = false ∧ (∀ k, k ∉ x.chans → t.calCh k = s.calCh k) ∧ s.memoryKept t ∧
          (∀ c, c ∈ x.chans →
            let r := (rs.find? fun r => r.ch == c).getD { ch := c, above := 0, trans := 0, early := 0 }
            let db : Int := s.fld F.CAL_CFG_DEADBAND
            if r.above < 287 ∨ 28385 < r.above ∨ r.trans = 0 then
              (t.calCh c).stat = 5 ∧ t.flagged F.CAL_STAT_CMP_STUCK ∧ (t.calCh c).shadowS = (s.calCh c).shadowS ∧
              (t.calCh c).shadowE = (s.calCh c).shadowE ∧
              s.plainEvent (0x10A + 16 * (c / 64)) c ∈ t.reported.drop s.reported.length
            else (t.calCh c).stat = 1 ∧ (t.calCh c).ageBase = (s.q (c / 64)).bodyGran ∧ (t.calCh c).stale = false ∧
              (t.calCh c).shadowS = clampInt (-512) 512 ((s.calCh c).shadowS +
                (if db < (r.above : Int) - 14336 then 1 else if (r.above : Int) - 14336 < -db then -1 else 0)) ∧
              (t.calCh c).shadowE = clampInt (-1024) 1024 ((s.calCh c).shadowE +
                (if db < 2 * (r.early : Int) - r.trans then -1 else if 2 * (r.early : Int) - r.trans < -db then 1
                  else 0))))) ∧
    (∀ c : Fin 1024, ∃ t, exec (.calAgeLimit c) s = .next t ∧
      ((s.chan c).site = none → t = s) ∧
      (∀ i, (s.chan c).site = some i →
        if (s.fld (F.QSEQ_SITE_CFG_SITE_EN (c.val / 64))).testBit i = true ∧ s.bit F.CAL_CFG_AGE_EN = true ∧
          max 1 (s.fld F.CAL_CFG_MAX_AGE) * 80000 ≤ s.calAge c ∧ (s.calCh c).stale = false then
        (t.calCh c).stale = true ∧ t.flagged F.CAL_STAT_CAL_STALE ∧ (∀ k, k ≠ c.val → t.calCh k = s.calCh k) ∧
        t.reported = s.reported ++ [s.plainEvent (0x10A + 16 * (c.val / 64)) c] ∧ s.regsKept [] t ∧ s.memoryKept t
       else t = s))

/-- STORE is refused on a worn-out target and, for a locked key page, with LOCKED_REF, does nothing while one runs, and
otherwise runs on the selected page; its end puts the staging buffer's payload and the next generation into the
target, or with a failed read-back flags VERIFY_ERR and reports it, and shows DONE either way. LOAD is refused while
a covered quarter runs; its end puts the current copy's payload in force, or flags a bad page. With none running, or
without clock and supply, these do nothing. (R288, R290, R291, R292, R293, R346.) -/
def Obligations.PersistentStorage : Prop :=
  ∀ s : State,
    (¬s.Runs R.NVM_CMD → exec .nvmStore s = .next s ∧ exec .nvmLoad s = .next s) ∧
    (s.Runs R.NVM_CMD → ∃ t, exec .nvmStore s = .next t ∧ s.memoryKept t ∧
      (if s.nvm.storing ≠ none then t = s
       else if 100000 ≤ s.pageDw (s.storeTarget (s.fld F.NVM_SEL_LPN)) 3 then t.flagged F.NVM_STAT_WEAR_OUT ∧
         t.nvm = s.nvm ∧
        s.regsKept [] t
       else if s.fld F.NVM_SEL_LPN = 0 ∧ s.keyLocked = true then t.flagged F.NVM_STAT_LOCKED_REF ∧ t.nvm = s.nvm ∧
        s.regsKept [] t
       else t.nvm.storing = some (s.fld F.NVM_SEL_LPN) ∧ t.bit F.NVM_STAT_RUNNING = true)) ∧
    (∀ ok, s.nvm.storing = none ∨ s.nvm.granted = false → s.thm.shutPend = false →
      exec (.nvmStoreComplete ok) s = .next s) ∧
    (∀ n ok, s.nvm.storing = some n → s.nvm.granted = true → n < 32 → s.nvm.target / 2 = n →
      ∃ t, exec (.nvmStoreComplete ok) s = .next t ∧ t.nvm.storing = none ∧
        (s.thm.shutPend = false → t.bit F.NVM_STAT_RUNNING = false ∧ t.flagged F.NVM_STAT_DONE) ∧
        (∀ j i, j ≠ s.nvm.target → i < 1024 → t.pageDw j i = s.pageDw j i) ∧
        (ok = true → (∀ i, 4 ≤ i → i < 1023 → t.pageDw s.nvm.target i = (s.winGet (0x5C000 + 4 * i)).toNat) ∧
          t.pageDw s.nvm.target 1 = (match s.current n with
            | some p => (s.pageDw p 1 + 1) % 2 ^ 32
            | none => 1) ∧
          t.pageDw s.nvm.target 0 % 2 ^ 16 = n ∧ t.pageDw s.nvm.target 3 = s.nvm.cyc % 2 ^ 32) ∧
        (ok = false → t.nvm.pages = s.nvm.pages ∧ t.flagged F.NVM_STAT_VERIFY_ERR ∧
          s.plainEvent 0x063 n ∈ t.reported.drop s.reported.length)) ∧
    (s.Runs R.NVM_CMD → ∃ t, exec .nvmLoad s = .next t ∧
      (if (pageQuarters (s.fld F.NVM_SEL_LPN)).all (fun q => s.stopped q || !s.quarterOn q) = true then
        t = { s with nvm := t.nvm } ∧ t.nvm.loading = some (s.fld F.NVM_SEL_LPN) ∧ t.nvm.force = s.nvm.force
       else t.flagged F.NVM_STAT_REFUSED ∧ s.eventsOnly t)) ∧
    (s.nvm.loading = none → exec .nvmLoadComplete s = .next s) ∧
    (∀ n, s.nvm.loading = some n → ∃ t, exec .nvmLoadComplete s = .next t ∧ t.nvm.loading = none ∧ s.memoryKept t ∧
      t.nvm.pages = s.nvm.pages ∧
      (n < 26 → n ≠ 1 → s.regsKept [R.NVM_BAD_L, R.NVM_BAD_H] t) ∧
      (∀ p, s.current n = some p → ∀ i, i < 1019 →
        tabGet (fun _ => 0) t.nvm.force (n * 1024 + i) = BitVec.ofNat 32 (s.pageDw p (4 + i))) ∧
      (s.current n = none → t.flagged F.NVM_STAT_PAGE_BAD ∧
        s.plainEvent 0x064 n ∈ t.reported.drop s.reported.length ∧
        ∀ i, i < 1019 → tabGet (fun _ => 0) t.nvm.force (n * 1024 + i) = 0))

/-- A dword-3 write, under whichever command, stores the dword: one that raises EN enables a ring whose descriptor passes
its checks and otherwise flags DESC_ERR; one that lowers EN empties the ring; one that keeps EN takes HWM, LWM and IE
at once; on a ring that is off and stays off nothing else happens. A polled CONS is taken, and HOST_FULL shows where
the buffer is still full; coalescing time over sends the ring's vector where it may send one; a failed pump access
stops the pump, shows the ring and is reported. Where these have nothing to act on they do nothing. Other rings stay.
(R52, R218, R219, R220, R222, R223, R224.) -/
def Obligations.RingSetup : Prop :=
  ∀ (s : State) (r : Fin 65536),
    (∀ (m : Master) (v : Dword), exec (.ringDisable m r v) s = exec (.ringEnable m r v) s ∧
      exec (.ringParamUpdate m r v) s = exec (.ringEnable m r v) s) ∧
    (∀ (m : Master) (v : Dword), s.Serves m (ringAddr r + 12) → s.bootRefuses m (ringAddr r + 12) = false →
      let d : Desc := v ++ s.winGet (ringAddr r + 8) ++ s.winGet (ringAddr r + 4) ++ s.winGet (ringAddr r)
      ∃ t, exec (.ringEnable m r v) s = .next t ∧ t.winGet (ringAddr r + 12) = v ∧ (∀ k, k ≠ r.val →
        t.ring k = s.ring k) ∧
        (∀ b, b < 0x47000 ∨ 0x47100 ≤ b → b ≠ ringAddr r + 12 → t.winGet b = s.winGet b) ∧
        ((s.ring r).on = false → rdEn d = false → t.ring r = s.ring r ∧ t = { hostTlps m true s with win := t.win }) ∧
        ((s.ring r).on = false → rdEn d = true → s.ringOk r d = false →
          t.ring r = s.ring r ∧ t.flagged F.RING_STAT_DESC_ERR ∧ t.fld F.RING_ERR_RING_RING = r.val ∧
          t.reported = s.reported ++ [s.plainEvent 0x041 r]) ∧
        ((s.ring r).on = false → rdEn d = true → s.ringOk r d = true → (t.ring r).on = true ∧
          (t.ring r).drained = (s.ring r).rseq ∧ (t.ring r).hbase = rdHbase d ∧ (t.ring r).hsize = rdHsize d ∧
          (t.ring r).vec = rdVec d ∧ (t.ring r).ie = rdIe d ∧ t.reported = s.reported ∧
          ((s.ring r).lost = [] → (s.ring r).waits = [] → (t.ring r).fill = 0 ∧ (t.ring r).rseq = (s.ring r).rseq ∧
            t.hbm = s.hbm)) ∧
        ((s.ring r).on = true → rdEn d = false → (t.ring r).on = false ∧
          (t.ring r).fill = 0 ∧ (t.ring r).drained = (s.ring r).rseq ∧ (t.ring r).waits = [] ∧
          (0 < (s.ring r).fill → (t.ring r).lost ≠ []) ∧ t.hbm = s.hbm) ∧
        ((s.ring r).on = true → rdEn d = true →
          t.ring r = { s.ring r with hwm := rdHwm d, lwm := rdLwm d, ie := rdIe d } ∧
          t = { hostTlps m true s with win := t.win, rings := t.rings })) ∧
    (∀ cons : BitVec 32, ∃ t, exec (.ringConsPoll r cons) s = .next t ∧
      (if (s.ring r).on = true ∧ (s.ring r).waitHost = true ∧ s.bit F.RING_CTRL_PUMP_EN = true ∧ s.linkUp = true ∧
          ((s.ring r).lastPoll = 0 ∨ (s.ring r).lastPoll + 640 ≤ s.now) then
        (t.ring r).cons = cons.toNat ∧ (t.ring r).lastPoll = s.now ∧ (t.ring r).waitHost = t.hostFull r ∧
        (t.hostFull r = true → t.flagged F.RING_STAT_HOST_FULL) ∧ (∀ k, k ≠ r.val → t.ring k = s.ring k) ∧
        s.regsKept [] t ∧ s.memoryKept t ∧
          t = { s with
            hostRc := t.hostRc, spx1Rc := t.spx1Rc, win := t.win, msgs := t.msgs, evcs := t.evcs,
            rings := t.rings }
       else t = s)) ∧
    (∃ t, exec (.ringCoalesceTimeout r) s = .next t ∧
      (if 0 < (s.ring r).uncovered ∧ (s.ring r).uncSince + 640 * s.fld F.RING_COAL_TIME ≤ s.now ∧
        (s.ring r).ie = true ∧
          256 ≤ (s.ring r).vec then
        (t.ring r).uncovered = 0 ∧ (∀ k, k ≠ r.val → t.ring k = s.ring k) ∧ s.regsKept [] t ∧ s.memoryKept t ∧
        (s.bit F.HOST_IRQ_CFG_IRQ_EN = true → s.pcie.cfg.msixEnable = true →
          if s.msixMasked ((s.ring r).vec % s.vectors) = true then
            (t.winGet (0x47000 + (s.ring r).vec % s.vectors / 32 * 4)).getLsbD ((s.ring r).vec % s.vectors % 32) =
              true
          else (s.ring r).vec % s.vectors ∈ t.msgs.drop s.msgs.length)
       else t = s)) ∧
    (∀ write, ∃ t, exec (.dmaError r write) s = .next t ∧ (s.bit F.RING_CTRL_PUMP_EN = false → t = s) ∧
      (s.bit F.RING_CTRL_PUMP_EN = true →
        t.bit F.RING_CTRL_PUMP_EN = false ∧ t.fld F.RING_ERR_RING_RING = r.val ∧ t.flagged F.RING_STAT_DMA_ERR ∧
        t.reported = s.reported ++
          [{ s.plainEvent 0x040 r with cls := 1, master := 6, acc := if write = true then 5 else 4 }] ∧
        t.rings = s.rings ∧ s.regsKept [R.RING_ERR_RING, R.RING_CTRL] t ∧ s.memoryKept t))

/-- A free write slot takes the oldest record of the quarter's queue into its ring: its 64 bytes with the ring's next
RSEQ go to the place of that RSEQ, and nowhere else in HBM; a record for a ring that is off is dropped, counted for
that ring and reported; a priority record without space stays, another is dropped and counted. With no slot left or
nothing queued nothing is written. A pump slot moves the picked ring's next record, or for one that is not good the
substitute record, to the host buffer's next place and then writes PROD, and the ring's drained count steps on; with
the pump off, the link down, no slot left or nothing to drain no record moves. (That a record's place is its RSEQ's
is the model's reading, log entry 21.) (R211, R212, R213, R215, R220, R221, R222.) -/
def Obligations.RecordsFlow : Prop :=
  ∀ (s : State),
    (∀ q : Fin 16, ∃ t, exec (.recordWriteSlot q) s = .next t ∧
      let used := if (s.r q).slotAt = granuleOf s.now then (s.r q).slotUsed else 0
      let free := used < slotsIn (max 1 (min 64 (s.fld (F.QRES_REC_UNITS_UNITS q)))) (granuleOf s.now / 8 % 8)
      (¬free → t = s) ∧
      ((s.r q).queue = [] → t.rings = s.rings ∧ s.regsKept [] t ∧ s.memoryKept t ∧ (t.r q).queue = []) ∧
      (∀ x : Record, free → (s.r q).queue.head? = some x →
        let g := s.ring x.ring
        let a := g.hbase * 4096 + g.rseq % ringCap g * 64
        let fits := g.clear = true ∧ (g.fill + 64 < ringCap g ∨ (x.prio = true ∧ g.fill < ringCap g))
        (g.on = true → fits → (t.r q).queue = (s.r q).queue.drop 1 ∧ (t.ring x.ring).rseq = (g.rseq + 1) % 2 ^ 32 ∧
          (t.ring x.ring).fill = g.fill + 1 ∧ (∀ k, k ≠ x.ring → t.ring k = s.ring k) ∧
          (g.cycle ≠ s.now / 2 + 1 → g.rseq < 2 ^ 32 →
            (∀ i, i < 64 → t.hbmByte (a + i) = (recordUnit s.chipId g.rseq x).getD i 0) ∧
            (∀ b, b < a ∨ a + 64 ≤ b → t.hbmByte b = s.hbmByte b))) ∧
        (g.on = true → ¬fits → x.prio = true → (t.r q).queue = (s.r q).queue ∧ t.rings = s.rings ∧ s.memoryKept t) ∧
        (g.on = true → ¬fits → x.prio = false → (t.r q).queue = (s.r q).queue.drop 1 ∧
          t.flagged (F.QRES_STAT_LOSS q)) ∧
        (g.on = false → (t.r q).queue = (s.r q).queue.drop 1 ∧ t.flagged F.RING_STAT_DISC_DROP ∧
          t.flagged (F.QRES_STAT_LOSS q) ∧ (t.ring x.ring).lost ≠ [] ∧
            t.reported = s.reported ++ [s.plainEvent 0x043 x.ring] ∧
          s.memoryKept t))) ∧
    (∀ ecc : Fin 3, ∃ t, exec (.ringPumpGrant ecc) s = .next t ∧
      let used := if s.pumpAt = granuleOf s.now then s.pumpUsed else 0
      let free := s.bit F.RING_CTRL_PUMP_EN = true ∧ s.linkUp = true ∧
        used < slotsIn (max 1 (s.fld F.RING_PUMPBW_UNITS)) (granuleOf s.now / 8 % 8)
      (¬free → t = s) ∧
      (s.pumpPick = none → t.hostMem = s.hostMem ∧ t.hbm = s.hbm) ∧
      (∀ r, free → s.pumpPick = some r →
        let g := s.ring r
        let a := g.hbase * 4096 + g.drained % ringCap g * 64
        let unit := (List.range 64).map fun i => s.hbmByte (a + i)
        let good := ecc.val ≠ 2 ∧ crc32c (unit.take 60) = s.hbmNat (a + 60) 4 ∧ s.hbmNat (a + 4) 4 = g.drained
        t.pumpNext = r + 1 ∧
        t.hostMem = s.hostMem ++
          [{ addr := g.hostBase * 4096 + g.drained % hostCap g * 64, bytes := if good then unit else substitute s g.drained },
          { addr := s.controlBlock r, bytes := bytesOf ((g.drained + 1) % 2 ^ 32) 4 }] ∧
        (¬good → t.flagged F.RING_STAT_UE_SUB ∧ s.plainEvent 0x042 r ∈ t.reported.drop s.reported.length) ∧
        (t.ring r).drained = (g.drained + 1) % 2 ^ 32 ∧
        (g.lost = [] → g.waits = [] → (t.ring r).fill = g.fill - 1 ∧ s.memoryKept t)) ∧
      (∀ k, s.hostFull k = true → k ∈ s.pumpable → free → t.flagged F.RING_STAT_HOST_FULL ∧
        (t.ring k).waitHost = true))

/-- ARM and the selected source open the window of a ready disarmed unit and are refused with their flag, event and TIME
record anywhere else; a source of no ball or SG event arms nothing here. The first start after the window opens is
taken; a stop is recorded, or lost with COLLIDE nearer than one PCLK to the event before it, and the NSTOP-th closes
the window. DISARM, the gate, TMO and the range limit close an open window with their flags and nothing else; the
result is written two granule boundaries later with DONE, its flags and latch 0x92 + k, and re-arms the unit where it
should. In a quarter that is off none of these happens. (R175, R231, R232, R233, R234, R236, R239.) -/
def Obligations.TimeIntervals : Prop :=
  ∀ (s : State) (u : Fin 64),
    (s.quarterOn (u.val / 4) = false → ∀ d, exec (.tdcArmSource u d) s = .next s ∧
      exec (.tdcStartEvent u d) s = .next s ∧
      exec (.tdcStopEvent u d) s = .next s ∧ exec (.tdcGateClose u d) s = .next s ∧ exec (.tdcTimeout u) s = .next s ∧
      exec (.tdcRangeLimit u) s = .next s ∧ exec (.tdcResultWrite u) s = .next s) ∧
    (∀ m : Master, s.Takes m (R.TDC_CTRL u) →
      (∃ t, exec (.tdcArm m u) s = .next t ∧ s.arms u (granuleNext s.now + 48) false t) ∧
      (∃ t, exec (.tdcDisarm m u) s = .next t ∧ s.memoryKept t ∧ s.regsKept [] t ∧
        (if s.tdcState u = 0 ∨ (s.tdc u).result.isSome = true then t.tdcs = s.tdcs
         else s.closesWindow u s.now 0 false t))) ∧
    (∀ d, s.quarterOn (u.val / 4) = true → ∃ t, exec (.tdcArmSource u d) s = .next t ∧
      (if s.fld (F.TDC_ARM_CFG_SRC u) = 0 ∨ 7 ≤ s.fld (F.TDC_ARM_CFG_SRC u) then t = s
       else s.arms u (if s.fld (F.TDC_ARM_CFG_SRC u) ≤ 4 then s.now + d else s.now)
        (s.fld (F.TDC_ARM_CFG_SRC u) = 3 ∨ s.fld (F.TDC_ARM_CFG_SRC u) = 4) t)) ∧
    (∀ fine, s.quarterOn (u.val / 4) = true → ∃ t, exec (.tdcStartEvent u fine) s = .next t ∧
      let evt := s.fld (F.TDC_START_SEL_EVT u)
      (if s.tdcState u ≠ 1 ∨ s.tdcCounts u = false ∨ evt = 0 ∨ s.now < (s.tdc u).opens ∨
          (evt = 0x0E ∧ s.now % 8 ≠ 0) ∨ (evt = 0x0C ∧
            s.sgDelivers (s.fld (F.TDC_START_SEL_ARG u)) = false) then t = s
       else t.tdcState u = 2 ∧ (t.tdc u).start = some (t.tdc u).last ∧ (t.tdc u).stops = (s.tdc u).stops ∧
        (t.tdc u).last = (if evt = 0x0D then (((s.tdc u).opens * 2048 : Nat) : Int)
          else if evt = 0x0E then ((s.now * 2048 : Nat) : Int)
          else ((s.now * 2048 + fine : Nat) : Int) - s.tipOffset u evt (s.fld (F.TDC_START_SEL_ARG u))) ∧
        (∀ k, k ≠ u.val → t.tdc k = s.tdc k) ∧ s.regsKept [R.TDC_STATE u] t ∧
          t = { s with
            regs := t.regs, copyB := t.copyB, copyC := t.copyC, tdcs := t.tdcs })) ∧
    (∀ fine, s.quarterOn (u.val / 4) = true → ∃ t, exec (.tdcStopEvent u fine) s = .next t ∧
      let evt := s.fld (F.TDC_STOP_SEL_EVT u)
      let at_ := if evt = 0x0E then ((s.now * 2048 : Nat) : Int)
        else ((s.now * 2048 + fine : Nat) : Int) - s.tipOffset u evt (s.fld (F.TDC_STOP_SEL_ARG u))
      (s.tdcState u ≠ 2 ∨ (s.tdc u).start = none ∨ s.tdcCounts u = false ∨ evt = 0 ∨ (evt = 0x0E ∧ s.now % 8 ≠ 0) ∨
        (evt = 0x0C ∧ s.sgDelivers (s.fld (F.TDC_STOP_SEL_ARG u)) = false) → t = s) ∧
      (∀ t0, s.tdcState u = 2 → (s.tdc u).start = some t0 → s.tdcCounts u = true → evt ≠ 0 → (evt = 0x0E →
        s.now % 8 = 0) →
        (evt = 0x0C → s.sgDelivers (s.fld (F.TDC_STOP_SEL_ARG u)) = true) →
        s.memoryKept t ∧ s.regsKept [] t ∧ (t.tdc u).start = some t0 ∧ (∀ k, k ≠ u.val → t.tdc k = s.tdc k) ∧
        (if at_ - (s.tdc u).last < 2048 then (t.tdc u).stops = (s.tdc u).stops ∧ t.flagged (F.TDC_STAT_COLLIDE u) ∧
          (t.tdc u).result = (s.tdc u).result
         else (t.tdc u).stops = (s.tdc u).stops ++ [(at_ - t0).toNat] ∧ (t.tdc u).last = at_ ∧
          (max 1 (s.fld (F.TDC_NSTOP_NSTOP u)) ≤ (s.tdc u).stops.length + 1 →
            (t.tdc u).result = some (granuleNext s.now + 8) ∧ (t.tdc u).rearm = true) ∧
          ((s.tdc u).stops.length + 1 < max 1 (s.fld (F.TDC_NSTOP_NSTOP u)) →
            (t.tdc u).result = (s.tdc u).result)))) ∧
    (s.quarterOn (u.val / 4) = true →
      (∀ d, ∃ t, exec (.tdcGateClose u d) s = .next t ∧
        (if s.tdcState u = 0 ∨ (s.tdc u).result.isSome = true ∨ (s.tdc u).level = false then t = s
         else s.closesWindow u (s.now + d) 0x10 true t ∧ t = { s with tdcs := t.tdcs })) ∧
      (∃ t, exec (.tdcTimeout u) s = .next t ∧
        (if s.tdcState u = 0 ∨ (s.tdc u).result.isSome = true ∨ s.fld (F.TDC_TMO_TMO u) = 0 ∨
            s.now < (s.tdc u).opens + 640 * s.fld (F.TDC_TMO_TMO u) then t = s
         else s.closesWindow u ((s.tdc u).opens + 640 * s.fld (F.TDC_TMO_TMO u)) 0 true t ∧
           t = { s with tdcs := t.tdcs })) ∧
      ((s.tdc u).start = none → exec (.tdcRangeLimit u) s = .next s) ∧
      (∀ t0 : Int, (s.tdc u).start = some t0 → ∃ t, exec (.tdcRangeLimit u) s = .next t ∧
        (if s.tdcState u = 0 ∨ (s.tdc u).result.isSome = true ∨ s.now < (t0 / 2048).toNat + 2 ^ 21 then t = s
         else s.closesWindow u ((t0 / 2048).toNat + 2 ^ 21) 0 true t ∧ t = { s with tdcs := t.tdcs }))) ∧
    ((s.tdc u).result = none → exec (.tdcResultWrite u) s = .next s) ∧
    (∀ b, (s.tdc u).result = some b → s.quarterOn (u.val / 4) = true →
      ∃ t, exec (.tdcResultWrite u) s = .next t ∧
        (s.now < b → t = s) ∧
        (b ≤ s.now →
          t.flagged (F.TDC_STAT_DONE u) ∧ s.memoryKept t ∧ (∀ k, k ≠ u.val → t.tdc k = s.tdc k) ∧
          (∀ t0, (s.tdc u).start = some t0 →
            t.reg (R.TDC_START_DT0 u) = BitVec.ofNat 16 (t0 / 2048).toNat ∧
            t.reg (R.TDC_START_DT1 u) = BitVec.ofNat 16 ((t0 / 2048).toNat / 2 ^ 16) ∧
            t.reg (R.TDC_START_DT2 u) = BitVec.ofNat 16 ((t0 / 2048).toNat / 2 ^ 32) ∧
            t.reg (R.TDC_START_DT3 u) = BitVec.ofNat 16 ((t0 / 2048).toNat / 2 ^ 48) ∧
            t.fld (F.TDC_START_FINE_FINE u) = (t0 % 2048).toNat) ∧
          (∀ i, i < 15 → t.reg (R.TDC_STOP_L u i) = BitVec.ofNat 16 ((s.tdc u).stops.getD i 0) ∧
            t.reg (R.TDC_STOP_H u i) = BitVec.ofNat 16 ((s.tdc u).stops.getD i 0 / 2 ^ 16)) ∧
          ((s.tdc u).stops.length < 16 → t.fld (F.TDC_STATE_NGOT u) = (s.tdc u).stops.length) ∧
          (∀ k, k < 16 → (s.tdc u).flags.testBit k = true → t.flagged ⟨R.TDC_STAT u, k, 1⟩) ∧
          ((s.q (u.val / 4)).body = none → t.latched (u.val / 4) (0x92 + u.val % 4) = true) ∧
          ((s.tdc u).rearm = false ∨ s.bit (F.TDC_CTRL_REARM u) = false →
            t.tdcState u = 0 ∧ t.tdc u = {} ∧
            t.reported = (if (s.tdc u).flags.testBit 6 = true then
              s.reported ++ [s.plainEvent (0x10B + 16 * (u.val / 4)) u] else s.reported)) ∧
          ((s.tdc u).rearm = true → s.bit (F.TDC_CTRL_REARM u) = true → s.bit (F.TDC_CTRL_EN u) = true →
            s.qstate (u.val / 4) ≠ 9 → s.chipFault = false → s.tdcCfgOk u = true → s.tdcReady u = true →
            t.tdcState u = 1 ∧ (t.tdc u).opens = b ∧ (t.tdc u).level = (s.tdc u).level ∧ (t.tdc u).stops = [])))

/-- Each clock event changes the status it names, and nothing where it cannot occur: a lost DLL lock closes its open
windows and asks for a re-lock, RELOCK asks for those of the powered quarters it names; the trims move one code a ms,
the crystal's toward its computed code, the RCO's as its reference counts; a trip clears READY or the lock, is FATAL
in the core's, its reference's or the Shank's role and CORRECTED elsewhere, and falls back or enters clock-hold;
CLK.SRC takes what R316 allows and refuses the rest; clock-hold ends on its READY fall-back or is latched after 10
ms. (R238, R239, R240, R307, R308, R310, R311, R314, R315, R316, R317, R318.) -/
def Obligations.ClocksAndDlls : Prop :=
  ∀ s : State,
    (∀ q : Fin 16, ∃ t, exec (.dllLockLost q) s = .next t ∧
      (if s.bit (F.TDCC_DLL_STAT_LOCKED q) = false then t = s else
        t.bit (F.TDCC_DLL_STAT_LOCKED q) = false ∧ t.flagged (F.TDCC_DLL_STAT_LOST q) ∧ (t.dll q).lost = true ∧
        t.reported = s.reported ++ [s.plainEvent (0x10B + 16 * q.val) (4 * q.val)] ∧ s.memoryKept t ∧
        (s.quarterOn q = true → q.val ∈ t.cal.running ∨ q.val ∈ t.cal.waiting) ∧
        (∀ k, k < 4 → (if s.tdcState (4 * q.val + k) = 0 ∨ (s.tdc (4 * q.val + k)).result.isSome = true then
            t.tdc (4 * q.val + k) = s.tdc (4 * q.val + k)
           else (t.tdc (4 * q.val + k)).result = some (granuleNext s.now + 8) ∧
            (t.tdc (4 * q.val + k)).flags = (s.tdc (4 * q.val + k)).flags |||
              (if s.tdcState (4 * q.val + k) = 1 then 0x44 else 0x48) ∧ (t.tdc (4 * q.val + k)).rearm = false)))) ∧
    (∀ (m : Master) (mask data : Word), s.Takes m R.TDCC_RELOCK → ∃ t, exec (.tdcRelock m mask data) s = .next t ∧
      s.memoryKept t ∧ ∀ q : Fin 16,
        (if (mask &&& data).getLsbD q = true ∧ s.quarterOn q = true then q.val ∈ t.cal.running ∨ q.val ∈ t.cal.waiting
         else (q.val ∈ t.cal.running ∨ q.val ∈ t.cal.waiting ↔ q.val ∈ s.cal.running ∨ q.val ∈ s.cal.waiting))) ∧
    (∀ q : Fin 16, ∃ t, exec (.dllRelockComplete q) s = .next t ∧
      (if q.val ∈ s.cal.running then
        t.bit (F.TDCC_DLL_STAT_LOCKED q) = true ∧ t.bit (F.TDCC_DLL_STAT_RELOCKING q) = false ∧
          q.val ∉ t.cal.running ∧
          t.dll q = { lockTemp := s.temp q, lost := false } ∧ s.memoryKept t
       else t = s)) ∧
    (∃ t, exec .xoPullStep s = .next t ∧
      (if s.now < s.clk.pullNext then t = s else
        let c := s.fld F.TDCC_XO_PULL_PULL
        s.regsKept [R.TDCC_XO_PULL, R.TDCC_TB_STAT] t ∧ s.now < t.clk.pullNext ∧ t.clk.pullNext ≤ s.now + 640000 ∧
        t.fld F.TDCC_XO_PULL_PULL ≤ c + 1 ∧ c ≤ t.fld F.TDCC_XO_PULL_PULL + 1 ∧
        (s.bit F.TDCC_TB_CFG_PULL_EN = false ∨ s.nvm.loaded.testBit 1 = false ∨ s.nvm.bad.testBit 1 = true →
          t.fld F.TDCC_XO_PULL_PULL = (if c < 0x8000 then c + 1 else if 0x8000 < c then c - 1 else 0x8000)) ∧
        (s.bit F.TDCC_TB_CFG_PULL_EN = true → s.nvm.loaded.testBit 1 = true → s.nvm.bad.testBit 1 = false →
          s.bit F.TDCC_TB_CFG_TCOMP_EN = false →
          let goal := (clampInt 0 0xFFFF (0x8000 + if s.bit F.TDCC_TB_CFG_AGE_EN = true then
            signed 16 (s.fld F.TDCC_XO_AGE_AGE) else 0)).toNat
          t.fld F.TDCC_XO_PULL_PULL = (if c < goal then c + 1 else if goal < c then c - 1 else c)))) ∧
    (∃ t, exec .xoStartDelayEnd s = .next t ∧
      (if s.clk.xoOn = true ∧ s.clk.xoCounting = false ∧ s.clk.xoEnd ≤ s.now then
        t = { s with clk := { s.clk with xoCounting := true } }
       else t = s)) ∧
    (∀ k : Fin 4, ∃ t, exec (.clockSourceReady k) s = .next t ∧
      (if s.srcReady k = true ∨ s.srcPowered k = false ∨
          (s.bit F.CLK_MON_CFG_MON_EN = false ∧ (k.val = 0 ∨ k.val = 2)) ∨ (k.val = 0 ∧
            s.clk.xoCounting = false) then t = s
       else t.srcReady k = true ∧ s.regsKept [R.CLK_STAT] t ∧
         t = { s with regs := t.regs, copyB := t.copyB, copyC := t.copyC, clk := t.clk } ∧
        (k.val = 0 ∨ k.val = 2 → t.clk = s.clk) ∧ (k.val = 3 → t.clk = { s.clk with skoRan := true }) ∧
        (k.val = 1 → t.clk.xoOn = true ∧ (s.clk.xoOn = true → t.clk = s.clk) ∧
          (s.clk.xoOn = false → t.clk.xoEnd = s.now + xoDelayMs s.xoDelay * 640000)))) ∧
    (∀ k : Fin 6, ∃ t, exec (.clockMonitorTrip k) s = .next t ∧
      (s.monitored k = false → t = s) ∧
      (s.monitored k = true →
        let shank := (k.val = 3 ∧ s.srcReady 1 = false) ∨ (k.val = 1 ∧ s.srcReady 1 = true ∧ s.srcReady 3 = false)
        let role := s.bit F.CLK_STAT_HOLD = false ∧ ((s.core = 2 ∧
          (k.val = refSource (s.fld F.CLK_SRC_PLL_REF) ∨ k.val = 4)) ∨
          (s.core = 0 ∧ k.val = 1) ∨ (s.core = 1 ∧ k.val = 0))
        let fb := if s.core = 0 then 1 else 0
        t.flagged ⟨R.CLK_EVT, k.val + 1, 1⟩ ∧ t.reported.take s.reported.length = s.reported ∧ s.memoryKept t ∧
        (k.val < 4 → t.srcReady k = false) ∧ (k.val = 4 → t.bit F.CLK_STAT_PLL_LOCK = false) ∧
        (k.val = 5 → t.bit F.CLK_STAT_IPLL_LOCK = false) ∧
        (∃ e, t.reported.getLast? = some e ∧ e.src = 0x010 + k.val ∧ e.time = s.now ∧
          e.cls = (if shank ∨ role ∨ k.val = 5 then 2 else 0)) ∧
        (¬shank → ¬role → t.core = s.core ∧ (t.bit F.CLK_STAT_HOLD = s.bit F.CLK_STAT_HOLD) ∧
          s.regsKept [R.CLK_STAT] t) ∧
        (¬shank → role → s.srcReady fb = true → t.core = fb ∧ t.bit F.CLK_STAT_HOLD = false) ∧
        (shank ∨ (role ∧ s.srcReady fb = false) → t.bit F.CLK_STAT_HOLD = true) ∧
        (shank ∨ (role ∧ s.srcReady fb = false) → s.bit F.CLK_STAT_HOLD = false → t.flagged F.CLK_EVT_HOLD_ENTERED ∧
          t.bit F.PWR_PAD_HOLD_HOLD = true ∧ t.clk.holdSince = some s.now ∧ t.faultLow = true ∧
            t.clk.holdFall = if shank then 2 else fb))) ∧
    (∃ t, exec .clockHoldExit s = .next t ∧
      (s.holdOver = false → t = s) ∧
      (∀ t0, s.clk.holdSince = some t0 → s.clk.holdLocked = false → s.holdFallReady = true → s.pwr.stalled = [] →
        t.bit F.CLK_STAT_HOLD = false ∧ t.clk.holdSince = none ∧ s.memoryKept t ∧
        t.fld F.CLK_HOLD_TIME_TIME = min 0xFFFF ((s.now - t0) / 640) ∧
        (s.thm.shutPend = false → t.core = s.clk.holdFall))) ∧
    (∃ t, exec .clockHoldTimeout s = .next t ∧
      (s.clk.holdSince = none → t = s) ∧
      (∀ t0, s.clk.holdSince = some t0 →
        if s.clk.holdLocked = true ∨ s.holdFallReady = true ∨ s.now < t0 + 6400000 then t = s else
          t.flagged F.CLK_EVT_HOLD_TMO ∧ t.clk = { s.clk with holdLocked := true } ∧
          t.reported = s.reported ++ [s.plainEvent 0x019 0] ∧ s.regsKept [] t ∧ s.memoryKept t)) ∧
    (∀ up : Bool, ∃ t, exec (.rcoTrimStep up) s = .next t ∧
      (if s.bit F.CLK_RCO_TRIM_TRIM_EN = false ∨ s.srcPowered 1 = false ∨ s.now < s.clk.trimNext then t = s
       else
        let c := s.fld F.CLK_RCO_TRIM_CODE
        s.regsKept [R.CLK_RCO_TRIM] t ∧ s.now < t.clk.trimNext ∧ t.clk.trimNext ≤ s.now + 640000 ∧ s.memoryKept t ∧
        (if s.srcReady 0 = true ∨ s.laceJoined = true then
          t.fld F.CLK_RCO_TRIM_TSRC = (if s.srcReady 0 = true then 1 else 2) ∧ t.reported = s.reported ∧
          ((if up = true then c < 1023 else 0 < c) → t.fld F.CLK_RCO_TRIM_CODE = if up = true then c + 1 else c - 1)
         else t.fld F.CLK_RCO_TRIM_CODE = c ∧ t.fld F.CLK_RCO_TRIM_TSRC = 0 ∧ t.flagged F.CLK_EVT_TRIM_HOLD ∧
          t.reported = s.reported ++ [s.plainEvent 0x018 0]))) ∧
    (∃ t, exec .pllLock s = .next t ∧
      (if s.pllPowered = true ∧ s.srcReady (refSource (s.fld F.CLK_SRC_PLL_REF)) = true then
        t.bit F.CLK_STAT_PLL_LOCK = true ∧ s.regsKept [R.CLK_STAT, R.LACE_STAT, R.LACE_HOLD_STAT] t ∧
          t = { s with regs := t.regs, copyB := t.copyB, copyC := t.copyC, lace := t.lace }
       else t = s)) ∧
    (∃ t, exec .interfacePllLock s = .next t ∧
      (if s.pllPowered = true ∧ s.srcReady (refSource (s.fld F.CLK_SRC_PLL_REF)) = true then
        t.bit F.CLK_STAT_IPLL_LOCK = true ∧ s.regsKept [R.CLK_STAT] t ∧
          t = { s with regs := t.regs, copyB := t.copyB, copyC := t.copyC }
       else t = s)) ∧
    (∀ (m : Master) (mask data v : Word), s.Takes m R.CLK_SRC →
      v = (s.reg R.CLK_SRC &&& ~~~mask) ||| (data &&& mask) →
      ∃ t, exec (.clkSrcWrite m mask data) s = .next t ∧ s.memoryKept t ∧
        (if fieldOf v 0 2 = s.fld F.CLK_SRC_CORE ∧ fieldOf v 2 2 = s.fld F.CLK_SRC_PLL_REF then
          t.reg R.CLK_SRC = v ∧ s.regsKept [R.CLK_SRC] t ∧ t.reported = s.reported
         else if s.srcWriteOk (fieldOf v 0 2) (fieldOf v 2 2) = false then
          s.regsKept [] t ∧ t.flagged F.CLK_EVT_SW_REFUSED ∧ t.reported = s.reported ++ [s.plainEvent 0x017 0]
         else t.reg R.CLK_SRC = v ∧
          (fieldOf v 2 2 ≠ s.fld F.CLK_SRC_PLL_REF → t.bit F.CLK_STAT_PLL_LOCK = false ∧
            t.bit F.CLK_STAT_IPLL_LOCK = false) ∧
          (if fieldOf v 0 2 = 2 ∧ fieldOf v 2 2 ≠ s.fld F.CLK_SRC_PLL_REF then
            t.core = 0 ∧ t.bit F.CLK_STAT_SWITCHING = true
           else t.core = fieldOf v 0 2 ∧ t.bit F.CLK_STAT_SWITCHING = false))) ∧
    (∃ t, exec .pllRefSwitchComplete s = .next t ∧
      (if s.bit F.CLK_STAT_SWITCHING = true ∧ s.bit F.CLK_STAT_PLL_LOCK = true ∧
        s.bit F.CLK_STAT_IPLL_LOCK = true then
        t.core = 2 ∧ t.bit F.CLK_STAT_SWITCHING = false ∧ s.memoryKept t ∧
          s.regsKept [R.CLK_STAT, R.LACE_STAT, R.LACE_HOLD_STAT] t
       else t = s))

/-- An event that is due and before which no other is acts once; with none such, nothing happens. TRIG sets its latch in
every quarter, MARK and START give the waiting quarters their start moment, MARK takes an armed snapshot and arms the
units that wait for it, HOLD and RELEASE of one effect time act with their net result on the keys, which stops the
quarters that follow holds or lets them go, and EPOCH aligns a member's phase and, with every quarter stopped, its
device time. (In a JCOND's late window the latch's event is a deferred jump, and a mark for which a commit waits also
applies that commit.) (R47, R72, R74, R79, R231, R251, R255, R256, R260, R261.) -/
def Obligations.LaceEffects : Prop :=
  ∀ s : State,
    (∃ t, exec .laceTrigEffect s = .next t ∧ (s.dueEffect [1] = none → t = s) ∧
      ∀ e, s.dueEffect [1] = some e → t.lace.effects = s.lace.effects.filter (· ≠ e) ∧ s.memoryKept t ∧
        ∀ q : Fin 16, (∀ b, (s.q q).body = some b → s.inLateWindow q b = false) →
          t.latched q (0x20 + e.num % 32) = true) ∧
    (∃ t, exec .laceMarkEffect s = .next t ∧ (s.dueEffect [2] = none → t = s) ∧
      ∀ e, s.dueEffect [2] = some e →
        (∀ u : Fin 17, txnState s u = 2 → (s.txn u).cmode = 3 → (s.txn u).mark ≠ e.num) →
        t.lace.effects = s.lace.effects.filter (· ≠ e) ∧ s.memoryKept t ∧
        (s.bit F.EVC_CTRL_SNAP_ARM = true → s.fld F.EVC_SNAP_MARK_MARK_N = e.num → t.bit F.EVC_CTRL_SNAP_ARM = false ∧
          ∀ n : Fin 64, s.bit (F.EVC_SEL_SNAP_EN n) = true →
            t.reg (R.EVC_SNAP_L n) = BitVec.ofNat 16 (s.evc n).count ∧
            t.reg (R.EVC_SNAP_M n) = BitVec.ofNat 16 ((s.evc n).count / 2 ^ 16) ∧
            t.reg (R.EVC_SNAP_H n) = BitVec.ofNat 16 ((s.evc n).count / 2 ^ 32)) ∧
        (∀ q : Fin 16, t.q q = (if s.qstate q = 10 ∧ s.fld (F.QSEQ_CTRL_START_MODE q) = 2 ∧
            s.fld (F.QSEQ_MARK_N_MARK_N q) = e.num ∧ (s.q q).startDue = none then
          { s.q q with startDue := some e.eff } else s.q q)) ∧
        (∀ u : Fin 64, (if s.fld (F.TDC_ARM_CFG_SRC u) = 7 ∧ s.fld (F.TDC_ARM_MARK_MARK_N u) = e.num ∧
            s.bit (F.TDC_CTRL_EN u) = true ∧ s.tdcState u = 0 ∧ s.qstate (u.val / 4) ≠ 9 ∧ s.chipFault = false ∧
            s.tdcCfgOk u = true ∧ s.tdcReady u = true then
          t.tdcState u = 1 ∧ t.tdc u = { opens := e.eff + 48, level := false }
         else t.tdcState u = s.tdcState u ∧ t.tdc u = s.tdc u)) ∧
        (∀ u : Fin 64, s.fld (F.TDC_ARM_CFG_SRC u) = 7 → s.fld (F.TDC_ARM_MARK_MARK_N u) = e.num →
          (s.bit (F.TDC_CTRL_EN u) = false ∨ s.tdcState u ≠ 0 → t.flagged (F.TDC_STAT_ARM_OVR u)))) ∧
    (∃ t, exec .laceStartEffect s = .next t ∧ (s.dueEffect [3] = none → t = s) ∧
      ∀ e, s.dueEffect [3] = some e → t.lace.effects = s.lace.effects.filter (· ≠ e) ∧
        t = { s with lace := t.lace, qs := t.qs } ∧
        (∀ q : Fin 16, t.q q = (if s.qstate q = 10 ∧ s.fld (F.QSEQ_CTRL_START_MODE q) = 1 ∧
          (s.q q).startDue = none then
          { s.q q with startDue := some e.eff } else s.q q))) ∧
    (∃ t, exec .laceHoldEffect s = .next t ∧ s.keysTurn 4 t) ∧
    (∃ t, exec .laceReleaseEffect s = .next t ∧ s.keysTurn 5 t) ∧
    (∃ t, exec .laceEpochEffect s = .next t ∧ (s.dueEffect [7] = none → t = s) ∧
      ∀ e, s.dueEffect [7] = some e → s.memoryKept t ∧
        (if s.laceMaster = true then t = { s with lace := t.lace } ∧ t.lace.effects = s.lace.effects.filter (· ≠ e)
         else if e.eff ≠ e.due ∧ s.allStopped = false then t.now = s.now ∧ t.flagged F.LACE_STAT_ALIGN_ERR ∧
          t.reported = s.reported ++ [s.plainEvent 0x054 e.orig] ∧ (1 ≤ s.laceState → t.laceState = 4) ∧
          (s.laceState = 0 ∨ s.laceState = 4 → t.laceState = s.laceState)
         else t.lace.effects = s.lace.effects.filter (· ≠ e) ∧
          t.now = (if e.eff = e.due then s.now else e.eff + (s.now - e.due)) ∧ s.regsKept [R.LACE_PHASE] t ∧
          (e.eff = e.due → s.lace.surveying = false → t.lace.offs = s.lace.offs ∧
            t.fld F.LACE_PHASE_PHASE = unsigned 10 (signed 10 (s.fld F.LACE_PHASE_PHASE) +
              clampInt (-4) 4 ((2 - signed 16 (s.reg R.LACE_OFFSET).toNat) / 4))) ∧
          (e.eff ≠ e.due ∨ s.lace.surveying = true → t.lace.offs = [])))

/-- SEND_GO, START_SEND and EPOCH_NOW queue their event at the send boundary on a joined part that may send it and are
refused with SEND_REFUSED elsewhere; SURVEY, DETACH and the epoch due act as R257 to R261 say. The master's frame
carries the copies and the requests that are due, each in an owned slot, or turned away where none is free. A frame
received is relayed by a member and copied by the master; its one slot takes effect in order, is skipped if it is
known, and a gap, a late or a bad slot detaches. A survey ends aligned, failed or withdrawn; a ring lost detaches.
(R250, R251, R252, R253, R254, R257, R258, R259, R261.) -/
def Obligations.LaceTraffic : Prop :=
  ∀ s : State,
    (∀ m : Master, s.Takes m R.LACE_CTRL →
      (∃ t, exec (.laceSendGo m) s = .next t ∧ s.regsKept [] t ∧ s.memoryKept t ∧
        (if s.fld F.LACE_SEND_CTL_TYPE ∈ [1, 2, 4, 5] ∧ s.laceJoined = true ∧ s.lace.detaching = false then
          t.lace =
            { s.lace with requests := insertReq ⟨25, s.fld F.LACE_SEND_CTL_TYPE, s.fld F.LACE_SEND_NUM_NUM, s.fld F.LACE_SEND_CTL_ARG, granuleAt s.now⟩ s.lace.requests }
         else t.lace = s.lace ∧ t.flagged F.LACE_STAT_SEND_REFUSED)) ∧
      (∃ t, exec (.laceStartSend m) s = .next t ∧ s.regsKept [] t ∧ s.memoryKept t ∧
        (if s.laceMaster = true ∧ s.laceJoined = true ∧ s.lace.detaching = false then
          t.lace = { s.lace with requests := insertReq ⟨25, 3, 0, 0, granuleAt s.now⟩ s.lace.requests }
         else t.lace = s.lace ∧ t.flagged F.LACE_STAT_SEND_REFUSED)) ∧
      (∃ t, exec (.laceEpochNow m) s = .next t ∧ s.regsKept [] t ∧ s.memoryKept t ∧
        (if s.laceMaster = true ∧ s.laceJoined = true ∧ s.lace.detaching = false then
          t.lace = { s.lace with requests := insertReq ⟨25, 7, 0, 0, granuleAt s.now⟩ s.lace.requests }
         else t.lace = s.lace ∧ t.flagged F.LACE_STAT_SEND_REFUSED)) ∧
      (∃ t, exec (.laceSurvey m) s = .next t ∧ s.memoryKept t ∧
        (if s.laceMaster = true ∧ s.laceRelays = true ∧ 0 < s.laceState ∧ s.lace.surveyReq = false ∧
            s.lace.surveying = false then 16 ∈ t.cal.running ∨ 16 ∈ t.cal.waiting
         else s.regsKept [] t ∧ t.lace = s.lace ∧ t.cal = s.cal)) ∧
      (∃ t, exec (.laceDetach m) s = .next t ∧ s.memoryKept t ∧
        ((∀ k ∈ s.lace.keys, k / 32 ≠ s.chipId) ∨ s.laceJoined = false →
          if s.laceState = 0 ∨ s.laceState = 4 then t.laceState = s.laceState ∧ t.lace = s.lace
          else t.laceState = 4 ∧ t.lace.keys = [] ∧ t.lace.effects = [] ∧ t.lace.requests = []) ∧
        (s.laceJoined = true → ∀ k ∈ s.lace.keys, k / 32 = s.chipId →
          t.lace.detaching = true ∧ t.laceState = 3 ∧ t.lace.keys = s.lace.keys ∧
          (s.lace.detaching = false → ∃ r ∈ t.lace.requests, r.type = 5 ∧ r.arg = k % 32)))) ∧
    (∃ t, exec .laceEpochDue s = .next t ∧
      (if s.laceMaster = true ∧ s.fld F.LACE_EPOCH_PER_PER ≠ 0 ∧ s.laceJoined = true ∧
        s.lace.epochNext ≤ s.lace.nextFrame then
        t = { s with lace := t.lace } ∧ t.lace.epochNext = s.lace.nextFrame + s.fld F.LACE_EPOCH_PER_PER ∧
          t.lace.requests = (if s.lace.detaching = true then s.lace.requests
            else insertReq ⟨0, 7, 0, 0, granuleAt s.now⟩ s.lace.requests) ∧ t.lace.keys = s.lace.keys ∧
          t.lace.effects = s.lace.effects ∧ t.lace.nextFrame = s.lace.nextFrame
       else t = s)) ∧
    ((s.laceMaster = false ∨ s.laceRelays = false ∨ s.laceState = 0 ∨ s.now / 640 < s.lace.nextFrame →
        exec .laceFrameStart s = .next s) ∧
      (s.laceMaster = true → s.laceRelays = true → s.laceState ≠ 0 → s.lace.nextFrame ≤ s.now / 640 →
        let f := s.now / 640
        let due := s.lace.requests.filter fun r => r.at_ < 640 * f
        let epoch := s.lace.surveying = true ∧ s.lace.surveyFrames = 335
        ∃ t, exec .laceFrameStart s = .next t ∧ s.memoryKept t ∧ t.lace.nextFrame = f + 1 ∧ t.lace.copies = [] ∧
          t.lace.out.fn = f % 2 ^ 16 ∧ t.lace.out.hop = 0 ∧
          (t.lace.out.survey = true ↔ s.lace.surveying = true ∧ s.lace.surveyFrames < 16) ∧
          t.lace.out.acc = (Config.laceLaunch.toNat + t.fld F.LACE_HOP_DLY_HOP_DLY) % 2 ^ 24 ∧
          t.lace.out.slots.take s.lace.copies.length = s.lace.copies ∧
          (s.lace.detaching = false → t.lace.requests = s.lace.requests.filter fun r => !(r.at_ < 640 * f)) ∧
          (s.lace.detaching = true → (∀ r ∈ s.lace.requests, r.at_ < 640 * f) → t.laceState = 4) ∧
          (due = [] → ¬epoch → s.lace.detaching = false → t.lace.out.slots = s.lace.copies ∧
            t.lace.effects = s.lace.effects ∧ t.lace.keys = s.lace.keys ∧ t.reported = s.reported) ∧
          (∀ k : Nat, due = [] → epoch → s.lace.detaching = false → s.ownedSlot s.lace.copies = some k →
            t.lace.out.slots = s.lace.copies ++ [⟨k, true, 7, false, s.chipId, s.fld F.LACE_ESEQ_ESEQ, 0, 0,
              640 * f - 8 + 2560⟩]) ∧
          (∀ (r : LaceReq) (k : Nat), due = [r] → ¬epoch → s.lace.detaching = false →
            s.ownedSlot s.lace.copies = some k →
            t.lace.out.slots = s.lace.copies ++ [⟨k, true, r.type, false, s.chipId, s.fld F.LACE_ESEQ_ESEQ, r.num,
              r.arg, if r.type = 7 then r.at_ + 2560 else (r.at_ + 2560) % 2 ^ 32⟩] ∧
            t.lace.effects = s.lace.effects ++
              [{ type := r.type, orig := s.chipId, num := r.num, arg := r.arg, eff := r.at_ + 2560 }] ∧
            t.fld F.LACE_ESEQ_ESEQ = (s.fld F.LACE_ESEQ_ESEQ + 1) % 2 ^ 16 ∧ t.reported = s.reported) ∧
          (∀ r : LaceReq, due = [r] → ¬epoch → s.lace.detaching = false → s.ownedSlot s.lace.copies = none →
            t.lace.out.slots = s.lace.copies ∧ t.lace.effects = s.lace.effects ∧
            (1 ≤ r.who → r.who ≤ 16 → t.flagged F.LACE_STAT_SLIP ∧ t.flagged (F.QSEQ_FAULT_SLIP (r.who - 1)) ∧
              ∃ e, t.reported.getLast? = some e ∧ e.src = 0x100 + 16 * (r.who - 1) ∧ e.cls = 1) ∧
            (17 ≤ r.who → r.who ≤ 24 → t.flagged F.LACE_STAT_SLIP ∧
              t.reported = s.reported ++ [s.plainEvent 0x056 0]) ∧
            (25 ≤ r.who → t.flagged F.LACE_STAT_SEND_REFUSED ∧ t.reported = s.reported)))) ∧
    (∀ (sof fine fn hop acc : Nat) (survey : Bool) (slots : List LaceSlot) (d : SurveyDelays),
      (s.laceRelays = false ∨ s.laceState = 0 → exec (.laceFrameReceive (sof,
        fine) fn hop survey acc true slots d) s = .next s ∧
        exec (.laceFrameReceive (sof, fine) fn hop survey acc false slots d) s = .next s) ∧
      (s.laceRelays = true → s.laceState ≠ 0 →
        (∃ t, exec (.laceFrameReceive (sof, fine) fn hop survey acc false slots d) s = .next t ∧ t.laceState = 4 ∧
          t.flagged F.LACE_STAT_FRAME_ERR ∧ t.reported = s.reported ++ [s.plainEvent 0x053 0] ∧ s.memoryKept t) ∧
        (let f := frameOf sof fn
         let inFrame := s.laceMaster = false ∨ (s.lace.nextFrame ≤ f + 2 ∧ f < s.lace.nextFrame)
         ∃ t, exec (.laceFrameReceive (sof, fine) fn hop survey acc true slots d) s = .next t ∧ s.memoryKept t ∧
          (¬inFrame → t.laceState = 4 ∧ t.flagged F.LACE_STAT_ROLE_ERR ∧
            t.reported = s.reported ++ [s.plainEvent 0x055 0]) ∧
          (inFrame → t.lace.lastGood = sof ∧ t.lace.lost = false) ∧
          (∀ h r : Nat, inFrame → s.lace.surveying = true → s.lace.surveyFrames = 80 → d.rtts ≠ [] → d.relays ≠ [] →
            d.rtts.sum = d.rtts.length * d.echo + 2 * d.rtts.length * h → d.relays.sum = d.relays.length * r →
            t.reg R.LACE_HOP_DLY = BitVec.ofNat 16 h ∧ t.reg R.LACE_RELAY_DLY = BitVec.ofNat 16 r) ∧
          (inFrame → s.laceMaster = true → t.lace.accBack = acc ∧ t.lace.copies =
            (slots.filter fun x => !x.copy && x.orig ≠ s.chipId).map fun (x : LaceSlot) => { x with copy := true }) ∧
          (s.laceMaster = false → t.lace.out.slots.take slots.length = slots ∧ t.lace.out.fn = fn % 2 ^ 16 ∧
            t.lace.out.survey = survey ∧ t.lace.out.hop = (if survey = true then hop + 1 else hop) ∧
            (survey = true → t.fld F.LACE_RING_POS = hop % 2 ^ (F.LACE_RING_POS).w)) ∧
          ((∃ x ∈ slots, x.good = false) → inFrame → t.laceState = 4 ∧ t.flagged F.LACE_STAT_FRAME_ERR) ∧
          (∀ x : LaceSlot, slots = [x] → inFrame → x.good = true → x.type ∈ [1, 2, 3, 4, 5, 7] →
            s.lace.surveying = false → s.lace.surveyReq = false → s.lace.detaching = false →
            (∀ r ∈ s.lace.requests, 640 * f ≤ r.at_) →
            let eff := if x.type = 7 then x.eff else extendEff sof x.eff
            let due := if x.type = 7 ∧ s.laceMaster = false then s.localMoment sof fine fn eff else eff
            let want := tabGet (fun _ => none) s.lace.expect x.orig
            if s.laceJoined = false ∨ x.orig = s.chipId ∨ (x.orig, x.eseq) ∈ s.lace.acted then
              t.lace.effects = s.lace.effects ∧ t.lace.expect = s.lace.expect ∧
                (s.laceJoined = true → t.laceState = 3)
            else if want ≠ none ∧ want ≠ some x.eseq then t.laceState = 4 ∧ t.lace.effects = [] ∧
              t.flagged F.LACE_STAT_GAP
            else if 4 * due < 4 * sof + 5 * (24 + 16 * x.k) + 256 then
              t.laceState = 4 ∧ t.lace.effects = [] ∧ t.flagged F.LACE_STAT_LATE_RX
            else t.laceState = 3 ∧ t.lace.effects = s.lace.effects ++ [⟨x.type, x.orig, x.num, x.arg, eff, due⟩] ∧
              tabGet (fun _ => none) t.lace.expect x.orig = some ((x.eseq + 1) % 2 ^ 16)) ∧
          (slots = [] → inFrame → s.lace.detaching = false → (∀ r ∈ s.lace.requests, 640 * f ≤ r.at_) →
            t.lace.effects = s.lace.effects ∧ t.lace.keys = s.lace.keys)))) ∧
    (∀ r : SurveyResult, ∃ t, exec (.laceSurveyComplete r) s = .next t ∧
      (if s.lace.surveying = false then t = s else
        let o := signed 16 (s.reg R.LACE_OFFSET).toNat
        let tol := 20 + 2 * s.fld F.LACE_RING_N
        let fails := r.err = true ∨ (s.laceMaster = true ∧
          (r.loop + tol < s.lace.accBack ∨ s.lace.accBack + tol < r.loop ∨
          1179648 < r.loop ∨ 26214 < s.fld F.LACE_HOP_DLY_HOP_DLY ∨ (∃ h ∈ r.hops,
            26214 < h) ∨ ¬(r.roster.map (·.2.1)).Nodup))
        t.lace.surveying = false ∧ t.bit F.TDCC_BORROW_BORROW = false ∧ 16 ∉ t.cal.running ∧ s.memoryKept t ∧
        (fails → t.laceState = (if s.laceJoined = true then 3 else 4) ∧
          (s.laceMaster = true → t.flagged F.LACE_STAT_SURVEY_ERR ∧
            t.reported = s.reported ++ [s.plainEvent 0x057 0]) ∧
          (s.laceMaster = false → t.reported = s.reported)) ∧
        (¬fails → t.laceState = (if s.laceMaster = true ∨ (s.lace.offs ≠ [] ∧ -8 ≤ o ∧ o ≤ 8) then 3 else 4) ∧
          (s.laceMaster = true → t.reg R.LACE_LOOP_L = BitVec.ofNat 16 r.loop ∧
            ∀ p, p < 64 → (∀ e ∈ r.roster, e.1 ≠ p) → t.reg (R.LACE_ROSTER p) = 0)))) ∧
    (∃ t, exec .surveyBorrowTimeout s = .next t ∧
      (if s.lace.surveyReq = true ∧ s.lace.surveying = false ∧ s.laceMaster = false ∧
        s.lace.surveySince + 64000 ≤ s.now then
        t.lace.surveyReq = false ∧ t.bit F.TDCC_BORROW_BORROW = false ∧ 16 ∉ t.cal.waiting ∧
          (s.laceJoined = false → t.laceState = 4) ∧ s.memoryKept t
       else t = s)) ∧
    (∃ t, exec .ringLost s = .next t ∧
      (if s.laceState < 2 ∨ s.lace.lost = true ∨ s.now < s.lace.lastGood + 1280 then t = s else
        t.lace.lost = true ∧ t.laceState = 4 ∧ t.flagged F.LACE_STAT_RING_LOST ∧
        t.reported = s.reported ++ [s.plainEvent 0x050 0] ∧ s.memoryKept t))

/-- START sets the moment and the setup; a select starts the armed slave unit with its CPOL, and does nothing with none
armed. A unit's end, by its last cycle, a select release or an idle timeout, takes what it sent from TX, stores the
received bits in wire order from the setup's offset, sets its flags and sets up DONE, which shows RXCNT and the latch
at its boundary; before its time, or with no unit of that kind, nothing ends. TX_ADD makes dwords available, at most
512. (R267, R268, R269, R272, R274, R275, R284.) -/
def Obligations.PortTransfers : Prop :=
  ∀ s : State,
    (∀ (m : Master) (n : Fin 16) (k : Option (Fin 16)), s.Takes m (R.PE_CTRL n) →
      ∃ t, exec (.peStart m n k) s = .next t ∧ s.regsKept [R.PE_CTRL n] t ∧ s.memoryKept t ∧
        (s.portEn n = true → ∀ j, j ≠ n.val → t.port j = s.port j) ∧
        (t.port n).startAt = some (granuleNext s.now, (k.map (·.val)).getD (s.fld (F.PE_CTRL_SSEL n))) ∧
        t.fld (F.PE_CTRL_SSEL n) = (k.map (·.val)).getD (s.fld (F.PE_CTRL_SSEL n))) ∧
    (∀ (n : Fin 16) (sck : Bool), ∃ t, exec (.peSelectAssert (n, sck)) s = .next t ∧
      ((s.port n).armed = none → t = s) ∧
      (∀ u, (s.port n).armed = some u →
        t.port n =
          { s.port n with armed := none, unit := some { setup := u, t0 := s.now, slave := true, cpol := sck } } ∧
          (∀ j, j ≠ n.val → t.port j = s.port j) ∧ s.regsKept [portBase n + 0x1C] t ∧ s.memoryKept t ∧
          fieldOf (portReg t n 0x1C) 12 2 = 2)) ∧
    (∀ (n : Fin 16) (bits : List Bool) (cycles : Nat),
      ((s.port n).unit = none → exec (.peSelectRelease n bits cycles) s = .next s ∧
        exec (.peIdleTimeout n bits cycles) s = .next s) ∧
      (∀ u : PortUnit, (s.port n).unit = some u → u.slave = false →
        exec (.peSelectRelease n bits cycles) s = .next s ∧ exec (.peIdleTimeout n bits cycles) s = .next s) ∧
      (∀ u : PortUnit, (s.port n).unit = some u → u.slave = true →
        let rx := suDir u.setup = false ∨ suLanes u.setup 2 = 0
        let sent := suDir u.setup = true ∧ suHeadCycles u.setup < cycles
        (∃ t, exec (.peSelectRelease n bits cycles) s = .next t ∧
          let k := if rx then (if cycles < suCycles u.setup then slaveBits u.setup cycles / 32 * 32 else slaveBits
            u.setup cycles) else 0
          s.unitEnds n s.now k (cycles ≠ suCycles u.setup ∨ (sent ∧ s.runsDry n u = true)) u t ∧
          t.received n u.setup bits k ∧ (sent → s.phaseSends n u t) ∧
          (cycles < suCycles u.setup → t.portFlagged n 4) ∧ (suCycles u.setup < cycles → t.portFlagged n 5)) ∧
        (∃ t, exec (.peIdleTimeout n bits cycles) s = .next t ∧
          (if s.now < u.t0 + 6400 * max 1 (fieldOf (portReg s n 0x10) 0 8) then t = s else
            let k := if rx then slaveBits u.setup cycles else 0
            s.unitEnds n s.now k true u t ∧ t.received n u.setup bits k ∧ (sent → s.phaseSends n u t) ∧
            t.portFlagged n 6 ∧ fieldOf (portReg t n 0x24) 0 5 = k % 32 ∧
            (suCycles u.setup < cycles → t.portFlagged n 5))))) ∧
    (∀ (n : Fin 17) (bits : List Bool) (busy : Nat),
      ((s.port n).unit = none → exec (.peUnitEnd n bits busy) s = .next s) ∧
      (∀ u : PortUnit, (s.port n).unit = some u → u.slave = true → exec (.peUnitEnd n bits busy) s = .next s) ∧
      (∀ u : PortUnit, (s.port n).unit = some u → u.slave = false →
        let most := fieldOf (portReg s n 0xC) 8 8
        let waits := most ≠ 0 ∧ suDir u.setup = true
        let beats := if waits then min busy most else 0
        let e := s.masterEnd n u beats
        let rx := suDir u.setup = true ∨ suLanes u.setup 2 = 0
        let sent := suDir u.setup = false
        ∃ t, exec (.peUnitEnd n bits busy) s = .next t ∧
          (s.now < e → t = s) ∧
          (e ≤ s.now → (t.port n).idleTo = e + s.halves n (max 1 (fieldOf (portReg s n 8) 8 4)) ∧
            (if waits ∧ most ≤ beats then s.unitEnds n e 0 true u t ∧ t.portFlagged n 11
             else s.unitEnds n e (if rx then suLen u.setup else 0) (sent ∧ s.runsDry n u = true) u t ∧
              (rx → t.received n u.setup bits (suLen u.setup)) ∧ (sent → s.phaseSends n u t))))) ∧
    (∀ n : Fin 17, ((s.port n).dones = [] → exec (.peDone n) s = .next s) ∧
      ∀ (e : Nat) (err : Bool) (cnt : Nat) (rest : List (Nat × Bool × Nat)), (s.port n).dones = (e, err,
        cnt) :: rest →
      ∃ t, exec (.peDone n) s = .next t ∧
        (if s.now < e then t = s else
          t.port n = { s.port n with dones := rest } ∧ t.portFlagged n 1 ∧ (∀ j, j ≠ n.val → t.port j = s.port j) ∧
          fieldOf (portReg t n 0x20) 0 15 = cnt % 2 ^ 15 ∧ s.memoryKept t ∧
          (n.val < 16 → (s.q n).body = none → t.latched n (if err = true then 0x91 else 0x90) = true))) ∧
    (∀ (m : Master) (n : Fin 17) (k : Fin 1024), s.Takes m (portBase n + 0x14) → ∃ t,
      exec (.peTxAdd m n k) s = .next t ∧
      fieldOf (portReg t n 0x18) 0 10 = min 512 (fieldOf (portReg s n 0x18) 0 10 + k.val) ∧
      s.regsKept [portBase n + 0x18] t ∧ (∀ j, j ≠ n.val → t.port j = s.port j) ∧ ((s.port n).unit = none →
        t.ports = s.ports) ∧
      (∀ u, (s.port n).unit = some u → (t.port n).unit = some { u with
        dry := if s.txHas n < s.txBegun n u then some (s.txHas n) else u.dry }) ∧
      t = { s.heard m true t with regs := t.regs, copyB := t.copyB, copyC := t.copyC, ports := t.ports })

/-- A command byte that cannot be is FRAME_ERR and the frame is ignored to its release; a frame of another kind, or one
inside a frame, does nothing here. In RUN a READ drains the queue and answers its dwords at rising addresses, 0 with
PAST_END past the block; a WRITE queues its dwords at the aligned address and drops them from a full queue with
WR_DROP; STATUS answers the flags with the attention summary and clears this port's copy. A queued dword is applied
as SPX1's register write; a release ends the frame, cutting a read or a dword with its flag; IDLE_TMO sets
INCOMPLETE. (R35, R269, R279, R280, R281, R282, R283.) -/
def Obligations.MaintenancePort : Prop :=
  ∀ s : State,
    (∀ (cmd : Byte) (a n : Nat) (vs : List Dword) (extra : Bool), let op := cmd.toNat / 64
      (s.spx1.frame ≠ 0 ∨ (op ≠ 0 ∧ op ≠ 3) → exec (.spx1Read cmd a n) s = .next s) ∧
      (s.spx1.frame ≠ 0 ∨ (op ≠ 1 ∧ op ≠ 3) → exec (.spx1Write cmd a vs) s = .next s) ∧
      (s.spx1.frame ≠ 0 ∨ op < 2 → exec (.spx1Status cmd extra) s = .next s) ∧
      (s.spx1.frame = 0 → (op = 3 ∨ cmd.toNat % 4 ≠ 0 ∨ cmd.toNat / 4 % 4 = 3 ∨ (op ≠ 2 ∧ cmd.toNat / 16 % 4 = 3)) →
        (∃ t, exec (.spx1Read cmd a n) s = .next t ∧ (op = 0 ∨ op = 3 → s.spxIgnored t)) ∧
        (∃ t, exec (.spx1Write cmd a vs) s = .next t ∧ (op = 1 ∨ op = 3 → s.spxIgnored t)) ∧
        (∃ t, exec (.spx1Status cmd extra) s = .next t ∧ (2 ≤ op → s.spxIgnored t)))) ∧
    (∀ cmd : Byte, s.spx1.frame = 0 → spxBad cmd = false → s.pstate = 0 → s.bit F.PWR_STAT_ENTERING = false →
      let pattern := s.fld F.SPX1_CFG_BUSY_PAT = 0xA5
      (cmd.toNat / 64 = 0 → ∀ a n : Nat, ∃ t, exec (.spx1Read cmd a n) s = .next t ∧
        (s.spx1.queue = [] → t.spx1.frame = 1 ∧ t.spx1.queue = [] ∧ t.spx1.first = a % 2 ^ 24 / 4 * 4 ∧
          t.spx1.addr = a % 2 ^ 24 / 4 * 4 + 4 * n) ∧
        (s.spx1.queue = [] → n = 0 → t.reads = s.reads ∧ s.memoryKept t ∧ s.regsKept [R.SPX1_WQ] t ∧
          (pattern → t.flagged F.SPX1_STAT_FRAME_ERR) ∧ (a % 4 ≠ 0 → t.flagged F.SPX1_STAT_ALIGN)) ∧
        (a < 2 ^ 24 → a % 4 = 0 → s.spx1.queue = [] → s.spx1.cut = false → ¬pattern →
          (∀ i, i < n → isWindow (a + 4 * i) = true ∧ (a + 4 * i < 0x5D000 ∨ 0x5E000 ≤ a + 4 * i) ∧
            s.Serves .spx1 (a + 4 * i)) → a / 0x10000 = (a + 4 * n) / 0x10000 →
          t.reads = ((List.range n).map fun i => s.winGet (a + 4 * i)).reverse ++ s.reads ∧
          (0 < n → t.spx1.lastAddr = a + 4 * n - 4 ∧ t.spx1.lastData = s.winGet (a + 4 * n - 4)) ∧
          s.regsKept [R.SPX1_WQ] t ∧ s.memoryKept t) ∧
        (s.spx1.queue = [] → a < 2 ^ 24 → a % 0x10000 = 0xFFFC → n = 2 → t.flagged F.SPX1_STAT_PAST_END ∧
          t.reads.head? = some 0)) ∧
      (cmd.toNat / 64 = 1 → ∀ (a : Nat) (vs : List Dword), ∃ t, exec (.spx1Write cmd a vs) s = .next t ∧
        t.spx1.frame = 2 ∧
        s.memoryKept t ∧ s.regsKept [R.SPX1_WQ] t ∧ (a % 4 ≠ 0 → t.flagged F.SPX1_STAT_ALIGN) ∧
        t.spx1.addr = a % 2 ^ 24 / 4 * 4 + 4 * vs.length ∧ t.reads = s.reads ∧
        (s.spx1.queue.length + vs.length ≤ 64 → (a % 2 ^ 24 / 4 * 4 + 4 * vs.length - 1) / 0x10000 = a % 2 ^ 24 /
          0x10000 →
          t.spx1.queue = s.spx1.queue ++ (vs.zipIdx.map fun e => (a % 2 ^ 24 / 4 * 4 + 4 * e.2, e.1)) ∧
          (vs ≠ [] → t.fld F.SPX1_WQ_FILL = s.spx1.queue.length + vs.length) ∧ t.reported = s.reported) ∧
        (∀ v, vs = [v] → 64 ≤ s.spx1.queue.length → t.spx1.queue = s.spx1.queue ∧ t.flagged F.SPX1_STAT_WR_DROP ∧
            t.reported = s.reported ++ [s.plainEvent 0x066 (a % 2 ^ 24 / 4 * 4)]) ∧
        (∀ v w, vs = [v, w] → a % 0x10000 = 0xFFFC → s.spx1.queue.length < 64 → t.flagged F.SPX1_STAT_PAST_END ∧
          t.spx1.queue = s.spx1.queue ++ [(a % 2 ^ 24, v)])) ∧
      (cmd.toNat / 64 = 2 → ∀ extra : Bool, ∃ t, exec (.spx1Status cmd extra) s = .next t ∧ t.spx1.frame = 3 ∧
        s.regsKept [] t ∧
        t.rcSpx1 R.SPX1_STAT = (if extra = true then fldMask F.SPX1_STAT_OVERCLOCK else 0) ∧ s.memoryKept t ∧
        (¬pattern → t.reads = (s.readValue .spx1 R.SPX1_STAT 0xFE ++ BitVec.ofNat 16 s.attention) :: s.reads ∧
          t.reported = s.reported) ∧
        (pattern → t.rcHost R.SPX1_STAT &&& fldMask F.SPX1_STAT_FRAME_ERR = fldMask F.SPX1_STAT_FRAME_ERR ∧
          t.reported = s.reported ++ [s.plainEvent 0x066 0]))) ∧
    (s.spx1.queue = [] ∨ s.pwr.stalled.any (fun y => y.master = .spx1) = true → exec .spx1WriteApply s = .next s) ∧
    (∀ (a : Nat) (v : Dword) (l : List (Nat × Dword)), s.spx1.queue = (a, v) :: l →
      s.pwr.stalled.any (fun y => y.master = .spx1) = false →
      exec .spx1WriteApply s = exec (.registerWrite .spx1 a 0xF v) (showWq
        { s with spx1 := { s.spx1 with queue := l } }) ∧
      ∃ t, exec .spx1WriteApply s = .next t ∧
        ∀ r : RegRow, rowOf a = some r → l.length < 128 → 0x400 ≤ a → a < 0x480 → a % 4 = 0 → s.Takes .spx1 a →
          t.spx1.queue = l ∧ t.fld F.SPX1_WQ_FILL = l.length ∧
          t.reg a = (s.reg a &&& ~~~((v >>> 16).setWidth 16 &&& BitVec.ofNat 16 r.rw)) |||
            (v.setWidth 16 &&& ((v >>> 16).setWidth 16 &&& BitVec.ofNat 16 r.rw)) ∧
          s.regsKept [a, R.SPX1_WQ] t ∧ s.memoryKept t) ∧
    (∀ bits : Fin 33, ∃ t, exec (.spx1SelectRelease bits) s = .next t ∧ t.spx1.frame = 0 ∧ t.spx1.late = false ∧
      s.memoryKept t ∧
      (if s.spxOut bits = true ∨ s.spx1.late = true then
        t.flagged F.SPX1_STAT_RD_CUT ∧ t.reported = s.reported ++ [s.plainEvent 0x066 (s.spx1.addr - 4)] ∧
          (s.pwr.stalled = [] → t.fld F.SPX1_LAST_ADDR_L_ADDR = s.spx1.lastAddr % 2 ^ 16 ∧
            t.fld F.SPX1_LAST_ADDR_H_ADDR = s.spx1.lastAddr / 2 ^ 16 % 2 ^ 8 ∧
            t.fld F.SPX1_LAST_DATA_L_DATA = s.spx1.lastData.toNat % 2 ^ 16 ∧
            t.fld F.SPX1_LAST_DATA_H_DATA = s.spx1.lastData.toNat / 2 ^ 16)
       else if (s.spx1.frame = 2 ∧ bits.val % 32 ≠ 0) ∨ (s.spx1.frame = 3 ∧ bits.val < 32) then
        t.flagged F.SPX1_STAT_FRAME_ERR ∧ s.regsKept [] t ∧
          t.reported = s.reported ++ [s.plainEvent 0x066 s.spx1.addr]
       else t = { s with spx1 := t.spx1 })) ∧
    (∀ bits : Fin 32, ∃ t, exec (.spx1IdleTimeout bits) s = .next t ∧
      (if s.spx1.frame = 0 ∨ s.spx1.frame = 4 then t = s else
        t.spx1 = { s.spx1 with frame := 4, late := s.spxOut bits } ∧ t.flagged F.SPX1_STAT_INCOMPLETE ∧
        t.fld F.SPX1_STAT_INC_BITS = bits.val ∧ s.regsKept [F.SPX1_STAT_INC_BITS.addr] t ∧ s.memoryKept t))

/-- A request with GO takes a transition that Table 15-3 lists under its condition and sets REFUSED for any other or
during a transition; a request for the state in force, or without clock or domain, does nothing. An entry turns every
quarter off; its end shows the new state, an exit's end HOLD with the kept quarters on, or RUN after SHANK, and
neither ends before its conditions hold. A wake event that ends the state starts the exit; during an entry it is
latched and replayed at its end, during an exit or a thermal NAP only noted; any other is not recorded. The Shank
timer is such an event, once in a state. (R329, R330, R333, R334, R335, R346.) -/
def Obligations.PowerStates : Prop :=
  ∀ s : State,
    (∀ p ∈ [(Instr.powerReqRun, 0), (Instr.powerReqHold, 1), (Instr.powerReqNap, 2), (Instr.powerReqPatrol, 3),
      (Instr.powerReqShank, 4)],
      ∃ t, exec p.1 s = .next t ∧ (¬s.Runs R.PWR_REQ → t = s) ∧
      (s.Runs R.PWR_REQ → t.fld F.PWR_REQ_TARGET = p.2 ∧ s.memoryKept t ∧
        (if s.inTransit = true then t.flagged F.PWR_STAT_REFUSED ∧ s.regsKept [R.PWR_REQ] t ∧ t.pwr = s.pwr
         else if p.2 = s.pstate then s.regsKept [R.PWR_REQ] t ∧ t.pwr = s.pwr
         else if s.powerOk p.2 = false then t.flagged F.PWR_STAT_REFUSED ∧ s.regsKept [R.PWR_REQ] t ∧ t.pwr = s.pwr
         else if s.pstate = 1 ∧ p.2 = 0 then t.pstate = 0 ∧ t.flagged F.PWR_STAT_STATE_EVT ∧ s.regsKept [R.PWR_REQ,
           R.PWR_STAT] t
         else if p.2 = 1 ∧ 2 ≤ s.pstate then t.bit F.PWR_STAT_EXITING = true ∧ t.pwr.target = 1 ∧
           t.pstate = s.pstate ∧
          t.fld F.PWR_VID_CUR = 0x64 ∧ t.thm.napLock = false
         else t.bit F.PWR_STAT_ENTERING = true ∧ t.pwr.target = p.2 ∧ t.pstate = s.pstate ∧ t.pwr.wakeLatch = 0 ∧
          (∀ q : Fin 16, t.quarterOn q = false) ∧ (p.2 = 4 → t.bit F.PWR_PAD_HOLD_HOLD = true) ∧
          (p.2 = 2 ∨ p.2 = 3 → t.pwr.restore = (s.reg R.PWR_QMASK).toNat) ∧
          (2 ≤ p.2 → t.fld F.PWR_VID_CUR = 0x3C ∧ t.bit F.CLK_STAT_PLL_LOCK = false ∧
            t.bit F.CLK_STAT_IPLL_LOCK = false ∧
            t.core = (if s.srcReady 0 = true then 1 else 0) ∧ (s.laceState ≠ 0 → t.laceState = 4) ∧
              t.laceDrives = false)))) ∧
    (∃ t, exec .powerEntryComplete s = .next t ∧
      (s.bit F.PWR_STAT_ENTERING = false ∨ s.vidSettled = false → t = s) ∧
      (s.bit F.PWR_STAT_ENTERING = true → s.vidSettled = true → s.thm.shutPend = false → s.pwr.target ≤ 4 →
        t.pstate = s.pwr.target ∧ t.bit F.PWR_STAT_ENTERING = false ∧ t.flagged F.PWR_STAT_STATE_EVT ∧
        (s.pwr.wakeLatch = 0 → t.bit F.PWR_STAT_EXITING = s.bit F.PWR_STAT_EXITING ∧ t.pwr.entered = s.now) ∧
        (s.pwr.wakeLatch ≠ 0 → t.flagged F.PWR_WAKE_SRC_REPLAYED ∧ t.bit F.PWR_STAT_EXITING = true ∧
          t.pwr.wakeLatch = 0) ∧
        (s.pwr.target ≠ 4 → s.memoryKept t) ∧
        (s.pwr.target = 4 → t.hbm = [] ∧ ∀ a, 0x20000 ≤ a → a < 0x28000 → t.reg a = regReset a))) ∧
    (∃ t, exec .powerExitComplete s = .next t ∧ (s.bit F.PWR_STAT_EXITING = false → t = s) ∧
      (s.bit F.PWR_STAT_EXITING = true → s.pstate = 4 →
        (if s.boot.running = true ∨ s.fld F.CHIP_BOOT_STAT_STEP ≠ 13 then t = s else
          t.pstate = 0 ∧ t.bit F.PWR_STAT_EXITING = false ∧ t.flagged F.PWR_STAT_STATE_EVT ∧
            s.regsKept [R.PWR_STAT] t)) ∧
      (s.bit F.PWR_STAT_EXITING = true → s.pstate ≠ 4 → s.vidSettled = false ∨ s.bit F.CLK_STAT_PLL_LOCK = false ∨
        s.bit F.CLK_STAT_IPLL_LOCK = false → t = s) ∧
      (s.bit F.PWR_STAT_EXITING = true → s.pstate ≠ 4 → s.vidSettled = true → s.bit F.CLK_STAT_PLL_LOCK = true →
        s.bit F.CLK_STAT_IPLL_LOCK = true → s.thm.shutPend = false → s.memoryKept t ∧
          t.pstate = 1 ∧ t.bit F.PWR_STAT_EXITING = false ∧ t.core = 2 ∧ t.pwr.restore = 0 ∧
            t.flagged F.PWR_STAT_STATE_EVT ∧
          (s.bit F.LACE_CTRL_RING_EN = true → t.laceState = 1) ∧
          ∀ q : Fin 16, t.quarterOn q = (s.quarterOn q || s.pwr.restore.testBit q))) ∧
    (∀ b : Fin 7, let st := if s.bit F.PWR_STAT_ENTERING = true then s.pwr.target else s.pstate
      ∃ t, exec (.wakeEvent b) s = .next t ∧
      ((s.reg R.PWR_WAKE_EN).getLsbD b = false ∨ wakeEnds b st = false → t = s) ∧
      ((s.reg R.PWR_WAKE_EN).getLsbD b = true → wakeEnds b st = true →
        t.rcHost R.PWR_WAKE_SRC &&& BitVec.ofNat 16 (2 ^ b.val) = BitVec.ofNat 16 (2 ^ b.val) ∧ s.memoryKept t ∧
        (if s.thm.napLock = true ∨ (s.bit F.PWR_STAT_ENTERING = false ∧ s.bit F.PWR_STAT_EXITING = true) then
          t.pwr = s.pwr ∧ s.regsKept [] t
         else t.flagged F.PWR_STAT_STATE_EVT ∧
          (if s.bit F.PWR_STAT_ENTERING = true then
            t.pwr = { s.pwr with wakeLatch := s.pwr.wakeLatch ||| 2 ^ b.val } ∧ s.regsKept [] t
           else t.bit F.PWR_STAT_EXITING = true ∧ t.pstate = s.pstate ∧
             t.pwr.target = (if s.pstate = 4 then 0 else 1) ∧
            t.fld F.PWR_VID_CUR = 0x64 ∧ s.regsKept [R.PWR_STAT, R.PWR_VID, R.CHIP_BOOT_STAT] t ∧
            (s.pstate = 4 → t.boot.running = true ∧ t.fld F.CHIP_BOOT_STAT_STEP = 2) ∧ (s.pstate ≠ 4 →
              t.boot = s.boot))))) ∧
    (∃ t, exec .shankTimerExpiry s = .next t ∧
      (if s.fld F.PWR_SHANK_TMR_SEC = 0 ∨ s.pstate < 2 ∨ s.bit F.PWR_STAT_ENTERING = true ∨ s.pwr.tmrDone = true ∨
          s.now < s.pwr.entered + s.fld F.PWR_SHANK_TMR_SEC * 640000000 then t = s else
        t.pwr.tmrDone = true ∧ s.memoryKept t ∧
        ((s.reg R.PWR_WAKE_EN).getLsbD 4 = true → s.pstate ≤ 4 → t.rcHost R.PWR_WAKE_SRC &&& 0x10 = 0x10) ∧
        ((s.reg R.PWR_WAKE_EN).getLsbD 4 = true → s.thm.napLock = false → s.pstate ≤ 4 →
          s.bit F.PWR_STAT_EXITING = false →
          t.bit F.PWR_STAT_EXITING = true)))

/-- QOFF turns stopped quarters off and QON wakes quarters, whose domain is on once the bias has settled and whose
QSETTLE bit clears once its levels have, with the START that waited; nothing happens before. PGOOD loss and VID
timeouts are reported; pad hold is released only after a passed load check, with the clocks running and no backstop;
a patrol cycle records its sensors, rails and PPMU entries and raises VIOL; a reading takes each good sensor, its H
is the hottest, and SHUT sets from 120 °C; the backstop holds the pads, pulls FAULT_N low and turns every quarter
off; a lost VSG drops every GATE. (R326, R335, R337, R339, R340, R341, R342, R343, R345, R347, R398.) -/
def Obligations.PowerAndTemperature : Prop :=
  ∀ s : State,
    (∀ mask data : Word, (¬s.Runs R.PWR_QOFF → exec (.qoff mask data) s = .next s) ∧ (¬s.Runs R.PWR_QON →
      exec (.qon mask data) s = .next s) ∧
      (s.Runs R.PWR_QOFF → ∃ t, exec (.qoff mask data) s = .next t ∧ s.memoryKept t ∧
        ∀ q : Fin 16, t.quarterOn q = (s.quarterOn q && !((mask &&& data).getLsbD q && s.stopped q))) ∧
      (s.Runs R.PWR_QON → ∃ t, exec (.qon mask data) s = .next t ∧ t = { s with pwr := t.pwr } ∧
        (∀ q : Fin 16, t.pwr.waking.any (fun e => e.1 = q.val) =
          (s.pwr.waking.any (fun e => e.1 = q.val) || ((mask &&& data).getLsbD q && !s.quarterOn q))))) ∧
    (∀ q : Fin 16, ∃ t, exec (.biasSettled q) s = .next t ∧
      ((s.pwr.waking.find? fun e => e.1 = q.val) = none → s.pwr.stalled = [] → t = s) ∧
      ((s.pwr.waking.find? fun e => e.1 = q.val) = some (q.val, none) → s.pwr.stalled = [] → t = s) ∧
      (∀ t0, (s.pwr.waking.find? fun e => e.1 = q.val) = some (q.val, some t0) → s.pwr.stalled = [] →
        (if s.now < t0 + 115200 then t = s else t.quarterOn q = true ∧ (t.reg R.PWR_QSETTLE).getLsbD q = true ∧
          (∀ e ∈ t.pwr.waking, e.1 ≠ q.val) ∧ (∀ k : Fin 16, k ≠ q → t.quarterOn k = s.quarterOn k) ∧ s.memoryKept t ∧
          (∀ (i : Fin 64) (d : Fin 12), t.fld (F.CH_LVL_OUT_OUT (64 * q.val + i.val) d) = 0x8000)))) ∧
    (∀ q : Fin 16, ∃ t, exec (.quarterSettleEnd q) s = .next t ∧
      (if (s.reg R.PWR_QSETTLE).getLsbD q = true ∧ s.quarterSettled q = true then
        (t.reg R.PWR_QSETTLE).getLsbD q = false ∧ s.memoryKept t ∧ q.val ∉ t.pwr.pendStart ∧
        (q.val ∉ s.pwr.pendStart → t.pwr = s.pwr)
       else t = s)) ∧
    (∀ (ts : List Int) (ps : List PatrolPpmu) (dur : Nat), ∃ t, exec (.patrolCycle ts ps dur) s = .next t ∧
      (s.pstate ≠ 3 ∨ s.inTransit = true ∨ s.now < s.pwr.patrolNext → t = s) ∧
      (s.pstate = 3 → s.inTransit = false → s.pwr.patrolNext ≤ s.now →
        t.pwr.patrolNext = max (s.pwr.patrolNext + s.patrolPeriod) (s.pwr.patrolNext + dur) ∧ s.memoryKept t ∧
        (s.patrolPeriod < dur → t.flagged F.PWR_PAT_STAT_OVERLAP) ∧
        (∀ i : Fin 16, s.bit (F.PWR_PSG_EN i) = true → t.bit (F.PWR_PRES_H_VALID i) = true ∧
          t.bit (F.PWR_PRES_H_VALID (16 + i.val)) = true ∧
          t.reg (R.PWR_PRES_L i) = BitVec.ofInt 16 (s.sgResult (F.SG_V_RES_L_V (s.fld (F.PWR_PSG_SG i)))
            (F.SG_V_RES_H_V (s.fld (F.PWR_PSG_SG i)))) ∧
          t.reg (R.PWR_PRES_L (16 + i.val)) = BitVec.ofInt 16 (s.sgResult (F.SG_I_RES_L_I (s.fld (F.PWR_PSG_SG i)))
            (F.SG_I_RES_H_I (s.fld (F.PWR_PSG_SG i))))) ∧
        (∀ j : Fin 4, s.bit (F.PWR_PTS_EN j) = true →
          let i := min 16 (s.fld (F.PWR_PTS_SENSOR j))
          let v := if s.sensorBroken i = true then t.temp i else ts.getD i (s.temp i)
          t.reg (R.PWR_PRES_L (32 + j.val)) = BitVec.ofInt 16 v ∧ t.bit (F.PWR_PRES_H_VALID (32 + j.val)) = true ∧
          (if v < signed 16 (s.fld F.PWR_PAT_TLO_TLO) ∨ signed 16 (s.fld F.PWR_PAT_THI_THI) < v then
            t.bit (F.PWR_PRES_H_FAIL (32 + j.val)) = true ∧
            (max 1 (s.fld F.PWR_PAT_CFG2_VIOL_N) ≤ tabGet (fun _ => 0) s.pwr.fails (16 + j.val) + 1 →
              t.flagged F.PWR_PAT_STAT_VIOL ∧ t.fld F.PWR_PAT_STAT_FIRST ≤ 32 + j.val)
           else t.bit (F.PWR_PRES_H_FAIL (32 + j.val)) = false ∧
             tabGet (fun _ => 0) t.pwr.fails (16 + j.val) = 0)))) ∧
    (∃ t, exec .pgoodLost s = .next t ∧
      (if s.pwr.vidSince.isSome = true then t = s else t.flagged F.PWR_STAT_PGOOD_LOST ∧
        t.reported = s.reported ++ [s.plainEvent 0x020 (s.fld F.PWR_VID_CUR)] ∧
          t = { s with
            hostRc := t.hostRc, spx1Rc := t.spx1Rc, win := t.win, msgs := t.msgs, evcs := t.evcs,
            reported := t.reported })) ∧
    (∃ t, exec .vidTimeout s = .next t ∧ (s.pwr.vidSince = none → t = s) ∧
      (∀ t0, s.pwr.vidSince = some t0 →
        (if s.now < t0 + 64000 * max 1 (s.fld F.PWR_VID_CFG_TMO) then t = s else t.flagged F.PWR_STAT_VID_TMO ∧
          t.reported = s.reported ++ [s.plainEvent 0x021 (s.fld F.PWR_VID_CUR)] ∧
            t.pwr = { s.pwr with vidSince := none } ∧
          (s.pstate ≠ 4 → t.bit F.PWR_STAT_EXITING = false) ∧ s.regsKept [R.PWR_STAT] t ∧ s.memoryKept t))) ∧
    (¬s.Runs R.PWR_PAD_HOLD → exec .padHoldRelease s = .next s) ∧
    (s.Runs R.PWR_PAD_HOLD → ∃ t, exec .padHoldRelease s = .next t ∧ s.memoryKept t ∧
      (if s.bit F.PWR_PAD_HOLD_HOLD = true ∧ (s.led.passed = false ∨ s.bit F.PWR_STAT_BACKSTOP = true) then
        t.bit F.PWR_PAD_HOLD_HOLD = true ∧ t.flagged F.PWR_PAD_HOLD_REL_REFUSED ∧ s.regsKept [] t
       else t.bit F.PWR_PAD_HOLD_HOLD = false ∧ s.regsKept [R.PWR_PAD_HOLD] t)) ∧
    (∃ t, exec .backstopTrip s = .next t ∧
      (if s.pstate = 4 ∨ s.bit F.PWR_STAT_BACKSTOP = true then t = s else
        t.bit F.PWR_PAD_HOLD_HOLD = true ∧ t.bit F.PWR_STAT_BACKSTOP = true ∧ (∀ q : Fin 16, t.quarterOn q = false) ∧
        t.core = 0 ∧ t.bit F.CLK_STAT_PLL_LOCK = false ∧ s.memoryKept t ∧ t.faultLow = true ∧
        ∃ e ∈ t.reported, e.src = 0x022 ∧ e.cls = 2 ∧ e.addr = 16 ∧ e.time = s.now)) ∧
    (∃ t, exec .vsgLost s = .next t ∧ t = { s with sgs := t.sgs } ∧ ∀ n : Fin 64,
      t.sg n = { s.sg n with gate := false }) ∧
    (∀ rs : List (Option Int), ∃ t, exec (.thmReading rs) s = .next t ∧
      (s.pstate = 3 ∨ s.pstate = 4 ∨ s.bit F.PWR_STAT_BACKSTOP = true → t = s) ∧
      (s.pstate ≠ 3 → s.pstate ≠ 4 → s.bit F.PWR_STAT_BACKSTOP = false → s.memoryKept t ∧
        (∀ (i : Fin 17) (v : Int), rs.getD i none = some v → t.reg (R.THM_RAW i) = BitVec.ofInt 16 v) ∧
        (∀ (i : Fin 17) (v : Int), rs.getD i none = some v → -880 ≤ v → v ≤ 2400 → t.sensorBroken i = false →
          t.reg (R.THM_T i) = BitVec.ofInt 16 v ∧ v ≤ t.hottest ∧ (s.hottest < 1920 → 1920 ≤ v →
            t.flagged F.THM_STAT_SHUT)) ∧
        (s.bit F.THM_CFG_XCHK_EN = false → ∀ i : Fin 17, t.sensorBroken i = s.sensorBroken i) ∧
        (∀ i : Fin 17, s.sensorBroken i = true → t.sensorBroken i = true) ∧
        (t.bit F.THM_STAT_WARN_ACT = true → s.warnLimit - 32 ≤ t.hottest) ∧ (s.warnLimit ≤ t.hottest →
          t.bit F.THM_STAT_WARN_ACT = true))) ∧
    (∀ (m : Master) (high : Bool) (mask data : Word),
      s.Takes m (if high = true then R.THM_BROKEN_CLR_H else R.THM_BROKEN_CLR_L) →
      ∃ t, exec (.brokenClr m high mask data) s = .next t ∧ s.regsKept [R.THM_BROKEN_L, R.THM_BROKEN_H,
        R.THM_BROKEN_CLR_H] t ∧ s.memoryKept t ∧
        ∀ i : Fin 17, t.sensorBroken i = (s.sensorBroken i &&
          !(if high = true then decide (i.val = 16) && (mask &&& data).getLsbD 0 else decide (i.val < 16) && (mask
            &&& data).getLsbD i)))

/-- The event next in order is taken: counted in its source's window, where its THRESH-th takes the class of SCFG.ESC; a
CORRECTED one does no more than count; a CONTAINED or FATAL one opens the fault states of its targets with their
quiet periods, and past its recovery limit, or for the two latching sources, latches; a FATAL one enters the safe
state, names its cause and pulls FAULT_N low; the first error is captured where the copy is armed. A window's end
clears its count; the end of a quiet period closes the state and counts the recovery; RCLR clears RCNT of a closed
state only. The scrub repairs and reports disagreeing copies; FE_SRC answers the captured event and arms its reader's
copy again. (R39, R354, R355, R356, R358, R360, R361, R362, R363, R366, R367, R368.) -/
def Obligations.FaultCollector : Prop :=
  ∀ s : State,
    (s.reported = [] → exec .faultEvent s = .next s) ∧
    (∀ e : FaultEvent, nextEvent s.reported = some e → e.src < 512 →
      let cfg := s.reg (sscfg e.src)
      let count := if (s.srcCnt e.src).wend / 2 < e.time / 2 then 0 else s.srcCount e.src
      let full := max 1 (fieldOf cfg 8 8) ≤ count + 1
      let cls := if full then max e.cls (min 2 (fieldOf cfg 2 2)) else e.cls
      let ts := s.targets e
      ∃ t, exec .faultEvent s = .next t ∧ (cls = 0 → t.hbm = s.hbm) ∧
        (∀ a, a < 0x47000 ∨ 0x47100 ≤ a → t.winGet a = s.winGet a) ∧
        t.reported.take (s.reported.erase e).length = s.reported.erase e ∧
        t.srcCount e.src = (if full then 0 else count + 1) ∧
        (full → t.flagged F.FLT_STAT_SEV_EVT) ∧
        (count = 0 → (t.srcCnt e.src).wend = e.time + 2 ^ fieldOf cfg 4 4 * 640000) ∧
        (cls = 0 → t.reported = s.reported.erase e ∧ t.flagged F.FLT_STAT_CORR_EVT ∧ s.regsKept [ssstat e.src] t ∧
          t.ents = s.ents ∧ (s.bit F.FLT_CTRL_FE_CORR = false → t.feHost = s.feHost ∧ t.feSpx1 = s.feSpx1)) ∧
        (cls = 1 → t.flagged F.FLT_STAT_CONT_EVT ∧ ∀ x ∈ ts, x < 225 → t.entOpen x = true ∧
          (t.ent x).qend = e.time + s.quiet x) ∧
        (cls = 2 → t.flagged F.FLT_STAT_FATAL_EVT ∧ (∀ x ∈ ts, x < 225 → t.entOpen x = true) ∧
          t.entOpen 224 = true ∧ t.faultLow = true ∧
          (t.ent 224).qend = e.time + s.quiet 224 ∧
          (s.entOpen 224 = false → t.bit F.FLT_CHIPST_SAFE = true ∧ t.fld F.FLT_CAUSE_SRC = e.src) ∧
          (e.src = 0x019 ∨ e.src = 0x022 → t.faultLatched = true)) ∧
        (1 ≤ cls → cls ≤ 2 → ∀ x ∈ ts, x < 225 → s.entOpen x = false → s.recLimit x ≤ s.fld (entRcnt x) →
          t.faultLatched = true ∧ t.entOpen 224 = true ∧ t.flagged F.FLT_STAT_LATCH_EVT) ∧
        (1 ≤ cls ∨ s.bit F.FLT_CTRL_FE_CORR = true →
          (s.feHost.valid = false → t.feHost.valid = true ∧ t.feHost.ev = some { e with cls := cls } ∧
            t.feHost.more = 0) ∧
          (s.feSpx1.valid = false → t.feSpx1.valid = true ∧ t.feSpx1.ev = some { e with cls := cls } ∧
            t.feSpx1.more = 0) ∧
          (∀ o, s.feHost.valid = true → s.feHost.ev = some o → o.time / 2 ≠ e.time / 2 →
            t.feHost = { s.feHost with more := min 0xFFFF (s.feHost.more + 1) }))) ∧
    (∀ src : Fin 512, ∃ t, exec (.faultWindowExpiry src) s = .next t ∧
      (if s.srcCount src ≠ 0 ∧ (s.srcCnt src).wend ≤ s.now then t.srcCount src = 0 ∧ s.regsKept [ssstat src] t ∧
        t = { s with regs := t.regs, copyB := t.copyB, copyC := t.copyC }
       else t = s)) ∧
    (∀ x : Fin 225, ∃ t, exec (.faultQuietExpiry x) s = .next t ∧
      (if s.entDue x = true then t.entOpen x = false ∧ t.fld (entRcnt x) = min 15 (s.fld (entRcnt x) + 1) ∧
        t.flagged F.FLT_STAT_RECOVERED ∧ s.memoryKept t ∧ (x.val = 224 → t.bit F.FLT_CHIPST_SAFE = false) ∧
        (∀ y : Fin 225, s.entDue y = false → t.entOpen y = s.entOpen y)
       else t = s)) ∧
    (∀ (m : Master) (x : Fin 225), s.Takes m (entAddr x) → ∃ t, exec (.faultRclr m x) s = .next t ∧ s.memoryKept t ∧
      (if s.faultLatched = true ∨ (s.entOpen x = true ∧ s.entDue x = false) then
        t.flagged F.FLT_STAT_CFG_REJ ∧ s.regsKept [] t
       else s.regsKept [entAddr x] t ∧ t.entOpen x = s.entOpen x ∧
        t.fld (entRcnt x) = (if s.entOpen x = false ∧ (s.ent x).qend ≠ 0 ∧
          (s.ent x).qend / 2 = s.now / 2 then 1 else 0))) ∧
    (∀ m : Master, s.Takes m R.FLT_CTRL → ∃ t, exec (.safeReq m) s = .next t ∧
      t.reported = s.reported ++ [s.accessEvent 0x003 0 m 2] ∧ s.regsKept [] t ∧ s.memoryKept t) ∧
    (∀ ups : List (Nat × Nat × Word), ∃ t, exec (.votedFieldScrub ups) s = .next t ∧ s.memoryKept t ∧ t.qs = s.qs ∧
      (s.bit F.FLT_CTRL_SCRUB_EN = true → (∀ u ∈ ups, u.1 ≠ R.FLT_CTRL) → ∀ a : Nat, t.disagreements a = 0)) ∧
    (∀ (a : Nat) (k : Fin 3) (w : Word), ∀ r : RegRow, rowOf a = some r →
      s.copyB = [] → s.copyC = [] → w ≠ 0 → a ≠ R.FLT_CTRL →
      let bad := r.voted.filter (fun f => fieldOf w f.1 f.2 ≠ 0)
      ∃ t, exec (.votedFieldScrub [(a, k.val, w)]) s = .next t ∧ s.regsKept [] t ∧
        (if s.bit F.FLT_CTRL_SCRUB_EN = true then (bad ≠ [] → t.copyB = [] ∧ t.copyC = []) ∧
          t.reported = s.reported ++ List.replicate bad.length (s.plainEvent 0x002 a)
         else t.reported = s.reported)) ∧
    (∀ m : Master, m ∈ [Master.pcie, Master.spx1] → s.Serves m R.FLT_FE_SRC → s.spx1.cut = false →
      ∃ t, exec (.feSrcRead m) s = .next t ∧
      t.reads = (s.readValue m R.FLT_FE_SRC 0x8000).setWidth 32 :: s.reads ∧
      (s.feCopy m).valid = (s.readValue m R.FLT_FE_SRC 0x8000).getLsbD 15 ∧
      (t.feCopy m).valid = false ∧ (t.feCopy m).latched = (s.feCopy m).ev ∧ (t.feCopy m).more = (s.feCopy m).more ∧
      s.regsKept [] t ∧ s.memoryKept t) ∧
    (∀ m : Master, m ∉ [Master.pcie, Master.spx1] → s.Serves m R.FLT_FE_SRC → ∃ t, exec (.feSrcRead m) s = .next t ∧
      t.feHost = s.feHost ∧ t.feSpx1 = s.feSpx1 ∧ s.regsKept [] t ∧ s.memoryKept t)

/-- Power-on, a RESET_N pulse of 10 µs, a supply dip and a FULL reset return every register outside BOOT_STAT to its
reset value (the levels slew where the power stays), record their cause and start the boot at step 1; the straps are
sampled at power-on and RESET_N. COLD keeps the Shank's causes and fault state, drops the link, holds the pads and
restarts at step 4. WARM resets the quarters of RST_QMASK alone, and is refused while a boot is busy. (That RST_CAUSE
shows bit 3 alone after RESET_N, and HBM reads 0 after a full reset, are the model's choices, log entries 42 and 4.)
(R8, R373, R374, R375, R376, R397, R398.) -/
def Obligations.Resets : Prop :=
  ∀ s : State,
    (∀ (straps : Word) (gib32 : Bool), ∃ t, exec (.powerOnReset straps gib32) s = .next t ∧ s.resetAll false t ∧
      t.straps = straps ∧ t.rcHost R.CHIP_RST_CAUSE = 0x10 ∧ t.rcSpx1 R.CHIP_RST_CAUSE = 0x10 ∧
      t.installed = (if gib32 = true then 2 else 1)) ∧
    (∀ (straps : Word) (low : Nat), ∃ t, exec (.resetN straps low) s = .next t ∧
      (if low < 6400 then t = s else s.resetAll true t ∧ t.straps = straps ∧ t.rcHost R.CHIP_RST_CAUSE = 8 ∧
        (∀ a, a < 0x47000 ∨ 0x50000 ≤ a → t.winGet a = s.winGet a))) ∧
    (∃ t, exec .supplyDipReset s = .next t ∧ s.resetAll false t ∧ t.rcHost R.CHIP_RST_CAUSE = 0x10) ∧
    (∀ m : Master, s.Takes m R.CHIP_RST →
      (∃ t, exec (.fullReset m) s = .next t ∧ s.resetAll true t ∧ t.rcHost R.CHIP_RST_CAUSE = 4 ∧
        t.straps = s.straps ∧
        (∀ a, a < 0x47000 ∨ 0x50000 ≤ a → t.winGet a = s.winGet a)) ∧
      (∃ t, exec (.coldReset m) s = .next t ∧ t.bootStep = 4 ∧ t.boot.running = true ∧ t.pstate = 0 ∧
        t.bit F.PWR_PAD_HOLD_HOLD = true ∧ t.rcHost R.CHIP_RST_CAUSE &&& 2 = 2 ∧ t.linkUp = false ∧ t.hbm = s.hbm ∧
        t.nvm.pages = s.nvm.pages ∧ t.lace = {} ∧ t.txns = [] ∧ t.rings = [] ∧ t.straps = s.straps ∧ t.ents = s.ents ∧
        (∀ a, (0x400 ≤ a ∧ a < 0x480) ∨ (0x20000 ≤ a ∧ a < 0x28000) ∨ (0x100000 ≤ a ∧ a < 0x200000 ∧
          a % 0x10000 < 0x8000) →
          t.reg a = regReset a) ∧
        (∀ a, 0x11000 ≤ a → a < 0x12000 → t.reg a = s.reg a) ∧
        (∀ a, a < 0x47000 ∨ 0x50000 ≤ a → t.winGet a = s.winGet a)) ∧
      (∃ t, exec (.warmReset m) s = .next t ∧
        (if s.bootBusy = true then t.flagged F.CHIP_BOOT_STAT_BUSY_REJ ∧ s.regsKept [] t ∧ s.memoryKept t ∧
          t.qs = s.qs
         else t.rcHost R.CHIP_RST_CAUSE &&& 1 = 1 ∧ t.linkUp = s.linkUp ∧ t.boot = s.boot ∧ t.straps = s.straps ∧
          (∀ a, 0x20000 ≤ a → a < 0x28000 → t.reg a = s.reg a) ∧
          ∀ q : Fin 16, ((s.reg R.CHIP_RST_QMASK).getLsbD q = true → t.qstate q = 0 ∧ (t.q q).body = none ∧
              (t.q q).stall = none ∧ (∀ k, k < 4 → t.tdc (4 * q.val + k) = {}) ∧
              ∀ a, 0x100000 + 0x10000 * q.val ≤ a → a < 0x108000 + 0x10000 * q.val → t.reg a = regReset a) ∧
            ((s.reg R.CHIP_RST_QMASK).getLsbD q = false → t.q q = s.q q ∧
              ∀ a, 0x100000 + 0x10000 * q.val ≤ a → a < 0x110000 + 0x10000 * q.val → t.reg a = s.reg a))))

/-- GO starts an awaited boot at step 5 and otherwise sets GO_REF. HDATA_H stores its dword at HADDR and steps HADDR by
4, and is refused while a boot runs. A step that has met its condition goes on to the next and one that has not
waits; a step that finds an empty flash, a bad header, a bad layout, a failed authentication, a section that does not
check or load, too little HBM or a failed load check fails the boot with its code, and so does one over its budget.
The master repeats surveys and sends START when due, and a member without a ring ends its boot with NO_RING. (R14,
R380, R381, R382, R383, R384.) -/
def Obligations.BootSequence : Prop :=
  ∀ s : State,
    (∀ (m : Master) (src : Fin 4), s.Takes m R.CHIP_BOOT_CTRL → ∃ t, exec (.bootGo m src) s = .next t ∧
      s.memoryKept t ∧
      t.fld F.CHIP_BOOT_CTRL_SRC = src.val ∧
      (if s.bit F.CHIP_BOOT_STAT_WAIT_IMAGE = false ∨ 2 ≤ src.val ∨ s.bit F.MEM_FAULT_TRAIN_FAIL = true ∨
          s.fld F.CHIP_BOOT_ERR_CODE = 0x0B then
        t.flagged F.CHIP_BOOT_STAT_GO_REF ∧ t.boot = s.boot ∧ s.regsKept [R.CHIP_BOOT_CTRL] t
       else t.bit F.CHIP_BOOT_STAT_WAIT_IMAGE = false ∧ t.bootStep = 5 ∧ t.boot.running = true ∧
         t.boot.since = s.now ∧
        t.boot.fromHbm = decide (src.val = 1) ∧ s.regsKept [R.CHIP_BOOT_CTRL, R.CHIP_BOOT_STAT] t)) ∧
    (∀ (m : Master) (v : Word), s.Takes m R.CHIP_BOOT_HDATA_H → ∃ t, exec (.bootHdataHWrite m v) s = .next t ∧
      (if s.boot.running = true then t.flagged F.CHIP_BOOT_STAT_BUSY_REJ ∧ s.regsKept [] t ∧ s.memoryKept t
       else t.haddr = (s.haddr + 4) % 2 ^ 35 ∧ t.reg R.CHIP_BOOT_HDATA_H = v ∧
        (s.haddr + 4 ≤ s.capacity → ∀ i, i < 4 → t.hbmByte (s.haddr + i) =
          (bytesOf (s.fld F.CHIP_BOOT_HDATA_L_HDATA + 2 ^ 16 * v.toNat) 4).getD i 0) ∧
        (∀ b, b < s.haddr ∨ s.haddr + 4 ≤ b → t.hbmByte b = s.hbmByte b) ∧ t.win = s.win)) ∧
    (∀ f : BootFacts, ∃ t, exec (.bootStepComplete f) s = .next t ∧
      (s.boot.running = false ∨ s.bit F.CLK_STAT_HOLD = true ∨ s.bootStep = 0 ∨ 12 < s.bootStep → t = s) ∧
      (s.boot.running = true → s.bit F.CLK_STAT_HOLD = false →
        let image := s.imageBytes f.flash 0 4096
        let blank := s.boot.fromHbm = false ∧ (image.all (· = 0) = true ∨ image.all (· = 0xFF) = true)
        let base := if s.boot.fromHbm = true then some (s.fld F.CHIP_BOOT_SRCADDR_BASE * 2 ^ 20) else none
        (s.bootStep = 1 → if s.srcReady 3 = true then s.bootsOn 2 t ∧ t.clk.xoOn = true else t = s) ∧
        (s.bootStep = 2 → if s.srcReady 1 = true ∧ s.clk.xoOn = true then s.bootsOn 3 t ∧
          s.regsKept [R.CHIP_BOOT_STAT] t ∧ s.memoryKept t else t = s) ∧
        (s.bootStep = 3 → if s.srcReady 0 = true then s.bootsOn 4 t ∧ s.regsKept [R.CHIP_BOOT_STAT] t ∧ s.memoryKept t
          else t = s) ∧
        (s.bootStep = 4 → if s.bit F.CLK_STAT_PLL_LOCK = true ∧ s.bit F.CLK_STAT_IPLL_LOCK = true then
            s.bootsOn (if fieldOf s.straps 6 2 = 0 then 5 else 8) t ∧ t.core = 2 ∧ ∀ q : Fin 16, t.quarterOn q = true
          else t = s) ∧
        (s.bootStep = 5 →
          if s.boot.fromHbm = true ∧ f.ue.isSome = true then s.bootFails 0x0C 0 t
          else if blank then s.bootFails 1 0 t ∧ t.bit F.SPX0_BOOT_STAT_NO_FLASH = true
          else if headerOk image = false then s.bootFails 2 0 t
          else (∀ x, illFormed s.capacity base image = some x → s.bootFails 8 x.idx t) ∧
            (illFormed s.capacity base image = none →
              if ((sections image).filter fun x => x.type = 6).length ≠ 1 then
                s.bootFails 0x0A ((((sections image).filter fun x => x.type = 6).getLast?.map (·.idx)).getD 0) t
              else s.bootsOn 6 t ∧ t.boot.header = image)) ∧
        (s.bootStep = 6 →
          if (s.authenticate s.boot.header).1 ≠ 0 then s.bootFails (s.authenticate s.boot.header).1 0 t
          else s.bootsOn 7 t ∧ t.bit F.CHIP_BOOT_STAT_UNPINNED = (s.authenticate s.boot.header).2 ∧
            ∀ i, i < 8 → t.reg (R.CHIP_BOOT_IMGID i) = BitVec.ofNat 16 (hdr s.boot.header (0x50 + 2 * i) 2)) ∧
        (s.bootStep = 7 →
          (∀ x, ueFail f (·.type ≤ 6) s = some x → s.bootFails 0x0C x.idx t) ∧
          (∀ x, ueFail f (·.type ≤ 6) s = none → ((sections s.boot.header).filter (·.type ≤ 6)).head? = some x →
            sha256 (s.imageBytes f.flash x.off x.len) ≠ x.hash → s.bootFails 7 x.idx t) ∧
          (s.bootsOn 8 t ∧ (∀ c : Fin 1024, (t.chan c).site = (f.sites.find? fun e => e.1 = c.val).map (·.2.val)) ∨
            t.boot.running = false ∧ t.bit F.CHIP_BOOT_STAT_FAILED = true ∧ t.fld F.CHIP_BOOT_ERR_CODE ∈ [7, 9,
              0x0C])) ∧
        (s.bootStep = 8 →
          if s.bit F.MEM_ID_TRAINED = false ∧ s.boot.fromHbm = false then t = s
          else if s.boot.header = [] then t.bit F.CHIP_BOOT_STAT_WAIT_IMAGE = true ∧
            t.boot = { s.boot with running := false } ∧
            s.regsKept [R.CHIP_BOOT_STAT] t
          else if s.installed < s.bootHdr 0xE 1 then s.bootFails 3 0 t
          else s.bootsOn 9 t ∨ t.boot.running = false ∧ t.bit F.CHIP_BOOT_STAT_FAILED = true ∧
            t.fld F.CHIP_BOOT_ERR_CODE ∈ [7, 0x0C]) ∧
        (s.bootStep = 9 → s.bootFails 0x0D 0 t ∨ s.bootEnds t ∨ s.bootsOn 11 t ∨ s.bootsOn 10 t) ∧
        (s.bootStep = 10 →
          if (if s.laceMaster = true then s.lace.surveying = false ∧ s.lace.surveyReq = false ∧
              (s.rosterComplete = true ∨ 8 ≤ s.boot.surveys) else s.laceJoined = true) then
            (if s.boot.shankExit = true then s.bootEnds t else s.bootsOn 11 t ∧
              t.boot.startAt = if s.laceMaster = true then some (s.now + s.startDly) else s.boot.startAt)
          else t = s) ∧
        (s.bootStep = 11 →
          (s.chipFault = true → t = s) ∧
          (s.chipFault = false → s.bit F.PWR_PAD_HOLD_HOLD = true →
            s.led.passed = false ∨ s.bit F.PWR_STAT_BACKSTOP = true →
            t.flagged F.PWR_PAD_HOLD_REL_REFUSED ∧ t.bootStep = 11) ∧
          (s.chipFault = false → s.led.passed = true → s.bit F.PWR_STAT_BACKSTOP = false →
            t.bit F.PWR_PAD_HOLD_HOLD = false ∧
            (if s.bit F.LACE_CTRL_RING_EN = true then s.bootsOn 12 t else s.bootEnds t))) ∧
        (s.bootStep = 12 →
          if s.boot.startAt.isSome = true ∨ (∃ q : Fin 16, s.startMask.testBit q = true ∧ s.qstate q = 10 ∧
            (s.q q).startDue = none) then t = s
          else s.bootEnds t ∧ s.memoryKept t ∧ s.regsKept [R.CHIP_BOOT_STAT, R.CHIP_BOOT_MS] t))) ∧
    (s.boot.running = false ∨ s.bit F.CLK_STAT_HOLD = true ∨ s.budget = none → exec .bootStepOverBudget s = .next s) ∧
    (∀ b, s.boot.running = true → s.bit F.CLK_STAT_HOLD = false → s.budget = some b → ∃ t,
      exec .bootStepOverBudget s = .next t ∧
      (if s.now ≤ s.boot.since + b then t = s else s.bootFails 0x0E 0 t)) ∧
    (∃ t, exec .bootSurveyRetry s = .next t ∧
      (if s.boot.running = false ∨ s.bootStep ≠ 10 ∨ s.laceMaster = false ∨ s.now < s.boot.surveyNext ∨ 8 ≤
        s.boot.surveys ∨
          (0 < s.boot.surveys ∧ s.rosterComplete = true) ∨ s.lace.surveying = true ∨ s.lace.surveyReq = true then t =
            s
       else t.boot.surveys = s.boot.surveys + 1 ∧ t.boot.surveyNext = s.boot.surveyNext + s.surveyWait ∧
         s.memoryKept t ∧
        (s.laceRelays = true → 0 < s.laceState → 16 ∈ t.cal.running ∨ 16 ∈ t.cal.waiting))) ∧
    (∃ t, exec .bootStartSend s = .next t ∧ (s.boot.startAt = none → t = s) ∧
      (∀ t0, s.boot.startAt = some t0 →
        (if s.boot.running = false ∨ s.bootStep ≠ 12 ∨ s.now < t0 then t = s else
          t.boot.startAt = none ∧ s.regsKept [] t ∧ s.memoryKept t ∧
          (s.rosterComplete = false → t.flagged F.CHIP_BOOT_STAT_START_PARTIAL) ∧
          (if s.laceMaster = true ∧ s.laceJoined = true ∧ s.lace.detaching = false then
            t.lace.requests = insertReq ⟨25, 3, 0, 0, granuleAt s.now⟩ s.lace.requests
           else t.lace = s.lace ∧ t.flagged F.LACE_STAT_SEND_REFUSED)))) ∧
    (∃ t, exec .bootNoRing s = .next t ∧
      (if s.boot.running = false ∨ s.bootStep ≠ 10 ∨ s.laceMaster = true ∨ s.laceJoined = true ∨
          s.now < s.boot.since + 9 * s.surveyWait + 2560000 then t = s
       else s.bootEnds t ∧ t.flagged F.CHIP_BOOT_STAT_NO_RING ∧
        t.reported = s.reported ++ [{ s.plainEvent 0x034 0 with cls := 0 }] ∧
        t.bit F.PWR_PAD_HOLD_HOLD = s.bit F.PWR_PAD_HOLD_HOLD ∧ s.memoryKept t))

/-- Each instruction of Table 19-12 selects its data register: IDCODE the identification, SAMPLE/PRELOAD and EXTEST the
boundary chain, a code not listed the bypass; SAMPLE takes the balls' levels and the shifted-in latch; EXTEST alone
drives the balls. Nothing outside the port changes. (That HIGHZ selects the bypass is taken from IEEE 1149.1.)
(R406.) -/
def Obligations.TestAccessPort : Prop :=
  ∀ s : State,
    (∀ code : BitVec 6, ∃ t, exec (.tapBypass code) s = .next t ∧ t = { s with tap := t.tap } ∧
      (if code.toNat ≤ 3 then t = s else t.tapReg = .bypass ∧ t.tap.extest = false ∧ t.tap.highz = false ∧
        t.tap.sampled = s.tap.sampled ∧ t.tap.boundary = s.tap.boundary)) ∧
    (∃ t, exec .tapIdcode s = .next t ∧ t = { s with tap := t.tap } ∧
      t.tapReg = .idcode (BitVec.ofNat 32 (Config.dieRev.toNat % 16 * 2 ^ 28 + 0x1024 * 2 ^ 12 + 0x2A7 * 2 + 1)) ∧
      t.tap.extest = false ∧ t.tap.highz = false ∧ t.tap.boundary = s.tap.boundary) ∧
    (∀ pins preload : Nat, ∃ t, exec (.tapSamplePreload pins preload) s = .next t ∧ t = { s with tap := t.tap } ∧
      t.tapReg = .boundary pins ∧ t.tap.boundary = preload ∧ t.tap.extest = false ∧ t.tap.highz = false) ∧
    (∃ t, exec .tapExtest s = .next t ∧ t = { s with tap := t.tap } ∧ t.tapReg = .boundary s.tap.sampled ∧
      t.tap.extest = true ∧ t.tap.highz = false ∧ t.tap.boundary = s.tap.boundary) ∧
    (∃ t, exec .tapHighz s = .next t ∧ t = { s with tap := t.tap } ∧ t.tapReg = .bypass ∧ t.tap.highz = true ∧
      t.tap.extest = false ∧ t.tap.boundary = s.tap.boundary)

/-- An enabled wake event that would end the state entered is latched while ENTERING = 1 with its WAKE_SRC bit, and the
entry goes on with every register as it was; when the entry completes the part shows the state entered, sets REPLAYED
and starts one exit at once, however many events were latched; an event during an exit sets its WAKE_SRC bit and
nothing else. (R334.) -/
def Obligations.WakeDuringEntry : Prop :=
  ∀ s : State, s.thm.napLock = false →
    (∀ b : Fin 7, (s.reg R.PWR_WAKE_EN).getLsbD b = true →
      (s.bit F.PWR_STAT_ENTERING = true → wakeEnds b s.pwr.target = true → ∃ t, exec (.wakeEvent b) s = .next t ∧
        t.rcHost R.PWR_WAKE_SRC &&& BitVec.ofNat 16 (2 ^ b.val) = BitVec.ofNat 16 (2 ^ b.val) ∧
        t.pwr = { s.pwr with wakeLatch := s.pwr.wakeLatch ||| 2 ^ b.val } ∧ t.pwr.wakeLatch ≠ 0 ∧ s.regsKept [] t ∧

          t = { s with
            hostRc := t.hostRc, spx1Rc := t.spx1Rc, win := t.win, msgs := t.msgs, evcs := t.evcs, pwr := t.pwr }) ∧
      (s.bit F.PWR_STAT_ENTERING = false → s.bit F.PWR_STAT_EXITING = true → wakeEnds b s.pstate = true →
        ∃ t, exec (.wakeEvent b) s = .next t ∧
        t.rcHost R.PWR_WAKE_SRC &&& BitVec.ofNat 16 (2 ^ b.val) = BitVec.ofNat 16 (2 ^ b.val) ∧ s.regsKept [] t ∧

          t = { s with
            hostRc := t.hostRc, spx1Rc := t.spx1Rc, win := t.win, msgs := t.msgs, evcs := t.evcs })) ∧
    (s.bit F.PWR_STAT_ENTERING = true → s.vidSettled = true → s.thm.shutPend = false → s.pwr.wakeLatch ≠ 0 →
      2 ≤ s.pwr.target → s.pwr.target ≤ 4 → ∃ t, exec .powerEntryComplete s = .next t ∧
        t.bit F.PWR_STAT_ENTERING = false ∧ t.bit F.PWR_STAT_EXITING = true ∧ t.pstate = s.pwr.target ∧
        t.flagged F.PWR_WAKE_SRC_REPLAYED ∧ t.pwr.wakeLatch = 0 ∧ t.pwr.target = (if s.pwr.target = 4 then 0 else 1))

/-- WARN reads 0x0690, 105 °C, after power-on, and a higher code acts as 0x0690. When a reading brings H to WARN the part
sets WARN_EVT and WARN_ACT, reports a CORRECTED event of source 0x026 and raises wake event 1, which ends NAP;
WARN_ACT clears once H is more than 2 °C below WARN and holds between the two. (R345.) -/
def Obligations.ThermalWarning : Prop :=
  State.reset.fld F.THM_WARN_WARN = 0x0690 ∧
    ∀ (s : State) (v : Int), s.pstate ≠ 3 → s.pstate ≠ 4 → s.bit F.PWR_STAT_BACKSTOP = false →
      s.bit F.THM_CFG_XCHK_EN = false →
      (∀ i : Fin 17, s.sensorBroken i = false) → -880 ≤ v → v ≤ 2400 →
      ∃ t, exec (.thmReading (List.replicate 17 (some v))) s = .next t ∧ t.hottest = v ∧
        (((min (s.fld F.THM_WARN_WARN) 0x0690 : Nat) : Int) ≤ v → t.bit F.THM_STAT_WARN_ACT = true ∧
          (s.bit F.THM_STAT_WARN_ACT = false → t.flagged F.THM_STAT_WARN_EVT ∧
            (∃ e ∈ t.reported, e.src = 0x026 ∧ e.cls = 0 ∧ e.time = s.now) ∧
            ((s.reg R.PWR_WAKE_EN).getLsbD 1 = true → s.pstate = 2 → s.bit F.PWR_STAT_ENTERING = false →
              s.bit F.PWR_STAT_EXITING = false → s.thm.napLock = false →
              t.rcHost R.PWR_WAKE_SRC &&& 2 = 2 ∧ (v < 1920 → t.bit F.PWR_STAT_EXITING = true)))) ∧
        (v < ((min (s.fld F.THM_WARN_WARN) 0x0690 : Nat) : Int) - 32 → t.bit F.THM_STAT_WARN_ACT = false) ∧
        (((min (s.fld F.THM_WARN_WARN) 0x0690 : Nat) : Int) - 32 ≤ v →
          v < ((min (s.fld F.THM_WARN_WARN) 0x0690 : Nat) : Int) →
          t.bit F.THM_STAT_WARN_ACT = s.bit F.THM_STAT_WARN_ACT)
end

