-- ==== Sys2Proof/Laws/Tab.lean ====
section
/-! SUPPORT. Sparse tables: what a read after a write gives, and that every operation keeps the canonical form. -/

namespace Sys2Proof.Machine

variable {α : Type}

@[simp] theorem tabGet_nil (d : Nat → α) (a : Nat) : tabGet d [] a = d a := rfl

@[simp] theorem tabErase_nil (a : Nat) : tabErase ([] : Tab α) a = [] := rfl

/-- Erasing a key makes it read as unlisted. -/
theorem tabGet_tabErase_same (d : Nat → α) (t : Tab α) (a : Nat) : tabGet d (tabErase t a) a = d a := by
  induction t with
  | nil => rfl
  | cons e t ih =>
    by_cases h : e.1 = a <;> simp [tabErase, tabGet, h, ih]

/-- Erasing a key leaves every other key alone. -/
theorem tabGet_tabErase_ne (d : Nat → α) (t : Tab α) {a b : Nat} (h : b ≠ a) :
    tabGet d (tabErase t a) b = tabGet d t b := by
  induction t with
  | nil => rfl
  | cons e t ih =>
    by_cases ha : e.1 = a
    · have hb : ¬ e.1 = b := fun hb => h (hb.symm.trans ha)
      simp only [tabErase, ha, if_true, ih, tabGet]
      rw [if_neg (ha ▸ hb)]
    · by_cases hb : e.1 = b
      · rw [tabErase, if_neg ha, tabGet, if_pos hb, tabGet, if_pos hb]
      · simp [tabErase, tabGet, ha, hb, ih]

theorem tabGet_tabInsert_same (d : Nat → α) (t : Tab α) (a : Nat) (v : α) (h : ∀ e ∈ t, e.1 ≠ a) :
    tabGet d (tabInsert t a v) a = v := by
  induction t with
  | nil => simp [tabInsert, tabGet]
  | cons e t ih =>
    have he : e.1 ≠ a := h e (List.mem_cons_self ..)
    by_cases hlt : a < e.1
    · simp [tabInsert, hlt, tabGet]
    · simp only [tabInsert, hlt, if_false, tabGet, he]
      exact ih fun x hx => h x (List.mem_cons_of_mem _ hx)

theorem tabGet_tabInsert_ne (d : Nat → α) (t : Tab α) {a b : Nat} (v : α) (h : b ≠ a) :
    tabGet d (tabInsert t a v) b = tabGet d t b := by
  induction t with
  | nil => simp [tabInsert, tabGet, h.symm]
  | cons e t ih =>
    by_cases hlt : a < e.1
    · simp [tabInsert, hlt, tabGet, h.symm]
    · by_cases hb : e.1 = b
      · rw [tabInsert, if_neg hlt, tabGet, if_pos hb, tabGet, if_pos hb]
      · rw [tabInsert, if_neg hlt, tabGet, if_neg hb, tabGet, if_neg hb, ih]

theorem tabErase_keys (t : Tab α) (a : Nat) : ∀ e ∈ tabErase t a, e.1 ≠ a ∧ e ∈ t := by
  induction t with
  | nil => simp
  | cons x t ih =>
    intro e he
    by_cases hx : x.1 = a
    · rw [tabErase, if_pos hx] at he
      exact ⟨(ih e he).1, List.mem_cons_of_mem _ (ih e he).2⟩
    · rw [tabErase, if_neg hx] at he
      rcases List.mem_cons.1 he with rfl | he
      · exact ⟨hx, List.mem_cons_self ..⟩
      · exact ⟨(ih e he).1, List.mem_cons_of_mem _ (ih e he).2⟩

section Set
variable [DecidableEq α]

/-- A read after a write to the same key gives the value written. -/
@[simp] theorem tabGet_tabSet_same (d : Nat → α) (t : Tab α) (a : Nat) (v : α) :
    tabGet d (tabSet d t a v) a = v := by
  unfold tabSet
  split
  · rename_i h
    rw [tabGet_tabErase_same, h]
  · exact tabGet_tabInsert_same d _ a v fun e he => (tabErase_keys t a e he).1

/-- A write leaves every other key alone. -/
theorem tabGet_tabSet_ne (d : Nat → α) (t : Tab α) {a b : Nat} (v : α) (h : b ≠ a) :
    tabGet d (tabSet d t a v) b = tabGet d t b := by
  unfold tabSet
  split
  · exact tabGet_tabErase_ne d t h
  · rw [tabGet_tabInsert_ne d _ v h, tabGet_tabErase_ne d t h]

theorem tabGet_tabSet (d : Nat → α) (t : Tab α) (a b : Nat) (v : α) :
    tabGet d (tabSet d t a v) b = if b = a then v else tabGet d t b := by
  split
  · rename_i h; rw [h, tabGet_tabSet_same]
  · rename_i h; exact tabGet_tabSet_ne d t v h

/-! ### The canonical form -/

@[simp] theorem tabWf_nil (d : Nat → α) : tabWf d ([] : Tab α) = true := rfl

theorem tabWf_cons (d : Nat → α) (e : Nat × α) (t : Tab α) :
    tabWf d (e :: t) = true ↔ e.2 ≠ d e.1 ∧ (∀ x ∈ t, e.1 < x.1) ∧ tabWf d t = true := by
  simp [tabWf, and_assoc]

/-- Erasing keeps the canonical form. -/
theorem tabErase_wf (d : Nat → α) (t : Tab α) (a : Nat) (h : tabWf d t = true) : tabWf d (tabErase t a) = true := by
  induction t with
  | nil => rfl
  | cons e t ih =>
    rw [tabWf_cons] at h
    by_cases he : e.1 = a
    · rw [tabErase, if_pos he]
      exact ih h.2.2
    · rw [tabErase, if_neg he, tabWf_cons]
      exact ⟨h.1, fun x hx => h.2.1 x (tabErase_keys t a x hx).2, ih h.2.2⟩

omit [DecidableEq α] in
theorem tabInsert_mem (t : Tab α) (a : Nat) (v : α) : ∀ e ∈ tabInsert t a v, e = (a, v) ∨ e ∈ t := by
  induction t with
  | nil => simp [tabInsert]
  | cons x t ih =>
    intro e he
    by_cases hlt : a < x.1
    · rw [tabInsert, if_pos hlt] at he
      exact List.mem_cons.1 he
    · rw [tabInsert, if_neg hlt] at he
      rcases List.mem_cons.1 he with h | h
      · exact Or.inr (h ▸ List.mem_cons_self ..)
      · rcases ih e h with h | h
        · exact Or.inl h
        · exact Or.inr (List.mem_cons_of_mem _ h)

theorem tabInsert_wf (d : Nat → α) (t : Tab α) (a : Nat) (v : α) (hv : v ≠ d a) (hk : ∀ e ∈ t, e.1 ≠ a)
    (h : tabWf d t = true) : tabWf d (tabInsert t a v) = true := by
  induction t with
  | nil => simp [tabInsert, tabWf, hv]
  | cons e t ih =>
    have hw := (tabWf_cons d e t).1 h
    have he : e.1 ≠ a := hk e (List.mem_cons_self ..)
    by_cases hlt : a < e.1
    · rw [tabInsert, if_pos hlt, tabWf_cons]
      refine ⟨hv, ?_, h⟩
      intro x hx
      rcases List.mem_cons.1 hx with rfl | hx
      · exact hlt
      · exact Nat.lt_trans hlt (hw.2.1 x hx)
    · rw [tabInsert, if_neg hlt, tabWf_cons]
      refine ⟨hw.1, ?_, ih (fun x hx => hk x (List.mem_cons_of_mem _ hx)) hw.2.2⟩
      intro x hx
      rcases tabInsert_mem t a v x hx with rfl | hx
      · show e.1 < a
        omega
      · exact hw.2.1 x hx

/-- A write keeps the canonical form. -/
theorem tabSet_wf (d : Nat → α) (t : Tab α) (a : Nat) (v : α) (h : tabWf d t = true) :
    tabWf d (tabSet d t a v) = true := by
  unfold tabSet
  split
  · exact tabErase_wf d t a h
  · rename_i hv
    exact tabInsert_wf d _ a v hv (fun e he => (tabErase_keys t a e he).1) (tabErase_wf d t a h)

omit [DecidableEq α] in
/-- A key below every listed one reads as unlisted. -/
theorem tabGet_of_lt (d : Nat → α) (t : Tab α) (a : Nat) (h : ∀ e ∈ t, a < e.1) : tabGet d t a = d a := by
  induction t with
  | nil => rfl
  | cons e t ih =>
    have : ¬ e.1 = a := by have := h e (List.mem_cons_self ..); omega
    rw [tabGet, if_neg this]
    exact ih fun x hx => h x (List.mem_cons_of_mem _ hx)

omit [DecidableEq α] in
theorem tabGet_head (d : Nat → α) (e : Nat × α) (t : Tab α) : tabGet d (e :: t) e.1 = e.2 := by
  simp [tabGet]

/-- Equal contents are equal data: canonical tables that read alike everywhere are one list. -/
theorem tabWf_ext (d : Nat → α) (t u : Tab α) (ht : tabWf d t = true) (hu : tabWf d u = true)
    (h : ∀ a, tabGet d t a = tabGet d u a) : t = u := by
  induction t generalizing u with
  | nil =>
    cases u with
    | nil => rfl
    | cons f u =>
      have hf := (tabWf_cons d f u).1 hu
      exact absurd ((h f.1).symm.trans rfl) (by rw [tabGet_head]; exact hf.1)
  | cons e t ih =>
    have he := (tabWf_cons d e t).1 ht
    cases u with
    | nil => exact absurd (h e.1) (by rw [tabGet_head]; exact he.1)
    | cons f u =>
      have hf := (tabWf_cons d f u).1 hu
      have hk : e.1 = f.1 := by
        rcases Nat.lt_trichotomy e.1 f.1 with hl | hl | hl
        · have := h e.1
          rw [tabGet_head, tabGet_of_lt d (f :: u) e.1 (by
            intro x hx
            rcases List.mem_cons.1 hx with rfl | hx
            · exact hl
            · exact Nat.lt_trans hl (hf.2.1 x hx))] at this
          exact absurd this he.1
        · exact hl
        · have := (h f.1).symm
          rw [tabGet_head, tabGet_of_lt d (e :: t) f.1 (by
            intro x hx
            rcases List.mem_cons.1 hx with rfl | hx
            · exact hl
            · exact Nat.lt_trans hl (he.2.1 x hx))] at this
          exact absurd this hf.1
      have hv : e = f := by
        have := h e.1
        rw [tabGet_head, hk, tabGet_head] at this
        exact Prod.ext hk this
      subst hv
      congr 1
      refine ih u he.2.2 hf.2.2 fun a => ?_
      by_cases ha : e.1 = a
      · rw [← ha, tabGet_of_lt d t _ he.2.1, tabGet_of_lt d u _ hf.2.1]
      · have := h a
        rwa [tabGet, if_neg ha, tabGet, if_neg ha] at this

end Set

end Sys2Proof.Machine
end

