-- ==== Sys2Proof/Laws/State.lean ====
section
/-! SUPPORT. What each named update of the state leaves alone: one lemma per field and per accessor, true by rfl; and
what an instance reads after it was written. -/

namespace Sys2Proof.Machine

variable (s : State)

/-! ### setReg -/

@[simp] theorem State.setReg_pending (a : Nat) (v : Word) : (s.setReg a v).pending = s.pending := rfl
@[simp] theorem State.setReg_now (a : Nat) (v : Word) : (s.setReg a v).now = s.now := rfl
@[simp] theorem State.setReg_freeCount (a : Nat) (v : Word) : (s.setReg a v).freeCount = s.freeCount := rfl
@[simp] theorem State.setReg_hostRc (a : Nat) (v : Word) : (s.setReg a v).hostRc = s.hostRc := rfl
@[simp] theorem State.setReg_spx1Rc (a : Nat) (v : Word) : (s.setReg a v).spx1Rc = s.spx1Rc := rfl
@[simp] theorem State.setReg_holdH (a : Nat) (v : Word) : (s.setReg a v).holdH = s.holdH := rfl
@[simp] theorem State.setReg_holdS (a : Nat) (v : Word) : (s.setReg a v).holdS = s.holdS := rfl
@[simp] theorem State.setReg_posted (a : Nat) (v : Word) : (s.setReg a v).posted = s.posted := rfl
@[simp] theorem State.setReg_handed (a : Nat) (v : Word) : (s.setReg a v).handed = s.handed := rfl
@[simp] theorem State.setReg_cycle (a : Nat) (v : Word) : (s.setReg a v).cycle = s.cycle := rfl
@[simp] theorem State.setReg_win (a : Nat) (v : Word) : (s.setReg a v).win = s.win := rfl
@[simp] theorem State.setReg_hbm (a : Nat) (v : Word) : (s.setReg a v).hbm = s.hbm := rfl
@[simp] theorem State.setReg_msgs (a : Nat) (v : Word) : (s.setReg a v).msgs = s.msgs := rfl
@[simp] theorem State.setReg_hostMem (a : Nat) (v : Word) : (s.setReg a v).hostMem = s.hostMem := rfl
@[simp] theorem State.setReg_reads (a : Nat) (v : Word) : (s.setReg a v).reads = s.reads := rfl
@[simp] theorem State.setReg_ep (a : Nat) (v : Word) : (s.setReg a v).ep = s.ep := rfl
@[simp] theorem State.setReg_linkUp (a : Nat) (v : Word) : (s.setReg a v).linkUp = s.linkUp := rfl
@[simp] theorem State.setReg_pcie (a : Nat) (v : Word) : (s.setReg a v).pcie = s.pcie := rfl
@[simp] theorem State.setReg_evcs (a : Nat) (v : Word) : (s.setReg a v).evcs = s.evcs := rfl
@[simp] theorem State.setReg_txns (a : Nat) (v : Word) : (s.setReg a v).txns = s.txns := rfl
@[simp] theorem State.setReg_reported (a : Nat) (v : Word) : (s.setReg a v).reported = s.reported := rfl
@[simp] theorem State.setReg_srcs (a : Nat) (v : Word) : (s.setReg a v).srcs = s.srcs := rfl
@[simp] theorem State.setReg_ents (a : Nat) (v : Word) : (s.setReg a v).ents = s.ents := rfl
@[simp] theorem State.setReg_feHost (a : Nat) (v : Word) : (s.setReg a v).feHost = s.feHost := rfl
@[simp] theorem State.setReg_feSpx1 (a : Nat) (v : Word) : (s.setReg a v).feSpx1 = s.feSpx1 := rfl
@[simp] theorem State.setReg_qs (a : Nat) (v : Word) : (s.setReg a v).qs = s.qs := rfl
@[simp] theorem State.setReg_qm (a : Nat) (v : Word) : (s.setReg a v).qm = s.qm := rfl
@[simp] theorem State.setReg_qr (a : Nat) (v : Word) : (s.setReg a v).qr = s.qr := rfl
@[simp] theorem State.setReg_chans (a : Nat) (v : Word) : (s.setReg a v).chans = s.chans := rfl
@[simp] theorem State.setReg_pmus (a : Nat) (v : Word) : (s.setReg a v).pmus = s.pmus := rfl
@[simp] theorem State.setReg_adcs (a : Nat) (v : Word) : (s.setReg a v).adcs = s.adcs := rfl
@[simp] theorem State.setReg_adcAt (a : Nat) (v : Word) : (s.setReg a v).adcAt = s.adcAt := rfl
@[simp] theorem State.setReg_sgs (a : Nat) (v : Word) : (s.setReg a v).sgs = s.sgs := rfl
@[simp] theorem State.setReg_led (a : Nat) (v : Word) : (s.setReg a v).led = s.led := rfl
@[simp] theorem State.setReg_rings (a : Nat) (v : Word) : (s.setReg a v).rings = s.rings := rfl
@[simp] theorem State.setReg_pumpNext (a : Nat) (v : Word) : (s.setReg a v).pumpNext = s.pumpNext := rfl
@[simp] theorem State.setReg_pumpAt (a : Nat) (v : Word) : (s.setReg a v).pumpAt = s.pumpAt := rfl
@[simp] theorem State.setReg_pumpUsed (a : Nat) (v : Word) : (s.setReg a v).pumpUsed = s.pumpUsed := rfl
@[simp] theorem State.setReg_tdcs (a : Nat) (v : Word) : (s.setReg a v).tdcs = s.tdcs := rfl
@[simp] theorem State.setReg_dlls (a : Nat) (v : Word) : (s.setReg a v).dlls = s.dlls := rfl
@[simp] theorem State.setReg_lace (a : Nat) (v : Word) : (s.setReg a v).lace = s.lace := rfl
@[simp] theorem State.setReg_ports (a : Nat) (v : Word) : (s.setReg a v).ports = s.ports := rfl
@[simp] theorem State.setReg_spx1 (a : Nat) (v : Word) : (s.setReg a v).spx1 = s.spx1 := rfl
@[simp] theorem State.setReg_calch (a : Nat) (v : Word) : (s.setReg a v).calch = s.calch := rfl
@[simp] theorem State.setReg_cal (a : Nat) (v : Word) : (s.setReg a v).cal = s.cal := rfl
@[simp] theorem State.setReg_nvm (a : Nat) (v : Word) : (s.setReg a v).nvm = s.nvm := rfl
@[simp] theorem State.setReg_clk (a : Nat) (v : Word) : (s.setReg a v).clk = s.clk := rfl
@[simp] theorem State.setReg_pwr (a : Nat) (v : Word) : (s.setReg a v).pwr = s.pwr := rfl
@[simp] theorem State.setReg_thm (a : Nat) (v : Word) : (s.setReg a v).thm = s.thm := rfl
@[simp] theorem State.setReg_boot (a : Nat) (v : Word) : (s.setReg a v).boot = s.boot := rfl
@[simp] theorem State.setReg_straps (a : Nat) (v : Word) : (s.setReg a v).straps = s.straps := rfl
@[simp] theorem State.setReg_installed (a : Nat) (v : Word) : (s.setReg a v).installed = s.installed := rfl
@[simp] theorem State.setReg_tap (a : Nat) (v : Word) : (s.setReg a v).tap = s.tap := rfl
@[simp] theorem State.setReg_hostBudget (a : Nat) (v : Word) : (s.setReg a v).hostBudget = s.hostBudget := rfl
@[simp] theorem State.setReg_heldHost (a : Nat) (v : Word) : (s.setReg a v).heldHost = s.heldHost := rfl
@[simp] theorem State.setReg_scrubA (a : Nat) (v : Word) : (s.setReg a v).scrubA = s.scrubA := rfl
@[simp] theorem State.setReg_scrubB (a : Nat) (v : Word) : (s.setReg a v).scrubB = s.scrubB := rfl
@[simp] theorem State.setReg_scrubAtA (a : Nat) (v : Word) : (s.setReg a v).scrubAtA = s.scrubAtA := rfl
@[simp] theorem State.setReg_scrubAtB (a : Nat) (v : Word) : (s.setReg a v).scrubAtB = s.scrubAtB := rfl
@[simp] theorem State.setReg_errAddrHeld (a : Nat) (v : Word) : (s.setReg a v).errAddrHeld = s.errAddrHeld := rfl
@[simp] theorem State.setReg_acc_rcHost (a : Nat) (v : Word) (k : Nat) : (s.setReg a v).rcHost k = s.rcHost k := rfl
@[simp] theorem State.setReg_acc_rcSpx1 (a : Nat) (v : Word) (k : Nat) : (s.setReg a v).rcSpx1 k = s.rcSpx1 k := rfl
@[simp] theorem State.setReg_acc_rcBit (a : Nat) (v : Word) (k : Fld) : (s.setReg a v).rcBit k = s.rcBit k := rfl
@[simp] theorem State.setReg_acc_winGet (a : Nat) (v : Word) (k : Nat) : (s.setReg a v).winGet k = s.winGet k := rfl
@[simp] theorem State.setReg_acc_hbmByte (a : Nat) (v : Word) (k : Nat) : (s.setReg a v).hbmByte k = s.hbmByte k := rfl
@[simp] theorem State.setReg_acc_q (a : Nat) (v : Word) (k : Nat) : (s.setReg a v).q k = s.q k := rfl
@[simp] theorem State.setReg_acc_m (a : Nat) (v : Word) (k : Nat) : (s.setReg a v).m k = s.m k := rfl
@[simp] theorem State.setReg_acc_r (a : Nat) (v : Word) (k : Nat) : (s.setReg a v).r k = s.r k := rfl
@[simp] theorem State.setReg_acc_chan (a : Nat) (v : Word) (k : Nat) : (s.setReg a v).chan k = s.chan k := rfl
@[simp] theorem State.setReg_acc_pmu (a : Nat) (v : Word) (k : Nat) : (s.setReg a v).pmu k = s.pmu k := rfl
@[simp] theorem State.setReg_acc_sg (a : Nat) (v : Word) (k : Nat) : (s.setReg a v).sg k = s.sg k := rfl
@[simp] theorem State.setReg_acc_ring (a : Nat) (v : Word) (k : Nat) : (s.setReg a v).ring k = s.ring k := rfl
@[simp] theorem State.setReg_acc_tdc (a : Nat) (v : Word) (k : Nat) : (s.setReg a v).tdc k = s.tdc k := rfl
@[simp] theorem State.setReg_acc_dll (a : Nat) (v : Word) (k : Nat) : (s.setReg a v).dll k = s.dll k := rfl
@[simp] theorem State.setReg_acc_port (a : Nat) (v : Word) (k : Nat) : (s.setReg a v).port k = s.port k := rfl
@[simp] theorem State.setReg_acc_calCh (a : Nat) (v : Word) (k : Nat) : (s.setReg a v).calCh k = s.calCh k := rfl
@[simp] theorem State.setReg_acc_txn (a : Nat) (v : Word) (k : Nat) : (s.setReg a v).txn k = s.txn k := rfl
@[simp] theorem State.setReg_acc_evc (a : Nat) (v : Word) (k : Nat) : (s.setReg a v).evc k = s.evc k := rfl
@[simp] theorem State.setReg_acc_ent (a : Nat) (v : Word) (k : Nat) : (s.setReg a v).ent k = s.ent k := rfl
@[simp] theorem State.setReg_acc_srcCnt (a : Nat) (v : Word) (k : Nat) : (s.setReg a v).srcCnt k = s.srcCnt k := rfl

/-! ### setFld -/

@[simp] theorem State.setFld_pending (f : Fld) (n : Nat) : (s.setFld f n).pending = s.pending := rfl
@[simp] theorem State.setFld_now (f : Fld) (n : Nat) : (s.setFld f n).now = s.now := rfl
@[simp] theorem State.setFld_freeCount (f : Fld) (n : Nat) : (s.setFld f n).freeCount = s.freeCount := rfl
@[simp] theorem State.setFld_hostRc (f : Fld) (n : Nat) : (s.setFld f n).hostRc = s.hostRc := rfl
@[simp] theorem State.setFld_spx1Rc (f : Fld) (n : Nat) : (s.setFld f n).spx1Rc = s.spx1Rc := rfl
@[simp] theorem State.setFld_holdH (f : Fld) (n : Nat) : (s.setFld f n).holdH = s.holdH := rfl
@[simp] theorem State.setFld_holdS (f : Fld) (n : Nat) : (s.setFld f n).holdS = s.holdS := rfl
@[simp] theorem State.setFld_posted (f : Fld) (n : Nat) : (s.setFld f n).posted = s.posted := rfl
@[simp] theorem State.setFld_handed (f : Fld) (n : Nat) : (s.setFld f n).handed = s.handed := rfl
@[simp] theorem State.setFld_cycle (f : Fld) (n : Nat) : (s.setFld f n).cycle = s.cycle := rfl
@[simp] theorem State.setFld_win (f : Fld) (n : Nat) : (s.setFld f n).win = s.win := rfl
@[simp] theorem State.setFld_hbm (f : Fld) (n : Nat) : (s.setFld f n).hbm = s.hbm := rfl
@[simp] theorem State.setFld_msgs (f : Fld) (n : Nat) : (s.setFld f n).msgs = s.msgs := rfl
@[simp] theorem State.setFld_hostMem (f : Fld) (n : Nat) : (s.setFld f n).hostMem = s.hostMem := rfl
@[simp] theorem State.setFld_reads (f : Fld) (n : Nat) : (s.setFld f n).reads = s.reads := rfl
@[simp] theorem State.setFld_ep (f : Fld) (n : Nat) : (s.setFld f n).ep = s.ep := rfl
@[simp] theorem State.setFld_linkUp (f : Fld) (n : Nat) : (s.setFld f n).linkUp = s.linkUp := rfl
@[simp] theorem State.setFld_pcie (f : Fld) (n : Nat) : (s.setFld f n).pcie = s.pcie := rfl
@[simp] theorem State.setFld_evcs (f : Fld) (n : Nat) : (s.setFld f n).evcs = s.evcs := rfl
@[simp] theorem State.setFld_txns (f : Fld) (n : Nat) : (s.setFld f n).txns = s.txns := rfl
@[simp] theorem State.setFld_reported (f : Fld) (n : Nat) : (s.setFld f n).reported = s.reported := rfl
@[simp] theorem State.setFld_srcs (f : Fld) (n : Nat) : (s.setFld f n).srcs = s.srcs := rfl
@[simp] theorem State.setFld_ents (f : Fld) (n : Nat) : (s.setFld f n).ents = s.ents := rfl
@[simp] theorem State.setFld_feHost (f : Fld) (n : Nat) : (s.setFld f n).feHost = s.feHost := rfl
@[simp] theorem State.setFld_feSpx1 (f : Fld) (n : Nat) : (s.setFld f n).feSpx1 = s.feSpx1 := rfl
@[simp] theorem State.setFld_qs (f : Fld) (n : Nat) : (s.setFld f n).qs = s.qs := rfl
@[simp] theorem State.setFld_qm (f : Fld) (n : Nat) : (s.setFld f n).qm = s.qm := rfl
@[simp] theorem State.setFld_qr (f : Fld) (n : Nat) : (s.setFld f n).qr = s.qr := rfl
@[simp] theorem State.setFld_chans (f : Fld) (n : Nat) : (s.setFld f n).chans = s.chans := rfl
@[simp] theorem State.setFld_pmus (f : Fld) (n : Nat) : (s.setFld f n).pmus = s.pmus := rfl
@[simp] theorem State.setFld_adcs (f : Fld) (n : Nat) : (s.setFld f n).adcs = s.adcs := rfl
@[simp] theorem State.setFld_adcAt (f : Fld) (n : Nat) : (s.setFld f n).adcAt = s.adcAt := rfl
@[simp] theorem State.setFld_sgs (f : Fld) (n : Nat) : (s.setFld f n).sgs = s.sgs := rfl
@[simp] theorem State.setFld_led (f : Fld) (n : Nat) : (s.setFld f n).led = s.led := rfl
@[simp] theorem State.setFld_rings (f : Fld) (n : Nat) : (s.setFld f n).rings = s.rings := rfl
@[simp] theorem State.setFld_pumpNext (f : Fld) (n : Nat) : (s.setFld f n).pumpNext = s.pumpNext := rfl
@[simp] theorem State.setFld_pumpAt (f : Fld) (n : Nat) : (s.setFld f n).pumpAt = s.pumpAt := rfl
@[simp] theorem State.setFld_pumpUsed (f : Fld) (n : Nat) : (s.setFld f n).pumpUsed = s.pumpUsed := rfl
@[simp] theorem State.setFld_tdcs (f : Fld) (n : Nat) : (s.setFld f n).tdcs = s.tdcs := rfl
@[simp] theorem State.setFld_dlls (f : Fld) (n : Nat) : (s.setFld f n).dlls = s.dlls := rfl
@[simp] theorem State.setFld_lace (f : Fld) (n : Nat) : (s.setFld f n).lace = s.lace := rfl
@[simp] theorem State.setFld_ports (f : Fld) (n : Nat) : (s.setFld f n).ports = s.ports := rfl
@[simp] theorem State.setFld_spx1 (f : Fld) (n : Nat) : (s.setFld f n).spx1 = s.spx1 := rfl
@[simp] theorem State.setFld_calch (f : Fld) (n : Nat) : (s.setFld f n).calch = s.calch := rfl
@[simp] theorem State.setFld_cal (f : Fld) (n : Nat) : (s.setFld f n).cal = s.cal := rfl
@[simp] theorem State.setFld_nvm (f : Fld) (n : Nat) : (s.setFld f n).nvm = s.nvm := rfl
@[simp] theorem State.setFld_clk (f : Fld) (n : Nat) : (s.setFld f n).clk = s.clk := rfl
@[simp] theorem State.setFld_pwr (f : Fld) (n : Nat) : (s.setFld f n).pwr = s.pwr := rfl
@[simp] theorem State.setFld_thm (f : Fld) (n : Nat) : (s.setFld f n).thm = s.thm := rfl
@[simp] theorem State.setFld_boot (f : Fld) (n : Nat) : (s.setFld f n).boot = s.boot := rfl
@[simp] theorem State.setFld_straps (f : Fld) (n : Nat) : (s.setFld f n).straps = s.straps := rfl
@[simp] theorem State.setFld_installed (f : Fld) (n : Nat) : (s.setFld f n).installed = s.installed := rfl
@[simp] theorem State.setFld_tap (f : Fld) (n : Nat) : (s.setFld f n).tap = s.tap := rfl
@[simp] theorem State.setFld_hostBudget (f : Fld) (n : Nat) : (s.setFld f n).hostBudget = s.hostBudget := rfl
@[simp] theorem State.setFld_heldHost (f : Fld) (n : Nat) : (s.setFld f n).heldHost = s.heldHost := rfl
@[simp] theorem State.setFld_scrubA (f : Fld) (n : Nat) : (s.setFld f n).scrubA = s.scrubA := rfl
@[simp] theorem State.setFld_scrubB (f : Fld) (n : Nat) : (s.setFld f n).scrubB = s.scrubB := rfl
@[simp] theorem State.setFld_scrubAtA (f : Fld) (n : Nat) : (s.setFld f n).scrubAtA = s.scrubAtA := rfl
@[simp] theorem State.setFld_scrubAtB (f : Fld) (n : Nat) : (s.setFld f n).scrubAtB = s.scrubAtB := rfl
@[simp] theorem State.setFld_errAddrHeld (f : Fld) (n : Nat) : (s.setFld f n).errAddrHeld = s.errAddrHeld := rfl
@[simp] theorem State.setFld_acc_rcHost (f : Fld) (n : Nat) (k : Nat) : (s.setFld f n).rcHost k = s.rcHost k := rfl
@[simp] theorem State.setFld_acc_rcSpx1 (f : Fld) (n : Nat) (k : Nat) : (s.setFld f n).rcSpx1 k = s.rcSpx1 k := rfl
@[simp] theorem State.setFld_acc_rcBit (f : Fld) (n : Nat) (k : Fld) : (s.setFld f n).rcBit k = s.rcBit k := rfl
@[simp] theorem State.setFld_acc_winGet (f : Fld) (n : Nat) (k : Nat) : (s.setFld f n).winGet k = s.winGet k := rfl
@[simp] theorem State.setFld_acc_hbmByte (f : Fld) (n : Nat) (k : Nat) : (s.setFld f n).hbmByte k = s.hbmByte k := rfl
@[simp] theorem State.setFld_acc_q (f : Fld) (n : Nat) (k : Nat) : (s.setFld f n).q k = s.q k := rfl
@[simp] theorem State.setFld_acc_m (f : Fld) (n : Nat) (k : Nat) : (s.setFld f n).m k = s.m k := rfl
@[simp] theorem State.setFld_acc_r (f : Fld) (n : Nat) (k : Nat) : (s.setFld f n).r k = s.r k := rfl
@[simp] theorem State.setFld_acc_chan (f : Fld) (n : Nat) (k : Nat) : (s.setFld f n).chan k = s.chan k := rfl
@[simp] theorem State.setFld_acc_pmu (f : Fld) (n : Nat) (k : Nat) : (s.setFld f n).pmu k = s.pmu k := rfl
@[simp] theorem State.setFld_acc_sg (f : Fld) (n : Nat) (k : Nat) : (s.setFld f n).sg k = s.sg k := rfl
@[simp] theorem State.setFld_acc_ring (f : Fld) (n : Nat) (k : Nat) : (s.setFld f n).ring k = s.ring k := rfl
@[simp] theorem State.setFld_acc_tdc (f : Fld) (n : Nat) (k : Nat) : (s.setFld f n).tdc k = s.tdc k := rfl
@[simp] theorem State.setFld_acc_dll (f : Fld) (n : Nat) (k : Nat) : (s.setFld f n).dll k = s.dll k := rfl
@[simp] theorem State.setFld_acc_port (f : Fld) (n : Nat) (k : Nat) : (s.setFld f n).port k = s.port k := rfl
@[simp] theorem State.setFld_acc_calCh (f : Fld) (n : Nat) (k : Nat) : (s.setFld f n).calCh k = s.calCh k := rfl
@[simp] theorem State.setFld_acc_txn (f : Fld) (n : Nat) (k : Nat) : (s.setFld f n).txn k = s.txn k := rfl
@[simp] theorem State.setFld_acc_evc (f : Fld) (n : Nat) (k : Nat) : (s.setFld f n).evc k = s.evc k := rfl
@[simp] theorem State.setFld_acc_ent (f : Fld) (n : Nat) (k : Nat) : (s.setFld f n).ent k = s.ent k := rfl
@[simp] theorem State.setFld_acc_srcCnt (f : Fld) (n : Nat) (k : Nat) : (s.setFld f n).srcCnt k = s.srcCnt k := rfl

/-! ### setBit -/

@[simp] theorem State.setBit_pending (f : Fld) (b : Bool) : (s.setBit f b).pending = s.pending := rfl
@[simp] theorem State.setBit_now (f : Fld) (b : Bool) : (s.setBit f b).now = s.now := rfl
@[simp] theorem State.setBit_freeCount (f : Fld) (b : Bool) : (s.setBit f b).freeCount = s.freeCount := rfl
@[simp] theorem State.setBit_hostRc (f : Fld) (b : Bool) : (s.setBit f b).hostRc = s.hostRc := rfl
@[simp] theorem State.setBit_spx1Rc (f : Fld) (b : Bool) : (s.setBit f b).spx1Rc = s.spx1Rc := rfl
@[simp] theorem State.setBit_holdH (f : Fld) (b : Bool) : (s.setBit f b).holdH = s.holdH := rfl
@[simp] theorem State.setBit_holdS (f : Fld) (b : Bool) : (s.setBit f b).holdS = s.holdS := rfl
@[simp] theorem State.setBit_posted (f : Fld) (b : Bool) : (s.setBit f b).posted = s.posted := rfl
@[simp] theorem State.setBit_handed (f : Fld) (b : Bool) : (s.setBit f b).handed = s.handed := rfl
@[simp] theorem State.setBit_cycle (f : Fld) (b : Bool) : (s.setBit f b).cycle = s.cycle := rfl
@[simp] theorem State.setBit_win (f : Fld) (b : Bool) : (s.setBit f b).win = s.win := rfl
@[simp] theorem State.setBit_hbm (f : Fld) (b : Bool) : (s.setBit f b).hbm = s.hbm := rfl
@[simp] theorem State.setBit_msgs (f : Fld) (b : Bool) : (s.setBit f b).msgs = s.msgs := rfl
@[simp] theorem State.setBit_hostMem (f : Fld) (b : Bool) : (s.setBit f b).hostMem = s.hostMem := rfl
@[simp] theorem State.setBit_reads (f : Fld) (b : Bool) : (s.setBit f b).reads = s.reads := rfl
@[simp] theorem State.setBit_ep (f : Fld) (b : Bool) : (s.setBit f b).ep = s.ep := rfl
@[simp] theorem State.setBit_linkUp (f : Fld) (b : Bool) : (s.setBit f b).linkUp = s.linkUp := rfl
@[simp] theorem State.setBit_pcie (f : Fld) (b : Bool) : (s.setBit f b).pcie = s.pcie := rfl
@[simp] theorem State.setBit_evcs (f : Fld) (b : Bool) : (s.setBit f b).evcs = s.evcs := rfl
@[simp] theorem State.setBit_txns (f : Fld) (b : Bool) : (s.setBit f b).txns = s.txns := rfl
@[simp] theorem State.setBit_reported (f : Fld) (b : Bool) : (s.setBit f b).reported = s.reported := rfl
@[simp] theorem State.setBit_srcs (f : Fld) (b : Bool) : (s.setBit f b).srcs = s.srcs := rfl
@[simp] theorem State.setBit_ents (f : Fld) (b : Bool) : (s.setBit f b).ents = s.ents := rfl
@[simp] theorem State.setBit_feHost (f : Fld) (b : Bool) : (s.setBit f b).feHost = s.feHost := rfl
@[simp] theorem State.setBit_feSpx1 (f : Fld) (b : Bool) : (s.setBit f b).feSpx1 = s.feSpx1 := rfl
@[simp] theorem State.setBit_qs (f : Fld) (b : Bool) : (s.setBit f b).qs = s.qs := rfl
@[simp] theorem State.setBit_qm (f : Fld) (b : Bool) : (s.setBit f b).qm = s.qm := rfl
@[simp] theorem State.setBit_qr (f : Fld) (b : Bool) : (s.setBit f b).qr = s.qr := rfl
@[simp] theorem State.setBit_chans (f : Fld) (b : Bool) : (s.setBit f b).chans = s.chans := rfl
@[simp] theorem State.setBit_pmus (f : Fld) (b : Bool) : (s.setBit f b).pmus = s.pmus := rfl
@[simp] theorem State.setBit_adcs (f : Fld) (b : Bool) : (s.setBit f b).adcs = s.adcs := rfl
@[simp] theorem State.setBit_adcAt (f : Fld) (b : Bool) : (s.setBit f b).adcAt = s.adcAt := rfl
@[simp] theorem State.setBit_sgs (f : Fld) (b : Bool) : (s.setBit f b).sgs = s.sgs := rfl
@[simp] theorem State.setBit_led (f : Fld) (b : Bool) : (s.setBit f b).led = s.led := rfl
@[simp] theorem State.setBit_rings (f : Fld) (b : Bool) : (s.setBit f b).rings = s.rings := rfl
@[simp] theorem State.setBit_pumpNext (f : Fld) (b : Bool) : (s.setBit f b).pumpNext = s.pumpNext := rfl
@[simp] theorem State.setBit_pumpAt (f : Fld) (b : Bool) : (s.setBit f b).pumpAt = s.pumpAt := rfl
@[simp] theorem State.setBit_pumpUsed (f : Fld) (b : Bool) : (s.setBit f b).pumpUsed = s.pumpUsed := rfl
@[simp] theorem State.setBit_tdcs (f : Fld) (b : Bool) : (s.setBit f b).tdcs = s.tdcs := rfl
@[simp] theorem State.setBit_dlls (f : Fld) (b : Bool) : (s.setBit f b).dlls = s.dlls := rfl
@[simp] theorem State.setBit_lace (f : Fld) (b : Bool) : (s.setBit f b).lace = s.lace := rfl
@[simp] theorem State.setBit_ports (f : Fld) (b : Bool) : (s.setBit f b).ports = s.ports := rfl
@[simp] theorem State.setBit_spx1 (f : Fld) (b : Bool) : (s.setBit f b).spx1 = s.spx1 := rfl
@[simp] theorem State.setBit_calch (f : Fld) (b : Bool) : (s.setBit f b).calch = s.calch := rfl
@[simp] theorem State.setBit_cal (f : Fld) (b : Bool) : (s.setBit f b).cal = s.cal := rfl
@[simp] theorem State.setBit_nvm (f : Fld) (b : Bool) : (s.setBit f b).nvm = s.nvm := rfl
@[simp] theorem State.setBit_clk (f : Fld) (b : Bool) : (s.setBit f b).clk = s.clk := rfl
@[simp] theorem State.setBit_pwr (f : Fld) (b : Bool) : (s.setBit f b).pwr = s.pwr := rfl
@[simp] theorem State.setBit_thm (f : Fld) (b : Bool) : (s.setBit f b).thm = s.thm := rfl
@[simp] theorem State.setBit_boot (f : Fld) (b : Bool) : (s.setBit f b).boot = s.boot := rfl
@[simp] theorem State.setBit_straps (f : Fld) (b : Bool) : (s.setBit f b).straps = s.straps := rfl
@[simp] theorem State.setBit_installed (f : Fld) (b : Bool) : (s.setBit f b).installed = s.installed := rfl
@[simp] theorem State.setBit_tap (f : Fld) (b : Bool) : (s.setBit f b).tap = s.tap := rfl
@[simp] theorem State.setBit_hostBudget (f : Fld) (b : Bool) : (s.setBit f b).hostBudget = s.hostBudget := rfl
@[simp] theorem State.setBit_heldHost (f : Fld) (b : Bool) : (s.setBit f b).heldHost = s.heldHost := rfl
@[simp] theorem State.setBit_scrubA (f : Fld) (b : Bool) : (s.setBit f b).scrubA = s.scrubA := rfl
@[simp] theorem State.setBit_scrubB (f : Fld) (b : Bool) : (s.setBit f b).scrubB = s.scrubB := rfl
@[simp] theorem State.setBit_scrubAtA (f : Fld) (b : Bool) : (s.setBit f b).scrubAtA = s.scrubAtA := rfl
@[simp] theorem State.setBit_scrubAtB (f : Fld) (b : Bool) : (s.setBit f b).scrubAtB = s.scrubAtB := rfl
@[simp] theorem State.setBit_errAddrHeld (f : Fld) (b : Bool) : (s.setBit f b).errAddrHeld = s.errAddrHeld := rfl
@[simp] theorem State.setBit_acc_rcHost (f : Fld) (b : Bool) (k : Nat) : (s.setBit f b).rcHost k = s.rcHost k := rfl
@[simp] theorem State.setBit_acc_rcSpx1 (f : Fld) (b : Bool) (k : Nat) : (s.setBit f b).rcSpx1 k = s.rcSpx1 k := rfl
@[simp] theorem State.setBit_acc_rcBit (f : Fld) (b : Bool) (k : Fld) : (s.setBit f b).rcBit k = s.rcBit k := rfl
@[simp] theorem State.setBit_acc_winGet (f : Fld) (b : Bool) (k : Nat) : (s.setBit f b).winGet k = s.winGet k := rfl
@[simp] theorem State.setBit_acc_hbmByte (f : Fld) (b : Bool) (k : Nat) : (s.setBit f b).hbmByte k = s.hbmByte k := rfl
@[simp] theorem State.setBit_acc_q (f : Fld) (b : Bool) (k : Nat) : (s.setBit f b).q k = s.q k := rfl
@[simp] theorem State.setBit_acc_m (f : Fld) (b : Bool) (k : Nat) : (s.setBit f b).m k = s.m k := rfl
@[simp] theorem State.setBit_acc_r (f : Fld) (b : Bool) (k : Nat) : (s.setBit f b).r k = s.r k := rfl
@[simp] theorem State.setBit_acc_chan (f : Fld) (b : Bool) (k : Nat) : (s.setBit f b).chan k = s.chan k := rfl
@[simp] theorem State.setBit_acc_pmu (f : Fld) (b : Bool) (k : Nat) : (s.setBit f b).pmu k = s.pmu k := rfl
@[simp] theorem State.setBit_acc_sg (f : Fld) (b : Bool) (k : Nat) : (s.setBit f b).sg k = s.sg k := rfl
@[simp] theorem State.setBit_acc_ring (f : Fld) (b : Bool) (k : Nat) : (s.setBit f b).ring k = s.ring k := rfl
@[simp] theorem State.setBit_acc_tdc (f : Fld) (b : Bool) (k : Nat) : (s.setBit f b).tdc k = s.tdc k := rfl
@[simp] theorem State.setBit_acc_dll (f : Fld) (b : Bool) (k : Nat) : (s.setBit f b).dll k = s.dll k := rfl
@[simp] theorem State.setBit_acc_port (f : Fld) (b : Bool) (k : Nat) : (s.setBit f b).port k = s.port k := rfl
@[simp] theorem State.setBit_acc_calCh (f : Fld) (b : Bool) (k : Nat) : (s.setBit f b).calCh k = s.calCh k := rfl
@[simp] theorem State.setBit_acc_txn (f : Fld) (b : Bool) (k : Nat) : (s.setBit f b).txn k = s.txn k := rfl
@[simp] theorem State.setBit_acc_evc (f : Fld) (b : Bool) (k : Nat) : (s.setBit f b).evc k = s.evc k := rfl
@[simp] theorem State.setBit_acc_ent (f : Fld) (b : Bool) (k : Nat) : (s.setBit f b).ent k = s.ent k := rfl
@[simp] theorem State.setBit_acc_srcCnt (f : Fld) (b : Bool) (k : Nat) : (s.setBit f b).srcCnt k = s.srcCnt k := rfl

/-! ### addSat -/

@[simp] theorem State.addSat_pending (f : Fld) (n : Nat) : (s.addSat f n).pending = s.pending := rfl
@[simp] theorem State.addSat_now (f : Fld) (n : Nat) : (s.addSat f n).now = s.now := rfl
@[simp] theorem State.addSat_freeCount (f : Fld) (n : Nat) : (s.addSat f n).freeCount = s.freeCount := rfl
@[simp] theorem State.addSat_hostRc (f : Fld) (n : Nat) : (s.addSat f n).hostRc = s.hostRc := rfl
@[simp] theorem State.addSat_spx1Rc (f : Fld) (n : Nat) : (s.addSat f n).spx1Rc = s.spx1Rc := rfl
@[simp] theorem State.addSat_holdH (f : Fld) (n : Nat) : (s.addSat f n).holdH = s.holdH := rfl
@[simp] theorem State.addSat_holdS (f : Fld) (n : Nat) : (s.addSat f n).holdS = s.holdS := rfl
@[simp] theorem State.addSat_posted (f : Fld) (n : Nat) : (s.addSat f n).posted = s.posted := rfl
@[simp] theorem State.addSat_handed (f : Fld) (n : Nat) : (s.addSat f n).handed = s.handed := rfl
@[simp] theorem State.addSat_cycle (f : Fld) (n : Nat) : (s.addSat f n).cycle = s.cycle := rfl
@[simp] theorem State.addSat_win (f : Fld) (n : Nat) : (s.addSat f n).win = s.win := rfl
@[simp] theorem State.addSat_hbm (f : Fld) (n : Nat) : (s.addSat f n).hbm = s.hbm := rfl
@[simp] theorem State.addSat_msgs (f : Fld) (n : Nat) : (s.addSat f n).msgs = s.msgs := rfl
@[simp] theorem State.addSat_hostMem (f : Fld) (n : Nat) : (s.addSat f n).hostMem = s.hostMem := rfl
@[simp] theorem State.addSat_reads (f : Fld) (n : Nat) : (s.addSat f n).reads = s.reads := rfl
@[simp] theorem State.addSat_ep (f : Fld) (n : Nat) : (s.addSat f n).ep = s.ep := rfl
@[simp] theorem State.addSat_linkUp (f : Fld) (n : Nat) : (s.addSat f n).linkUp = s.linkUp := rfl
@[simp] theorem State.addSat_pcie (f : Fld) (n : Nat) : (s.addSat f n).pcie = s.pcie := rfl
@[simp] theorem State.addSat_evcs (f : Fld) (n : Nat) : (s.addSat f n).evcs = s.evcs := rfl
@[simp] theorem State.addSat_txns (f : Fld) (n : Nat) : (s.addSat f n).txns = s.txns := rfl
@[simp] theorem State.addSat_reported (f : Fld) (n : Nat) : (s.addSat f n).reported = s.reported := rfl
@[simp] theorem State.addSat_srcs (f : Fld) (n : Nat) : (s.addSat f n).srcs = s.srcs := rfl
@[simp] theorem State.addSat_ents (f : Fld) (n : Nat) : (s.addSat f n).ents = s.ents := rfl
@[simp] theorem State.addSat_feHost (f : Fld) (n : Nat) : (s.addSat f n).feHost = s.feHost := rfl
@[simp] theorem State.addSat_feSpx1 (f : Fld) (n : Nat) : (s.addSat f n).feSpx1 = s.feSpx1 := rfl
@[simp] theorem State.addSat_qs (f : Fld) (n : Nat) : (s.addSat f n).qs = s.qs := rfl
@[simp] theorem State.addSat_qm (f : Fld) (n : Nat) : (s.addSat f n).qm = s.qm := rfl
@[simp] theorem State.addSat_qr (f : Fld) (n : Nat) : (s.addSat f n).qr = s.qr := rfl
@[simp] theorem State.addSat_chans (f : Fld) (n : Nat) : (s.addSat f n).chans = s.chans := rfl
@[simp] theorem State.addSat_pmus (f : Fld) (n : Nat) : (s.addSat f n).pmus = s.pmus := rfl
@[simp] theorem State.addSat_adcs (f : Fld) (n : Nat) : (s.addSat f n).adcs = s.adcs := rfl
@[simp] theorem State.addSat_adcAt (f : Fld) (n : Nat) : (s.addSat f n).adcAt = s.adcAt := rfl
@[simp] theorem State.addSat_sgs (f : Fld) (n : Nat) : (s.addSat f n).sgs = s.sgs := rfl
@[simp] theorem State.addSat_led (f : Fld) (n : Nat) : (s.addSat f n).led = s.led := rfl
@[simp] theorem State.addSat_rings (f : Fld) (n : Nat) : (s.addSat f n).rings = s.rings := rfl
@[simp] theorem State.addSat_pumpNext (f : Fld) (n : Nat) : (s.addSat f n).pumpNext = s.pumpNext := rfl
@[simp] theorem State.addSat_pumpAt (f : Fld) (n : Nat) : (s.addSat f n).pumpAt = s.pumpAt := rfl
@[simp] theorem State.addSat_pumpUsed (f : Fld) (n : Nat) : (s.addSat f n).pumpUsed = s.pumpUsed := rfl
@[simp] theorem State.addSat_tdcs (f : Fld) (n : Nat) : (s.addSat f n).tdcs = s.tdcs := rfl
@[simp] theorem State.addSat_dlls (f : Fld) (n : Nat) : (s.addSat f n).dlls = s.dlls := rfl
@[simp] theorem State.addSat_lace (f : Fld) (n : Nat) : (s.addSat f n).lace = s.lace := rfl
@[simp] theorem State.addSat_ports (f : Fld) (n : Nat) : (s.addSat f n).ports = s.ports := rfl
@[simp] theorem State.addSat_spx1 (f : Fld) (n : Nat) : (s.addSat f n).spx1 = s.spx1 := rfl
@[simp] theorem State.addSat_calch (f : Fld) (n : Nat) : (s.addSat f n).calch = s.calch := rfl
@[simp] theorem State.addSat_cal (f : Fld) (n : Nat) : (s.addSat f n).cal = s.cal := rfl
@[simp] theorem State.addSat_nvm (f : Fld) (n : Nat) : (s.addSat f n).nvm = s.nvm := rfl
@[simp] theorem State.addSat_clk (f : Fld) (n : Nat) : (s.addSat f n).clk = s.clk := rfl
@[simp] theorem State.addSat_pwr (f : Fld) (n : Nat) : (s.addSat f n).pwr = s.pwr := rfl
@[simp] theorem State.addSat_thm (f : Fld) (n : Nat) : (s.addSat f n).thm = s.thm := rfl
@[simp] theorem State.addSat_boot (f : Fld) (n : Nat) : (s.addSat f n).boot = s.boot := rfl
@[simp] theorem State.addSat_straps (f : Fld) (n : Nat) : (s.addSat f n).straps = s.straps := rfl
@[simp] theorem State.addSat_installed (f : Fld) (n : Nat) : (s.addSat f n).installed = s.installed := rfl
@[simp] theorem State.addSat_tap (f : Fld) (n : Nat) : (s.addSat f n).tap = s.tap := rfl
@[simp] theorem State.addSat_hostBudget (f : Fld) (n : Nat) : (s.addSat f n).hostBudget = s.hostBudget := rfl
@[simp] theorem State.addSat_heldHost (f : Fld) (n : Nat) : (s.addSat f n).heldHost = s.heldHost := rfl
@[simp] theorem State.addSat_scrubA (f : Fld) (n : Nat) : (s.addSat f n).scrubA = s.scrubA := rfl
@[simp] theorem State.addSat_scrubB (f : Fld) (n : Nat) : (s.addSat f n).scrubB = s.scrubB := rfl
@[simp] theorem State.addSat_scrubAtA (f : Fld) (n : Nat) : (s.addSat f n).scrubAtA = s.scrubAtA := rfl
@[simp] theorem State.addSat_scrubAtB (f : Fld) (n : Nat) : (s.addSat f n).scrubAtB = s.scrubAtB := rfl
@[simp] theorem State.addSat_errAddrHeld (f : Fld) (n : Nat) : (s.addSat f n).errAddrHeld = s.errAddrHeld := rfl
@[simp] theorem State.addSat_acc_rcHost (f : Fld) (n : Nat) (k : Nat) : (s.addSat f n).rcHost k = s.rcHost k := rfl
@[simp] theorem State.addSat_acc_rcSpx1 (f : Fld) (n : Nat) (k : Nat) : (s.addSat f n).rcSpx1 k = s.rcSpx1 k := rfl
@[simp] theorem State.addSat_acc_rcBit (f : Fld) (n : Nat) (k : Fld) : (s.addSat f n).rcBit k = s.rcBit k := rfl
@[simp] theorem State.addSat_acc_winGet (f : Fld) (n : Nat) (k : Nat) : (s.addSat f n).winGet k = s.winGet k := rfl
@[simp] theorem State.addSat_acc_hbmByte (f : Fld) (n : Nat) (k : Nat) : (s.addSat f n).hbmByte k = s.hbmByte k := rfl
@[simp] theorem State.addSat_acc_q (f : Fld) (n : Nat) (k : Nat) : (s.addSat f n).q k = s.q k := rfl
@[simp] theorem State.addSat_acc_m (f : Fld) (n : Nat) (k : Nat) : (s.addSat f n).m k = s.m k := rfl
@[simp] theorem State.addSat_acc_r (f : Fld) (n : Nat) (k : Nat) : (s.addSat f n).r k = s.r k := rfl
@[simp] theorem State.addSat_acc_chan (f : Fld) (n : Nat) (k : Nat) : (s.addSat f n).chan k = s.chan k := rfl
@[simp] theorem State.addSat_acc_pmu (f : Fld) (n : Nat) (k : Nat) : (s.addSat f n).pmu k = s.pmu k := rfl
@[simp] theorem State.addSat_acc_sg (f : Fld) (n : Nat) (k : Nat) : (s.addSat f n).sg k = s.sg k := rfl
@[simp] theorem State.addSat_acc_ring (f : Fld) (n : Nat) (k : Nat) : (s.addSat f n).ring k = s.ring k := rfl
@[simp] theorem State.addSat_acc_tdc (f : Fld) (n : Nat) (k : Nat) : (s.addSat f n).tdc k = s.tdc k := rfl
@[simp] theorem State.addSat_acc_dll (f : Fld) (n : Nat) (k : Nat) : (s.addSat f n).dll k = s.dll k := rfl
@[simp] theorem State.addSat_acc_port (f : Fld) (n : Nat) (k : Nat) : (s.addSat f n).port k = s.port k := rfl
@[simp] theorem State.addSat_acc_calCh (f : Fld) (n : Nat) (k : Nat) : (s.addSat f n).calCh k = s.calCh k := rfl
@[simp] theorem State.addSat_acc_txn (f : Fld) (n : Nat) (k : Nat) : (s.addSat f n).txn k = s.txn k := rfl
@[simp] theorem State.addSat_acc_evc (f : Fld) (n : Nat) (k : Nat) : (s.addSat f n).evc k = s.evc k := rfl
@[simp] theorem State.addSat_acc_ent (f : Fld) (n : Nat) (k : Nat) : (s.addSat f n).ent k = s.ent k := rfl
@[simp] theorem State.addSat_acc_srcCnt (f : Fld) (n : Nat) (k : Nat) : (s.addSat f n).srcCnt k = s.srcCnt k := rfl

/-! ### setRc -/

@[simp] theorem State.setRc_pending (a : Nat) (v : Word) : (s.setRc a v).pending = s.pending := rfl
@[simp] theorem State.setRc_now (a : Nat) (v : Word) : (s.setRc a v).now = s.now := rfl
@[simp] theorem State.setRc_freeCount (a : Nat) (v : Word) : (s.setRc a v).freeCount = s.freeCount := rfl
@[simp] theorem State.setRc_regs (a : Nat) (v : Word) : (s.setRc a v).regs = s.regs := rfl
@[simp] theorem State.setRc_copyB (a : Nat) (v : Word) : (s.setRc a v).copyB = s.copyB := rfl
@[simp] theorem State.setRc_copyC (a : Nat) (v : Word) : (s.setRc a v).copyC = s.copyC := rfl
@[simp] theorem State.setRc_holdH (a : Nat) (v : Word) : (s.setRc a v).holdH = s.holdH := rfl
@[simp] theorem State.setRc_holdS (a : Nat) (v : Word) : (s.setRc a v).holdS = s.holdS := rfl
@[simp] theorem State.setRc_posted (a : Nat) (v : Word) : (s.setRc a v).posted = s.posted := rfl
@[simp] theorem State.setRc_handed (a : Nat) (v : Word) : (s.setRc a v).handed = s.handed := rfl
@[simp] theorem State.setRc_cycle (a : Nat) (v : Word) : (s.setRc a v).cycle = s.cycle := rfl
@[simp] theorem State.setRc_win (a : Nat) (v : Word) : (s.setRc a v).win = s.win := rfl
@[simp] theorem State.setRc_hbm (a : Nat) (v : Word) : (s.setRc a v).hbm = s.hbm := rfl
@[simp] theorem State.setRc_msgs (a : Nat) (v : Word) : (s.setRc a v).msgs = s.msgs := rfl
@[simp] theorem State.setRc_hostMem (a : Nat) (v : Word) : (s.setRc a v).hostMem = s.hostMem := rfl
@[simp] theorem State.setRc_reads (a : Nat) (v : Word) : (s.setRc a v).reads = s.reads := rfl
@[simp] theorem State.setRc_ep (a : Nat) (v : Word) : (s.setRc a v).ep = s.ep := rfl
@[simp] theorem State.setRc_linkUp (a : Nat) (v : Word) : (s.setRc a v).linkUp = s.linkUp := rfl
@[simp] theorem State.setRc_pcie (a : Nat) (v : Word) : (s.setRc a v).pcie = s.pcie := rfl
@[simp] theorem State.setRc_evcs (a : Nat) (v : Word) : (s.setRc a v).evcs = s.evcs := rfl
@[simp] theorem State.setRc_txns (a : Nat) (v : Word) : (s.setRc a v).txns = s.txns := rfl
@[simp] theorem State.setRc_reported (a : Nat) (v : Word) : (s.setRc a v).reported = s.reported := rfl
@[simp] theorem State.setRc_srcs (a : Nat) (v : Word) : (s.setRc a v).srcs = s.srcs := rfl
@[simp] theorem State.setRc_ents (a : Nat) (v : Word) : (s.setRc a v).ents = s.ents := rfl
@[simp] theorem State.setRc_feHost (a : Nat) (v : Word) : (s.setRc a v).feHost = s.feHost := rfl
@[simp] theorem State.setRc_feSpx1 (a : Nat) (v : Word) : (s.setRc a v).feSpx1 = s.feSpx1 := rfl
@[simp] theorem State.setRc_qs (a : Nat) (v : Word) : (s.setRc a v).qs = s.qs := rfl
@[simp] theorem State.setRc_qm (a : Nat) (v : Word) : (s.setRc a v).qm = s.qm := rfl
@[simp] theorem State.setRc_qr (a : Nat) (v : Word) : (s.setRc a v).qr = s.qr := rfl
@[simp] theorem State.setRc_chans (a : Nat) (v : Word) : (s.setRc a v).chans = s.chans := rfl
@[simp] theorem State.setRc_pmus (a : Nat) (v : Word) : (s.setRc a v).pmus = s.pmus := rfl
@[simp] theorem State.setRc_adcs (a : Nat) (v : Word) : (s.setRc a v).adcs = s.adcs := rfl
@[simp] theorem State.setRc_adcAt (a : Nat) (v : Word) : (s.setRc a v).adcAt = s.adcAt := rfl
@[simp] theorem State.setRc_sgs (a : Nat) (v : Word) : (s.setRc a v).sgs = s.sgs := rfl
@[simp] theorem State.setRc_led (a : Nat) (v : Word) : (s.setRc a v).led = s.led := rfl
@[simp] theorem State.setRc_rings (a : Nat) (v : Word) : (s.setRc a v).rings = s.rings := rfl
@[simp] theorem State.setRc_pumpNext (a : Nat) (v : Word) : (s.setRc a v).pumpNext = s.pumpNext := rfl
@[simp] theorem State.setRc_pumpAt (a : Nat) (v : Word) : (s.setRc a v).pumpAt = s.pumpAt := rfl
@[simp] theorem State.setRc_pumpUsed (a : Nat) (v : Word) : (s.setRc a v).pumpUsed = s.pumpUsed := rfl
@[simp] theorem State.setRc_tdcs (a : Nat) (v : Word) : (s.setRc a v).tdcs = s.tdcs := rfl
@[simp] theorem State.setRc_dlls (a : Nat) (v : Word) : (s.setRc a v).dlls = s.dlls := rfl
@[simp] theorem State.setRc_lace (a : Nat) (v : Word) : (s.setRc a v).lace = s.lace := rfl
@[simp] theorem State.setRc_ports (a : Nat) (v : Word) : (s.setRc a v).ports = s.ports := rfl
@[simp] theorem State.setRc_spx1 (a : Nat) (v : Word) : (s.setRc a v).spx1 = s.spx1 := rfl
@[simp] theorem State.setRc_calch (a : Nat) (v : Word) : (s.setRc a v).calch = s.calch := rfl
@[simp] theorem State.setRc_cal (a : Nat) (v : Word) : (s.setRc a v).cal = s.cal := rfl
@[simp] theorem State.setRc_nvm (a : Nat) (v : Word) : (s.setRc a v).nvm = s.nvm := rfl
@[simp] theorem State.setRc_clk (a : Nat) (v : Word) : (s.setRc a v).clk = s.clk := rfl
@[simp] theorem State.setRc_pwr (a : Nat) (v : Word) : (s.setRc a v).pwr = s.pwr := rfl
@[simp] theorem State.setRc_thm (a : Nat) (v : Word) : (s.setRc a v).thm = s.thm := rfl
@[simp] theorem State.setRc_boot (a : Nat) (v : Word) : (s.setRc a v).boot = s.boot := rfl
@[simp] theorem State.setRc_straps (a : Nat) (v : Word) : (s.setRc a v).straps = s.straps := rfl
@[simp] theorem State.setRc_installed (a : Nat) (v : Word) : (s.setRc a v).installed = s.installed := rfl
@[simp] theorem State.setRc_tap (a : Nat) (v : Word) : (s.setRc a v).tap = s.tap := rfl
@[simp] theorem State.setRc_hostBudget (a : Nat) (v : Word) : (s.setRc a v).hostBudget = s.hostBudget := rfl
@[simp] theorem State.setRc_heldHost (a : Nat) (v : Word) : (s.setRc a v).heldHost = s.heldHost := rfl
@[simp] theorem State.setRc_scrubA (a : Nat) (v : Word) : (s.setRc a v).scrubA = s.scrubA := rfl
@[simp] theorem State.setRc_scrubB (a : Nat) (v : Word) : (s.setRc a v).scrubB = s.scrubB := rfl
@[simp] theorem State.setRc_scrubAtA (a : Nat) (v : Word) : (s.setRc a v).scrubAtA = s.scrubAtA := rfl
@[simp] theorem State.setRc_scrubAtB (a : Nat) (v : Word) : (s.setRc a v).scrubAtB = s.scrubAtB := rfl
@[simp] theorem State.setRc_errAddrHeld (a : Nat) (v : Word) : (s.setRc a v).errAddrHeld = s.errAddrHeld := rfl
@[simp] theorem State.setRc_acc_reg (a : Nat) (v : Word) (k : Nat) : (s.setRc a v).reg k = s.reg k := rfl
@[simp] theorem State.setRc_acc_fld (a : Nat) (v : Word) (k : Fld) : (s.setRc a v).fld k = s.fld k := rfl
@[simp] theorem State.setRc_acc_bit (a : Nat) (v : Word) (k : Fld) : (s.setRc a v).bit k = s.bit k := rfl
@[simp] theorem State.setRc_acc_winGet (a : Nat) (v : Word) (k : Nat) : (s.setRc a v).winGet k = s.winGet k := rfl
@[simp] theorem State.setRc_acc_hbmByte (a : Nat) (v : Word) (k : Nat) : (s.setRc a v).hbmByte k = s.hbmByte k := rfl
@[simp] theorem State.setRc_acc_q (a : Nat) (v : Word) (k : Nat) : (s.setRc a v).q k = s.q k := rfl
@[simp] theorem State.setRc_acc_m (a : Nat) (v : Word) (k : Nat) : (s.setRc a v).m k = s.m k := rfl
@[simp] theorem State.setRc_acc_r (a : Nat) (v : Word) (k : Nat) : (s.setRc a v).r k = s.r k := rfl
@[simp] theorem State.setRc_acc_chan (a : Nat) (v : Word) (k : Nat) : (s.setRc a v).chan k = s.chan k := rfl
@[simp] theorem State.setRc_acc_pmu (a : Nat) (v : Word) (k : Nat) : (s.setRc a v).pmu k = s.pmu k := rfl
@[simp] theorem State.setRc_acc_sg (a : Nat) (v : Word) (k : Nat) : (s.setRc a v).sg k = s.sg k := rfl
@[simp] theorem State.setRc_acc_ring (a : Nat) (v : Word) (k : Nat) : (s.setRc a v).ring k = s.ring k := rfl
@[simp] theorem State.setRc_acc_tdc (a : Nat) (v : Word) (k : Nat) : (s.setRc a v).tdc k = s.tdc k := rfl
@[simp] theorem State.setRc_acc_dll (a : Nat) (v : Word) (k : Nat) : (s.setRc a v).dll k = s.dll k := rfl
@[simp] theorem State.setRc_acc_port (a : Nat) (v : Word) (k : Nat) : (s.setRc a v).port k = s.port k := rfl
@[simp] theorem State.setRc_acc_calCh (a : Nat) (v : Word) (k : Nat) : (s.setRc a v).calCh k = s.calCh k := rfl
@[simp] theorem State.setRc_acc_txn (a : Nat) (v : Word) (k : Nat) : (s.setRc a v).txn k = s.txn k := rfl
@[simp] theorem State.setRc_acc_evc (a : Nat) (v : Word) (k : Nat) : (s.setRc a v).evc k = s.evc k := rfl
@[simp] theorem State.setRc_acc_ent (a : Nat) (v : Word) (k : Nat) : (s.setRc a v).ent k = s.ent k := rfl
@[simp] theorem State.setRc_acc_srcCnt (a : Nat) (v : Word) (k : Nat) : (s.setRc a v).srcCnt k = s.srcCnt k := rfl

/-! ### clrRcHost -/

@[simp] theorem State.clrRcHost_pending (a : Nat) : (s.clrRcHost a).pending = s.pending := rfl
@[simp] theorem State.clrRcHost_now (a : Nat) : (s.clrRcHost a).now = s.now := rfl
@[simp] theorem State.clrRcHost_freeCount (a : Nat) : (s.clrRcHost a).freeCount = s.freeCount := rfl
@[simp] theorem State.clrRcHost_regs (a : Nat) : (s.clrRcHost a).regs = s.regs := rfl
@[simp] theorem State.clrRcHost_copyB (a : Nat) : (s.clrRcHost a).copyB = s.copyB := rfl
@[simp] theorem State.clrRcHost_copyC (a : Nat) : (s.clrRcHost a).copyC = s.copyC := rfl
@[simp] theorem State.clrRcHost_spx1Rc (a : Nat) : (s.clrRcHost a).spx1Rc = s.spx1Rc := rfl
@[simp] theorem State.clrRcHost_holdH (a : Nat) : (s.clrRcHost a).holdH = s.holdH := rfl
@[simp] theorem State.clrRcHost_holdS (a : Nat) : (s.clrRcHost a).holdS = s.holdS := rfl
@[simp] theorem State.clrRcHost_posted (a : Nat) : (s.clrRcHost a).posted = s.posted := rfl
@[simp] theorem State.clrRcHost_handed (a : Nat) : (s.clrRcHost a).handed = s.handed := rfl
@[simp] theorem State.clrRcHost_cycle (a : Nat) : (s.clrRcHost a).cycle = s.cycle := rfl
@[simp] theorem State.clrRcHost_win (a : Nat) : (s.clrRcHost a).win = s.win := rfl
@[simp] theorem State.clrRcHost_hbm (a : Nat) : (s.clrRcHost a).hbm = s.hbm := rfl
@[simp] theorem State.clrRcHost_msgs (a : Nat) : (s.clrRcHost a).msgs = s.msgs := rfl
@[simp] theorem State.clrRcHost_hostMem (a : Nat) : (s.clrRcHost a).hostMem = s.hostMem := rfl
@[simp] theorem State.clrRcHost_reads (a : Nat) : (s.clrRcHost a).reads = s.reads := rfl
@[simp] theorem State.clrRcHost_ep (a : Nat) : (s.clrRcHost a).ep = s.ep := rfl
@[simp] theorem State.clrRcHost_linkUp (a : Nat) : (s.clrRcHost a).linkUp = s.linkUp := rfl
@[simp] theorem State.clrRcHost_pcie (a : Nat) : (s.clrRcHost a).pcie = s.pcie := rfl
@[simp] theorem State.clrRcHost_evcs (a : Nat) : (s.clrRcHost a).evcs = s.evcs := rfl
@[simp] theorem State.clrRcHost_txns (a : Nat) : (s.clrRcHost a).txns = s.txns := rfl
@[simp] theorem State.clrRcHost_reported (a : Nat) : (s.clrRcHost a).reported = s.reported := rfl
@[simp] theorem State.clrRcHost_srcs (a : Nat) : (s.clrRcHost a).srcs = s.srcs := rfl
@[simp] theorem State.clrRcHost_ents (a : Nat) : (s.clrRcHost a).ents = s.ents := rfl
@[simp] theorem State.clrRcHost_feHost (a : Nat) : (s.clrRcHost a).feHost = s.feHost := rfl
@[simp] theorem State.clrRcHost_feSpx1 (a : Nat) : (s.clrRcHost a).feSpx1 = s.feSpx1 := rfl
@[simp] theorem State.clrRcHost_qs (a : Nat) : (s.clrRcHost a).qs = s.qs := rfl
@[simp] theorem State.clrRcHost_qm (a : Nat) : (s.clrRcHost a).qm = s.qm := rfl
@[simp] theorem State.clrRcHost_qr (a : Nat) : (s.clrRcHost a).qr = s.qr := rfl
@[simp] theorem State.clrRcHost_chans (a : Nat) : (s.clrRcHost a).chans = s.chans := rfl
@[simp] theorem State.clrRcHost_pmus (a : Nat) : (s.clrRcHost a).pmus = s.pmus := rfl
@[simp] theorem State.clrRcHost_adcs (a : Nat) : (s.clrRcHost a).adcs = s.adcs := rfl
@[simp] theorem State.clrRcHost_adcAt (a : Nat) : (s.clrRcHost a).adcAt = s.adcAt := rfl
@[simp] theorem State.clrRcHost_sgs (a : Nat) : (s.clrRcHost a).sgs = s.sgs := rfl
@[simp] theorem State.clrRcHost_led (a : Nat) : (s.clrRcHost a).led = s.led := rfl
@[simp] theorem State.clrRcHost_rings (a : Nat) : (s.clrRcHost a).rings = s.rings := rfl
@[simp] theorem State.clrRcHost_pumpNext (a : Nat) : (s.clrRcHost a).pumpNext = s.pumpNext := rfl
@[simp] theorem State.clrRcHost_pumpAt (a : Nat) : (s.clrRcHost a).pumpAt = s.pumpAt := rfl
@[simp] theorem State.clrRcHost_pumpUsed (a : Nat) : (s.clrRcHost a).pumpUsed = s.pumpUsed := rfl
@[simp] theorem State.clrRcHost_tdcs (a : Nat) : (s.clrRcHost a).tdcs = s.tdcs := rfl
@[simp] theorem State.clrRcHost_dlls (a : Nat) : (s.clrRcHost a).dlls = s.dlls := rfl
@[simp] theorem State.clrRcHost_lace (a : Nat) : (s.clrRcHost a).lace = s.lace := rfl
@[simp] theorem State.clrRcHost_ports (a : Nat) : (s.clrRcHost a).ports = s.ports := rfl
@[simp] theorem State.clrRcHost_spx1 (a : Nat) : (s.clrRcHost a).spx1 = s.spx1 := rfl
@[simp] theorem State.clrRcHost_calch (a : Nat) : (s.clrRcHost a).calch = s.calch := rfl
@[simp] theorem State.clrRcHost_cal (a : Nat) : (s.clrRcHost a).cal = s.cal := rfl
@[simp] theorem State.clrRcHost_nvm (a : Nat) : (s.clrRcHost a).nvm = s.nvm := rfl
@[simp] theorem State.clrRcHost_clk (a : Nat) : (s.clrRcHost a).clk = s.clk := rfl
@[simp] theorem State.clrRcHost_pwr (a : Nat) : (s.clrRcHost a).pwr = s.pwr := rfl
@[simp] theorem State.clrRcHost_thm (a : Nat) : (s.clrRcHost a).thm = s.thm := rfl
@[simp] theorem State.clrRcHost_boot (a : Nat) : (s.clrRcHost a).boot = s.boot := rfl
@[simp] theorem State.clrRcHost_straps (a : Nat) : (s.clrRcHost a).straps = s.straps := rfl
@[simp] theorem State.clrRcHost_installed (a : Nat) : (s.clrRcHost a).installed = s.installed := rfl
@[simp] theorem State.clrRcHost_tap (a : Nat) : (s.clrRcHost a).tap = s.tap := rfl
@[simp] theorem State.clrRcHost_hostBudget (a : Nat) : (s.clrRcHost a).hostBudget = s.hostBudget := rfl
@[simp] theorem State.clrRcHost_heldHost (a : Nat) : (s.clrRcHost a).heldHost = s.heldHost := rfl
@[simp] theorem State.clrRcHost_scrubA (a : Nat) : (s.clrRcHost a).scrubA = s.scrubA := rfl
@[simp] theorem State.clrRcHost_scrubB (a : Nat) : (s.clrRcHost a).scrubB = s.scrubB := rfl
@[simp] theorem State.clrRcHost_scrubAtA (a : Nat) : (s.clrRcHost a).scrubAtA = s.scrubAtA := rfl
@[simp] theorem State.clrRcHost_scrubAtB (a : Nat) : (s.clrRcHost a).scrubAtB = s.scrubAtB := rfl
@[simp] theorem State.clrRcHost_errAddrHeld (a : Nat) : (s.clrRcHost a).errAddrHeld = s.errAddrHeld := rfl
@[simp] theorem State.clrRcHost_acc_reg (a : Nat) (k : Nat) : (s.clrRcHost a).reg k = s.reg k := rfl
@[simp] theorem State.clrRcHost_acc_fld (a : Nat) (k : Fld) : (s.clrRcHost a).fld k = s.fld k := rfl
@[simp] theorem State.clrRcHost_acc_bit (a : Nat) (k : Fld) : (s.clrRcHost a).bit k = s.bit k := rfl
@[simp] theorem State.clrRcHost_acc_rcSpx1 (a : Nat) (k : Nat) : (s.clrRcHost a).rcSpx1 k = s.rcSpx1 k := rfl
@[simp] theorem State.clrRcHost_acc_winGet (a : Nat) (k : Nat) : (s.clrRcHost a).winGet k = s.winGet k := rfl
@[simp] theorem State.clrRcHost_acc_hbmByte (a : Nat) (k : Nat) : (s.clrRcHost a).hbmByte k = s.hbmByte k := rfl
@[simp] theorem State.clrRcHost_acc_q (a : Nat) (k : Nat) : (s.clrRcHost a).q k = s.q k := rfl
@[simp] theorem State.clrRcHost_acc_m (a : Nat) (k : Nat) : (s.clrRcHost a).m k = s.m k := rfl
@[simp] theorem State.clrRcHost_acc_r (a : Nat) (k : Nat) : (s.clrRcHost a).r k = s.r k := rfl
@[simp] theorem State.clrRcHost_acc_chan (a : Nat) (k : Nat) : (s.clrRcHost a).chan k = s.chan k := rfl
@[simp] theorem State.clrRcHost_acc_pmu (a : Nat) (k : Nat) : (s.clrRcHost a).pmu k = s.pmu k := rfl
@[simp] theorem State.clrRcHost_acc_sg (a : Nat) (k : Nat) : (s.clrRcHost a).sg k = s.sg k := rfl
@[simp] theorem State.clrRcHost_acc_ring (a : Nat) (k : Nat) : (s.clrRcHost a).ring k = s.ring k := rfl
@[simp] theorem State.clrRcHost_acc_tdc (a : Nat) (k : Nat) : (s.clrRcHost a).tdc k = s.tdc k := rfl
@[simp] theorem State.clrRcHost_acc_dll (a : Nat) (k : Nat) : (s.clrRcHost a).dll k = s.dll k := rfl
@[simp] theorem State.clrRcHost_acc_port (a : Nat) (k : Nat) : (s.clrRcHost a).port k = s.port k := rfl
@[simp] theorem State.clrRcHost_acc_calCh (a : Nat) (k : Nat) : (s.clrRcHost a).calCh k = s.calCh k := rfl
@[simp] theorem State.clrRcHost_acc_txn (a : Nat) (k : Nat) : (s.clrRcHost a).txn k = s.txn k := rfl
@[simp] theorem State.clrRcHost_acc_evc (a : Nat) (k : Nat) : (s.clrRcHost a).evc k = s.evc k := rfl
@[simp] theorem State.clrRcHost_acc_ent (a : Nat) (k : Nat) : (s.clrRcHost a).ent k = s.ent k := rfl
@[simp] theorem State.clrRcHost_acc_srcCnt (a : Nat) (k : Nat) : (s.clrRcHost a).srcCnt k = s.srcCnt k := rfl

/-! ### clrRcSpx1 -/

@[simp] theorem State.clrRcSpx1_pending (a : Nat) : (s.clrRcSpx1 a).pending = s.pending := rfl
@[simp] theorem State.clrRcSpx1_now (a : Nat) : (s.clrRcSpx1 a).now = s.now := rfl
@[simp] theorem State.clrRcSpx1_freeCount (a : Nat) : (s.clrRcSpx1 a).freeCount = s.freeCount := rfl
@[simp] theorem State.clrRcSpx1_regs (a : Nat) : (s.clrRcSpx1 a).regs = s.regs := rfl
@[simp] theorem State.clrRcSpx1_copyB (a : Nat) : (s.clrRcSpx1 a).copyB = s.copyB := rfl
@[simp] theorem State.clrRcSpx1_copyC (a : Nat) : (s.clrRcSpx1 a).copyC = s.copyC := rfl
@[simp] theorem State.clrRcSpx1_hostRc (a : Nat) : (s.clrRcSpx1 a).hostRc = s.hostRc := rfl
@[simp] theorem State.clrRcSpx1_holdH (a : Nat) : (s.clrRcSpx1 a).holdH = s.holdH := rfl
@[simp] theorem State.clrRcSpx1_holdS (a : Nat) : (s.clrRcSpx1 a).holdS = s.holdS := rfl
@[simp] theorem State.clrRcSpx1_posted (a : Nat) : (s.clrRcSpx1 a).posted = s.posted := rfl
@[simp] theorem State.clrRcSpx1_handed (a : Nat) : (s.clrRcSpx1 a).handed = s.handed := rfl
@[simp] theorem State.clrRcSpx1_cycle (a : Nat) : (s.clrRcSpx1 a).cycle = s.cycle := rfl
@[simp] theorem State.clrRcSpx1_win (a : Nat) : (s.clrRcSpx1 a).win = s.win := rfl
@[simp] theorem State.clrRcSpx1_hbm (a : Nat) : (s.clrRcSpx1 a).hbm = s.hbm := rfl
@[simp] theorem State.clrRcSpx1_msgs (a : Nat) : (s.clrRcSpx1 a).msgs = s.msgs := rfl
@[simp] theorem State.clrRcSpx1_hostMem (a : Nat) : (s.clrRcSpx1 a).hostMem = s.hostMem := rfl
@[simp] theorem State.clrRcSpx1_reads (a : Nat) : (s.clrRcSpx1 a).reads = s.reads := rfl
@[simp] theorem State.clrRcSpx1_ep (a : Nat) : (s.clrRcSpx1 a).ep = s.ep := rfl
@[simp] theorem State.clrRcSpx1_linkUp (a : Nat) : (s.clrRcSpx1 a).linkUp = s.linkUp := rfl
@[simp] theorem State.clrRcSpx1_pcie (a : Nat) : (s.clrRcSpx1 a).pcie = s.pcie := rfl
@[simp] theorem State.clrRcSpx1_evcs (a : Nat) : (s.clrRcSpx1 a).evcs = s.evcs := rfl
@[simp] theorem State.clrRcSpx1_txns (a : Nat) : (s.clrRcSpx1 a).txns = s.txns := rfl
@[simp] theorem State.clrRcSpx1_reported (a : Nat) : (s.clrRcSpx1 a).reported = s.reported := rfl
@[simp] theorem State.clrRcSpx1_srcs (a : Nat) : (s.clrRcSpx1 a).srcs = s.srcs := rfl
@[simp] theorem State.clrRcSpx1_ents (a : Nat) : (s.clrRcSpx1 a).ents = s.ents := rfl
@[simp] theorem State.clrRcSpx1_feHost (a : Nat) : (s.clrRcSpx1 a).feHost = s.feHost := rfl
@[simp] theorem State.clrRcSpx1_feSpx1 (a : Nat) : (s.clrRcSpx1 a).feSpx1 = s.feSpx1 := rfl
@[simp] theorem State.clrRcSpx1_qs (a : Nat) : (s.clrRcSpx1 a).qs = s.qs := rfl
@[simp] theorem State.clrRcSpx1_qm (a : Nat) : (s.clrRcSpx1 a).qm = s.qm := rfl
@[simp] theorem State.clrRcSpx1_qr (a : Nat) : (s.clrRcSpx1 a).qr = s.qr := rfl
@[simp] theorem State.clrRcSpx1_chans (a : Nat) : (s.clrRcSpx1 a).chans = s.chans := rfl
@[simp] theorem State.clrRcSpx1_pmus (a : Nat) : (s.clrRcSpx1 a).pmus = s.pmus := rfl
@[simp] theorem State.clrRcSpx1_adcs (a : Nat) : (s.clrRcSpx1 a).adcs = s.adcs := rfl
@[simp] theorem State.clrRcSpx1_adcAt (a : Nat) : (s.clrRcSpx1 a).adcAt = s.adcAt := rfl
@[simp] theorem State.clrRcSpx1_sgs (a : Nat) : (s.clrRcSpx1 a).sgs = s.sgs := rfl
@[simp] theorem State.clrRcSpx1_led (a : Nat) : (s.clrRcSpx1 a).led = s.led := rfl
@[simp] theorem State.clrRcSpx1_rings (a : Nat) : (s.clrRcSpx1 a).rings = s.rings := rfl
@[simp] theorem State.clrRcSpx1_pumpNext (a : Nat) : (s.clrRcSpx1 a).pumpNext = s.pumpNext := rfl
@[simp] theorem State.clrRcSpx1_pumpAt (a : Nat) : (s.clrRcSpx1 a).pumpAt = s.pumpAt := rfl
@[simp] theorem State.clrRcSpx1_pumpUsed (a : Nat) : (s.clrRcSpx1 a).pumpUsed = s.pumpUsed := rfl
@[simp] theorem State.clrRcSpx1_tdcs (a : Nat) : (s.clrRcSpx1 a).tdcs = s.tdcs := rfl
@[simp] theorem State.clrRcSpx1_dlls (a : Nat) : (s.clrRcSpx1 a).dlls = s.dlls := rfl
@[simp] theorem State.clrRcSpx1_lace (a : Nat) : (s.clrRcSpx1 a).lace = s.lace := rfl
@[simp] theorem State.clrRcSpx1_ports (a : Nat) : (s.clrRcSpx1 a).ports = s.ports := rfl
@[simp] theorem State.clrRcSpx1_spx1 (a : Nat) : (s.clrRcSpx1 a).spx1 = s.spx1 := rfl
@[simp] theorem State.clrRcSpx1_calch (a : Nat) : (s.clrRcSpx1 a).calch = s.calch := rfl
@[simp] theorem State.clrRcSpx1_cal (a : Nat) : (s.clrRcSpx1 a).cal = s.cal := rfl
@[simp] theorem State.clrRcSpx1_nvm (a : Nat) : (s.clrRcSpx1 a).nvm = s.nvm := rfl
@[simp] theorem State.clrRcSpx1_clk (a : Nat) : (s.clrRcSpx1 a).clk = s.clk := rfl
@[simp] theorem State.clrRcSpx1_pwr (a : Nat) : (s.clrRcSpx1 a).pwr = s.pwr := rfl
@[simp] theorem State.clrRcSpx1_thm (a : Nat) : (s.clrRcSpx1 a).thm = s.thm := rfl
@[simp] theorem State.clrRcSpx1_boot (a : Nat) : (s.clrRcSpx1 a).boot = s.boot := rfl
@[simp] theorem State.clrRcSpx1_straps (a : Nat) : (s.clrRcSpx1 a).straps = s.straps := rfl
@[simp] theorem State.clrRcSpx1_installed (a : Nat) : (s.clrRcSpx1 a).installed = s.installed := rfl
@[simp] theorem State.clrRcSpx1_tap (a : Nat) : (s.clrRcSpx1 a).tap = s.tap := rfl
@[simp] theorem State.clrRcSpx1_hostBudget (a : Nat) : (s.clrRcSpx1 a).hostBudget = s.hostBudget := rfl
@[simp] theorem State.clrRcSpx1_heldHost (a : Nat) : (s.clrRcSpx1 a).heldHost = s.heldHost := rfl
@[simp] theorem State.clrRcSpx1_scrubA (a : Nat) : (s.clrRcSpx1 a).scrubA = s.scrubA := rfl
@[simp] theorem State.clrRcSpx1_scrubB (a : Nat) : (s.clrRcSpx1 a).scrubB = s.scrubB := rfl
@[simp] theorem State.clrRcSpx1_scrubAtA (a : Nat) : (s.clrRcSpx1 a).scrubAtA = s.scrubAtA := rfl
@[simp] theorem State.clrRcSpx1_scrubAtB (a : Nat) : (s.clrRcSpx1 a).scrubAtB = s.scrubAtB := rfl
@[simp] theorem State.clrRcSpx1_errAddrHeld (a : Nat) : (s.clrRcSpx1 a).errAddrHeld = s.errAddrHeld := rfl
@[simp] theorem State.clrRcSpx1_acc_reg (a : Nat) (k : Nat) : (s.clrRcSpx1 a).reg k = s.reg k := rfl
@[simp] theorem State.clrRcSpx1_acc_fld (a : Nat) (k : Fld) : (s.clrRcSpx1 a).fld k = s.fld k := rfl
@[simp] theorem State.clrRcSpx1_acc_bit (a : Nat) (k : Fld) : (s.clrRcSpx1 a).bit k = s.bit k := rfl
@[simp] theorem State.clrRcSpx1_acc_rcHost (a : Nat) (k : Nat) : (s.clrRcSpx1 a).rcHost k = s.rcHost k := rfl
@[simp] theorem State.clrRcSpx1_acc_rcBit (a : Nat) (k : Fld) : (s.clrRcSpx1 a).rcBit k = s.rcBit k := rfl
@[simp] theorem State.clrRcSpx1_acc_winGet (a : Nat) (k : Nat) : (s.clrRcSpx1 a).winGet k = s.winGet k := rfl
@[simp] theorem State.clrRcSpx1_acc_hbmByte (a : Nat) (k : Nat) : (s.clrRcSpx1 a).hbmByte k = s.hbmByte k := rfl
@[simp] theorem State.clrRcSpx1_acc_q (a : Nat) (k : Nat) : (s.clrRcSpx1 a).q k = s.q k := rfl
@[simp] theorem State.clrRcSpx1_acc_m (a : Nat) (k : Nat) : (s.clrRcSpx1 a).m k = s.m k := rfl
@[simp] theorem State.clrRcSpx1_acc_r (a : Nat) (k : Nat) : (s.clrRcSpx1 a).r k = s.r k := rfl
@[simp] theorem State.clrRcSpx1_acc_chan (a : Nat) (k : Nat) : (s.clrRcSpx1 a).chan k = s.chan k := rfl
@[simp] theorem State.clrRcSpx1_acc_pmu (a : Nat) (k : Nat) : (s.clrRcSpx1 a).pmu k = s.pmu k := rfl
@[simp] theorem State.clrRcSpx1_acc_sg (a : Nat) (k : Nat) : (s.clrRcSpx1 a).sg k = s.sg k := rfl
@[simp] theorem State.clrRcSpx1_acc_ring (a : Nat) (k : Nat) : (s.clrRcSpx1 a).ring k = s.ring k := rfl
@[simp] theorem State.clrRcSpx1_acc_tdc (a : Nat) (k : Nat) : (s.clrRcSpx1 a).tdc k = s.tdc k := rfl
@[simp] theorem State.clrRcSpx1_acc_dll (a : Nat) (k : Nat) : (s.clrRcSpx1 a).dll k = s.dll k := rfl
@[simp] theorem State.clrRcSpx1_acc_port (a : Nat) (k : Nat) : (s.clrRcSpx1 a).port k = s.port k := rfl
@[simp] theorem State.clrRcSpx1_acc_calCh (a : Nat) (k : Nat) : (s.clrRcSpx1 a).calCh k = s.calCh k := rfl
@[simp] theorem State.clrRcSpx1_acc_txn (a : Nat) (k : Nat) : (s.clrRcSpx1 a).txn k = s.txn k := rfl
@[simp] theorem State.clrRcSpx1_acc_evc (a : Nat) (k : Nat) : (s.clrRcSpx1 a).evc k = s.evc k := rfl
@[simp] theorem State.clrRcSpx1_acc_ent (a : Nat) (k : Nat) : (s.clrRcSpx1 a).ent k = s.ent k := rfl
@[simp] theorem State.clrRcSpx1_acc_srcCnt (a : Nat) (k : Nat) : (s.clrRcSpx1 a).srcCnt k = s.srcCnt k := rfl

/-! ### winSet -/

@[simp] theorem State.winSet_pending (a : Nat) (v : Dword) : (s.winSet a v).pending = s.pending := rfl
@[simp] theorem State.winSet_now (a : Nat) (v : Dword) : (s.winSet a v).now = s.now := rfl
@[simp] theorem State.winSet_freeCount (a : Nat) (v : Dword) : (s.winSet a v).freeCount = s.freeCount := rfl
@[simp] theorem State.winSet_regs (a : Nat) (v : Dword) : (s.winSet a v).regs = s.regs := rfl
@[simp] theorem State.winSet_copyB (a : Nat) (v : Dword) : (s.winSet a v).copyB = s.copyB := rfl
@[simp] theorem State.winSet_copyC (a : Nat) (v : Dword) : (s.winSet a v).copyC = s.copyC := rfl
@[simp] theorem State.winSet_hostRc (a : Nat) (v : Dword) : (s.winSet a v).hostRc = s.hostRc := rfl
@[simp] theorem State.winSet_spx1Rc (a : Nat) (v : Dword) : (s.winSet a v).spx1Rc = s.spx1Rc := rfl
@[simp] theorem State.winSet_holdH (a : Nat) (v : Dword) : (s.winSet a v).holdH = s.holdH := rfl
@[simp] theorem State.winSet_holdS (a : Nat) (v : Dword) : (s.winSet a v).holdS = s.holdS := rfl
@[simp] theorem State.winSet_posted (a : Nat) (v : Dword) : (s.winSet a v).posted = s.posted := rfl
@[simp] theorem State.winSet_handed (a : Nat) (v : Dword) : (s.winSet a v).handed = s.handed := rfl
@[simp] theorem State.winSet_cycle (a : Nat) (v : Dword) : (s.winSet a v).cycle = s.cycle := rfl
@[simp] theorem State.winSet_hbm (a : Nat) (v : Dword) : (s.winSet a v).hbm = s.hbm := rfl
@[simp] theorem State.winSet_msgs (a : Nat) (v : Dword) : (s.winSet a v).msgs = s.msgs := rfl
@[simp] theorem State.winSet_hostMem (a : Nat) (v : Dword) : (s.winSet a v).hostMem = s.hostMem := rfl
@[simp] theorem State.winSet_reads (a : Nat) (v : Dword) : (s.winSet a v).reads = s.reads := rfl
@[simp] theorem State.winSet_ep (a : Nat) (v : Dword) : (s.winSet a v).ep = s.ep := rfl
@[simp] theorem State.winSet_linkUp (a : Nat) (v : Dword) : (s.winSet a v).linkUp = s.linkUp := rfl
@[simp] theorem State.winSet_pcie (a : Nat) (v : Dword) : (s.winSet a v).pcie = s.pcie := rfl
@[simp] theorem State.winSet_evcs (a : Nat) (v : Dword) : (s.winSet a v).evcs = s.evcs := rfl
@[simp] theorem State.winSet_txns (a : Nat) (v : Dword) : (s.winSet a v).txns = s.txns := rfl
@[simp] theorem State.winSet_reported (a : Nat) (v : Dword) : (s.winSet a v).reported = s.reported := rfl
@[simp] theorem State.winSet_srcs (a : Nat) (v : Dword) : (s.winSet a v).srcs = s.srcs := rfl
@[simp] theorem State.winSet_ents (a : Nat) (v : Dword) : (s.winSet a v).ents = s.ents := rfl
@[simp] theorem State.winSet_feHost (a : Nat) (v : Dword) : (s.winSet a v).feHost = s.feHost := rfl
@[simp] theorem State.winSet_feSpx1 (a : Nat) (v : Dword) : (s.winSet a v).feSpx1 = s.feSpx1 := rfl
@[simp] theorem State.winSet_qs (a : Nat) (v : Dword) : (s.winSet a v).qs = s.qs := rfl
@[simp] theorem State.winSet_qm (a : Nat) (v : Dword) : (s.winSet a v).qm = s.qm := rfl
@[simp] theorem State.winSet_qr (a : Nat) (v : Dword) : (s.winSet a v).qr = s.qr := rfl
@[simp] theorem State.winSet_chans (a : Nat) (v : Dword) : (s.winSet a v).chans = s.chans := rfl
@[simp] theorem State.winSet_pmus (a : Nat) (v : Dword) : (s.winSet a v).pmus = s.pmus := rfl
@[simp] theorem State.winSet_adcs (a : Nat) (v : Dword) : (s.winSet a v).adcs = s.adcs := rfl
@[simp] theorem State.winSet_adcAt (a : Nat) (v : Dword) : (s.winSet a v).adcAt = s.adcAt := rfl
@[simp] theorem State.winSet_sgs (a : Nat) (v : Dword) : (s.winSet a v).sgs = s.sgs := rfl
@[simp] theorem State.winSet_led (a : Nat) (v : Dword) : (s.winSet a v).led = s.led := rfl
@[simp] theorem State.winSet_rings (a : Nat) (v : Dword) : (s.winSet a v).rings = s.rings := rfl
@[simp] theorem State.winSet_pumpNext (a : Nat) (v : Dword) : (s.winSet a v).pumpNext = s.pumpNext := rfl
@[simp] theorem State.winSet_pumpAt (a : Nat) (v : Dword) : (s.winSet a v).pumpAt = s.pumpAt := rfl
@[simp] theorem State.winSet_pumpUsed (a : Nat) (v : Dword) : (s.winSet a v).pumpUsed = s.pumpUsed := rfl
@[simp] theorem State.winSet_tdcs (a : Nat) (v : Dword) : (s.winSet a v).tdcs = s.tdcs := rfl
@[simp] theorem State.winSet_dlls (a : Nat) (v : Dword) : (s.winSet a v).dlls = s.dlls := rfl
@[simp] theorem State.winSet_lace (a : Nat) (v : Dword) : (s.winSet a v).lace = s.lace := rfl
@[simp] theorem State.winSet_ports (a : Nat) (v : Dword) : (s.winSet a v).ports = s.ports := rfl
@[simp] theorem State.winSet_spx1 (a : Nat) (v : Dword) : (s.winSet a v).spx1 = s.spx1 := rfl
@[simp] theorem State.winSet_calch (a : Nat) (v : Dword) : (s.winSet a v).calch = s.calch := rfl
@[simp] theorem State.winSet_cal (a : Nat) (v : Dword) : (s.winSet a v).cal = s.cal := rfl
@[simp] theorem State.winSet_nvm (a : Nat) (v : Dword) : (s.winSet a v).nvm = s.nvm := rfl
@[simp] theorem State.winSet_clk (a : Nat) (v : Dword) : (s.winSet a v).clk = s.clk := rfl
@[simp] theorem State.winSet_pwr (a : Nat) (v : Dword) : (s.winSet a v).pwr = s.pwr := rfl
@[simp] theorem State.winSet_thm (a : Nat) (v : Dword) : (s.winSet a v).thm = s.thm := rfl
@[simp] theorem State.winSet_boot (a : Nat) (v : Dword) : (s.winSet a v).boot = s.boot := rfl
@[simp] theorem State.winSet_straps (a : Nat) (v : Dword) : (s.winSet a v).straps = s.straps := rfl
@[simp] theorem State.winSet_installed (a : Nat) (v : Dword) : (s.winSet a v).installed = s.installed := rfl
@[simp] theorem State.winSet_tap (a : Nat) (v : Dword) : (s.winSet a v).tap = s.tap := rfl
@[simp] theorem State.winSet_hostBudget (a : Nat) (v : Dword) : (s.winSet a v).hostBudget = s.hostBudget := rfl
@[simp] theorem State.winSet_heldHost (a : Nat) (v : Dword) : (s.winSet a v).heldHost = s.heldHost := rfl
@[simp] theorem State.winSet_scrubA (a : Nat) (v : Dword) : (s.winSet a v).scrubA = s.scrubA := rfl
@[simp] theorem State.winSet_scrubB (a : Nat) (v : Dword) : (s.winSet a v).scrubB = s.scrubB := rfl
@[simp] theorem State.winSet_scrubAtA (a : Nat) (v : Dword) : (s.winSet a v).scrubAtA = s.scrubAtA := rfl
@[simp] theorem State.winSet_scrubAtB (a : Nat) (v : Dword) : (s.winSet a v).scrubAtB = s.scrubAtB := rfl
@[simp] theorem State.winSet_errAddrHeld (a : Nat) (v : Dword) : (s.winSet a v).errAddrHeld = s.errAddrHeld := rfl
@[simp] theorem State.winSet_acc_reg (a : Nat) (v : Dword) (k : Nat) : (s.winSet a v).reg k = s.reg k := rfl
@[simp] theorem State.winSet_acc_fld (a : Nat) (v : Dword) (k : Fld) : (s.winSet a v).fld k = s.fld k := rfl
@[simp] theorem State.winSet_acc_bit (a : Nat) (v : Dword) (k : Fld) : (s.winSet a v).bit k = s.bit k := rfl
@[simp] theorem State.winSet_acc_rcHost (a : Nat) (v : Dword) (k : Nat) : (s.winSet a v).rcHost k = s.rcHost k := rfl
@[simp] theorem State.winSet_acc_rcSpx1 (a : Nat) (v : Dword) (k : Nat) : (s.winSet a v).rcSpx1 k = s.rcSpx1 k := rfl
@[simp] theorem State.winSet_acc_rcBit (a : Nat) (v : Dword) (k : Fld) : (s.winSet a v).rcBit k = s.rcBit k := rfl
@[simp] theorem State.winSet_acc_hbmByte (a : Nat) (v : Dword) (k : Nat) : (s.winSet a v).hbmByte k = s.hbmByte k := rfl
@[simp] theorem State.winSet_acc_q (a : Nat) (v : Dword) (k : Nat) : (s.winSet a v).q k = s.q k := rfl
@[simp] theorem State.winSet_acc_m (a : Nat) (v : Dword) (k : Nat) : (s.winSet a v).m k = s.m k := rfl
@[simp] theorem State.winSet_acc_r (a : Nat) (v : Dword) (k : Nat) : (s.winSet a v).r k = s.r k := rfl
@[simp] theorem State.winSet_acc_chan (a : Nat) (v : Dword) (k : Nat) : (s.winSet a v).chan k = s.chan k := rfl
@[simp] theorem State.winSet_acc_pmu (a : Nat) (v : Dword) (k : Nat) : (s.winSet a v).pmu k = s.pmu k := rfl
@[simp] theorem State.winSet_acc_sg (a : Nat) (v : Dword) (k : Nat) : (s.winSet a v).sg k = s.sg k := rfl
@[simp] theorem State.winSet_acc_ring (a : Nat) (v : Dword) (k : Nat) : (s.winSet a v).ring k = s.ring k := rfl
@[simp] theorem State.winSet_acc_tdc (a : Nat) (v : Dword) (k : Nat) : (s.winSet a v).tdc k = s.tdc k := rfl
@[simp] theorem State.winSet_acc_dll (a : Nat) (v : Dword) (k : Nat) : (s.winSet a v).dll k = s.dll k := rfl
@[simp] theorem State.winSet_acc_port (a : Nat) (v : Dword) (k : Nat) : (s.winSet a v).port k = s.port k := rfl
@[simp] theorem State.winSet_acc_calCh (a : Nat) (v : Dword) (k : Nat) : (s.winSet a v).calCh k = s.calCh k := rfl
@[simp] theorem State.winSet_acc_txn (a : Nat) (v : Dword) (k : Nat) : (s.winSet a v).txn k = s.txn k := rfl
@[simp] theorem State.winSet_acc_evc (a : Nat) (v : Dword) (k : Nat) : (s.winSet a v).evc k = s.evc k := rfl
@[simp] theorem State.winSet_acc_ent (a : Nat) (v : Dword) (k : Nat) : (s.winSet a v).ent k = s.ent k := rfl
@[simp] theorem State.winSet_acc_srcCnt (a : Nat) (v : Dword) (k : Nat) : (s.winSet a v).srcCnt k = s.srcCnt k := rfl

/-! ### setHbmByte -/

@[simp] theorem State.setHbmByte_pending (a : Nat) (v : Byte) : (s.setHbmByte a v).pending = s.pending := rfl
@[simp] theorem State.setHbmByte_now (a : Nat) (v : Byte) : (s.setHbmByte a v).now = s.now := rfl
@[simp] theorem State.setHbmByte_freeCount (a : Nat) (v : Byte) : (s.setHbmByte a v).freeCount = s.freeCount := rfl
@[simp] theorem State.setHbmByte_regs (a : Nat) (v : Byte) : (s.setHbmByte a v).regs = s.regs := rfl
@[simp] theorem State.setHbmByte_copyB (a : Nat) (v : Byte) : (s.setHbmByte a v).copyB = s.copyB := rfl
@[simp] theorem State.setHbmByte_copyC (a : Nat) (v : Byte) : (s.setHbmByte a v).copyC = s.copyC := rfl
@[simp] theorem State.setHbmByte_hostRc (a : Nat) (v : Byte) : (s.setHbmByte a v).hostRc = s.hostRc := rfl
@[simp] theorem State.setHbmByte_spx1Rc (a : Nat) (v : Byte) : (s.setHbmByte a v).spx1Rc = s.spx1Rc := rfl
@[simp] theorem State.setHbmByte_holdH (a : Nat) (v : Byte) : (s.setHbmByte a v).holdH = s.holdH := rfl
@[simp] theorem State.setHbmByte_holdS (a : Nat) (v : Byte) : (s.setHbmByte a v).holdS = s.holdS := rfl
@[simp] theorem State.setHbmByte_posted (a : Nat) (v : Byte) : (s.setHbmByte a v).posted = s.posted := rfl
@[simp] theorem State.setHbmByte_handed (a : Nat) (v : Byte) : (s.setHbmByte a v).handed = s.handed := rfl
@[simp] theorem State.setHbmByte_cycle (a : Nat) (v : Byte) : (s.setHbmByte a v).cycle = s.cycle := rfl
@[simp] theorem State.setHbmByte_win (a : Nat) (v : Byte) : (s.setHbmByte a v).win = s.win := rfl
@[simp] theorem State.setHbmByte_msgs (a : Nat) (v : Byte) : (s.setHbmByte a v).msgs = s.msgs := rfl
@[simp] theorem State.setHbmByte_hostMem (a : Nat) (v : Byte) : (s.setHbmByte a v).hostMem = s.hostMem := rfl
@[simp] theorem State.setHbmByte_reads (a : Nat) (v : Byte) : (s.setHbmByte a v).reads = s.reads := rfl
@[simp] theorem State.setHbmByte_ep (a : Nat) (v : Byte) : (s.setHbmByte a v).ep = s.ep := rfl
@[simp] theorem State.setHbmByte_linkUp (a : Nat) (v : Byte) : (s.setHbmByte a v).linkUp = s.linkUp := rfl
@[simp] theorem State.setHbmByte_pcie (a : Nat) (v : Byte) : (s.setHbmByte a v).pcie = s.pcie := rfl
@[simp] theorem State.setHbmByte_evcs (a : Nat) (v : Byte) : (s.setHbmByte a v).evcs = s.evcs := rfl
@[simp] theorem State.setHbmByte_txns (a : Nat) (v : Byte) : (s.setHbmByte a v).txns = s.txns := rfl
@[simp] theorem State.setHbmByte_reported (a : Nat) (v : Byte) : (s.setHbmByte a v).reported = s.reported := rfl
@[simp] theorem State.setHbmByte_srcs (a : Nat) (v : Byte) : (s.setHbmByte a v).srcs = s.srcs := rfl
@[simp] theorem State.setHbmByte_ents (a : Nat) (v : Byte) : (s.setHbmByte a v).ents = s.ents := rfl
@[simp] theorem State.setHbmByte_feHost (a : Nat) (v : Byte) : (s.setHbmByte a v).feHost = s.feHost := rfl
@[simp] theorem State.setHbmByte_feSpx1 (a : Nat) (v : Byte) : (s.setHbmByte a v).feSpx1 = s.feSpx1 := rfl
@[simp] theorem State.setHbmByte_qs (a : Nat) (v : Byte) : (s.setHbmByte a v).qs = s.qs := rfl
@[simp] theorem State.setHbmByte_qm (a : Nat) (v : Byte) : (s.setHbmByte a v).qm = s.qm := rfl
@[simp] theorem State.setHbmByte_qr (a : Nat) (v : Byte) : (s.setHbmByte a v).qr = s.qr := rfl
@[simp] theorem State.setHbmByte_chans (a : Nat) (v : Byte) : (s.setHbmByte a v).chans = s.chans := rfl
@[simp] theorem State.setHbmByte_pmus (a : Nat) (v : Byte) : (s.setHbmByte a v).pmus = s.pmus := rfl
@[simp] theorem State.setHbmByte_adcs (a : Nat) (v : Byte) : (s.setHbmByte a v).adcs = s.adcs := rfl
@[simp] theorem State.setHbmByte_adcAt (a : Nat) (v : Byte) : (s.setHbmByte a v).adcAt = s.adcAt := rfl
@[simp] theorem State.setHbmByte_sgs (a : Nat) (v : Byte) : (s.setHbmByte a v).sgs = s.sgs := rfl
@[simp] theorem State.setHbmByte_led (a : Nat) (v : Byte) : (s.setHbmByte a v).led = s.led := rfl
@[simp] theorem State.setHbmByte_rings (a : Nat) (v : Byte) : (s.setHbmByte a v).rings = s.rings := rfl
@[simp] theorem State.setHbmByte_pumpNext (a : Nat) (v : Byte) : (s.setHbmByte a v).pumpNext = s.pumpNext := rfl
@[simp] theorem State.setHbmByte_pumpAt (a : Nat) (v : Byte) : (s.setHbmByte a v).pumpAt = s.pumpAt := rfl
@[simp] theorem State.setHbmByte_pumpUsed (a : Nat) (v : Byte) : (s.setHbmByte a v).pumpUsed = s.pumpUsed := rfl
@[simp] theorem State.setHbmByte_tdcs (a : Nat) (v : Byte) : (s.setHbmByte a v).tdcs = s.tdcs := rfl
@[simp] theorem State.setHbmByte_dlls (a : Nat) (v : Byte) : (s.setHbmByte a v).dlls = s.dlls := rfl
@[simp] theorem State.setHbmByte_lace (a : Nat) (v : Byte) : (s.setHbmByte a v).lace = s.lace := rfl
@[simp] theorem State.setHbmByte_ports (a : Nat) (v : Byte) : (s.setHbmByte a v).ports = s.ports := rfl
@[simp] theorem State.setHbmByte_spx1 (a : Nat) (v : Byte) : (s.setHbmByte a v).spx1 = s.spx1 := rfl
@[simp] theorem State.setHbmByte_calch (a : Nat) (v : Byte) : (s.setHbmByte a v).calch = s.calch := rfl
@[simp] theorem State.setHbmByte_cal (a : Nat) (v : Byte) : (s.setHbmByte a v).cal = s.cal := rfl
@[simp] theorem State.setHbmByte_nvm (a : Nat) (v : Byte) : (s.setHbmByte a v).nvm = s.nvm := rfl
@[simp] theorem State.setHbmByte_clk (a : Nat) (v : Byte) : (s.setHbmByte a v).clk = s.clk := rfl
@[simp] theorem State.setHbmByte_pwr (a : Nat) (v : Byte) : (s.setHbmByte a v).pwr = s.pwr := rfl
@[simp] theorem State.setHbmByte_thm (a : Nat) (v : Byte) : (s.setHbmByte a v).thm = s.thm := rfl
@[simp] theorem State.setHbmByte_boot (a : Nat) (v : Byte) : (s.setHbmByte a v).boot = s.boot := rfl
@[simp] theorem State.setHbmByte_straps (a : Nat) (v : Byte) : (s.setHbmByte a v).straps = s.straps := rfl
@[simp] theorem State.setHbmByte_installed (a : Nat) (v : Byte) : (s.setHbmByte a v).installed = s.installed := rfl
@[simp] theorem State.setHbmByte_tap (a : Nat) (v : Byte) : (s.setHbmByte a v).tap = s.tap := rfl
@[simp] theorem State.setHbmByte_hostBudget (a : Nat) (v : Byte) : (s.setHbmByte a v).hostBudget = s.hostBudget := rfl
@[simp] theorem State.setHbmByte_heldHost (a : Nat) (v : Byte) : (s.setHbmByte a v).heldHost = s.heldHost := rfl
@[simp] theorem State.setHbmByte_scrubA (a : Nat) (v : Byte) : (s.setHbmByte a v).scrubA = s.scrubA := rfl
@[simp] theorem State.setHbmByte_scrubB (a : Nat) (v : Byte) : (s.setHbmByte a v).scrubB = s.scrubB := rfl
@[simp] theorem State.setHbmByte_scrubAtA (a : Nat) (v : Byte) : (s.setHbmByte a v).scrubAtA = s.scrubAtA := rfl
@[simp] theorem State.setHbmByte_scrubAtB (a : Nat) (v : Byte) : (s.setHbmByte a v).scrubAtB = s.scrubAtB := rfl
@[simp] theorem State.setHbmByte_errAddrHeld (a : Nat) (v : Byte) : (s.setHbmByte a v).errAddrHeld = s.errAddrHeld := rfl
@[simp] theorem State.setHbmByte_acc_reg (a : Nat) (v : Byte) (k : Nat) : (s.setHbmByte a v).reg k = s.reg k := rfl
@[simp] theorem State.setHbmByte_acc_fld (a : Nat) (v : Byte) (k : Fld) : (s.setHbmByte a v).fld k = s.fld k := rfl
@[simp] theorem State.setHbmByte_acc_bit (a : Nat) (v : Byte) (k : Fld) : (s.setHbmByte a v).bit k = s.bit k := rfl
@[simp] theorem State.setHbmByte_acc_rcHost (a : Nat) (v : Byte) (k : Nat) : (s.setHbmByte a v).rcHost k = s.rcHost k := rfl
@[simp] theorem State.setHbmByte_acc_rcSpx1 (a : Nat) (v : Byte) (k : Nat) : (s.setHbmByte a v).rcSpx1 k = s.rcSpx1 k := rfl
@[simp] theorem State.setHbmByte_acc_rcBit (a : Nat) (v : Byte) (k : Fld) : (s.setHbmByte a v).rcBit k = s.rcBit k := rfl
@[simp] theorem State.setHbmByte_acc_winGet (a : Nat) (v : Byte) (k : Nat) : (s.setHbmByte a v).winGet k = s.winGet k := rfl
@[simp] theorem State.setHbmByte_acc_q (a : Nat) (v : Byte) (k : Nat) : (s.setHbmByte a v).q k = s.q k := rfl
@[simp] theorem State.setHbmByte_acc_m (a : Nat) (v : Byte) (k : Nat) : (s.setHbmByte a v).m k = s.m k := rfl
@[simp] theorem State.setHbmByte_acc_r (a : Nat) (v : Byte) (k : Nat) : (s.setHbmByte a v).r k = s.r k := rfl
@[simp] theorem State.setHbmByte_acc_chan (a : Nat) (v : Byte) (k : Nat) : (s.setHbmByte a v).chan k = s.chan k := rfl
@[simp] theorem State.setHbmByte_acc_pmu (a : Nat) (v : Byte) (k : Nat) : (s.setHbmByte a v).pmu k = s.pmu k := rfl
@[simp] theorem State.setHbmByte_acc_sg (a : Nat) (v : Byte) (k : Nat) : (s.setHbmByte a v).sg k = s.sg k := rfl
@[simp] theorem State.setHbmByte_acc_ring (a : Nat) (v : Byte) (k : Nat) : (s.setHbmByte a v).ring k = s.ring k := rfl
@[simp] theorem State.setHbmByte_acc_tdc (a : Nat) (v : Byte) (k : Nat) : (s.setHbmByte a v).tdc k = s.tdc k := rfl
@[simp] theorem State.setHbmByte_acc_dll (a : Nat) (v : Byte) (k : Nat) : (s.setHbmByte a v).dll k = s.dll k := rfl
@[simp] theorem State.setHbmByte_acc_port (a : Nat) (v : Byte) (k : Nat) : (s.setHbmByte a v).port k = s.port k := rfl
@[simp] theorem State.setHbmByte_acc_calCh (a : Nat) (v : Byte) (k : Nat) : (s.setHbmByte a v).calCh k = s.calCh k := rfl
@[simp] theorem State.setHbmByte_acc_txn (a : Nat) (v : Byte) (k : Nat) : (s.setHbmByte a v).txn k = s.txn k := rfl
@[simp] theorem State.setHbmByte_acc_evc (a : Nat) (v : Byte) (k : Nat) : (s.setHbmByte a v).evc k = s.evc k := rfl
@[simp] theorem State.setHbmByte_acc_ent (a : Nat) (v : Byte) (k : Nat) : (s.setHbmByte a v).ent k = s.ent k := rfl
@[simp] theorem State.setHbmByte_acc_srcCnt (a : Nat) (v : Byte) (k : Nat) : (s.setHbmByte a v).srcCnt k = s.srcCnt k := rfl

/-! ### setQ -/

@[simp] theorem State.setQ_pending (a : Nat) (v : QSeq) : (s.setQ a v).pending = s.pending := rfl
@[simp] theorem State.setQ_now (a : Nat) (v : QSeq) : (s.setQ a v).now = s.now := rfl
@[simp] theorem State.setQ_freeCount (a : Nat) (v : QSeq) : (s.setQ a v).freeCount = s.freeCount := rfl
@[simp] theorem State.setQ_regs (a : Nat) (v : QSeq) : (s.setQ a v).regs = s.regs := rfl
@[simp] theorem State.setQ_copyB (a : Nat) (v : QSeq) : (s.setQ a v).copyB = s.copyB := rfl
@[simp] theorem State.setQ_copyC (a : Nat) (v : QSeq) : (s.setQ a v).copyC = s.copyC := rfl
@[simp] theorem State.setQ_hostRc (a : Nat) (v : QSeq) : (s.setQ a v).hostRc = s.hostRc := rfl
@[simp] theorem State.setQ_spx1Rc (a : Nat) (v : QSeq) : (s.setQ a v).spx1Rc = s.spx1Rc := rfl
@[simp] theorem State.setQ_holdH (a : Nat) (v : QSeq) : (s.setQ a v).holdH = s.holdH := rfl
@[simp] theorem State.setQ_holdS (a : Nat) (v : QSeq) : (s.setQ a v).holdS = s.holdS := rfl
@[simp] theorem State.setQ_posted (a : Nat) (v : QSeq) : (s.setQ a v).posted = s.posted := rfl
@[simp] theorem State.setQ_handed (a : Nat) (v : QSeq) : (s.setQ a v).handed = s.handed := rfl
@[simp] theorem State.setQ_cycle (a : Nat) (v : QSeq) : (s.setQ a v).cycle = s.cycle := rfl
@[simp] theorem State.setQ_win (a : Nat) (v : QSeq) : (s.setQ a v).win = s.win := rfl
@[simp] theorem State.setQ_hbm (a : Nat) (v : QSeq) : (s.setQ a v).hbm = s.hbm := rfl
@[simp] theorem State.setQ_msgs (a : Nat) (v : QSeq) : (s.setQ a v).msgs = s.msgs := rfl
@[simp] theorem State.setQ_hostMem (a : Nat) (v : QSeq) : (s.setQ a v).hostMem = s.hostMem := rfl
@[simp] theorem State.setQ_reads (a : Nat) (v : QSeq) : (s.setQ a v).reads = s.reads := rfl
@[simp] theorem State.setQ_ep (a : Nat) (v : QSeq) : (s.setQ a v).ep = s.ep := rfl
@[simp] theorem State.setQ_linkUp (a : Nat) (v : QSeq) : (s.setQ a v).linkUp = s.linkUp := rfl
@[simp] theorem State.setQ_pcie (a : Nat) (v : QSeq) : (s.setQ a v).pcie = s.pcie := rfl
@[simp] theorem State.setQ_evcs (a : Nat) (v : QSeq) : (s.setQ a v).evcs = s.evcs := rfl
@[simp] theorem State.setQ_txns (a : Nat) (v : QSeq) : (s.setQ a v).txns = s.txns := rfl
@[simp] theorem State.setQ_reported (a : Nat) (v : QSeq) : (s.setQ a v).reported = s.reported := rfl
@[simp] theorem State.setQ_srcs (a : Nat) (v : QSeq) : (s.setQ a v).srcs = s.srcs := rfl
@[simp] theorem State.setQ_ents (a : Nat) (v : QSeq) : (s.setQ a v).ents = s.ents := rfl
@[simp] theorem State.setQ_feHost (a : Nat) (v : QSeq) : (s.setQ a v).feHost = s.feHost := rfl
@[simp] theorem State.setQ_feSpx1 (a : Nat) (v : QSeq) : (s.setQ a v).feSpx1 = s.feSpx1 := rfl
@[simp] theorem State.setQ_qm (a : Nat) (v : QSeq) : (s.setQ a v).qm = s.qm := rfl
@[simp] theorem State.setQ_qr (a : Nat) (v : QSeq) : (s.setQ a v).qr = s.qr := rfl
@[simp] theorem State.setQ_chans (a : Nat) (v : QSeq) : (s.setQ a v).chans = s.chans := rfl
@[simp] theorem State.setQ_pmus (a : Nat) (v : QSeq) : (s.setQ a v).pmus = s.pmus := rfl
@[simp] theorem State.setQ_adcs (a : Nat) (v : QSeq) : (s.setQ a v).adcs = s.adcs := rfl
@[simp] theorem State.setQ_adcAt (a : Nat) (v : QSeq) : (s.setQ a v).adcAt = s.adcAt := rfl
@[simp] theorem State.setQ_sgs (a : Nat) (v : QSeq) : (s.setQ a v).sgs = s.sgs := rfl
@[simp] theorem State.setQ_led (a : Nat) (v : QSeq) : (s.setQ a v).led = s.led := rfl
@[simp] theorem State.setQ_rings (a : Nat) (v : QSeq) : (s.setQ a v).rings = s.rings := rfl
@[simp] theorem State.setQ_pumpNext (a : Nat) (v : QSeq) : (s.setQ a v).pumpNext = s.pumpNext := rfl
@[simp] theorem State.setQ_pumpAt (a : Nat) (v : QSeq) : (s.setQ a v).pumpAt = s.pumpAt := rfl
@[simp] theorem State.setQ_pumpUsed (a : Nat) (v : QSeq) : (s.setQ a v).pumpUsed = s.pumpUsed := rfl
@[simp] theorem State.setQ_tdcs (a : Nat) (v : QSeq) : (s.setQ a v).tdcs = s.tdcs := rfl
@[simp] theorem State.setQ_dlls (a : Nat) (v : QSeq) : (s.setQ a v).dlls = s.dlls := rfl
@[simp] theorem State.setQ_lace (a : Nat) (v : QSeq) : (s.setQ a v).lace = s.lace := rfl
@[simp] theorem State.setQ_ports (a : Nat) (v : QSeq) : (s.setQ a v).ports = s.ports := rfl
@[simp] theorem State.setQ_spx1 (a : Nat) (v : QSeq) : (s.setQ a v).spx1 = s.spx1 := rfl
@[simp] theorem State.setQ_calch (a : Nat) (v : QSeq) : (s.setQ a v).calch = s.calch := rfl
@[simp] theorem State.setQ_cal (a : Nat) (v : QSeq) : (s.setQ a v).cal = s.cal := rfl
@[simp] theorem State.setQ_nvm (a : Nat) (v : QSeq) : (s.setQ a v).nvm = s.nvm := rfl
@[simp] theorem State.setQ_clk (a : Nat) (v : QSeq) : (s.setQ a v).clk = s.clk := rfl
@[simp] theorem State.setQ_pwr (a : Nat) (v : QSeq) : (s.setQ a v).pwr = s.pwr := rfl
@[simp] theorem State.setQ_thm (a : Nat) (v : QSeq) : (s.setQ a v).thm = s.thm := rfl
@[simp] theorem State.setQ_boot (a : Nat) (v : QSeq) : (s.setQ a v).boot = s.boot := rfl
@[simp] theorem State.setQ_straps (a : Nat) (v : QSeq) : (s.setQ a v).straps = s.straps := rfl
@[simp] theorem State.setQ_installed (a : Nat) (v : QSeq) : (s.setQ a v).installed = s.installed := rfl
@[simp] theorem State.setQ_tap (a : Nat) (v : QSeq) : (s.setQ a v).tap = s.tap := rfl
@[simp] theorem State.setQ_hostBudget (a : Nat) (v : QSeq) : (s.setQ a v).hostBudget = s.hostBudget := rfl
@[simp] theorem State.setQ_heldHost (a : Nat) (v : QSeq) : (s.setQ a v).heldHost = s.heldHost := rfl
@[simp] theorem State.setQ_scrubA (a : Nat) (v : QSeq) : (s.setQ a v).scrubA = s.scrubA := rfl
@[simp] theorem State.setQ_scrubB (a : Nat) (v : QSeq) : (s.setQ a v).scrubB = s.scrubB := rfl
@[simp] theorem State.setQ_scrubAtA (a : Nat) (v : QSeq) : (s.setQ a v).scrubAtA = s.scrubAtA := rfl
@[simp] theorem State.setQ_scrubAtB (a : Nat) (v : QSeq) : (s.setQ a v).scrubAtB = s.scrubAtB := rfl
@[simp] theorem State.setQ_errAddrHeld (a : Nat) (v : QSeq) : (s.setQ a v).errAddrHeld = s.errAddrHeld := rfl
@[simp] theorem State.setQ_acc_reg (a : Nat) (v : QSeq) (k : Nat) : (s.setQ a v).reg k = s.reg k := rfl
@[simp] theorem State.setQ_acc_fld (a : Nat) (v : QSeq) (k : Fld) : (s.setQ a v).fld k = s.fld k := rfl
@[simp] theorem State.setQ_acc_bit (a : Nat) (v : QSeq) (k : Fld) : (s.setQ a v).bit k = s.bit k := rfl
@[simp] theorem State.setQ_acc_rcHost (a : Nat) (v : QSeq) (k : Nat) : (s.setQ a v).rcHost k = s.rcHost k := rfl
@[simp] theorem State.setQ_acc_rcSpx1 (a : Nat) (v : QSeq) (k : Nat) : (s.setQ a v).rcSpx1 k = s.rcSpx1 k := rfl
@[simp] theorem State.setQ_acc_rcBit (a : Nat) (v : QSeq) (k : Fld) : (s.setQ a v).rcBit k = s.rcBit k := rfl
@[simp] theorem State.setQ_acc_winGet (a : Nat) (v : QSeq) (k : Nat) : (s.setQ a v).winGet k = s.winGet k := rfl
@[simp] theorem State.setQ_acc_hbmByte (a : Nat) (v : QSeq) (k : Nat) : (s.setQ a v).hbmByte k = s.hbmByte k := rfl
@[simp] theorem State.setQ_acc_m (a : Nat) (v : QSeq) (k : Nat) : (s.setQ a v).m k = s.m k := rfl
@[simp] theorem State.setQ_acc_r (a : Nat) (v : QSeq) (k : Nat) : (s.setQ a v).r k = s.r k := rfl
@[simp] theorem State.setQ_acc_chan (a : Nat) (v : QSeq) (k : Nat) : (s.setQ a v).chan k = s.chan k := rfl
@[simp] theorem State.setQ_acc_pmu (a : Nat) (v : QSeq) (k : Nat) : (s.setQ a v).pmu k = s.pmu k := rfl
@[simp] theorem State.setQ_acc_sg (a : Nat) (v : QSeq) (k : Nat) : (s.setQ a v).sg k = s.sg k := rfl
@[simp] theorem State.setQ_acc_ring (a : Nat) (v : QSeq) (k : Nat) : (s.setQ a v).ring k = s.ring k := rfl
@[simp] theorem State.setQ_acc_tdc (a : Nat) (v : QSeq) (k : Nat) : (s.setQ a v).tdc k = s.tdc k := rfl
@[simp] theorem State.setQ_acc_dll (a : Nat) (v : QSeq) (k : Nat) : (s.setQ a v).dll k = s.dll k := rfl
@[simp] theorem State.setQ_acc_port (a : Nat) (v : QSeq) (k : Nat) : (s.setQ a v).port k = s.port k := rfl
@[simp] theorem State.setQ_acc_calCh (a : Nat) (v : QSeq) (k : Nat) : (s.setQ a v).calCh k = s.calCh k := rfl
@[simp] theorem State.setQ_acc_txn (a : Nat) (v : QSeq) (k : Nat) : (s.setQ a v).txn k = s.txn k := rfl
@[simp] theorem State.setQ_acc_evc (a : Nat) (v : QSeq) (k : Nat) : (s.setQ a v).evc k = s.evc k := rfl
@[simp] theorem State.setQ_acc_ent (a : Nat) (v : QSeq) (k : Nat) : (s.setQ a v).ent k = s.ent k := rfl
@[simp] theorem State.setQ_acc_srcCnt (a : Nat) (v : QSeq) (k : Nat) : (s.setQ a v).srcCnt k = s.srcCnt k := rfl

/-! ### setM -/

@[simp] theorem State.setM_pending (a : Nat) (v : QMem) : (s.setM a v).pending = s.pending := rfl
@[simp] theorem State.setM_now (a : Nat) (v : QMem) : (s.setM a v).now = s.now := rfl
@[simp] theorem State.setM_freeCount (a : Nat) (v : QMem) : (s.setM a v).freeCount = s.freeCount := rfl
@[simp] theorem State.setM_regs (a : Nat) (v : QMem) : (s.setM a v).regs = s.regs := rfl
@[simp] theorem State.setM_copyB (a : Nat) (v : QMem) : (s.setM a v).copyB = s.copyB := rfl
@[simp] theorem State.setM_copyC (a : Nat) (v : QMem) : (s.setM a v).copyC = s.copyC := rfl
@[simp] theorem State.setM_hostRc (a : Nat) (v : QMem) : (s.setM a v).hostRc = s.hostRc := rfl
@[simp] theorem State.setM_spx1Rc (a : Nat) (v : QMem) : (s.setM a v).spx1Rc = s.spx1Rc := rfl
@[simp] theorem State.setM_holdH (a : Nat) (v : QMem) : (s.setM a v).holdH = s.holdH := rfl
@[simp] theorem State.setM_holdS (a : Nat) (v : QMem) : (s.setM a v).holdS = s.holdS := rfl
@[simp] theorem State.setM_posted (a : Nat) (v : QMem) : (s.setM a v).posted = s.posted := rfl
@[simp] theorem State.setM_handed (a : Nat) (v : QMem) : (s.setM a v).handed = s.handed := rfl
@[simp] theorem State.setM_cycle (a : Nat) (v : QMem) : (s.setM a v).cycle = s.cycle := rfl
@[simp] theorem State.setM_win (a : Nat) (v : QMem) : (s.setM a v).win = s.win := rfl
@[simp] theorem State.setM_hbm (a : Nat) (v : QMem) : (s.setM a v).hbm = s.hbm := rfl
@[simp] theorem State.setM_msgs (a : Nat) (v : QMem) : (s.setM a v).msgs = s.msgs := rfl
@[simp] theorem State.setM_hostMem (a : Nat) (v : QMem) : (s.setM a v).hostMem = s.hostMem := rfl
@[simp] theorem State.setM_reads (a : Nat) (v : QMem) : (s.setM a v).reads = s.reads := rfl
@[simp] theorem State.setM_ep (a : Nat) (v : QMem) : (s.setM a v).ep = s.ep := rfl
@[simp] theorem State.setM_linkUp (a : Nat) (v : QMem) : (s.setM a v).linkUp = s.linkUp := rfl
@[simp] theorem State.setM_pcie (a : Nat) (v : QMem) : (s.setM a v).pcie = s.pcie := rfl
@[simp] theorem State.setM_evcs (a : Nat) (v : QMem) : (s.setM a v).evcs = s.evcs := rfl
@[simp] theorem State.setM_txns (a : Nat) (v : QMem) : (s.setM a v).txns = s.txns := rfl
@[simp] theorem State.setM_reported (a : Nat) (v : QMem) : (s.setM a v).reported = s.reported := rfl
@[simp] theorem State.setM_srcs (a : Nat) (v : QMem) : (s.setM a v).srcs = s.srcs := rfl
@[simp] theorem State.setM_ents (a : Nat) (v : QMem) : (s.setM a v).ents = s.ents := rfl
@[simp] theorem State.setM_feHost (a : Nat) (v : QMem) : (s.setM a v).feHost = s.feHost := rfl
@[simp] theorem State.setM_feSpx1 (a : Nat) (v : QMem) : (s.setM a v).feSpx1 = s.feSpx1 := rfl
@[simp] theorem State.setM_qs (a : Nat) (v : QMem) : (s.setM a v).qs = s.qs := rfl
@[simp] theorem State.setM_qr (a : Nat) (v : QMem) : (s.setM a v).qr = s.qr := rfl
@[simp] theorem State.setM_chans (a : Nat) (v : QMem) : (s.setM a v).chans = s.chans := rfl
@[simp] theorem State.setM_pmus (a : Nat) (v : QMem) : (s.setM a v).pmus = s.pmus := rfl
@[simp] theorem State.setM_adcs (a : Nat) (v : QMem) : (s.setM a v).adcs = s.adcs := rfl
@[simp] theorem State.setM_adcAt (a : Nat) (v : QMem) : (s.setM a v).adcAt = s.adcAt := rfl
@[simp] theorem State.setM_sgs (a : Nat) (v : QMem) : (s.setM a v).sgs = s.sgs := rfl
@[simp] theorem State.setM_led (a : Nat) (v : QMem) : (s.setM a v).led = s.led := rfl
@[simp] theorem State.setM_rings (a : Nat) (v : QMem) : (s.setM a v).rings = s.rings := rfl
@[simp] theorem State.setM_pumpNext (a : Nat) (v : QMem) : (s.setM a v).pumpNext = s.pumpNext := rfl
@[simp] theorem State.setM_pumpAt (a : Nat) (v : QMem) : (s.setM a v).pumpAt = s.pumpAt := rfl
@[simp] theorem State.setM_pumpUsed (a : Nat) (v : QMem) : (s.setM a v).pumpUsed = s.pumpUsed := rfl
@[simp] theorem State.setM_tdcs (a : Nat) (v : QMem) : (s.setM a v).tdcs = s.tdcs := rfl
@[simp] theorem State.setM_dlls (a : Nat) (v : QMem) : (s.setM a v).dlls = s.dlls := rfl
@[simp] theorem State.setM_lace (a : Nat) (v : QMem) : (s.setM a v).lace = s.lace := rfl
@[simp] theorem State.setM_ports (a : Nat) (v : QMem) : (s.setM a v).ports = s.ports := rfl
@[simp] theorem State.setM_spx1 (a : Nat) (v : QMem) : (s.setM a v).spx1 = s.spx1 := rfl
@[simp] theorem State.setM_calch (a : Nat) (v : QMem) : (s.setM a v).calch = s.calch := rfl
@[simp] theorem State.setM_cal (a : Nat) (v : QMem) : (s.setM a v).cal = s.cal := rfl
@[simp] theorem State.setM_nvm (a : Nat) (v : QMem) : (s.setM a v).nvm = s.nvm := rfl
@[simp] theorem State.setM_clk (a : Nat) (v : QMem) : (s.setM a v).clk = s.clk := rfl
@[simp] theorem State.setM_pwr (a : Nat) (v : QMem) : (s.setM a v).pwr = s.pwr := rfl
@[simp] theorem State.setM_thm (a : Nat) (v : QMem) : (s.setM a v).thm = s.thm := rfl
@[simp] theorem State.setM_boot (a : Nat) (v : QMem) : (s.setM a v).boot = s.boot := rfl
@[simp] theorem State.setM_straps (a : Nat) (v : QMem) : (s.setM a v).straps = s.straps := rfl
@[simp] theorem State.setM_installed (a : Nat) (v : QMem) : (s.setM a v).installed = s.installed := rfl
@[simp] theorem State.setM_tap (a : Nat) (v : QMem) : (s.setM a v).tap = s.tap := rfl
@[simp] theorem State.setM_hostBudget (a : Nat) (v : QMem) : (s.setM a v).hostBudget = s.hostBudget := rfl
@[simp] theorem State.setM_heldHost (a : Nat) (v : QMem) : (s.setM a v).heldHost = s.heldHost := rfl
@[simp] theorem State.setM_scrubA (a : Nat) (v : QMem) : (s.setM a v).scrubA = s.scrubA := rfl
@[simp] theorem State.setM_scrubB (a : Nat) (v : QMem) : (s.setM a v).scrubB = s.scrubB := rfl
@[simp] theorem State.setM_scrubAtA (a : Nat) (v : QMem) : (s.setM a v).scrubAtA = s.scrubAtA := rfl
@[simp] theorem State.setM_scrubAtB (a : Nat) (v : QMem) : (s.setM a v).scrubAtB = s.scrubAtB := rfl
@[simp] theorem State.setM_errAddrHeld (a : Nat) (v : QMem) : (s.setM a v).errAddrHeld = s.errAddrHeld := rfl
@[simp] theorem State.setM_acc_reg (a : Nat) (v : QMem) (k : Nat) : (s.setM a v).reg k = s.reg k := rfl
@[simp] theorem State.setM_acc_fld (a : Nat) (v : QMem) (k : Fld) : (s.setM a v).fld k = s.fld k := rfl
@[simp] theorem State.setM_acc_bit (a : Nat) (v : QMem) (k : Fld) : (s.setM a v).bit k = s.bit k := rfl
@[simp] theorem State.setM_acc_rcHost (a : Nat) (v : QMem) (k : Nat) : (s.setM a v).rcHost k = s.rcHost k := rfl
@[simp] theorem State.setM_acc_rcSpx1 (a : Nat) (v : QMem) (k : Nat) : (s.setM a v).rcSpx1 k = s.rcSpx1 k := rfl
@[simp] theorem State.setM_acc_rcBit (a : Nat) (v : QMem) (k : Fld) : (s.setM a v).rcBit k = s.rcBit k := rfl
@[simp] theorem State.setM_acc_winGet (a : Nat) (v : QMem) (k : Nat) : (s.setM a v).winGet k = s.winGet k := rfl
@[simp] theorem State.setM_acc_hbmByte (a : Nat) (v : QMem) (k : Nat) : (s.setM a v).hbmByte k = s.hbmByte k := rfl
@[simp] theorem State.setM_acc_q (a : Nat) (v : QMem) (k : Nat) : (s.setM a v).q k = s.q k := rfl
@[simp] theorem State.setM_acc_r (a : Nat) (v : QMem) (k : Nat) : (s.setM a v).r k = s.r k := rfl
@[simp] theorem State.setM_acc_chan (a : Nat) (v : QMem) (k : Nat) : (s.setM a v).chan k = s.chan k := rfl
@[simp] theorem State.setM_acc_pmu (a : Nat) (v : QMem) (k : Nat) : (s.setM a v).pmu k = s.pmu k := rfl
@[simp] theorem State.setM_acc_sg (a : Nat) (v : QMem) (k : Nat) : (s.setM a v).sg k = s.sg k := rfl
@[simp] theorem State.setM_acc_ring (a : Nat) (v : QMem) (k : Nat) : (s.setM a v).ring k = s.ring k := rfl
@[simp] theorem State.setM_acc_tdc (a : Nat) (v : QMem) (k : Nat) : (s.setM a v).tdc k = s.tdc k := rfl
@[simp] theorem State.setM_acc_dll (a : Nat) (v : QMem) (k : Nat) : (s.setM a v).dll k = s.dll k := rfl
@[simp] theorem State.setM_acc_port (a : Nat) (v : QMem) (k : Nat) : (s.setM a v).port k = s.port k := rfl
@[simp] theorem State.setM_acc_calCh (a : Nat) (v : QMem) (k : Nat) : (s.setM a v).calCh k = s.calCh k := rfl
@[simp] theorem State.setM_acc_txn (a : Nat) (v : QMem) (k : Nat) : (s.setM a v).txn k = s.txn k := rfl
@[simp] theorem State.setM_acc_evc (a : Nat) (v : QMem) (k : Nat) : (s.setM a v).evc k = s.evc k := rfl
@[simp] theorem State.setM_acc_ent (a : Nat) (v : QMem) (k : Nat) : (s.setM a v).ent k = s.ent k := rfl
@[simp] theorem State.setM_acc_srcCnt (a : Nat) (v : QMem) (k : Nat) : (s.setM a v).srcCnt k = s.srcCnt k := rfl

/-! ### setR -/

@[simp] theorem State.setR_pending (a : Nat) (v : QRes) : (s.setR a v).pending = s.pending := rfl
@[simp] theorem State.setR_now (a : Nat) (v : QRes) : (s.setR a v).now = s.now := rfl
@[simp] theorem State.setR_freeCount (a : Nat) (v : QRes) : (s.setR a v).freeCount = s.freeCount := rfl
@[simp] theorem State.setR_regs (a : Nat) (v : QRes) : (s.setR a v).regs = s.regs := rfl
@[simp] theorem State.setR_copyB (a : Nat) (v : QRes) : (s.setR a v).copyB = s.copyB := rfl
@[simp] theorem State.setR_copyC (a : Nat) (v : QRes) : (s.setR a v).copyC = s.copyC := rfl
@[simp] theorem State.setR_hostRc (a : Nat) (v : QRes) : (s.setR a v).hostRc = s.hostRc := rfl
@[simp] theorem State.setR_spx1Rc (a : Nat) (v : QRes) : (s.setR a v).spx1Rc = s.spx1Rc := rfl
@[simp] theorem State.setR_holdH (a : Nat) (v : QRes) : (s.setR a v).holdH = s.holdH := rfl
@[simp] theorem State.setR_holdS (a : Nat) (v : QRes) : (s.setR a v).holdS = s.holdS := rfl
@[simp] theorem State.setR_posted (a : Nat) (v : QRes) : (s.setR a v).posted = s.posted := rfl
@[simp] theorem State.setR_handed (a : Nat) (v : QRes) : (s.setR a v).handed = s.handed := rfl
@[simp] theorem State.setR_cycle (a : Nat) (v : QRes) : (s.setR a v).cycle = s.cycle := rfl
@[simp] theorem State.setR_win (a : Nat) (v : QRes) : (s.setR a v).win = s.win := rfl
@[simp] theorem State.setR_hbm (a : Nat) (v : QRes) : (s.setR a v).hbm = s.hbm := rfl
@[simp] theorem State.setR_msgs (a : Nat) (v : QRes) : (s.setR a v).msgs = s.msgs := rfl
@[simp] theorem State.setR_hostMem (a : Nat) (v : QRes) : (s.setR a v).hostMem = s.hostMem := rfl
@[simp] theorem State.setR_reads (a : Nat) (v : QRes) : (s.setR a v).reads = s.reads := rfl
@[simp] theorem State.setR_ep (a : Nat) (v : QRes) : (s.setR a v).ep = s.ep := rfl
@[simp] theorem State.setR_linkUp (a : Nat) (v : QRes) : (s.setR a v).linkUp = s.linkUp := rfl
@[simp] theorem State.setR_pcie (a : Nat) (v : QRes) : (s.setR a v).pcie = s.pcie := rfl
@[simp] theorem State.setR_evcs (a : Nat) (v : QRes) : (s.setR a v).evcs = s.evcs := rfl
@[simp] theorem State.setR_txns (a : Nat) (v : QRes) : (s.setR a v).txns = s.txns := rfl
@[simp] theorem State.setR_reported (a : Nat) (v : QRes) : (s.setR a v).reported = s.reported := rfl
@[simp] theorem State.setR_srcs (a : Nat) (v : QRes) : (s.setR a v).srcs = s.srcs := rfl
@[simp] theorem State.setR_ents (a : Nat) (v : QRes) : (s.setR a v).ents = s.ents := rfl
@[simp] theorem State.setR_feHost (a : Nat) (v : QRes) : (s.setR a v).feHost = s.feHost := rfl
@[simp] theorem State.setR_feSpx1 (a : Nat) (v : QRes) : (s.setR a v).feSpx1 = s.feSpx1 := rfl
@[simp] theorem State.setR_qs (a : Nat) (v : QRes) : (s.setR a v).qs = s.qs := rfl
@[simp] theorem State.setR_qm (a : Nat) (v : QRes) : (s.setR a v).qm = s.qm := rfl
@[simp] theorem State.setR_chans (a : Nat) (v : QRes) : (s.setR a v).chans = s.chans := rfl
@[simp] theorem State.setR_pmus (a : Nat) (v : QRes) : (s.setR a v).pmus = s.pmus := rfl
@[simp] theorem State.setR_adcs (a : Nat) (v : QRes) : (s.setR a v).adcs = s.adcs := rfl
@[simp] theorem State.setR_adcAt (a : Nat) (v : QRes) : (s.setR a v).adcAt = s.adcAt := rfl
@[simp] theorem State.setR_sgs (a : Nat) (v : QRes) : (s.setR a v).sgs = s.sgs := rfl
@[simp] theorem State.setR_led (a : Nat) (v : QRes) : (s.setR a v).led = s.led := rfl
@[simp] theorem State.setR_rings (a : Nat) (v : QRes) : (s.setR a v).rings = s.rings := rfl
@[simp] theorem State.setR_pumpNext (a : Nat) (v : QRes) : (s.setR a v).pumpNext = s.pumpNext := rfl
@[simp] theorem State.setR_pumpAt (a : Nat) (v : QRes) : (s.setR a v).pumpAt = s.pumpAt := rfl
@[simp] theorem State.setR_pumpUsed (a : Nat) (v : QRes) : (s.setR a v).pumpUsed = s.pumpUsed := rfl
@[simp] theorem State.setR_tdcs (a : Nat) (v : QRes) : (s.setR a v).tdcs = s.tdcs := rfl
@[simp] theorem State.setR_dlls (a : Nat) (v : QRes) : (s.setR a v).dlls = s.dlls := rfl
@[simp] theorem State.setR_lace (a : Nat) (v : QRes) : (s.setR a v).lace = s.lace := rfl
@[simp] theorem State.setR_ports (a : Nat) (v : QRes) : (s.setR a v).ports = s.ports := rfl
@[simp] theorem State.setR_spx1 (a : Nat) (v : QRes) : (s.setR a v).spx1 = s.spx1 := rfl
@[simp] theorem State.setR_calch (a : Nat) (v : QRes) : (s.setR a v).calch = s.calch := rfl
@[simp] theorem State.setR_cal (a : Nat) (v : QRes) : (s.setR a v).cal = s.cal := rfl
@[simp] theorem State.setR_nvm (a : Nat) (v : QRes) : (s.setR a v).nvm = s.nvm := rfl
@[simp] theorem State.setR_clk (a : Nat) (v : QRes) : (s.setR a v).clk = s.clk := rfl
@[simp] theorem State.setR_pwr (a : Nat) (v : QRes) : (s.setR a v).pwr = s.pwr := rfl
@[simp] theorem State.setR_thm (a : Nat) (v : QRes) : (s.setR a v).thm = s.thm := rfl
@[simp] theorem State.setR_boot (a : Nat) (v : QRes) : (s.setR a v).boot = s.boot := rfl
@[simp] theorem State.setR_straps (a : Nat) (v : QRes) : (s.setR a v).straps = s.straps := rfl
@[simp] theorem State.setR_installed (a : Nat) (v : QRes) : (s.setR a v).installed = s.installed := rfl
@[simp] theorem State.setR_tap (a : Nat) (v : QRes) : (s.setR a v).tap = s.tap := rfl
@[simp] theorem State.setR_hostBudget (a : Nat) (v : QRes) : (s.setR a v).hostBudget = s.hostBudget := rfl
@[simp] theorem State.setR_heldHost (a : Nat) (v : QRes) : (s.setR a v).heldHost = s.heldHost := rfl
@[simp] theorem State.setR_scrubA (a : Nat) (v : QRes) : (s.setR a v).scrubA = s.scrubA := rfl
@[simp] theorem State.setR_scrubB (a : Nat) (v : QRes) : (s.setR a v).scrubB = s.scrubB := rfl
@[simp] theorem State.setR_scrubAtA (a : Nat) (v : QRes) : (s.setR a v).scrubAtA = s.scrubAtA := rfl
@[simp] theorem State.setR_scrubAtB (a : Nat) (v : QRes) : (s.setR a v).scrubAtB = s.scrubAtB := rfl
@[simp] theorem State.setR_errAddrHeld (a : Nat) (v : QRes) : (s.setR a v).errAddrHeld = s.errAddrHeld := rfl
@[simp] theorem State.setR_acc_reg (a : Nat) (v : QRes) (k : Nat) : (s.setR a v).reg k = s.reg k := rfl
@[simp] theorem State.setR_acc_fld (a : Nat) (v : QRes) (k : Fld) : (s.setR a v).fld k = s.fld k := rfl
@[simp] theorem State.setR_acc_bit (a : Nat) (v : QRes) (k : Fld) : (s.setR a v).bit k = s.bit k := rfl
@[simp] theorem State.setR_acc_rcHost (a : Nat) (v : QRes) (k : Nat) : (s.setR a v).rcHost k = s.rcHost k := rfl
@[simp] theorem State.setR_acc_rcSpx1 (a : Nat) (v : QRes) (k : Nat) : (s.setR a v).rcSpx1 k = s.rcSpx1 k := rfl
@[simp] theorem State.setR_acc_rcBit (a : Nat) (v : QRes) (k : Fld) : (s.setR a v).rcBit k = s.rcBit k := rfl
@[simp] theorem State.setR_acc_winGet (a : Nat) (v : QRes) (k : Nat) : (s.setR a v).winGet k = s.winGet k := rfl
@[simp] theorem State.setR_acc_hbmByte (a : Nat) (v : QRes) (k : Nat) : (s.setR a v).hbmByte k = s.hbmByte k := rfl
@[simp] theorem State.setR_acc_q (a : Nat) (v : QRes) (k : Nat) : (s.setR a v).q k = s.q k := rfl
@[simp] theorem State.setR_acc_m (a : Nat) (v : QRes) (k : Nat) : (s.setR a v).m k = s.m k := rfl
@[simp] theorem State.setR_acc_chan (a : Nat) (v : QRes) (k : Nat) : (s.setR a v).chan k = s.chan k := rfl
@[simp] theorem State.setR_acc_pmu (a : Nat) (v : QRes) (k : Nat) : (s.setR a v).pmu k = s.pmu k := rfl
@[simp] theorem State.setR_acc_sg (a : Nat) (v : QRes) (k : Nat) : (s.setR a v).sg k = s.sg k := rfl
@[simp] theorem State.setR_acc_ring (a : Nat) (v : QRes) (k : Nat) : (s.setR a v).ring k = s.ring k := rfl
@[simp] theorem State.setR_acc_tdc (a : Nat) (v : QRes) (k : Nat) : (s.setR a v).tdc k = s.tdc k := rfl
@[simp] theorem State.setR_acc_dll (a : Nat) (v : QRes) (k : Nat) : (s.setR a v).dll k = s.dll k := rfl
@[simp] theorem State.setR_acc_port (a : Nat) (v : QRes) (k : Nat) : (s.setR a v).port k = s.port k := rfl
@[simp] theorem State.setR_acc_calCh (a : Nat) (v : QRes) (k : Nat) : (s.setR a v).calCh k = s.calCh k := rfl
@[simp] theorem State.setR_acc_txn (a : Nat) (v : QRes) (k : Nat) : (s.setR a v).txn k = s.txn k := rfl
@[simp] theorem State.setR_acc_evc (a : Nat) (v : QRes) (k : Nat) : (s.setR a v).evc k = s.evc k := rfl
@[simp] theorem State.setR_acc_ent (a : Nat) (v : QRes) (k : Nat) : (s.setR a v).ent k = s.ent k := rfl
@[simp] theorem State.setR_acc_srcCnt (a : Nat) (v : QRes) (k : Nat) : (s.setR a v).srcCnt k = s.srcCnt k := rfl

/-! ### setChan -/

@[simp] theorem State.setChan_pending (a : Nat) (v : Chan) : (s.setChan a v).pending = s.pending := rfl
@[simp] theorem State.setChan_now (a : Nat) (v : Chan) : (s.setChan a v).now = s.now := rfl
@[simp] theorem State.setChan_freeCount (a : Nat) (v : Chan) : (s.setChan a v).freeCount = s.freeCount := rfl
@[simp] theorem State.setChan_regs (a : Nat) (v : Chan) : (s.setChan a v).regs = s.regs := rfl
@[simp] theorem State.setChan_copyB (a : Nat) (v : Chan) : (s.setChan a v).copyB = s.copyB := rfl
@[simp] theorem State.setChan_copyC (a : Nat) (v : Chan) : (s.setChan a v).copyC = s.copyC := rfl
@[simp] theorem State.setChan_hostRc (a : Nat) (v : Chan) : (s.setChan a v).hostRc = s.hostRc := rfl
@[simp] theorem State.setChan_spx1Rc (a : Nat) (v : Chan) : (s.setChan a v).spx1Rc = s.spx1Rc := rfl
@[simp] theorem State.setChan_holdH (a : Nat) (v : Chan) : (s.setChan a v).holdH = s.holdH := rfl
@[simp] theorem State.setChan_holdS (a : Nat) (v : Chan) : (s.setChan a v).holdS = s.holdS := rfl
@[simp] theorem State.setChan_posted (a : Nat) (v : Chan) : (s.setChan a v).posted = s.posted := rfl
@[simp] theorem State.setChan_handed (a : Nat) (v : Chan) : (s.setChan a v).handed = s.handed := rfl
@[simp] theorem State.setChan_cycle (a : Nat) (v : Chan) : (s.setChan a v).cycle = s.cycle := rfl
@[simp] theorem State.setChan_win (a : Nat) (v : Chan) : (s.setChan a v).win = s.win := rfl
@[simp] theorem State.setChan_hbm (a : Nat) (v : Chan) : (s.setChan a v).hbm = s.hbm := rfl
@[simp] theorem State.setChan_msgs (a : Nat) (v : Chan) : (s.setChan a v).msgs = s.msgs := rfl
@[simp] theorem State.setChan_hostMem (a : Nat) (v : Chan) : (s.setChan a v).hostMem = s.hostMem := rfl
@[simp] theorem State.setChan_reads (a : Nat) (v : Chan) : (s.setChan a v).reads = s.reads := rfl
@[simp] theorem State.setChan_ep (a : Nat) (v : Chan) : (s.setChan a v).ep = s.ep := rfl
@[simp] theorem State.setChan_linkUp (a : Nat) (v : Chan) : (s.setChan a v).linkUp = s.linkUp := rfl
@[simp] theorem State.setChan_pcie (a : Nat) (v : Chan) : (s.setChan a v).pcie = s.pcie := rfl
@[simp] theorem State.setChan_evcs (a : Nat) (v : Chan) : (s.setChan a v).evcs = s.evcs := rfl
@[simp] theorem State.setChan_txns (a : Nat) (v : Chan) : (s.setChan a v).txns = s.txns := rfl
@[simp] theorem State.setChan_reported (a : Nat) (v : Chan) : (s.setChan a v).reported = s.reported := rfl
@[simp] theorem State.setChan_srcs (a : Nat) (v : Chan) : (s.setChan a v).srcs = s.srcs := rfl
@[simp] theorem State.setChan_ents (a : Nat) (v : Chan) : (s.setChan a v).ents = s.ents := rfl
@[simp] theorem State.setChan_feHost (a : Nat) (v : Chan) : (s.setChan a v).feHost = s.feHost := rfl
@[simp] theorem State.setChan_feSpx1 (a : Nat) (v : Chan) : (s.setChan a v).feSpx1 = s.feSpx1 := rfl
@[simp] theorem State.setChan_qs (a : Nat) (v : Chan) : (s.setChan a v).qs = s.qs := rfl
@[simp] theorem State.setChan_qm (a : Nat) (v : Chan) : (s.setChan a v).qm = s.qm := rfl
@[simp] theorem State.setChan_qr (a : Nat) (v : Chan) : (s.setChan a v).qr = s.qr := rfl
@[simp] theorem State.setChan_pmus (a : Nat) (v : Chan) : (s.setChan a v).pmus = s.pmus := rfl
@[simp] theorem State.setChan_adcs (a : Nat) (v : Chan) : (s.setChan a v).adcs = s.adcs := rfl
@[simp] theorem State.setChan_adcAt (a : Nat) (v : Chan) : (s.setChan a v).adcAt = s.adcAt := rfl
@[simp] theorem State.setChan_sgs (a : Nat) (v : Chan) : (s.setChan a v).sgs = s.sgs := rfl
@[simp] theorem State.setChan_led (a : Nat) (v : Chan) : (s.setChan a v).led = s.led := rfl
@[simp] theorem State.setChan_rings (a : Nat) (v : Chan) : (s.setChan a v).rings = s.rings := rfl
@[simp] theorem State.setChan_pumpNext (a : Nat) (v : Chan) : (s.setChan a v).pumpNext = s.pumpNext := rfl
@[simp] theorem State.setChan_pumpAt (a : Nat) (v : Chan) : (s.setChan a v).pumpAt = s.pumpAt := rfl
@[simp] theorem State.setChan_pumpUsed (a : Nat) (v : Chan) : (s.setChan a v).pumpUsed = s.pumpUsed := rfl
@[simp] theorem State.setChan_tdcs (a : Nat) (v : Chan) : (s.setChan a v).tdcs = s.tdcs := rfl
@[simp] theorem State.setChan_dlls (a : Nat) (v : Chan) : (s.setChan a v).dlls = s.dlls := rfl
@[simp] theorem State.setChan_lace (a : Nat) (v : Chan) : (s.setChan a v).lace = s.lace := rfl
@[simp] theorem State.setChan_ports (a : Nat) (v : Chan) : (s.setChan a v).ports = s.ports := rfl
@[simp] theorem State.setChan_spx1 (a : Nat) (v : Chan) : (s.setChan a v).spx1 = s.spx1 := rfl
@[simp] theorem State.setChan_calch (a : Nat) (v : Chan) : (s.setChan a v).calch = s.calch := rfl
@[simp] theorem State.setChan_cal (a : Nat) (v : Chan) : (s.setChan a v).cal = s.cal := rfl
@[simp] theorem State.setChan_nvm (a : Nat) (v : Chan) : (s.setChan a v).nvm = s.nvm := rfl
@[simp] theorem State.setChan_clk (a : Nat) (v : Chan) : (s.setChan a v).clk = s.clk := rfl
@[simp] theorem State.setChan_pwr (a : Nat) (v : Chan) : (s.setChan a v).pwr = s.pwr := rfl
@[simp] theorem State.setChan_thm (a : Nat) (v : Chan) : (s.setChan a v).thm = s.thm := rfl
@[simp] theorem State.setChan_boot (a : Nat) (v : Chan) : (s.setChan a v).boot = s.boot := rfl
@[simp] theorem State.setChan_straps (a : Nat) (v : Chan) : (s.setChan a v).straps = s.straps := rfl
@[simp] theorem State.setChan_installed (a : Nat) (v : Chan) : (s.setChan a v).installed = s.installed := rfl
@[simp] theorem State.setChan_tap (a : Nat) (v : Chan) : (s.setChan a v).tap = s.tap := rfl
@[simp] theorem State.setChan_hostBudget (a : Nat) (v : Chan) : (s.setChan a v).hostBudget = s.hostBudget := rfl
@[simp] theorem State.setChan_heldHost (a : Nat) (v : Chan) : (s.setChan a v).heldHost = s.heldHost := rfl
@[simp] theorem State.setChan_scrubA (a : Nat) (v : Chan) : (s.setChan a v).scrubA = s.scrubA := rfl
@[simp] theorem State.setChan_scrubB (a : Nat) (v : Chan) : (s.setChan a v).scrubB = s.scrubB := rfl
@[simp] theorem State.setChan_scrubAtA (a : Nat) (v : Chan) : (s.setChan a v).scrubAtA = s.scrubAtA := rfl
@[simp] theorem State.setChan_scrubAtB (a : Nat) (v : Chan) : (s.setChan a v).scrubAtB = s.scrubAtB := rfl
@[simp] theorem State.setChan_errAddrHeld (a : Nat) (v : Chan) : (s.setChan a v).errAddrHeld = s.errAddrHeld := rfl
@[simp] theorem State.setChan_acc_reg (a : Nat) (v : Chan) (k : Nat) : (s.setChan a v).reg k = s.reg k := rfl
@[simp] theorem State.setChan_acc_fld (a : Nat) (v : Chan) (k : Fld) : (s.setChan a v).fld k = s.fld k := rfl
@[simp] theorem State.setChan_acc_bit (a : Nat) (v : Chan) (k : Fld) : (s.setChan a v).bit k = s.bit k := rfl
@[simp] theorem State.setChan_acc_rcHost (a : Nat) (v : Chan) (k : Nat) : (s.setChan a v).rcHost k = s.rcHost k := rfl
@[simp] theorem State.setChan_acc_rcSpx1 (a : Nat) (v : Chan) (k : Nat) : (s.setChan a v).rcSpx1 k = s.rcSpx1 k := rfl
@[simp] theorem State.setChan_acc_rcBit (a : Nat) (v : Chan) (k : Fld) : (s.setChan a v).rcBit k = s.rcBit k := rfl
@[simp] theorem State.setChan_acc_winGet (a : Nat) (v : Chan) (k : Nat) : (s.setChan a v).winGet k = s.winGet k := rfl
@[simp] theorem State.setChan_acc_hbmByte (a : Nat) (v : Chan) (k : Nat) : (s.setChan a v).hbmByte k = s.hbmByte k := rfl
@[simp] theorem State.setChan_acc_q (a : Nat) (v : Chan) (k : Nat) : (s.setChan a v).q k = s.q k := rfl
@[simp] theorem State.setChan_acc_m (a : Nat) (v : Chan) (k : Nat) : (s.setChan a v).m k = s.m k := rfl
@[simp] theorem State.setChan_acc_r (a : Nat) (v : Chan) (k : Nat) : (s.setChan a v).r k = s.r k := rfl
@[simp] theorem State.setChan_acc_pmu (a : Nat) (v : Chan) (k : Nat) : (s.setChan a v).pmu k = s.pmu k := rfl
@[simp] theorem State.setChan_acc_sg (a : Nat) (v : Chan) (k : Nat) : (s.setChan a v).sg k = s.sg k := rfl
@[simp] theorem State.setChan_acc_ring (a : Nat) (v : Chan) (k : Nat) : (s.setChan a v).ring k = s.ring k := rfl
@[simp] theorem State.setChan_acc_tdc (a : Nat) (v : Chan) (k : Nat) : (s.setChan a v).tdc k = s.tdc k := rfl
@[simp] theorem State.setChan_acc_dll (a : Nat) (v : Chan) (k : Nat) : (s.setChan a v).dll k = s.dll k := rfl
@[simp] theorem State.setChan_acc_port (a : Nat) (v : Chan) (k : Nat) : (s.setChan a v).port k = s.port k := rfl
@[simp] theorem State.setChan_acc_calCh (a : Nat) (v : Chan) (k : Nat) : (s.setChan a v).calCh k = s.calCh k := rfl
@[simp] theorem State.setChan_acc_txn (a : Nat) (v : Chan) (k : Nat) : (s.setChan a v).txn k = s.txn k := rfl
@[simp] theorem State.setChan_acc_evc (a : Nat) (v : Chan) (k : Nat) : (s.setChan a v).evc k = s.evc k := rfl
@[simp] theorem State.setChan_acc_ent (a : Nat) (v : Chan) (k : Nat) : (s.setChan a v).ent k = s.ent k := rfl
@[simp] theorem State.setChan_acc_srcCnt (a : Nat) (v : Chan) (k : Nat) : (s.setChan a v).srcCnt k = s.srcCnt k := rfl

/-! ### setPmu -/

@[simp] theorem State.setPmu_pending (a : Nat) (v : Pmu) : (s.setPmu a v).pending = s.pending := rfl
@[simp] theorem State.setPmu_now (a : Nat) (v : Pmu) : (s.setPmu a v).now = s.now := rfl
@[simp] theorem State.setPmu_freeCount (a : Nat) (v : Pmu) : (s.setPmu a v).freeCount = s.freeCount := rfl
@[simp] theorem State.setPmu_regs (a : Nat) (v : Pmu) : (s.setPmu a v).regs = s.regs := rfl
@[simp] theorem State.setPmu_copyB (a : Nat) (v : Pmu) : (s.setPmu a v).copyB = s.copyB := rfl
@[simp] theorem State.setPmu_copyC (a : Nat) (v : Pmu) : (s.setPmu a v).copyC = s.copyC := rfl
@[simp] theorem State.setPmu_hostRc (a : Nat) (v : Pmu) : (s.setPmu a v).hostRc = s.hostRc := rfl
@[simp] theorem State.setPmu_spx1Rc (a : Nat) (v : Pmu) : (s.setPmu a v).spx1Rc = s.spx1Rc := rfl
@[simp] theorem State.setPmu_holdH (a : Nat) (v : Pmu) : (s.setPmu a v).holdH = s.holdH := rfl
@[simp] theorem State.setPmu_holdS (a : Nat) (v : Pmu) : (s.setPmu a v).holdS = s.holdS := rfl
@[simp] theorem State.setPmu_posted (a : Nat) (v : Pmu) : (s.setPmu a v).posted = s.posted := rfl
@[simp] theorem State.setPmu_handed (a : Nat) (v : Pmu) : (s.setPmu a v).handed = s.handed := rfl
@[simp] theorem State.setPmu_cycle (a : Nat) (v : Pmu) : (s.setPmu a v).cycle = s.cycle := rfl
@[simp] theorem State.setPmu_win (a : Nat) (v : Pmu) : (s.setPmu a v).win = s.win := rfl
@[simp] theorem State.setPmu_hbm (a : Nat) (v : Pmu) : (s.setPmu a v).hbm = s.hbm := rfl
@[simp] theorem State.setPmu_msgs (a : Nat) (v : Pmu) : (s.setPmu a v).msgs = s.msgs := rfl
@[simp] theorem State.setPmu_hostMem (a : Nat) (v : Pmu) : (s.setPmu a v).hostMem = s.hostMem := rfl
@[simp] theorem State.setPmu_reads (a : Nat) (v : Pmu) : (s.setPmu a v).reads = s.reads := rfl
@[simp] theorem State.setPmu_ep (a : Nat) (v : Pmu) : (s.setPmu a v).ep = s.ep := rfl
@[simp] theorem State.setPmu_linkUp (a : Nat) (v : Pmu) : (s.setPmu a v).linkUp = s.linkUp := rfl
@[simp] theorem State.setPmu_pcie (a : Nat) (v : Pmu) : (s.setPmu a v).pcie = s.pcie := rfl
@[simp] theorem State.setPmu_evcs (a : Nat) (v : Pmu) : (s.setPmu a v).evcs = s.evcs := rfl
@[simp] theorem State.setPmu_txns (a : Nat) (v : Pmu) : (s.setPmu a v).txns = s.txns := rfl
@[simp] theorem State.setPmu_reported (a : Nat) (v : Pmu) : (s.setPmu a v).reported = s.reported := rfl
@[simp] theorem State.setPmu_srcs (a : Nat) (v : Pmu) : (s.setPmu a v).srcs = s.srcs := rfl
@[simp] theorem State.setPmu_ents (a : Nat) (v : Pmu) : (s.setPmu a v).ents = s.ents := rfl
@[simp] theorem State.setPmu_feHost (a : Nat) (v : Pmu) : (s.setPmu a v).feHost = s.feHost := rfl
@[simp] theorem State.setPmu_feSpx1 (a : Nat) (v : Pmu) : (s.setPmu a v).feSpx1 = s.feSpx1 := rfl
@[simp] theorem State.setPmu_qs (a : Nat) (v : Pmu) : (s.setPmu a v).qs = s.qs := rfl
@[simp] theorem State.setPmu_qm (a : Nat) (v : Pmu) : (s.setPmu a v).qm = s.qm := rfl
@[simp] theorem State.setPmu_qr (a : Nat) (v : Pmu) : (s.setPmu a v).qr = s.qr := rfl
@[simp] theorem State.setPmu_chans (a : Nat) (v : Pmu) : (s.setPmu a v).chans = s.chans := rfl
@[simp] theorem State.setPmu_adcs (a : Nat) (v : Pmu) : (s.setPmu a v).adcs = s.adcs := rfl
@[simp] theorem State.setPmu_adcAt (a : Nat) (v : Pmu) : (s.setPmu a v).adcAt = s.adcAt := rfl
@[simp] theorem State.setPmu_sgs (a : Nat) (v : Pmu) : (s.setPmu a v).sgs = s.sgs := rfl
@[simp] theorem State.setPmu_led (a : Nat) (v : Pmu) : (s.setPmu a v).led = s.led := rfl
@[simp] theorem State.setPmu_rings (a : Nat) (v : Pmu) : (s.setPmu a v).rings = s.rings := rfl
@[simp] theorem State.setPmu_pumpNext (a : Nat) (v : Pmu) : (s.setPmu a v).pumpNext = s.pumpNext := rfl
@[simp] theorem State.setPmu_pumpAt (a : Nat) (v : Pmu) : (s.setPmu a v).pumpAt = s.pumpAt := rfl
@[simp] theorem State.setPmu_pumpUsed (a : Nat) (v : Pmu) : (s.setPmu a v).pumpUsed = s.pumpUsed := rfl
@[simp] theorem State.setPmu_tdcs (a : Nat) (v : Pmu) : (s.setPmu a v).tdcs = s.tdcs := rfl
@[simp] theorem State.setPmu_dlls (a : Nat) (v : Pmu) : (s.setPmu a v).dlls = s.dlls := rfl
@[simp] theorem State.setPmu_lace (a : Nat) (v : Pmu) : (s.setPmu a v).lace = s.lace := rfl
@[simp] theorem State.setPmu_ports (a : Nat) (v : Pmu) : (s.setPmu a v).ports = s.ports := rfl
@[simp] theorem State.setPmu_spx1 (a : Nat) (v : Pmu) : (s.setPmu a v).spx1 = s.spx1 := rfl
@[simp] theorem State.setPmu_calch (a : Nat) (v : Pmu) : (s.setPmu a v).calch = s.calch := rfl
@[simp] theorem State.setPmu_cal (a : Nat) (v : Pmu) : (s.setPmu a v).cal = s.cal := rfl
@[simp] theorem State.setPmu_nvm (a : Nat) (v : Pmu) : (s.setPmu a v).nvm = s.nvm := rfl
@[simp] theorem State.setPmu_clk (a : Nat) (v : Pmu) : (s.setPmu a v).clk = s.clk := rfl
@[simp] theorem State.setPmu_pwr (a : Nat) (v : Pmu) : (s.setPmu a v).pwr = s.pwr := rfl
@[simp] theorem State.setPmu_thm (a : Nat) (v : Pmu) : (s.setPmu a v).thm = s.thm := rfl
@[simp] theorem State.setPmu_boot (a : Nat) (v : Pmu) : (s.setPmu a v).boot = s.boot := rfl
@[simp] theorem State.setPmu_straps (a : Nat) (v : Pmu) : (s.setPmu a v).straps = s.straps := rfl
@[simp] theorem State.setPmu_installed (a : Nat) (v : Pmu) : (s.setPmu a v).installed = s.installed := rfl
@[simp] theorem State.setPmu_tap (a : Nat) (v : Pmu) : (s.setPmu a v).tap = s.tap := rfl
@[simp] theorem State.setPmu_hostBudget (a : Nat) (v : Pmu) : (s.setPmu a v).hostBudget = s.hostBudget := rfl
@[simp] theorem State.setPmu_heldHost (a : Nat) (v : Pmu) : (s.setPmu a v).heldHost = s.heldHost := rfl
@[simp] theorem State.setPmu_scrubA (a : Nat) (v : Pmu) : (s.setPmu a v).scrubA = s.scrubA := rfl
@[simp] theorem State.setPmu_scrubB (a : Nat) (v : Pmu) : (s.setPmu a v).scrubB = s.scrubB := rfl
@[simp] theorem State.setPmu_scrubAtA (a : Nat) (v : Pmu) : (s.setPmu a v).scrubAtA = s.scrubAtA := rfl
@[simp] theorem State.setPmu_scrubAtB (a : Nat) (v : Pmu) : (s.setPmu a v).scrubAtB = s.scrubAtB := rfl
@[simp] theorem State.setPmu_errAddrHeld (a : Nat) (v : Pmu) : (s.setPmu a v).errAddrHeld = s.errAddrHeld := rfl
@[simp] theorem State.setPmu_acc_reg (a : Nat) (v : Pmu) (k : Nat) : (s.setPmu a v).reg k = s.reg k := rfl
@[simp] theorem State.setPmu_acc_fld (a : Nat) (v : Pmu) (k : Fld) : (s.setPmu a v).fld k = s.fld k := rfl
@[simp] theorem State.setPmu_acc_bit (a : Nat) (v : Pmu) (k : Fld) : (s.setPmu a v).bit k = s.bit k := rfl
@[simp] theorem State.setPmu_acc_rcHost (a : Nat) (v : Pmu) (k : Nat) : (s.setPmu a v).rcHost k = s.rcHost k := rfl
@[simp] theorem State.setPmu_acc_rcSpx1 (a : Nat) (v : Pmu) (k : Nat) : (s.setPmu a v).rcSpx1 k = s.rcSpx1 k := rfl
@[simp] theorem State.setPmu_acc_rcBit (a : Nat) (v : Pmu) (k : Fld) : (s.setPmu a v).rcBit k = s.rcBit k := rfl
@[simp] theorem State.setPmu_acc_winGet (a : Nat) (v : Pmu) (k : Nat) : (s.setPmu a v).winGet k = s.winGet k := rfl
@[simp] theorem State.setPmu_acc_hbmByte (a : Nat) (v : Pmu) (k : Nat) : (s.setPmu a v).hbmByte k = s.hbmByte k := rfl
@[simp] theorem State.setPmu_acc_q (a : Nat) (v : Pmu) (k : Nat) : (s.setPmu a v).q k = s.q k := rfl
@[simp] theorem State.setPmu_acc_m (a : Nat) (v : Pmu) (k : Nat) : (s.setPmu a v).m k = s.m k := rfl
@[simp] theorem State.setPmu_acc_r (a : Nat) (v : Pmu) (k : Nat) : (s.setPmu a v).r k = s.r k := rfl
@[simp] theorem State.setPmu_acc_chan (a : Nat) (v : Pmu) (k : Nat) : (s.setPmu a v).chan k = s.chan k := rfl
@[simp] theorem State.setPmu_acc_sg (a : Nat) (v : Pmu) (k : Nat) : (s.setPmu a v).sg k = s.sg k := rfl
@[simp] theorem State.setPmu_acc_ring (a : Nat) (v : Pmu) (k : Nat) : (s.setPmu a v).ring k = s.ring k := rfl
@[simp] theorem State.setPmu_acc_tdc (a : Nat) (v : Pmu) (k : Nat) : (s.setPmu a v).tdc k = s.tdc k := rfl
@[simp] theorem State.setPmu_acc_dll (a : Nat) (v : Pmu) (k : Nat) : (s.setPmu a v).dll k = s.dll k := rfl
@[simp] theorem State.setPmu_acc_port (a : Nat) (v : Pmu) (k : Nat) : (s.setPmu a v).port k = s.port k := rfl
@[simp] theorem State.setPmu_acc_calCh (a : Nat) (v : Pmu) (k : Nat) : (s.setPmu a v).calCh k = s.calCh k := rfl
@[simp] theorem State.setPmu_acc_txn (a : Nat) (v : Pmu) (k : Nat) : (s.setPmu a v).txn k = s.txn k := rfl
@[simp] theorem State.setPmu_acc_evc (a : Nat) (v : Pmu) (k : Nat) : (s.setPmu a v).evc k = s.evc k := rfl
@[simp] theorem State.setPmu_acc_ent (a : Nat) (v : Pmu) (k : Nat) : (s.setPmu a v).ent k = s.ent k := rfl
@[simp] theorem State.setPmu_acc_srcCnt (a : Nat) (v : Pmu) (k : Nat) : (s.setPmu a v).srcCnt k = s.srcCnt k := rfl

/-! ### setSg -/

@[simp] theorem State.setSg_pending (a : Nat) (v : Sg) : (s.setSg a v).pending = s.pending := rfl
@[simp] theorem State.setSg_now (a : Nat) (v : Sg) : (s.setSg a v).now = s.now := rfl
@[simp] theorem State.setSg_freeCount (a : Nat) (v : Sg) : (s.setSg a v).freeCount = s.freeCount := rfl
@[simp] theorem State.setSg_regs (a : Nat) (v : Sg) : (s.setSg a v).regs = s.regs := rfl
@[simp] theorem State.setSg_copyB (a : Nat) (v : Sg) : (s.setSg a v).copyB = s.copyB := rfl
@[simp] theorem State.setSg_copyC (a : Nat) (v : Sg) : (s.setSg a v).copyC = s.copyC := rfl
@[simp] theorem State.setSg_hostRc (a : Nat) (v : Sg) : (s.setSg a v).hostRc = s.hostRc := rfl
@[simp] theorem State.setSg_spx1Rc (a : Nat) (v : Sg) : (s.setSg a v).spx1Rc = s.spx1Rc := rfl
@[simp] theorem State.setSg_holdH (a : Nat) (v : Sg) : (s.setSg a v).holdH = s.holdH := rfl
@[simp] theorem State.setSg_holdS (a : Nat) (v : Sg) : (s.setSg a v).holdS = s.holdS := rfl
@[simp] theorem State.setSg_posted (a : Nat) (v : Sg) : (s.setSg a v).posted = s.posted := rfl
@[simp] theorem State.setSg_handed (a : Nat) (v : Sg) : (s.setSg a v).handed = s.handed := rfl
@[simp] theorem State.setSg_cycle (a : Nat) (v : Sg) : (s.setSg a v).cycle = s.cycle := rfl
@[simp] theorem State.setSg_win (a : Nat) (v : Sg) : (s.setSg a v).win = s.win := rfl
@[simp] theorem State.setSg_hbm (a : Nat) (v : Sg) : (s.setSg a v).hbm = s.hbm := rfl
@[simp] theorem State.setSg_msgs (a : Nat) (v : Sg) : (s.setSg a v).msgs = s.msgs := rfl
@[simp] theorem State.setSg_hostMem (a : Nat) (v : Sg) : (s.setSg a v).hostMem = s.hostMem := rfl
@[simp] theorem State.setSg_reads (a : Nat) (v : Sg) : (s.setSg a v).reads = s.reads := rfl
@[simp] theorem State.setSg_ep (a : Nat) (v : Sg) : (s.setSg a v).ep = s.ep := rfl
@[simp] theorem State.setSg_linkUp (a : Nat) (v : Sg) : (s.setSg a v).linkUp = s.linkUp := rfl
@[simp] theorem State.setSg_pcie (a : Nat) (v : Sg) : (s.setSg a v).pcie = s.pcie := rfl
@[simp] theorem State.setSg_evcs (a : Nat) (v : Sg) : (s.setSg a v).evcs = s.evcs := rfl
@[simp] theorem State.setSg_txns (a : Nat) (v : Sg) : (s.setSg a v).txns = s.txns := rfl
@[simp] theorem State.setSg_reported (a : Nat) (v : Sg) : (s.setSg a v).reported = s.reported := rfl
@[simp] theorem State.setSg_srcs (a : Nat) (v : Sg) : (s.setSg a v).srcs = s.srcs := rfl
@[simp] theorem State.setSg_ents (a : Nat) (v : Sg) : (s.setSg a v).ents = s.ents := rfl
@[simp] theorem State.setSg_feHost (a : Nat) (v : Sg) : (s.setSg a v).feHost = s.feHost := rfl
@[simp] theorem State.setSg_feSpx1 (a : Nat) (v : Sg) : (s.setSg a v).feSpx1 = s.feSpx1 := rfl
@[simp] theorem State.setSg_qs (a : Nat) (v : Sg) : (s.setSg a v).qs = s.qs := rfl
@[simp] theorem State.setSg_qm (a : Nat) (v : Sg) : (s.setSg a v).qm = s.qm := rfl
@[simp] theorem State.setSg_qr (a : Nat) (v : Sg) : (s.setSg a v).qr = s.qr := rfl
@[simp] theorem State.setSg_chans (a : Nat) (v : Sg) : (s.setSg a v).chans = s.chans := rfl
@[simp] theorem State.setSg_pmus (a : Nat) (v : Sg) : (s.setSg a v).pmus = s.pmus := rfl
@[simp] theorem State.setSg_adcs (a : Nat) (v : Sg) : (s.setSg a v).adcs = s.adcs := rfl
@[simp] theorem State.setSg_adcAt (a : Nat) (v : Sg) : (s.setSg a v).adcAt = s.adcAt := rfl
@[simp] theorem State.setSg_led (a : Nat) (v : Sg) : (s.setSg a v).led = s.led := rfl
@[simp] theorem State.setSg_rings (a : Nat) (v : Sg) : (s.setSg a v).rings = s.rings := rfl
@[simp] theorem State.setSg_pumpNext (a : Nat) (v : Sg) : (s.setSg a v).pumpNext = s.pumpNext := rfl
@[simp] theorem State.setSg_pumpAt (a : Nat) (v : Sg) : (s.setSg a v).pumpAt = s.pumpAt := rfl
@[simp] theorem State.setSg_pumpUsed (a : Nat) (v : Sg) : (s.setSg a v).pumpUsed = s.pumpUsed := rfl
@[simp] theorem State.setSg_tdcs (a : Nat) (v : Sg) : (s.setSg a v).tdcs = s.tdcs := rfl
@[simp] theorem State.setSg_dlls (a : Nat) (v : Sg) : (s.setSg a v).dlls = s.dlls := rfl
@[simp] theorem State.setSg_lace (a : Nat) (v : Sg) : (s.setSg a v).lace = s.lace := rfl
@[simp] theorem State.setSg_ports (a : Nat) (v : Sg) : (s.setSg a v).ports = s.ports := rfl
@[simp] theorem State.setSg_spx1 (a : Nat) (v : Sg) : (s.setSg a v).spx1 = s.spx1 := rfl
@[simp] theorem State.setSg_calch (a : Nat) (v : Sg) : (s.setSg a v).calch = s.calch := rfl
@[simp] theorem State.setSg_cal (a : Nat) (v : Sg) : (s.setSg a v).cal = s.cal := rfl
@[simp] theorem State.setSg_nvm (a : Nat) (v : Sg) : (s.setSg a v).nvm = s.nvm := rfl
@[simp] theorem State.setSg_clk (a : Nat) (v : Sg) : (s.setSg a v).clk = s.clk := rfl
@[simp] theorem State.setSg_pwr (a : Nat) (v : Sg) : (s.setSg a v).pwr = s.pwr := rfl
@[simp] theorem State.setSg_thm (a : Nat) (v : Sg) : (s.setSg a v).thm = s.thm := rfl
@[simp] theorem State.setSg_boot (a : Nat) (v : Sg) : (s.setSg a v).boot = s.boot := rfl
@[simp] theorem State.setSg_straps (a : Nat) (v : Sg) : (s.setSg a v).straps = s.straps := rfl
@[simp] theorem State.setSg_installed (a : Nat) (v : Sg) : (s.setSg a v).installed = s.installed := rfl
@[simp] theorem State.setSg_tap (a : Nat) (v : Sg) : (s.setSg a v).tap = s.tap := rfl
@[simp] theorem State.setSg_hostBudget (a : Nat) (v : Sg) : (s.setSg a v).hostBudget = s.hostBudget := rfl
@[simp] theorem State.setSg_heldHost (a : Nat) (v : Sg) : (s.setSg a v).heldHost = s.heldHost := rfl
@[simp] theorem State.setSg_scrubA (a : Nat) (v : Sg) : (s.setSg a v).scrubA = s.scrubA := rfl
@[simp] theorem State.setSg_scrubB (a : Nat) (v : Sg) : (s.setSg a v).scrubB = s.scrubB := rfl
@[simp] theorem State.setSg_scrubAtA (a : Nat) (v : Sg) : (s.setSg a v).scrubAtA = s.scrubAtA := rfl
@[simp] theorem State.setSg_scrubAtB (a : Nat) (v : Sg) : (s.setSg a v).scrubAtB = s.scrubAtB := rfl
@[simp] theorem State.setSg_errAddrHeld (a : Nat) (v : Sg) : (s.setSg a v).errAddrHeld = s.errAddrHeld := rfl
@[simp] theorem State.setSg_acc_reg (a : Nat) (v : Sg) (k : Nat) : (s.setSg a v).reg k = s.reg k := rfl
@[simp] theorem State.setSg_acc_fld (a : Nat) (v : Sg) (k : Fld) : (s.setSg a v).fld k = s.fld k := rfl
@[simp] theorem State.setSg_acc_bit (a : Nat) (v : Sg) (k : Fld) : (s.setSg a v).bit k = s.bit k := rfl
@[simp] theorem State.setSg_acc_rcHost (a : Nat) (v : Sg) (k : Nat) : (s.setSg a v).rcHost k = s.rcHost k := rfl
@[simp] theorem State.setSg_acc_rcSpx1 (a : Nat) (v : Sg) (k : Nat) : (s.setSg a v).rcSpx1 k = s.rcSpx1 k := rfl
@[simp] theorem State.setSg_acc_rcBit (a : Nat) (v : Sg) (k : Fld) : (s.setSg a v).rcBit k = s.rcBit k := rfl
@[simp] theorem State.setSg_acc_winGet (a : Nat) (v : Sg) (k : Nat) : (s.setSg a v).winGet k = s.winGet k := rfl
@[simp] theorem State.setSg_acc_hbmByte (a : Nat) (v : Sg) (k : Nat) : (s.setSg a v).hbmByte k = s.hbmByte k := rfl
@[simp] theorem State.setSg_acc_q (a : Nat) (v : Sg) (k : Nat) : (s.setSg a v).q k = s.q k := rfl
@[simp] theorem State.setSg_acc_m (a : Nat) (v : Sg) (k : Nat) : (s.setSg a v).m k = s.m k := rfl
@[simp] theorem State.setSg_acc_r (a : Nat) (v : Sg) (k : Nat) : (s.setSg a v).r k = s.r k := rfl
@[simp] theorem State.setSg_acc_chan (a : Nat) (v : Sg) (k : Nat) : (s.setSg a v).chan k = s.chan k := rfl
@[simp] theorem State.setSg_acc_pmu (a : Nat) (v : Sg) (k : Nat) : (s.setSg a v).pmu k = s.pmu k := rfl
@[simp] theorem State.setSg_acc_ring (a : Nat) (v : Sg) (k : Nat) : (s.setSg a v).ring k = s.ring k := rfl
@[simp] theorem State.setSg_acc_tdc (a : Nat) (v : Sg) (k : Nat) : (s.setSg a v).tdc k = s.tdc k := rfl
@[simp] theorem State.setSg_acc_dll (a : Nat) (v : Sg) (k : Nat) : (s.setSg a v).dll k = s.dll k := rfl
@[simp] theorem State.setSg_acc_port (a : Nat) (v : Sg) (k : Nat) : (s.setSg a v).port k = s.port k := rfl
@[simp] theorem State.setSg_acc_calCh (a : Nat) (v : Sg) (k : Nat) : (s.setSg a v).calCh k = s.calCh k := rfl
@[simp] theorem State.setSg_acc_txn (a : Nat) (v : Sg) (k : Nat) : (s.setSg a v).txn k = s.txn k := rfl
@[simp] theorem State.setSg_acc_evc (a : Nat) (v : Sg) (k : Nat) : (s.setSg a v).evc k = s.evc k := rfl
@[simp] theorem State.setSg_acc_ent (a : Nat) (v : Sg) (k : Nat) : (s.setSg a v).ent k = s.ent k := rfl
@[simp] theorem State.setSg_acc_srcCnt (a : Nat) (v : Sg) (k : Nat) : (s.setSg a v).srcCnt k = s.srcCnt k := rfl

/-! ### setRing -/

@[simp] theorem State.setRing_pending (a : Nat) (v : Ring) : (s.setRing a v).pending = s.pending := rfl
@[simp] theorem State.setRing_now (a : Nat) (v : Ring) : (s.setRing a v).now = s.now := rfl
@[simp] theorem State.setRing_freeCount (a : Nat) (v : Ring) : (s.setRing a v).freeCount = s.freeCount := rfl
@[simp] theorem State.setRing_regs (a : Nat) (v : Ring) : (s.setRing a v).regs = s.regs := rfl
@[simp] theorem State.setRing_copyB (a : Nat) (v : Ring) : (s.setRing a v).copyB = s.copyB := rfl
@[simp] theorem State.setRing_copyC (a : Nat) (v : Ring) : (s.setRing a v).copyC = s.copyC := rfl
@[simp] theorem State.setRing_hostRc (a : Nat) (v : Ring) : (s.setRing a v).hostRc = s.hostRc := rfl
@[simp] theorem State.setRing_spx1Rc (a : Nat) (v : Ring) : (s.setRing a v).spx1Rc = s.spx1Rc := rfl
@[simp] theorem State.setRing_holdH (a : Nat) (v : Ring) : (s.setRing a v).holdH = s.holdH := rfl
@[simp] theorem State.setRing_holdS (a : Nat) (v : Ring) : (s.setRing a v).holdS = s.holdS := rfl
@[simp] theorem State.setRing_posted (a : Nat) (v : Ring) : (s.setRing a v).posted = s.posted := rfl
@[simp] theorem State.setRing_handed (a : Nat) (v : Ring) : (s.setRing a v).handed = s.handed := rfl
@[simp] theorem State.setRing_cycle (a : Nat) (v : Ring) : (s.setRing a v).cycle = s.cycle := rfl
@[simp] theorem State.setRing_win (a : Nat) (v : Ring) : (s.setRing a v).win = s.win := rfl
@[simp] theorem State.setRing_hbm (a : Nat) (v : Ring) : (s.setRing a v).hbm = s.hbm := rfl
@[simp] theorem State.setRing_msgs (a : Nat) (v : Ring) : (s.setRing a v).msgs = s.msgs := rfl
@[simp] theorem State.setRing_hostMem (a : Nat) (v : Ring) : (s.setRing a v).hostMem = s.hostMem := rfl
@[simp] theorem State.setRing_reads (a : Nat) (v : Ring) : (s.setRing a v).reads = s.reads := rfl
@[simp] theorem State.setRing_ep (a : Nat) (v : Ring) : (s.setRing a v).ep = s.ep := rfl
@[simp] theorem State.setRing_linkUp (a : Nat) (v : Ring) : (s.setRing a v).linkUp = s.linkUp := rfl
@[simp] theorem State.setRing_pcie (a : Nat) (v : Ring) : (s.setRing a v).pcie = s.pcie := rfl
@[simp] theorem State.setRing_evcs (a : Nat) (v : Ring) : (s.setRing a v).evcs = s.evcs := rfl
@[simp] theorem State.setRing_txns (a : Nat) (v : Ring) : (s.setRing a v).txns = s.txns := rfl
@[simp] theorem State.setRing_reported (a : Nat) (v : Ring) : (s.setRing a v).reported = s.reported := rfl
@[simp] theorem State.setRing_srcs (a : Nat) (v : Ring) : (s.setRing a v).srcs = s.srcs := rfl
@[simp] theorem State.setRing_ents (a : Nat) (v : Ring) : (s.setRing a v).ents = s.ents := rfl
@[simp] theorem State.setRing_feHost (a : Nat) (v : Ring) : (s.setRing a v).feHost = s.feHost := rfl
@[simp] theorem State.setRing_feSpx1 (a : Nat) (v : Ring) : (s.setRing a v).feSpx1 = s.feSpx1 := rfl
@[simp] theorem State.setRing_qs (a : Nat) (v : Ring) : (s.setRing a v).qs = s.qs := rfl
@[simp] theorem State.setRing_qm (a : Nat) (v : Ring) : (s.setRing a v).qm = s.qm := rfl
@[simp] theorem State.setRing_qr (a : Nat) (v : Ring) : (s.setRing a v).qr = s.qr := rfl
@[simp] theorem State.setRing_chans (a : Nat) (v : Ring) : (s.setRing a v).chans = s.chans := rfl
@[simp] theorem State.setRing_pmus (a : Nat) (v : Ring) : (s.setRing a v).pmus = s.pmus := rfl
@[simp] theorem State.setRing_adcs (a : Nat) (v : Ring) : (s.setRing a v).adcs = s.adcs := rfl
@[simp] theorem State.setRing_adcAt (a : Nat) (v : Ring) : (s.setRing a v).adcAt = s.adcAt := rfl
@[simp] theorem State.setRing_sgs (a : Nat) (v : Ring) : (s.setRing a v).sgs = s.sgs := rfl
@[simp] theorem State.setRing_led (a : Nat) (v : Ring) : (s.setRing a v).led = s.led := rfl
@[simp] theorem State.setRing_pumpNext (a : Nat) (v : Ring) : (s.setRing a v).pumpNext = s.pumpNext := rfl
@[simp] theorem State.setRing_pumpAt (a : Nat) (v : Ring) : (s.setRing a v).pumpAt = s.pumpAt := rfl
@[simp] theorem State.setRing_pumpUsed (a : Nat) (v : Ring) : (s.setRing a v).pumpUsed = s.pumpUsed := rfl
@[simp] theorem State.setRing_tdcs (a : Nat) (v : Ring) : (s.setRing a v).tdcs = s.tdcs := rfl
@[simp] theorem State.setRing_dlls (a : Nat) (v : Ring) : (s.setRing a v).dlls = s.dlls := rfl
@[simp] theorem State.setRing_lace (a : Nat) (v : Ring) : (s.setRing a v).lace = s.lace := rfl
@[simp] theorem State.setRing_ports (a : Nat) (v : Ring) : (s.setRing a v).ports = s.ports := rfl
@[simp] theorem State.setRing_spx1 (a : Nat) (v : Ring) : (s.setRing a v).spx1 = s.spx1 := rfl
@[simp] theorem State.setRing_calch (a : Nat) (v : Ring) : (s.setRing a v).calch = s.calch := rfl
@[simp] theorem State.setRing_cal (a : Nat) (v : Ring) : (s.setRing a v).cal = s.cal := rfl
@[simp] theorem State.setRing_nvm (a : Nat) (v : Ring) : (s.setRing a v).nvm = s.nvm := rfl
@[simp] theorem State.setRing_clk (a : Nat) (v : Ring) : (s.setRing a v).clk = s.clk := rfl
@[simp] theorem State.setRing_pwr (a : Nat) (v : Ring) : (s.setRing a v).pwr = s.pwr := rfl
@[simp] theorem State.setRing_thm (a : Nat) (v : Ring) : (s.setRing a v).thm = s.thm := rfl
@[simp] theorem State.setRing_boot (a : Nat) (v : Ring) : (s.setRing a v).boot = s.boot := rfl
@[simp] theorem State.setRing_straps (a : Nat) (v : Ring) : (s.setRing a v).straps = s.straps := rfl
@[simp] theorem State.setRing_installed (a : Nat) (v : Ring) : (s.setRing a v).installed = s.installed := rfl
@[simp] theorem State.setRing_tap (a : Nat) (v : Ring) : (s.setRing a v).tap = s.tap := rfl
@[simp] theorem State.setRing_hostBudget (a : Nat) (v : Ring) : (s.setRing a v).hostBudget = s.hostBudget := rfl
@[simp] theorem State.setRing_heldHost (a : Nat) (v : Ring) : (s.setRing a v).heldHost = s.heldHost := rfl
@[simp] theorem State.setRing_scrubA (a : Nat) (v : Ring) : (s.setRing a v).scrubA = s.scrubA := rfl
@[simp] theorem State.setRing_scrubB (a : Nat) (v : Ring) : (s.setRing a v).scrubB = s.scrubB := rfl
@[simp] theorem State.setRing_scrubAtA (a : Nat) (v : Ring) : (s.setRing a v).scrubAtA = s.scrubAtA := rfl
@[simp] theorem State.setRing_scrubAtB (a : Nat) (v : Ring) : (s.setRing a v).scrubAtB = s.scrubAtB := rfl
@[simp] theorem State.setRing_errAddrHeld (a : Nat) (v : Ring) : (s.setRing a v).errAddrHeld = s.errAddrHeld := rfl
@[simp] theorem State.setRing_acc_reg (a : Nat) (v : Ring) (k : Nat) : (s.setRing a v).reg k = s.reg k := rfl
@[simp] theorem State.setRing_acc_fld (a : Nat) (v : Ring) (k : Fld) : (s.setRing a v).fld k = s.fld k := rfl
@[simp] theorem State.setRing_acc_bit (a : Nat) (v : Ring) (k : Fld) : (s.setRing a v).bit k = s.bit k := rfl
@[simp] theorem State.setRing_acc_rcHost (a : Nat) (v : Ring) (k : Nat) : (s.setRing a v).rcHost k = s.rcHost k := rfl
@[simp] theorem State.setRing_acc_rcSpx1 (a : Nat) (v : Ring) (k : Nat) : (s.setRing a v).rcSpx1 k = s.rcSpx1 k := rfl
@[simp] theorem State.setRing_acc_rcBit (a : Nat) (v : Ring) (k : Fld) : (s.setRing a v).rcBit k = s.rcBit k := rfl
@[simp] theorem State.setRing_acc_winGet (a : Nat) (v : Ring) (k : Nat) : (s.setRing a v).winGet k = s.winGet k := rfl
@[simp] theorem State.setRing_acc_hbmByte (a : Nat) (v : Ring) (k : Nat) : (s.setRing a v).hbmByte k = s.hbmByte k := rfl
@[simp] theorem State.setRing_acc_q (a : Nat) (v : Ring) (k : Nat) : (s.setRing a v).q k = s.q k := rfl
@[simp] theorem State.setRing_acc_m (a : Nat) (v : Ring) (k : Nat) : (s.setRing a v).m k = s.m k := rfl
@[simp] theorem State.setRing_acc_r (a : Nat) (v : Ring) (k : Nat) : (s.setRing a v).r k = s.r k := rfl
@[simp] theorem State.setRing_acc_chan (a : Nat) (v : Ring) (k : Nat) : (s.setRing a v).chan k = s.chan k := rfl
@[simp] theorem State.setRing_acc_pmu (a : Nat) (v : Ring) (k : Nat) : (s.setRing a v).pmu k = s.pmu k := rfl
@[simp] theorem State.setRing_acc_sg (a : Nat) (v : Ring) (k : Nat) : (s.setRing a v).sg k = s.sg k := rfl
@[simp] theorem State.setRing_acc_tdc (a : Nat) (v : Ring) (k : Nat) : (s.setRing a v).tdc k = s.tdc k := rfl
@[simp] theorem State.setRing_acc_dll (a : Nat) (v : Ring) (k : Nat) : (s.setRing a v).dll k = s.dll k := rfl
@[simp] theorem State.setRing_acc_port (a : Nat) (v : Ring) (k : Nat) : (s.setRing a v).port k = s.port k := rfl
@[simp] theorem State.setRing_acc_calCh (a : Nat) (v : Ring) (k : Nat) : (s.setRing a v).calCh k = s.calCh k := rfl
@[simp] theorem State.setRing_acc_txn (a : Nat) (v : Ring) (k : Nat) : (s.setRing a v).txn k = s.txn k := rfl
@[simp] theorem State.setRing_acc_evc (a : Nat) (v : Ring) (k : Nat) : (s.setRing a v).evc k = s.evc k := rfl
@[simp] theorem State.setRing_acc_ent (a : Nat) (v : Ring) (k : Nat) : (s.setRing a v).ent k = s.ent k := rfl
@[simp] theorem State.setRing_acc_srcCnt (a : Nat) (v : Ring) (k : Nat) : (s.setRing a v).srcCnt k = s.srcCnt k := rfl

/-! ### setTdc -/

@[simp] theorem State.setTdc_pending (a : Nat) (v : Tdc) : (s.setTdc a v).pending = s.pending := rfl
@[simp] theorem State.setTdc_now (a : Nat) (v : Tdc) : (s.setTdc a v).now = s.now := rfl
@[simp] theorem State.setTdc_freeCount (a : Nat) (v : Tdc) : (s.setTdc a v).freeCount = s.freeCount := rfl
@[simp] theorem State.setTdc_regs (a : Nat) (v : Tdc) : (s.setTdc a v).regs = s.regs := rfl
@[simp] theorem State.setTdc_copyB (a : Nat) (v : Tdc) : (s.setTdc a v).copyB = s.copyB := rfl
@[simp] theorem State.setTdc_copyC (a : Nat) (v : Tdc) : (s.setTdc a v).copyC = s.copyC := rfl
@[simp] theorem State.setTdc_hostRc (a : Nat) (v : Tdc) : (s.setTdc a v).hostRc = s.hostRc := rfl
@[simp] theorem State.setTdc_spx1Rc (a : Nat) (v : Tdc) : (s.setTdc a v).spx1Rc = s.spx1Rc := rfl
@[simp] theorem State.setTdc_holdH (a : Nat) (v : Tdc) : (s.setTdc a v).holdH = s.holdH := rfl
@[simp] theorem State.setTdc_holdS (a : Nat) (v : Tdc) : (s.setTdc a v).holdS = s.holdS := rfl
@[simp] theorem State.setTdc_posted (a : Nat) (v : Tdc) : (s.setTdc a v).posted = s.posted := rfl
@[simp] theorem State.setTdc_handed (a : Nat) (v : Tdc) : (s.setTdc a v).handed = s.handed := rfl
@[simp] theorem State.setTdc_cycle (a : Nat) (v : Tdc) : (s.setTdc a v).cycle = s.cycle := rfl
@[simp] theorem State.setTdc_win (a : Nat) (v : Tdc) : (s.setTdc a v).win = s.win := rfl
@[simp] theorem State.setTdc_hbm (a : Nat) (v : Tdc) : (s.setTdc a v).hbm = s.hbm := rfl
@[simp] theorem State.setTdc_msgs (a : Nat) (v : Tdc) : (s.setTdc a v).msgs = s.msgs := rfl
@[simp] theorem State.setTdc_hostMem (a : Nat) (v : Tdc) : (s.setTdc a v).hostMem = s.hostMem := rfl
@[simp] theorem State.setTdc_reads (a : Nat) (v : Tdc) : (s.setTdc a v).reads = s.reads := rfl
@[simp] theorem State.setTdc_ep (a : Nat) (v : Tdc) : (s.setTdc a v).ep = s.ep := rfl
@[simp] theorem State.setTdc_linkUp (a : Nat) (v : Tdc) : (s.setTdc a v).linkUp = s.linkUp := rfl
@[simp] theorem State.setTdc_pcie (a : Nat) (v : Tdc) : (s.setTdc a v).pcie = s.pcie := rfl
@[simp] theorem State.setTdc_evcs (a : Nat) (v : Tdc) : (s.setTdc a v).evcs = s.evcs := rfl
@[simp] theorem State.setTdc_txns (a : Nat) (v : Tdc) : (s.setTdc a v).txns = s.txns := rfl
@[simp] theorem State.setTdc_reported (a : Nat) (v : Tdc) : (s.setTdc a v).reported = s.reported := rfl
@[simp] theorem State.setTdc_srcs (a : Nat) (v : Tdc) : (s.setTdc a v).srcs = s.srcs := rfl
@[simp] theorem State.setTdc_ents (a : Nat) (v : Tdc) : (s.setTdc a v).ents = s.ents := rfl
@[simp] theorem State.setTdc_feHost (a : Nat) (v : Tdc) : (s.setTdc a v).feHost = s.feHost := rfl
@[simp] theorem State.setTdc_feSpx1 (a : Nat) (v : Tdc) : (s.setTdc a v).feSpx1 = s.feSpx1 := rfl
@[simp] theorem State.setTdc_qs (a : Nat) (v : Tdc) : (s.setTdc a v).qs = s.qs := rfl
@[simp] theorem State.setTdc_qm (a : Nat) (v : Tdc) : (s.setTdc a v).qm = s.qm := rfl
@[simp] theorem State.setTdc_qr (a : Nat) (v : Tdc) : (s.setTdc a v).qr = s.qr := rfl
@[simp] theorem State.setTdc_chans (a : Nat) (v : Tdc) : (s.setTdc a v).chans = s.chans := rfl
@[simp] theorem State.setTdc_pmus (a : Nat) (v : Tdc) : (s.setTdc a v).pmus = s.pmus := rfl
@[simp] theorem State.setTdc_adcs (a : Nat) (v : Tdc) : (s.setTdc a v).adcs = s.adcs := rfl
@[simp] theorem State.setTdc_adcAt (a : Nat) (v : Tdc) : (s.setTdc a v).adcAt = s.adcAt := rfl
@[simp] theorem State.setTdc_sgs (a : Nat) (v : Tdc) : (s.setTdc a v).sgs = s.sgs := rfl
@[simp] theorem State.setTdc_led (a : Nat) (v : Tdc) : (s.setTdc a v).led = s.led := rfl
@[simp] theorem State.setTdc_rings (a : Nat) (v : Tdc) : (s.setTdc a v).rings = s.rings := rfl
@[simp] theorem State.setTdc_pumpNext (a : Nat) (v : Tdc) : (s.setTdc a v).pumpNext = s.pumpNext := rfl
@[simp] theorem State.setTdc_pumpAt (a : Nat) (v : Tdc) : (s.setTdc a v).pumpAt = s.pumpAt := rfl
@[simp] theorem State.setTdc_pumpUsed (a : Nat) (v : Tdc) : (s.setTdc a v).pumpUsed = s.pumpUsed := rfl
@[simp] theorem State.setTdc_dlls (a : Nat) (v : Tdc) : (s.setTdc a v).dlls = s.dlls := rfl
@[simp] theorem State.setTdc_lace (a : Nat) (v : Tdc) : (s.setTdc a v).lace = s.lace := rfl
@[simp] theorem State.setTdc_ports (a : Nat) (v : Tdc) : (s.setTdc a v).ports = s.ports := rfl
@[simp] theorem State.setTdc_spx1 (a : Nat) (v : Tdc) : (s.setTdc a v).spx1 = s.spx1 := rfl
@[simp] theorem State.setTdc_calch (a : Nat) (v : Tdc) : (s.setTdc a v).calch = s.calch := rfl
@[simp] theorem State.setTdc_cal (a : Nat) (v : Tdc) : (s.setTdc a v).cal = s.cal := rfl
@[simp] theorem State.setTdc_nvm (a : Nat) (v : Tdc) : (s.setTdc a v).nvm = s.nvm := rfl
@[simp] theorem State.setTdc_clk (a : Nat) (v : Tdc) : (s.setTdc a v).clk = s.clk := rfl
@[simp] theorem State.setTdc_pwr (a : Nat) (v : Tdc) : (s.setTdc a v).pwr = s.pwr := rfl
@[simp] theorem State.setTdc_thm (a : Nat) (v : Tdc) : (s.setTdc a v).thm = s.thm := rfl
@[simp] theorem State.setTdc_boot (a : Nat) (v : Tdc) : (s.setTdc a v).boot = s.boot := rfl
@[simp] theorem State.setTdc_straps (a : Nat) (v : Tdc) : (s.setTdc a v).straps = s.straps := rfl
@[simp] theorem State.setTdc_installed (a : Nat) (v : Tdc) : (s.setTdc a v).installed = s.installed := rfl
@[simp] theorem State.setTdc_tap (a : Nat) (v : Tdc) : (s.setTdc a v).tap = s.tap := rfl
@[simp] theorem State.setTdc_hostBudget (a : Nat) (v : Tdc) : (s.setTdc a v).hostBudget = s.hostBudget := rfl
@[simp] theorem State.setTdc_heldHost (a : Nat) (v : Tdc) : (s.setTdc a v).heldHost = s.heldHost := rfl
@[simp] theorem State.setTdc_scrubA (a : Nat) (v : Tdc) : (s.setTdc a v).scrubA = s.scrubA := rfl
@[simp] theorem State.setTdc_scrubB (a : Nat) (v : Tdc) : (s.setTdc a v).scrubB = s.scrubB := rfl
@[simp] theorem State.setTdc_scrubAtA (a : Nat) (v : Tdc) : (s.setTdc a v).scrubAtA = s.scrubAtA := rfl
@[simp] theorem State.setTdc_scrubAtB (a : Nat) (v : Tdc) : (s.setTdc a v).scrubAtB = s.scrubAtB := rfl
@[simp] theorem State.setTdc_errAddrHeld (a : Nat) (v : Tdc) : (s.setTdc a v).errAddrHeld = s.errAddrHeld := rfl
@[simp] theorem State.setTdc_acc_reg (a : Nat) (v : Tdc) (k : Nat) : (s.setTdc a v).reg k = s.reg k := rfl
@[simp] theorem State.setTdc_acc_fld (a : Nat) (v : Tdc) (k : Fld) : (s.setTdc a v).fld k = s.fld k := rfl
@[simp] theorem State.setTdc_acc_bit (a : Nat) (v : Tdc) (k : Fld) : (s.setTdc a v).bit k = s.bit k := rfl
@[simp] theorem State.setTdc_acc_rcHost (a : Nat) (v : Tdc) (k : Nat) : (s.setTdc a v).rcHost k = s.rcHost k := rfl
@[simp] theorem State.setTdc_acc_rcSpx1 (a : Nat) (v : Tdc) (k : Nat) : (s.setTdc a v).rcSpx1 k = s.rcSpx1 k := rfl
@[simp] theorem State.setTdc_acc_rcBit (a : Nat) (v : Tdc) (k : Fld) : (s.setTdc a v).rcBit k = s.rcBit k := rfl
@[simp] theorem State.setTdc_acc_winGet (a : Nat) (v : Tdc) (k : Nat) : (s.setTdc a v).winGet k = s.winGet k := rfl
@[simp] theorem State.setTdc_acc_hbmByte (a : Nat) (v : Tdc) (k : Nat) : (s.setTdc a v).hbmByte k = s.hbmByte k := rfl
@[simp] theorem State.setTdc_acc_q (a : Nat) (v : Tdc) (k : Nat) : (s.setTdc a v).q k = s.q k := rfl
@[simp] theorem State.setTdc_acc_m (a : Nat) (v : Tdc) (k : Nat) : (s.setTdc a v).m k = s.m k := rfl
@[simp] theorem State.setTdc_acc_r (a : Nat) (v : Tdc) (k : Nat) : (s.setTdc a v).r k = s.r k := rfl
@[simp] theorem State.setTdc_acc_chan (a : Nat) (v : Tdc) (k : Nat) : (s.setTdc a v).chan k = s.chan k := rfl
@[simp] theorem State.setTdc_acc_pmu (a : Nat) (v : Tdc) (k : Nat) : (s.setTdc a v).pmu k = s.pmu k := rfl
@[simp] theorem State.setTdc_acc_sg (a : Nat) (v : Tdc) (k : Nat) : (s.setTdc a v).sg k = s.sg k := rfl
@[simp] theorem State.setTdc_acc_ring (a : Nat) (v : Tdc) (k : Nat) : (s.setTdc a v).ring k = s.ring k := rfl
@[simp] theorem State.setTdc_acc_dll (a : Nat) (v : Tdc) (k : Nat) : (s.setTdc a v).dll k = s.dll k := rfl
@[simp] theorem State.setTdc_acc_port (a : Nat) (v : Tdc) (k : Nat) : (s.setTdc a v).port k = s.port k := rfl
@[simp] theorem State.setTdc_acc_calCh (a : Nat) (v : Tdc) (k : Nat) : (s.setTdc a v).calCh k = s.calCh k := rfl
@[simp] theorem State.setTdc_acc_txn (a : Nat) (v : Tdc) (k : Nat) : (s.setTdc a v).txn k = s.txn k := rfl
@[simp] theorem State.setTdc_acc_evc (a : Nat) (v : Tdc) (k : Nat) : (s.setTdc a v).evc k = s.evc k := rfl
@[simp] theorem State.setTdc_acc_ent (a : Nat) (v : Tdc) (k : Nat) : (s.setTdc a v).ent k = s.ent k := rfl
@[simp] theorem State.setTdc_acc_srcCnt (a : Nat) (v : Tdc) (k : Nat) : (s.setTdc a v).srcCnt k = s.srcCnt k := rfl

/-! ### setDll -/

@[simp] theorem State.setDll_pending (a : Nat) (v : Dll) : (s.setDll a v).pending = s.pending := rfl
@[simp] theorem State.setDll_now (a : Nat) (v : Dll) : (s.setDll a v).now = s.now := rfl
@[simp] theorem State.setDll_freeCount (a : Nat) (v : Dll) : (s.setDll a v).freeCount = s.freeCount := rfl
@[simp] theorem State.setDll_regs (a : Nat) (v : Dll) : (s.setDll a v).regs = s.regs := rfl
@[simp] theorem State.setDll_copyB (a : Nat) (v : Dll) : (s.setDll a v).copyB = s.copyB := rfl
@[simp] theorem State.setDll_copyC (a : Nat) (v : Dll) : (s.setDll a v).copyC = s.copyC := rfl
@[simp] theorem State.setDll_hostRc (a : Nat) (v : Dll) : (s.setDll a v).hostRc = s.hostRc := rfl
@[simp] theorem State.setDll_spx1Rc (a : Nat) (v : Dll) : (s.setDll a v).spx1Rc = s.spx1Rc := rfl
@[simp] theorem State.setDll_holdH (a : Nat) (v : Dll) : (s.setDll a v).holdH = s.holdH := rfl
@[simp] theorem State.setDll_holdS (a : Nat) (v : Dll) : (s.setDll a v).holdS = s.holdS := rfl
@[simp] theorem State.setDll_posted (a : Nat) (v : Dll) : (s.setDll a v).posted = s.posted := rfl
@[simp] theorem State.setDll_handed (a : Nat) (v : Dll) : (s.setDll a v).handed = s.handed := rfl
@[simp] theorem State.setDll_cycle (a : Nat) (v : Dll) : (s.setDll a v).cycle = s.cycle := rfl
@[simp] theorem State.setDll_win (a : Nat) (v : Dll) : (s.setDll a v).win = s.win := rfl
@[simp] theorem State.setDll_hbm (a : Nat) (v : Dll) : (s.setDll a v).hbm = s.hbm := rfl
@[simp] theorem State.setDll_msgs (a : Nat) (v : Dll) : (s.setDll a v).msgs = s.msgs := rfl
@[simp] theorem State.setDll_hostMem (a : Nat) (v : Dll) : (s.setDll a v).hostMem = s.hostMem := rfl
@[simp] theorem State.setDll_reads (a : Nat) (v : Dll) : (s.setDll a v).reads = s.reads := rfl
@[simp] theorem State.setDll_ep (a : Nat) (v : Dll) : (s.setDll a v).ep = s.ep := rfl
@[simp] theorem State.setDll_linkUp (a : Nat) (v : Dll) : (s.setDll a v).linkUp = s.linkUp := rfl
@[simp] theorem State.setDll_pcie (a : Nat) (v : Dll) : (s.setDll a v).pcie = s.pcie := rfl
@[simp] theorem State.setDll_evcs (a : Nat) (v : Dll) : (s.setDll a v).evcs = s.evcs := rfl
@[simp] theorem State.setDll_txns (a : Nat) (v : Dll) : (s.setDll a v).txns = s.txns := rfl
@[simp] theorem State.setDll_reported (a : Nat) (v : Dll) : (s.setDll a v).reported = s.reported := rfl
@[simp] theorem State.setDll_srcs (a : Nat) (v : Dll) : (s.setDll a v).srcs = s.srcs := rfl
@[simp] theorem State.setDll_ents (a : Nat) (v : Dll) : (s.setDll a v).ents = s.ents := rfl
@[simp] theorem State.setDll_feHost (a : Nat) (v : Dll) : (s.setDll a v).feHost = s.feHost := rfl
@[simp] theorem State.setDll_feSpx1 (a : Nat) (v : Dll) : (s.setDll a v).feSpx1 = s.feSpx1 := rfl
@[simp] theorem State.setDll_qs (a : Nat) (v : Dll) : (s.setDll a v).qs = s.qs := rfl
@[simp] theorem State.setDll_qm (a : Nat) (v : Dll) : (s.setDll a v).qm = s.qm := rfl
@[simp] theorem State.setDll_qr (a : Nat) (v : Dll) : (s.setDll a v).qr = s.qr := rfl
@[simp] theorem State.setDll_chans (a : Nat) (v : Dll) : (s.setDll a v).chans = s.chans := rfl
@[simp] theorem State.setDll_pmus (a : Nat) (v : Dll) : (s.setDll a v).pmus = s.pmus := rfl
@[simp] theorem State.setDll_adcs (a : Nat) (v : Dll) : (s.setDll a v).adcs = s.adcs := rfl
@[simp] theorem State.setDll_adcAt (a : Nat) (v : Dll) : (s.setDll a v).adcAt = s.adcAt := rfl
@[simp] theorem State.setDll_sgs (a : Nat) (v : Dll) : (s.setDll a v).sgs = s.sgs := rfl
@[simp] theorem State.setDll_led (a : Nat) (v : Dll) : (s.setDll a v).led = s.led := rfl
@[simp] theorem State.setDll_rings (a : Nat) (v : Dll) : (s.setDll a v).rings = s.rings := rfl
@[simp] theorem State.setDll_pumpNext (a : Nat) (v : Dll) : (s.setDll a v).pumpNext = s.pumpNext := rfl
@[simp] theorem State.setDll_pumpAt (a : Nat) (v : Dll) : (s.setDll a v).pumpAt = s.pumpAt := rfl
@[simp] theorem State.setDll_pumpUsed (a : Nat) (v : Dll) : (s.setDll a v).pumpUsed = s.pumpUsed := rfl
@[simp] theorem State.setDll_tdcs (a : Nat) (v : Dll) : (s.setDll a v).tdcs = s.tdcs := rfl
@[simp] theorem State.setDll_lace (a : Nat) (v : Dll) : (s.setDll a v).lace = s.lace := rfl
@[simp] theorem State.setDll_ports (a : Nat) (v : Dll) : (s.setDll a v).ports = s.ports := rfl
@[simp] theorem State.setDll_spx1 (a : Nat) (v : Dll) : (s.setDll a v).spx1 = s.spx1 := rfl
@[simp] theorem State.setDll_calch (a : Nat) (v : Dll) : (s.setDll a v).calch = s.calch := rfl
@[simp] theorem State.setDll_cal (a : Nat) (v : Dll) : (s.setDll a v).cal = s.cal := rfl
@[simp] theorem State.setDll_nvm (a : Nat) (v : Dll) : (s.setDll a v).nvm = s.nvm := rfl
@[simp] theorem State.setDll_clk (a : Nat) (v : Dll) : (s.setDll a v).clk = s.clk := rfl
@[simp] theorem State.setDll_pwr (a : Nat) (v : Dll) : (s.setDll a v).pwr = s.pwr := rfl
@[simp] theorem State.setDll_thm (a : Nat) (v : Dll) : (s.setDll a v).thm = s.thm := rfl
@[simp] theorem State.setDll_boot (a : Nat) (v : Dll) : (s.setDll a v).boot = s.boot := rfl
@[simp] theorem State.setDll_straps (a : Nat) (v : Dll) : (s.setDll a v).straps = s.straps := rfl
@[simp] theorem State.setDll_installed (a : Nat) (v : Dll) : (s.setDll a v).installed = s.installed := rfl
@[simp] theorem State.setDll_tap (a : Nat) (v : Dll) : (s.setDll a v).tap = s.tap := rfl
@[simp] theorem State.setDll_hostBudget (a : Nat) (v : Dll) : (s.setDll a v).hostBudget = s.hostBudget := rfl
@[simp] theorem State.setDll_heldHost (a : Nat) (v : Dll) : (s.setDll a v).heldHost = s.heldHost := rfl
@[simp] theorem State.setDll_scrubA (a : Nat) (v : Dll) : (s.setDll a v).scrubA = s.scrubA := rfl
@[simp] theorem State.setDll_scrubB (a : Nat) (v : Dll) : (s.setDll a v).scrubB = s.scrubB := rfl
@[simp] theorem State.setDll_scrubAtA (a : Nat) (v : Dll) : (s.setDll a v).scrubAtA = s.scrubAtA := rfl
@[simp] theorem State.setDll_scrubAtB (a : Nat) (v : Dll) : (s.setDll a v).scrubAtB = s.scrubAtB := rfl
@[simp] theorem State.setDll_errAddrHeld (a : Nat) (v : Dll) : (s.setDll a v).errAddrHeld = s.errAddrHeld := rfl
@[simp] theorem State.setDll_acc_reg (a : Nat) (v : Dll) (k : Nat) : (s.setDll a v).reg k = s.reg k := rfl
@[simp] theorem State.setDll_acc_fld (a : Nat) (v : Dll) (k : Fld) : (s.setDll a v).fld k = s.fld k := rfl
@[simp] theorem State.setDll_acc_bit (a : Nat) (v : Dll) (k : Fld) : (s.setDll a v).bit k = s.bit k := rfl
@[simp] theorem State.setDll_acc_rcHost (a : Nat) (v : Dll) (k : Nat) : (s.setDll a v).rcHost k = s.rcHost k := rfl
@[simp] theorem State.setDll_acc_rcSpx1 (a : Nat) (v : Dll) (k : Nat) : (s.setDll a v).rcSpx1 k = s.rcSpx1 k := rfl
@[simp] theorem State.setDll_acc_rcBit (a : Nat) (v : Dll) (k : Fld) : (s.setDll a v).rcBit k = s.rcBit k := rfl
@[simp] theorem State.setDll_acc_winGet (a : Nat) (v : Dll) (k : Nat) : (s.setDll a v).winGet k = s.winGet k := rfl
@[simp] theorem State.setDll_acc_hbmByte (a : Nat) (v : Dll) (k : Nat) : (s.setDll a v).hbmByte k = s.hbmByte k := rfl
@[simp] theorem State.setDll_acc_q (a : Nat) (v : Dll) (k : Nat) : (s.setDll a v).q k = s.q k := rfl
@[simp] theorem State.setDll_acc_m (a : Nat) (v : Dll) (k : Nat) : (s.setDll a v).m k = s.m k := rfl
@[simp] theorem State.setDll_acc_r (a : Nat) (v : Dll) (k : Nat) : (s.setDll a v).r k = s.r k := rfl
@[simp] theorem State.setDll_acc_chan (a : Nat) (v : Dll) (k : Nat) : (s.setDll a v).chan k = s.chan k := rfl
@[simp] theorem State.setDll_acc_pmu (a : Nat) (v : Dll) (k : Nat) : (s.setDll a v).pmu k = s.pmu k := rfl
@[simp] theorem State.setDll_acc_sg (a : Nat) (v : Dll) (k : Nat) : (s.setDll a v).sg k = s.sg k := rfl
@[simp] theorem State.setDll_acc_ring (a : Nat) (v : Dll) (k : Nat) : (s.setDll a v).ring k = s.ring k := rfl
@[simp] theorem State.setDll_acc_tdc (a : Nat) (v : Dll) (k : Nat) : (s.setDll a v).tdc k = s.tdc k := rfl
@[simp] theorem State.setDll_acc_port (a : Nat) (v : Dll) (k : Nat) : (s.setDll a v).port k = s.port k := rfl
@[simp] theorem State.setDll_acc_calCh (a : Nat) (v : Dll) (k : Nat) : (s.setDll a v).calCh k = s.calCh k := rfl
@[simp] theorem State.setDll_acc_txn (a : Nat) (v : Dll) (k : Nat) : (s.setDll a v).txn k = s.txn k := rfl
@[simp] theorem State.setDll_acc_evc (a : Nat) (v : Dll) (k : Nat) : (s.setDll a v).evc k = s.evc k := rfl
@[simp] theorem State.setDll_acc_ent (a : Nat) (v : Dll) (k : Nat) : (s.setDll a v).ent k = s.ent k := rfl
@[simp] theorem State.setDll_acc_srcCnt (a : Nat) (v : Dll) (k : Nat) : (s.setDll a v).srcCnt k = s.srcCnt k := rfl

/-! ### setPort -/

@[simp] theorem State.setPort_pending (a : Nat) (v : Port) : (s.setPort a v).pending = s.pending := rfl
@[simp] theorem State.setPort_now (a : Nat) (v : Port) : (s.setPort a v).now = s.now := rfl
@[simp] theorem State.setPort_freeCount (a : Nat) (v : Port) : (s.setPort a v).freeCount = s.freeCount := rfl
@[simp] theorem State.setPort_regs (a : Nat) (v : Port) : (s.setPort a v).regs = s.regs := rfl
@[simp] theorem State.setPort_copyB (a : Nat) (v : Port) : (s.setPort a v).copyB = s.copyB := rfl
@[simp] theorem State.setPort_copyC (a : Nat) (v : Port) : (s.setPort a v).copyC = s.copyC := rfl
@[simp] theorem State.setPort_hostRc (a : Nat) (v : Port) : (s.setPort a v).hostRc = s.hostRc := rfl
@[simp] theorem State.setPort_spx1Rc (a : Nat) (v : Port) : (s.setPort a v).spx1Rc = s.spx1Rc := rfl
@[simp] theorem State.setPort_holdH (a : Nat) (v : Port) : (s.setPort a v).holdH = s.holdH := rfl
@[simp] theorem State.setPort_holdS (a : Nat) (v : Port) : (s.setPort a v).holdS = s.holdS := rfl
@[simp] theorem State.setPort_posted (a : Nat) (v : Port) : (s.setPort a v).posted = s.posted := rfl
@[simp] theorem State.setPort_handed (a : Nat) (v : Port) : (s.setPort a v).handed = s.handed := rfl
@[simp] theorem State.setPort_cycle (a : Nat) (v : Port) : (s.setPort a v).cycle = s.cycle := rfl
@[simp] theorem State.setPort_win (a : Nat) (v : Port) : (s.setPort a v).win = s.win := rfl
@[simp] theorem State.setPort_hbm (a : Nat) (v : Port) : (s.setPort a v).hbm = s.hbm := rfl
@[simp] theorem State.setPort_msgs (a : Nat) (v : Port) : (s.setPort a v).msgs = s.msgs := rfl
@[simp] theorem State.setPort_hostMem (a : Nat) (v : Port) : (s.setPort a v).hostMem = s.hostMem := rfl
@[simp] theorem State.setPort_reads (a : Nat) (v : Port) : (s.setPort a v).reads = s.reads := rfl
@[simp] theorem State.setPort_ep (a : Nat) (v : Port) : (s.setPort a v).ep = s.ep := rfl
@[simp] theorem State.setPort_linkUp (a : Nat) (v : Port) : (s.setPort a v).linkUp = s.linkUp := rfl
@[simp] theorem State.setPort_pcie (a : Nat) (v : Port) : (s.setPort a v).pcie = s.pcie := rfl
@[simp] theorem State.setPort_evcs (a : Nat) (v : Port) : (s.setPort a v).evcs = s.evcs := rfl
@[simp] theorem State.setPort_txns (a : Nat) (v : Port) : (s.setPort a v).txns = s.txns := rfl
@[simp] theorem State.setPort_reported (a : Nat) (v : Port) : (s.setPort a v).reported = s.reported := rfl
@[simp] theorem State.setPort_srcs (a : Nat) (v : Port) : (s.setPort a v).srcs = s.srcs := rfl
@[simp] theorem State.setPort_ents (a : Nat) (v : Port) : (s.setPort a v).ents = s.ents := rfl
@[simp] theorem State.setPort_feHost (a : Nat) (v : Port) : (s.setPort a v).feHost = s.feHost := rfl
@[simp] theorem State.setPort_feSpx1 (a : Nat) (v : Port) : (s.setPort a v).feSpx1 = s.feSpx1 := rfl
@[simp] theorem State.setPort_qs (a : Nat) (v : Port) : (s.setPort a v).qs = s.qs := rfl
@[simp] theorem State.setPort_qm (a : Nat) (v : Port) : (s.setPort a v).qm = s.qm := rfl
@[simp] theorem State.setPort_qr (a : Nat) (v : Port) : (s.setPort a v).qr = s.qr := rfl
@[simp] theorem State.setPort_chans (a : Nat) (v : Port) : (s.setPort a v).chans = s.chans := rfl
@[simp] theorem State.setPort_pmus (a : Nat) (v : Port) : (s.setPort a v).pmus = s.pmus := rfl
@[simp] theorem State.setPort_adcs (a : Nat) (v : Port) : (s.setPort a v).adcs = s.adcs := rfl
@[simp] theorem State.setPort_adcAt (a : Nat) (v : Port) : (s.setPort a v).adcAt = s.adcAt := rfl
@[simp] theorem State.setPort_sgs (a : Nat) (v : Port) : (s.setPort a v).sgs = s.sgs := rfl
@[simp] theorem State.setPort_led (a : Nat) (v : Port) : (s.setPort a v).led = s.led := rfl
@[simp] theorem State.setPort_rings (a : Nat) (v : Port) : (s.setPort a v).rings = s.rings := rfl
@[simp] theorem State.setPort_pumpNext (a : Nat) (v : Port) : (s.setPort a v).pumpNext = s.pumpNext := rfl
@[simp] theorem State.setPort_pumpAt (a : Nat) (v : Port) : (s.setPort a v).pumpAt = s.pumpAt := rfl
@[simp] theorem State.setPort_pumpUsed (a : Nat) (v : Port) : (s.setPort a v).pumpUsed = s.pumpUsed := rfl
@[simp] theorem State.setPort_tdcs (a : Nat) (v : Port) : (s.setPort a v).tdcs = s.tdcs := rfl
@[simp] theorem State.setPort_dlls (a : Nat) (v : Port) : (s.setPort a v).dlls = s.dlls := rfl
@[simp] theorem State.setPort_lace (a : Nat) (v : Port) : (s.setPort a v).lace = s.lace := rfl
@[simp] theorem State.setPort_spx1 (a : Nat) (v : Port) : (s.setPort a v).spx1 = s.spx1 := rfl
@[simp] theorem State.setPort_calch (a : Nat) (v : Port) : (s.setPort a v).calch = s.calch := rfl
@[simp] theorem State.setPort_cal (a : Nat) (v : Port) : (s.setPort a v).cal = s.cal := rfl
@[simp] theorem State.setPort_nvm (a : Nat) (v : Port) : (s.setPort a v).nvm = s.nvm := rfl
@[simp] theorem State.setPort_clk (a : Nat) (v : Port) : (s.setPort a v).clk = s.clk := rfl
@[simp] theorem State.setPort_pwr (a : Nat) (v : Port) : (s.setPort a v).pwr = s.pwr := rfl
@[simp] theorem State.setPort_thm (a : Nat) (v : Port) : (s.setPort a v).thm = s.thm := rfl
@[simp] theorem State.setPort_boot (a : Nat) (v : Port) : (s.setPort a v).boot = s.boot := rfl
@[simp] theorem State.setPort_straps (a : Nat) (v : Port) : (s.setPort a v).straps = s.straps := rfl
@[simp] theorem State.setPort_installed (a : Nat) (v : Port) : (s.setPort a v).installed = s.installed := rfl
@[simp] theorem State.setPort_tap (a : Nat) (v : Port) : (s.setPort a v).tap = s.tap := rfl
@[simp] theorem State.setPort_hostBudget (a : Nat) (v : Port) : (s.setPort a v).hostBudget = s.hostBudget := rfl
@[simp] theorem State.setPort_heldHost (a : Nat) (v : Port) : (s.setPort a v).heldHost = s.heldHost := rfl
@[simp] theorem State.setPort_scrubA (a : Nat) (v : Port) : (s.setPort a v).scrubA = s.scrubA := rfl
@[simp] theorem State.setPort_scrubB (a : Nat) (v : Port) : (s.setPort a v).scrubB = s.scrubB := rfl
@[simp] theorem State.setPort_scrubAtA (a : Nat) (v : Port) : (s.setPort a v).scrubAtA = s.scrubAtA := rfl
@[simp] theorem State.setPort_scrubAtB (a : Nat) (v : Port) : (s.setPort a v).scrubAtB = s.scrubAtB := rfl
@[simp] theorem State.setPort_errAddrHeld (a : Nat) (v : Port) : (s.setPort a v).errAddrHeld = s.errAddrHeld := rfl
@[simp] theorem State.setPort_acc_reg (a : Nat) (v : Port) (k : Nat) : (s.setPort a v).reg k = s.reg k := rfl
@[simp] theorem State.setPort_acc_fld (a : Nat) (v : Port) (k : Fld) : (s.setPort a v).fld k = s.fld k := rfl
@[simp] theorem State.setPort_acc_bit (a : Nat) (v : Port) (k : Fld) : (s.setPort a v).bit k = s.bit k := rfl
@[simp] theorem State.setPort_acc_rcHost (a : Nat) (v : Port) (k : Nat) : (s.setPort a v).rcHost k = s.rcHost k := rfl
@[simp] theorem State.setPort_acc_rcSpx1 (a : Nat) (v : Port) (k : Nat) : (s.setPort a v).rcSpx1 k = s.rcSpx1 k := rfl
@[simp] theorem State.setPort_acc_rcBit (a : Nat) (v : Port) (k : Fld) : (s.setPort a v).rcBit k = s.rcBit k := rfl
@[simp] theorem State.setPort_acc_winGet (a : Nat) (v : Port) (k : Nat) : (s.setPort a v).winGet k = s.winGet k := rfl
@[simp] theorem State.setPort_acc_hbmByte (a : Nat) (v : Port) (k : Nat) : (s.setPort a v).hbmByte k = s.hbmByte k := rfl
@[simp] theorem State.setPort_acc_q (a : Nat) (v : Port) (k : Nat) : (s.setPort a v).q k = s.q k := rfl
@[simp] theorem State.setPort_acc_m (a : Nat) (v : Port) (k : Nat) : (s.setPort a v).m k = s.m k := rfl
@[simp] theorem State.setPort_acc_r (a : Nat) (v : Port) (k : Nat) : (s.setPort a v).r k = s.r k := rfl
@[simp] theorem State.setPort_acc_chan (a : Nat) (v : Port) (k : Nat) : (s.setPort a v).chan k = s.chan k := rfl
@[simp] theorem State.setPort_acc_pmu (a : Nat) (v : Port) (k : Nat) : (s.setPort a v).pmu k = s.pmu k := rfl
@[simp] theorem State.setPort_acc_sg (a : Nat) (v : Port) (k : Nat) : (s.setPort a v).sg k = s.sg k := rfl
@[simp] theorem State.setPort_acc_ring (a : Nat) (v : Port) (k : Nat) : (s.setPort a v).ring k = s.ring k := rfl
@[simp] theorem State.setPort_acc_tdc (a : Nat) (v : Port) (k : Nat) : (s.setPort a v).tdc k = s.tdc k := rfl
@[simp] theorem State.setPort_acc_dll (a : Nat) (v : Port) (k : Nat) : (s.setPort a v).dll k = s.dll k := rfl
@[simp] theorem State.setPort_acc_calCh (a : Nat) (v : Port) (k : Nat) : (s.setPort a v).calCh k = s.calCh k := rfl
@[simp] theorem State.setPort_acc_txn (a : Nat) (v : Port) (k : Nat) : (s.setPort a v).txn k = s.txn k := rfl
@[simp] theorem State.setPort_acc_evc (a : Nat) (v : Port) (k : Nat) : (s.setPort a v).evc k = s.evc k := rfl
@[simp] theorem State.setPort_acc_ent (a : Nat) (v : Port) (k : Nat) : (s.setPort a v).ent k = s.ent k := rfl
@[simp] theorem State.setPort_acc_srcCnt (a : Nat) (v : Port) (k : Nat) : (s.setPort a v).srcCnt k = s.srcCnt k := rfl

/-! ### setCalCh -/

@[simp] theorem State.setCalCh_pending (a : Nat) (v : CalCh) : (s.setCalCh a v).pending = s.pending := rfl
@[simp] theorem State.setCalCh_now (a : Nat) (v : CalCh) : (s.setCalCh a v).now = s.now := rfl
@[simp] theorem State.setCalCh_freeCount (a : Nat) (v : CalCh) : (s.setCalCh a v).freeCount = s.freeCount := rfl
@[simp] theorem State.setCalCh_regs (a : Nat) (v : CalCh) : (s.setCalCh a v).regs = s.regs := rfl
@[simp] theorem State.setCalCh_copyB (a : Nat) (v : CalCh) : (s.setCalCh a v).copyB = s.copyB := rfl
@[simp] theorem State.setCalCh_copyC (a : Nat) (v : CalCh) : (s.setCalCh a v).copyC = s.copyC := rfl
@[simp] theorem State.setCalCh_hostRc (a : Nat) (v : CalCh) : (s.setCalCh a v).hostRc = s.hostRc := rfl
@[simp] theorem State.setCalCh_spx1Rc (a : Nat) (v : CalCh) : (s.setCalCh a v).spx1Rc = s.spx1Rc := rfl
@[simp] theorem State.setCalCh_holdH (a : Nat) (v : CalCh) : (s.setCalCh a v).holdH = s.holdH := rfl
@[simp] theorem State.setCalCh_holdS (a : Nat) (v : CalCh) : (s.setCalCh a v).holdS = s.holdS := rfl
@[simp] theorem State.setCalCh_posted (a : Nat) (v : CalCh) : (s.setCalCh a v).posted = s.posted := rfl
@[simp] theorem State.setCalCh_handed (a : Nat) (v : CalCh) : (s.setCalCh a v).handed = s.handed := rfl
@[simp] theorem State.setCalCh_cycle (a : Nat) (v : CalCh) : (s.setCalCh a v).cycle = s.cycle := rfl
@[simp] theorem State.setCalCh_win (a : Nat) (v : CalCh) : (s.setCalCh a v).win = s.win := rfl
@[simp] theorem State.setCalCh_hbm (a : Nat) (v : CalCh) : (s.setCalCh a v).hbm = s.hbm := rfl
@[simp] theorem State.setCalCh_msgs (a : Nat) (v : CalCh) : (s.setCalCh a v).msgs = s.msgs := rfl
@[simp] theorem State.setCalCh_hostMem (a : Nat) (v : CalCh) : (s.setCalCh a v).hostMem = s.hostMem := rfl
@[simp] theorem State.setCalCh_reads (a : Nat) (v : CalCh) : (s.setCalCh a v).reads = s.reads := rfl
@[simp] theorem State.setCalCh_ep (a : Nat) (v : CalCh) : (s.setCalCh a v).ep = s.ep := rfl
@[simp] theorem State.setCalCh_linkUp (a : Nat) (v : CalCh) : (s.setCalCh a v).linkUp = s.linkUp := rfl
@[simp] theorem State.setCalCh_pcie (a : Nat) (v : CalCh) : (s.setCalCh a v).pcie = s.pcie := rfl
@[simp] theorem State.setCalCh_evcs (a : Nat) (v : CalCh) : (s.setCalCh a v).evcs = s.evcs := rfl
@[simp] theorem State.setCalCh_txns (a : Nat) (v : CalCh) : (s.setCalCh a v).txns = s.txns := rfl
@[simp] theorem State.setCalCh_reported (a : Nat) (v : CalCh) : (s.setCalCh a v).reported = s.reported := rfl
@[simp] theorem State.setCalCh_srcs (a : Nat) (v : CalCh) : (s.setCalCh a v).srcs = s.srcs := rfl
@[simp] theorem State.setCalCh_ents (a : Nat) (v : CalCh) : (s.setCalCh a v).ents = s.ents := rfl
@[simp] theorem State.setCalCh_feHost (a : Nat) (v : CalCh) : (s.setCalCh a v).feHost = s.feHost := rfl
@[simp] theorem State.setCalCh_feSpx1 (a : Nat) (v : CalCh) : (s.setCalCh a v).feSpx1 = s.feSpx1 := rfl
@[simp] theorem State.setCalCh_qs (a : Nat) (v : CalCh) : (s.setCalCh a v).qs = s.qs := rfl
@[simp] theorem State.setCalCh_qm (a : Nat) (v : CalCh) : (s.setCalCh a v).qm = s.qm := rfl
@[simp] theorem State.setCalCh_qr (a : Nat) (v : CalCh) : (s.setCalCh a v).qr = s.qr := rfl
@[simp] theorem State.setCalCh_chans (a : Nat) (v : CalCh) : (s.setCalCh a v).chans = s.chans := rfl
@[simp] theorem State.setCalCh_pmus (a : Nat) (v : CalCh) : (s.setCalCh a v).pmus = s.pmus := rfl
@[simp] theorem State.setCalCh_adcs (a : Nat) (v : CalCh) : (s.setCalCh a v).adcs = s.adcs := rfl
@[simp] theorem State.setCalCh_adcAt (a : Nat) (v : CalCh) : (s.setCalCh a v).adcAt = s.adcAt := rfl
@[simp] theorem State.setCalCh_sgs (a : Nat) (v : CalCh) : (s.setCalCh a v).sgs = s.sgs := rfl
@[simp] theorem State.setCalCh_led (a : Nat) (v : CalCh) : (s.setCalCh a v).led = s.led := rfl
@[simp] theorem State.setCalCh_rings (a : Nat) (v : CalCh) : (s.setCalCh a v).rings = s.rings := rfl
@[simp] theorem State.setCalCh_pumpNext (a : Nat) (v : CalCh) : (s.setCalCh a v).pumpNext = s.pumpNext := rfl
@[simp] theorem State.setCalCh_pumpAt (a : Nat) (v : CalCh) : (s.setCalCh a v).pumpAt = s.pumpAt := rfl
@[simp] theorem State.setCalCh_pumpUsed (a : Nat) (v : CalCh) : (s.setCalCh a v).pumpUsed = s.pumpUsed := rfl
@[simp] theorem State.setCalCh_tdcs (a : Nat) (v : CalCh) : (s.setCalCh a v).tdcs = s.tdcs := rfl
@[simp] theorem State.setCalCh_dlls (a : Nat) (v : CalCh) : (s.setCalCh a v).dlls = s.dlls := rfl
@[simp] theorem State.setCalCh_lace (a : Nat) (v : CalCh) : (s.setCalCh a v).lace = s.lace := rfl
@[simp] theorem State.setCalCh_ports (a : Nat) (v : CalCh) : (s.setCalCh a v).ports = s.ports := rfl
@[simp] theorem State.setCalCh_spx1 (a : Nat) (v : CalCh) : (s.setCalCh a v).spx1 = s.spx1 := rfl
@[simp] theorem State.setCalCh_cal (a : Nat) (v : CalCh) : (s.setCalCh a v).cal = s.cal := rfl
@[simp] theorem State.setCalCh_nvm (a : Nat) (v : CalCh) : (s.setCalCh a v).nvm = s.nvm := rfl
@[simp] theorem State.setCalCh_clk (a : Nat) (v : CalCh) : (s.setCalCh a v).clk = s.clk := rfl
@[simp] theorem State.setCalCh_pwr (a : Nat) (v : CalCh) : (s.setCalCh a v).pwr = s.pwr := rfl
@[simp] theorem State.setCalCh_thm (a : Nat) (v : CalCh) : (s.setCalCh a v).thm = s.thm := rfl
@[simp] theorem State.setCalCh_boot (a : Nat) (v : CalCh) : (s.setCalCh a v).boot = s.boot := rfl
@[simp] theorem State.setCalCh_straps (a : Nat) (v : CalCh) : (s.setCalCh a v).straps = s.straps := rfl
@[simp] theorem State.setCalCh_installed (a : Nat) (v : CalCh) : (s.setCalCh a v).installed = s.installed := rfl
@[simp] theorem State.setCalCh_tap (a : Nat) (v : CalCh) : (s.setCalCh a v).tap = s.tap := rfl
@[simp] theorem State.setCalCh_hostBudget (a : Nat) (v : CalCh) : (s.setCalCh a v).hostBudget = s.hostBudget := rfl
@[simp] theorem State.setCalCh_heldHost (a : Nat) (v : CalCh) : (s.setCalCh a v).heldHost = s.heldHost := rfl
@[simp] theorem State.setCalCh_scrubA (a : Nat) (v : CalCh) : (s.setCalCh a v).scrubA = s.scrubA := rfl
@[simp] theorem State.setCalCh_scrubB (a : Nat) (v : CalCh) : (s.setCalCh a v).scrubB = s.scrubB := rfl
@[simp] theorem State.setCalCh_scrubAtA (a : Nat) (v : CalCh) : (s.setCalCh a v).scrubAtA = s.scrubAtA := rfl
@[simp] theorem State.setCalCh_scrubAtB (a : Nat) (v : CalCh) : (s.setCalCh a v).scrubAtB = s.scrubAtB := rfl
@[simp] theorem State.setCalCh_errAddrHeld (a : Nat) (v : CalCh) : (s.setCalCh a v).errAddrHeld = s.errAddrHeld := rfl
@[simp] theorem State.setCalCh_acc_reg (a : Nat) (v : CalCh) (k : Nat) : (s.setCalCh a v).reg k = s.reg k := rfl
@[simp] theorem State.setCalCh_acc_fld (a : Nat) (v : CalCh) (k : Fld) : (s.setCalCh a v).fld k = s.fld k := rfl
@[simp] theorem State.setCalCh_acc_bit (a : Nat) (v : CalCh) (k : Fld) : (s.setCalCh a v).bit k = s.bit k := rfl
@[simp] theorem State.setCalCh_acc_rcHost (a : Nat) (v : CalCh) (k : Nat) : (s.setCalCh a v).rcHost k = s.rcHost k := rfl
@[simp] theorem State.setCalCh_acc_rcSpx1 (a : Nat) (v : CalCh) (k : Nat) : (s.setCalCh a v).rcSpx1 k = s.rcSpx1 k := rfl
@[simp] theorem State.setCalCh_acc_rcBit (a : Nat) (v : CalCh) (k : Fld) : (s.setCalCh a v).rcBit k = s.rcBit k := rfl
@[simp] theorem State.setCalCh_acc_winGet (a : Nat) (v : CalCh) (k : Nat) : (s.setCalCh a v).winGet k = s.winGet k := rfl
@[simp] theorem State.setCalCh_acc_hbmByte (a : Nat) (v : CalCh) (k : Nat) : (s.setCalCh a v).hbmByte k = s.hbmByte k := rfl
@[simp] theorem State.setCalCh_acc_q (a : Nat) (v : CalCh) (k : Nat) : (s.setCalCh a v).q k = s.q k := rfl
@[simp] theorem State.setCalCh_acc_m (a : Nat) (v : CalCh) (k : Nat) : (s.setCalCh a v).m k = s.m k := rfl
@[simp] theorem State.setCalCh_acc_r (a : Nat) (v : CalCh) (k : Nat) : (s.setCalCh a v).r k = s.r k := rfl
@[simp] theorem State.setCalCh_acc_chan (a : Nat) (v : CalCh) (k : Nat) : (s.setCalCh a v).chan k = s.chan k := rfl
@[simp] theorem State.setCalCh_acc_pmu (a : Nat) (v : CalCh) (k : Nat) : (s.setCalCh a v).pmu k = s.pmu k := rfl
@[simp] theorem State.setCalCh_acc_sg (a : Nat) (v : CalCh) (k : Nat) : (s.setCalCh a v).sg k = s.sg k := rfl
@[simp] theorem State.setCalCh_acc_ring (a : Nat) (v : CalCh) (k : Nat) : (s.setCalCh a v).ring k = s.ring k := rfl
@[simp] theorem State.setCalCh_acc_tdc (a : Nat) (v : CalCh) (k : Nat) : (s.setCalCh a v).tdc k = s.tdc k := rfl
@[simp] theorem State.setCalCh_acc_dll (a : Nat) (v : CalCh) (k : Nat) : (s.setCalCh a v).dll k = s.dll k := rfl
@[simp] theorem State.setCalCh_acc_port (a : Nat) (v : CalCh) (k : Nat) : (s.setCalCh a v).port k = s.port k := rfl
@[simp] theorem State.setCalCh_acc_txn (a : Nat) (v : CalCh) (k : Nat) : (s.setCalCh a v).txn k = s.txn k := rfl
@[simp] theorem State.setCalCh_acc_evc (a : Nat) (v : CalCh) (k : Nat) : (s.setCalCh a v).evc k = s.evc k := rfl
@[simp] theorem State.setCalCh_acc_ent (a : Nat) (v : CalCh) (k : Nat) : (s.setCalCh a v).ent k = s.ent k := rfl
@[simp] theorem State.setCalCh_acc_srcCnt (a : Nat) (v : CalCh) (k : Nat) : (s.setCalCh a v).srcCnt k = s.srcCnt k := rfl

/-! ### setTxn -/

@[simp] theorem State.setTxn_pending (a : Nat) (v : Txn) : (s.setTxn a v).pending = s.pending := rfl
@[simp] theorem State.setTxn_now (a : Nat) (v : Txn) : (s.setTxn a v).now = s.now := rfl
@[simp] theorem State.setTxn_freeCount (a : Nat) (v : Txn) : (s.setTxn a v).freeCount = s.freeCount := rfl
@[simp] theorem State.setTxn_regs (a : Nat) (v : Txn) : (s.setTxn a v).regs = s.regs := rfl
@[simp] theorem State.setTxn_copyB (a : Nat) (v : Txn) : (s.setTxn a v).copyB = s.copyB := rfl
@[simp] theorem State.setTxn_copyC (a : Nat) (v : Txn) : (s.setTxn a v).copyC = s.copyC := rfl
@[simp] theorem State.setTxn_hostRc (a : Nat) (v : Txn) : (s.setTxn a v).hostRc = s.hostRc := rfl
@[simp] theorem State.setTxn_spx1Rc (a : Nat) (v : Txn) : (s.setTxn a v).spx1Rc = s.spx1Rc := rfl
@[simp] theorem State.setTxn_holdH (a : Nat) (v : Txn) : (s.setTxn a v).holdH = s.holdH := rfl
@[simp] theorem State.setTxn_holdS (a : Nat) (v : Txn) : (s.setTxn a v).holdS = s.holdS := rfl
@[simp] theorem State.setTxn_posted (a : Nat) (v : Txn) : (s.setTxn a v).posted = s.posted := rfl
@[simp] theorem State.setTxn_handed (a : Nat) (v : Txn) : (s.setTxn a v).handed = s.handed := rfl
@[simp] theorem State.setTxn_cycle (a : Nat) (v : Txn) : (s.setTxn a v).cycle = s.cycle := rfl
@[simp] theorem State.setTxn_win (a : Nat) (v : Txn) : (s.setTxn a v).win = s.win := rfl
@[simp] theorem State.setTxn_hbm (a : Nat) (v : Txn) : (s.setTxn a v).hbm = s.hbm := rfl
@[simp] theorem State.setTxn_msgs (a : Nat) (v : Txn) : (s.setTxn a v).msgs = s.msgs := rfl
@[simp] theorem State.setTxn_hostMem (a : Nat) (v : Txn) : (s.setTxn a v).hostMem = s.hostMem := rfl
@[simp] theorem State.setTxn_reads (a : Nat) (v : Txn) : (s.setTxn a v).reads = s.reads := rfl
@[simp] theorem State.setTxn_ep (a : Nat) (v : Txn) : (s.setTxn a v).ep = s.ep := rfl
@[simp] theorem State.setTxn_linkUp (a : Nat) (v : Txn) : (s.setTxn a v).linkUp = s.linkUp := rfl
@[simp] theorem State.setTxn_pcie (a : Nat) (v : Txn) : (s.setTxn a v).pcie = s.pcie := rfl
@[simp] theorem State.setTxn_evcs (a : Nat) (v : Txn) : (s.setTxn a v).evcs = s.evcs := rfl
@[simp] theorem State.setTxn_reported (a : Nat) (v : Txn) : (s.setTxn a v).reported = s.reported := rfl
@[simp] theorem State.setTxn_srcs (a : Nat) (v : Txn) : (s.setTxn a v).srcs = s.srcs := rfl
@[simp] theorem State.setTxn_ents (a : Nat) (v : Txn) : (s.setTxn a v).ents = s.ents := rfl
@[simp] theorem State.setTxn_feHost (a : Nat) (v : Txn) : (s.setTxn a v).feHost = s.feHost := rfl
@[simp] theorem State.setTxn_feSpx1 (a : Nat) (v : Txn) : (s.setTxn a v).feSpx1 = s.feSpx1 := rfl
@[simp] theorem State.setTxn_qs (a : Nat) (v : Txn) : (s.setTxn a v).qs = s.qs := rfl
@[simp] theorem State.setTxn_qm (a : Nat) (v : Txn) : (s.setTxn a v).qm = s.qm := rfl
@[simp] theorem State.setTxn_qr (a : Nat) (v : Txn) : (s.setTxn a v).qr = s.qr := rfl
@[simp] theorem State.setTxn_chans (a : Nat) (v : Txn) : (s.setTxn a v).chans = s.chans := rfl
@[simp] theorem State.setTxn_pmus (a : Nat) (v : Txn) : (s.setTxn a v).pmus = s.pmus := rfl
@[simp] theorem State.setTxn_adcs (a : Nat) (v : Txn) : (s.setTxn a v).adcs = s.adcs := rfl
@[simp] theorem State.setTxn_adcAt (a : Nat) (v : Txn) : (s.setTxn a v).adcAt = s.adcAt := rfl
@[simp] theorem State.setTxn_sgs (a : Nat) (v : Txn) : (s.setTxn a v).sgs = s.sgs := rfl
@[simp] theorem State.setTxn_led (a : Nat) (v : Txn) : (s.setTxn a v).led = s.led := rfl
@[simp] theorem State.setTxn_rings (a : Nat) (v : Txn) : (s.setTxn a v).rings = s.rings := rfl
@[simp] theorem State.setTxn_pumpNext (a : Nat) (v : Txn) : (s.setTxn a v).pumpNext = s.pumpNext := rfl
@[simp] theorem State.setTxn_pumpAt (a : Nat) (v : Txn) : (s.setTxn a v).pumpAt = s.pumpAt := rfl
@[simp] theorem State.setTxn_pumpUsed (a : Nat) (v : Txn) : (s.setTxn a v).pumpUsed = s.pumpUsed := rfl
@[simp] theorem State.setTxn_tdcs (a : Nat) (v : Txn) : (s.setTxn a v).tdcs = s.tdcs := rfl
@[simp] theorem State.setTxn_dlls (a : Nat) (v : Txn) : (s.setTxn a v).dlls = s.dlls := rfl
@[simp] theorem State.setTxn_lace (a : Nat) (v : Txn) : (s.setTxn a v).lace = s.lace := rfl
@[simp] theorem State.setTxn_ports (a : Nat) (v : Txn) : (s.setTxn a v).ports = s.ports := rfl
@[simp] theorem State.setTxn_spx1 (a : Nat) (v : Txn) : (s.setTxn a v).spx1 = s.spx1 := rfl
@[simp] theorem State.setTxn_calch (a : Nat) (v : Txn) : (s.setTxn a v).calch = s.calch := rfl
@[simp] theorem State.setTxn_cal (a : Nat) (v : Txn) : (s.setTxn a v).cal = s.cal := rfl
@[simp] theorem State.setTxn_nvm (a : Nat) (v : Txn) : (s.setTxn a v).nvm = s.nvm := rfl
@[simp] theorem State.setTxn_clk (a : Nat) (v : Txn) : (s.setTxn a v).clk = s.clk := rfl
@[simp] theorem State.setTxn_pwr (a : Nat) (v : Txn) : (s.setTxn a v).pwr = s.pwr := rfl
@[simp] theorem State.setTxn_thm (a : Nat) (v : Txn) : (s.setTxn a v).thm = s.thm := rfl
@[simp] theorem State.setTxn_boot (a : Nat) (v : Txn) : (s.setTxn a v).boot = s.boot := rfl
@[simp] theorem State.setTxn_straps (a : Nat) (v : Txn) : (s.setTxn a v).straps = s.straps := rfl
@[simp] theorem State.setTxn_installed (a : Nat) (v : Txn) : (s.setTxn a v).installed = s.installed := rfl
@[simp] theorem State.setTxn_tap (a : Nat) (v : Txn) : (s.setTxn a v).tap = s.tap := rfl
@[simp] theorem State.setTxn_hostBudget (a : Nat) (v : Txn) : (s.setTxn a v).hostBudget = s.hostBudget := rfl
@[simp] theorem State.setTxn_heldHost (a : Nat) (v : Txn) : (s.setTxn a v).heldHost = s.heldHost := rfl
@[simp] theorem State.setTxn_scrubA (a : Nat) (v : Txn) : (s.setTxn a v).scrubA = s.scrubA := rfl
@[simp] theorem State.setTxn_scrubB (a : Nat) (v : Txn) : (s.setTxn a v).scrubB = s.scrubB := rfl
@[simp] theorem State.setTxn_scrubAtA (a : Nat) (v : Txn) : (s.setTxn a v).scrubAtA = s.scrubAtA := rfl
@[simp] theorem State.setTxn_scrubAtB (a : Nat) (v : Txn) : (s.setTxn a v).scrubAtB = s.scrubAtB := rfl
@[simp] theorem State.setTxn_errAddrHeld (a : Nat) (v : Txn) : (s.setTxn a v).errAddrHeld = s.errAddrHeld := rfl
@[simp] theorem State.setTxn_acc_reg (a : Nat) (v : Txn) (k : Nat) : (s.setTxn a v).reg k = s.reg k := rfl
@[simp] theorem State.setTxn_acc_fld (a : Nat) (v : Txn) (k : Fld) : (s.setTxn a v).fld k = s.fld k := rfl
@[simp] theorem State.setTxn_acc_bit (a : Nat) (v : Txn) (k : Fld) : (s.setTxn a v).bit k = s.bit k := rfl
@[simp] theorem State.setTxn_acc_rcHost (a : Nat) (v : Txn) (k : Nat) : (s.setTxn a v).rcHost k = s.rcHost k := rfl
@[simp] theorem State.setTxn_acc_rcSpx1 (a : Nat) (v : Txn) (k : Nat) : (s.setTxn a v).rcSpx1 k = s.rcSpx1 k := rfl
@[simp] theorem State.setTxn_acc_rcBit (a : Nat) (v : Txn) (k : Fld) : (s.setTxn a v).rcBit k = s.rcBit k := rfl
@[simp] theorem State.setTxn_acc_winGet (a : Nat) (v : Txn) (k : Nat) : (s.setTxn a v).winGet k = s.winGet k := rfl
@[simp] theorem State.setTxn_acc_hbmByte (a : Nat) (v : Txn) (k : Nat) : (s.setTxn a v).hbmByte k = s.hbmByte k := rfl
@[simp] theorem State.setTxn_acc_q (a : Nat) (v : Txn) (k : Nat) : (s.setTxn a v).q k = s.q k := rfl
@[simp] theorem State.setTxn_acc_m (a : Nat) (v : Txn) (k : Nat) : (s.setTxn a v).m k = s.m k := rfl
@[simp] theorem State.setTxn_acc_r (a : Nat) (v : Txn) (k : Nat) : (s.setTxn a v).r k = s.r k := rfl
@[simp] theorem State.setTxn_acc_chan (a : Nat) (v : Txn) (k : Nat) : (s.setTxn a v).chan k = s.chan k := rfl
@[simp] theorem State.setTxn_acc_pmu (a : Nat) (v : Txn) (k : Nat) : (s.setTxn a v).pmu k = s.pmu k := rfl
@[simp] theorem State.setTxn_acc_sg (a : Nat) (v : Txn) (k : Nat) : (s.setTxn a v).sg k = s.sg k := rfl
@[simp] theorem State.setTxn_acc_ring (a : Nat) (v : Txn) (k : Nat) : (s.setTxn a v).ring k = s.ring k := rfl
@[simp] theorem State.setTxn_acc_tdc (a : Nat) (v : Txn) (k : Nat) : (s.setTxn a v).tdc k = s.tdc k := rfl
@[simp] theorem State.setTxn_acc_dll (a : Nat) (v : Txn) (k : Nat) : (s.setTxn a v).dll k = s.dll k := rfl
@[simp] theorem State.setTxn_acc_port (a : Nat) (v : Txn) (k : Nat) : (s.setTxn a v).port k = s.port k := rfl
@[simp] theorem State.setTxn_acc_calCh (a : Nat) (v : Txn) (k : Nat) : (s.setTxn a v).calCh k = s.calCh k := rfl
@[simp] theorem State.setTxn_acc_evc (a : Nat) (v : Txn) (k : Nat) : (s.setTxn a v).evc k = s.evc k := rfl
@[simp] theorem State.setTxn_acc_ent (a : Nat) (v : Txn) (k : Nat) : (s.setTxn a v).ent k = s.ent k := rfl
@[simp] theorem State.setTxn_acc_srcCnt (a : Nat) (v : Txn) (k : Nat) : (s.setTxn a v).srcCnt k = s.srcCnt k := rfl

/-! ### setEvc -/

@[simp] theorem State.setEvc_pending (a : Nat) (v : Evc) : (s.setEvc a v).pending = s.pending := rfl
@[simp] theorem State.setEvc_now (a : Nat) (v : Evc) : (s.setEvc a v).now = s.now := rfl
@[simp] theorem State.setEvc_freeCount (a : Nat) (v : Evc) : (s.setEvc a v).freeCount = s.freeCount := rfl
@[simp] theorem State.setEvc_regs (a : Nat) (v : Evc) : (s.setEvc a v).regs = s.regs := rfl
@[simp] theorem State.setEvc_copyB (a : Nat) (v : Evc) : (s.setEvc a v).copyB = s.copyB := rfl
@[simp] theorem State.setEvc_copyC (a : Nat) (v : Evc) : (s.setEvc a v).copyC = s.copyC := rfl
@[simp] theorem State.setEvc_hostRc (a : Nat) (v : Evc) : (s.setEvc a v).hostRc = s.hostRc := rfl
@[simp] theorem State.setEvc_spx1Rc (a : Nat) (v : Evc) : (s.setEvc a v).spx1Rc = s.spx1Rc := rfl
@[simp] theorem State.setEvc_holdH (a : Nat) (v : Evc) : (s.setEvc a v).holdH = s.holdH := rfl
@[simp] theorem State.setEvc_holdS (a : Nat) (v : Evc) : (s.setEvc a v).holdS = s.holdS := rfl
@[simp] theorem State.setEvc_posted (a : Nat) (v : Evc) : (s.setEvc a v).posted = s.posted := rfl
@[simp] theorem State.setEvc_handed (a : Nat) (v : Evc) : (s.setEvc a v).handed = s.handed := rfl
@[simp] theorem State.setEvc_cycle (a : Nat) (v : Evc) : (s.setEvc a v).cycle = s.cycle := rfl
@[simp] theorem State.setEvc_win (a : Nat) (v : Evc) : (s.setEvc a v).win = s.win := rfl
@[simp] theorem State.setEvc_hbm (a : Nat) (v : Evc) : (s.setEvc a v).hbm = s.hbm := rfl
@[simp] theorem State.setEvc_msgs (a : Nat) (v : Evc) : (s.setEvc a v).msgs = s.msgs := rfl
@[simp] theorem State.setEvc_hostMem (a : Nat) (v : Evc) : (s.setEvc a v).hostMem = s.hostMem := rfl
@[simp] theorem State.setEvc_reads (a : Nat) (v : Evc) : (s.setEvc a v).reads = s.reads := rfl
@[simp] theorem State.setEvc_ep (a : Nat) (v : Evc) : (s.setEvc a v).ep = s.ep := rfl
@[simp] theorem State.setEvc_linkUp (a : Nat) (v : Evc) : (s.setEvc a v).linkUp = s.linkUp := rfl
@[simp] theorem State.setEvc_pcie (a : Nat) (v : Evc) : (s.setEvc a v).pcie = s.pcie := rfl
@[simp] theorem State.setEvc_txns (a : Nat) (v : Evc) : (s.setEvc a v).txns = s.txns := rfl
@[simp] theorem State.setEvc_reported (a : Nat) (v : Evc) : (s.setEvc a v).reported = s.reported := rfl
@[simp] theorem State.setEvc_srcs (a : Nat) (v : Evc) : (s.setEvc a v).srcs = s.srcs := rfl
@[simp] theorem State.setEvc_ents (a : Nat) (v : Evc) : (s.setEvc a v).ents = s.ents := rfl
@[simp] theorem State.setEvc_feHost (a : Nat) (v : Evc) : (s.setEvc a v).feHost = s.feHost := rfl
@[simp] theorem State.setEvc_feSpx1 (a : Nat) (v : Evc) : (s.setEvc a v).feSpx1 = s.feSpx1 := rfl
@[simp] theorem State.setEvc_qs (a : Nat) (v : Evc) : (s.setEvc a v).qs = s.qs := rfl
@[simp] theorem State.setEvc_qm (a : Nat) (v : Evc) : (s.setEvc a v).qm = s.qm := rfl
@[simp] theorem State.setEvc_qr (a : Nat) (v : Evc) : (s.setEvc a v).qr = s.qr := rfl
@[simp] theorem State.setEvc_chans (a : Nat) (v : Evc) : (s.setEvc a v).chans = s.chans := rfl
@[simp] theorem State.setEvc_pmus (a : Nat) (v : Evc) : (s.setEvc a v).pmus = s.pmus := rfl
@[simp] theorem State.setEvc_adcs (a : Nat) (v : Evc) : (s.setEvc a v).adcs = s.adcs := rfl
@[simp] theorem State.setEvc_adcAt (a : Nat) (v : Evc) : (s.setEvc a v).adcAt = s.adcAt := rfl
@[simp] theorem State.setEvc_sgs (a : Nat) (v : Evc) : (s.setEvc a v).sgs = s.sgs := rfl
@[simp] theorem State.setEvc_led (a : Nat) (v : Evc) : (s.setEvc a v).led = s.led := rfl
@[simp] theorem State.setEvc_rings (a : Nat) (v : Evc) : (s.setEvc a v).rings = s.rings := rfl
@[simp] theorem State.setEvc_pumpNext (a : Nat) (v : Evc) : (s.setEvc a v).pumpNext = s.pumpNext := rfl
@[simp] theorem State.setEvc_pumpAt (a : Nat) (v : Evc) : (s.setEvc a v).pumpAt = s.pumpAt := rfl
@[simp] theorem State.setEvc_pumpUsed (a : Nat) (v : Evc) : (s.setEvc a v).pumpUsed = s.pumpUsed := rfl
@[simp] theorem State.setEvc_tdcs (a : Nat) (v : Evc) : (s.setEvc a v).tdcs = s.tdcs := rfl
@[simp] theorem State.setEvc_dlls (a : Nat) (v : Evc) : (s.setEvc a v).dlls = s.dlls := rfl
@[simp] theorem State.setEvc_lace (a : Nat) (v : Evc) : (s.setEvc a v).lace = s.lace := rfl
@[simp] theorem State.setEvc_ports (a : Nat) (v : Evc) : (s.setEvc a v).ports = s.ports := rfl
@[simp] theorem State.setEvc_spx1 (a : Nat) (v : Evc) : (s.setEvc a v).spx1 = s.spx1 := rfl
@[simp] theorem State.setEvc_calch (a : Nat) (v : Evc) : (s.setEvc a v).calch = s.calch := rfl
@[simp] theorem State.setEvc_cal (a : Nat) (v : Evc) : (s.setEvc a v).cal = s.cal := rfl
@[simp] theorem State.setEvc_nvm (a : Nat) (v : Evc) : (s.setEvc a v).nvm = s.nvm := rfl
@[simp] theorem State.setEvc_clk (a : Nat) (v : Evc) : (s.setEvc a v).clk = s.clk := rfl
@[simp] theorem State.setEvc_pwr (a : Nat) (v : Evc) : (s.setEvc a v).pwr = s.pwr := rfl
@[simp] theorem State.setEvc_thm (a : Nat) (v : Evc) : (s.setEvc a v).thm = s.thm := rfl
@[simp] theorem State.setEvc_boot (a : Nat) (v : Evc) : (s.setEvc a v).boot = s.boot := rfl
@[simp] theorem State.setEvc_straps (a : Nat) (v : Evc) : (s.setEvc a v).straps = s.straps := rfl
@[simp] theorem State.setEvc_installed (a : Nat) (v : Evc) : (s.setEvc a v).installed = s.installed := rfl
@[simp] theorem State.setEvc_tap (a : Nat) (v : Evc) : (s.setEvc a v).tap = s.tap := rfl
@[simp] theorem State.setEvc_hostBudget (a : Nat) (v : Evc) : (s.setEvc a v).hostBudget = s.hostBudget := rfl
@[simp] theorem State.setEvc_heldHost (a : Nat) (v : Evc) : (s.setEvc a v).heldHost = s.heldHost := rfl
@[simp] theorem State.setEvc_scrubA (a : Nat) (v : Evc) : (s.setEvc a v).scrubA = s.scrubA := rfl
@[simp] theorem State.setEvc_scrubB (a : Nat) (v : Evc) : (s.setEvc a v).scrubB = s.scrubB := rfl
@[simp] theorem State.setEvc_scrubAtA (a : Nat) (v : Evc) : (s.setEvc a v).scrubAtA = s.scrubAtA := rfl
@[simp] theorem State.setEvc_scrubAtB (a : Nat) (v : Evc) : (s.setEvc a v).scrubAtB = s.scrubAtB := rfl
@[simp] theorem State.setEvc_errAddrHeld (a : Nat) (v : Evc) : (s.setEvc a v).errAddrHeld = s.errAddrHeld := rfl
@[simp] theorem State.setEvc_acc_reg (a : Nat) (v : Evc) (k : Nat) : (s.setEvc a v).reg k = s.reg k := rfl
@[simp] theorem State.setEvc_acc_fld (a : Nat) (v : Evc) (k : Fld) : (s.setEvc a v).fld k = s.fld k := rfl
@[simp] theorem State.setEvc_acc_bit (a : Nat) (v : Evc) (k : Fld) : (s.setEvc a v).bit k = s.bit k := rfl
@[simp] theorem State.setEvc_acc_rcHost (a : Nat) (v : Evc) (k : Nat) : (s.setEvc a v).rcHost k = s.rcHost k := rfl
@[simp] theorem State.setEvc_acc_rcSpx1 (a : Nat) (v : Evc) (k : Nat) : (s.setEvc a v).rcSpx1 k = s.rcSpx1 k := rfl
@[simp] theorem State.setEvc_acc_rcBit (a : Nat) (v : Evc) (k : Fld) : (s.setEvc a v).rcBit k = s.rcBit k := rfl
@[simp] theorem State.setEvc_acc_winGet (a : Nat) (v : Evc) (k : Nat) : (s.setEvc a v).winGet k = s.winGet k := rfl
@[simp] theorem State.setEvc_acc_hbmByte (a : Nat) (v : Evc) (k : Nat) : (s.setEvc a v).hbmByte k = s.hbmByte k := rfl
@[simp] theorem State.setEvc_acc_q (a : Nat) (v : Evc) (k : Nat) : (s.setEvc a v).q k = s.q k := rfl
@[simp] theorem State.setEvc_acc_m (a : Nat) (v : Evc) (k : Nat) : (s.setEvc a v).m k = s.m k := rfl
@[simp] theorem State.setEvc_acc_r (a : Nat) (v : Evc) (k : Nat) : (s.setEvc a v).r k = s.r k := rfl
@[simp] theorem State.setEvc_acc_chan (a : Nat) (v : Evc) (k : Nat) : (s.setEvc a v).chan k = s.chan k := rfl
@[simp] theorem State.setEvc_acc_pmu (a : Nat) (v : Evc) (k : Nat) : (s.setEvc a v).pmu k = s.pmu k := rfl
@[simp] theorem State.setEvc_acc_sg (a : Nat) (v : Evc) (k : Nat) : (s.setEvc a v).sg k = s.sg k := rfl
@[simp] theorem State.setEvc_acc_ring (a : Nat) (v : Evc) (k : Nat) : (s.setEvc a v).ring k = s.ring k := rfl
@[simp] theorem State.setEvc_acc_tdc (a : Nat) (v : Evc) (k : Nat) : (s.setEvc a v).tdc k = s.tdc k := rfl
@[simp] theorem State.setEvc_acc_dll (a : Nat) (v : Evc) (k : Nat) : (s.setEvc a v).dll k = s.dll k := rfl
@[simp] theorem State.setEvc_acc_port (a : Nat) (v : Evc) (k : Nat) : (s.setEvc a v).port k = s.port k := rfl
@[simp] theorem State.setEvc_acc_calCh (a : Nat) (v : Evc) (k : Nat) : (s.setEvc a v).calCh k = s.calCh k := rfl
@[simp] theorem State.setEvc_acc_txn (a : Nat) (v : Evc) (k : Nat) : (s.setEvc a v).txn k = s.txn k := rfl
@[simp] theorem State.setEvc_acc_ent (a : Nat) (v : Evc) (k : Nat) : (s.setEvc a v).ent k = s.ent k := rfl
@[simp] theorem State.setEvc_acc_srcCnt (a : Nat) (v : Evc) (k : Nat) : (s.setEvc a v).srcCnt k = s.srcCnt k := rfl

/-! ### setEnt -/

@[simp] theorem State.setEnt_pending (a : Nat) (v : Ent) : (s.setEnt a v).pending = s.pending := rfl
@[simp] theorem State.setEnt_now (a : Nat) (v : Ent) : (s.setEnt a v).now = s.now := rfl
@[simp] theorem State.setEnt_freeCount (a : Nat) (v : Ent) : (s.setEnt a v).freeCount = s.freeCount := rfl
@[simp] theorem State.setEnt_regs (a : Nat) (v : Ent) : (s.setEnt a v).regs = s.regs := rfl
@[simp] theorem State.setEnt_copyB (a : Nat) (v : Ent) : (s.setEnt a v).copyB = s.copyB := rfl
@[simp] theorem State.setEnt_copyC (a : Nat) (v : Ent) : (s.setEnt a v).copyC = s.copyC := rfl
@[simp] theorem State.setEnt_hostRc (a : Nat) (v : Ent) : (s.setEnt a v).hostRc = s.hostRc := rfl
@[simp] theorem State.setEnt_spx1Rc (a : Nat) (v : Ent) : (s.setEnt a v).spx1Rc = s.spx1Rc := rfl
@[simp] theorem State.setEnt_holdH (a : Nat) (v : Ent) : (s.setEnt a v).holdH = s.holdH := rfl
@[simp] theorem State.setEnt_holdS (a : Nat) (v : Ent) : (s.setEnt a v).holdS = s.holdS := rfl
@[simp] theorem State.setEnt_posted (a : Nat) (v : Ent) : (s.setEnt a v).posted = s.posted := rfl
@[simp] theorem State.setEnt_handed (a : Nat) (v : Ent) : (s.setEnt a v).handed = s.handed := rfl
@[simp] theorem State.setEnt_cycle (a : Nat) (v : Ent) : (s.setEnt a v).cycle = s.cycle := rfl
@[simp] theorem State.setEnt_win (a : Nat) (v : Ent) : (s.setEnt a v).win = s.win := rfl
@[simp] theorem State.setEnt_hbm (a : Nat) (v : Ent) : (s.setEnt a v).hbm = s.hbm := rfl
@[simp] theorem State.setEnt_msgs (a : Nat) (v : Ent) : (s.setEnt a v).msgs = s.msgs := rfl
@[simp] theorem State.setEnt_hostMem (a : Nat) (v : Ent) : (s.setEnt a v).hostMem = s.hostMem := rfl
@[simp] theorem State.setEnt_reads (a : Nat) (v : Ent) : (s.setEnt a v).reads = s.reads := rfl
@[simp] theorem State.setEnt_ep (a : Nat) (v : Ent) : (s.setEnt a v).ep = s.ep := rfl
@[simp] theorem State.setEnt_linkUp (a : Nat) (v : Ent) : (s.setEnt a v).linkUp = s.linkUp := rfl
@[simp] theorem State.setEnt_pcie (a : Nat) (v : Ent) : (s.setEnt a v).pcie = s.pcie := rfl
@[simp] theorem State.setEnt_evcs (a : Nat) (v : Ent) : (s.setEnt a v).evcs = s.evcs := rfl
@[simp] theorem State.setEnt_txns (a : Nat) (v : Ent) : (s.setEnt a v).txns = s.txns := rfl
@[simp] theorem State.setEnt_reported (a : Nat) (v : Ent) : (s.setEnt a v).reported = s.reported := rfl
@[simp] theorem State.setEnt_srcs (a : Nat) (v : Ent) : (s.setEnt a v).srcs = s.srcs := rfl
@[simp] theorem State.setEnt_feHost (a : Nat) (v : Ent) : (s.setEnt a v).feHost = s.feHost := rfl
@[simp] theorem State.setEnt_feSpx1 (a : Nat) (v : Ent) : (s.setEnt a v).feSpx1 = s.feSpx1 := rfl
@[simp] theorem State.setEnt_qs (a : Nat) (v : Ent) : (s.setEnt a v).qs = s.qs := rfl
@[simp] theorem State.setEnt_qm (a : Nat) (v : Ent) : (s.setEnt a v).qm = s.qm := rfl
@[simp] theorem State.setEnt_qr (a : Nat) (v : Ent) : (s.setEnt a v).qr = s.qr := rfl
@[simp] theorem State.setEnt_chans (a : Nat) (v : Ent) : (s.setEnt a v).chans = s.chans := rfl
@[simp] theorem State.setEnt_pmus (a : Nat) (v : Ent) : (s.setEnt a v).pmus = s.pmus := rfl
@[simp] theorem State.setEnt_adcs (a : Nat) (v : Ent) : (s.setEnt a v).adcs = s.adcs := rfl
@[simp] theorem State.setEnt_adcAt (a : Nat) (v : Ent) : (s.setEnt a v).adcAt = s.adcAt := rfl
@[simp] theorem State.setEnt_sgs (a : Nat) (v : Ent) : (s.setEnt a v).sgs = s.sgs := rfl
@[simp] theorem State.setEnt_led (a : Nat) (v : Ent) : (s.setEnt a v).led = s.led := rfl
@[simp] theorem State.setEnt_rings (a : Nat) (v : Ent) : (s.setEnt a v).rings = s.rings := rfl
@[simp] theorem State.setEnt_pumpNext (a : Nat) (v : Ent) : (s.setEnt a v).pumpNext = s.pumpNext := rfl
@[simp] theorem State.setEnt_pumpAt (a : Nat) (v : Ent) : (s.setEnt a v).pumpAt = s.pumpAt := rfl
@[simp] theorem State.setEnt_pumpUsed (a : Nat) (v : Ent) : (s.setEnt a v).pumpUsed = s.pumpUsed := rfl
@[simp] theorem State.setEnt_tdcs (a : Nat) (v : Ent) : (s.setEnt a v).tdcs = s.tdcs := rfl
@[simp] theorem State.setEnt_dlls (a : Nat) (v : Ent) : (s.setEnt a v).dlls = s.dlls := rfl
@[simp] theorem State.setEnt_lace (a : Nat) (v : Ent) : (s.setEnt a v).lace = s.lace := rfl
@[simp] theorem State.setEnt_ports (a : Nat) (v : Ent) : (s.setEnt a v).ports = s.ports := rfl
@[simp] theorem State.setEnt_spx1 (a : Nat) (v : Ent) : (s.setEnt a v).spx1 = s.spx1 := rfl
@[simp] theorem State.setEnt_calch (a : Nat) (v : Ent) : (s.setEnt a v).calch = s.calch := rfl
@[simp] theorem State.setEnt_cal (a : Nat) (v : Ent) : (s.setEnt a v).cal = s.cal := rfl
@[simp] theorem State.setEnt_nvm (a : Nat) (v : Ent) : (s.setEnt a v).nvm = s.nvm := rfl
@[simp] theorem State.setEnt_clk (a : Nat) (v : Ent) : (s.setEnt a v).clk = s.clk := rfl
@[simp] theorem State.setEnt_pwr (a : Nat) (v : Ent) : (s.setEnt a v).pwr = s.pwr := rfl
@[simp] theorem State.setEnt_thm (a : Nat) (v : Ent) : (s.setEnt a v).thm = s.thm := rfl
@[simp] theorem State.setEnt_boot (a : Nat) (v : Ent) : (s.setEnt a v).boot = s.boot := rfl
@[simp] theorem State.setEnt_straps (a : Nat) (v : Ent) : (s.setEnt a v).straps = s.straps := rfl
@[simp] theorem State.setEnt_installed (a : Nat) (v : Ent) : (s.setEnt a v).installed = s.installed := rfl
@[simp] theorem State.setEnt_tap (a : Nat) (v : Ent) : (s.setEnt a v).tap = s.tap := rfl
@[simp] theorem State.setEnt_hostBudget (a : Nat) (v : Ent) : (s.setEnt a v).hostBudget = s.hostBudget := rfl
@[simp] theorem State.setEnt_heldHost (a : Nat) (v : Ent) : (s.setEnt a v).heldHost = s.heldHost := rfl
@[simp] theorem State.setEnt_scrubA (a : Nat) (v : Ent) : (s.setEnt a v).scrubA = s.scrubA := rfl
@[simp] theorem State.setEnt_scrubB (a : Nat) (v : Ent) : (s.setEnt a v).scrubB = s.scrubB := rfl
@[simp] theorem State.setEnt_scrubAtA (a : Nat) (v : Ent) : (s.setEnt a v).scrubAtA = s.scrubAtA := rfl
@[simp] theorem State.setEnt_scrubAtB (a : Nat) (v : Ent) : (s.setEnt a v).scrubAtB = s.scrubAtB := rfl
@[simp] theorem State.setEnt_errAddrHeld (a : Nat) (v : Ent) : (s.setEnt a v).errAddrHeld = s.errAddrHeld := rfl
@[simp] theorem State.setEnt_acc_reg (a : Nat) (v : Ent) (k : Nat) : (s.setEnt a v).reg k = s.reg k := rfl
@[simp] theorem State.setEnt_acc_fld (a : Nat) (v : Ent) (k : Fld) : (s.setEnt a v).fld k = s.fld k := rfl
@[simp] theorem State.setEnt_acc_bit (a : Nat) (v : Ent) (k : Fld) : (s.setEnt a v).bit k = s.bit k := rfl
@[simp] theorem State.setEnt_acc_rcHost (a : Nat) (v : Ent) (k : Nat) : (s.setEnt a v).rcHost k = s.rcHost k := rfl
@[simp] theorem State.setEnt_acc_rcSpx1 (a : Nat) (v : Ent) (k : Nat) : (s.setEnt a v).rcSpx1 k = s.rcSpx1 k := rfl
@[simp] theorem State.setEnt_acc_rcBit (a : Nat) (v : Ent) (k : Fld) : (s.setEnt a v).rcBit k = s.rcBit k := rfl
@[simp] theorem State.setEnt_acc_winGet (a : Nat) (v : Ent) (k : Nat) : (s.setEnt a v).winGet k = s.winGet k := rfl
@[simp] theorem State.setEnt_acc_hbmByte (a : Nat) (v : Ent) (k : Nat) : (s.setEnt a v).hbmByte k = s.hbmByte k := rfl
@[simp] theorem State.setEnt_acc_q (a : Nat) (v : Ent) (k : Nat) : (s.setEnt a v).q k = s.q k := rfl
@[simp] theorem State.setEnt_acc_m (a : Nat) (v : Ent) (k : Nat) : (s.setEnt a v).m k = s.m k := rfl
@[simp] theorem State.setEnt_acc_r (a : Nat) (v : Ent) (k : Nat) : (s.setEnt a v).r k = s.r k := rfl
@[simp] theorem State.setEnt_acc_chan (a : Nat) (v : Ent) (k : Nat) : (s.setEnt a v).chan k = s.chan k := rfl
@[simp] theorem State.setEnt_acc_pmu (a : Nat) (v : Ent) (k : Nat) : (s.setEnt a v).pmu k = s.pmu k := rfl
@[simp] theorem State.setEnt_acc_sg (a : Nat) (v : Ent) (k : Nat) : (s.setEnt a v).sg k = s.sg k := rfl
@[simp] theorem State.setEnt_acc_ring (a : Nat) (v : Ent) (k : Nat) : (s.setEnt a v).ring k = s.ring k := rfl
@[simp] theorem State.setEnt_acc_tdc (a : Nat) (v : Ent) (k : Nat) : (s.setEnt a v).tdc k = s.tdc k := rfl
@[simp] theorem State.setEnt_acc_dll (a : Nat) (v : Ent) (k : Nat) : (s.setEnt a v).dll k = s.dll k := rfl
@[simp] theorem State.setEnt_acc_port (a : Nat) (v : Ent) (k : Nat) : (s.setEnt a v).port k = s.port k := rfl
@[simp] theorem State.setEnt_acc_calCh (a : Nat) (v : Ent) (k : Nat) : (s.setEnt a v).calCh k = s.calCh k := rfl
@[simp] theorem State.setEnt_acc_txn (a : Nat) (v : Ent) (k : Nat) : (s.setEnt a v).txn k = s.txn k := rfl
@[simp] theorem State.setEnt_acc_evc (a : Nat) (v : Ent) (k : Nat) : (s.setEnt a v).evc k = s.evc k := rfl
@[simp] theorem State.setEnt_acc_srcCnt (a : Nat) (v : Ent) (k : Nat) : (s.setEnt a v).srcCnt k = s.srcCnt k := rfl

/-! ### setSrcCnt -/

@[simp] theorem State.setSrcCnt_pending (a : Nat) (v : SrcCnt) : (s.setSrcCnt a v).pending = s.pending := rfl
@[simp] theorem State.setSrcCnt_now (a : Nat) (v : SrcCnt) : (s.setSrcCnt a v).now = s.now := rfl
@[simp] theorem State.setSrcCnt_freeCount (a : Nat) (v : SrcCnt) : (s.setSrcCnt a v).freeCount = s.freeCount := rfl
@[simp] theorem State.setSrcCnt_regs (a : Nat) (v : SrcCnt) : (s.setSrcCnt a v).regs = s.regs := rfl
@[simp] theorem State.setSrcCnt_copyB (a : Nat) (v : SrcCnt) : (s.setSrcCnt a v).copyB = s.copyB := rfl
@[simp] theorem State.setSrcCnt_copyC (a : Nat) (v : SrcCnt) : (s.setSrcCnt a v).copyC = s.copyC := rfl
@[simp] theorem State.setSrcCnt_hostRc (a : Nat) (v : SrcCnt) : (s.setSrcCnt a v).hostRc = s.hostRc := rfl
@[simp] theorem State.setSrcCnt_spx1Rc (a : Nat) (v : SrcCnt) : (s.setSrcCnt a v).spx1Rc = s.spx1Rc := rfl
@[simp] theorem State.setSrcCnt_holdH (a : Nat) (v : SrcCnt) : (s.setSrcCnt a v).holdH = s.holdH := rfl
@[simp] theorem State.setSrcCnt_holdS (a : Nat) (v : SrcCnt) : (s.setSrcCnt a v).holdS = s.holdS := rfl
@[simp] theorem State.setSrcCnt_posted (a : Nat) (v : SrcCnt) : (s.setSrcCnt a v).posted = s.posted := rfl
@[simp] theorem State.setSrcCnt_handed (a : Nat) (v : SrcCnt) : (s.setSrcCnt a v).handed = s.handed := rfl
@[simp] theorem State.setSrcCnt_cycle (a : Nat) (v : SrcCnt) : (s.setSrcCnt a v).cycle = s.cycle := rfl
@[simp] theorem State.setSrcCnt_win (a : Nat) (v : SrcCnt) : (s.setSrcCnt a v).win = s.win := rfl
@[simp] theorem State.setSrcCnt_hbm (a : Nat) (v : SrcCnt) : (s.setSrcCnt a v).hbm = s.hbm := rfl
@[simp] theorem State.setSrcCnt_msgs (a : Nat) (v : SrcCnt) : (s.setSrcCnt a v).msgs = s.msgs := rfl
@[simp] theorem State.setSrcCnt_hostMem (a : Nat) (v : SrcCnt) : (s.setSrcCnt a v).hostMem = s.hostMem := rfl
@[simp] theorem State.setSrcCnt_reads (a : Nat) (v : SrcCnt) : (s.setSrcCnt a v).reads = s.reads := rfl
@[simp] theorem State.setSrcCnt_ep (a : Nat) (v : SrcCnt) : (s.setSrcCnt a v).ep = s.ep := rfl
@[simp] theorem State.setSrcCnt_linkUp (a : Nat) (v : SrcCnt) : (s.setSrcCnt a v).linkUp = s.linkUp := rfl
@[simp] theorem State.setSrcCnt_pcie (a : Nat) (v : SrcCnt) : (s.setSrcCnt a v).pcie = s.pcie := rfl
@[simp] theorem State.setSrcCnt_evcs (a : Nat) (v : SrcCnt) : (s.setSrcCnt a v).evcs = s.evcs := rfl
@[simp] theorem State.setSrcCnt_txns (a : Nat) (v : SrcCnt) : (s.setSrcCnt a v).txns = s.txns := rfl
@[simp] theorem State.setSrcCnt_reported (a : Nat) (v : SrcCnt) : (s.setSrcCnt a v).reported = s.reported := rfl
@[simp] theorem State.setSrcCnt_ents (a : Nat) (v : SrcCnt) : (s.setSrcCnt a v).ents = s.ents := rfl
@[simp] theorem State.setSrcCnt_feHost (a : Nat) (v : SrcCnt) : (s.setSrcCnt a v).feHost = s.feHost := rfl
@[simp] theorem State.setSrcCnt_feSpx1 (a : Nat) (v : SrcCnt) : (s.setSrcCnt a v).feSpx1 = s.feSpx1 := rfl
@[simp] theorem State.setSrcCnt_qs (a : Nat) (v : SrcCnt) : (s.setSrcCnt a v).qs = s.qs := rfl
@[simp] theorem State.setSrcCnt_qm (a : Nat) (v : SrcCnt) : (s.setSrcCnt a v).qm = s.qm := rfl
@[simp] theorem State.setSrcCnt_qr (a : Nat) (v : SrcCnt) : (s.setSrcCnt a v).qr = s.qr := rfl
@[simp] theorem State.setSrcCnt_chans (a : Nat) (v : SrcCnt) : (s.setSrcCnt a v).chans = s.chans := rfl
@[simp] theorem State.setSrcCnt_pmus (a : Nat) (v : SrcCnt) : (s.setSrcCnt a v).pmus = s.pmus := rfl
@[simp] theorem State.setSrcCnt_adcs (a : Nat) (v : SrcCnt) : (s.setSrcCnt a v).adcs = s.adcs := rfl
@[simp] theorem State.setSrcCnt_adcAt (a : Nat) (v : SrcCnt) : (s.setSrcCnt a v).adcAt = s.adcAt := rfl
@[simp] theorem State.setSrcCnt_sgs (a : Nat) (v : SrcCnt) : (s.setSrcCnt a v).sgs = s.sgs := rfl
@[simp] theorem State.setSrcCnt_led (a : Nat) (v : SrcCnt) : (s.setSrcCnt a v).led = s.led := rfl
@[simp] theorem State.setSrcCnt_rings (a : Nat) (v : SrcCnt) : (s.setSrcCnt a v).rings = s.rings := rfl
@[simp] theorem State.setSrcCnt_pumpNext (a : Nat) (v : SrcCnt) : (s.setSrcCnt a v).pumpNext = s.pumpNext := rfl
@[simp] theorem State.setSrcCnt_pumpAt (a : Nat) (v : SrcCnt) : (s.setSrcCnt a v).pumpAt = s.pumpAt := rfl
@[simp] theorem State.setSrcCnt_pumpUsed (a : Nat) (v : SrcCnt) : (s.setSrcCnt a v).pumpUsed = s.pumpUsed := rfl
@[simp] theorem State.setSrcCnt_tdcs (a : Nat) (v : SrcCnt) : (s.setSrcCnt a v).tdcs = s.tdcs := rfl
@[simp] theorem State.setSrcCnt_dlls (a : Nat) (v : SrcCnt) : (s.setSrcCnt a v).dlls = s.dlls := rfl
@[simp] theorem State.setSrcCnt_lace (a : Nat) (v : SrcCnt) : (s.setSrcCnt a v).lace = s.lace := rfl
@[simp] theorem State.setSrcCnt_ports (a : Nat) (v : SrcCnt) : (s.setSrcCnt a v).ports = s.ports := rfl
@[simp] theorem State.setSrcCnt_spx1 (a : Nat) (v : SrcCnt) : (s.setSrcCnt a v).spx1 = s.spx1 := rfl
@[simp] theorem State.setSrcCnt_calch (a : Nat) (v : SrcCnt) : (s.setSrcCnt a v).calch = s.calch := rfl
@[simp] theorem State.setSrcCnt_cal (a : Nat) (v : SrcCnt) : (s.setSrcCnt a v).cal = s.cal := rfl
@[simp] theorem State.setSrcCnt_nvm (a : Nat) (v : SrcCnt) : (s.setSrcCnt a v).nvm = s.nvm := rfl
@[simp] theorem State.setSrcCnt_clk (a : Nat) (v : SrcCnt) : (s.setSrcCnt a v).clk = s.clk := rfl
@[simp] theorem State.setSrcCnt_pwr (a : Nat) (v : SrcCnt) : (s.setSrcCnt a v).pwr = s.pwr := rfl
@[simp] theorem State.setSrcCnt_thm (a : Nat) (v : SrcCnt) : (s.setSrcCnt a v).thm = s.thm := rfl
@[simp] theorem State.setSrcCnt_boot (a : Nat) (v : SrcCnt) : (s.setSrcCnt a v).boot = s.boot := rfl
@[simp] theorem State.setSrcCnt_straps (a : Nat) (v : SrcCnt) : (s.setSrcCnt a v).straps = s.straps := rfl
@[simp] theorem State.setSrcCnt_installed (a : Nat) (v : SrcCnt) : (s.setSrcCnt a v).installed = s.installed := rfl
@[simp] theorem State.setSrcCnt_tap (a : Nat) (v : SrcCnt) : (s.setSrcCnt a v).tap = s.tap := rfl
@[simp] theorem State.setSrcCnt_hostBudget (a : Nat) (v : SrcCnt) : (s.setSrcCnt a v).hostBudget = s.hostBudget := rfl
@[simp] theorem State.setSrcCnt_heldHost (a : Nat) (v : SrcCnt) : (s.setSrcCnt a v).heldHost = s.heldHost := rfl
@[simp] theorem State.setSrcCnt_scrubA (a : Nat) (v : SrcCnt) : (s.setSrcCnt a v).scrubA = s.scrubA := rfl
@[simp] theorem State.setSrcCnt_scrubB (a : Nat) (v : SrcCnt) : (s.setSrcCnt a v).scrubB = s.scrubB := rfl
@[simp] theorem State.setSrcCnt_scrubAtA (a : Nat) (v : SrcCnt) : (s.setSrcCnt a v).scrubAtA = s.scrubAtA := rfl
@[simp] theorem State.setSrcCnt_scrubAtB (a : Nat) (v : SrcCnt) : (s.setSrcCnt a v).scrubAtB = s.scrubAtB := rfl
@[simp] theorem State.setSrcCnt_errAddrHeld (a : Nat) (v : SrcCnt) : (s.setSrcCnt a v).errAddrHeld = s.errAddrHeld := rfl
@[simp] theorem State.setSrcCnt_acc_reg (a : Nat) (v : SrcCnt) (k : Nat) : (s.setSrcCnt a v).reg k = s.reg k := rfl
@[simp] theorem State.setSrcCnt_acc_fld (a : Nat) (v : SrcCnt) (k : Fld) : (s.setSrcCnt a v).fld k = s.fld k := rfl
@[simp] theorem State.setSrcCnt_acc_bit (a : Nat) (v : SrcCnt) (k : Fld) : (s.setSrcCnt a v).bit k = s.bit k := rfl
@[simp] theorem State.setSrcCnt_acc_rcHost (a : Nat) (v : SrcCnt) (k : Nat) : (s.setSrcCnt a v).rcHost k = s.rcHost k := rfl
@[simp] theorem State.setSrcCnt_acc_rcSpx1 (a : Nat) (v : SrcCnt) (k : Nat) : (s.setSrcCnt a v).rcSpx1 k = s.rcSpx1 k := rfl
@[simp] theorem State.setSrcCnt_acc_rcBit (a : Nat) (v : SrcCnt) (k : Fld) : (s.setSrcCnt a v).rcBit k = s.rcBit k := rfl
@[simp] theorem State.setSrcCnt_acc_winGet (a : Nat) (v : SrcCnt) (k : Nat) : (s.setSrcCnt a v).winGet k = s.winGet k := rfl
@[simp] theorem State.setSrcCnt_acc_hbmByte (a : Nat) (v : SrcCnt) (k : Nat) : (s.setSrcCnt a v).hbmByte k = s.hbmByte k := rfl
@[simp] theorem State.setSrcCnt_acc_q (a : Nat) (v : SrcCnt) (k : Nat) : (s.setSrcCnt a v).q k = s.q k := rfl
@[simp] theorem State.setSrcCnt_acc_m (a : Nat) (v : SrcCnt) (k : Nat) : (s.setSrcCnt a v).m k = s.m k := rfl
@[simp] theorem State.setSrcCnt_acc_r (a : Nat) (v : SrcCnt) (k : Nat) : (s.setSrcCnt a v).r k = s.r k := rfl
@[simp] theorem State.setSrcCnt_acc_chan (a : Nat) (v : SrcCnt) (k : Nat) : (s.setSrcCnt a v).chan k = s.chan k := rfl
@[simp] theorem State.setSrcCnt_acc_pmu (a : Nat) (v : SrcCnt) (k : Nat) : (s.setSrcCnt a v).pmu k = s.pmu k := rfl
@[simp] theorem State.setSrcCnt_acc_sg (a : Nat) (v : SrcCnt) (k : Nat) : (s.setSrcCnt a v).sg k = s.sg k := rfl
@[simp] theorem State.setSrcCnt_acc_ring (a : Nat) (v : SrcCnt) (k : Nat) : (s.setSrcCnt a v).ring k = s.ring k := rfl
@[simp] theorem State.setSrcCnt_acc_tdc (a : Nat) (v : SrcCnt) (k : Nat) : (s.setSrcCnt a v).tdc k = s.tdc k := rfl
@[simp] theorem State.setSrcCnt_acc_dll (a : Nat) (v : SrcCnt) (k : Nat) : (s.setSrcCnt a v).dll k = s.dll k := rfl
@[simp] theorem State.setSrcCnt_acc_port (a : Nat) (v : SrcCnt) (k : Nat) : (s.setSrcCnt a v).port k = s.port k := rfl
@[simp] theorem State.setSrcCnt_acc_calCh (a : Nat) (v : SrcCnt) (k : Nat) : (s.setSrcCnt a v).calCh k = s.calCh k := rfl
@[simp] theorem State.setSrcCnt_acc_txn (a : Nat) (v : SrcCnt) (k : Nat) : (s.setSrcCnt a v).txn k = s.txn k := rfl
@[simp] theorem State.setSrcCnt_acc_evc (a : Nat) (v : SrcCnt) (k : Nat) : (s.setSrcCnt a v).evc k = s.evc k := rfl
@[simp] theorem State.setSrcCnt_acc_ent (a : Nat) (v : SrcCnt) (k : Nat) : (s.setSrcCnt a v).ent k = s.ent k := rfl

/-! ### Read after write -/

theorem State.q_setQ (a k : Nat) (v : QSeq) : (s.setQ a v).q k = if k = a then v else s.q k := by
  unfold State.q State.setQ
  exact tabGet_tabSet _ _ _ _ _

@[simp] theorem State.q_setQ_same (a : Nat) (v : QSeq) : (s.setQ a v).q a = v := by rw [State.q_setQ, if_pos rfl]

theorem State.q_setQ_ne {a k : Nat} (v : QSeq) (h : k ≠ a) : (s.setQ a v).q k = s.q k := by
  rw [State.q_setQ, if_neg h]

theorem State.m_setM (a k : Nat) (v : QMem) : (s.setM a v).m k = if k = a then v else s.m k := by
  unfold State.m State.setM
  exact tabGet_tabSet _ _ _ _ _

@[simp] theorem State.m_setM_same (a : Nat) (v : QMem) : (s.setM a v).m a = v := by rw [State.m_setM, if_pos rfl]

theorem State.m_setM_ne {a k : Nat} (v : QMem) (h : k ≠ a) : (s.setM a v).m k = s.m k := by
  rw [State.m_setM, if_neg h]

theorem State.r_setR (a k : Nat) (v : QRes) : (s.setR a v).r k = if k = a then v else s.r k := by
  unfold State.r State.setR
  exact tabGet_tabSet _ _ _ _ _

@[simp] theorem State.r_setR_same (a : Nat) (v : QRes) : (s.setR a v).r a = v := by rw [State.r_setR, if_pos rfl]

theorem State.r_setR_ne {a k : Nat} (v : QRes) (h : k ≠ a) : (s.setR a v).r k = s.r k := by
  rw [State.r_setR, if_neg h]

theorem State.chan_setChan (a k : Nat) (v : Chan) : (s.setChan a v).chan k = if k = a then v else s.chan k := by
  unfold State.chan State.setChan
  exact tabGet_tabSet _ _ _ _ _

@[simp] theorem State.chan_setChan_same (a : Nat) (v : Chan) : (s.setChan a v).chan a = v := by rw [State.chan_setChan, if_pos rfl]

theorem State.chan_setChan_ne {a k : Nat} (v : Chan) (h : k ≠ a) : (s.setChan a v).chan k = s.chan k := by
  rw [State.chan_setChan, if_neg h]

theorem State.pmu_setPmu (a k : Nat) (v : Pmu) : (s.setPmu a v).pmu k = if k = a then v else s.pmu k := by
  unfold State.pmu State.setPmu
  exact tabGet_tabSet _ _ _ _ _

@[simp] theorem State.pmu_setPmu_same (a : Nat) (v : Pmu) : (s.setPmu a v).pmu a = v := by rw [State.pmu_setPmu, if_pos rfl]

theorem State.pmu_setPmu_ne {a k : Nat} (v : Pmu) (h : k ≠ a) : (s.setPmu a v).pmu k = s.pmu k := by
  rw [State.pmu_setPmu, if_neg h]

theorem State.sg_setSg (a k : Nat) (v : Sg) : (s.setSg a v).sg k = if k = a then v else s.sg k := by
  unfold State.sg State.setSg
  exact tabGet_tabSet _ _ _ _ _

@[simp] theorem State.sg_setSg_same (a : Nat) (v : Sg) : (s.setSg a v).sg a = v := by rw [State.sg_setSg, if_pos rfl]

theorem State.sg_setSg_ne {a k : Nat} (v : Sg) (h : k ≠ a) : (s.setSg a v).sg k = s.sg k := by
  rw [State.sg_setSg, if_neg h]

theorem State.ring_setRing (a k : Nat) (v : Ring) : (s.setRing a v).ring k = if k = a then v else s.ring k := by
  unfold State.ring State.setRing
  exact tabGet_tabSet _ _ _ _ _

@[simp] theorem State.ring_setRing_same (a : Nat) (v : Ring) : (s.setRing a v).ring a = v := by rw [State.ring_setRing, if_pos rfl]

theorem State.ring_setRing_ne {a k : Nat} (v : Ring) (h : k ≠ a) : (s.setRing a v).ring k = s.ring k := by
  rw [State.ring_setRing, if_neg h]

theorem State.tdc_setTdc (a k : Nat) (v : Tdc) : (s.setTdc a v).tdc k = if k = a then v else s.tdc k := by
  unfold State.tdc State.setTdc
  exact tabGet_tabSet _ _ _ _ _

@[simp] theorem State.tdc_setTdc_same (a : Nat) (v : Tdc) : (s.setTdc a v).tdc a = v := by rw [State.tdc_setTdc, if_pos rfl]

theorem State.tdc_setTdc_ne {a k : Nat} (v : Tdc) (h : k ≠ a) : (s.setTdc a v).tdc k = s.tdc k := by
  rw [State.tdc_setTdc, if_neg h]

theorem State.dll_setDll (a k : Nat) (v : Dll) : (s.setDll a v).dll k = if k = a then v else s.dll k := by
  unfold State.dll State.setDll
  exact tabGet_tabSet _ _ _ _ _

@[simp] theorem State.dll_setDll_same (a : Nat) (v : Dll) : (s.setDll a v).dll a = v := by rw [State.dll_setDll, if_pos rfl]

theorem State.dll_setDll_ne {a k : Nat} (v : Dll) (h : k ≠ a) : (s.setDll a v).dll k = s.dll k := by
  rw [State.dll_setDll, if_neg h]

theorem State.port_setPort (a k : Nat) (v : Port) : (s.setPort a v).port k = if k = a then v else s.port k := by
  unfold State.port State.setPort
  exact tabGet_tabSet _ _ _ _ _

@[simp] theorem State.port_setPort_same (a : Nat) (v : Port) : (s.setPort a v).port a = v := by rw [State.port_setPort, if_pos rfl]

theorem State.port_setPort_ne {a k : Nat} (v : Port) (h : k ≠ a) : (s.setPort a v).port k = s.port k := by
  rw [State.port_setPort, if_neg h]

theorem State.calCh_setCalCh (a k : Nat) (v : CalCh) : (s.setCalCh a v).calCh k = if k = a then v else s.calCh k := by
  unfold State.calCh State.setCalCh
  exact tabGet_tabSet _ _ _ _ _

@[simp] theorem State.calCh_setCalCh_same (a : Nat) (v : CalCh) : (s.setCalCh a v).calCh a = v := by rw [State.calCh_setCalCh, if_pos rfl]

theorem State.calCh_setCalCh_ne {a k : Nat} (v : CalCh) (h : k ≠ a) : (s.setCalCh a v).calCh k = s.calCh k := by
  rw [State.calCh_setCalCh, if_neg h]

theorem State.txn_setTxn (a k : Nat) (v : Txn) : (s.setTxn a v).txn k = if k = a then v else s.txn k := by
  unfold State.txn State.setTxn
  exact tabGet_tabSet _ _ _ _ _

@[simp] theorem State.txn_setTxn_same (a : Nat) (v : Txn) : (s.setTxn a v).txn a = v := by rw [State.txn_setTxn, if_pos rfl]

theorem State.txn_setTxn_ne {a k : Nat} (v : Txn) (h : k ≠ a) : (s.setTxn a v).txn k = s.txn k := by
  rw [State.txn_setTxn, if_neg h]

theorem State.evc_setEvc (a k : Nat) (v : Evc) : (s.setEvc a v).evc k = if k = a then v else s.evc k := by
  unfold State.evc State.setEvc
  exact tabGet_tabSet _ _ _ _ _

@[simp] theorem State.evc_setEvc_same (a : Nat) (v : Evc) : (s.setEvc a v).evc a = v := by rw [State.evc_setEvc, if_pos rfl]

theorem State.evc_setEvc_ne {a k : Nat} (v : Evc) (h : k ≠ a) : (s.setEvc a v).evc k = s.evc k := by
  rw [State.evc_setEvc, if_neg h]

theorem State.ent_setEnt (a k : Nat) (v : Ent) : (s.setEnt a v).ent k = if k = a then v else s.ent k := by
  unfold State.ent State.setEnt
  exact tabGet_tabSet _ _ _ _ _

@[simp] theorem State.ent_setEnt_same (a : Nat) (v : Ent) : (s.setEnt a v).ent a = v := by rw [State.ent_setEnt, if_pos rfl]

theorem State.ent_setEnt_ne {a k : Nat} (v : Ent) (h : k ≠ a) : (s.setEnt a v).ent k = s.ent k := by
  rw [State.ent_setEnt, if_neg h]

theorem State.srcCnt_setSrcCnt (a k : Nat) (v : SrcCnt) : (s.setSrcCnt a v).srcCnt k = if k = a then v else s.srcCnt k := by
  unfold State.srcCnt State.setSrcCnt
  exact tabGet_tabSet _ _ _ _ _

@[simp] theorem State.srcCnt_setSrcCnt_same (a : Nat) (v : SrcCnt) : (s.setSrcCnt a v).srcCnt a = v := by rw [State.srcCnt_setSrcCnt, if_pos rfl]

theorem State.srcCnt_setSrcCnt_ne {a k : Nat} (v : SrcCnt) (h : k ≠ a) : (s.setSrcCnt a v).srcCnt k = s.srcCnt k := by
  rw [State.srcCnt_setSrcCnt, if_neg h]

theorem State.winGet_winSet (a k : Nat) (v : Dword) : (s.winSet a v).winGet k = if k = a then v else s.winGet k := by
  unfold State.winGet State.winSet
  exact tabGet_tabSet _ _ _ _ _

@[simp] theorem State.winGet_winSet_same (a : Nat) (v : Dword) : (s.winSet a v).winGet a = v := by
  rw [State.winGet_winSet, if_pos rfl]

theorem State.hbmByte_setHbmByte (a k : Nat) (v : Byte) :
    (s.setHbmByte a v).hbmByte k = if k = a then v else s.hbmByte k := by
  unfold State.hbmByte State.setHbmByte
  exact tabGet_tabSet _ _ _ _ _

theorem State.rcHost_setRc (a k : Nat) (m : Word) :
    (s.setRc a m).rcHost k = if k = a then s.rcHost a ||| m else s.rcHost k := by
  unfold State.setRc
  exact tabGet_tabSet _ _ _ _ _

theorem State.rcSpx1_setRc (a k : Nat) (m : Word) :
    (s.setRc a m).rcSpx1 k = if k = a then s.rcSpx1 a ||| m else s.rcSpx1 k := by
  unfold State.setRc
  exact tabGet_tabSet _ _ _ _ _

end Sys2Proof.Machine
end

