-- ==== Sys2Proof/Laws/Regs.lean ====
section
/-! SUPPORT. Registers and fields: what is read after a write. -/

namespace Sys2Proof.Machine

@[simp] theorem vote_self (x : Word) : vote x x x = x := by simp [vote]

/-- A write of all copies is what the register reads; every other register is left alone. -/
theorem State.reg_setReg (s : State) (a k : Nat) (v : Word) : (s.setReg a v).reg k = if k = a then v else s.reg k := by
  unfold State.reg State.setReg
  by_cases h : k = a
  · subst h
    simp [tabGet_tabErase_same]
  · simp [tabGet_tabSet_ne _ _ _ h, tabGet_tabErase_ne _ _ h, h]

@[simp] theorem State.reg_setReg_same (s : State) (a : Nat) (v : Word) : (s.setReg a v).reg a = v := by
  rw [State.reg_setReg, if_pos rfl]

theorem State.reg_setReg_ne (s : State) {a k : Nat} (v : Word) (h : k ≠ a) : (s.setReg a v).reg k = s.reg k := by
  rw [State.reg_setReg, if_neg h]

/-- A write of some bits of all copies: the register reads the merge, every other register is left alone. -/
theorem State.reg_setBits (s : State) (a k : Nat) (m v : Word) :
    (s.setBits a m v).reg k = if k = a then (s.reg a &&& ~~~m) ||| (v &&& m) else s.reg k := by
  unfold State.reg State.setBits
  by_cases h : k = a
  · subst h
    simp only [tabGet_tabSet_same, if_true]
    generalize tabGet regReset s.regs k = x
    generalize tabGet (fun _ => 0) s.copyB k = b
    generalize tabGet (fun _ => 0) s.copyC k = c
    apply BitVec.eq_of_getLsbD_eq
    intro i _
    simp only [vote, BitVec.getLsbD_or, BitVec.getLsbD_and, BitVec.getLsbD_xor, BitVec.getLsbD_not]
    cases x.getLsbD i <;> cases b.getLsbD i <;> cases c.getLsbD i <;> cases m.getLsbD i <;> cases v.getLsbD i <;>
      simp_all
  · simp [tabGet_tabSet_ne _ _ _ h, h]

theorem State.reg_setBits_same (s : State) (a : Nat) (m v : Word) :
    (s.setBits a m v).reg a = (s.reg a &&& ~~~m) ||| (v &&& m) := by
  rw [State.reg_setBits, if_pos rfl]

theorem State.reg_setBits_ne (s : State) {a k : Nat} (m v : Word) (h : k ≠ a) : (s.setBits a m v).reg k = s.reg k := by
  rw [State.reg_setBits, if_neg h]

theorem State.reg_setFld_ne (s : State) {f : Fld} {k : Nat} (n : Nat) (h : k ≠ f.addr) : (s.setFld f n).reg k = s.reg k :=
  State.reg_setBits_ne _ _ _ h

theorem State.reg_setBit_ne (s : State) {f : Fld} {k : Nat} (b : Bool) (h : k ≠ f.addr) : (s.setBit f b).reg k = s.reg k :=
  State.reg_setBits_ne _ _ _ h

theorem State.reg_addSat_ne (s : State) {f : Fld} {k : Nat} (n : Nat) (h : k ≠ f.addr) : (s.addSat f n).reg k = s.reg k :=
  State.reg_setBits_ne _ _ _ h

/-! ### Fields -/

theorem digit_lt {n N B L : Nat} (hn : n < N) (hB : B < L) : n * L + B < L * N :=
  calc n * L + B < n * L + L := Nat.add_lt_add_left hB _
    _ = L * (n + 1) := by rw [Nat.mul_add, Nat.mul_one, Nat.mul_comm]
    _ ≤ L * N := Nat.mul_le_mul_left _ hn

/-- A word split at a field: what lies above, the field, what lies below. -/
theorem nat_split (v lo w : Nat) :
    v = v / 2 ^ (lo + w) * 2 ^ (lo + w) + v / 2 ^ lo % 2 ^ w * 2 ^ lo + v % 2 ^ lo := by
  have h1 := Nat.div_add_mod v (2 ^ lo)
  have h2 := Nat.div_add_mod (v / 2 ^ lo) (2 ^ w)
  rw [Nat.div_div_eq_div_mul, ← Nat.pow_add] at h2
  have h3 : 2 ^ (lo + w) = 2 ^ lo * 2 ^ w := Nat.pow_add _ _ _
  generalize v / 2 ^ (lo + w) = A at *
  generalize v / 2 ^ lo % 2 ^ w = F at *
  rw [h3]
  calc v = 2 ^ lo * (2 ^ w * A + F) + v % 2 ^ lo := by rw [h2, h1]
    _ = A * (2 ^ lo * 2 ^ w) + F * 2 ^ lo + v % 2 ^ lo := by ring

theorem field_mid (A n B lo w : Nat) (hn : n < 2 ^ w) (hB : B < 2 ^ lo) :
    (A * 2 ^ (lo + w) + n * 2 ^ lo + B) / 2 ^ lo % 2 ^ w = n := by
  have h3 : 2 ^ (lo + w) = 2 ^ lo * 2 ^ w := Nat.pow_add _ _ _
  have h0 : 0 < 2 ^ lo := Nat.two_pow_pos lo
  have h : A * 2 ^ (lo + w) + n * 2 ^ lo + B = B + 2 ^ lo * (n + 2 ^ w * A) := by rw [h3]; ring
  rw [h, Nat.add_mul_div_left _ _ h0, Nat.div_eq_of_lt hB, Nat.zero_add, Nat.add_mul_mod_self_left, Nat.mod_eq_of_lt hn]

/-- The number behind `withField`. -/
theorem withField_toNat (v : Word) (lo w n : Nat) (h : lo + w ≤ 16) :
    (withField v lo w n).toNat =
      v.toNat / 2 ^ (lo + w) * 2 ^ (lo + w) + n % 2 ^ w * 2 ^ lo + v.toNat % 2 ^ lo := by
  have hv := nat_split v.toNat lo w
  have hlt : v.toNat < 2 ^ 16 := v.isLt
  have e : v.toNat - fieldOf v lo w * 2 ^ lo + n % 2 ^ w * 2 ^ lo =
      v.toNat / 2 ^ (lo + w) * 2 ^ (lo + w) + n % 2 ^ w * 2 ^ lo + v.toNat % 2 ^ lo := by
    unfold fieldOf
    generalize v.toNat / 2 ^ lo % 2 ^ w * 2 ^ lo = F at *
    generalize n % 2 ^ w * 2 ^ lo = N at *
    omega
  unfold withField
  rw [BitVec.toNat_ofNat, e, Nat.mod_eq_of_lt]
  have h3 : 2 ^ (lo + w) = 2 ^ lo * 2 ^ w := Nat.pow_add _ _ _
  have hn : n % 2 ^ w < 2 ^ w := Nat.mod_lt _ (Nat.two_pow_pos w)
  have hB : v.toNat % 2 ^ lo < 2 ^ lo := Nat.mod_lt _ (Nat.two_pow_pos lo)
  have hA : v.toNat / 2 ^ (lo + w) < 2 ^ (16 - (lo + w)) := by
    apply Nat.div_lt_of_lt_mul
    rw [← Nat.pow_add, Nat.add_sub_cancel' h]
    exact hlt
  have h16 : 2 ^ 16 = 2 ^ (lo + w) * 2 ^ (16 - (lo + w)) := by rw [← Nat.pow_add, Nat.add_sub_cancel' h]
  have hlow : n % 2 ^ w * 2 ^ lo + v.toNat % 2 ^ lo < 2 ^ (lo + w) := h3 ▸ digit_lt hn hB
  rw [h16, Nat.add_assoc]
  exact digit_lt hA hlow

/-- A field reads what was put into it. -/
theorem fieldOf_withField (v : Word) (lo w n : Nat) (h : lo + w ≤ 16) : fieldOf (withField v lo w n) lo w = n % 2 ^ w := by
  unfold fieldOf
  rw [withField_toNat v lo w n h]
  exact field_mid _ _ _ _ _ (Nat.mod_lt _ (Nat.two_pow_pos w)) (Nat.mod_lt _ (Nat.two_pow_pos lo))

/-- A field below the one written keeps its value. -/
theorem fieldOf_withField_below (v : Word) (lo w n lo' w' : Nat) (h : lo + w ≤ 16) (hb : lo' + w' ≤ lo) :
    fieldOf (withField v lo w n) lo' w' = fieldOf v lo' w' := by
  have key : ∀ x : Nat, x / 2 ^ lo' % 2 ^ w' = x % 2 ^ lo / 2 ^ lo' % 2 ^ w' := by
    intro x
    have e : lo = lo' + (lo - lo') := by omega
    rw [e, Nat.pow_add, Nat.mod_mul_right_div_self]
    have e2 : lo - lo' = w' + (lo - lo' - w') := by omega
    rw [e2, Nat.pow_add, Nat.mod_mul_right_mod]
  unfold fieldOf
  rw [key, key v.toNat, withField_toNat v lo w n h]
  have h3 : 2 ^ (lo + w) = 2 ^ lo * 2 ^ w := Nat.pow_add _ _ _
  have : (v.toNat / 2 ^ (lo + w) * 2 ^ (lo + w) + n % 2 ^ w * 2 ^ lo + v.toNat % 2 ^ lo) % 2 ^ lo = v.toNat % 2 ^ lo := by
    rw [h3]
    have : v.toNat / (2 ^ lo * 2 ^ w) * (2 ^ lo * 2 ^ w) + n % 2 ^ w * 2 ^ lo + v.toNat % 2 ^ lo =
        v.toNat % 2 ^ lo + 2 ^ lo * (v.toNat / (2 ^ lo * 2 ^ w) * 2 ^ w + n % 2 ^ w) := by ring
    rw [this, Nat.add_mul_mod_self_left, Nat.mod_mod]
  rw [this]

/-- A field above the one written keeps its value. -/
theorem fieldOf_withField_above (v : Word) (lo w n lo' w' : Nat) (h : lo + w ≤ 16) (hb : lo + w ≤ lo') :
    fieldOf (withField v lo w n) lo' w' = fieldOf v lo' w' := by
  have key : ∀ x : Nat, x / 2 ^ lo' % 2 ^ w' = x / 2 ^ (lo + w) / 2 ^ (lo' - (lo + w)) % 2 ^ w' := by
    intro x
    rw [Nat.div_div_eq_div_mul, ← Nat.pow_add, Nat.add_sub_cancel' hb]
  unfold fieldOf
  rw [key, key v.toNat, withField_toNat v lo w n h]
  have hn : n % 2 ^ w < 2 ^ w := Nat.mod_lt _ (Nat.two_pow_pos w)
  have hB : v.toNat % 2 ^ lo < 2 ^ lo := Nat.mod_lt _ (Nat.two_pow_pos lo)
  have h3 : 2 ^ (lo + w) = 2 ^ lo * 2 ^ w := Nat.pow_add _ _ _
  have hlow : n % 2 ^ w * 2 ^ lo + v.toNat % 2 ^ lo < 2 ^ (lo + w) := h3 ▸ digit_lt hn hB
  have : (v.toNat / 2 ^ (lo + w) * 2 ^ (lo + w) + n % 2 ^ w * 2 ^ lo + v.toNat % 2 ^ lo) / 2 ^ (lo + w) =
      v.toNat / 2 ^ (lo + w) := by
    rw [Nat.add_assoc, Nat.mul_comm, Nat.mul_add_div (Nat.two_pow_pos _), Nat.div_eq_of_lt hlow, Nat.add_zero]
  rw [this]

theorem getLsbD_fieldOf (v : Word) (i : Nat) : v.getLsbD i = decide (fieldOf v i 1 = 1) := by
  unfold fieldOf BitVec.getLsbD
  rw [Nat.testBit_eq_decide_div_mod_eq, Nat.pow_one]

theorem getLsbD_fldMask (f : Fld) (i : Nat) (hi : i < 16) : (fldMask f).getLsbD i = decide (f.lo ≤ i ∧ i < f.lo + f.w) := by
  unfold fldMask
  rw [BitVec.getLsbD_ofNat, Nat.testBit_mul_two_pow, Nat.testBit_two_pow_sub_one]
  simp only [hi, decide_true, Bool.true_and]
  by_cases h : f.lo ≤ i
  · simp only [h, decide_true, Bool.true_and, true_and, decide_eq_decide]
    omega
  · simp [h]

/-- Taking the field's bits alone from `withField` is `withField`. -/
theorem withField_masked (v : Word) (f : Fld) (n : Nat) (h : f.lo + f.w ≤ 16) :
    (v &&& ~~~fldMask f) ||| (withField v f.lo f.w n &&& fldMask f) = withField v f.lo f.w n := by
  apply BitVec.eq_of_getLsbD_eq
  intro i hi
  simp only [BitVec.getLsbD_or, BitVec.getLsbD_and, BitVec.getLsbD_not, getLsbD_fldMask f i hi, hi, decide_true, Bool.true_and]
  by_cases hm : f.lo ≤ i ∧ i < f.lo + f.w
  · simp [hm]
  · have e : v.getLsbD i = (withField v f.lo f.w n).getLsbD i := by
      rw [getLsbD_fieldOf, getLsbD_fieldOf (withField v f.lo f.w n)]
      by_cases hl : i < f.lo
      · rw [fieldOf_withField_below _ _ _ _ _ _ h (by omega)]
      · rw [fieldOf_withField_above _ _ _ _ _ _ h (by omega)]
    simp [hm, e]

theorem State.reg_setFld_same (s : State) (f : Fld) (n : Nat) (h : f.lo + f.w ≤ 16) :
    (s.setFld f n).reg f.addr = withField (s.reg f.addr) f.lo f.w n := by
  unfold State.setFld
  rw [State.reg_setBits_same, withField_masked _ _ _ h]

/-- A field of a register reads what was put into it. -/
theorem State.fld_setFld (s : State) (f : Fld) (n : Nat) (h : f.lo + f.w ≤ 16) : (s.setFld f n).fld f = n % 2 ^ f.w := by
  unfold State.fld
  rw [State.reg_setFld_same _ _ _ h]
  exact fieldOf_withField _ _ _ _ h

/-- Fields that share no bit with the one written keep their values. -/
theorem State.fld_setFld_ne (s : State) (f g : Fld) (n : Nat) (h : f.lo + f.w ≤ 16)
    (hd : g.addr ≠ f.addr ∨ g.lo + g.w ≤ f.lo ∨ f.lo + f.w ≤ g.lo) : (s.setFld f n).fld g = s.fld g := by
  unfold State.fld
  by_cases ha : g.addr = f.addr
  · rw [ha, State.reg_setFld_same _ _ _ h]
    rcases hd with hd | hd | hd
    · exact absurd ha hd
    · exact fieldOf_withField_below _ _ _ _ _ _ h hd
    · exact fieldOf_withField_above _ _ _ _ _ _ h hd
  · rw [State.reg_setFld_ne _ _ ha]

theorem State.fld_setReg_ne (s : State) (a : Nat) (v : Word) (g : Fld) (h : g.addr ≠ a) : (s.setReg a v).fld g = s.fld g := by
  unfold State.fld
  rw [State.reg_setReg_ne _ _ h]

/-- A one-bit field reads what was put into it. -/
theorem State.bit_setBit (s : State) (f : Fld) (b : Bool) (h : f.lo + f.w ≤ 16) (hw : f.w = 1) : (s.setBit f b).bit f = b := by
  unfold State.bit State.setBit
  rw [State.fld_setFld s f _ h, hw]
  cases b <;> rfl

end Sys2Proof.Machine
end

