-- ==== Sys2Proof/Laws/Events.lean ====
section
/-! SUPPORT. What a status event, a counted event and a report to the fault collector can do. -/

namespace Sys2Proof.Machine

/-! ### eventsOnly -/

theorem State.eventsOnly_refl (s : State) : s.eventsOnly s := ⟨rfl, fun _ _ => rfl⟩

theorem State.eventsOnly_trans {s t u : State} (h1 : s.eventsOnly t) (h2 : t.eventsOnly u) : s.eventsOnly u := by
  refine ⟨h2.1.trans ?_, fun a ha => (h2.2 a ha).trans (h1.2 a ha)⟩
  conv_lhs => rw [h1.1]

theorem setRc_eventsOnly (s : State) (a : Nat) (m : Word) : s.eventsOnly (s.setRc a m) := ⟨rfl, fun _ _ => rfl⟩

theorem setEvc_eventsOnly (s : State) (a : Nat) (v : Evc) : s.eventsOnly (s.setEvc a v) := ⟨rfl, fun _ _ => rfl⟩

theorem msgs_eventsOnly (s : State) (l : List Nat) : s.eventsOnly { s with msgs := l } := ⟨rfl, fun _ _ => rfl⟩

theorem winSet_eventsOnly (s : State) (a : Nat) (v : Dword) (h : 0x47000 ≤ a ∧ a < 0x47100) :
    s.eventsOnly (s.winSet a v) := by
  refine ⟨rfl, fun b hb => ?_⟩
  rw [State.winGet_winSet, if_neg (by omega)]

theorem foldl_eventsOnly {β : Type} (f : State → β → State) (hf : ∀ (s : State) x, s.eventsOnly (f s x)) (l : List β) (s : State) :
    s.eventsOnly (l.foldl f s) := by
  induction l generalizing s with
  | nil => exact s.eventsOnly_refl
  | cons a l ih => exact State.eventsOnly_trans (hf _ _) (ih _)

theorem addCount_eventsOnly (n i : Nat) (s : State) : s.eventsOnly (addCount n i s) := by
  delta addCount
  extract_lets e t
  have ht : s.eventsOnly t := setEvc_eventsOnly _ _ _
  split
  · exact State.eventsOnly_trans ht (setRc_eventsOnly _ _ _)
  · exact ht

theorem countRaw_eventsOnly (s : State) (src n : Nat) : s.eventsOnly (s.countRaw src n) :=
  foldl_eventsOnly _ (fun s i => addCount_eventsOnly n i s) _ s

theorem countTlp_eventsOnly (s : State) (rx : Bool) (n : Nat) : s.eventsOnly (s.countTlp rx n) := countRaw_eventsOnly _ _ _

theorem sendRaw_eventsOnly (s : State) (w : Nat) (h : w < 2048) : s.eventsOnly (s.sendRaw w) := by
  delta State.sendRaw
  split
  · exact s.eventsOnly_refl
  · split
    · exact winSet_eventsOnly _ _ _ (by omega)
    · exact State.eventsOnly_trans (State.eventsOnly_trans (msgs_eventsOnly _ _) (countRaw_eventsOnly _ _ _))
        (countTlp_eventsOnly _ _ _)

theorem State.vectors_le (s : State) : s.vectors ≤ 2048 := Nat.pow_le_pow_right (by decide) (Nat.min_le_right _ 11)

theorem vectors_mod (s : State) (v : Nat) : v % s.vectors < 2048 :=
  Nat.lt_of_lt_of_le (Nat.mod_lt _ (Nat.two_pow_pos _)) s.vectors_le

theorem sendMsix_eventsOnly (s : State) (w : Nat) (h : w < 2048) : s.eventsOnly (s.sendMsix w) := by
  delta State.sendMsix
  extract_lets t
  have ht : s.eventsOnly t := sendRaw_eventsOnly s w h
  split
  · exact State.eventsOnly_trans ht (sendRaw_eventsOnly _ _ (vectors_mod s 12))
  · exact ht

theorem sendVec_eventsOnly (s : State) (v : Nat) : s.eventsOnly (s.sendVec v) := by
  delta State.sendVec
  split
  · exact sendMsix_eventsOnly _ _ (vectors_mod s v)
  · exact s.eventsOnly_refl

theorem withVec_eventsOnly (v : Nat) (f : State → State) (hf : ∀ s : State, s.eventsOnly (f s)) (s : State) :
    s.eventsOnly (withVec v f s) := by
  delta withVec
  extract_lets t
  have ht : s.eventsOnly t := hf s
  split
  · exact State.eventsOnly_trans ht (sendVec_eventsOnly _ _)
  · exact ht

theorem withVecs_eventsOnly (l : List Nat) (f : State → State) (hf : ∀ s : State, s.eventsOnly (f s)) (s : State) :
    s.eventsOnly (l.foldl (fun f v => withVec v f) f s) := by
  induction l generalizing f with
  | nil => exact hf s
  | cons v l ih => exact ih _ (withVec_eventsOnly v f hf)

/-- An event that sets RC bits touches nothing but what events touch. -/
theorem raiseMask_eventsOnly (s : State) (a : Nat) (m : Word) : s.eventsOnly (s.raiseMask a m) :=
  withVecs_eventsOnly _ _ (fun s => setRc_eventsOnly s a m) s

theorem raise_eventsOnly (s : State) (f : Fld) : s.eventsOnly (s.raise f) := raiseMask_eventsOnly _ _ _

/-- So does a counted event. -/
theorem count_eventsOnly (s : State) (src n : Nat) : s.eventsOnly (s.count src n) := by
  delta State.count
  split
  · exact s.eventsOnly_refl
  · exact withVec_eventsOnly _ _ (fun s => countRaw_eventsOnly s src n) s



/-! ### What they leave alone -/

variable (s : State)

@[simp] theorem State.raise_pending (f : Fld) : (s.raise f).pending = s.pending := by rw [(raise_eventsOnly s f).1]
@[simp] theorem State.raise_now (f : Fld) : (s.raise f).now = s.now := by rw [(raise_eventsOnly s f).1]
@[simp] theorem State.raise_freeCount (f : Fld) : (s.raise f).freeCount = s.freeCount := by rw [(raise_eventsOnly s f).1]
@[simp] theorem State.raise_regs (f : Fld) : (s.raise f).regs = s.regs := by rw [(raise_eventsOnly s f).1]
@[simp] theorem State.raise_copyB (f : Fld) : (s.raise f).copyB = s.copyB := by rw [(raise_eventsOnly s f).1]
@[simp] theorem State.raise_copyC (f : Fld) : (s.raise f).copyC = s.copyC := by rw [(raise_eventsOnly s f).1]
@[simp] theorem State.raise_holdH (f : Fld) : (s.raise f).holdH = s.holdH := by rw [(raise_eventsOnly s f).1]
@[simp] theorem State.raise_holdS (f : Fld) : (s.raise f).holdS = s.holdS := by rw [(raise_eventsOnly s f).1]
@[simp] theorem State.raise_posted (f : Fld) : (s.raise f).posted = s.posted := by rw [(raise_eventsOnly s f).1]
@[simp] theorem State.raise_handed (f : Fld) : (s.raise f).handed = s.handed := by rw [(raise_eventsOnly s f).1]
@[simp] theorem State.raise_cycle (f : Fld) : (s.raise f).cycle = s.cycle := by rw [(raise_eventsOnly s f).1]
@[simp] theorem State.raise_hbm (f : Fld) : (s.raise f).hbm = s.hbm := by rw [(raise_eventsOnly s f).1]
@[simp] theorem State.raise_hostMem (f : Fld) : (s.raise f).hostMem = s.hostMem := by rw [(raise_eventsOnly s f).1]
@[simp] theorem State.raise_reads (f : Fld) : (s.raise f).reads = s.reads := by rw [(raise_eventsOnly s f).1]
@[simp] theorem State.raise_ep (f : Fld) : (s.raise f).ep = s.ep := by rw [(raise_eventsOnly s f).1]
@[simp] theorem State.raise_linkUp (f : Fld) : (s.raise f).linkUp = s.linkUp := by rw [(raise_eventsOnly s f).1]
@[simp] theorem State.raise_pcie (f : Fld) : (s.raise f).pcie = s.pcie := by rw [(raise_eventsOnly s f).1]
@[simp] theorem State.raise_txns (f : Fld) : (s.raise f).txns = s.txns := by rw [(raise_eventsOnly s f).1]
@[simp] theorem State.raise_reported (f : Fld) : (s.raise f).reported = s.reported := by rw [(raise_eventsOnly s f).1]
@[simp] theorem State.raise_srcs (f : Fld) : (s.raise f).srcs = s.srcs := by rw [(raise_eventsOnly s f).1]
@[simp] theorem State.raise_ents (f : Fld) : (s.raise f).ents = s.ents := by rw [(raise_eventsOnly s f).1]
@[simp] theorem State.raise_feHost (f : Fld) : (s.raise f).feHost = s.feHost := by rw [(raise_eventsOnly s f).1]
@[simp] theorem State.raise_feSpx1 (f : Fld) : (s.raise f).feSpx1 = s.feSpx1 := by rw [(raise_eventsOnly s f).1]
@[simp] theorem State.raise_qs (f : Fld) : (s.raise f).qs = s.qs := by rw [(raise_eventsOnly s f).1]
@[simp] theorem State.raise_qm (f : Fld) : (s.raise f).qm = s.qm := by rw [(raise_eventsOnly s f).1]
@[simp] theorem State.raise_qr (f : Fld) : (s.raise f).qr = s.qr := by rw [(raise_eventsOnly s f).1]
@[simp] theorem State.raise_chans (f : Fld) : (s.raise f).chans = s.chans := by rw [(raise_eventsOnly s f).1]
@[simp] theorem State.raise_pmus (f : Fld) : (s.raise f).pmus = s.pmus := by rw [(raise_eventsOnly s f).1]
@[simp] theorem State.raise_adcs (f : Fld) : (s.raise f).adcs = s.adcs := by rw [(raise_eventsOnly s f).1]
@[simp] theorem State.raise_adcAt (f : Fld) : (s.raise f).adcAt = s.adcAt := by rw [(raise_eventsOnly s f).1]
@[simp] theorem State.raise_sgs (f : Fld) : (s.raise f).sgs = s.sgs := by rw [(raise_eventsOnly s f).1]
@[simp] theorem State.raise_led (f : Fld) : (s.raise f).led = s.led := by rw [(raise_eventsOnly s f).1]
@[simp] theorem State.raise_rings (f : Fld) : (s.raise f).rings = s.rings := by rw [(raise_eventsOnly s f).1]
@[simp] theorem State.raise_pumpNext (f : Fld) : (s.raise f).pumpNext = s.pumpNext := by rw [(raise_eventsOnly s f).1]
@[simp] theorem State.raise_pumpAt (f : Fld) : (s.raise f).pumpAt = s.pumpAt := by rw [(raise_eventsOnly s f).1]
@[simp] theorem State.raise_pumpUsed (f : Fld) : (s.raise f).pumpUsed = s.pumpUsed := by rw [(raise_eventsOnly s f).1]
@[simp] theorem State.raise_tdcs (f : Fld) : (s.raise f).tdcs = s.tdcs := by rw [(raise_eventsOnly s f).1]
@[simp] theorem State.raise_dlls (f : Fld) : (s.raise f).dlls = s.dlls := by rw [(raise_eventsOnly s f).1]
@[simp] theorem State.raise_lace (f : Fld) : (s.raise f).lace = s.lace := by rw [(raise_eventsOnly s f).1]
@[simp] theorem State.raise_ports (f : Fld) : (s.raise f).ports = s.ports := by rw [(raise_eventsOnly s f).1]
@[simp] theorem State.raise_spx1 (f : Fld) : (s.raise f).spx1 = s.spx1 := by rw [(raise_eventsOnly s f).1]
@[simp] theorem State.raise_calch (f : Fld) : (s.raise f).calch = s.calch := by rw [(raise_eventsOnly s f).1]
@[simp] theorem State.raise_cal (f : Fld) : (s.raise f).cal = s.cal := by rw [(raise_eventsOnly s f).1]
@[simp] theorem State.raise_nvm (f : Fld) : (s.raise f).nvm = s.nvm := by rw [(raise_eventsOnly s f).1]
@[simp] theorem State.raise_clk (f : Fld) : (s.raise f).clk = s.clk := by rw [(raise_eventsOnly s f).1]
@[simp] theorem State.raise_pwr (f : Fld) : (s.raise f).pwr = s.pwr := by rw [(raise_eventsOnly s f).1]
@[simp] theorem State.raise_thm (f : Fld) : (s.raise f).thm = s.thm := by rw [(raise_eventsOnly s f).1]
@[simp] theorem State.raise_boot (f : Fld) : (s.raise f).boot = s.boot := by rw [(raise_eventsOnly s f).1]
@[simp] theorem State.raise_straps (f : Fld) : (s.raise f).straps = s.straps := by rw [(raise_eventsOnly s f).1]
@[simp] theorem State.raise_installed (f : Fld) : (s.raise f).installed = s.installed := by rw [(raise_eventsOnly s f).1]
@[simp] theorem State.raise_tap (f : Fld) : (s.raise f).tap = s.tap := by rw [(raise_eventsOnly s f).1]
@[simp] theorem State.raise_hostBudget (f : Fld) : (s.raise f).hostBudget = s.hostBudget := by rw [(raise_eventsOnly s f).1]
@[simp] theorem State.raise_heldHost (f : Fld) : (s.raise f).heldHost = s.heldHost := by rw [(raise_eventsOnly s f).1]
@[simp] theorem State.raise_scrubA (f : Fld) : (s.raise f).scrubA = s.scrubA := by rw [(raise_eventsOnly s f).1]
@[simp] theorem State.raise_scrubB (f : Fld) : (s.raise f).scrubB = s.scrubB := by rw [(raise_eventsOnly s f).1]
@[simp] theorem State.raise_scrubAtA (f : Fld) : (s.raise f).scrubAtA = s.scrubAtA := by rw [(raise_eventsOnly s f).1]
@[simp] theorem State.raise_scrubAtB (f : Fld) : (s.raise f).scrubAtB = s.scrubAtB := by rw [(raise_eventsOnly s f).1]
@[simp] theorem State.raise_errAddrHeld (f : Fld) : (s.raise f).errAddrHeld = s.errAddrHeld := by rw [(raise_eventsOnly s f).1]
@[simp] theorem State.raise_acc_reg (f : Fld) (k : Nat) : (s.raise f).reg k = s.reg k := by rw [(raise_eventsOnly s f).1]; rfl
@[simp] theorem State.raise_acc_fld (f : Fld) (k : Fld) : (s.raise f).fld k = s.fld k := by rw [(raise_eventsOnly s f).1]; rfl
@[simp] theorem State.raise_acc_bit (f : Fld) (k : Fld) : (s.raise f).bit k = s.bit k := by rw [(raise_eventsOnly s f).1]; rfl
@[simp] theorem State.raise_acc_hbmByte (f : Fld) (k : Nat) : (s.raise f).hbmByte k = s.hbmByte k := by rw [(raise_eventsOnly s f).1]; rfl
@[simp] theorem State.raise_acc_q (f : Fld) (k : Nat) : (s.raise f).q k = s.q k := by rw [(raise_eventsOnly s f).1]; rfl
@[simp] theorem State.raise_acc_m (f : Fld) (k : Nat) : (s.raise f).m k = s.m k := by rw [(raise_eventsOnly s f).1]; rfl
@[simp] theorem State.raise_acc_r (f : Fld) (k : Nat) : (s.raise f).r k = s.r k := by rw [(raise_eventsOnly s f).1]; rfl
@[simp] theorem State.raise_acc_chan (f : Fld) (k : Nat) : (s.raise f).chan k = s.chan k := by rw [(raise_eventsOnly s f).1]; rfl
@[simp] theorem State.raise_acc_pmu (f : Fld) (k : Nat) : (s.raise f).pmu k = s.pmu k := by rw [(raise_eventsOnly s f).1]; rfl
@[simp] theorem State.raise_acc_sg (f : Fld) (k : Nat) : (s.raise f).sg k = s.sg k := by rw [(raise_eventsOnly s f).1]; rfl
@[simp] theorem State.raise_acc_ring (f : Fld) (k : Nat) : (s.raise f).ring k = s.ring k := by rw [(raise_eventsOnly s f).1]; rfl
@[simp] theorem State.raise_acc_tdc (f : Fld) (k : Nat) : (s.raise f).tdc k = s.tdc k := by rw [(raise_eventsOnly s f).1]; rfl
@[simp] theorem State.raise_acc_dll (f : Fld) (k : Nat) : (s.raise f).dll k = s.dll k := by rw [(raise_eventsOnly s f).1]; rfl
@[simp] theorem State.raise_acc_port (f : Fld) (k : Nat) : (s.raise f).port k = s.port k := by rw [(raise_eventsOnly s f).1]; rfl
@[simp] theorem State.raise_acc_calCh (f : Fld) (k : Nat) : (s.raise f).calCh k = s.calCh k := by rw [(raise_eventsOnly s f).1]; rfl
@[simp] theorem State.raise_acc_txn (f : Fld) (k : Nat) : (s.raise f).txn k = s.txn k := by rw [(raise_eventsOnly s f).1]; rfl
@[simp] theorem State.raise_acc_ent (f : Fld) (k : Nat) : (s.raise f).ent k = s.ent k := by rw [(raise_eventsOnly s f).1]; rfl
@[simp] theorem State.raise_acc_srcCnt (f : Fld) (k : Nat) : (s.raise f).srcCnt k = s.srcCnt k := by rw [(raise_eventsOnly s f).1]; rfl

@[simp] theorem State.raiseMask_pending (a : Nat) (v : Word) : (s.raiseMask a v).pending = s.pending := by rw [(raiseMask_eventsOnly s a v).1]
@[simp] theorem State.raiseMask_now (a : Nat) (v : Word) : (s.raiseMask a v).now = s.now := by rw [(raiseMask_eventsOnly s a v).1]
@[simp] theorem State.raiseMask_freeCount (a : Nat) (v : Word) : (s.raiseMask a v).freeCount = s.freeCount := by rw [(raiseMask_eventsOnly s a v).1]
@[simp] theorem State.raiseMask_regs (a : Nat) (v : Word) : (s.raiseMask a v).regs = s.regs := by rw [(raiseMask_eventsOnly s a v).1]
@[simp] theorem State.raiseMask_copyB (a : Nat) (v : Word) : (s.raiseMask a v).copyB = s.copyB := by rw [(raiseMask_eventsOnly s a v).1]
@[simp] theorem State.raiseMask_copyC (a : Nat) (v : Word) : (s.raiseMask a v).copyC = s.copyC := by rw [(raiseMask_eventsOnly s a v).1]
@[simp] theorem State.raiseMask_holdH (a : Nat) (v : Word) : (s.raiseMask a v).holdH = s.holdH := by rw [(raiseMask_eventsOnly s a v).1]
@[simp] theorem State.raiseMask_holdS (a : Nat) (v : Word) : (s.raiseMask a v).holdS = s.holdS := by rw [(raiseMask_eventsOnly s a v).1]
@[simp] theorem State.raiseMask_posted (a : Nat) (v : Word) : (s.raiseMask a v).posted = s.posted := by rw [(raiseMask_eventsOnly s a v).1]
@[simp] theorem State.raiseMask_handed (a : Nat) (v : Word) : (s.raiseMask a v).handed = s.handed := by rw [(raiseMask_eventsOnly s a v).1]
@[simp] theorem State.raiseMask_cycle (a : Nat) (v : Word) : (s.raiseMask a v).cycle = s.cycle := by rw [(raiseMask_eventsOnly s a v).1]
@[simp] theorem State.raiseMask_hbm (a : Nat) (v : Word) : (s.raiseMask a v).hbm = s.hbm := by rw [(raiseMask_eventsOnly s a v).1]
@[simp] theorem State.raiseMask_hostMem (a : Nat) (v : Word) : (s.raiseMask a v).hostMem = s.hostMem := by rw [(raiseMask_eventsOnly s a v).1]
@[simp] theorem State.raiseMask_reads (a : Nat) (v : Word) : (s.raiseMask a v).reads = s.reads := by rw [(raiseMask_eventsOnly s a v).1]
@[simp] theorem State.raiseMask_ep (a : Nat) (v : Word) : (s.raiseMask a v).ep = s.ep := by rw [(raiseMask_eventsOnly s a v).1]
@[simp] theorem State.raiseMask_linkUp (a : Nat) (v : Word) : (s.raiseMask a v).linkUp = s.linkUp := by rw [(raiseMask_eventsOnly s a v).1]
@[simp] theorem State.raiseMask_pcie (a : Nat) (v : Word) : (s.raiseMask a v).pcie = s.pcie := by rw [(raiseMask_eventsOnly s a v).1]
@[simp] theorem State.raiseMask_txns (a : Nat) (v : Word) : (s.raiseMask a v).txns = s.txns := by rw [(raiseMask_eventsOnly s a v).1]
@[simp] theorem State.raiseMask_reported (a : Nat) (v : Word) : (s.raiseMask a v).reported = s.reported := by rw [(raiseMask_eventsOnly s a v).1]
@[simp] theorem State.raiseMask_srcs (a : Nat) (v : Word) : (s.raiseMask a v).srcs = s.srcs := by rw [(raiseMask_eventsOnly s a v).1]
@[simp] theorem State.raiseMask_ents (a : Nat) (v : Word) : (s.raiseMask a v).ents = s.ents := by rw [(raiseMask_eventsOnly s a v).1]
@[simp] theorem State.raiseMask_feHost (a : Nat) (v : Word) : (s.raiseMask a v).feHost = s.feHost := by rw [(raiseMask_eventsOnly s a v).1]
@[simp] theorem State.raiseMask_feSpx1 (a : Nat) (v : Word) : (s.raiseMask a v).feSpx1 = s.feSpx1 := by rw [(raiseMask_eventsOnly s a v).1]
@[simp] theorem State.raiseMask_qs (a : Nat) (v : Word) : (s.raiseMask a v).qs = s.qs := by rw [(raiseMask_eventsOnly s a v).1]
@[simp] theorem State.raiseMask_qm (a : Nat) (v : Word) : (s.raiseMask a v).qm = s.qm := by rw [(raiseMask_eventsOnly s a v).1]
@[simp] theorem State.raiseMask_qr (a : Nat) (v : Word) : (s.raiseMask a v).qr = s.qr := by rw [(raiseMask_eventsOnly s a v).1]
@[simp] theorem State.raiseMask_chans (a : Nat) (v : Word) : (s.raiseMask a v).chans = s.chans := by rw [(raiseMask_eventsOnly s a v).1]
@[simp] theorem State.raiseMask_pmus (a : Nat) (v : Word) : (s.raiseMask a v).pmus = s.pmus := by rw [(raiseMask_eventsOnly s a v).1]
@[simp] theorem State.raiseMask_adcs (a : Nat) (v : Word) : (s.raiseMask a v).adcs = s.adcs := by rw [(raiseMask_eventsOnly s a v).1]
@[simp] theorem State.raiseMask_adcAt (a : Nat) (v : Word) : (s.raiseMask a v).adcAt = s.adcAt := by rw [(raiseMask_eventsOnly s a v).1]
@[simp] theorem State.raiseMask_sgs (a : Nat) (v : Word) : (s.raiseMask a v).sgs = s.sgs := by rw [(raiseMask_eventsOnly s a v).1]
@[simp] theorem State.raiseMask_led (a : Nat) (v : Word) : (s.raiseMask a v).led = s.led := by rw [(raiseMask_eventsOnly s a v).1]
@[simp] theorem State.raiseMask_rings (a : Nat) (v : Word) : (s.raiseMask a v).rings = s.rings := by rw [(raiseMask_eventsOnly s a v).1]
@[simp] theorem State.raiseMask_pumpNext (a : Nat) (v : Word) : (s.raiseMask a v).pumpNext = s.pumpNext := by rw [(raiseMask_eventsOnly s a v).1]
@[simp] theorem State.raiseMask_pumpAt (a : Nat) (v : Word) : (s.raiseMask a v).pumpAt = s.pumpAt := by rw [(raiseMask_eventsOnly s a v).1]
@[simp] theorem State.raiseMask_pumpUsed (a : Nat) (v : Word) : (s.raiseMask a v).pumpUsed = s.pumpUsed := by rw [(raiseMask_eventsOnly s a v).1]
@[simp] theorem State.raiseMask_tdcs (a : Nat) (v : Word) : (s.raiseMask a v).tdcs = s.tdcs := by rw [(raiseMask_eventsOnly s a v).1]
@[simp] theorem State.raiseMask_dlls (a : Nat) (v : Word) : (s.raiseMask a v).dlls = s.dlls := by rw [(raiseMask_eventsOnly s a v).1]
@[simp] theorem State.raiseMask_lace (a : Nat) (v : Word) : (s.raiseMask a v).lace = s.lace := by rw [(raiseMask_eventsOnly s a v).1]
@[simp] theorem State.raiseMask_ports (a : Nat) (v : Word) : (s.raiseMask a v).ports = s.ports := by rw [(raiseMask_eventsOnly s a v).1]
@[simp] theorem State.raiseMask_spx1 (a : Nat) (v : Word) : (s.raiseMask a v).spx1 = s.spx1 := by rw [(raiseMask_eventsOnly s a v).1]
@[simp] theorem State.raiseMask_calch (a : Nat) (v : Word) : (s.raiseMask a v).calch = s.calch := by rw [(raiseMask_eventsOnly s a v).1]
@[simp] theorem State.raiseMask_cal (a : Nat) (v : Word) : (s.raiseMask a v).cal = s.cal := by rw [(raiseMask_eventsOnly s a v).1]
@[simp] theorem State.raiseMask_nvm (a : Nat) (v : Word) : (s.raiseMask a v).nvm = s.nvm := by rw [(raiseMask_eventsOnly s a v).1]
@[simp] theorem State.raiseMask_clk (a : Nat) (v : Word) : (s.raiseMask a v).clk = s.clk := by rw [(raiseMask_eventsOnly s a v).1]
@[simp] theorem State.raiseMask_pwr (a : Nat) (v : Word) : (s.raiseMask a v).pwr = s.pwr := by rw [(raiseMask_eventsOnly s a v).1]
@[simp] theorem State.raiseMask_thm (a : Nat) (v : Word) : (s.raiseMask a v).thm = s.thm := by rw [(raiseMask_eventsOnly s a v).1]
@[simp] theorem State.raiseMask_boot (a : Nat) (v : Word) : (s.raiseMask a v).boot = s.boot := by rw [(raiseMask_eventsOnly s a v).1]
@[simp] theorem State.raiseMask_straps (a : Nat) (v : Word) : (s.raiseMask a v).straps = s.straps := by rw [(raiseMask_eventsOnly s a v).1]
@[simp] theorem State.raiseMask_installed (a : Nat) (v : Word) : (s.raiseMask a v).installed = s.installed := by rw [(raiseMask_eventsOnly s a v).1]
@[simp] theorem State.raiseMask_tap (a : Nat) (v : Word) : (s.raiseMask a v).tap = s.tap := by rw [(raiseMask_eventsOnly s a v).1]
@[simp] theorem State.raiseMask_hostBudget (a : Nat) (v : Word) : (s.raiseMask a v).hostBudget = s.hostBudget := by rw [(raiseMask_eventsOnly s a v).1]
@[simp] theorem State.raiseMask_heldHost (a : Nat) (v : Word) : (s.raiseMask a v).heldHost = s.heldHost := by rw [(raiseMask_eventsOnly s a v).1]
@[simp] theorem State.raiseMask_scrubA (a : Nat) (v : Word) : (s.raiseMask a v).scrubA = s.scrubA := by rw [(raiseMask_eventsOnly s a v).1]
@[simp] theorem State.raiseMask_scrubB (a : Nat) (v : Word) : (s.raiseMask a v).scrubB = s.scrubB := by rw [(raiseMask_eventsOnly s a v).1]
@[simp] theorem State.raiseMask_scrubAtA (a : Nat) (v : Word) : (s.raiseMask a v).scrubAtA = s.scrubAtA := by rw [(raiseMask_eventsOnly s a v).1]
@[simp] theorem State.raiseMask_scrubAtB (a : Nat) (v : Word) : (s.raiseMask a v).scrubAtB = s.scrubAtB := by rw [(raiseMask_eventsOnly s a v).1]
@[simp] theorem State.raiseMask_errAddrHeld (a : Nat) (v : Word) : (s.raiseMask a v).errAddrHeld = s.errAddrHeld := by rw [(raiseMask_eventsOnly s a v).1]
@[simp] theorem State.raiseMask_acc_reg (a : Nat) (v : Word) (k : Nat) : (s.raiseMask a v).reg k = s.reg k := by rw [(raiseMask_eventsOnly s a v).1]; rfl
@[simp] theorem State.raiseMask_acc_fld (a : Nat) (v : Word) (k : Fld) : (s.raiseMask a v).fld k = s.fld k := by rw [(raiseMask_eventsOnly s a v).1]; rfl
@[simp] theorem State.raiseMask_acc_bit (a : Nat) (v : Word) (k : Fld) : (s.raiseMask a v).bit k = s.bit k := by rw [(raiseMask_eventsOnly s a v).1]; rfl
@[simp] theorem State.raiseMask_acc_hbmByte (a : Nat) (v : Word) (k : Nat) : (s.raiseMask a v).hbmByte k = s.hbmByte k := by rw [(raiseMask_eventsOnly s a v).1]; rfl
@[simp] theorem State.raiseMask_acc_q (a : Nat) (v : Word) (k : Nat) : (s.raiseMask a v).q k = s.q k := by rw [(raiseMask_eventsOnly s a v).1]; rfl
@[simp] theorem State.raiseMask_acc_m (a : Nat) (v : Word) (k : Nat) : (s.raiseMask a v).m k = s.m k := by rw [(raiseMask_eventsOnly s a v).1]; rfl
@[simp] theorem State.raiseMask_acc_r (a : Nat) (v : Word) (k : Nat) : (s.raiseMask a v).r k = s.r k := by rw [(raiseMask_eventsOnly s a v).1]; rfl
@[simp] theorem State.raiseMask_acc_chan (a : Nat) (v : Word) (k : Nat) : (s.raiseMask a v).chan k = s.chan k := by rw [(raiseMask_eventsOnly s a v).1]; rfl
@[simp] theorem State.raiseMask_acc_pmu (a : Nat) (v : Word) (k : Nat) : (s.raiseMask a v).pmu k = s.pmu k := by rw [(raiseMask_eventsOnly s a v).1]; rfl
@[simp] theorem State.raiseMask_acc_sg (a : Nat) (v : Word) (k : Nat) : (s.raiseMask a v).sg k = s.sg k := by rw [(raiseMask_eventsOnly s a v).1]; rfl
@[simp] theorem State.raiseMask_acc_ring (a : Nat) (v : Word) (k : Nat) : (s.raiseMask a v).ring k = s.ring k := by rw [(raiseMask_eventsOnly s a v).1]; rfl
@[simp] theorem State.raiseMask_acc_tdc (a : Nat) (v : Word) (k : Nat) : (s.raiseMask a v).tdc k = s.tdc k := by rw [(raiseMask_eventsOnly s a v).1]; rfl
@[simp] theorem State.raiseMask_acc_dll (a : Nat) (v : Word) (k : Nat) : (s.raiseMask a v).dll k = s.dll k := by rw [(raiseMask_eventsOnly s a v).1]; rfl
@[simp] theorem State.raiseMask_acc_port (a : Nat) (v : Word) (k : Nat) : (s.raiseMask a v).port k = s.port k := by rw [(raiseMask_eventsOnly s a v).1]; rfl
@[simp] theorem State.raiseMask_acc_calCh (a : Nat) (v : Word) (k : Nat) : (s.raiseMask a v).calCh k = s.calCh k := by rw [(raiseMask_eventsOnly s a v).1]; rfl
@[simp] theorem State.raiseMask_acc_txn (a : Nat) (v : Word) (k : Nat) : (s.raiseMask a v).txn k = s.txn k := by rw [(raiseMask_eventsOnly s a v).1]; rfl
@[simp] theorem State.raiseMask_acc_ent (a : Nat) (v : Word) (k : Nat) : (s.raiseMask a v).ent k = s.ent k := by rw [(raiseMask_eventsOnly s a v).1]; rfl
@[simp] theorem State.raiseMask_acc_srcCnt (a : Nat) (v : Word) (k : Nat) : (s.raiseMask a v).srcCnt k = s.srcCnt k := by rw [(raiseMask_eventsOnly s a v).1]; rfl

@[simp] theorem State.count_pending (a n : Nat) : (s.count a n).pending = s.pending := by rw [(count_eventsOnly s a n).1]
@[simp] theorem State.count_now (a n : Nat) : (s.count a n).now = s.now := by rw [(count_eventsOnly s a n).1]
@[simp] theorem State.count_freeCount (a n : Nat) : (s.count a n).freeCount = s.freeCount := by rw [(count_eventsOnly s a n).1]
@[simp] theorem State.count_regs (a n : Nat) : (s.count a n).regs = s.regs := by rw [(count_eventsOnly s a n).1]
@[simp] theorem State.count_copyB (a n : Nat) : (s.count a n).copyB = s.copyB := by rw [(count_eventsOnly s a n).1]
@[simp] theorem State.count_copyC (a n : Nat) : (s.count a n).copyC = s.copyC := by rw [(count_eventsOnly s a n).1]
@[simp] theorem State.count_holdH (a n : Nat) : (s.count a n).holdH = s.holdH := by rw [(count_eventsOnly s a n).1]
@[simp] theorem State.count_holdS (a n : Nat) : (s.count a n).holdS = s.holdS := by rw [(count_eventsOnly s a n).1]
@[simp] theorem State.count_posted (a n : Nat) : (s.count a n).posted = s.posted := by rw [(count_eventsOnly s a n).1]
@[simp] theorem State.count_handed (a n : Nat) : (s.count a n).handed = s.handed := by rw [(count_eventsOnly s a n).1]
@[simp] theorem State.count_cycle (a n : Nat) : (s.count a n).cycle = s.cycle := by rw [(count_eventsOnly s a n).1]
@[simp] theorem State.count_hbm (a n : Nat) : (s.count a n).hbm = s.hbm := by rw [(count_eventsOnly s a n).1]
@[simp] theorem State.count_hostMem (a n : Nat) : (s.count a n).hostMem = s.hostMem := by rw [(count_eventsOnly s a n).1]
@[simp] theorem State.count_reads (a n : Nat) : (s.count a n).reads = s.reads := by rw [(count_eventsOnly s a n).1]
@[simp] theorem State.count_ep (a n : Nat) : (s.count a n).ep = s.ep := by rw [(count_eventsOnly s a n).1]
@[simp] theorem State.count_linkUp (a n : Nat) : (s.count a n).linkUp = s.linkUp := by rw [(count_eventsOnly s a n).1]
@[simp] theorem State.count_pcie (a n : Nat) : (s.count a n).pcie = s.pcie := by rw [(count_eventsOnly s a n).1]
@[simp] theorem State.count_txns (a n : Nat) : (s.count a n).txns = s.txns := by rw [(count_eventsOnly s a n).1]
@[simp] theorem State.count_reported (a n : Nat) : (s.count a n).reported = s.reported := by rw [(count_eventsOnly s a n).1]
@[simp] theorem State.count_srcs (a n : Nat) : (s.count a n).srcs = s.srcs := by rw [(count_eventsOnly s a n).1]
@[simp] theorem State.count_ents (a n : Nat) : (s.count a n).ents = s.ents := by rw [(count_eventsOnly s a n).1]
@[simp] theorem State.count_feHost (a n : Nat) : (s.count a n).feHost = s.feHost := by rw [(count_eventsOnly s a n).1]
@[simp] theorem State.count_feSpx1 (a n : Nat) : (s.count a n).feSpx1 = s.feSpx1 := by rw [(count_eventsOnly s a n).1]
@[simp] theorem State.count_qs (a n : Nat) : (s.count a n).qs = s.qs := by rw [(count_eventsOnly s a n).1]
@[simp] theorem State.count_qm (a n : Nat) : (s.count a n).qm = s.qm := by rw [(count_eventsOnly s a n).1]
@[simp] theorem State.count_qr (a n : Nat) : (s.count a n).qr = s.qr := by rw [(count_eventsOnly s a n).1]
@[simp] theorem State.count_chans (a n : Nat) : (s.count a n).chans = s.chans := by rw [(count_eventsOnly s a n).1]
@[simp] theorem State.count_pmus (a n : Nat) : (s.count a n).pmus = s.pmus := by rw [(count_eventsOnly s a n).1]
@[simp] theorem State.count_adcs (a n : Nat) : (s.count a n).adcs = s.adcs := by rw [(count_eventsOnly s a n).1]
@[simp] theorem State.count_adcAt (a n : Nat) : (s.count a n).adcAt = s.adcAt := by rw [(count_eventsOnly s a n).1]
@[simp] theorem State.count_sgs (a n : Nat) : (s.count a n).sgs = s.sgs := by rw [(count_eventsOnly s a n).1]
@[simp] theorem State.count_led (a n : Nat) : (s.count a n).led = s.led := by rw [(count_eventsOnly s a n).1]
@[simp] theorem State.count_rings (a n : Nat) : (s.count a n).rings = s.rings := by rw [(count_eventsOnly s a n).1]
@[simp] theorem State.count_pumpNext (a n : Nat) : (s.count a n).pumpNext = s.pumpNext := by rw [(count_eventsOnly s a n).1]
@[simp] theorem State.count_pumpAt (a n : Nat) : (s.count a n).pumpAt = s.pumpAt := by rw [(count_eventsOnly s a n).1]
@[simp] theorem State.count_pumpUsed (a n : Nat) : (s.count a n).pumpUsed = s.pumpUsed := by rw [(count_eventsOnly s a n).1]
@[simp] theorem State.count_tdcs (a n : Nat) : (s.count a n).tdcs = s.tdcs := by rw [(count_eventsOnly s a n).1]
@[simp] theorem State.count_dlls (a n : Nat) : (s.count a n).dlls = s.dlls := by rw [(count_eventsOnly s a n).1]
@[simp] theorem State.count_lace (a n : Nat) : (s.count a n).lace = s.lace := by rw [(count_eventsOnly s a n).1]
@[simp] theorem State.count_ports (a n : Nat) : (s.count a n).ports = s.ports := by rw [(count_eventsOnly s a n).1]
@[simp] theorem State.count_spx1 (a n : Nat) : (s.count a n).spx1 = s.spx1 := by rw [(count_eventsOnly s a n).1]
@[simp] theorem State.count_calch (a n : Nat) : (s.count a n).calch = s.calch := by rw [(count_eventsOnly s a n).1]
@[simp] theorem State.count_cal (a n : Nat) : (s.count a n).cal = s.cal := by rw [(count_eventsOnly s a n).1]
@[simp] theorem State.count_nvm (a n : Nat) : (s.count a n).nvm = s.nvm := by rw [(count_eventsOnly s a n).1]
@[simp] theorem State.count_clk (a n : Nat) : (s.count a n).clk = s.clk := by rw [(count_eventsOnly s a n).1]
@[simp] theorem State.count_pwr (a n : Nat) : (s.count a n).pwr = s.pwr := by rw [(count_eventsOnly s a n).1]
@[simp] theorem State.count_thm (a n : Nat) : (s.count a n).thm = s.thm := by rw [(count_eventsOnly s a n).1]
@[simp] theorem State.count_boot (a n : Nat) : (s.count a n).boot = s.boot := by rw [(count_eventsOnly s a n).1]
@[simp] theorem State.count_straps (a n : Nat) : (s.count a n).straps = s.straps := by rw [(count_eventsOnly s a n).1]
@[simp] theorem State.count_installed (a n : Nat) : (s.count a n).installed = s.installed := by rw [(count_eventsOnly s a n).1]
@[simp] theorem State.count_tap (a n : Nat) : (s.count a n).tap = s.tap := by rw [(count_eventsOnly s a n).1]
@[simp] theorem State.count_hostBudget (a n : Nat) : (s.count a n).hostBudget = s.hostBudget := by rw [(count_eventsOnly s a n).1]
@[simp] theorem State.count_heldHost (a n : Nat) : (s.count a n).heldHost = s.heldHost := by rw [(count_eventsOnly s a n).1]
@[simp] theorem State.count_scrubA (a n : Nat) : (s.count a n).scrubA = s.scrubA := by rw [(count_eventsOnly s a n).1]
@[simp] theorem State.count_scrubB (a n : Nat) : (s.count a n).scrubB = s.scrubB := by rw [(count_eventsOnly s a n).1]
@[simp] theorem State.count_scrubAtA (a n : Nat) : (s.count a n).scrubAtA = s.scrubAtA := by rw [(count_eventsOnly s a n).1]
@[simp] theorem State.count_scrubAtB (a n : Nat) : (s.count a n).scrubAtB = s.scrubAtB := by rw [(count_eventsOnly s a n).1]
@[simp] theorem State.count_errAddrHeld (a n : Nat) : (s.count a n).errAddrHeld = s.errAddrHeld := by rw [(count_eventsOnly s a n).1]
@[simp] theorem State.count_acc_reg (a n : Nat) (k : Nat) : (s.count a n).reg k = s.reg k := by rw [(count_eventsOnly s a n).1]; rfl
@[simp] theorem State.count_acc_fld (a n : Nat) (k : Fld) : (s.count a n).fld k = s.fld k := by rw [(count_eventsOnly s a n).1]; rfl
@[simp] theorem State.count_acc_bit (a n : Nat) (k : Fld) : (s.count a n).bit k = s.bit k := by rw [(count_eventsOnly s a n).1]; rfl
@[simp] theorem State.count_acc_hbmByte (a n : Nat) (k : Nat) : (s.count a n).hbmByte k = s.hbmByte k := by rw [(count_eventsOnly s a n).1]; rfl
@[simp] theorem State.count_acc_q (a n : Nat) (k : Nat) : (s.count a n).q k = s.q k := by rw [(count_eventsOnly s a n).1]; rfl
@[simp] theorem State.count_acc_m (a n : Nat) (k : Nat) : (s.count a n).m k = s.m k := by rw [(count_eventsOnly s a n).1]; rfl
@[simp] theorem State.count_acc_r (a n : Nat) (k : Nat) : (s.count a n).r k = s.r k := by rw [(count_eventsOnly s a n).1]; rfl
@[simp] theorem State.count_acc_chan (a n : Nat) (k : Nat) : (s.count a n).chan k = s.chan k := by rw [(count_eventsOnly s a n).1]; rfl
@[simp] theorem State.count_acc_pmu (a n : Nat) (k : Nat) : (s.count a n).pmu k = s.pmu k := by rw [(count_eventsOnly s a n).1]; rfl
@[simp] theorem State.count_acc_sg (a n : Nat) (k : Nat) : (s.count a n).sg k = s.sg k := by rw [(count_eventsOnly s a n).1]; rfl
@[simp] theorem State.count_acc_ring (a n : Nat) (k : Nat) : (s.count a n).ring k = s.ring k := by rw [(count_eventsOnly s a n).1]; rfl
@[simp] theorem State.count_acc_tdc (a n : Nat) (k : Nat) : (s.count a n).tdc k = s.tdc k := by rw [(count_eventsOnly s a n).1]; rfl
@[simp] theorem State.count_acc_dll (a n : Nat) (k : Nat) : (s.count a n).dll k = s.dll k := by rw [(count_eventsOnly s a n).1]; rfl
@[simp] theorem State.count_acc_port (a n : Nat) (k : Nat) : (s.count a n).port k = s.port k := by rw [(count_eventsOnly s a n).1]; rfl
@[simp] theorem State.count_acc_calCh (a n : Nat) (k : Nat) : (s.count a n).calCh k = s.calCh k := by rw [(count_eventsOnly s a n).1]; rfl
@[simp] theorem State.count_acc_txn (a n : Nat) (k : Nat) : (s.count a n).txn k = s.txn k := by rw [(count_eventsOnly s a n).1]; rfl
@[simp] theorem State.count_acc_ent (a n : Nat) (k : Nat) : (s.count a n).ent k = s.ent k := by rw [(count_eventsOnly s a n).1]; rfl
@[simp] theorem State.count_acc_srcCnt (a n : Nat) (k : Nat) : (s.count a n).srcCnt k = s.srcCnt k := by rw [(count_eventsOnly s a n).1]; rfl

@[simp] theorem State.report_pending (x y : Nat) : (s.report x y).pending = s.pending := rfl
@[simp] theorem State.report_now (x y : Nat) : (s.report x y).now = s.now := rfl
@[simp] theorem State.report_freeCount (x y : Nat) : (s.report x y).freeCount = s.freeCount := rfl
@[simp] theorem State.report_regs (x y : Nat) : (s.report x y).regs = s.regs := rfl
@[simp] theorem State.report_copyB (x y : Nat) : (s.report x y).copyB = s.copyB := rfl
@[simp] theorem State.report_copyC (x y : Nat) : (s.report x y).copyC = s.copyC := rfl
@[simp] theorem State.report_hostRc (x y : Nat) : (s.report x y).hostRc = s.hostRc := rfl
@[simp] theorem State.report_spx1Rc (x y : Nat) : (s.report x y).spx1Rc = s.spx1Rc := rfl
@[simp] theorem State.report_holdH (x y : Nat) : (s.report x y).holdH = s.holdH := rfl
@[simp] theorem State.report_holdS (x y : Nat) : (s.report x y).holdS = s.holdS := rfl
@[simp] theorem State.report_posted (x y : Nat) : (s.report x y).posted = s.posted := rfl
@[simp] theorem State.report_handed (x y : Nat) : (s.report x y).handed = s.handed := rfl
@[simp] theorem State.report_cycle (x y : Nat) : (s.report x y).cycle = s.cycle := rfl
@[simp] theorem State.report_win (x y : Nat) : (s.report x y).win = s.win := rfl
@[simp] theorem State.report_hbm (x y : Nat) : (s.report x y).hbm = s.hbm := rfl
@[simp] theorem State.report_msgs (x y : Nat) : (s.report x y).msgs = s.msgs := rfl
@[simp] theorem State.report_hostMem (x y : Nat) : (s.report x y).hostMem = s.hostMem := rfl
@[simp] theorem State.report_reads (x y : Nat) : (s.report x y).reads = s.reads := rfl
@[simp] theorem State.report_ep (x y : Nat) : (s.report x y).ep = s.ep := rfl
@[simp] theorem State.report_linkUp (x y : Nat) : (s.report x y).linkUp = s.linkUp := rfl
@[simp] theorem State.report_pcie (x y : Nat) : (s.report x y).pcie = s.pcie := rfl
@[simp] theorem State.report_evcs (x y : Nat) : (s.report x y).evcs = s.evcs := rfl
@[simp] theorem State.report_txns (x y : Nat) : (s.report x y).txns = s.txns := rfl
@[simp] theorem State.report_srcs (x y : Nat) : (s.report x y).srcs = s.srcs := rfl
@[simp] theorem State.report_ents (x y : Nat) : (s.report x y).ents = s.ents := rfl
@[simp] theorem State.report_feHost (x y : Nat) : (s.report x y).feHost = s.feHost := rfl
@[simp] theorem State.report_feSpx1 (x y : Nat) : (s.report x y).feSpx1 = s.feSpx1 := rfl
@[simp] theorem State.report_qs (x y : Nat) : (s.report x y).qs = s.qs := rfl
@[simp] theorem State.report_qm (x y : Nat) : (s.report x y).qm = s.qm := rfl
@[simp] theorem State.report_qr (x y : Nat) : (s.report x y).qr = s.qr := rfl
@[simp] theorem State.report_chans (x y : Nat) : (s.report x y).chans = s.chans := rfl
@[simp] theorem State.report_pmus (x y : Nat) : (s.report x y).pmus = s.pmus := rfl
@[simp] theorem State.report_adcs (x y : Nat) : (s.report x y).adcs = s.adcs := rfl
@[simp] theorem State.report_adcAt (x y : Nat) : (s.report x y).adcAt = s.adcAt := rfl
@[simp] theorem State.report_sgs (x y : Nat) : (s.report x y).sgs = s.sgs := rfl
@[simp] theorem State.report_led (x y : Nat) : (s.report x y).led = s.led := rfl
@[simp] theorem State.report_rings (x y : Nat) : (s.report x y).rings = s.rings := rfl
@[simp] theorem State.report_pumpNext (x y : Nat) : (s.report x y).pumpNext = s.pumpNext := rfl
@[simp] theorem State.report_pumpAt (x y : Nat) : (s.report x y).pumpAt = s.pumpAt := rfl
@[simp] theorem State.report_pumpUsed (x y : Nat) : (s.report x y).pumpUsed = s.pumpUsed := rfl
@[simp] theorem State.report_tdcs (x y : Nat) : (s.report x y).tdcs = s.tdcs := rfl
@[simp] theorem State.report_dlls (x y : Nat) : (s.report x y).dlls = s.dlls := rfl
@[simp] theorem State.report_lace (x y : Nat) : (s.report x y).lace = s.lace := rfl
@[simp] theorem State.report_ports (x y : Nat) : (s.report x y).ports = s.ports := rfl
@[simp] theorem State.report_spx1 (x y : Nat) : (s.report x y).spx1 = s.spx1 := rfl
@[simp] theorem State.report_calch (x y : Nat) : (s.report x y).calch = s.calch := rfl
@[simp] theorem State.report_cal (x y : Nat) : (s.report x y).cal = s.cal := rfl
@[simp] theorem State.report_nvm (x y : Nat) : (s.report x y).nvm = s.nvm := rfl
@[simp] theorem State.report_clk (x y : Nat) : (s.report x y).clk = s.clk := rfl
@[simp] theorem State.report_pwr (x y : Nat) : (s.report x y).pwr = s.pwr := rfl
@[simp] theorem State.report_thm (x y : Nat) : (s.report x y).thm = s.thm := rfl
@[simp] theorem State.report_boot (x y : Nat) : (s.report x y).boot = s.boot := rfl
@[simp] theorem State.report_straps (x y : Nat) : (s.report x y).straps = s.straps := rfl
@[simp] theorem State.report_installed (x y : Nat) : (s.report x y).installed = s.installed := rfl
@[simp] theorem State.report_tap (x y : Nat) : (s.report x y).tap = s.tap := rfl
@[simp] theorem State.report_hostBudget (x y : Nat) : (s.report x y).hostBudget = s.hostBudget := rfl
@[simp] theorem State.report_heldHost (x y : Nat) : (s.report x y).heldHost = s.heldHost := rfl
@[simp] theorem State.report_scrubA (x y : Nat) : (s.report x y).scrubA = s.scrubA := rfl
@[simp] theorem State.report_scrubB (x y : Nat) : (s.report x y).scrubB = s.scrubB := rfl
@[simp] theorem State.report_scrubAtA (x y : Nat) : (s.report x y).scrubAtA = s.scrubAtA := rfl
@[simp] theorem State.report_scrubAtB (x y : Nat) : (s.report x y).scrubAtB = s.scrubAtB := rfl
@[simp] theorem State.report_errAddrHeld (x y : Nat) : (s.report x y).errAddrHeld = s.errAddrHeld := rfl
@[simp] theorem State.report_acc_reg (x y : Nat) (k : Nat) : (s.report x y).reg k = s.reg k := rfl
@[simp] theorem State.report_acc_fld (x y : Nat) (k : Fld) : (s.report x y).fld k = s.fld k := rfl
@[simp] theorem State.report_acc_bit (x y : Nat) (k : Fld) : (s.report x y).bit k = s.bit k := rfl
@[simp] theorem State.report_acc_rcHost (x y : Nat) (k : Nat) : (s.report x y).rcHost k = s.rcHost k := rfl
@[simp] theorem State.report_acc_rcSpx1 (x y : Nat) (k : Nat) : (s.report x y).rcSpx1 k = s.rcSpx1 k := rfl
@[simp] theorem State.report_acc_rcBit (x y : Nat) (k : Fld) : (s.report x y).rcBit k = s.rcBit k := rfl
@[simp] theorem State.report_acc_winGet (x y : Nat) (k : Nat) : (s.report x y).winGet k = s.winGet k := rfl
@[simp] theorem State.report_acc_hbmByte (x y : Nat) (k : Nat) : (s.report x y).hbmByte k = s.hbmByte k := rfl
@[simp] theorem State.report_acc_q (x y : Nat) (k : Nat) : (s.report x y).q k = s.q k := rfl
@[simp] theorem State.report_acc_m (x y : Nat) (k : Nat) : (s.report x y).m k = s.m k := rfl
@[simp] theorem State.report_acc_r (x y : Nat) (k : Nat) : (s.report x y).r k = s.r k := rfl
@[simp] theorem State.report_acc_chan (x y : Nat) (k : Nat) : (s.report x y).chan k = s.chan k := rfl
@[simp] theorem State.report_acc_pmu (x y : Nat) (k : Nat) : (s.report x y).pmu k = s.pmu k := rfl
@[simp] theorem State.report_acc_sg (x y : Nat) (k : Nat) : (s.report x y).sg k = s.sg k := rfl
@[simp] theorem State.report_acc_ring (x y : Nat) (k : Nat) : (s.report x y).ring k = s.ring k := rfl
@[simp] theorem State.report_acc_tdc (x y : Nat) (k : Nat) : (s.report x y).tdc k = s.tdc k := rfl
@[simp] theorem State.report_acc_dll (x y : Nat) (k : Nat) : (s.report x y).dll k = s.dll k := rfl
@[simp] theorem State.report_acc_port (x y : Nat) (k : Nat) : (s.report x y).port k = s.port k := rfl
@[simp] theorem State.report_acc_calCh (x y : Nat) (k : Nat) : (s.report x y).calCh k = s.calCh k := rfl
@[simp] theorem State.report_acc_txn (x y : Nat) (k : Nat) : (s.report x y).txn k = s.txn k := rfl
@[simp] theorem State.report_acc_evc (x y : Nat) (k : Nat) : (s.report x y).evc k = s.evc k := rfl
@[simp] theorem State.report_acc_ent (x y : Nat) (k : Nat) : (s.report x y).ent k = s.ent k := rfl
@[simp] theorem State.report_acc_srcCnt (x y : Nat) (k : Nat) : (s.report x y).srcCnt k = s.srcCnt k := rfl

@[simp] theorem State.reportC_pending (x c y : Nat) : (s.reportC x c y).pending = s.pending := rfl
@[simp] theorem State.reportC_now (x c y : Nat) : (s.reportC x c y).now = s.now := rfl
@[simp] theorem State.reportC_freeCount (x c y : Nat) : (s.reportC x c y).freeCount = s.freeCount := rfl
@[simp] theorem State.reportC_regs (x c y : Nat) : (s.reportC x c y).regs = s.regs := rfl
@[simp] theorem State.reportC_copyB (x c y : Nat) : (s.reportC x c y).copyB = s.copyB := rfl
@[simp] theorem State.reportC_copyC (x c y : Nat) : (s.reportC x c y).copyC = s.copyC := rfl
@[simp] theorem State.reportC_hostRc (x c y : Nat) : (s.reportC x c y).hostRc = s.hostRc := rfl
@[simp] theorem State.reportC_spx1Rc (x c y : Nat) : (s.reportC x c y).spx1Rc = s.spx1Rc := rfl
@[simp] theorem State.reportC_holdH (x c y : Nat) : (s.reportC x c y).holdH = s.holdH := rfl
@[simp] theorem State.reportC_holdS (x c y : Nat) : (s.reportC x c y).holdS = s.holdS := rfl
@[simp] theorem State.reportC_posted (x c y : Nat) : (s.reportC x c y).posted = s.posted := rfl
@[simp] theorem State.reportC_handed (x c y : Nat) : (s.reportC x c y).handed = s.handed := rfl
@[simp] theorem State.reportC_cycle (x c y : Nat) : (s.reportC x c y).cycle = s.cycle := rfl
@[simp] theorem State.reportC_win (x c y : Nat) : (s.reportC x c y).win = s.win := rfl
@[simp] theorem State.reportC_hbm (x c y : Nat) : (s.reportC x c y).hbm = s.hbm := rfl
@[simp] theorem State.reportC_msgs (x c y : Nat) : (s.reportC x c y).msgs = s.msgs := rfl
@[simp] theorem State.reportC_hostMem (x c y : Nat) : (s.reportC x c y).hostMem = s.hostMem := rfl
@[simp] theorem State.reportC_reads (x c y : Nat) : (s.reportC x c y).reads = s.reads := rfl
@[simp] theorem State.reportC_ep (x c y : Nat) : (s.reportC x c y).ep = s.ep := rfl
@[simp] theorem State.reportC_linkUp (x c y : Nat) : (s.reportC x c y).linkUp = s.linkUp := rfl
@[simp] theorem State.reportC_pcie (x c y : Nat) : (s.reportC x c y).pcie = s.pcie := rfl
@[simp] theorem State.reportC_evcs (x c y : Nat) : (s.reportC x c y).evcs = s.evcs := rfl
@[simp] theorem State.reportC_txns (x c y : Nat) : (s.reportC x c y).txns = s.txns := rfl
@[simp] theorem State.reportC_srcs (x c y : Nat) : (s.reportC x c y).srcs = s.srcs := rfl
@[simp] theorem State.reportC_ents (x c y : Nat) : (s.reportC x c y).ents = s.ents := rfl
@[simp] theorem State.reportC_feHost (x c y : Nat) : (s.reportC x c y).feHost = s.feHost := rfl
@[simp] theorem State.reportC_feSpx1 (x c y : Nat) : (s.reportC x c y).feSpx1 = s.feSpx1 := rfl
@[simp] theorem State.reportC_qs (x c y : Nat) : (s.reportC x c y).qs = s.qs := rfl
@[simp] theorem State.reportC_qm (x c y : Nat) : (s.reportC x c y).qm = s.qm := rfl
@[simp] theorem State.reportC_qr (x c y : Nat) : (s.reportC x c y).qr = s.qr := rfl
@[simp] theorem State.reportC_chans (x c y : Nat) : (s.reportC x c y).chans = s.chans := rfl
@[simp] theorem State.reportC_pmus (x c y : Nat) : (s.reportC x c y).pmus = s.pmus := rfl
@[simp] theorem State.reportC_adcs (x c y : Nat) : (s.reportC x c y).adcs = s.adcs := rfl
@[simp] theorem State.reportC_adcAt (x c y : Nat) : (s.reportC x c y).adcAt = s.adcAt := rfl
@[simp] theorem State.reportC_sgs (x c y : Nat) : (s.reportC x c y).sgs = s.sgs := rfl
@[simp] theorem State.reportC_led (x c y : Nat) : (s.reportC x c y).led = s.led := rfl
@[simp] theorem State.reportC_rings (x c y : Nat) : (s.reportC x c y).rings = s.rings := rfl
@[simp] theorem State.reportC_pumpNext (x c y : Nat) : (s.reportC x c y).pumpNext = s.pumpNext := rfl
@[simp] theorem State.reportC_pumpAt (x c y : Nat) : (s.reportC x c y).pumpAt = s.pumpAt := rfl
@[simp] theorem State.reportC_pumpUsed (x c y : Nat) : (s.reportC x c y).pumpUsed = s.pumpUsed := rfl
@[simp] theorem State.reportC_tdcs (x c y : Nat) : (s.reportC x c y).tdcs = s.tdcs := rfl
@[simp] theorem State.reportC_dlls (x c y : Nat) : (s.reportC x c y).dlls = s.dlls := rfl
@[simp] theorem State.reportC_lace (x c y : Nat) : (s.reportC x c y).lace = s.lace := rfl
@[simp] theorem State.reportC_ports (x c y : Nat) : (s.reportC x c y).ports = s.ports := rfl
@[simp] theorem State.reportC_spx1 (x c y : Nat) : (s.reportC x c y).spx1 = s.spx1 := rfl
@[simp] theorem State.reportC_calch (x c y : Nat) : (s.reportC x c y).calch = s.calch := rfl
@[simp] theorem State.reportC_cal (x c y : Nat) : (s.reportC x c y).cal = s.cal := rfl
@[simp] theorem State.reportC_nvm (x c y : Nat) : (s.reportC x c y).nvm = s.nvm := rfl
@[simp] theorem State.reportC_clk (x c y : Nat) : (s.reportC x c y).clk = s.clk := rfl
@[simp] theorem State.reportC_pwr (x c y : Nat) : (s.reportC x c y).pwr = s.pwr := rfl
@[simp] theorem State.reportC_thm (x c y : Nat) : (s.reportC x c y).thm = s.thm := rfl
@[simp] theorem State.reportC_boot (x c y : Nat) : (s.reportC x c y).boot = s.boot := rfl
@[simp] theorem State.reportC_straps (x c y : Nat) : (s.reportC x c y).straps = s.straps := rfl
@[simp] theorem State.reportC_installed (x c y : Nat) : (s.reportC x c y).installed = s.installed := rfl
@[simp] theorem State.reportC_tap (x c y : Nat) : (s.reportC x c y).tap = s.tap := rfl
@[simp] theorem State.reportC_hostBudget (x c y : Nat) : (s.reportC x c y).hostBudget = s.hostBudget := rfl
@[simp] theorem State.reportC_heldHost (x c y : Nat) : (s.reportC x c y).heldHost = s.heldHost := rfl
@[simp] theorem State.reportC_scrubA (x c y : Nat) : (s.reportC x c y).scrubA = s.scrubA := rfl
@[simp] theorem State.reportC_scrubB (x c y : Nat) : (s.reportC x c y).scrubB = s.scrubB := rfl
@[simp] theorem State.reportC_scrubAtA (x c y : Nat) : (s.reportC x c y).scrubAtA = s.scrubAtA := rfl
@[simp] theorem State.reportC_scrubAtB (x c y : Nat) : (s.reportC x c y).scrubAtB = s.scrubAtB := rfl
@[simp] theorem State.reportC_errAddrHeld (x c y : Nat) : (s.reportC x c y).errAddrHeld = s.errAddrHeld := rfl
@[simp] theorem State.reportC_acc_reg (x c y : Nat) (k : Nat) : (s.reportC x c y).reg k = s.reg k := rfl
@[simp] theorem State.reportC_acc_fld (x c y : Nat) (k : Fld) : (s.reportC x c y).fld k = s.fld k := rfl
@[simp] theorem State.reportC_acc_bit (x c y : Nat) (k : Fld) : (s.reportC x c y).bit k = s.bit k := rfl
@[simp] theorem State.reportC_acc_rcHost (x c y : Nat) (k : Nat) : (s.reportC x c y).rcHost k = s.rcHost k := rfl
@[simp] theorem State.reportC_acc_rcSpx1 (x c y : Nat) (k : Nat) : (s.reportC x c y).rcSpx1 k = s.rcSpx1 k := rfl
@[simp] theorem State.reportC_acc_rcBit (x c y : Nat) (k : Fld) : (s.reportC x c y).rcBit k = s.rcBit k := rfl
@[simp] theorem State.reportC_acc_winGet (x c y : Nat) (k : Nat) : (s.reportC x c y).winGet k = s.winGet k := rfl
@[simp] theorem State.reportC_acc_hbmByte (x c y : Nat) (k : Nat) : (s.reportC x c y).hbmByte k = s.hbmByte k := rfl
@[simp] theorem State.reportC_acc_q (x c y : Nat) (k : Nat) : (s.reportC x c y).q k = s.q k := rfl
@[simp] theorem State.reportC_acc_m (x c y : Nat) (k : Nat) : (s.reportC x c y).m k = s.m k := rfl
@[simp] theorem State.reportC_acc_r (x c y : Nat) (k : Nat) : (s.reportC x c y).r k = s.r k := rfl
@[simp] theorem State.reportC_acc_chan (x c y : Nat) (k : Nat) : (s.reportC x c y).chan k = s.chan k := rfl
@[simp] theorem State.reportC_acc_pmu (x c y : Nat) (k : Nat) : (s.reportC x c y).pmu k = s.pmu k := rfl
@[simp] theorem State.reportC_acc_sg (x c y : Nat) (k : Nat) : (s.reportC x c y).sg k = s.sg k := rfl
@[simp] theorem State.reportC_acc_ring (x c y : Nat) (k : Nat) : (s.reportC x c y).ring k = s.ring k := rfl
@[simp] theorem State.reportC_acc_tdc (x c y : Nat) (k : Nat) : (s.reportC x c y).tdc k = s.tdc k := rfl
@[simp] theorem State.reportC_acc_dll (x c y : Nat) (k : Nat) : (s.reportC x c y).dll k = s.dll k := rfl
@[simp] theorem State.reportC_acc_port (x c y : Nat) (k : Nat) : (s.reportC x c y).port k = s.port k := rfl
@[simp] theorem State.reportC_acc_calCh (x c y : Nat) (k : Nat) : (s.reportC x c y).calCh k = s.calCh k := rfl
@[simp] theorem State.reportC_acc_txn (x c y : Nat) (k : Nat) : (s.reportC x c y).txn k = s.txn k := rfl
@[simp] theorem State.reportC_acc_evc (x c y : Nat) (k : Nat) : (s.reportC x c y).evc k = s.evc k := rfl
@[simp] theorem State.reportC_acc_ent (x c y : Nat) (k : Nat) : (s.reportC x c y).ent k = s.ent k := rfl
@[simp] theorem State.reportC_acc_srcCnt (x c y : Nat) (k : Nat) : (s.reportC x c y).srcCnt k = s.srcCnt k := rfl

@[simp] theorem State.reportAccess_pending (x y : Nat) (m : Master) (c : Nat) : (s.reportAccess x y m c).pending = s.pending := rfl
@[simp] theorem State.reportAccess_now (x y : Nat) (m : Master) (c : Nat) : (s.reportAccess x y m c).now = s.now := rfl
@[simp] theorem State.reportAccess_freeCount (x y : Nat) (m : Master) (c : Nat) : (s.reportAccess x y m c).freeCount = s.freeCount := rfl
@[simp] theorem State.reportAccess_regs (x y : Nat) (m : Master) (c : Nat) : (s.reportAccess x y m c).regs = s.regs := rfl
@[simp] theorem State.reportAccess_copyB (x y : Nat) (m : Master) (c : Nat) : (s.reportAccess x y m c).copyB = s.copyB := rfl
@[simp] theorem State.reportAccess_copyC (x y : Nat) (m : Master) (c : Nat) : (s.reportAccess x y m c).copyC = s.copyC := rfl
@[simp] theorem State.reportAccess_hostRc (x y : Nat) (m : Master) (c : Nat) : (s.reportAccess x y m c).hostRc = s.hostRc := rfl
@[simp] theorem State.reportAccess_spx1Rc (x y : Nat) (m : Master) (c : Nat) : (s.reportAccess x y m c).spx1Rc = s.spx1Rc := rfl
@[simp] theorem State.reportAccess_holdH (x y : Nat) (m : Master) (c : Nat) : (s.reportAccess x y m c).holdH = s.holdH := rfl
@[simp] theorem State.reportAccess_holdS (x y : Nat) (m : Master) (c : Nat) : (s.reportAccess x y m c).holdS = s.holdS := rfl
@[simp] theorem State.reportAccess_posted (x y : Nat) (m : Master) (c : Nat) : (s.reportAccess x y m c).posted = s.posted := rfl
@[simp] theorem State.reportAccess_handed (x y : Nat) (m : Master) (c : Nat) : (s.reportAccess x y m c).handed = s.handed := rfl
@[simp] theorem State.reportAccess_cycle (x y : Nat) (m : Master) (c : Nat) : (s.reportAccess x y m c).cycle = s.cycle := rfl
@[simp] theorem State.reportAccess_win (x y : Nat) (m : Master) (c : Nat) : (s.reportAccess x y m c).win = s.win := rfl
@[simp] theorem State.reportAccess_hbm (x y : Nat) (m : Master) (c : Nat) : (s.reportAccess x y m c).hbm = s.hbm := rfl
@[simp] theorem State.reportAccess_msgs (x y : Nat) (m : Master) (c : Nat) : (s.reportAccess x y m c).msgs = s.msgs := rfl
@[simp] theorem State.reportAccess_hostMem (x y : Nat) (m : Master) (c : Nat) : (s.reportAccess x y m c).hostMem = s.hostMem := rfl
@[simp] theorem State.reportAccess_reads (x y : Nat) (m : Master) (c : Nat) : (s.reportAccess x y m c).reads = s.reads := rfl
@[simp] theorem State.reportAccess_ep (x y : Nat) (m : Master) (c : Nat) : (s.reportAccess x y m c).ep = s.ep := rfl
@[simp] theorem State.reportAccess_linkUp (x y : Nat) (m : Master) (c : Nat) : (s.reportAccess x y m c).linkUp = s.linkUp := rfl
@[simp] theorem State.reportAccess_pcie (x y : Nat) (m : Master) (c : Nat) : (s.reportAccess x y m c).pcie = s.pcie := rfl
@[simp] theorem State.reportAccess_evcs (x y : Nat) (m : Master) (c : Nat) : (s.reportAccess x y m c).evcs = s.evcs := rfl
@[simp] theorem State.reportAccess_txns (x y : Nat) (m : Master) (c : Nat) : (s.reportAccess x y m c).txns = s.txns := rfl
@[simp] theorem State.reportAccess_srcs (x y : Nat) (m : Master) (c : Nat) : (s.reportAccess x y m c).srcs = s.srcs := rfl
@[simp] theorem State.reportAccess_ents (x y : Nat) (m : Master) (c : Nat) : (s.reportAccess x y m c).ents = s.ents := rfl
@[simp] theorem State.reportAccess_feHost (x y : Nat) (m : Master) (c : Nat) : (s.reportAccess x y m c).feHost = s.feHost := rfl
@[simp] theorem State.reportAccess_feSpx1 (x y : Nat) (m : Master) (c : Nat) : (s.reportAccess x y m c).feSpx1 = s.feSpx1 := rfl
@[simp] theorem State.reportAccess_qs (x y : Nat) (m : Master) (c : Nat) : (s.reportAccess x y m c).qs = s.qs := rfl
@[simp] theorem State.reportAccess_qm (x y : Nat) (m : Master) (c : Nat) : (s.reportAccess x y m c).qm = s.qm := rfl
@[simp] theorem State.reportAccess_qr (x y : Nat) (m : Master) (c : Nat) : (s.reportAccess x y m c).qr = s.qr := rfl
@[simp] theorem State.reportAccess_chans (x y : Nat) (m : Master) (c : Nat) : (s.reportAccess x y m c).chans = s.chans := rfl
@[simp] theorem State.reportAccess_pmus (x y : Nat) (m : Master) (c : Nat) : (s.reportAccess x y m c).pmus = s.pmus := rfl
@[simp] theorem State.reportAccess_adcs (x y : Nat) (m : Master) (c : Nat) : (s.reportAccess x y m c).adcs = s.adcs := rfl
@[simp] theorem State.reportAccess_adcAt (x y : Nat) (m : Master) (c : Nat) : (s.reportAccess x y m c).adcAt = s.adcAt := rfl
@[simp] theorem State.reportAccess_sgs (x y : Nat) (m : Master) (c : Nat) : (s.reportAccess x y m c).sgs = s.sgs := rfl
@[simp] theorem State.reportAccess_led (x y : Nat) (m : Master) (c : Nat) : (s.reportAccess x y m c).led = s.led := rfl
@[simp] theorem State.reportAccess_rings (x y : Nat) (m : Master) (c : Nat) : (s.reportAccess x y m c).rings = s.rings := rfl
@[simp] theorem State.reportAccess_pumpNext (x y : Nat) (m : Master) (c : Nat) : (s.reportAccess x y m c).pumpNext = s.pumpNext := rfl
@[simp] theorem State.reportAccess_pumpAt (x y : Nat) (m : Master) (c : Nat) : (s.reportAccess x y m c).pumpAt = s.pumpAt := rfl
@[simp] theorem State.reportAccess_pumpUsed (x y : Nat) (m : Master) (c : Nat) : (s.reportAccess x y m c).pumpUsed = s.pumpUsed := rfl
@[simp] theorem State.reportAccess_tdcs (x y : Nat) (m : Master) (c : Nat) : (s.reportAccess x y m c).tdcs = s.tdcs := rfl
@[simp] theorem State.reportAccess_dlls (x y : Nat) (m : Master) (c : Nat) : (s.reportAccess x y m c).dlls = s.dlls := rfl
@[simp] theorem State.reportAccess_lace (x y : Nat) (m : Master) (c : Nat) : (s.reportAccess x y m c).lace = s.lace := rfl
@[simp] theorem State.reportAccess_ports (x y : Nat) (m : Master) (c : Nat) : (s.reportAccess x y m c).ports = s.ports := rfl
@[simp] theorem State.reportAccess_spx1 (x y : Nat) (m : Master) (c : Nat) : (s.reportAccess x y m c).spx1 = s.spx1 := rfl
@[simp] theorem State.reportAccess_calch (x y : Nat) (m : Master) (c : Nat) : (s.reportAccess x y m c).calch = s.calch := rfl
@[simp] theorem State.reportAccess_cal (x y : Nat) (m : Master) (c : Nat) : (s.reportAccess x y m c).cal = s.cal := rfl
@[simp] theorem State.reportAccess_nvm (x y : Nat) (m : Master) (c : Nat) : (s.reportAccess x y m c).nvm = s.nvm := rfl
@[simp] theorem State.reportAccess_clk (x y : Nat) (m : Master) (c : Nat) : (s.reportAccess x y m c).clk = s.clk := rfl
@[simp] theorem State.reportAccess_pwr (x y : Nat) (m : Master) (c : Nat) : (s.reportAccess x y m c).pwr = s.pwr := rfl
@[simp] theorem State.reportAccess_thm (x y : Nat) (m : Master) (c : Nat) : (s.reportAccess x y m c).thm = s.thm := rfl
@[simp] theorem State.reportAccess_boot (x y : Nat) (m : Master) (c : Nat) : (s.reportAccess x y m c).boot = s.boot := rfl
@[simp] theorem State.reportAccess_straps (x y : Nat) (m : Master) (c : Nat) : (s.reportAccess x y m c).straps = s.straps := rfl
@[simp] theorem State.reportAccess_installed (x y : Nat) (m : Master) (c : Nat) : (s.reportAccess x y m c).installed = s.installed := rfl
@[simp] theorem State.reportAccess_tap (x y : Nat) (m : Master) (c : Nat) : (s.reportAccess x y m c).tap = s.tap := rfl
@[simp] theorem State.reportAccess_hostBudget (x y : Nat) (m : Master) (c : Nat) : (s.reportAccess x y m c).hostBudget = s.hostBudget := rfl
@[simp] theorem State.reportAccess_heldHost (x y : Nat) (m : Master) (c : Nat) : (s.reportAccess x y m c).heldHost = s.heldHost := rfl
@[simp] theorem State.reportAccess_scrubA (x y : Nat) (m : Master) (c : Nat) : (s.reportAccess x y m c).scrubA = s.scrubA := rfl
@[simp] theorem State.reportAccess_scrubB (x y : Nat) (m : Master) (c : Nat) : (s.reportAccess x y m c).scrubB = s.scrubB := rfl
@[simp] theorem State.reportAccess_scrubAtA (x y : Nat) (m : Master) (c : Nat) : (s.reportAccess x y m c).scrubAtA = s.scrubAtA := rfl
@[simp] theorem State.reportAccess_scrubAtB (x y : Nat) (m : Master) (c : Nat) : (s.reportAccess x y m c).scrubAtB = s.scrubAtB := rfl
@[simp] theorem State.reportAccess_errAddrHeld (x y : Nat) (m : Master) (c : Nat) : (s.reportAccess x y m c).errAddrHeld = s.errAddrHeld := rfl
@[simp] theorem State.reportAccess_acc_reg (x y : Nat) (m : Master) (c : Nat) (k : Nat) : (s.reportAccess x y m c).reg k = s.reg k := rfl
@[simp] theorem State.reportAccess_acc_fld (x y : Nat) (m : Master) (c : Nat) (k : Fld) : (s.reportAccess x y m c).fld k = s.fld k := rfl
@[simp] theorem State.reportAccess_acc_bit (x y : Nat) (m : Master) (c : Nat) (k : Fld) : (s.reportAccess x y m c).bit k = s.bit k := rfl
@[simp] theorem State.reportAccess_acc_rcHost (x y : Nat) (m : Master) (c : Nat) (k : Nat) : (s.reportAccess x y m c).rcHost k = s.rcHost k := rfl
@[simp] theorem State.reportAccess_acc_rcSpx1 (x y : Nat) (m : Master) (c : Nat) (k : Nat) : (s.reportAccess x y m c).rcSpx1 k = s.rcSpx1 k := rfl
@[simp] theorem State.reportAccess_acc_rcBit (x y : Nat) (m : Master) (c : Nat) (k : Fld) : (s.reportAccess x y m c).rcBit k = s.rcBit k := rfl
@[simp] theorem State.reportAccess_acc_winGet (x y : Nat) (m : Master) (c : Nat) (k : Nat) : (s.reportAccess x y m c).winGet k = s.winGet k := rfl
@[simp] theorem State.reportAccess_acc_hbmByte (x y : Nat) (m : Master) (c : Nat) (k : Nat) : (s.reportAccess x y m c).hbmByte k = s.hbmByte k := rfl
@[simp] theorem State.reportAccess_acc_q (x y : Nat) (m : Master) (c : Nat) (k : Nat) : (s.reportAccess x y m c).q k = s.q k := rfl
@[simp] theorem State.reportAccess_acc_m (x y : Nat) (m : Master) (c : Nat) (k : Nat) : (s.reportAccess x y m c).m k = s.m k := rfl
@[simp] theorem State.reportAccess_acc_r (x y : Nat) (m : Master) (c : Nat) (k : Nat) : (s.reportAccess x y m c).r k = s.r k := rfl
@[simp] theorem State.reportAccess_acc_chan (x y : Nat) (m : Master) (c : Nat) (k : Nat) : (s.reportAccess x y m c).chan k = s.chan k := rfl
@[simp] theorem State.reportAccess_acc_pmu (x y : Nat) (m : Master) (c : Nat) (k : Nat) : (s.reportAccess x y m c).pmu k = s.pmu k := rfl
@[simp] theorem State.reportAccess_acc_sg (x y : Nat) (m : Master) (c : Nat) (k : Nat) : (s.reportAccess x y m c).sg k = s.sg k := rfl
@[simp] theorem State.reportAccess_acc_ring (x y : Nat) (m : Master) (c : Nat) (k : Nat) : (s.reportAccess x y m c).ring k = s.ring k := rfl
@[simp] theorem State.reportAccess_acc_tdc (x y : Nat) (m : Master) (c : Nat) (k : Nat) : (s.reportAccess x y m c).tdc k = s.tdc k := rfl
@[simp] theorem State.reportAccess_acc_dll (x y : Nat) (m : Master) (c : Nat) (k : Nat) : (s.reportAccess x y m c).dll k = s.dll k := rfl
@[simp] theorem State.reportAccess_acc_port (x y : Nat) (m : Master) (c : Nat) (k : Nat) : (s.reportAccess x y m c).port k = s.port k := rfl
@[simp] theorem State.reportAccess_acc_calCh (x y : Nat) (m : Master) (c : Nat) (k : Nat) : (s.reportAccess x y m c).calCh k = s.calCh k := rfl
@[simp] theorem State.reportAccess_acc_txn (x y : Nat) (m : Master) (c : Nat) (k : Nat) : (s.reportAccess x y m c).txn k = s.txn k := rfl
@[simp] theorem State.reportAccess_acc_evc (x y : Nat) (m : Master) (c : Nat) (k : Nat) : (s.reportAccess x y m c).evc k = s.evc k := rfl
@[simp] theorem State.reportAccess_acc_ent (x y : Nat) (m : Master) (c : Nat) (k : Nat) : (s.reportAccess x y m c).ent k = s.ent k := rfl
@[simp] theorem State.reportAccess_acc_srcCnt (x y : Nat) (m : Master) (c : Nat) (k : Nat) : (s.reportAccess x y m c).srcCnt k = s.srcCnt k := rfl

end Sys2Proof.Machine
end

