-- ==== Sys2Proof/Laws/Fabric.lean ====
section
/-! SUPPORT. One access that the fabric serves at once: what it comes to. -/

namespace Sys2Proof.Machine

theorem busAddr_eq {a : Nat} (h : a < 2 ^ 24) (h4 : a % 4 = 0) : busAddr a = a := by
  unfold busAddr
  omega

theorem mask_of_pair (x y : Word) : ((x ++ y) >>> 16).setWidth 16 = x := by
  apply BitVec.eq_of_toNat_eq
  have hy := y.isLt
  have hx := x.isLt
  simp only [BitVec.toNat_setWidth, BitVec.toNat_ushiftRight, BitVec.toNat_append]
  rw [Nat.shiftRight_or_distrib, Nat.shiftLeft_shiftRight, Nat.shiftRight_eq_div_pow y.toNat, Nat.div_eq_of_lt hy, Nat.or_zero]
  exact Nat.mod_eq_of_lt hx

theorem data_of_pair (x y : Word) : (x ++ y).setWidth 16 = y := BitVec.setWidth_append_eq_right

/-! ### What a host packet and a wake leave -/

theorem countTlps_eventsOnly (s : State) (rx : Bool) (n : Nat) : s.eventsOnly (countTlps rx n s) :=
  count_eventsOnly s _ n

/-- The count of a host access's packets touches events alone. -/
theorem hostTlps_eventsOnly (m : Master) (w : Bool) (s : State) : s.eventsOnly (hostTlps m w s) := by
  unfold hostTlps
  split
  · split
    · exact countTlps_eventsOnly _ _ _
    · exact State.eventsOnly_trans (countTlps_eventsOnly _ _ _) (countTlps_eventsOnly _ _ _)
  · exact s.eventsOnly_refl

/-- Where nothing sleeps, an access wakes nothing. -/
theorem wakeCentral_eq {s : State} (h : s.pstate ≠ 3 ∨ s.centralOff = false) : wakeCentral s = s := by
  unfold wakeCentral
  rw [if_neg]
  rcases h with h | h <;> simp [h]

/-- What serves an access serves it when events alone differ. -/
theorem State.Serves.events {s t : State} {m : Master} {a : Nat} (h : s.Serves m a) (e : s.eventsOnly t) : t.Serves m a := by
  rw [e.1]
  exact ⟨h.up, h.clocked, h.awake, h.ahead, h.domain, h.region⟩

theorem State.Takes.events {s t : State} {m : Master} {a : Nat} (h : s.Takes m a) (e : s.eventsOnly t) : t.Takes m a where
  toServes := h.toServes.events e
  boot := by rw [e.1]; exact h.boot
  free := by rw [e.1]; exact h.free
  first := by rw [e.1]; exact h.first

theorem hostTlps_now (m : Master) (w : Bool) (s : State) : (hostTlps m w s).now = s.now := by
  rw [(hostTlps_eventsOnly m w s).1]

/-- An access that is served at once. -/
theorem access_eq {x : Stalled} {s : State} (h : s.Serves x.master x.addr) : access x s = serve x s := by
  unfold access
  rw [wakeCentral_eq h.awake]
  dsimp only
  rw [if_neg (by simp [h.up]), if_neg (by simp [h.clocked, h.ahead])]
  have hq : s.offQuarter x = none := by
    unfold State.offQuarter
    split
    · rfl
    · split
      · rename_i q hq
        rw [if_pos (h.domain q hq)]
      · rfl
  rw [hq]

/-- A mapped register, a full dword, and nothing that refuses it. -/
theorem discards_reg {s : State} {m : Master} {a : Nat} {r : RegRow} (h : s.Takes m a) (hr : rowOf a = some r) :
    s.discards m a 0xF = false := by
  unfold State.discards mapped
  simp [hr, h.region, h.boot]

theorem busReg_serve {s : State} {m : Master} {a : Nat} {r : RegRow} (mask data : Word) (h : s.Takes m a)
    (ha : busAddr a = a) (hw : isWindow a = false) (hr : rowOf a = some r) :
    busReg m a mask data s = regWrite m a (mask ++ data) (hostTlps m true s) := by
  have h' := h.events (hostTlps_eventsOnly m true s)
  unfold busReg busWrite
  rw [ha, access_eq h'.toServes]
  have hd := discards_reg h' hr
  simp only [serve, serveWrite, hd, hw]
  simp

/-- A register that is not posted takes a write at once, and the write is remembered for its MCLK cycle. -/
theorem busReg_eq {s : State} {m : Master} {a : Nat} {r : RegRow} (mask data : Word) (h : s.Takes m a)
    (ha : busAddr a = a) (hw : isWindow a = false) (hr : rowOf a = some r) (ht : txnUnitAt a = none)
    (hp : pstatOf a = none) (hy : (decide (0x34000 ≤ a) && decide (a < 0x36000)) = false) :
    busReg m a mask data s = (applyReg m a mask data (granuleNext s.now)
      (noteCycle m a (mask &&& BitVec.ofNat 16 r.rw) (hostTlps m true s))).1 := by
  have h' := h.events (hostTlps_eventsOnly m true s)
  rw [busReg_serve mask data h ha hw hr]
  unfold regWrite
  simp only [ht, hr, h'.free, h'.first, hp, mask_of_pair, data_of_pair, hy, Bool.false_and, hostTlps_now]
  have hm : mask &&& ~~~((0 : Word) &&& BitVec.ofNat 16 r.rw) = mask := by
    rw [show (0 : Word) = 0#16 from rfl, BitVec.zero_and, BitVec.not_zero, BitVec.and_allOnes]
  simp only [hm]
  simp

/-- The register at `a` has the row `r`, is aligned, and is neither window, transaction register nor RDY register; `p` is
its PSTAT where it is posted. All of it is decided by the address. -/
def plainReg (a : Nat) (r : RegRow) (p : Option Nat) : Bool :=
  busAddr a = a && !isWindow a && rowOf a = some r && txnUnitAt a = none && pstatOf a = p &&
    !(0x34000 ≤ a && a < 0x36000)

theorem plainReg_row {a : Nat} {r : RegRow} {p : Option Nat} (h : plainReg a r p = true) : rowOf a = some r := by
  simp only [plainReg, Bool.and_eq_true, decide_eq_true_eq] at h
  exact h.1.1.1.2

theorem plainReg_window {a : Nat} {r : RegRow} {p : Option Nat} (h : plainReg a r p = true) : isWindow a = false := by
  simp only [plainReg, Bool.and_eq_true, Bool.not_eq_true', decide_eq_true_eq] at h
  exact h.1.1.1.1.2

theorem plainReg_addr {a : Nat} {r : RegRow} {p : Option Nat} (h : plainReg a r p = true) : busAddr a = a := by
  simp only [plainReg, Bool.and_eq_true, decide_eq_true_eq] at h
  exact h.1.1.1.1.1

/-- A write to a register that is not posted is applied at once. -/
theorem busReg_plain {s : State} {m : Master} {a : Nat} {r : RegRow} (mask data : Word) (hp : plainReg a r none = true)
    (h : s.Takes m a) : busReg m a mask data s = (applyReg m a mask data (granuleNext s.now)
      (noteCycle m a (mask &&& BitVec.ofNat 16 r.rw) (hostTlps m true s))).1 := by
  simp only [plainReg, Bool.and_eq_true, Bool.not_eq_true', decide_eq_true_eq] at hp
  obtain ⟨⟨⟨⟨⟨h1, h2⟩, h3⟩, h4⟩, h5⟩, h6⟩ := hp
  exact busReg_eq mask data h h1 h2 h3 h4 h5 h6

/-- A register of a posted block. -/
theorem busReg_posted {s : State} {m : Master} {a p : Nat} {r : RegRow} (mask data : Word) (h : s.Takes m a)
    (ha : busAddr a = a) (hw : isWindow a = false) (hr : rowOf a = some r) (ht : txnUnitAt a = none)
    (hp : pstatOf a = some p) (hy : (decide (0x34000 ≤ a) && decide (a < 0x36000)) = false) :
    busReg m a mask data s = postWrite p { addr := a, mask := mask, data := data } (hostTlps m true s) := by
  have h' := h.events (hostTlps_eventsOnly m true s)
  rw [busReg_serve mask data h ha hw hr]
  unfold regWrite
  simp only [ht, hr, h'.free, hp, mask_of_pair, data_of_pair, hy, Bool.false_and]
  simp

/-- A register of a transaction unit. -/
theorem busReg_txn {s : State} {m : Master} {a u : Nat} {r : RegRow} (mask data : Word) (h : s.Takes m a)
    (ha : busAddr a = a) (hw : isWindow a = false) (hr : rowOf a = some r) (ht : txnUnitAt a = some u) :
    busReg m a mask data s = txnWrite m u a mask data (hostTlps m true s) := by
  rw [busReg_serve mask data h ha hw hr]
  unfold regWrite
  simp only [ht, mask_of_pair, data_of_pair]

/-- A window takes a write at once. -/
theorem busWrite_window {s : State} {m : Master} {a : Nat} (be : BitVec 4) (v : Dword) (h : s.Serves m a)
    (hb : s.bootRefuses m a = false) (ha : busAddr a = a) (hw : isWindow a = true) :
    busWrite m a be v s = winWrite m a be v (hostTlps m true s) := by
  have e := hostTlps_eventsOnly m true s
  have h' := h.events e
  have hb' : (hostTlps m true s).bootRefuses m a = false := by rw [e.1]; exact hb
  unfold busWrite
  rw [ha, access_eq h']
  unfold serve serveWrite State.discards mapped
  simp [hw, h'.region, hb']

/-- A read of a register. -/
theorem busRead_eq {s : State} {m : Master} {a : Nat} {r : RegRow} (h : s.Serves m a) (ha : busAddr a = a)
    (hw : isWindow a = false) (hr : rowOf a = some r) :
    busRead m a s = pushRead m a ((hostTlps m false s).readDword m a) (readEffect m a r.rc (hostTlps m false s)) := by
  have h' := h.events (hostTlps_eventsOnly m false s)
  unfold busRead
  rw [ha, access_eq h']
  unfold serve serveRead mapped
  simp [hr, hw, h'.region]

/-- What it answers. -/
theorem readDword_eq {s : State} {m : Master} {a : Nat} {r : RegRow} (h : s.Serves m a) (hw : isWindow a = false)
    (hr : rowOf a = some r) : s.readDword m a = (s.readValue m a r.rc).setWidth 32 := by
  unfold State.readDword mapped
  simp only [hr, hw, h.region]
  simp

/-- A read of a register that holds what it shows. -/
theorem busRead_plain {s : State} {m : Master} {a : Nat} {r : RegRow} {p : Option Nat} (hp : plainReg a r p = true)
    (h : s.Serves m a) :
    busRead m a s = pushRead m a (((hostTlps m false s).readValue m a r.rc).setWidth 32)
      (readEffect m a r.rc (hostTlps m false s)) := by
  simp only [plainReg, Bool.and_eq_true, Bool.not_eq_true', decide_eq_true_eq] at hp
  obtain ⟨⟨⟨⟨⟨h1, h2⟩, h3⟩, h4⟩, h5⟩, h6⟩ := hp
  rw [busRead_eq h h1 h2 h3, readDword_eq (h.events (hostTlps_eventsOnly m false s)) h2 h3]

/-- A posted register's write reaches its domain. -/
theorem postedEffect_eq {s : State} {a : Nat} (mask data : Word) (h : s.Runs a) :
    postedEffect a mask data s = (applyReg .pcie a mask data (granuleNext s.now) s).1 := by
  unfold postedEffect
  cases hq : addrQuarter a with
  | none => simp [h.up, h.clocked]
  | some q => simp [h.up, h.clocked, h.domain q hq]

end Sys2Proof.Machine
end

