-- ==== Sys2Proof/Laws/Kept.lean ====
section
/-! SUPPORT. `State.Kept` under record updates, the named operations, branches and folds. -/

namespace Sys2Proof.Machine

/-- A sound state whose queue is `Q`: what every operation keeps, since none touches the queue. -/
structure State.Kept (Q : List Instr) (s : State) : Prop extends State.Sound s where
  pending : s.pending = Q

theorem tabFilter_wf {α : Type} [DecidableEq α] (d : Nat → α) (p : Nat × α → Bool) {t : Tab α} (h : tabWf d t = true) :
    tabWf d (t.filter p) = true := by
  induction t with
  | nil => rfl
  | cons e t ih =>
    rw [tabWf_cons] at h
    obtain ⟨h1, h2, h3⟩ := h
    have h4 := ih h3
    rw [List.filter_cons]
    split
    · rw [tabWf_cons]
      exact ⟨h1, fun x hx => h2 x (List.mem_filter.1 hx).1, h4⟩
    · exact h4

/-- An update of fields that are no table. -/
theorem kept_mk {Q} {s : State}
      {v_now v_freeCount v_cycle v_msgs v_hostMem v_reads v_ep v_linkUp v_pcie v_reported v_feHost v_feSpx1 v_led
      v_pumpNext v_pumpAt v_pumpUsed v_lace v_spx1 v_cal v_nvm v_clk v_pwr v_thm v_boot v_straps v_tap v_hostBudget
      v_heldHost v_scrubA v_scrubB v_scrubAtA v_scrubAtB v_errAddrHeld}
    (h : s.Kept Q) :
    (State.mk s.pending v_now v_freeCount s.regs s.copyB s.copyC s.hostRc s.spx1Rc s.holdH s.holdS s.posted s.handed v_cycle
      s.win s.hbm v_msgs v_hostMem v_reads v_ep v_linkUp v_pcie s.evcs s.txns v_reported s.srcs s.ents v_feHost
      v_feSpx1 s.qs s.qm s.qr s.chans s.pmus s.adcs s.adcAt s.sgs v_led s.rings v_pumpNext v_pumpAt v_pumpUsed s.tdcs
      s.dlls v_lace s.ports v_spx1 s.calch v_cal v_nvm v_clk v_pwr v_thm v_boot v_straps s.installed v_tap
      v_hostBudget v_heldHost v_scrubA v_scrubB v_scrubAtA v_scrubAtB v_errAddrHeld).Kept Q :=
  { h with }

theorem kept_ite {Q} {c : Prop} [Decidable c] {a b : State} (ha : a.Kept Q) (hb : b.Kept Q) : (ite c a b).Kept Q := by
  split <;> assumption

theorem kept_ite_fst {Q} {α : Type} {c : Prop} [Decidable c] {a b : State × α} (ha : a.1.Kept Q) (hb : b.1.Kept Q) :
    (ite c a b).1.Kept Q := by
  split <;> assumption

theorem kept_ite_snd {Q} {α : Type} {c : Prop} [Decidable c] {a b : α × State} (ha : a.2.Kept Q) (hb : b.2.Kept Q) :
    (ite c a b).2.Kept Q := by
  split <;> assumption

theorem kept_fst {Q} {α : Type} {a : State} {b : α} (h : a.Kept Q) : (a, b).1.Kept Q := h

theorem kept_snd {Q} {α : Type} {a : State} {b : α} (h : a.Kept Q) : (b, a).2.Kept Q := h

theorem foldl_kept {Q} {β : Type} {f : State → β → State} {l : List β} {s : State}
    (hf : ∀ s, s.Kept Q → ∀ x, (f s x).Kept Q) (h : s.Kept Q) : (l.foldl f s).Kept Q := by
  induction l generalizing s with
  | nil => exact h
  | cons a l ih => exact ih (hf _ h _)

theorem foldl_kept_fst {Q} {β γ : Type} {f : State × γ → β → State × γ} {l : List β} {s : State × γ}
    (hf : ∀ s, s.1.Kept Q → ∀ x, (f s x).1.Kept Q) (h : s.1.Kept Q) : (l.foldl f s).1.Kept Q := by
  induction l generalizing s with
  | nil => exact h
  | cons a l ih => exact ih (hf _ h _)

theorem foldl_kept_snd {Q} {β γ : Type} {f : γ × State → β → γ × State} {l : List β} {s : γ × State}
    (hf : ∀ s, s.2.Kept Q → ∀ x, (f s x).2.Kept Q) (h : s.2.Kept Q) : (l.foldl f s).2.Kept Q := by
  induction l generalizing s with
  | nil => exact h
  | cons a l ih => exact ih (hf _ h _)

end Sys2Proof.Machine
end

