-- ==== Sys2Proof/Laws/KeptOps.lean ====
section
/-! SUPPORT. The operations of Machine/Ops.lean keep `State.Kept`. -/

namespace Sys2Proof.Machine

theorem State.setReg_kept {Q} {s : State} {a} {v} (hs : State.Kept Q s) :
    State.Kept Q (State.setReg s a v) := by
  delta State.setReg
  exact { hs with regs := by dsimp only; exact tabSet_wf _ _ _ _ (hs.regs), copyB := by dsimp only; exact tabErase_wf _ _ _ (hs.copyB), copyC := by dsimp only; exact tabErase_wf _ _ _ (hs.copyC) }

theorem State.setBits_kept {Q} {s : State} {a} {m} {v} (hs : State.Kept Q s) :
    State.Kept Q (State.setBits s a m v) := by
  delta State.setBits
  exact { hs with regs := by dsimp only; exact tabSet_wf _ _ _ _ (hs.regs), copyB := by dsimp only; exact tabSet_wf _ _ _ _ (hs.copyB), copyC := by dsimp only; exact tabSet_wf _ _ _ _ (hs.copyC) }

theorem State.setFld_kept {Q} {s : State} {f} {n} (hs : State.Kept Q s) :
    State.Kept Q (State.setFld s f n) := by
  delta State.setFld
  exact State.setBits_kept hs

theorem State.setBit_kept {Q} {s : State} {f} {b} (hs : State.Kept Q s) :
    State.Kept Q (State.setBit s f b) := by
  delta State.setBit
  exact State.setFld_kept hs

theorem State.addSat_kept {Q} {s : State} {f} {n} (hs : State.Kept Q s) :
    State.Kept Q (State.addSat s f n) := by
  delta State.addSat
  exact State.setFld_kept hs

theorem State.setRc_kept {Q} {s : State} {a} {m} (hs : State.Kept Q s) :
    State.Kept Q (State.setRc s a m) := by
  delta State.setRc
  exact { hs with hostRc := by dsimp only; exact tabSet_wf _ _ _ _ (hs.hostRc), spx1Rc := by dsimp only; exact tabSet_wf _ _ _ _ (hs.spx1Rc) }

theorem State.clrRcHost_kept {Q} {s : State} {a} (hs : State.Kept Q s) :
    State.Kept Q (State.clrRcHost s a) := by
  delta State.clrRcHost
  exact { hs with hostRc := by dsimp only; exact tabErase_wf _ _ _ (hs.hostRc) }

theorem State.clrRcSpx1_kept {Q} {s : State} {a} (hs : State.Kept Q s) :
    State.Kept Q (State.clrRcSpx1 s a) := by
  delta State.clrRcSpx1
  exact { hs with spx1Rc := by dsimp only; exact tabErase_wf _ _ _ (hs.spx1Rc) }

theorem State.winSet_kept {Q} {s : State} {a} {v} (hs : State.Kept Q s) :
    State.Kept Q (State.winSet s a v) := by
  delta State.winSet
  exact { hs with win := by dsimp only; exact tabSet_wf _ _ _ _ (hs.win) }

theorem State.setHbmByte_kept {Q} {s : State} {a} {b} (hs : State.Kept Q s) :
    State.Kept Q (State.setHbmByte s a b) := by
  delta State.setHbmByte
  exact { hs with hbm := by dsimp only; exact tabSet_wf _ _ _ _ (hs.hbm) }

theorem State.setHbm_kept {Q} {s : State} {a} {l} (hs : State.Kept Q s) : State.Kept Q (State.setHbm s a l) := by
  induction l generalizing a s with
  | nil => exact hs
  | cons b l ih => exact ih (State.setHbmByte_kept hs)

theorem State.setQ_kept {Q} {s : State} {q} {v} (hs : State.Kept Q s) :
    State.Kept Q (State.setQ s q v) := by
  delta State.setQ
  exact { hs with qs := by dsimp only; exact tabSet_wf _ _ _ _ (hs.qs) }

theorem State.setM_kept {Q} {s : State} {q} {v} (hs : State.Kept Q s) :
    State.Kept Q (State.setM s q v) := by
  delta State.setM
  exact { hs with qm := by dsimp only; exact tabSet_wf _ _ _ _ (hs.qm) }

theorem State.setR_kept {Q} {s : State} {q} {v} (hs : State.Kept Q s) :
    State.Kept Q (State.setR s q v) := by
  delta State.setR
  exact { hs with qr := by dsimp only; exact tabSet_wf _ _ _ _ (hs.qr) }

theorem State.setChan_kept {Q} {s : State} {c} {v} (hs : State.Kept Q s) :
    State.Kept Q (State.setChan s c v) := by
  delta State.setChan
  exact { hs with chans := by dsimp only; exact tabSet_wf _ _ _ _ (hs.chans) }

theorem State.setPmu_kept {Q} {s : State} {c} {v} (hs : State.Kept Q s) :
    State.Kept Q (State.setPmu s c v) := by
  delta State.setPmu
  exact { hs with pmus := by dsimp only; exact tabSet_wf _ _ _ _ (hs.pmus) }

theorem State.setSg_kept {Q} {s : State} {n} {v} (hs : State.Kept Q s) :
    State.Kept Q (State.setSg s n v) := by
  delta State.setSg
  exact { hs with sgs := by dsimp only; exact tabSet_wf _ _ _ _ (hs.sgs) }

theorem State.setRing_kept {Q} {s : State} {r} {v} (hs : State.Kept Q s) :
    State.Kept Q (State.setRing s r v) := by
  delta State.setRing
  exact { hs with rings := by dsimp only; exact tabSet_wf _ _ _ _ (hs.rings) }

theorem State.setTdc_kept {Q} {s : State} {u} {v} (hs : State.Kept Q s) :
    State.Kept Q (State.setTdc s u v) := by
  delta State.setTdc
  exact { hs with tdcs := by dsimp only; exact tabSet_wf _ _ _ _ (hs.tdcs) }

theorem State.setDll_kept {Q} {s : State} {q} {v} (hs : State.Kept Q s) :
    State.Kept Q (State.setDll s q v) := by
  delta State.setDll
  exact { hs with dlls := by dsimp only; exact tabSet_wf _ _ _ _ (hs.dlls) }

theorem State.setPort_kept {Q} {s : State} {n} {v} (hs : State.Kept Q s) :
    State.Kept Q (State.setPort s n v) := by
  delta State.setPort
  exact { hs with ports := by dsimp only; exact tabSet_wf _ _ _ _ (hs.ports) }

theorem State.setCalCh_kept {Q} {s : State} {c} {v} (hs : State.Kept Q s) :
    State.Kept Q (State.setCalCh s c v) := by
  delta State.setCalCh
  exact { hs with calch := by dsimp only; exact tabSet_wf _ _ _ _ (hs.calch) }

theorem State.setTxn_kept {Q} {s : State} {u} {v} (hs : State.Kept Q s) :
    State.Kept Q (State.setTxn s u v) := by
  delta State.setTxn
  exact { hs with txns := by dsimp only; exact tabSet_wf _ _ _ _ (hs.txns) }

theorem State.setEvc_kept {Q} {s : State} {n} {v} (hs : State.Kept Q s) :
    State.Kept Q (State.setEvc s n v) := by
  delta State.setEvc
  exact { hs with evcs := by dsimp only; exact tabSet_wf _ _ _ _ (hs.evcs) }

theorem State.setEnt_kept {Q} {s : State} {x} {v} (hs : State.Kept Q s) :
    State.Kept Q (State.setEnt s x v) := by
  delta State.setEnt
  exact { hs with ents := by dsimp only; exact tabSet_wf _ _ _ _ (hs.ents) }

theorem State.setSrcCnt_kept {Q} {s : State} {x} {v} (hs : State.Kept Q s) :
    State.Kept Q (State.setSrcCnt s x v) := by
  delta State.setSrcCnt
  exact { hs with srcs := by dsimp only; exact tabSet_wf _ _ _ _ (hs.srcs) }

theorem State.free_kept {Q} {s : State} (hs : State.Kept Q s) :
    State.Kept Q (State.free s).2 := by
  unfold State.free
  exact kept_snd (kept_mk hs)

theorem forAll_kept {Q} {l} {f} {s : State} (hf : ∀ y0 y1, State.Kept Q y1 →  State.Kept Q (f y0 y1)) (hs : State.Kept Q s) :
    State.Kept Q (forAll l f s) := by
  delta forAll
  refine foldl_kept ?_ ?_
  · intro x0 hx0 x1
    try beta_reduce
    refine hf _ _ ?_
    exact hx0
  · exact hs

theorem State.when_kept {Q} {s : State} {c} {f} (hs : State.Kept Q s) (hf : ∀ y0, State.Kept Q y0 →  State.Kept Q (f y0)) :
    State.Kept Q (State.when s c f) := by
  delta State.when
  refine kept_ite ?_ ?_
  · exact hf _ hs
  · exact hs

end Sys2Proof.Machine
end

