-- ==== Sys2Proof/Laws/KeptBits.lean ====
section
/-! SUPPORT. The operations of Machine/Bits.lean keep `State.Kept`. -/

namespace Sys2Proof.Machine

theorem State.setCsWord_kept {Q} {s : State} {q} {a} {w} (hs : State.Kept Q s) :
    State.Kept Q (State.setCsWord s q a w) := by
  delta State.setCsWord
  refine forAll_kept ?_ ?_
  · intro x0 x1 hx1
    try beta_reduce
    exact State.winSet_kept hx1
  · exact hs

end Sys2Proof.Machine
end

