-- ==== Sys2Proof/Laws/KeptFlags.lean ====
section
/-! SUPPORT. The operations of Machine/Flags.lean keep `State.Kept`. -/

namespace Sys2Proof.Machine

theorem addCount_kept {Q} {n} {i} {s : State} (hs : State.Kept Q s) :
    State.Kept Q (addCount n i s) := by
  delta addCount
  extract_lets -merge -useContext +implicits e_0 t_1
  try clear_value e_0
  have ht_1 : State.Kept Q t_1 := by
    unfold t_1
    exact State.setEvc_kept hs
  try clear_value t_1
  refine kept_ite ?_ ?_
  · exact State.setRc_kept ht_1
  · exact ht_1

theorem State.countRaw_kept {Q} {s : State} {src} {n} (hs : State.Kept Q s) :
    State.Kept Q (State.countRaw s src n) := by
  delta State.countRaw
  refine forAll_kept ?_ ?_
  · intro x0 x1 hx1
    exact addCount_kept hx1
  · exact hs

theorem State.countTlp_kept {Q} {s : State} {rx} {n} (hs : State.Kept Q s) :
    State.Kept Q (State.countTlp s rx n) := by
  delta State.countTlp
  exact State.countRaw_kept hs

theorem State.sendRaw_kept {Q} {s : State} {w} (hs : State.Kept Q s) :
    State.Kept Q (State.sendRaw s w) := by
  delta State.sendRaw
  refine kept_ite ?_ ?_
  · exact hs
  · refine kept_ite ?_ ?_
    · extract_lets -merge -useContext +implicits a_0
      try clear_value a_0
      exact State.winSet_kept hs
    · exact State.countTlp_kept (State.countRaw_kept (kept_mk hs))

theorem State.sendMsix_kept {Q} {s : State} {w} (hs : State.Kept Q s) :
    State.Kept Q (State.sendMsix s w) := by
  delta State.sendMsix
  extract_lets -merge -useContext +implicits t_0
  have ht_0 : State.Kept Q t_0 := by
    unfold t_0
    exact State.sendRaw_kept hs
  try clear_value t_0
  refine kept_ite ?_ ?_
  · exact State.sendRaw_kept ht_0
  · exact ht_0

theorem State.sendVec_kept {Q} {s : State} {v} (hs : State.Kept Q s) :
    State.Kept Q (State.sendVec s v) := by
  delta State.sendVec
  refine kept_ite ?_ ?_
  · exact State.sendMsix_kept hs
  · exact hs

theorem withVec_kept {Q} {v} {f} {s : State} (hf : ∀ y0, State.Kept Q y0 →  State.Kept Q (f y0)) (hs : State.Kept Q s) :
    State.Kept Q (withVec v f s) := by
  delta withVec
  extract_lets -merge -useContext +implicits t_0
  have ht_0 : State.Kept Q t_0 := by
    unfold t_0
    exact hf _ hs
  try clear_value t_0
  refine kept_ite ?_ ?_
  · exact State.sendVec_kept ht_0
  · exact ht_0

theorem withVecs_kept {Q} {l : List Nat} {f : State → State} (hf : ∀ s, State.Kept Q s → State.Kept Q (f s)) :
    ∀ s, State.Kept Q s → State.Kept Q (l.foldl (fun f v => withVec v f) f s) := by
  induction l generalizing f with
  | nil => exact hf
  | cons v l ih => exact ih fun _ hs => withVec_kept hf hs

theorem State.raiseMask_kept {Q} {s : State} {a} {m} (hs : State.Kept Q s) : State.Kept Q (State.raiseMask s a m) :=
  withVecs_kept (fun _ h => State.setRc_kept h) s hs

theorem State.raise_kept {Q} {s : State} {f} (hs : State.Kept Q s) :
    State.Kept Q (State.raise s f) := by
  delta State.raise
  exact State.raiseMask_kept hs

theorem State.count_kept {Q} {s : State} {src} {n} (hs : State.Kept Q s) :
    State.Kept Q (State.count s src n) := by
  delta State.count
  refine kept_ite ?_ ?_
  · exact hs
  · refine withVec_kept ?_ ?_
    · intro x0 hx0
      try beta_reduce
      exact State.countRaw_kept hx0
    · exact hs

theorem snapOne_kept {Q} {s0 : State} {n} {s : State} (hs0 : State.Kept Q s0) (hs : State.Kept Q s) :
    State.Kept Q (snapOne s0 n s) := by
  delta snapOne
  refine kept_ite ?_ ?_
  · extract_lets -merge -useContext +implicits c_0
    try clear_value c_0
    exact State.raise_kept (State.setReg_kept (State.setReg_kept (State.setReg_kept hs)))
  · exact hs

theorem State.snapshot_kept {Q} {s : State} (hs : State.Kept Q s) :
    State.Kept Q (State.snapshot s) := by
  delta State.snapshot
  refine forAll_kept ?_ ?_
  · intro x0 x1 hx1
    refine snapOne_kept ?_ ?_
    · exact hs
    · exact hx1
  · exact hs

theorem State.reportC_kept {Q} {s : State} {src} {cls} {addr} (hs : State.Kept Q s) :
    State.Kept Q (State.reportC s src cls addr) := by
  delta State.reportC
  exact kept_mk hs

theorem State.report_kept {Q} {s : State} {src} {addr} (hs : State.Kept Q s) :
    State.Kept Q (State.report s src addr) := by
  delta State.report
  exact State.reportC_kept hs

theorem State.reportAccess_kept {Q} {s : State} {src} {addr} {m} {acc} (hs : State.Kept Q s) :
    State.Kept Q (State.reportAccess s src addr m acc) := by
  delta State.reportAccess
  exact kept_mk hs

end Sys2Proof.Machine
end

