-- ==== Sys2Proof/Laws/KeptRecords.lean ====
section
/-! SUPPORT. The operations of Machine/Records.lean keep `State.Kept`. -/

namespace Sys2Proof.Machine

theorem State.setSsn_kept {Q} {s : State} {q} {n} (hs : State.Kept Q s) :
    State.Kept Q (State.setSsn s q n) := by
  delta State.setSsn
  exact State.setReg_kept (State.setReg_kept hs)

theorem State.setQstate_kept {Q} {s : State} {q} {st} (hs : State.Kept Q s) :
    State.Kept Q (State.setQstate s q st) := by
  delta State.setQstate
  extract_lets -merge -useContext +implicits t_0
  have ht_0 : State.Kept Q t_0 := by
    unfold t_0
    exact State.setFld_kept hs
  try clear_value t_0
  refine kept_ite ?_ ?_
  · exact State.raise_kept ht_0
  · refine kept_ite ?_ ?_
    · exact State.raise_kept ht_0
    · refine kept_ite ?_ ?_
      · exact State.raise_kept ht_0
      · exact ht_0

theorem onQuarter_kept {Q} {q} {f} {s : State} (hf : ∀ y0, State.Kept Q y0 →  State.Kept Q (f y0)) (hs : State.Kept Q s) :
    State.Kept Q (onQuarter q f s) := by
  delta onQuarter
  refine kept_ite ?_ ?_
  · exact hf _ hs
  · exact hs

theorem State.setBitOf_kept {Q} {s : State} {f} {i} (hs : State.Kept Q s) :
    State.Kept Q (State.setBitOf s f i) := by
  delta State.setBitOf
  exact State.setFld_kept hs

theorem tagDisturbed_kept {Q} {q} {smask} {s : State} (hs : State.Kept Q s) :
    State.Kept Q (tagDisturbed q smask s) := by
  delta tagDisturbed
  refine forAll_kept ?_ ?_
  · intro x0 x1 hx1
    try beta_reduce
    refine kept_ite ?_ ?_
    · exact hx1
    · exact State.setBitOf_kept hx1
  · exact hs

theorem startExit_kept {Q} {s : State} (hs : State.Kept Q s) :
    State.Kept Q (startExit s) := by
  delta startExit
  extract_lets -merge -useContext +implicits st_0 s_1 _2 _3 s_4 _5 _6
  try clear_value st_0
  have hs_1 : State.Kept Q s_1 := by
    unfold s_1
    exact State.setFld_kept (State.setBit_kept hs)
  try clear_value s_1
  try clear_value _2
  try clear_value _3
  have hs_4 : State.Kept Q s_4 := by
    unfold s_4
    exact kept_mk hs_1
  try clear_value s_4
  have h_5 : State.Kept Q _5 := by
    unfold _5
    exact State.setFld_kept hs_4
  try clear_value _5
  try clear_value _6
  refine kept_ite ?_ ?_
  · exact kept_mk h_5
  · exact hs_4

theorem wakeEvent_kept {Q} {bit} {s : State} (hs : State.Kept Q s) :
    State.Kept Q (wakeEvent bit s) := by
  delta wakeEvent
  extract_lets -merge -useContext +implicits entering_0 st_1 s_2 _3 _4
  try clear_value entering_0
  try clear_value st_1
  have hs_2 : State.Kept Q s_2 := by
    unfold s_2
    exact State.raiseMask_kept hs
  try clear_value s_2
  have h_3 : State.Kept Q _3 := by
    unfold _3
    exact State.raise_kept hs_2
  try clear_value _3
  try clear_value _4
  refine kept_ite ?_ ?_
  · exact hs
  · refine kept_ite ?_ ?_
    · exact hs_2
    · refine kept_ite ?_ ?_
      · exact kept_mk h_3
      · refine kept_ite ?_ ?_
        · exact hs_2
        · exact startExit_kept (State.raise_kept hs_2)

theorem countTlps_kept {Q} {rx} {n} {s : State} (hs : State.Kept Q s) :
    State.Kept Q (countTlps rx n s) := by
  delta countTlps
  exact State.count_kept hs

theorem siteFail_kept {Q} {q} {i} {goff} {n} {mask} {shared} {s : State} (hs : State.Kept Q s) :
    State.Kept Q (siteFail q i goff n mask shared s) := by
  delta siteFail
  extract_lets -merge -useContext +implicits x_0 y_1
  try clear_value x_0
  try clear_value y_1
  split
  · exact hs
  · extract_lets -merge -useContext +implicits first_2 s_3 s_4 u_5 u_6
    try clear_value first_2
    have hs_3 : State.Kept Q s_3 := by
      unfold s_3
      exact State.setR_kept hs
    try clear_value s_3
    have hs_4 : State.Kept Q s_4 := by
      unfold s_4
      exact State.setBitOf_kept hs_3
    try clear_value s_4
    try clear_value u_5
    try clear_value u_6
    exact State.setQ_kept hs_4

theorem failSite_kept {Q} {q} {i} {s : State} (hs : State.Kept Q s) :
    State.Kept Q (failSite q i s) := by
  delta failSite
  split
  · exact hs
  · extract_lets -merge -useContext +implicits j_0 _1
    try clear_value j_0
    try clear_value _1
    refine kept_ite ?_ ?_
    · exact hs
    · refine kept_ite ?_ ?_
      · exact siteFail_kept hs
      · exact State.setR_kept hs

theorem showFill_kept {Q} {q} {s : State} (hs : State.Kept Q s) :
    State.Kept Q (showFill q s) := by
  delta showFill
  extract_lets -merge -useContext +implicits n_0 t_1
  try clear_value n_0
  have ht_1 : State.Kept Q t_1 := by
    unfold t_1
    exact State.setFld_kept hs
  try clear_value t_1
  refine kept_ite ?_ ?_
  · exact State.setFld_kept ht_1
  · exact ht_1

theorem pushRecord_kept {Q} {q} {r} {s : State} (hs : State.Kept Q s) :
    State.Kept Q (pushRecord q r s) := by
  delta pushRecord
  extract_lets -merge -useContext +implicits x_0 n_1 t_2 t_3 t_4
  try clear_value x_0
  try clear_value n_1
  have ht_2 : State.Kept Q t_2 := by
    unfold t_2
    exact showFill_kept (State.setR_kept hs)
  try clear_value t_2
  have ht_3 : State.Kept Q t_3 := by
    unfold t_3
    refine kept_ite ?_ ?_
    · exact State.count_kept ht_2
    · exact ht_2
  try clear_value t_3
  have ht_4 : State.Kept Q t_4 := by
    unfold t_4
    refine kept_ite ?_ ?_
    · exact State.count_kept ht_3
    · exact ht_3
  try clear_value t_4
  refine kept_ite ?_ ?_
  · exact State.raise_kept (State.setR_kept hs)
  · refine kept_ite ?_ ?_
    · exact State.count_kept ht_4
    · exact ht_4

theorem pushWaiting_kept {Q} {q} {s : State} (hs : State.Kept Q s) :
    State.Kept Q (pushWaiting q s) := by
  delta pushWaiting
  extract_lets -merge -useContext +implicits x_0 f_1
  try clear_value x_0
  have hf_1 : ∀ y0 y1, State.Kept Q y1 →  State.Kept Q (f_1 y0 y1) := by
    intro x2 x3 hx3
    unfold f_1
    try beta_reduce
    refine foldl_kept ?_ ?_
    · intro x4 hx4 x5
      try beta_reduce
      exact pushRecord_kept hx4
    · exact hx3
  try clear_value f_1
  refine hf_1 _ _ ?_
  refine hf_1 _ _ ?_
  refine hf_1 _ _ ?_
  exact State.setR_kept hs

theorem abortWaiting_kept {Q} {q} {s : State} (hs : State.Kept Q s) :
    State.Kept Q (abortWaiting q s) := by
  delta abortWaiting
  extract_lets -merge -useContext +implicits x_0
  try clear_value x_0
  exact State.setR_kept hs

theorem addWaiting_kept {Q} {q} {r} {s : State} (hs : State.Kept Q s) :
    State.Kept Q (addWaiting q r s) := by
  delta addWaiting
  refine kept_ite ?_ ?_
  · exact hs
  · exact State.setR_kept hs

theorem State.meanFree_kept {Q} {s : State} {sum} {n} (hs : State.Kept Q s) :
    State.Kept Q (State.meanFree s sum n).2 := by
  unfold State.meanFree
  refine kept_ite_snd ?_ ?_
  · exact kept_snd (State.free_kept hs)
  · refine kept_ite_snd ?_ ?_
    · exact kept_snd hs
    · exact kept_snd (State.free_kept hs)

theorem pushPendingLoss_kept {Q} {q} {t} {s : State} (hs : State.Kept Q s) :
    State.Kept Q (pushPendingLoss q t s) := by
  delta pushPendingLoss
  extract_lets -merge -useContext +implicits x_0
  try clear_value x_0
  refine kept_ite ?_ ?_
  · exact hs
  · exact pushRecord_kept (State.setR_kept hs)

theorem binSites_kept {Q} {q} {m} {aborted} {goff} {t} {s : State} (hs : State.Kept Q s) :
    State.Kept Q (binSites q m aborted goff t s) := by
  delta binSites
  refine forAll_kept ?_ ?_
  · intro x0 x1 hx1
    try beta_reduce
    refine kept_ite ?_ ?_
    · extract_lets -merge -useContext +implicits d_2 s_3 ff_4
      try clear_value d_2
      have hs_3 : State.Kept Q s_3 := by
        unfold s_3
        exact State.setFld_kept (State.setFld_kept hx1)
      try clear_value s_3
      try clear_value ff_4
      exact pushRecord_kept hs_3
    · exact hx1
  · exact hs

theorem putUnits_kept {Q} {x} {n} {l} {s : State} (hs : State.Kept Q s) : State.Kept Q (putUnits x n l s) := by
  induction l generalizing n s with
  | nil => exact hs
  | cons e l ih =>
    unfold putUnits
    exact ih (State.setHbm_kept hs)

theorem ringStore_kept {Q} {ri} {q} {r} {s : State} (hs : State.Kept Q s) :
    State.Kept Q (ringStore ri q r s) := by
  delta ringStore
  extract_lets -merge -useContext +implicits x_0 recs_1 above_2 above_3 n_4 s_5
  try clear_value x_0
  try clear_value recs_1
  try clear_value above_2
  try clear_value above_3
  try clear_value n_4
  have hs_5 : State.Kept Q s_5 := by
    unfold s_5
    exact State.setRing_kept (putUnits_kept hs)
  try clear_value s_5
  refine State.count_kept (State.count_kept ?_)
  refine kept_ite ?_ ?_
  · exact State.count_kept hs_5
  · exact hs_5

theorem ringLose_kept {Q} {ri} {q} {cause} {n} {s : State} (hs : State.Kept Q s) :
    State.Kept Q (ringLose ri q cause n s) := by
  delta ringLose
  extract_lets -merge -useContext +implicits x_0 l_1
  try clear_value x_0
  try clear_value l_1
  exact State.raise_kept (State.setRing_kept hs)

theorem flushRing_kept {Q} {ri} {s : State} (hs : State.Kept Q s) :
    State.Kept Q (flushRing ri s) := by
  delta flushRing
  extract_lets -merge -useContext +implicits s_0
  have hs_0 : State.Kept Q s_0 := by
    unfold s_0
    refine foldl_kept ?_ ?_
    · intro x1 hx1 x2
      try beta_reduce
      extract_lets -merge -useContext +implicits x_3
      try clear_value x_3
      refine kept_ite ?_ ?_
      · exact ringStore_kept (State.setRing_kept hx1)
      · exact hx1
    · exact hs
  try clear_value s_0
  refine foldl_kept ?_ ?_
  · intro x4 hx4 x5
    try beta_reduce
    extract_lets -merge -useContext +implicits x_6
    try clear_value x_6
    refine kept_ite ?_ ?_
    · exact ringStore_kept (State.setRing_kept hx4)
    · exact hx4
  · exact hs_0

theorem discardRecord_kept {Q} {ri} {q} {s : State} (hs : State.Kept Q s) :
    State.Kept Q (discardRecord ri q s) := by
  delta discardRecord
  exact State.report_kept (State.raise_kept (ringLose_kept hs))

theorem writeSlot_kept {Q} {q} {s : State} (hs : State.Kept Q s) :
    State.Kept Q (writeSlot q s) := by
  delta writeSlot
  extract_lets -merge -useContext +implicits x_0
  try clear_value x_0
  split
  · exact hs
  · extract_lets -merge -useContext +implicits g_1 drop_2
    try clear_value g_1
    have hdrop_2 : ∀ y0, State.Kept Q y0 →  State.Kept Q (drop_2 y0) := by
      intro x3 hx3
      unfold drop_2
      try beta_reduce
      exact showFill_kept (State.setR_kept hx3)
    try clear_value drop_2
    refine kept_ite ?_ ?_
    · refine discardRecord_kept ?_
      exact hdrop_2 _ hs
    · refine kept_ite ?_ ?_
      · refine ringStore_kept ?_
        exact hdrop_2 _ hs
      · refine kept_ite ?_ ?_
        · exact hs
        · refine flushRing_kept (ringLose_kept ?_)
          exact hdrop_2 _ hs

theorem centralWrite_kept {Q} {q} {r} {s : State} (hs : State.Kept Q s) :
    State.Kept Q (centralWrite q r s) := by
  delta centralWrite
  extract_lets -merge -useContext +implicits g_0
  try clear_value g_0
  refine kept_ite ?_ ?_
  · exact discardRecord_kept hs
  · refine kept_ite ?_ ?_
    · exact ringStore_kept hs
    · exact State.setRing_kept hs

theorem invalidate_kept {Q} {q} {cause} {s : State} (hs : State.Kept Q s) :
    State.Kept Q (invalidate q cause s) := by
  delta invalidate
  extract_lets -merge -useContext +implicits c_0 b_1 hq_2 s_3
  try clear_value c_0
  try clear_value b_1
  try clear_value hq_2
  have hs_3 : State.Kept Q s_3 := by
    unfold s_3
    exact centralWrite_kept hs
  try clear_value s_3
  refine kept_ite ?_ ?_
  · exact centralWrite_kept hs_3
  · exact hs_3

theorem ladderRefs_kept {Q} {q} {s : State} (hs : State.Kept Q s) :
    State.Kept Q (ladderRefs q s) := by
  delta ladderRefs
  extract_lets -merge -useContext +implicits x_0
  try clear_value x_0
  exact State.setR_kept hs

theorem ladderLift_kept {Q} {q} {s : State} (hs : State.Kept Q s) :
    State.Kept Q (ladderLift q s) := by
  delta ladderLift
  extract_lets -merge -useContext +implicits m_0
  try clear_value m_0
  refine kept_ite ?_ ?_
  · exact State.setFld_kept hs
  · exact hs

theorem ladderEval_kept {Q} {q} {t} {s : State} (hs : State.Kept Q s) :
    State.Kept Q (ladderEval q t s) := by
  delta ladderEval
  extract_lets -merge -useContext +implicits x_0 level_1 minl_2 qf_3 hotQ_4 hotR_5 low_6 dwell_7 rec_8 s_9 s_10 _11 rec_12 s_13 _14 s_15 s_16 _17
  try clear_value x_0
  try clear_value level_1
  try clear_value minl_2
  try clear_value qf_3
  try clear_value hotQ_4
  try clear_value hotR_5
  try clear_value low_6
  try clear_value dwell_7
  try clear_value rec_8
  have hs_9 : State.Kept Q s_9 := by
    unfold s_9
    exact State.raise_kept (State.setFld_kept hs)
  try clear_value s_9
  have hs_10 : State.Kept Q s_10 := by
    unfold s_10
    exact ladderRefs_kept (pushRecord_kept hs_9)
  try clear_value s_10
  try clear_value _11
  try clear_value rec_12
  have hs_13 : State.Kept Q s_13 := by
    unfold s_13
    exact State.raise_kept (State.setFld_kept hs)
  try clear_value s_13
  try clear_value _14
  have hs_15 : State.Kept Q s_15 := by
    unfold s_15
    exact pushRecord_kept (State.setR_kept hs_13)
  try clear_value s_15
  have hs_16 : State.Kept Q s_16 := by
    unfold s_16
    refine kept_ite ?_ ?_
    · exact State.setR_kept hs_10
    · refine kept_ite ?_ ?_
      · refine kept_ite ?_ ?_
        · exact ladderRefs_kept hs_15
        · exact State.setR_kept hs
      · exact State.setR_kept hs
  try clear_value s_16
  try clear_value _17
  refine kept_ite ?_ ?_
  · exact State.setR_kept hs_16
  · exact hs_16

theorem resultsStart_kept {Q} {q} {s : State} (hs : State.Kept Q s) :
    State.Kept Q (resultsStart q s) := by
  delta resultsStart
  extract_lets -merge -useContext +implicits x_0 s_1 s_2 s_3
  try clear_value x_0
  have hs_1 : State.Kept Q s_1 := by
    unfold s_1
    exact State.setR_kept hs
  try clear_value s_1
  have hs_2 : State.Kept Q s_2 := by
    unfold s_2
    exact State.setFld_kept (State.setReg_kept hs_1)
  try clear_value s_2
  have hs_3 : State.Kept Q s_3 := by
    unfold s_3
    exact State.setFld_kept hs_2
  try clear_value s_3
  refine forAll_kept ?_ ?_
  · intro x4 x5 hx5
    try beta_reduce
    exact State.setEnt_kept (State.setReg_kept hx5)
  · exact hs_3

end Sys2Proof.Machine
end

