-- ==== Sys2Proof/Laws/KeptSegments.lean ====
section
/-! SUPPORT. The operations of Machine/Segments.lean keep `State.Kept`. -/

namespace Sys2Proof.Machine

theorem clearRid_kept {Q} {rid} {s : State} (hs : State.Kept Q s) :
    State.Kept Q (clearRid rid s) := by
  delta clearRid
  exact State.setReg_kept hs

theorem addJob_kept {Q} {q} {j} {s : State} (hs : State.Kept Q s) :
    State.Kept Q (addJob q j s) := by
  delta addJob
  extract_lets -merge -useContext +implicits x_0
  try clear_value x_0
  exact State.setM_kept hs

theorem issueUnits_kept {Q} {q} {t} {runs} {s : State} (hs : State.Kept Q s) :
    State.Kept Q (issueUnits q t runs s) := by
  delta issueUnits
  extract_lets -merge -useContext +implicits rate_0 x_1 jobs_2 r_3 s_4 s_5 a_6 s_7 kib_8
  try clear_value rate_0
  try clear_value x_1
  try clear_value jobs_2
  try clear_value r_3
  have hs_4 : State.Kept Q s_4 := by
    unfold s_4
    exact State.setM_kept hs
  try clear_value s_4
  have hs_5 : State.Kept Q s_5 := by
    unfold s_5
    exact State.count_kept hs_4
  try clear_value s_5
  try clear_value a_6
  have hs_7 : State.Kept Q s_7 := by
    unfold s_7
    exact State.count_kept (State.count_kept hs_5)
  try clear_value s_7
  try clear_value kib_8
  refine kept_ite ?_ ?_
  · exact State.setFld_kept hs_7
  · exact hs_7

theorem discardJobs_kept {Q} {q} {gone} {s : State} (hs : State.Kept Q s) :
    State.Kept Q (discardJobs q gone s) := by
  delta discardJobs
  extract_lets -merge -useContext +implicits x_0 lost_1 s_2
  try clear_value x_0
  try clear_value lost_1
  have hs_2 : State.Kept Q s_2 := by
    unfold s_2
    refine foldl_kept ?_ ?_
    · intro x3 hx3 x4
      try beta_reduce
      exact State.report_kept hx3
    · exact hs
  try clear_value s_2
  exact State.setM_kept hs_2

theorem discardOthers_kept {Q} {q} {gen} {keep} {s : State} (hs : State.Kept Q s) :
    State.Kept Q (discardOthers q gen keep s) := by
  delta discardOthers
  exact discardJobs_kept hs

theorem flushStream_kept {Q} {q} {s : State} (hs : State.Kept Q s) :
    State.Kept Q (flushStream q s) := by
  delta flushStream
  exact discardJobs_kept hs

theorem endFetch_kept {Q} {q} {b} {s : State} (hs : State.Kept Q s) :
    State.Kept Q (endFetch q b s) := by
  delta endFetch
  refine kept_ite ?_ ?_
  · exact State.setM_kept hs
  · exact discardOthers_kept hs

theorem checkTail_kept {Q} {q} {b} {s : State} (hs : State.Kept Q s) :
    State.Kept Q (checkTail q b s) := by
  delta checkTail
  refine kept_ite ?_ ?_
  · extract_lets -merge -useContext +implicits seg_0 s_1
    try clear_value seg_0
    have hs_1 : State.Kept Q s_1 := by
      unfold s_1
      exact State.setFld_kept (State.setFld_kept hs)
    try clear_value s_1
    exact discardOthers_kept (State.report_kept (State.raise_kept hs_1))
  · refine kept_ite ?_ ?_
    · exact hs
    · exact discardOthers_kept hs

end Sys2Proof.Machine
end

