-- ==== Sys2Proof/Laws/KeptChannel.lean ====
section
/-! SUPPORT. The operations of Machine/Channel.lean keep `State.Kept`. -/

namespace Sys2Proof.Machine

theorem clipEvents_kept {Q} {q} {i} {smask} {p} {s : State} (hs : State.Kept Q s) :
    State.Kept Q (clipEvents q i smask p s) := by
  delta clipEvents
  refine kept_ite ?_ ?_
  · exact hs
  · extract_lets -merge -useContext +implicits s_0 s_1 s_2
    have hs_0 : State.Kept Q s_0 := by
      unfold s_0
      exact State.addSat_kept (State.raise_kept hs)
    try clear_value s_0
    have hs_1 : State.Kept Q s_1 := by
      unfold s_1
      refine kept_ite ?_ ?_
      · exact State.raise_kept hs_0
      · exact hs_0
    try clear_value s_1
    have hs_2 : State.Kept Q s_2 := by
      unfold s_2
      refine forAll_kept ?_ ?_
      · intro x3 x4 hx4
        try beta_reduce
        exact State.report_kept hx4
      · exact hs_1
    try clear_value s_2
    split
    · exact State.setBitOf_kept hs_2
    · exact tagDisturbed_kept hs_2

theorem parkPin_kept {Q} {c} {s : State} (hs : State.Kept Q s) :
    State.Kept Q (parkPin c s) := by
  delta parkPin
  extract_lets -merge -useContext +implicits x_0 p_1 sep_2 r_3 _4
  try clear_value x_0
  try clear_value p_1
  try clear_value sep_2
  try clear_value r_3
  try clear_value _4
  refine kept_ite ?_ ?_
  · exact hs
  · exact clipEvents_kept (State.setChan_kept hs)

theorem parkPins_kept {Q} {q} {s : State} (hs : State.Kept Q s) :
    State.Kept Q (parkPins q s) := by
  delta parkPins
  refine forAll_kept ?_ ?_
  · intro x0 x1 hx1
    try beta_reduce
    extract_lets -merge -useContext +implicits x_2
    try clear_value x_2
    refine parkPin_kept ?_
    refine kept_ite ?_ ?_
    · exact State.setChan_kept hx1
    · exact hx1
  · exact hs

theorem stallPins_kept {Q} {q} {keep} {s : State} (hs : State.Kept Q s) :
    State.Kept Q (stallPins q keep s) := by
  delta stallPins
  refine forAll_kept ?_ ?_
  · intro x0 x1 hx1
    try beta_reduce
    extract_lets -merge -useContext +implicits x_2
    try clear_value x_2
    exact parkPin_kept (State.setChan_kept hx1)
  · exact hs

theorem unparkPins_kept {Q} {q} {t} {s : State} (hs : State.Kept Q s) :
    State.Kept Q (unparkPins q t s) := by
  delta unparkPins
  refine forAll_kept ?_ ?_
  · intro x0 x1 hx1
    try beta_reduce
    extract_lets -merge -useContext +implicits c_2 x_3
    try clear_value c_2
    try clear_value x_3
    refine kept_ite ?_ ?_
    · exact hx1
    · split
      · extract_lets -merge -useContext +implicits y_4
        try clear_value y_4
        exact State.setChan_kept hx1
      · refine kept_ite ?_ ?_
        · exact State.setChan_kept hx1
        · exact hx1
  · exact hs

theorem playClocks_kept {Q} {q} {t} {smask} {es} {s : State} (hs : State.Kept Q s) :
    State.Kept Q (playClocks q t smask es s) := by
  delta playClocks
  refine foldl_kept ?_ ?_
  · intro x0 hx0 x1
    try beta_reduce
    extract_lets -merge -useContext +implicits c_2 x_3 sup_4 x_5 r_6
    try clear_value c_2
    try clear_value x_3
    try clear_value sup_4
    try clear_value x_5
    try clear_value r_6
    refine kept_ite ?_ ?_
    · exact hx0
    · exact clipEvents_kept (State.setChan_kept hx0)
  · exact hs

theorem startStages_kept {Q} {q} {w} {snap} {s : State} (hs : State.Kept Q s) :
    State.Kept Q (startStages q w snap s) := by
  delta startStages
  refine foldl_kept ?_ ?_
  · intro x0 hx0 x1
    try beta_reduce
    extract_lets -merge -useContext +implicits c_2 x_3 now_4 _5
    try clear_value c_2
    try clear_value x_3
    try clear_value now_4
    try clear_value _5
    refine kept_ite ?_ ?_
    · exact State.setChan_kept hx0
    · exact hx0
  · exact hs

theorem slewStep_kept {Q} {c} {d} {s : State} (hs : State.Kept Q s) :
    State.Kept Q (slewStep c d s) := by
  delta slewStep
  extract_lets -merge -useContext +implicits x_0 goal_1 out_2 cnt_3 st_4 st_5 new_6
  try clear_value x_0
  try clear_value goal_1
  try clear_value out_2
  try clear_value cnt_3
  try clear_value st_4
  try clear_value st_5
  try clear_value new_6
  refine kept_ite ?_ ?_
  · exact State.setFld_kept hs
  · refine kept_ite ?_ ?_
    · exact State.setChan_kept hs
    · refine kept_ite ?_ ?_
      · exact hs
      · exact State.setChan_kept (State.setFld_kept hs)

theorem rangeCheck_kept {Q} {c} {stage} {s : State} (hs : State.Kept Q s) :
    State.Kept Q (rangeCheck c stage s) := by
  delta rangeCheck
  refine kept_ite ?_ ?_
  · exact State.report_kept (State.raise_kept hs)
  · exact hs

theorem holdPads_kept {Q} {s : State} (hs : State.Kept Q s) :
    State.Kept Q (holdPads s) := by
  delta holdPads
  refine kept_ite ?_ ?_
  · exact hs
  · extract_lets -merge -useContext +implicits _0 _1
    have h_0 : State.Kept Q _0 := by
      unfold _0
      exact State.setBit_kept hs
    try clear_value _0
    try clear_value _1
    exact kept_mk h_0

theorem showLq_kept {Q} {c} {s : State} (hs : State.Kept Q s) :
    State.Kept Q (showLq c s) := by
  delta showLq
  extract_lets -merge -useContext +implicits x_0
  try clear_value x_0
  exact State.setFld_kept hs

theorem lqPush_kept {Q} {c} {code} {s : State} (hs : State.Kept Q s) :
    State.Kept Q (lqPush c code s) := by
  delta lqPush
  extract_lets -merge -useContext +implicits x_0
  try clear_value x_0
  refine kept_ite ?_ ?_
  · exact State.raise_kept hs
  · exact showLq_kept (State.setChan_kept hs)

theorem lqClear_kept {Q} {c} {s : State} (hs : State.Kept Q s) :
    State.Kept Q (lqClear c s) := by
  delta lqClear
  refine kept_ite ?_ ?_
  · exact hs
  · exact showLq_kept (State.setChan_kept hs)

theorem lqStop_kept {Q} {c} {abort} {s : State} (hs : State.Kept Q s) :
    State.Kept Q (lqStop c abort s) := by
  delta lqStop
  refine kept_ite ?_ ?_
  · extract_lets -merge -useContext +implicits _0 t_1
    try clear_value _0
    have ht_1 : State.Kept Q t_1 := by
      unfold t_1
      exact showLq_kept (State.setChan_kept (State.setBit_kept hs))
    try clear_value t_1
    refine kept_ite ?_ ?_
    · exact State.raise_kept ht_1
    · exact ht_1
  · exact hs

theorem lqUnloop_kept {Q} {c} {s : State} (hs : State.Kept Q s) :
    State.Kept Q (lqUnloop c s) := by
  delta lqUnloop
  extract_lets -merge -useContext +implicits x_0
  try clear_value x_0
  refine kept_ite ?_ ?_
  · exact hs
  · exact State.setChan_kept hs

theorem lqSample_kept {Q} {c} {s : State} (hs : State.Kept Q s) :
    State.Kept Q (lqSample c s) := by
  delta lqSample
  extract_lets -merge -useContext +implicits x_0 next_1 loop_2 pos_3
  try clear_value x_0
  try clear_value next_1
  try clear_value loop_2
  try clear_value pos_3
  split
  · refine kept_ite ?_ ?_
    · exact State.setChan_kept hs
    · exact State.raise_kept (State.setBit_kept (showLq_kept (State.setChan_kept hs)))
  · extract_lets -merge -useContext +implicits s_4
    have hs_4 : State.Kept Q s_4 := by
      unfold s_4
      exact State.setReg_kept hs
    try clear_value s_4
    refine showLq_kept ?_
    refine kept_ite ?_ ?_
    · exact State.setChan_kept hs_4
    · exact State.setChan_kept hs_4

theorem ovdTrip_kept {Q} {c} {high} {s : State} (hs : State.Kept Q s) :
    State.Kept Q (ovdTrip c high s) := by
  delta ovdTrip
  extract_lets -merge -useContext +implicits _0 s_1 s_2
  try clear_value _0
  have hs_1 : State.Kept Q s_1 := by
    unfold s_1
    exact State.setChan_kept hs
  try clear_value s_1
  have hs_2 : State.Kept Q s_2 := by
    unfold s_2
    exact State.raise_kept (State.setBit_kept hs_1)
  try clear_value s_2
  exact State.report_kept hs_2

theorem reconnect_kept {Q} {c} {s : State} (hs : State.Kept Q s) :
    State.Kept Q (reconnect c s) := by
  delta reconnect
  exact parkPin_kept (State.setBit_kept hs)

theorem protReconnect_kept {Q} {c} {s : State} (hs : State.Kept Q s) :
    State.Kept Q (protReconnect c s) := by
  delta protReconnect
  refine kept_ite ?_ ?_
  · refine kept_ite ?_ ?_
    · exact reconnect_kept hs
    · exact hs
  · exact State.report_kept (State.raise_kept hs)

theorem forceChan_kept {Q} {c} {s : State} (hs : State.Kept Q s) :
    State.Kept Q (forceChan c s) := by
  delta forceChan
  extract_lets -merge -useContext +implicits s_0 _1
  have hs_0 : State.Kept Q s_0 := by
    unfold s_0
    exact lqStop_kept hs
  try clear_value s_0
  try clear_value _1
  exact State.setBit_kept (State.setChan_kept hs_0)

theorem releaseChan_kept {Q} {c} {s : State} (hs : State.Kept Q s) :
    State.Kept Q (releaseChan c s) := by
  delta releaseChan
  exact State.setBit_kept (State.setChan_kept hs)

theorem slewBackEnd_kept {Q} {c} {s : State} (hs : State.Kept Q s) :
    State.Kept Q (slewBackEnd c s) := by
  delta slewBackEnd
  refine kept_ite ?_ ?_
  · extract_lets -merge -useContext +implicits run_0 _1 s_2
    try clear_value run_0
    try clear_value _1
    have hs_2 : State.Kept Q s_2 := by
      unfold s_2
      exact State.setChan_kept hs
    try clear_value s_2
    refine kept_ite ?_ ?_
    · exact hs_2
    · exact parkPin_kept hs_2
  · exact hs

end Sys2Proof.Machine
end

