-- ==== Sys2Proof/Laws/KeptLace.lean ====
section
/-! SUPPORT. The operations of Machine/Lace.lean keep `State.Kept`. -/

namespace Sys2Proof.Machine

theorem laceRequest_kept {Q} {who} {type} {num} {arg} {b} {s : State} (hs : State.Kept Q s) :
    State.Kept Q (laceRequest who type num arg b s) := by
  delta laceRequest
  refine kept_ite ?_ ?_
  · exact kept_mk hs
  · refine kept_ite ?_ ?_
    · exact State.raise_kept hs
    · exact hs

end Sys2Proof.Machine
end

