-- ==== Sys2Proof/Laws/KeptLedger.lean ====
section
/-! SUPPORT. The operations of Machine/Ledger.lean keep `State.Kept`. -/

namespace Sys2Proof.Machine

theorem ledgerRest_kept {Q} {q} {t} {s : State} (hs : State.Kept Q s) :
    State.Kept Q (ledgerRest q t s) := by
  delta ledgerRest
  exact kept_mk hs

theorem ledgerPlay_kept {Q} {q} {gt} {tag} {s : State} (hs : State.Kept Q s) :
    State.Kept Q (ledgerPlay q gt tag s) := by
  delta ledgerPlay
  extract_lets -merge -useContext +implicits s_0
  have hs_0 : State.Kept Q s_0 := by
    unfold s_0
    exact ledgerRest_kept hs
  try clear_value s_0
  exact kept_mk hs_0

theorem ledgerCentral_kept {Q} {t} {s : State} (hs : State.Kept Q s) :
    State.Kept Q (ledgerCentral t s) := by
  delta ledgerCentral
  exact kept_mk hs

theorem ledgerSettle_kept {Q} {s : State} (hs : State.Kept Q s) :
    State.Kept Q (ledgerSettle s) := by
  delta ledgerSettle
  extract_lets -merge -useContext +implicits t_0
  try clear_value t_0
  refine ledgerCentral_kept ?_
  refine forAll_kept ?_ ?_
  · intro x1 x2 hx2
    try beta_reduce
    exact ledgerRest_kept hx2
  · exact hs

theorem ledgerRestNow_kept {Q} {q} {s : State} (hs : State.Kept Q s) :
    State.Kept Q (ledgerRestNow q s) := by
  delta ledgerRestNow
  refine kept_ite ?_ ?_
  · exact hs
  · exact ledgerRest_kept hs

theorem ledgerFirst_kept {Q} {cause} {scope} {group} {s : State} (hs : State.Kept Q s) :
    State.Kept Q (ledgerFirst cause scope group s) := by
  delta ledgerFirst
  refine kept_ite ?_ ?_
  · exact hs
  · extract_lets -merge -useContext +implicits s_0 _1
    have hs_0 : State.Kept Q s_0 := by
      unfold s_0
      exact State.setReg_kept hs
    try clear_value s_0
    try clear_value _1
    exact kept_mk hs_0

theorem overrunCheck_kept {Q} {w} {q} {g} {s : State} (hs : State.Kept Q s) :
    State.Kept Q (overrunCheck w q g s) := by
  delta overrunCheck
  refine kept_ite ?_ ?_
  · exact State.report_kept (ledgerFirst_kept (State.raise_kept hs))
  · exact hs

theorem ledgerWindowEnd_kept {Q} {s : State} (hs : State.Kept Q s) :
    State.Kept Q (ledgerWindowEnd s) := by
  delta ledgerWindowEnd
  extract_lets -merge -useContext +implicits w_0 d_1 s_2 close_5 _8 _9 s_10 keys_15 p_16 peak_17 l_18
  try clear_value w_0
  try clear_value d_1
  have hs_2 : State.Kept Q s_2 := by
    unfold s_2
    refine ledgerCentral_kept ?_
    refine forAll_kept ?_ ?_
    · intro x3 x4 hx4
      try beta_reduce
      exact ledgerRest_kept hx4
    · exact hs
  try clear_value s_2
  have hclose_5 : ∀ y0, State.Kept Q y0 →  State.Kept Q (close_5 y0) := by
    intro x6 hx6
    unfold close_5
    try beta_reduce
    extract_lets -merge -useContext +implicits l_7
    try clear_value l_7
    exact kept_mk hx6
  try clear_value close_5
  have h_8 : State.Kept Q _8 := by
    unfold _8
    exact hclose_5 _ hs_2
  try clear_value _8
  try clear_value _9
  have hs_10 : State.Kept Q s_10 := by
    unfold s_10
    refine forAll_kept ?_ ?_
    · intro x11 x12 hx12
      try beta_reduce
      refine forAll_kept ?_ ?_
      · intro x13 x14 hx14
        try beta_reduce
        exact overrunCheck_kept hx14
      · exact hx12
    · exact hs_2
  try clear_value s_10
  try clear_value keys_15
  try clear_value p_16
  try clear_value peak_17
  try clear_value l_18
  refine kept_ite ?_ ?_
  · exact hs
  · refine kept_ite ?_ ?_
    · exact kept_mk h_8
    · exact hclose_5 _ (kept_mk hs_10)

theorem sensorCompare_kept {Q} {en} {scope} {g} {p} {m} {s : State} (hs : State.Kept Q s) :
    State.Kept Q (sensorCompare en scope g p m s) := by
  delta sensorCompare
  extract_lets -merge -useContext +implicits rel_0 ab_1 key_2 setRun_3 src_6 ok_7 v_8 low_9 under_10 n_12
  try clear_value rel_0
  try clear_value ab_1
  try clear_value key_2
  have hsetRun_3 : ∀ y0 y1, State.Kept Q y1 →  State.Kept Q (setRun_3 y0 y1) := by
    intro x4 x5 hx5
    unfold setRun_3
    try beta_reduce
    exact kept_mk hx5
  try clear_value setRun_3
  try clear_value src_6
  try clear_value ok_7
  try clear_value v_8
  try clear_value low_9
  have hunder_10 : ∀ y0, State.Kept Q y0 →  State.Kept Q (under_10 y0) := by
    intro x11 hx11
    unfold under_10
    try beta_reduce
    refine kept_ite ?_ ?_
    · exact State.raise_kept hx11
    · exact hx11
  try clear_value under_10
  try clear_value n_12
  refine kept_ite ?_ ?_
  · refine hunder_10 _ ?_
    refine hsetRun_3 _ _ ?_
    exact hs
  · refine kept_ite ?_ ?_
    · exact State.report_kept (ledgerFirst_kept (State.raise_kept hs))
    · refine kept_ite ?_ ?_
      · refine kept_ite ?_ ?_
        · refine State.count_kept (State.report_kept (ledgerFirst_kept (State.raise_kept ?_)))
          refine hsetRun_3 _ _ ?_
          exact hs
        · refine hsetRun_3 _ _ ?_
          exact hs
      · refine hunder_10 _ ?_
        refine hsetRun_3 _ _ ?_
        exact hs

theorem ledgerSensor_kept {Q} {ms} {bad} {s : State} (hs : State.Kept Q s) :
    State.Kept Q (ledgerSensor ms bad s) := by
  delta ledgerSensor
  split
  · exact hs
  · refine kept_ite ?_ ?_
    · exact hs
    · extract_lets -merge -useContext +implicits meas_0 keys_1 s_2 s_5 m_6 _7
      try clear_value meas_0
      try clear_value keys_1
      have hs_2 : State.Kept Q s_2 := by
        unfold s_2
        refine forAll_kept ?_ ?_
        · intro x3 x4 hx4
          try beta_reduce
          exact sensorCompare_kept hx4
        · exact hs
      try clear_value s_2
      have hs_5 : State.Kept Q s_5 := by
        unfold s_5
        exact State.count_kept hs_2
      try clear_value s_5
      try clear_value m_6
      try clear_value _7
      exact kept_mk hs_5

theorem loadChecks_kept {Q} {s : State} (hs : State.Kept Q s) :
    State.Kept Q (loadChecks s).1 := by
  unfold loadChecks
  extract_lets -merge -useContext +implicits l_0 s_1 on_2 l_3 s_4 s_5 ok_6 _7
  try clear_value l_0
  have hs_1 : State.Kept Q s_1 := by
    unfold s_1
    split
    · exact ledgerFirst_kept (State.raise_kept hs)
    · exact hs
  try clear_value s_1
  try clear_value on_2
  try clear_value l_3
  have hs_4 : State.Kept Q s_4 := by
    unfold s_4
    split
    · exact State.setFld_kept hs_1
    · exact hs_1
  try clear_value s_4
  have hs_5 : State.Kept Q s_5 := by
    unfold s_5
    split
    · exact ledgerFirst_kept (State.raise_kept hs_4)
    · exact hs_4
  try clear_value s_5
  try clear_value ok_6
  try clear_value _7
  exact kept_fst (kept_mk hs_5)

theorem ledgerStart_kept {Q} {q} {s : State} (hs : State.Kept Q s) :
    State.Kept Q (ledgerStart q s) := by
  delta ledgerStart
  exact kept_mk hs

theorem showRes_kept {Q} {s : State} (hs : State.Kept Q s) :
    State.Kept Q (showRes s) := by
  delta showRes
  extract_lets -merge -useContext +implicits ks_0
  try clear_value ks_0
  exact State.setFld_kept hs

end Sys2Proof.Machine
end

