-- ==== Sys2Proof/Laws/KeptNvm.lean ====
section
/-! SUPPORT. The operations of Machine/Nvm.lean keep `State.Kept`. -/

namespace Sys2Proof.Machine

theorem setPageDw_kept {Q} {p} {i} {v} {s : State} (hs : State.Kept Q s) :
    State.Kept Q (setPageDw p i v s) := by
  delta setPageDw
  exact kept_mk hs

theorem refStep_kept {Q} {c} {d} {s : State} (hs : State.Kept Q s) :
    State.Kept Q (refStep c d s) := by
  delta refStep
  extract_lets -merge -useContext +implicits x_0 v_1 g_2
  try clear_value x_0
  try clear_value v_1
  try clear_value g_2
  refine kept_ite ?_ ?_
  · exact hs
  · exact State.setChan_kept hs

theorem stageDeskew_kept {Q} {c} {t} {s : State} (hs : State.Kept Q s) :
    State.Kept Q (stageDeskew c t s) := by
  delta stageDeskew
  extract_lets -merge -useContext +implicits q_0 i_1 d_2 k_3 _4
  try clear_value q_0
  try clear_value i_1
  try clear_value d_2
  try clear_value k_3
  try clear_value _4
  exact State.setChan_kept hs

theorem loadPage_kept {Q} {n} {s : State} (hs : State.Kept Q s) :
    State.Kept Q (loadPage n s) := by
  delta loadPage
  extract_lets -merge -useContext +implicits rest_0 _1 _2 s_3 s_4 _6 s_7 s_8 s_9
  try clear_value rest_0
  try clear_value _1
  try clear_value _2
  have hs_3 : State.Kept Q s_3 := by
    unfold s_3
    exact kept_mk hs
  try clear_value s_3
  have hs_4 : State.Kept Q s_4 := by
    unfold s_4
    split
    · extract_lets -merge -useContext +implicits f_5
      try clear_value f_5
      exact kept_mk hs
    · exact State.report_kept (State.raise_kept hs_3)
  try clear_value s_4
  try clear_value _6
  have hs_7 : State.Kept Q s_7 := by
    unfold s_7
    exact kept_mk hs_4
  try clear_value s_7
  have hs_8 : State.Kept Q s_8 := by
    unfold s_8
    exact State.setReg_kept (State.setReg_kept hs_7)
  try clear_value s_8
  have hs_9 : State.Kept Q s_9 := by
    unfold s_9
    exact State.setReg_kept hs_8
  try clear_value s_9
  refine kept_ite ?_ ?_
  · refine forAll_kept ?_ ?_
    · intro x10 x11 hx11
      try beta_reduce
      extract_lets -merge -useContext +implicits s_12 s_13
      have hs_12 : State.Kept Q s_12 := by
        unfold s_12
        exact State.setFld_kept hx11
      try clear_value s_12
      have hs_13 : State.Kept Q s_13 := by
        unfold s_13
        exact State.setFld_kept hs_12
      try clear_value s_13
      exact stageDeskew_kept hs_13
    · exact hs_8
  · refine kept_ite ?_ ?_
    · refine kept_ite ?_ ?_
      · exact State.report_kept (State.raise_kept hs_9)
      · exact hs_9
    · exact hs_8

theorem nvmLoad_kept {Q} {s : State} (hs : State.Kept Q s) :
    State.Kept Q (nvmLoad s) := by
  delta nvmLoad
  extract_lets -merge -useContext +implicits n_0 _1
  try clear_value n_0
  try clear_value _1
  refine kept_ite ?_ ?_
  · exact kept_mk hs
  · exact State.raise_kept hs

theorem nvmLoadComplete_kept {Q} {s : State} (hs : State.Kept Q s) :
    State.Kept Q (nvmLoadComplete s) := by
  delta nvmLoadComplete
  split
  · exact loadPage_kept (kept_mk hs)
  · exact hs

end Sys2Proof.Machine
end

