-- ==== Sys2Proof/Laws/KeptLatch.lean ====
section
/-! SUPPORT. The operations of Machine/Latch.lean keep `State.Kept`. -/

namespace Sys2Proof.Machine

theorem setDefer_kept {Q} {q} {t} {s : State} (hs : State.Kept Q s) :
    State.Kept Q (setDefer q t s) := by
  delta setDefer
  split
  · exact State.setReg_kept hs
  · exact State.setReg_kept hs

theorem showFlags_kept {Q} {q} {s : State} (hs : State.Kept Q s) :
    State.Kept Q (showFlags q s) := by
  delta showFlags
  exact State.setReg_kept hs

theorem writeLatch_kept {Q} {q} {trg} {b} {s : State} (hs : State.Kept Q s) :
    State.Kept Q (writeLatch q trg b s) := by
  delta writeLatch
  extract_lets -merge -useContext +implicits x_0 m_1
  try clear_value x_0
  try clear_value m_1
  exact showFlags_kept (State.setQ_kept hs)

theorem setLatch_kept {Q} {q} {trg} {s : State} (hs : State.Kept Q s) :
    State.Kept Q (setLatch q trg s) := by
  delta setLatch
  refine kept_ite ?_ ?_
  · exact hs
  · extract_lets -merge -useContext +implicits x_0 s_1 s_2 x_3
    try clear_value x_0
    have hs_1 : State.Kept Q s_1 := by
      unfold s_1
      exact State.count_kept (State.addSat_kept hs)
    try clear_value s_1
    have hs_2 : State.Kept Q s_2 := by
      unfold s_2
      exact writeLatch_kept hs
    try clear_value s_2
    try clear_value x_3
    split
    · refine kept_ite ?_ ?_
      · refine kept_ite ?_ ?_
        · exact setDefer_kept hs_1
        · exact State.setQ_kept hs_1
      · exact writeLatch_kept hs
    · exact State.setQ_kept hs_2

theorem markStop_kept {Q} {q} {t} {s : State} (hs : State.Kept Q s) :
    State.Kept Q (markStop q t s) := by
  delta markStop
  extract_lets -merge -useContext +implicits x_0
  try clear_value x_0
  exact State.setQ_kept hs

theorem markStart_kept {Q} {q} {t} {bits} {first} {s : State} (hs : State.Kept Q s) :
    State.Kept Q (markStart q t bits first s) := by
  delta markStart
  extract_lets -merge -useContext +implicits s_0 x_1 live_2
  have hs_0 : State.Kept Q s_0 := by
    unfold s_0
    exact markStop_kept hs
  try clear_value s_0
  try clear_value x_1
  try clear_value live_2
  exact State.setQ_kept hs_0

theorem setLatchAll_kept {Q} {trg} {s : State} (hs : State.Kept Q s) :
    State.Kept Q (setLatchAll trg s) := by
  delta setLatchAll
  refine forAll_kept ?_ ?_
  · intro x0 x1 hx1
    try beta_reduce
    exact setLatch_kept hx1
  · exact hs

end Sys2Proof.Machine
end

