-- ==== Sys2Proof/Laws/KeptPmu.lean ====
section
/-! SUPPORT. The operations of Machine/Pmu.lean keep `State.Kept`. -/

namespace Sys2Proof.Machine

theorem failSiteNow_kept {Q} {c} {s : State} (hs : State.Kept Q s) :
    State.Kept Q (failSiteNow c s) := by
  delta failSiteNow
  split
  · exact failSite_kept hs
  · exact hs

theorem pmuUnmerge_kept {Q} {c} {s : State} (hs : State.Kept Q s) :
    State.Kept Q (pmuUnmerge c s) := by
  delta pmuUnmerge
  extract_lets -merge -useContext +implicits y_0
  try clear_value y_0
  refine kept_ite ?_ ?_
  · exact hs
  · exact State.setPmu_kept hs

theorem pmuEmit_kept {Q} {c} {t} {r} {lim} {part} {abort} {x} {s : State} (hs : State.Kept Q s) :
    State.Kept Q (pmuEmit c t r lim part abort x s) := by
  delta pmuEmit
  extract_lets -merge -useContext +implicits q_0 level_1 key_2 y_3 same_4 m_5 sum_6 n_7 v_8
  try clear_value q_0
  try clear_value level_1
  try clear_value key_2
  try clear_value y_3
  try clear_value same_4
  try clear_value m_5
  try clear_value sum_6
  try clear_value n_7
  have hv_8 : State.Kept Q v_8.2 := by
    unfold v_8
    exact State.meanFree_kept hs
  try clear_value v_8
  refine kept_ite ?_ ?_
  · exact pmuUnmerge_kept hs
  · refine kept_ite ?_ ?_
    · exact pmuUnmerge_kept (addWaiting_kept hs)
    · refine kept_ite ?_ ?_
      · exact pmuUnmerge_kept (addWaiting_kept hv_8)
      · exact State.setPmu_kept hs

theorem pmuTrigger_kept {Q} {c} {t} {s : State} (hs : State.Kept Q s) :
    State.Kept Q (pmuTrigger c t s) := by
  delta pmuTrigger
  extract_lets -merge -useContext +implicits x_0 w_1
  try clear_value x_0
  try clear_value w_1
  refine kept_ite ?_ ?_
  · exact State.raise_kept hs
  · exact State.setBit_kept (State.setPmu_kept hs)

theorem pmuFinish_kept {Q} {c} {t} {part} {abort} {s : State} (hs : State.Kept Q s) :
    State.Kept Q (pmuFinish c t part abort s) := by
  delta pmuFinish
  extract_lets -merge -useContext +implicits x_0 v_1 r_2 code_3 _4 s_5 s_6 s_7 s_8 s_9 s_10 s_11 lo_12 hi_13 lim_14 s_15
  try clear_value x_0
  have hv_1 : State.Kept Q v_1.2 := by
    unfold v_1
    exact State.meanFree_kept hs
  try clear_value v_1
  try clear_value r_2
  try clear_value code_3
  try clear_value _4
  have hs_5 : State.Kept Q s_5 := by
    unfold s_5
    exact State.setBit_kept (State.setPmu_kept hv_1)
  try clear_value s_5
  have hs_6 : State.Kept Q s_6 := by
    unfold s_6
    exact State.setReg_kept (State.setFld_kept (State.setReg_kept hs_5))
  try clear_value s_6
  have hs_7 : State.Kept Q s_7 := by
    unfold s_7
    exact State.setFld_kept (State.setFld_kept hs_6)
  try clear_value s_7
  have hs_8 : State.Kept Q s_8 := by
    unfold s_8
    exact State.raise_kept hs_7
  try clear_value s_8
  have hs_9 : State.Kept Q s_9 := by
    unfold s_9
    refine kept_ite ?_ ?_
    · exact State.raise_kept hs_8
    · exact hs_8
  try clear_value s_9
  have hs_10 : State.Kept Q s_10 := by
    unfold s_10
    refine kept_ite ?_ ?_
    · exact State.raise_kept hs_9
    · exact hs_9
  try clear_value s_10
  have hs_11 : State.Kept Q s_11 := by
    unfold s_11
    refine kept_ite ?_ ?_
    · exact State.report_kept (State.raise_kept hs_10)
    · exact hs_10
  try clear_value s_11
  try clear_value lo_12
  try clear_value hi_13
  try clear_value lim_14
  have hs_15 : State.Kept Q s_15 := by
    unfold s_15
    refine kept_ite ?_ ?_
    · exact failSiteNow_kept (State.raise_kept hs_11)
    · exact hs_11
  try clear_value s_15
  exact pmuEmit_kept hs_15

theorem pmuAgain_kept {Q} {c} {t} {s : State} (hs : State.Kept Q s) :
    State.Kept Q (pmuAgain c t s) := by
  delta pmuAgain
  refine kept_ite ?_ ?_
  · exact pmuTrigger_kept hs
  · exact hs

theorem pmuMeasStart_kept {Q} {c} {s : State} (hs : State.Kept Q s) :
    State.Kept Q (pmuMeasStart c s) := by
  delta pmuMeasStart
  refine kept_ite ?_ ?_
  · exact pmuTrigger_kept hs
  · exact hs

theorem pmuMeasStop_kept {Q} {c} {s : State} (hs : State.Kept Q s) :
    State.Kept Q (pmuMeasStop c s) := by
  delta pmuMeasStop
  refine kept_ite ?_ ?_
  · exact pmuAgain_kept (pmuFinish_kept hs)
  · exact hs

theorem pmuAbort_kept {Q} {c} {s : State} (hs : State.Kept Q s) :
    State.Kept Q (pmuAbort c s) := by
  delta pmuAbort
  refine kept_ite ?_ ?_
  · exact pmuFinish_kept hs
  · exact hs

theorem pmuOff_kept {Q} {c} {s : State} (hs : State.Kept Q s) :
    State.Kept Q (pmuOff c s) := by
  delta pmuOff
  exact State.setPmu_kept hs

theorem pmuSafe_kept {Q} {c} {s : State} (hs : State.Kept Q s) :
    State.Kept Q (pmuSafe c s) := by
  delta pmuSafe
  extract_lets -merge -useContext +implicits s_0 x_1
  have hs_0 : State.Kept Q s_0 := by
    unfold s_0
    exact pmuAbort_kept hs
  try clear_value s_0
  try clear_value x_1
  exact State.setBit_kept (State.setPmu_kept hs_0)

theorem pmuMarkTrigger_kept {Q} {q} {mark} {t} {s : State} (hs : State.Kept Q s) :
    State.Kept Q (pmuMarkTrigger q mark t s) := by
  delta pmuMarkTrigger
  refine kept_ite ?_ ?_
  · exact hs
  · refine forAll_kept ?_ ?_
    · intro x0 x1 hx1
      try beta_reduce
      extract_lets -merge -useContext +implicits c_2
      try clear_value c_2
      refine kept_ite ?_ ?_
      · exact pmuTrigger_kept hx1
      · exact hx1
    · exact hs

theorem pmuLqTrigger_kept {Q} {c} {s : State} (hs : State.Kept Q s) :
    State.Kept Q (pmuLqTrigger c s) := by
  delta pmuLqTrigger
  refine kept_ite ?_ ?_
  · exact pmuTrigger_kept hs
  · exact hs

theorem adcSlot_kept {Q} {a} {v} {lim} {s : State} (hs : State.Kept Q s) :
    State.Kept Q (adcSlot a v lim s) := by
  delta adcSlot
  extract_lets -merge -useContext +implicits t_0
  try clear_value t_0
  refine kept_ite ?_ ?_
  · exact hs
  · split
    · exact hs
    · extract_lets -merge -useContext +implicits x_1 s_2
      try clear_value x_1
      have hs_2 : State.Kept Q s_2 := by
        unfold s_2
        exact { hs with adcs := by dsimp only; exact tabSet_wf _ _ _ _ (hs.adcs), adcAt := by dsimp only; exact tabSet_wf _ _ _ _ (hs.adcAt) }
      try clear_value s_2
      exact State.setPmu_kept hs_2

theorem pmuIntervalEnd_kept {Q} {c} {s : State} (hs : State.Kept Q s) :
    State.Kept Q (pmuIntervalEnd c s) := by
  delta pmuIntervalEnd
  split
  · refine kept_ite ?_ ?_
    · exact pmuAgain_kept (pmuFinish_kept hs)
    · exact hs
  · exact hs

theorem pmuForce_kept {Q} {c} {f0} {f} {s : State} (hs : State.Kept Q s) :
    State.Kept Q (pmuForce c f0 f s) := by
  delta pmuForce
  extract_lets -merge -useContext +implicits s_0 _1 s_2
  have hs_0 : State.Kept Q s_0 := by
    unfold s_0
    refine kept_ite ?_ ?_
    · exact hs
    · exact State.setFld_kept hs
  try clear_value s_0
  try clear_value _1
  have hs_2 : State.Kept Q s_2 := by
    unfold s_2
    exact State.setPmu_kept hs_0
  try clear_value s_2
  refine kept_ite ?_ ?_
  · exact State.setChan_kept hs_2
  · refine kept_ite ?_ ?_
    · exact hs_2
    · exact parkPin_kept hs_2

theorem pmuCtrlWrite_kept {Q} {c} {w} {m} {s : State} (hs : State.Kept Q s) :
    State.Kept Q (pmuCtrlWrite c w m s) := by
  delta pmuCtrlWrite
  extract_lets -merge -useContext +implicits old_0 busy_1 w_2 s_3 s_4 f_5 f_6 s_7 _8 _9 s_10
  try clear_value old_0
  try clear_value busy_1
  try clear_value w_2
  have hs_3 : State.Kept Q s_3 := by
    unfold s_3
    refine kept_ite ?_ ?_
    · exact State.count_kept (State.raise_kept hs)
    · exact hs
  try clear_value s_3
  have hs_4 : State.Kept Q s_4 := by
    unfold s_4
    exact State.setReg_kept hs_3
  try clear_value s_4
  try clear_value f_5
  try clear_value f_6
  have hs_7 : State.Kept Q s_7 := by
    unfold s_7
    refine kept_ite ?_ ?_
    · exact hs_4
    · exact pmuForce_kept hs_4
  try clear_value s_7
  try clear_value _8
  try clear_value _9
  have hs_10 : State.Kept Q s_10 := by
    unfold s_10
    exact State.setPmu_kept hs_7
  try clear_value s_10
  refine kept_ite ?_ ?_
  · exact hs_7
  · refine kept_ite ?_ ?_
    · exact State.setBit_kept (State.setPmu_kept hs_7)
    · refine kept_ite ?_ ?_
      · exact pmuAgain_kept (pmuFinish_kept hs_10)
      · exact hs_10

theorem pmuMeasWrite_kept {Q} {c} {w} {s : State} (hs : State.Kept Q s) :
    State.Kept Q (pmuMeasWrite c w s) := by
  delta pmuMeasWrite
  extract_lets -merge -useContext +implicits old_0 s_1
  try clear_value old_0
  have hs_1 : State.Kept Q s_1 := by
    unfold s_1
    exact State.setReg_kept hs
  try clear_value s_1
  refine kept_ite ?_ ?_
  · exact pmuTrigger_kept hs_1
  · exact hs_1

theorem pmuRangeStep_kept {Q} {c} {s : State} (hs : State.Kept Q s) :
    State.Kept Q (pmuRangeStep c s) := by
  delta pmuRangeStep
  extract_lets -merge -useContext +implicits x_0 fi_1
  try clear_value x_0
  try clear_value fi_1
  split
  · exact hs
  · refine kept_ite ?_ ?_
    · exact State.setPmu_kept hs
    · refine kept_ite ?_ ?_
      · exact State.setBit_kept (State.setPmu_kept hs)
      · exact hs

theorem pmuClamp_kept {Q} {c} {conducts} {s : State} (hs : State.Kept Q s) :
    State.Kept Q (pmuClamp c conducts s) := by
  delta pmuClamp
  refine kept_ite ?_ ?_
  · exact State.report_kept (State.raise_kept hs)
  · exact hs

end Sys2Proof.Machine
end

