-- ==== Sys2Proof/Laws/KeptTdc.lean ====
section
/-! SUPPORT. The operations of Machine/Tdc.lean keep `State.Kept`. -/

namespace Sys2Proof.Machine

theorem timeEmit_kept {Q} {u} {dt} {fine} {st} {stops} {ssn} {goff} {abort} {s : State} (hs : State.Kept Q s) :
    State.Kept Q (timeEmit u dt fine st stops ssn goff abort s) := by
  delta timeEmit
  extract_lets -merge -useContext +implicits q_0 s_1
  try clear_value q_0
  have hs_1 : State.Kept Q s_1 := by
    unfold s_1
    exact addWaiting_kept hs
  try clear_value s_1
  refine kept_ite ?_ ?_
  · exact hs
  · refine kept_ite ?_ ?_
    · exact addWaiting_kept hs_1
    · exact hs_1

theorem tdcOpen_kept {Q} {u} {t} {level} {s : State} (hs : State.Kept Q s) :
    State.Kept Q (tdcOpen u t level s) := by
  delta tdcOpen
  extract_lets -merge -useContext +implicits q_0 s_1 b_2 s_3 b_4
  try clear_value q_0
  have hs_1 : State.Kept Q s_1 := by
    unfold s_1
    exact State.report_kept (State.raise_kept hs)
  try clear_value s_1
  try clear_value b_2
  have hs_3 : State.Kept Q s_3 := by
    unfold s_3
    exact State.report_kept (State.raise_kept hs)
  try clear_value s_3
  try clear_value b_4
  refine kept_ite ?_ ?_
  · exact State.raise_kept hs
  · refine kept_ite ?_ ?_
    · exact timeEmit_kept hs_1
    · refine kept_ite ?_ ?_
      · exact timeEmit_kept hs_3
      · exact State.setFld_kept (State.setTdc_kept hs)

theorem tdcArm_kept {Q} {u} {t} {s : State} (hs : State.Kept Q s) :
    State.Kept Q (tdcArm u t s) := by
  delta tdcArm
  exact tdcOpen_kept hs

theorem tdcArmSource_kept {Q} {u} {d} {s : State} (hs : State.Kept Q s) :
    State.Kept Q (tdcArmSource u d s) := by
  delta tdcArmSource
  extract_lets -merge -useContext +implicits src_0
  try clear_value src_0
  refine kept_ite ?_ ?_
  · exact tdcOpen_kept hs
  · refine kept_ite ?_ ?_
    · exact tdcOpen_kept hs
    · exact hs

theorem tdcClose_kept {Q} {u} {t} {flags} {rearm} {s : State} (hs : State.Kept Q s) :
    State.Kept Q (tdcClose u t flags rearm s) := by
  delta tdcClose
  extract_lets -merge -useContext +implicits x_0 miss_1 f_2 b_3
  try clear_value x_0
  try clear_value miss_1
  try clear_value f_2
  try clear_value b_3
  refine kept_ite ?_ ?_
  · exact hs
  · exact State.setTdc_kept hs

theorem tdcStart_kept {Q} {u} {fine} {s : State} (hs : State.Kept Q s) :
    State.Kept Q (tdcStart u fine s) := by
  delta tdcStart
  extract_lets -merge -useContext +implicits x_0 evt_1 t_2 b_3 flags_4
  try clear_value x_0
  try clear_value evt_1
  try clear_value t_2
  try clear_value b_3
  try clear_value flags_4
  refine kept_ite ?_ ?_
  · exact hs
  · exact State.setFld_kept (State.setTdc_kept hs)

theorem tdcStop_kept {Q} {u} {fine} {s : State} (hs : State.Kept Q s) :
    State.Kept Q (tdcStop u fine s) := by
  delta tdcStop
  extract_lets -merge -useContext +implicits x_0 evt_1 t_2
  try clear_value x_0
  try clear_value evt_1
  try clear_value t_2
  split
  · exact hs
  · refine kept_ite ?_ ?_
    · exact hs
    · refine kept_ite ?_ ?_
      · exact State.raise_kept (State.setTdc_kept hs)
      · extract_lets -merge -useContext +implicits l_3 s_4 _5
        try clear_value l_3
        have hs_4 : State.Kept Q s_4 := by
          unfold s_4
          exact State.setTdc_kept hs
        try clear_value s_4
        try clear_value _5
        refine kept_ite ?_ ?_
        · exact tdcClose_kept (State.setTdc_kept hs_4)
        · exact hs_4

theorem tdcGateClose_kept {Q} {u} {d} {s : State} (hs : State.Kept Q s) :
    State.Kept Q (tdcGateClose u d s) := by
  delta tdcGateClose
  refine kept_ite ?_ ?_
  · exact tdcClose_kept hs
  · exact hs

theorem tdcTimeout_kept {Q} {u} {s : State} (hs : State.Kept Q s) :
    State.Kept Q (tdcTimeout u s) := by
  delta tdcTimeout
  extract_lets -merge -useContext +implicits t_0
  try clear_value t_0
  refine kept_ite ?_ ?_
  · exact tdcClose_kept hs
  · exact hs

theorem tdcRange_kept {Q} {u} {s : State} (hs : State.Kept Q s) :
    State.Kept Q (tdcRange u s) := by
  delta tdcRange
  split
  · extract_lets -merge -useContext +implicits e_0
    try clear_value e_0
    refine kept_ite ?_ ?_
    · exact tdcClose_kept hs
    · exact hs
  · exact hs

theorem tdcDisarm_kept {Q} {u} {s : State} (hs : State.Kept Q s) :
    State.Kept Q (tdcDisarm u s) := by
  delta tdcDisarm
  exact tdcClose_kept hs

theorem tdcAbort_kept {Q} {u} {s : State} (hs : State.Kept Q s) :
    State.Kept Q (tdcAbort u s) := by
  delta tdcAbort
  exact tdcClose_kept hs

theorem tdcAbortQuarter_kept {Q} {q} {s : State} (hs : State.Kept Q s) :
    State.Kept Q (tdcAbortQuarter q s) := by
  delta tdcAbortQuarter
  refine forAll_kept ?_ ?_
  · intro x0 x1 hx1
    try beta_reduce
    exact tdcAbort_kept hx1
  · exact hs

theorem setStart_kept {Q} {u} {dt} {fine} {s : State} (hs : State.Kept Q s) :
    State.Kept Q (setStart u dt fine s) := by
  delta setStart
  extract_lets -merge -useContext +implicits s_0 s_1
  have hs_0 : State.Kept Q s_0 := by
    unfold s_0
    exact State.setReg_kept (State.setReg_kept hs)
  try clear_value s_0
  have hs_1 : State.Kept Q s_1 := by
    unfold s_1
    exact State.setReg_kept (State.setReg_kept hs_0)
  try clear_value s_1
  exact State.setFld_kept hs_1

theorem tdcResult_kept {Q} {u} {s : State} (hs : State.Kept Q s) :
    State.Kept Q (tdcResult u s) := by
  delta tdcResult
  extract_lets -merge -useContext +implicits x_0 q_1 a_2 c_3 s_4 s_5 s_9 s_10 s_11 s_12 st_13 dt_14 fine_15 s_16
  try clear_value x_0
  try clear_value q_1
  have ha_2 : State.Kept Q a_2.2 := by
    unfold a_2
    exact State.free_kept hs
  try clear_value a_2
  have hc_3 : State.Kept Q c_3.2 := by
    unfold c_3
    exact State.free_kept ha_2
  try clear_value c_3
  have hs_4 : State.Kept Q s_4 := by
    unfold s_4
    split
    · exact setStart_kept hs
    · exact setStart_kept (State.free_kept hc_3)
  try clear_value s_4
  have hs_5 : State.Kept Q s_5 := by
    unfold s_5
    refine forAll_kept ?_ ?_
    · intro x6 x7 hx7
      try beta_reduce
      extract_lets -merge -useContext +implicits v_8
      try clear_value v_8
      exact State.setReg_kept (State.setReg_kept hx7)
    · exact hs_4
  try clear_value s_5
  have hs_9 : State.Kept Q s_9 := by
    unfold s_9
    exact State.setTdc_kept (State.setFld_kept (State.setFld_kept hs_5))
  try clear_value s_9
  have hs_10 : State.Kept Q s_10 := by
    unfold s_10
    exact State.raiseMask_kept hs_9
  try clear_value s_10
  have hs_11 : State.Kept Q s_11 := by
    unfold s_11
    refine kept_ite ?_ ?_
    · exact State.report_kept hs_10
    · exact hs_10
  try clear_value s_11
  have hs_12 : State.Kept Q s_12 := by
    unfold s_12
    exact State.count_kept (setLatch_kept hs_11)
  try clear_value s_12
  try clear_value st_13
  try clear_value dt_14
  try clear_value fine_15
  have hs_16 : State.Kept Q s_16 := by
    unfold s_16
    exact timeEmit_kept hs_12
  try clear_value s_16
  split
  · exact hs
  · refine kept_ite ?_ ?_
    · exact hs
    · refine kept_ite ?_ ?_
      · exact tdcOpen_kept hs_16
      · exact hs_16

theorem dllLocked_kept {Q} {q} {s : State} (hs : State.Kept Q s) :
    State.Kept Q (dllLocked q s) := by
  delta dllLocked
  exact State.setDll_kept (State.setBit_kept hs)

end Sys2Proof.Machine
end

