-- ==== Sys2Proof/Laws/KeptCalib.lean ====
section
/-! SUPPORT. The operations of Machine/Calib.lean keep `State.Kept`. -/

namespace Sys2Proof.Machine

theorem resWait_kept {Q} {s : State} (hs : State.Kept Q s) :
    State.Kept Q (resWait s) := by
  delta resWait
  extract_lets -merge -useContext +implicits l_0 _1 s_2
  try clear_value l_0
  try clear_value _1
  have hs_2 : State.Kept Q s_2 := by
    unfold s_2
    exact kept_mk hs
  try clear_value s_2
  refine forAll_kept ?_ ?_
  · intro x3 x4 hx4
    try beta_reduce
    extract_lets -merge -useContext +implicits s_5
    have hs_5 : State.Kept Q s_5 := by
      unfold s_5
      exact State.count_kept (State.raise_kept hx4)
    try clear_value s_5
    refine kept_ite ?_ ?_
    · exact State.raise_kept hs_5
    · exact hs_5
  · exact hs_2

theorem showArb_kept {Q} {s : State} (hs : State.Kept Q s) :
    State.Kept Q (showArb s) := by
  delta showArb
  extract_lets -merge -useContext +implicits run_0 busy_1 s_2 s_3
  try clear_value run_0
  try clear_value busy_1
  have hs_2 : State.Kept Q s_2 := by
    unfold s_2
    exact State.setReg_kept hs
  try clear_value s_2
  have hs_3 : State.Kept Q s_3 := by
    unfold s_3
    exact State.setFld_kept hs_2
  try clear_value s_3
  exact State.setBit_kept hs_3

theorem setRunning_kept {Q} {l} {s : State} (hs : State.Kept Q s) :
    State.Kept Q (setRunning l s) := by
  delta setRunning
  extract_lets -merge -useContext +implicits s_0 _1
  have hs_0 : State.Kept Q s_0 := by
    unfold s_0
    exact ledgerSettle_kept hs
  try clear_value s_0
  try clear_value _1
  exact resWait_kept (showArb_kept (showRes_kept (kept_mk hs_0)))

theorem nvmErase_kept {Q} {s : State} (hs : State.Kept Q s) :
    State.Kept Q (nvmErase s) := by
  delta nvmErase
  split
  · exact hs
  · extract_lets -merge -useContext +implicits p_0 c_1 _2 s_3
    try clear_value p_0
    try clear_value c_1
    try clear_value _2
    have hs_3 : State.Kept Q s_3 := by
      unfold s_3
      exact kept_mk hs
    try clear_value s_3
    exact setPageDw_kept hs_3

theorem maintStart_kept {Q} {a} {s : State} (hs : State.Kept Q s) :
    State.Kept Q (maintStart a s) := by
  delta maintStart
  extract_lets -merge -useContext +implicits _0 s_1 s_2 s_3 s_4 _5
  try clear_value _0
  have hs_1 : State.Kept Q s_1 := by
    unfold s_1
    exact kept_mk hs
  try clear_value s_1
  have hs_2 : State.Kept Q s_2 := by
    unfold s_2
    exact setRunning_kept hs_1
  try clear_value s_2
  have hs_3 : State.Kept Q s_3 := by
    unfold s_3
    exact State.setBit_kept hs_2
  try clear_value s_3
  have hs_4 : State.Kept Q s_4 := by
    unfold s_4
    refine kept_ite ?_ ?_
    · exact hs_3
    · exact State.setFld_kept hs_3
  try clear_value s_4
  try clear_value _5
  refine kept_ite ?_ ?_
  · exact State.setBit_kept (State.setBit_kept hs_2)
  · refine kept_ite ?_ ?_
    · exact kept_mk hs_4
    · refine kept_ite ?_ ?_
      · exact nvmErase_kept hs_2
      · exact hs_2

theorem maintWait_kept {Q} {a} {s : State} (hs : State.Kept Q s) :
    State.Kept Q (maintWait a s) := by
  delta maintWait
  extract_lets -merge -useContext +implicits _0 s_1 s_2 s_3
  try clear_value _0
  have hs_1 : State.Kept Q s_1 := by
    unfold s_1
    exact kept_mk hs
  try clear_value s_1
  have hs_2 : State.Kept Q s_2 := by
    unfold s_2
    exact State.count_kept (State.raise_kept hs_1)
  try clear_value s_2
  have hs_3 : State.Kept Q s_3 := by
    unfold s_3
    refine kept_ite ?_ ?_
    · refine kept_ite ?_ ?_
      · exact State.raise_kept hs_2
      · exact hs_2
    · exact hs_1
  try clear_value s_3
  exact resWait_kept hs_3

theorem takeBack_kept {Q} {b} {s : State} (hs : State.Kept Q s) :
    State.Kept Q (takeBack b s) := by
  delta takeBack
  extract_lets -merge -useContext +implicits s_0 rest_1 _2
  have hs_0 : State.Kept Q s_0 := by
    unfold s_0
    exact setRunning_kept hs
  try clear_value s_0
  try clear_value rest_1
  try clear_value _2
  refine kept_ite ?_ ?_
  · exact State.setBit_kept (State.setBit_kept hs_0)
  · refine kept_ite ?_ ?_
    · exact kept_mk hs_0
    · exact hs_0

theorem maintBegin_kept {Q} {a} {s : State} (hs : State.Kept Q s) :
    State.Kept Q (maintBegin a s) := by
  delta maintBegin
  exact maintStart_kept (kept_mk hs)

theorem yieldTo_kept {Q} {l} {f} {s : State} (hf : ∀ y0, State.Kept Q y0 →  State.Kept Q (f y0)) (hs : State.Kept Q s) :
    State.Kept Q (yieldTo l f s) := by
  delta yieldTo
  refine foldl_kept ?_ ?_
  · intro x0 hx0 x1
    try beta_reduce
    refine kept_ite ?_ ?_
    · exact maintStart_kept hx0
    · exact maintWait_kept hx0
  · refine hf _ ?_
    refine foldl_kept ?_ ?_
    · intro x2 hx2 x3
      try beta_reduce
      exact takeBack_kept hx2
    · exact hs

theorem maintRequest_kept {Q} {a} {s : State} (hs : State.Kept Q s) :
    State.Kept Q (maintRequest a s) := by
  delta maintRequest
  extract_lets -merge -useContext +implicits l_0
  try clear_value l_0
  refine kept_ite ?_ ?_
  · exact hs
  · refine kept_ite ?_ ?_
    · exact maintBegin_kept hs
    · refine kept_ite ?_ ?_
      · refine yieldTo_kept ?_ ?_
        · intro x1 hx1
          exact maintBegin_kept hx1
        · exact hs
      · exact maintWait_kept hs

theorem maintEnd_kept {Q} {a} {s : State} (hs : State.Kept Q s) :
    State.Kept Q (maintEnd a s) := by
  delta maintEnd
  extract_lets -merge -useContext +implicits _0 s_1
  try clear_value _0
  have hs_1 : State.Kept Q s_1 := by
    unfold s_1
    exact kept_mk hs
  try clear_value s_1
  refine kept_ite ?_ ?_
  · exact setRunning_kept hs_1
  · exact hs_1

theorem maintGrant_kept {Q} {s : State} (hs : State.Kept Q s) :
    State.Kept Q (maintGrant s) := by
  delta maintGrant
  split
  · exact maintStart_kept hs
  · exact hs

theorem relockRequest_kept {Q} {q} {s : State} (hs : State.Kept Q s) :
    State.Kept Q (relockRequest q s) := by
  delta relockRequest
  refine kept_ite ?_ ?_
  · exact hs
  · extract_lets -merge -useContext +implicits t_0
    have ht_0 : State.Kept Q t_0 := by
      unfold t_0
      exact State.setBit_kept hs
    try clear_value t_0
    exact maintRequest_kept ht_0

theorem dllLost_kept {Q} {q} {s : State} (hs : State.Kept Q s) :
    State.Kept Q (dllLost q s) := by
  delta dllLost
  refine kept_ite ?_ ?_
  · exact hs
  · extract_lets -merge -useContext +implicits s_0 s_1 s_2 _5
    have hs_0 : State.Kept Q s_0 := by
      unfold s_0
      exact State.raise_kept (State.setBit_kept hs)
    try clear_value s_0
    have hs_1 : State.Kept Q s_1 := by
      unfold s_1
      exact State.report_kept hs_0
    try clear_value s_1
    have hs_2 : State.Kept Q s_2 := by
      unfold s_2
      refine forAll_kept ?_ ?_
      · intro x3 x4 hx4
        try beta_reduce
        exact tdcClose_kept hx4
      · exact hs_1
    try clear_value s_2
    try clear_value _5
    exact relockRequest_kept (State.setDll_kept hs_2)

theorem relockComplete_kept {Q} {q} {s : State} (hs : State.Kept Q s) :
    State.Kept Q (relockComplete q s) := by
  delta relockComplete
  refine kept_ite ?_ ?_
  · exact maintEnd_kept (dllLocked_kept (State.setBit_kept hs))
  · exact hs

theorem mreqWrite_kept {Q} {w} {s : State} (hs : State.Kept Q s) :
    State.Kept Q (mreqWrite w s) := by
  delta mreqWrite
  extract_lets -merge -useContext +implicits old_0 req_1 same_2 s_3 s_4
  try clear_value old_0
  try clear_value req_1
  try clear_value same_2
  have hs_3 : State.Kept Q s_3 := by
    unfold s_3
    exact State.setReg_kept hs
  try clear_value s_3
  have hs_4 : State.Kept Q s_4 := by
    unfold s_4
    exact maintEnd_kept hs_3
  try clear_value s_4
  refine kept_ite ?_ ?_
  · exact hs_3
  · refine kept_ite ?_ ?_
    · exact maintRequest_kept hs_4
    · exact hs_4

theorem nvmStore_kept {Q} {s : State} (hs : State.Kept Q s) :
    State.Kept Q (nvmStore s) := by
  delta nvmStore
  extract_lets -merge -useContext +implicits n_0 _1
  try clear_value n_0
  try clear_value _1
  refine kept_ite ?_ ?_
  · exact hs
  · refine kept_ite ?_ ?_
    · exact State.raise_kept hs
    · refine kept_ite ?_ ?_
      · exact State.raise_kept hs
      · exact maintRequest_kept (State.setBit_kept (kept_mk hs))

theorem nvmStoreComplete_kept {Q} {ok} {s : State} (hs : State.Kept Q s) :
    State.Kept Q (nvmStoreComplete ok s) := by
  delta nvmStoreComplete
  split
  · extract_lets -merge -useContext +implicits p_0 gen_1 s_2 s_5 s_6 s_7 _8 s_9
    try clear_value p_0
    try clear_value gen_1
    have hs_2 : State.Kept Q s_2 := by
      unfold s_2
      refine forAll_kept ?_ ?_
      · intro x3 x4 hx4
        try beta_reduce
        exact setPageDw_kept hx4
      · exact hs
    try clear_value s_2
    have hs_5 : State.Kept Q s_5 := by
      unfold s_5
      exact setPageDw_kept hs_2
    try clear_value s_5
    have hs_6 : State.Kept Q s_6 := by
      unfold s_6
      exact setPageDw_kept (setPageDw_kept hs_5)
    try clear_value s_6
    have hs_7 : State.Kept Q s_7 := by
      unfold s_7
      refine kept_ite ?_ ?_
      · exact setPageDw_kept hs_6
      · exact State.report_kept (State.raise_kept hs)
    try clear_value s_7
    try clear_value _8
    have hs_9 : State.Kept Q s_9 := by
      unfold s_9
      exact kept_mk hs_7
    try clear_value s_9
    exact maintEnd_kept (State.raise_kept (State.setBit_kept hs_9))
  · exact hs

theorem setCalStat_kept {Q} {c} {st} {s : State} (hs : State.Kept Q s) :
    State.Kept Q (setCalStat c st s) := by
  delta setCalStat
  exact State.setCalCh_kept hs

theorem calSlotRun_kept {Q} {q} {t} {cs} {s : State} (hs : State.Kept Q s) :
    State.Kept Q (calSlotRun q t cs s) := by
  delta calSlotRun
  extract_lets -merge -useContext +implicits run_0 s_1 s_4 _7
  try clear_value run_0
  have hs_1 : State.Kept Q s_1 := by
    unfold s_1
    refine foldl_kept ?_ ?_
    · intro x2 hx2 x3
      try beta_reduce
      refine kept_ite ?_ ?_
      · exact hx2
      · exact setCalStat_kept hx2
    · exact hs
  try clear_value s_1
  have hs_4 : State.Kept Q s_4 := by
    unfold s_4
    refine foldl_kept ?_ ?_
    · intro x5 hx5 x6
      try beta_reduce
      exact State.setBit_kept (State.setChan_kept hx5)
    · exact hs_1
  try clear_value s_4
  try clear_value _7
  exact showArb_kept (kept_mk hs_4)

theorem calPrbs_kept {Q} {x} {j} {s : State} (hs : State.Kept Q s) :
    State.Kept Q (calPrbs x j s) := by
  delta calPrbs
  refine foldl_kept ?_ ?_
  · intro x0 hx0 x1
    try beta_reduce
    exact State.setCalCh_kept hx0
  · exact hs

theorem calSlotOver_kept {Q} {x} {s : State} (hs : State.Kept Q s) :
    State.Kept Q (calSlotOver x s) := by
  delta calSlotOver
  refine foldl_kept ?_ ?_
  · intro x0 hx0 x1
    try beta_reduce
    refine kept_ite ?_ ?_
    · extract_lets -merge -useContext +implicits _2 s_3 _4
      try clear_value _2
      have hs_3 : State.Kept Q s_3 := by
        unfold s_3
        exact parkPin_kept (State.setChan_kept hx0)
      try clear_value s_3
      try clear_value _4
      exact State.setChan_kept hs_3
    · exact hx0
  · exact hs

theorem calSlotStart_kept {Q} {q} {grp} {t} {s : State} (hs : State.Kept Q s) :
    State.Kept Q (calSlotStart q grp t s) := by
  delta calSlotStart
  extract_lets -merge -useContext +implicits cs_0 s_1 l_6 s_7
  try clear_value cs_0
  have hs_1 : State.Kept Q s_1 := by
    unfold s_1
    refine foldl_kept ?_ ?_
    · intro x2 hx2 x3
      try beta_reduce
      extract_lets -merge -useContext +implicits s_4 _5
      have hs_4 : State.Kept Q s_4 := by
        unfold s_4
        exact parkPin_kept hx2
      try clear_value s_4
      try clear_value _5
      exact State.setChan_kept hs_4
    · exact hs
  try clear_value s_1
  try clear_value l_6
  have hs_7 : State.Kept Q s_7 := by
    unfold s_7
    exact State.count_kept (State.raise_kept hs_1)
  try clear_value s_7
  refine kept_ite ?_ ?_
  · exact hs_1
  · refine kept_ite ?_ ?_
    · refine foldl_kept ?_ ?_
      · intro x8 hx8 x9
        try beta_reduce
        exact setCalStat_kept hx8
      · exact hs_7
    · refine yieldTo_kept ?_ ?_
      · intro x10 hx10
        exact calSlotRun_kept hx10
      · exact hs_1

theorem calSlotGranule_kept {Q} {q} {j} {s : State} (hs : State.Kept Q s) :
    State.Kept Q (calSlotGranule q j s) := by
  delta calSlotGranule
  split
  · exact hs
  · refine kept_ite ?_ ?_
    · refine foldl_kept ?_ ?_
      · intro x0 hx0 x1
        try beta_reduce
        exact State.setBit_kept (State.setChan_kept hx0)
      · exact hs
    · refine kept_ite ?_ ?_
      · refine foldl_kept ?_ ?_
        · intro x2 hx2 x3
          try beta_reduce
          exact State.setBit_kept (State.setChan_kept hx2)
        · exact hs
      · refine kept_ite ?_ ?_
        · refine foldl_kept ?_ ?_
          · intro x4 hx4 x5
            try beta_reduce
            exact State.setBit_kept hx4
          · exact hs
        · exact hs

theorem calUpdate_kept {Q} {c} {n} {trans} {k} {s : State} (hs : State.Kept Q s) :
    State.Kept Q (calUpdate c n trans k s) := by
  delta calUpdate
  extract_lets -merge -useContext +implicits q_0 x_1 db_2 dx_3 dy_4 sv_5 ev_6 lim_7 s_8
  try clear_value q_0
  try clear_value x_1
  try clear_value db_2
  try clear_value dx_3
  try clear_value dy_4
  try clear_value sv_5
  try clear_value ev_6
  try clear_value lim_7
  have hs_8 : State.Kept Q s_8 := by
    unfold s_8
    exact State.setCalCh_kept hs
  try clear_value s_8
  refine kept_ite ?_ ?_
  · exact State.report_kept (setCalStat_kept (State.raise_kept hs))
  · refine kept_ite ?_ ?_
    · exact State.report_kept (State.raise_kept hs_8)
    · exact hs_8

theorem calSlotEnd_kept {Q} {q} {rs} {s : State} (hs : State.Kept Q s) :
    State.Kept Q (calSlotEnd q rs s) := by
  delta calSlotEnd
  split
  · exact hs
  · refine kept_ite ?_ ?_
    · exact hs
    · extract_lets -merge -useContext +implicits s_0 _4
      have hs_0 : State.Kept Q s_0 := by
        unfold s_0
        refine foldl_kept ?_ ?_
        · intro x1 hx1 x2
          try beta_reduce
          extract_lets -merge -useContext +implicits r_3
          try clear_value r_3
          exact calUpdate_kept hx1
        · exact calSlotOver_kept (calPrbs_kept hs)
      try clear_value s_0
      try clear_value _4
      exact resWait_kept (showArb_kept (State.count_kept (kept_mk hs_0)))

theorem calRelease_kept {Q} {q} {s : State} (hs : State.Kept Q s) :
    State.Kept Q (calRelease q s) := by
  delta calRelease
  refine forAll_kept ?_ ?_
  · intro x0 x1 hx1
    try beta_reduce
    extract_lets -merge -useContext +implicits c_2 _3
    try clear_value c_2
    try clear_value _3
    refine kept_ite ?_ ?_
    · exact State.setChan_kept hx1
    · exact hx1
  · exact hs

theorem calSlotAbort_kept {Q} {q} {s : State} (hs : State.Kept Q s) :
    State.Kept Q (calSlotAbort q s) := by
  delta calSlotAbort
  split
  · exact calRelease_kept hs
  · extract_lets -merge -useContext +implicits s_0 s_1 _5
    have hs_0 : State.Kept Q s_0 := by
      unfold s_0
      exact calPrbs_kept hs
    try clear_value s_0
    have hs_1 : State.Kept Q s_1 := by
      unfold s_1
      refine foldl_kept ?_ ?_
      · intro x2 hx2 x3
        try beta_reduce
        extract_lets -merge -useContext +implicits s_4
        have hs_4 : State.Kept Q s_4 := by
          unfold s_4
          exact State.setChan_kept hx2
        try clear_value s_4
        exact setCalStat_kept (State.setBit_kept (State.setBit_kept hs_4))
      · exact hs_0
    try clear_value s_1
    try clear_value _5
    exact calRelease_kept (resWait_kept (showArb_kept (kept_mk hs_1)))

theorem calAgeLimit_kept {Q} {c} {s : State} (hs : State.Kept Q s) :
    State.Kept Q (calAgeLimit c s) := by
  delta calAgeLimit
  extract_lets -merge -useContext +implicits q_0 lim_1 owned_2 _3
  try clear_value q_0
  try clear_value lim_1
  try clear_value owned_2
  try clear_value _3
  refine kept_ite ?_ ?_
  · exact State.report_kept (State.raise_kept (State.setCalCh_kept hs))
  · exact hs

theorem showCorr_kept {Q} {c} {s : State} (hs : State.Kept Q s) :
    State.Kept Q (showCorr c s) := by
  delta showCorr
  extract_lets -merge -useContext +implicits q_0 i_1 x_2 vd_3 vc_4 s_5
  try clear_value q_0
  try clear_value i_1
  try clear_value x_2
  try clear_value vd_3
  try clear_value vc_4
  have hs_5 : State.Kept Q s_5 := by
    unfold s_5
    refine kept_ite ?_ ?_
    · exact hs
    · exact State.setReg_kept hs
  try clear_value s_5
  refine kept_ite ?_ ?_
  · exact hs_5
  · exact State.setReg_kept hs_5

theorem tempTerm_kept {Q} {c} {s : State} (hs : State.Kept Q s) :
    State.Kept Q (tempTerm c s) := by
  delta tempTerm
  extract_lets -merge -useContext +implicits q_0 v_1 _2
  try clear_value q_0
  try clear_value v_1
  try clear_value _2
  refine kept_ite ?_ ?_
  · refine kept_ite ?_ ?_
    · exact hs
    · exact showCorr_kept (State.setChan_kept hs)
  · exact hs

theorem putCorr_kept {Q} {c} {d} {k} {v} {s : State} (hs : State.Kept Q s) :
    State.Kept Q (putCorr c d k v s) := by
  delta putCorr
  exact showCorr_kept (State.setChan_kept (State.setReg_kept hs))

theorem calCommit_kept {Q} {q} {t} {s : State} (hs : State.Kept Q s) :
    State.Kept Q (calCommit q t s) := by
  delta calCommit
  refine kept_ite ?_ ?_
  · exact hs
  · refine forAll_kept ?_ ?_
    · intro x0 x1 hx1
      try beta_reduce
      extract_lets -merge -useContext +implicits c_2 x_3 y_4 d_5
      try clear_value c_2
      try clear_value x_3
      try clear_value y_4
      try clear_value d_5
      refine kept_ite ?_ ?_
      · exact hx1
      · refine kept_ite ?_ ?_
        · exact putCorr_kept hx1
        · exact State.setChan_kept hx1
    · exact hs

end Sys2Proof.Machine
end

