-- ==== Sys2Proof/Laws/KeptPorts.lean ====
section
/-! SUPPORT. The operations of Machine/Ports.lean keep `State.Kept`. -/

namespace Sys2Proof.Machine

theorem portRaise_kept {Q} {n} {bit} {s : State} (hs : State.Kept Q s) :
    State.Kept Q (portRaise n bit s) := by
  delta portRaise
  exact State.raiseMask_kept hs

theorem portState_kept {Q} {n} {st} {s : State} (hs : State.Kept Q s) :
    State.Kept Q (portState n st s) := by
  delta portState
  exact State.setFld_kept hs

theorem portLatch_kept {Q} {n} {trg} {s : State} (hs : State.Kept Q s) :
    State.Kept Q (portLatch n trg s) := by
  delta portLatch
  refine kept_ite ?_ ?_
  · exact setLatch_kept hs
  · exact hs

theorem portStart_kept {Q} {n} {k} {t} {s : State} (hs : State.Kept Q s) :
    State.Kept Q (portStart n k t s) := by
  delta portStart
  extract_lets -merge -useContext +implicits x_0 u_1 s_2
  try clear_value x_0
  try clear_value u_1
  have hs_2 : State.Kept Q s_2 := by
    unfold s_2
    exact portRaise_kept hs
  try clear_value s_2
  refine kept_ite ?_ ?_
  · exact portLatch_kept (portRaise_kept hs)
  · refine kept_ite ?_ ?_
    · refine portLatch_kept ?_
      refine kept_ite ?_ ?_
      · exact State.report_kept hs_2
      · exact hs_2
    · refine kept_ite ?_ ?_
      · exact portState_kept (State.setPort_kept hs)
      · exact portState_kept (State.setPort_kept hs)

theorem portStartWrite_kept {Q} {n} {s : State} (hs : State.Kept Q s) :
    State.Kept Q (portStartWrite n s) := by
  delta portStartWrite
  extract_lets -merge -useContext +implicits k_0 t_1 _2
  try clear_value k_0
  try clear_value t_1
  try clear_value _2
  refine kept_ite ?_ ?_
  · exact portStart_kept hs
  · exact State.setPort_kept hs

theorem portSettle_kept {Q} {n} {b} {s : State} (hs : State.Kept Q s) :
    State.Kept Q (portSettle n b s) := by
  delta portSettle
  split
  · refine kept_ite ?_ ?_
    · exact portStart_kept (State.setPort_kept hs)
    · exact hs
  · exact hs

theorem peStart_kept {Q} {n} {k} {t} {s : State} (hs : State.Kept Q s) :
    State.Kept Q (peStart n k t s) := by
  delta peStart
  split
  · refine kept_ite ?_ ?_
    · exact portStart_kept (portSettle_kept hs)
    · refine kept_ite ?_ ?_
      · extract_lets -merge -useContext +implicits _0 s_1
        try clear_value _0
        have hs_1 : State.Kept Q s_1 := by
          unfold s_1
          exact State.setPort_kept hs
        try clear_value s_1
        exact portLatch_kept (portRaise_kept (portStart_kept hs_1))
      · exact portStart_kept hs
  · exact portStart_kept hs

theorem peConflict_kept {Q} {q} {group} {s : State} (hs : State.Kept Q s) :
    State.Kept Q (peConflict q group s) := by
  delta peConflict
  refine kept_ite ?_ ?_
  · exact State.report_kept (portRaise_kept hs)
  · exact hs

theorem rxStore_kept {Q} {n} {u} {bits} {s : State} (hs : State.Kept Q s) :
    State.Kept Q (rxStore n u bits s) := by
  delta rxStore
  refine foldl_kept ?_ ?_
  · intro x0 hx0 x1
    try beta_reduce
    extract_lets -merge -useContext +implicits a_2 p_3 m_4 v_5
    try clear_value a_2
    try clear_value p_3
    try clear_value m_4
    try clear_value v_5
    exact State.winSet_kept hx0
  · exact hs

theorem txSend_kept {Q} {n} {slave} {u} {s : State} (hs : State.Kept Q s) :
    State.Kept Q (txSend n slave u s).1 := by
  unfold txSend
  extract_lets -merge -useContext +implicits need_0 av_1 x_2 p_3 w_4 k_5 ds_6 stops_7 last_8 s_9 s_10
  try clear_value need_0
  try clear_value av_1
  try clear_value x_2
  try clear_value p_3
  try clear_value w_4
  try clear_value k_5
  try clear_value ds_6
  try clear_value stops_7
  try clear_value last_8
  have hs_9 : State.Kept Q s_9 := by
    unfold s_9
    exact State.setPort_kept hs
  try clear_value s_9
  have hs_10 : State.Kept Q s_10 := by
    unfold s_10
    exact State.setFld_kept hs_9
  try clear_value s_10
  refine kept_ite_fst ?_ ?_
  · exact kept_fst (portRaise_kept (State.setPort_kept hs))
  · refine kept_ite_fst ?_ ?_
    · exact kept_fst (portRaise_kept hs_10)
    · exact kept_fst hs_10

theorem peGiveBack_kept {Q} {n} {s : State} (hs : State.Kept Q s) :
    State.Kept Q (peGiveBack n s) := by
  delta peGiveBack
  refine kept_ite ?_ ?_
  · exact hs
  · refine forAll_kept ?_ ?_
    · intro x0 x1 hx1
      try beta_reduce
      refine kept_ite ?_ ?_
      · extract_lets -merge -useContext +implicits c_2 s_3
        try clear_value c_2
        have hs_3 : State.Kept Q s_3 := by
          unfold s_3
          exact State.setChan_kept hx1
        try clear_value s_3
        refine kept_ite ?_ ?_
        · exact hs_3
        · exact parkPin_kept hs_3
      · exact hx1
    · exact hs

theorem portUnitEnd_kept {Q} {n} {e} {cnt} {err} {s : State} (hs : State.Kept Q s) :
    State.Kept Q (portUnitEnd n e cnt err s) := by
  delta portUnitEnd
  extract_lets -merge -useContext +implicits x_0 ab_1 idle_2 s_3 s_4
  try clear_value x_0
  try clear_value ab_1
  try clear_value idle_2
  have hs_3 : State.Kept Q s_3 := by
    unfold s_3
    exact State.setPort_kept hs
  try clear_value s_3
  have hs_4 : State.Kept Q s_4 := by
    unfold s_4
    exact peGiveBack_kept (portState_kept hs_3)
  try clear_value s_4
  refine kept_ite ?_ ?_
  · exact portLatch_kept (portRaise_kept hs_4)
  · exact hs_4

theorem portMasterEnd_kept {Q} {n} {bits} {busy} {s : State} (hs : State.Kept Q s) :
    State.Kept Q (portMasterEnd n bits busy s) := by
  delta portMasterEnd
  split
  · exact hs
  · extract_lets -merge -useContext +implicits bm_0 waits_1 busy_2 e_3 tx_4 rx_5 got_6 s_7
    try clear_value bm_0
    try clear_value waits_1
    try clear_value busy_2
    try clear_value e_3
    have htx_4 : State.Kept Q tx_4.1 := by
      unfold tx_4
      refine kept_ite_fst ?_ ?_
      · exact txSend_kept hs
      · exact kept_fst hs
    try clear_value tx_4
    try clear_value rx_5
    try clear_value got_6
    have hs_7 : State.Kept Q s_7 := by
      unfold s_7
      refine kept_ite ?_ ?_
      · exact rxStore_kept htx_4
      · exact htx_4
    try clear_value s_7
    refine kept_ite ?_ ?_
    · exact hs
    · refine kept_ite ?_ ?_
      · exact portUnitEnd_kept (portRaise_kept hs)
      · exact portUnitEnd_kept hs_7

theorem portSelect_kept {Q} {n} {sck} {s : State} (hs : State.Kept Q s) :
    State.Kept Q (portSelect n sck s) := by
  delta portSelect
  extract_lets -merge -useContext +implicits x_0
  try clear_value x_0
  split
  · exact portState_kept (State.setPort_kept hs)
  · exact hs

theorem portRelease_kept {Q} {n} {bits} {cycles} {s : State} (hs : State.Kept Q s) :
    State.Kept Q (portRelease n bits cycles s) := by
  delta portRelease
  split
  · exact hs
  · refine kept_ite ?_ ?_
    · exact hs
    · extract_lets -merge -useContext +implicits c_0 tx_1 s_2 cut_3 k_4 k_5 rx_6 s_7 s_8
      try clear_value c_0
      have htx_1 : State.Kept Q tx_1.1 := by
        unfold tx_1
        refine kept_ite_fst ?_ ?_
        · exact txSend_kept hs
        · exact kept_fst hs
      try clear_value tx_1
      have hs_2 : State.Kept Q s_2 := by
        unfold s_2
        exact htx_1
      try clear_value s_2
      try clear_value cut_3
      try clear_value k_4
      try clear_value k_5
      try clear_value rx_6
      have hs_7 : State.Kept Q s_7 := by
        unfold s_7
        refine kept_ite ?_ ?_
        · exact rxStore_kept hs_2
        · exact hs_2
      try clear_value s_7
      have hs_8 : State.Kept Q s_8 := by
        unfold s_8
        refine kept_ite ?_ ?_
        · exact portRaise_kept hs_7
        · refine kept_ite ?_ ?_
          · exact portRaise_kept hs_7
          · exact hs_7
      try clear_value s_8
      exact portUnitEnd_kept hs_8

theorem portIdle_kept {Q} {n} {bits} {cycles} {s : State} (hs : State.Kept Q s) :
    State.Kept Q (portIdle n bits cycles s) := by
  delta portIdle
  split
  · exact hs
  · extract_lets -merge -useContext +implicits tmo_0 tx_1 s_2 k_3 rx_4 s_5 s_6 s_7
    try clear_value tmo_0
    have htx_1 : State.Kept Q tx_1.1 := by
      unfold tx_1
      refine kept_ite_fst ?_ ?_
      · exact txSend_kept hs
      · exact kept_fst hs
    try clear_value tx_1
    have hs_2 : State.Kept Q s_2 := by
      unfold s_2
      exact htx_1
    try clear_value s_2
    try clear_value k_3
    try clear_value rx_4
    have hs_5 : State.Kept Q s_5 := by
      unfold s_5
      refine kept_ite ?_ ?_
      · exact rxStore_kept hs_2
      · exact hs_2
    try clear_value s_5
    have hs_6 : State.Kept Q s_6 := by
      unfold s_6
      refine kept_ite ?_ ?_
      · exact portRaise_kept hs_5
      · exact hs_5
    try clear_value s_6
    have hs_7 : State.Kept Q s_7 := by
      unfold s_7
      exact State.setFld_kept (portRaise_kept hs_6)
    try clear_value s_7
    refine kept_ite ?_ ?_
    · exact hs
    · exact portUnitEnd_kept hs_7

theorem portDone_kept {Q} {n} {s : State} (hs : State.Kept Q s) :
    State.Kept Q (portDone n s) := by
  delta portDone
  extract_lets -merge -useContext +implicits x_0
  try clear_value x_0
  split
  · exact hs
  · refine kept_ite ?_ ?_
    · exact hs
    · extract_lets -merge -useContext +implicits s_1
      have hs_1 : State.Kept Q s_1 := by
        unfold s_1
        exact State.setFld_kept (portRaise_kept (State.setPort_kept hs))
      try clear_value s_1
      exact portLatch_kept hs_1

theorem portDry_kept {Q} {n} {s : State} (hs : State.Kept Q s) :
    State.Kept Q (portDry n s) := by
  delta portDry
  split
  · refine kept_ite ?_ ?_
    · exact State.setPort_kept hs
    · exact hs
  · exact hs

theorem portTxAdd_kept {Q} {n} {k} {s : State} (hs : State.Kept Q s) :
    State.Kept Q (portTxAdd n k s) := by
  delta portTxAdd
  extract_lets -merge -useContext +implicits s_0
  have hs_0 : State.Kept Q s_0 := by
    unfold s_0
    exact portDry_kept hs
  try clear_value s_0
  exact State.setFld_kept hs_0

theorem portAbort_kept {Q} {n} {s : State} (hs : State.Kept Q s) :
    State.Kept Q (portAbort n s) := by
  delta portAbort
  extract_lets -merge -useContext +implicits x_0
  try clear_value x_0
  refine kept_ite ?_ ?_
  · exact hs
  · split
    · exact State.setPort_kept hs
    · exact portLatch_kept (portRaise_kept (portState_kept (State.setPort_kept hs)))

theorem peAbort_kept {Q} {q} {s : State} (hs : State.Kept Q s) :
    State.Kept Q (peAbort q s) := by
  delta peAbort
  exact portAbort_kept hs

theorem peTake_kept {Q} {n} {s : State} (hs : State.Kept Q s) :
    State.Kept Q (peTake n s) := by
  delta peTake
  refine kept_ite ?_ ?_
  · exact hs
  · refine forAll_kept ?_ ?_
    · intro x0 x1 hx1
      try beta_reduce
      extract_lets -merge -useContext +implicits c_2
      try clear_value c_2
      exact State.setChan_kept hx1
    · exact hs

theorem portCtrlWrite_kept {Q} {n} {w} {s : State} (hs : State.Kept Q s) :
    State.Kept Q (portCtrlWrite n w s) := by
  delta portCtrlWrite
  extract_lets -merge -useContext +implicits old_0 s_1 s_2
  try clear_value old_0
  have hs_1 : State.Kept Q s_1 := by
    unfold s_1
    refine kept_ite ?_ ?_
    · exact portAbort_kept hs
    · exact hs
  try clear_value s_1
  have hs_2 : State.Kept Q s_2 := by
    unfold s_2
    exact State.setReg_kept hs_1
  try clear_value s_2
  refine kept_ite ?_ ?_
  · refine kept_ite ?_ ?_
    · exact peGiveBack_kept hs_2
    · exact hs_2
  · refine kept_ite ?_ ?_
    · exact hs_2
    · exact peTake_kept hs_2

theorem portReset_kept {Q} {n} {s : State} (hs : State.Kept Q s) :
    State.Kept Q (portReset n s) := by
  delta portReset
  exact State.setPort_kept hs

end Sys2Proof.Machine
end

