-- ==== Sys2Proof/Laws/KeptSequencer.lean ====
section
/-! SUPPORT. The operations of Machine/Sequencer.lean keep `State.Kept`. -/

namespace Sys2Proof.Machine

theorem seqFault_kept {Q} {q} {f} {pc} {atWelt} {s : State} (hs : State.Kept Q s) :
    State.Kept Q (seqFault q f pc atWelt s) := by
  delta seqFault
  extract_lets -merge -useContext +implicits t_0
  have ht_0 : State.Kept Q t_0 := by
    unfold t_0
    exact State.setFld_kept (State.raise_kept hs)
  try clear_value t_0
  exact kept_mk ht_0

theorem reportAtWelt_kept {Q} {src} {addr} {s : State} (hs : State.Kept Q s) :
    State.Kept Q (reportAtWelt src addr s) := by
  delta reportAtWelt
  exact kept_mk hs

theorem setTxnState_kept {Q} {u} {st} {owner} {s : State} (hs : State.Kept Q s) :
    State.Kept Q (setTxnState u st owner s) := by
  delta setTxnState
  exact State.setReg_kept hs

theorem setTxnQueue_kept {Q} {u} {l} {s : State} (hs : State.Kept Q s) :
    State.Kept Q (setTxnQueue u l s) := by
  delta setTxnQueue
  exact State.setReg_kept (State.setTxn_kept hs)

theorem txnAbort_kept {Q} {u} {s : State} (hs : State.Kept Q s) :
    State.Kept Q (txnAbort u s) := by
  delta txnAbort
  refine kept_ite ?_ ?_
  · exact State.raiseMask_kept (setTxnState_kept (setTxnQueue_kept hs))
  · exact hs

theorem txnStallEnd_kept {Q} {q} {t} {s : State} (hs : State.Kept Q s) :
    State.Kept Q (txnStallEnd q t s) := by
  delta txnStallEnd
  extract_lets -merge -useContext +implicits x_0
  try clear_value x_0
  refine kept_ite ?_ ?_
  · exact State.setTxn_kept hs
  · exact hs

theorem showStack_kept {Q} {q} {s : State} (hs : State.Kept Q s) :
    State.Kept Q (showStack q s) := by
  delta showStack
  extract_lets -merge -useContext +implicits x_0 c_1
  try clear_value x_0
  try clear_value c_1
  exact State.setReg_kept (State.setReg_kept (State.setReg_kept hs))

theorem fetchWord_kept {Q} {q} {a} {stall} {s : State} (hs : State.Kept Q s) : State.Kept Q (fetchWord q a stall s).1 := by
  unfold fetchWord
  generalize checkMicro (s.csWord q a) = r
  split
  · exact kept_fst (seqFault_kept hs)
  · exact kept_fst hs
  · exact kept_fst (State.report_kept (State.raise_kept (State.setCsWord_kept hs)))

theorem selectSucc_kept {Q} {q} {pc} {a} {stall} {cands} {s : State} (hs : State.Kept Q s) :
    State.Kept Q (selectSucc q pc a stall cands s).1 := by
  unfold selectSucc
  refine kept_ite_fst (kept_fst (seqFault_kept hs)) ?_
  have hf : State.Kept Q (fetchWord q a stall s).1 := fetchWord_kept hs
  split
  · rename_i t ht
    rw [ht] at hf
    exact hf
  · rename_i t w ht
    rw [ht] at hf
    replace hf : State.Kept Q t := hf
    extract_lets -merge -useContext +onlyGivenNames null cand d dOk
    refine kept_ite_fst (kept_fst (seqFault_kept hf)) ?_
    extract_lets -merge -useContext grp snap tsBad src u x v
    have hu : State.Kept Q u := by
      unfold u
      clear_value tsBad
      split
      · extract_lets -merge -useContext code v
        have hv : State.Kept Q v := kept_ite hf (State.setQ_kept (State.setReg_kept hf))
        exact reportAtWelt_kept (State.raise_kept hv)
      · exact hf
    have hx : State.Kept Q x := State.setFld_kept (State.setFld_kept hu)
    have hv : State.Kept Q v := kept_ite hu (reportAtWelt_kept (State.raise_kept hx))
    exact kept_fst hv

theorem dropUnchosen_kept {Q} {q} {u} {s : State} (hs : State.Kept Q s) :
    State.Kept Q (dropUnchosen q u s) := by
  delta dropUnchosen
  exact discardOthers_kept hs

theorem putSucc_kept {Q} {q} {r} (hr : State.Kept Q r.1) :
    State.Kept Q (putSucc q r) := by
  delta putSucc
  extract_lets -merge -useContext +implicits s_0 x_1 s_2
  have hs_0 : State.Kept Q s_0 := by
    unfold s_0
    exact dropUnchosen_kept hr
  try clear_value s_0
  try clear_value x_1
  have hs_2 : State.Kept Q s_2 := by
    unfold s_2
    exact State.setQ_kept hs_0
  try clear_value s_2
  split
  · exact setDefer_kept hs_2
  · exact hs_2

theorem decideBody_kept {Q} {q} {b} {s : State} (hs : State.Kept Q s) :
    State.Kept Q (decideBody q b s) := by
  delta decideBody
  extract_lets -merge -useContext +implicits w_0 x_1 s_2 taken_3 s_4 r_5 s_6
  try clear_value w_0
  try clear_value x_1
  have hs_2 : State.Kept Q s_2 := by
    unfold s_2
    refine kept_ite ?_ ?_
    · exact State.addSat_kept hs
    · exact hs
  try clear_value s_2
  try clear_value taken_3
  have hs_4 : State.Kept Q s_4 := by
    unfold s_4
    refine kept_ite ?_ ?_
    · exact writeLatch_kept hs
    · exact hs
  try clear_value s_4
  try clear_value r_5
  have hs_6 : State.Kept Q s_6 := by
    unfold s_6
    exact showStack_kept (State.setQ_kept hs_4)
  try clear_value s_6
  split
  · extract_lets -merge -useContext +implicits r_7 s_8
    try clear_value r_7
    have hs_8 : State.Kept Q s_8 := by
      unfold s_8
      exact showStack_kept (setDefer_kept (State.setQ_kept hs_2))
    try clear_value s_8
    split
    · exact putSucc_kept (selectSucc_kept hs_8)
    · exact putSucc_kept (kept_fst (seqFault_kept hs_8))
  · split
    · exact putSucc_kept (selectSucc_kept hs_6)
    · exact putSucc_kept (kept_fst (seqFault_kept hs_6))

theorem decideHalt_kept {Q} {q} {b} {s : State} (hs : State.Kept Q s) :
    State.Kept Q (decideHalt q b s) := by
  delta decideHalt
  extract_lets -merge -useContext +implicits s_0 _1
  have hs_0 : State.Kept Q s_0 := by
    unfold s_0
    refine kept_ite ?_ ?_
    · exact State.raise_kept (setDefer_kept hs)
    · exact hs
  try clear_value s_0
  try clear_value _1
  exact State.setQ_kept hs_0

theorem elasticSelect_kept {Q} {q} {w} {pc} {stall} {timeout} {cands} {s : State} (hs : State.Kept Q s) :
    State.Kept Q (elasticSelect q w pc stall timeout cands s).1 := by
  unfold elasticSelect
  split
  · exact selectSucc_kept (setDefer_kept hs)
  · exact selectSucc_kept hs

theorem issueCandidates_kept {Q} {q} {gen} {t} {w} {pc} {s : State} (hs : State.Kept Q s) :
    State.Kept Q (issueCandidates q gen t w pc s).1 := by
  unfold issueCandidates
  refine foldl_kept_fst ?_ ?_
  · intro x0 hx0 x1
    try beta_reduce
    split
    · exact hx0
    · extract_lets -merge -useContext +implicits cw_2 n_3 s_4
      try clear_value cw_2
      try clear_value n_3
      have hs_4 : State.Kept Q s_4 := by
        unfold s_4
        refine kept_ite ?_ ?_
        · exact addJob_kept hx0
        · exact hx0
      try clear_value s_4
      exact kept_fst hs_4
  · exact kept_fst hs

theorem issueRemainder_kept {Q} {q} {t} {b} {s : State} (hs : State.Kept Q s) :
    State.Kept Q (issueRemainder q t b s) := by
  delta issueRemainder
  refine kept_ite ?_ ?_
  · extract_lets -merge -useContext +implicits h_0 first_1 total_2
    try clear_value h_0
    try clear_value first_1
    try clear_value total_2
    refine kept_ite ?_ ?_
    · exact addJob_kept hs
    · exact hs
  · exact hs

theorem shiftJobs_kept {Q} {q} {d} {but} {s : State} (hs : State.Kept Q s) :
    State.Kept Q (shiftJobs q d but s) := by
  delta shiftJobs
  exact State.setM_kept hs

theorem startBody_kept {Q} {q} {t} {u} {s : State} (hs : State.Kept Q s) :
    State.Kept Q (startBody q t u s) := by
  delta startBody
  extract_lets -merge -useContext +implicits x_0 no_1 s_2 s_3 s_4 s_5 s_6 null_7 op_8 group_9 b_10 c_11 b_12 _13 s_14 s_15 s_16 s_19 s_20 s_21
  try clear_value x_0
  try clear_value no_1
  have hs_2 : State.Kept Q s_2 := by
    unfold s_2
    exact txnStallEnd_kept (discardOthers_kept hs)
  try clear_value s_2
  have hs_3 : State.Kept Q s_3 := by
    unfold s_3
    exact markStart_kept (unparkPins_kept hs_2)
  try clear_value s_3
  have hs_4 : State.Kept Q s_4 := by
    unfold s_4
    refine kept_ite ?_ ?_
    · exact hs_3
    · exact State.setSsn_kept hs_3
  try clear_value s_4
  have hs_5 : State.Kept Q s_5 := by
    unfold s_5
    exact State.setFld_kept (State.setFld_kept hs_4)
  try clear_value s_5
  have hs_6 : State.Kept Q s_6 := by
    unfold s_6
    refine kept_ite ?_ ?_
    · exact hs_5
    · exact State.setQstate_kept hs_5
  try clear_value s_6
  try clear_value null_7
  try clear_value op_8
  try clear_value group_9
  try clear_value b_10
  have hc_11 : State.Kept Q c_11.1 := by
    unfold c_11
    exact issueCandidates_kept hs_6
  try clear_value c_11
  try clear_value b_12
  try clear_value _13
  have hs_14 : State.Kept Q s_14 := by
    unfold s_14
    exact State.setQ_kept hc_11
  try clear_value s_14
  have hs_15 : State.Kept Q s_15 := by
    unfold s_15
    exact issueRemainder_kept hs_14
  try clear_value s_15
  have hs_16 : State.Kept Q s_16 := by
    unfold s_16
    refine forAll_kept ?_ ?_
    · intro x17 x18 hx18
      try beta_reduce
      exact tempTerm_kept hx18
    · exact hs_15
  try clear_value s_16
  have hs_19 : State.Kept Q s_19 := by
    unfold s_19
    exact peConflict_kept hs_16
  try clear_value s_19
  have hs_20 : State.Kept Q s_20 := by
    unfold s_20
    exact startStages_kept hs_19
  try clear_value s_20
  have hs_21 : State.Kept Q s_21 := by
    unfold s_21
    exact pmuMarkTrigger_kept hs_20
  try clear_value s_21
  refine kept_ite ?_ ?_
  · exact State.raise_kept hs_21
  · exact hs_21

theorem summaries_kept {Q} {q} {b} {goff} {t} {aborted} {s : State} (hs : State.Kept Q s) :
    State.Kept Q (summaries q b goff t aborted s) := by
  delta summaries
  extract_lets -merge -useContext +implicits level_0
  try clear_value level_0
  refine forAll_kept ?_ ?_
  · intro x1 x2 hx2
    try beta_reduce
    extract_lets -merge -useContext +implicits u_3 keep_4
    try clear_value u_3
    try clear_value keep_4
    refine kept_ite ?_ ?_
    · exact pushRecord_kept hx2
    · exact hx2
  · exact hs

theorem boundaryEnd_kept {Q} {q} {t} {bins} {s : State} (hbins : ∀ y0, State.Kept Q y0 →  State.Kept Q (bins y0)) (hs : State.Kept Q s) :
    State.Kept Q (boundaryEnd q t bins s) := by
  delta boundaryEnd
  extract_lets -merge -useContext +implicits parked_0 s_1 s_2 _3 s_4
  try clear_value parked_0
  have hs_1 : State.Kept Q s_1 := by
    unfold s_1
    refine kept_ite ?_ ?_
    · exact pushWaiting_kept hs
    · exact hbins _ (pushPendingLoss_kept (pushWaiting_kept hs))
  try clear_value s_1
  have hs_2 : State.Kept Q s_2 := by
    unfold s_2
    refine kept_ite ?_ ?_
    · exact State.count_kept hs_1
    · exact hs_1
  try clear_value s_2
  try clear_value _3
  have hs_4 : State.Kept Q s_4 := by
    unfold s_4
    exact State.setR_kept hs_2
  try clear_value s_4
  refine kept_ite ?_ ?_
  · exact hs_1
  · refine kept_ite ?_ ?_
    · exact hs_4
    · exact ladderEval_kept hs_4

theorem abortUnits_kept {Q} {q} {s : State} (hs : State.Kept Q s) :
    State.Kept Q (abortUnits q s) := by
  delta abortUnits
  extract_lets -merge -useContext +implicits s_0
  have hs_0 : State.Kept Q s_0 := by
    unfold s_0
    refine forAll_kept ?_ ?_
    · intro x1 x2 hx2
      try beta_reduce
      exact pmuAbort_kept hx2
    · exact hs
  try clear_value s_0
  exact calSlotAbort_kept (peAbort_kept (tdcAbortQuarter_kept hs_0))

theorem dropPending_kept {Q} {q} {s : State} (hs : State.Kept Q s) :
    State.Kept Q (dropPending q s) := by
  delta dropPending
  refine kept_ite ?_ ?_
  · exact State.raise_kept (kept_mk hs)
  · exact hs

theorem parkAt_kept {Q} {q} {t} {goff} {aborted} {s : State} (hs : State.Kept Q s) :
    State.Kept Q (parkAt q t goff aborted s) := by
  delta parkAt
  extract_lets -merge -useContext +implicits s_0 s_1 s_3 _4 s_5 s_6
  have hs_0 : State.Kept Q s_0 := by
    unfold s_0
    exact abortUnits_kept hs
  try clear_value s_0
  have hs_1 : State.Kept Q s_1 := by
    unfold s_1
    refine boundaryEnd_kept ?_ ?_
    · intro x2 hx2
      exact binSites_kept hx2
    · exact hs_0
  try clear_value s_1
  have hs_3 : State.Kept Q s_3 := by
    unfold s_3
    exact parkPins_kept (markStop_kept (setDefer_kept hs_1))
  try clear_value s_3
  try clear_value _4
  have hs_5 : State.Kept Q s_5 := by
    unfold s_5
    exact State.setQ_kept hs_3
  try clear_value s_5
  have hs_6 : State.Kept Q s_6 := by
    unfold s_6
    exact txnAbort_kept (flushStream_kept hs_5)
  try clear_value s_6
  exact State.setQstate_kept hs_6

theorem parkNow_kept {Q} {q} {s : State} (hs : State.Kept Q s) :
    State.Kept Q (parkNow q s) := by
  delta parkNow
  extract_lets -merge -useContext +implicits t_0 s_1
  try clear_value t_0
  have hs_1 : State.Kept Q s_1 := by
    unfold s_1
    exact abortUnits_kept hs
  try clear_value s_1
  split
  · exact parkAt_kept (summaries_kept (pushWaiting_kept (abortWaiting_kept hs_1)))
  · exact parkAt_kept hs_1

theorem parkQuarter_kept {Q} {q} {s : State} (hs : State.Kept Q s) :
    State.Kept Q (parkQuarter q s) := by
  delta parkQuarter
  extract_lets -merge -useContext +implicits s_0 x_1
  have hs_0 : State.Kept Q s_0 := by
    unfold s_0
    exact dropPending_kept hs
  try clear_value s_0
  try clear_value x_1
  refine kept_ite ?_ ?_
  · exact hs_0
  · refine kept_ite ?_ ?_
    · exact State.setQ_kept hs_0
    · exact parkNow_kept hs_0

theorem parkMoment_kept {Q} {q} {s : State} (hs : State.Kept Q s) :
    State.Kept Q (parkMoment q s) := by
  delta parkMoment
  split
  · refine kept_ite ?_ ?_
    · exact parkNow_kept hs
    · exact hs
  · exact hs

theorem haltQuarter_kept {Q} {q} {t} {m} {goff} {aborted} {s : State} (hs : State.Kept Q s) :
    State.Kept Q (haltQuarter q t m goff aborted s) := by
  delta haltQuarter
  extract_lets -merge -useContext +implicits s_0 s_2 _3 s_4
  have hs_0 : State.Kept Q s_0 := by
    unfold s_0
    refine txnStallEnd_kept ?_
    refine boundaryEnd_kept ?_ ?_
    · intro x1 hx1
      exact binSites_kept hx1
    · exact hs
  try clear_value s_0
  have hs_2 : State.Kept Q s_2 := by
    unfold s_2
    exact parkPins_kept (markStop_kept (setDefer_kept hs_0))
  try clear_value s_2
  try clear_value _3
  have hs_4 : State.Kept Q s_4 := by
    unfold s_4
    exact State.setQ_kept hs_2
  try clear_value s_4
  exact State.setQstate_kept (discardOthers_kept hs_4)

theorem enterStall_kept {Q} {q} {st} {x} {s : State} (hs : State.Kept Q s) :
    State.Kept Q (enterStall q st x s) := by
  delta enterStall
  extract_lets -merge -useContext +implicits s_0 _1
  have hs_0 : State.Kept Q s_0 := by
    unfold s_0
    exact markStop_kept (stallPins_kept hs)
  try clear_value s_0
  try clear_value _1
  exact State.setQstate_kept (State.setQ_kept hs_0)

theorem enterRefillHold_kept {Q} {q} {t} {u} {clk} {smask} {s : State} (hs : State.Kept Q s) :
    State.Kept Q (enterRefillHold q t u clk smask s) := by
  delta enterRefillHold
  extract_lets -merge -useContext +implicits s_0 _1 s_2 s_3
  have hs_0 : State.Kept Q s_0 := by
    unfold s_0
    exact markStop_kept (stallPins_kept hs)
  try clear_value s_0
  try clear_value _1
  have hs_2 : State.Kept Q s_2 := by
    unfold s_2
    exact tagDisturbed_kept (State.setQ_kept hs_0)
  try clear_value s_2
  have hs_3 : State.Kept Q s_3 := by
    unfold s_3
    exact State.count_kept (State.raise_kept (State.setQstate_kept hs_2))
  try clear_value s_3
  refine kept_ite ?_ ?_
  · exact laceRequest_kept hs_3
  · exact hs_3

theorem enterSucc_kept {Q} {q} {t} {goff} {u} {clk} {smask} {s : State} (hs : State.Kept Q s) :
    State.Kept Q (enterSucc q t goff u clk smask s) := by
  delta enterSucc
  split
  · exact parkAt_kept hs
  · refine kept_ite ?_ ?_
    · extract_lets -merge -useContext +implicits s_0
      have hs_0 : State.Kept Q s_0 := by
        unfold s_0
        exact parkAt_kept hs
      try clear_value s_0
      refine kept_ite ?_ ?_
      · refine forAll_kept ?_ ?_
        · intro x1 x2 hx2
          try beta_reduce
          exact forceChan_kept hx2
        · exact hs_0
      · exact hs_0
    · refine kept_ite ?_ ?_
      · exact enterRefillHold_kept hs
      · exact startBody_kept hs

theorem clearLatches_kept {Q} {q} {s : State} (hs : State.Kept Q s) :
    State.Kept Q (clearLatches q s) := by
  delta clearLatches
  exact showFlags_kept (State.setQ_kept hs)

theorem armStart_kept {Q} {q} {s : State} (hs : State.Kept Q s) :
    State.Kept Q (armStart q s) := by
  delta armStart
  extract_lets -merge -useContext +implicits a_0 mode_1 s_2 _3 s_4 s_5 keep_6 s_7 _8 s_9 _10 s_11 s_12 s_13 s_14 r_15 u_16 _17 s_18
  try clear_value a_0
  try clear_value mode_1
  have hs_2 : State.Kept Q s_2 := by
    unfold s_2
    exact setDefer_kept (clearLatches_kept hs)
  try clear_value s_2
  try clear_value _3
  have hs_4 : State.Kept Q s_4 := by
    unfold s_4
    exact State.setQ_kept hs_2
  try clear_value s_4
  have hs_5 : State.Kept Q s_5 := by
    unfold s_5
    exact State.setFld_kept (showStack_kept hs_4)
  try clear_value s_5
  try clear_value keep_6
  have hs_7 : State.Kept Q s_7 := by
    unfold s_7
    refine kept_ite ?_ ?_
    · exact hs_5
    · exact State.setSsn_kept hs_5
  try clear_value s_7
  try clear_value _8
  have hs_9 : State.Kept Q s_9 := by
    unfold s_9
    exact State.setQ_kept hs_7
  try clear_value s_9
  try clear_value _10
  have hs_11 : State.Kept Q s_11 := by
    unfold s_11
    exact State.setM_kept hs_9
  try clear_value s_11
  have hs_12 : State.Kept Q s_12 := by
    unfold s_12
    exact State.setReg_kept (State.setReg_kept (State.setReg_kept hs_11))
  try clear_value s_12
  have hs_13 : State.Kept Q s_13 := by
    unfold s_13
    exact ledgerStart_kept (resultsStart_kept hs_12)
  try clear_value s_13
  have hs_14 : State.Kept Q s_14 := by
    unfold s_14
    refine kept_ite ?_ ?_
    · exact State.raise_kept (State.setFld_kept hs_13)
    · exact hs_13
  try clear_value s_14
  have hr_15 : State.Kept Q r_15.1 := by
    unfold r_15
    exact selectSucc_kept hs_14
  try clear_value r_15
  try clear_value u_16
  try clear_value _17
  have hs_18 : State.Kept Q s_18 := by
    unfold s_18
    exact State.setQ_kept hr_15
  try clear_value s_18
  refine kept_ite ?_ ?_
  · refine kept_ite ?_ ?_
    · exact State.setQstate_kept hs_18
    · exact hs_18
  · exact State.setQstate_kept hs_18

theorem qStart_kept {Q} {q} {checked} {s : State} (hs : State.Kept Q s) :
    State.Kept Q (qStart q checked s) := by
  delta qStart
  extract_lets -merge -useContext +implicits s_0
  have hs_0 : State.Kept Q s_0 := by
    unfold s_0
    refine kept_ite ?_ ?_
    · exact State.raise_kept hs
    · exact hs
  try clear_value s_0
  refine kept_ite ?_ ?_
  · exact armStart_kept hs
  · exact State.raise_kept hs_0

theorem qStartWrite_kept {Q} {q} {s : State} (hs : State.Kept Q s) :
    State.Kept Q (qStartWrite q s) := by
  delta qStartWrite
  extract_lets -merge -useContext +implicits c_0 s_1 _2
  have hc_0 : State.Kept Q c_0.1 := by
    unfold c_0
    exact loadChecks_kept hs
  try clear_value c_0
  have hs_1 : State.Kept Q s_1 := by
    unfold s_1
    exact hc_0
  try clear_value s_1
  try clear_value _2
  refine kept_ite ?_ ?_
  · exact qStart_kept hs_1
  · refine kept_ite ?_ ?_
    · exact State.raise_kept hs_1
    · exact kept_mk hs_1

theorem qStop_kept {Q} {q} {s : State} (hs : State.Kept Q s) :
    State.Kept Q (qStop q s) := by
  delta qStop
  extract_lets -merge -useContext +implicits s_0 x_1 goff_2 s_3
  have hs_0 : State.Kept Q s_0 := by
    unfold s_0
    exact dropPending_kept hs
  try clear_value s_0
  try clear_value x_1
  try clear_value goff_2
  have hs_3 : State.Kept Q s_3 := by
    unfold s_3
    split
    · exact summaries_kept (pushWaiting_kept hs_0)
    · exact hs_0
  try clear_value s_3
  split
  · exact setDefer_kept (State.setQ_kept hs_0)
  · exact abortUnits_kept (haltQuarter_kept hs_3)
  · exact State.setQstate_kept (State.setQ_kept hs_0)
  · refine kept_ite ?_ ?_
    · exact haltQuarter_kept hs_0
    · refine kept_ite ?_ ?_
      · exact State.setQstate_kept (State.setQ_kept hs_0)
      · exact hs_0

theorem qRelease_kept {Q} {q} {s : State} (hs : State.Kept Q s) :
    State.Kept Q (qRelease q s) := by
  delta qRelease
  extract_lets -merge -useContext +implicits x_0
  try clear_value x_0
  refine kept_ite ?_ ?_
  · exact State.setQ_kept hs
  · exact hs

theorem qCntClr_kept {Q} {q} {s : State} (hs : State.Kept Q s) :
    State.Kept Q (qCntClr q s) := by
  delta qCntClr
  exact State.setReg_kept (State.setReg_kept hs)

theorem qDisable_kept {Q} {q} {s : State} (hs : State.Kept Q s) :
    State.Kept Q (qDisable q s) := by
  delta qDisable
  refine parkQuarter_kept ?_
  refine kept_ite ?_ ?_
  · exact hs
  · exact txnAbort_kept hs

theorem qCtrl_kept {Q} {q} {n} {s : State} (hs : State.Kept Q s) :
    State.Kept Q (qCtrl q n s) := by
  delta qCtrl
  extract_lets -merge -useContext +implicits s_0 s_1 s_2 s_3 s_4
  have hs_0 : State.Kept Q s_0 := by
    unfold s_0
    refine kept_ite ?_ ?_
    · exact clearLatches_kept hs
    · exact hs
  try clear_value s_0
  have hs_1 : State.Kept Q s_1 := by
    unfold s_1
    refine kept_ite ?_ ?_
    · exact qCntClr_kept hs_0
    · exact hs_0
  try clear_value s_1
  have hs_2 : State.Kept Q s_2 := by
    unfold s_2
    refine kept_ite ?_ ?_
    · exact qRelease_kept hs_1
    · exact hs_1
  try clear_value s_2
  have hs_3 : State.Kept Q s_3 := by
    unfold s_3
    refine kept_ite ?_ ?_
    · exact qStartWrite_kept hs_2
    · exact hs_2
  try clear_value s_3
  have hs_4 : State.Kept Q s_4 := by
    unfold s_4
    refine kept_ite ?_ ?_
    · exact qStop_kept hs_3
    · exact hs_3
  try clear_value s_4
  refine kept_ite ?_ ?_
  · exact qDisable_kept hs_4
  · exact hs_4

theorem startMoment_kept {Q} {q} {s : State} (hs : State.Kept Q s) :
    State.Kept Q (startMoment q s) := by
  delta startMoment
  extract_lets -merge -useContext +implicits x_0
  try clear_value x_0
  split
  · exact hs
  · refine kept_ite ?_ ?_
    · exact hs
    · extract_lets -merge -useContext +implicits s_1 r_2
      have hs_1 : State.Kept Q s_1 := by
        unfold s_1
        exact State.setQ_kept hs
      try clear_value s_1
      try clear_value r_2
      exact enterSucc_kept (pushRecord_kept (pushPendingLoss_kept (pushWaiting_kept hs_1)))

theorem noteMark_kept {Q} {q} {num} {eff} {s : State} (hs : State.Kept Q s) :
    State.Kept Q (noteMark q num eff s) := by
  delta noteMark
  extract_lets -merge -useContext +implicits x_0 x_1 f_2
  try clear_value x_0
  try clear_value x_1
  try clear_value f_2
  exact State.setQ_kept hs

theorem laceHoldQuarter_kept {Q} {q} {t} {s : State} (hs : State.Kept Q s) :
    State.Kept Q (laceHoldQuarter q t s) := by
  delta laceHoldQuarter
  extract_lets -merge -useContext +implicits x_0 st_1 s_2
  try clear_value x_0
  try clear_value st_1
  have hs_2 : State.Kept Q s_2 := by
    unfold s_2
    split
    · exact tagDisturbed_kept hs
    · exact hs
  try clear_value s_2
  refine kept_ite ?_ ?_
  · exact State.raise_kept hs
  · refine kept_ite ?_ ?_
    · exact State.setQ_kept hs_2
    · exact hs

theorem holdMoment_kept {Q} {q} {s : State} (hs : State.Kept Q s) :
    State.Kept Q (holdMoment q s) := by
  delta holdMoment
  refine kept_ite ?_ ?_
  · extract_lets -merge -useContext +implicits clk_0
    try clear_value clk_0
    exact State.setQstate_kept (markStop_kept (stallPins_kept hs))
  · exact hs

theorem laceResumeQuarter_kept {Q} {q} {t} {s : State} (hs : State.Kept Q s) :
    State.Kept Q (laceResumeQuarter q t s) := by
  delta laceResumeQuarter
  extract_lets -merge -useContext +implicits x_0
  try clear_value x_0
  split
  · exact hs
  · extract_lets -merge -useContext +implicits s_1 s_2
    have hs_1 : State.Kept Q s_1 := by
      unfold s_1
      exact State.setQ_kept hs
    try clear_value s_1
    have hs_2 : State.Kept Q s_2 := by
      unfold s_2
      exact shiftJobs_kept hs_1
    try clear_value s_2
    refine kept_ite ?_ ?_
    · exact markStart_kept (unparkPins_kept (State.setFld_kept (txnStallEnd_kept hs_2)))
    · exact hs_2
  · exact State.setQ_kept hs

end Sys2Proof.Machine
end

