-- ==== Sys2Proof/Laws/KeptGranule.lean ====
section
/-! SUPPORT. The operations of Machine/Granule.lean keep `State.Kept`. -/

namespace Sys2Proof.Machine

theorem captureErr_kept {Q} {u} {s : State} (hs : State.Kept Q s) :
    State.Kept Q (captureErr u s) := by
  delta captureErr
  refine kept_ite ?_ ?_
  · exact hs
  · extract_lets -merge -useContext +implicits _0
    have h_0 : State.Kept Q _0 := by
      unfold _0
      exact State.setFld_kept (State.setFld_kept (State.setFld_kept hs))
    try clear_value _0
    exact kept_mk h_0

theorem corrected_kept {Q} {u} {s : State} (hs : State.Kept Q s) :
    State.Kept Q (corrected u s) := by
  delta corrected
  extract_lets -merge -useContext +implicits s_0
  have hs_0 : State.Kept Q s_0 := by
    unfold s_0
    exact captureErr_kept hs
  try clear_value s_0
  refine kept_ite ?_ ?_
  · exact State.report_kept (State.raise_kept (State.count_kept hs_0))
  · exact State.report_kept (State.raise_kept (State.count_kept hs_0))

theorem uncorrected_kept {Q} {u} {s : State} (hs : State.Kept Q s) :
    State.Kept Q (uncorrected u s) := by
  delta uncorrected
  extract_lets -merge -useContext +implicits s_0
  have hs_0 : State.Kept Q s_0 := by
    unfold s_0
    exact captureErr_kept hs
  try clear_value s_0
  refine kept_ite ?_ ?_
  · exact State.raise_kept (State.count_kept hs_0)
  · exact State.raise_kept (State.count_kept hs_0)

theorem readOutcome_kept {Q} {ecc} {u} {s : State} (hs : State.Kept Q s) :
    State.Kept Q (readOutcome ecc u s) := by
  delta readOutcome
  refine kept_ite ?_ ?_
  · exact corrected_kept hs
  · refine kept_ite ?_ ?_
    · exact uncorrected_kept hs
    · exact hs

theorem unitArrives_kept {Q} {q} {ecc} {s : State} (hs : State.Kept Q s) :
    State.Kept Q (unitArrives q ecc s) := by
  delta unitArrives
  extract_lets -merge -useContext +implicits x_0
  try clear_value x_0
  split
  · exact hs
  · extract_lets -merge -useContext +implicits s_1 s_2 s_3
    have hs_1 : State.Kept Q s_1 := by
      unfold s_1
      exact readOutcome_kept hs
    try clear_value s_1
    have hs_2 : State.Kept Q s_2 := by
      unfold s_2
      exact State.setM_kept hs_1
    try clear_value s_2
    have hs_3 : State.Kept Q s_3 := by
      unfold s_3
      exact State.setM_kept hs_1
    try clear_value s_3
    refine kept_ite ?_ ?_
    · refine kept_ite ?_ ?_
      · exact State.report_kept hs_2
      · exact hs_2
    · split
      · exact checkTail_kept hs_3
      · exact hs_3

theorem scrubStack_kept {Q} {b} {ecc} {s : State} (hs : State.Kept Q s) :
    State.Kept Q (scrubStack b ecc s) := by
  delta scrubStack
  extract_lets -merge -useContext +implicits units_0 pos_1 u_2 s_3 s_4 next_5
  try clear_value units_0
  try clear_value pos_1
  try clear_value u_2
  have hs_3 : State.Kept Q s_3 := by
    unfold s_3
    exact readOutcome_kept (State.count_kept hs)
  try clear_value s_3
  have hs_4 : State.Kept Q s_4 := by
    unfold s_4
    refine kept_ite ?_ ?_
    · exact State.report_kept hs_3
    · exact hs_3
  try clear_value s_4
  try clear_value next_5
  refine kept_ite ?_ ?_
  · exact hs
  · refine kept_ite ?_ ?_
    · exact kept_mk hs_4
    · exact kept_mk hs_4

theorem buildHead_kept {Q} {q} {ecc} {e} {s : State} (hs : State.Kept Q s) :
    State.Kept Q (buildHead q ecc e s) := by
  delta buildHead
  extract_lets -merge -useContext +implicits d_0 grp_1 snap_2 n_3 h_4 exp_5 bytes_6 used_7 all_8 k_9 found_10 units_11 inA_12 s_13 _16 _17
  try clear_value d_0
  try clear_value grp_1
  try clear_value snap_2
  try clear_value n_3
  try clear_value h_4
  try clear_value exp_5
  try clear_value bytes_6
  try clear_value used_7
  try clear_value all_8
  try clear_value k_9
  try clear_value found_10
  try clear_value units_11
  try clear_value inA_12
  have hs_13 : State.Kept Q s_13 := by
    unfold s_13
    refine foldl_kept ?_ ?_
    · intro x14 hx14 x15
      try beta_reduce
      exact readOutcome_kept hx14
    · exact State.count_kept (State.count_kept hs)
  try clear_value s_13
  try clear_value _16
  have h_17 : State.Kept Q _17 := by
    unfold _17
    exact State.setM_kept hs_13
  try clear_value _17
  refine kept_ite ?_ ?_
  · exact hs
  · refine kept_ite ?_ ?_
    · exact State.raise_kept hs
    · exact kept_mk h_17

theorem startBuild_kept {Q} {q} {s : State} (hs : State.Kept Q s) :
    State.Kept Q (startBuild q s) := by
  delta startBuild
  refine kept_ite ?_ ?_
  · exact State.setBit_kept (State.setM_kept hs)
  · exact hs

theorem endBuild_kept {Q} {q} {ecc} {s : State} (hs : State.Kept Q s) :
    State.Kept Q (endBuild q ecc s) := by
  delta endBuild
  refine kept_ite ?_ ?_
  · extract_lets -merge -useContext +implicits segs_0 s_1 _4
    try clear_value segs_0
    have hs_1 : State.Kept Q s_1 := by
      unfold s_1
      refine foldl_kept ?_ ?_
      · intro x2 hx2 x3
        try beta_reduce
        exact buildHead_kept hx2
      · exact hs
    try clear_value s_1
    try clear_value _4
    exact State.setBit_kept (State.setM_kept hs_1)
  · exact hs

theorem settleChan_kept {Q} {c} {b} {s : State} (hs : State.Kept Q s) :
    State.Kept Q (settleChan c b s) := by
  delta settleChan
  extract_lets -merge -useContext +implicits x_0 x_1 x_2 s_3
  try clear_value x_0
  try clear_value x_1
  try clear_value x_2
  have hs_3 : State.Kept Q s_3 := by
    unfold s_3
    refine kept_ite ?_ ?_
    · exact hs
    · exact State.setChan_kept hs
  try clear_value s_3
  split
  · refine kept_ite ?_ ?_
    · exact putCorr_kept hs_3
    · exact hs_3
  · exact hs_3

theorem settleQuarter_kept {Q} {q} {b} {s : State} (hs : State.Kept Q s) :
    State.Kept Q (settleQuarter q b s) := by
  delta settleQuarter
  refine forAll_kept ?_ ?_
  · intro x0 x1 hx1
    try beta_reduce
    exact settleChan_kept hx1
  · exact hs

theorem writeCapture_kept {Q} {q} {s : State} (hs : State.Kept Q s) :
    State.Kept Q (writeCapture q s) := by
  delta writeCapture
  extract_lets -merge -useContext +implicits x_0
  try clear_value x_0
  refine foldl_kept ?_ ?_
  · intro x1 hx1 x2
    try beta_reduce
    extract_lets -merge -useContext +implicits base_3 size_4 w_5 unit_6 s_7 w_8 s_9
    try clear_value base_3
    try clear_value size_4
    try clear_value w_5
    try clear_value unit_6
    have hs_7 : State.Kept Q s_7 := by
      unfold s_7
      exact State.count_kept (State.setHbm_kept hx1)
    try clear_value s_7
    try clear_value w_8
    have hs_9 : State.Kept Q s_9 := by
      unfold s_9
      exact State.setFld_kept (State.setFld_kept hs_7)
    try clear_value s_9
    refine kept_ite ?_ ?_
    · exact State.raise_kept hs_9
    · exact hs_9
  · exact State.setR_kept hs

theorem captureBits_kept {Q} {q} {bits} {s : State} (hs : State.Kept Q s) :
    State.Kept Q (captureBits q bits s) := by
  delta captureBits
  extract_lets -merge -useContext +implicits x_0 v_1 all_2 len_3 n_4
  try clear_value x_0
  try clear_value v_1
  try clear_value all_2
  try clear_value len_3
  try clear_value n_4
  exact State.setR_kept hs

theorem channelGranule_kept {Q} {q} {b} {j} {gt} {vec} {samples} {acc} {e} (hacc : State.Kept Q acc.1) :
    State.Kept Q (channelGranule q b j gt vec samples acc e).1 := by
  unfold channelGranule
  extract_lets -merge -useContext +implicits s_0 w_1 field_2 c_3 x_4 obs_5 p_6 first_7 _8 s_9 s_10 s_11 s_14 masked_15
  have hs_0 : State.Kept Q s_0 := by
    unfold s_0
    exact hacc
  try clear_value s_0
  try clear_value w_1
  try clear_value field_2
  try clear_value c_3
  try clear_value x_4
  try clear_value obs_5
  try clear_value p_6
  try clear_value first_7
  try clear_value _8
  have hs_9 : State.Kept Q s_9 := by
    unfold s_9
    exact State.setChan_kept hs_0
  try clear_value s_9
  have hs_10 : State.Kept Q s_10 := by
    unfold s_10
    refine kept_ite ?_ ?_
    · exact State.report_kept (State.raise_kept hs_9)
    · exact hs_9
  try clear_value s_10
  have hs_11 : State.Kept Q s_11 := by
    unfold s_11
    refine kept_ite ?_ ?_
    · exact hs_10
    · refine forAll_kept ?_ ?_
      · intro x12 x13 hx13
        try beta_reduce
        exact State.report_kept hx13
      · exact State.raise_kept hs_10
  try clear_value s_11
  have hs_14 : State.Kept Q s_14 := by
    unfold s_14
    exact clipEvents_kept hs_11
  try clear_value s_14
  try clear_value masked_15
  refine kept_ite_fst ?_ ?_
  · exact kept_fst hs_0
  · exact kept_fst hs_14

theorem failRecords_kept {Q} {q} {goff} {gt} {site} {shared} {bad} {s : State} (hs : State.Kept Q s) :
    State.Kept Q (failRecords q goff gt site shared bad s) := by
  delta failRecords
  extract_lets -merge -useContext +implicits level_0 tdist_1 mk_2 l_3 s_4
  try clear_value level_0
  try clear_value tdist_1
  try clear_value mk_2
  try clear_value l_3
  have hs_4 : State.Kept Q s_4 := by
    unfold s_4
    refine foldl_kept ?_ ?_
    · intro x5 hx5 x6
      try beta_reduce
      exact addWaiting_kept hx5
    · exact hs
  try clear_value s_4
  refine kept_ite ?_ ?_
  · exact hs
  · refine kept_ite ?_ ?_
    · exact addWaiting_kept hs_4
    · exact hs_4

theorem siteGranule_kept {Q} {q} {goff} {outs} {shared} {extra} {i} {s : State} (hs : State.Kept Q s) :
    State.Kept Q (siteGranule q goff outs shared extra i s) := by
  delta siteGranule
  split
  · exact hs
  · extract_lets -merge -useContext +implicits bad_0
    try clear_value bad_0
    refine kept_ite ?_ ?_
    · exact hs
    · exact siteFail_kept hs

theorem noteSlack_kept {Q} {q} {gt} {b} {x} {x'} {s : State} (hs : State.Kept Q s) :
    State.Kept Q (noteSlack q gt b x x' s) := by
  delta noteSlack
  extract_lets -merge -useContext +implicits d_0 r_1 mine_2 usedU_3 slack_4 s_5 behind_6 _7
  try clear_value d_0
  try clear_value r_1
  try clear_value mine_2
  try clear_value usedU_3
  try clear_value slack_4
  have hs_5 : State.Kept Q s_5 := by
    unfold s_5
    exact State.setFld_kept hs
  try clear_value s_5
  try clear_value behind_6
  try clear_value _7
  refine kept_ite ?_ ?_
  · exact hs_5
  · exact State.setM_kept hs_5

theorem dataFault_kept {Q} {q} {b} {r} {s : State} (hs : State.Kept Q s) :
    State.Kept Q (dataFault q b r s) := by
  delta dataFault
  split
  · exact parkNow_kept (seqFault_kept hs)
  · extract_lets -merge -useContext +implicits _0 s_1
    try clear_value _0
    have hs_1 : State.Kept Q s_1 := by
      unfold s_1
      exact State.setM_kept hs
    try clear_value s_1
    exact parkNow_kept (State.report_kept (State.raise_kept hs_1))
  · extract_lets -merge -useContext +implicits seg_2 s_3
    try clear_value seg_2
    have hs_3 : State.Kept Q s_3 := by
      unfold s_3
      exact State.setFld_kept (State.setFld_kept hs)
    try clear_value s_3
    exact parkNow_kept (State.report_kept (State.raise_kept hs_3))
  · exact hs

theorem playVector_kept {Q} {q} {b} {j} {gt} {vec} {samples} {s : State} (hs : State.Kept Q s) :
    State.Kept Q (playVector q b j gt vec samples s) := by
  delta playVector
  extract_lets -merge -useContext +implicits r_0 outs_3 s_4 sharedBad_5 shared_6 s_7 extra_8 _9 s_10 s_11 s_14 s_17 cap_18 grp_19
  have hr_0 : State.Kept Q r_0.1 := by
    unfold r_0
    split
    · refine foldl_kept_fst ?_ ?_
      · intro x1 hx1 x2
        exact channelGranule_kept hx1
      · exact kept_fst hs
    · exact kept_fst hs
  try clear_value r_0
  try clear_value outs_3
  have hs_4 : State.Kept Q s_4 := by
    unfold s_4
    exact hr_0
  try clear_value s_4
  try clear_value sharedBad_5
  try clear_value shared_6
  have hs_7 : State.Kept Q s_7 := by
    unfold s_7
    refine kept_ite ?_ ?_
    · exact State.raise_kept hs_4
    · exact hs_4
  try clear_value s_7
  try clear_value extra_8
  try clear_value _9
  have hs_10 : State.Kept Q s_10 := by
    unfold s_10
    exact State.setR_kept hs_7
  try clear_value s_10
  have hs_11 : State.Kept Q s_11 := by
    unfold s_11
    refine forAll_kept ?_ ?_
    · intro x12 x13 hx13
      exact siteGranule_kept hx13
    · exact hs_10
  try clear_value s_11
  have hs_14 : State.Kept Q s_14 := by
    unfold s_14
    refine forAll_kept ?_ ?_
    · intro x15 x16 hx16
      try beta_reduce
      exact failRecords_kept hx16
    · exact hs_11
  try clear_value s_14
  have hs_17 : State.Kept Q s_17 := by
    unfold s_17
    exact failRecords_kept hs_14
  try clear_value s_17
  try clear_value cap_18
  try clear_value grp_19
  refine kept_ite ?_ ?_
  · exact captureBits_kept hs_17
  · exact hs_17

theorem playGranule_kept {Q} {q} {b} {samples} {s : State} (hs : State.Kept Q s) :
    State.Kept Q (playGranule q b samples s) := by
  delta playGranule
  extract_lets -merge -useContext +implicits j_0 gt_1 s_2 s_3 next_4 m_9 staged_10 _11
  try clear_value j_0
  try clear_value gt_1
  have hs_2 : State.Kept Q s_2 := by
    unfold s_2
    exact settleQuarter_kept (writeCapture_kept hs)
  try clear_value s_2
  have hs_3 : State.Kept Q s_3 := by
    unfold s_3
    exact issueUnits_kept hs_2
  try clear_value s_3
  have hnext_4 : ∀ y0, State.Kept Q y0 → ∀ y1,  State.Kept Q (next_4 y0 y1) := by
    intro x5 hx5 x6
    unfold next_4
    try beta_reduce
    extract_lets -merge -useContext +implicits _7 s_8
    try clear_value _7
    have hs_8 : State.Kept Q s_8 := by
      unfold s_8
      exact State.setQ_kept hx5
    try clear_value s_8
    exact ledgerPlay_kept (State.count_kept hs_8)
  try clear_value next_4
  try clear_value m_9
  try clear_value staged_10
  try clear_value _11
  refine kept_ite ?_ ?_
  · split
    · extract_lets -merge -useContext +implicits s_12 s_13 s_15
      have hs_12 : State.Kept Q s_12 := by
        unfold s_12
        exact State.setM_kept hs_3
      try clear_value s_12
      have hs_13 : State.Kept Q s_13 := by
        unfold s_13
        refine boundaryEnd_kept ?_ ?_
        · intro x14 hx14
          exact hx14
        · exact hs_12
      try clear_value s_13
      have hs_15 : State.Kept Q s_15 := by
        unfold s_15
        refine kept_ite ?_ ?_
        · exact hs_13
        · exact noteSlack_kept hs_13
      try clear_value s_15
      refine hnext_4 _ ?_ _
      exact playVector_kept hs_15
    · exact dataFault_kept hs_3
  · refine hnext_4 _ ?_ _
    refine playVector_kept ?_
    refine boundaryEnd_kept ?_ ?_
    · intro x16 hx16
      exact hx16
    · exact hs_3

theorem idleBoundary_kept {Q} {q} {t} {s : State} (hs : State.Kept Q s) :
    State.Kept Q (idleBoundary q t s) := by
  delta idleBoundary
  extract_lets -merge -useContext +implicits st_0 s_1 _2 s_3 s_4 s_5 own_6 s_7 s_8 _9 s_10
  try clear_value st_0
  have hs_1 : State.Kept Q s_1 := by
    unfold s_1
    exact portSettle_kept (settleQuarter_kept (writeCapture_kept hs))
  try clear_value s_1
  try clear_value _2
  have hs_3 : State.Kept Q s_3 := by
    unfold s_3
    exact State.setQ_kept hs_1
  try clear_value s_3
  have hs_4 : State.Kept Q s_4 := by
    unfold s_4
    refine kept_ite ?_ ?_
    · exact State.count_kept hs_3
    · exact hs_3
  try clear_value s_4
  have hs_5 : State.Kept Q s_5 := by
    unfold s_5
    exact ledgerRest_kept hs_4
  try clear_value s_5
  try clear_value own_6
  have hs_7 : State.Kept Q s_7 := by
    unfold s_7
    exact issueUnits_kept hs_5
  try clear_value s_7
  have hs_8 : State.Kept Q s_8 := by
    unfold s_8
    split
    · refine kept_ite ?_ ?_
      · exact playClocks_kept hs_7
      · exact hs_7
    · refine kept_ite ?_ ?_
      · exact playClocks_kept hs_7
      · exact hs_7
    · exact hs_7
  try clear_value s_8
  try clear_value _9
  have hs_10 : State.Kept Q s_10 := by
    unfold s_10
    exact State.setR_kept hs_8
  try clear_value s_10
  refine boundaryEnd_kept ?_ ?_
  · intro x11 hx11
    exact hx11
  · exact hs_10

end Sys2Proof.Machine
end

