-- ==== Sys2Proof/Laws/KeptRings.lean ====
section
/-! SUPPORT. The operations of Machine/Rings.lean keep `State.Kept`. -/

namespace Sys2Proof.Machine

theorem recordSlot_kept {Q} {q} {s : State} (hs : State.Kept Q s) :
    State.Kept Q (recordSlot q s) := by
  delta recordSlot
  extract_lets -merge -useContext +implicits t_0 x_1 used_2
  try clear_value t_0
  try clear_value x_1
  try clear_value used_2
  refine kept_ite ?_ ?_
  · exact hs
  · exact writeSlot_kept (State.setR_kept hs)

theorem ringEnable_kept {Q} {r} {s : State} (hs : State.Kept Q s) :
    State.Kept Q (ringEnable r s) := by
  delta ringEnable
  extract_lets -merge -useContext +implicits d_0 x_1
  try clear_value d_0
  try clear_value x_1
  refine kept_ite ?_ ?_
  · exact hs
  · refine kept_ite ?_ ?_
    · exact flushRing_kept (State.setRing_kept hs)
    · exact State.report_kept (State.raise_kept (State.setFld_kept hs))

theorem ringDisable_kept {Q} {r} {s : State} (hs : State.Kept Q s) :
    State.Kept Q (ringDisable r s) := by
  delta ringDisable
  extract_lets -merge -useContext +implicits x_0 qs_1 s_2 s_3
  try clear_value x_0
  try clear_value qs_1
  have hs_2 : State.Kept Q s_2 := by
    unfold s_2
    exact State.setRing_kept hs
  try clear_value s_2
  have hs_3 : State.Kept Q s_3 := by
    unfold s_3
    refine foldl_kept ?_ ?_
    · intro x4 hx4 x5
      try beta_reduce
      exact ringLose_kept hx4
    · exact hs_2
  try clear_value s_3
  refine kept_ite ?_ ?_
  · exact hs
  · refine foldl_kept ?_ ?_
    · intro x6 hx6 x7
      try beta_reduce
      exact discardRecord_kept hx6
    · exact hs_3

theorem ringParam_kept {Q} {r} {s : State} (hs : State.Kept Q s) :
    State.Kept Q (ringParam r s) := by
  delta ringParam
  extract_lets -merge -useContext +implicits d_0 _1
  try clear_value d_0
  try clear_value _1
  exact State.setRing_kept hs

theorem ringDword3_kept {Q} {r} {s : State} (hs : State.Kept Q s) :
    State.Kept Q (ringDword3 r s) := by
  delta ringDword3
  extract_lets -merge -useContext +implicits en_0
  try clear_value en_0
  refine kept_ite ?_ ?_
  · refine kept_ite ?_ ?_
    · exact ringParam_kept hs
    · exact ringDisable_kept hs
  · refine kept_ite ?_ ?_
    · exact ringEnable_kept hs
    · exact hs

theorem markFull_kept {Q} {s : State} (hs : State.Kept Q s) :
    State.Kept Q (markFull s) := by
  delta markFull
  refine foldl_kept ?_ ?_
  · intro x0 hx0 x1
    try beta_reduce
    exact State.raise_kept (State.setRing_kept hx0)
  · exact hs

theorem hostWrite_kept {Q} {a} {b} {s : State} (hs : State.Kept Q s) :
    State.Kept Q (hostWrite a b s) := by
  delta hostWrite
  exact countTlps_kept (kept_mk hs)

theorem ringMessage_kept {Q} {r} {s : State} (hs : State.Kept Q s) :
    State.Kept Q (ringMessage r s) := by
  delta ringMessage
  extract_lets -merge -useContext +implicits x_0
  try clear_value x_0
  refine kept_ite ?_ ?_
  · exact State.sendVec_kept (State.setRing_kept hs)
  · exact hs

theorem pumpOne_kept {Q} {r} {ecc} {s : State} (hs : State.Kept Q s) :
    State.Kept Q (pumpOne r ecc s) := by
  delta pumpOne
  extract_lets -merge -useContext +implicits x_0 a_1 u_2 e_3 s_4 bytes_5 ok_6 out_7 s_8 s_9 next_10 s_11 s_12 s_13
  try clear_value x_0
  try clear_value a_1
  try clear_value u_2
  try clear_value e_3
  have hs_4 : State.Kept Q s_4 := by
    unfold s_4
    refine kept_ite ?_ ?_
    · exact corrected_kept hs
    · refine kept_ite ?_ ?_
      · exact uncorrected_kept hs
      · exact hs
  try clear_value s_4
  try clear_value bytes_5
  try clear_value ok_6
  try clear_value out_7
  have hs_8 : State.Kept Q s_8 := by
    unfold s_8
    refine kept_ite ?_ ?_
    · exact hs_4
    · exact State.report_kept (State.raise_kept hs_4)
  try clear_value s_8
  have hs_9 : State.Kept Q s_9 := by
    unfold s_9
    exact hostWrite_kept hs_8
  try clear_value s_9
  try clear_value next_10
  have hs_11 : State.Kept Q s_11 := by
    unfold s_11
    exact hostWrite_kept hs_9
  try clear_value s_11
  have hs_12 : State.Kept Q s_12 := by
    unfold s_12
    exact State.setRing_kept hs_11
  try clear_value s_12
  have hs_13 : State.Kept Q s_13 := by
    unfold s_13
    exact flushRing_kept (State.count_kept (State.count_kept hs_12))
  try clear_value s_13
  refine kept_ite ?_ ?_
  · exact ringMessage_kept hs_13
  · exact hs_13

theorem pumpGrant_kept {Q} {ecc} {s : State} (hs : State.Kept Q s) :
    State.Kept Q (pumpGrant ecc s) := by
  delta pumpGrant
  extract_lets -merge -useContext +implicits t_0 used_1 s_2
  try clear_value t_0
  try clear_value used_1
  have hs_2 : State.Kept Q s_2 := by
    unfold s_2
    exact markFull_kept hs
  try clear_value s_2
  refine kept_ite ?_ ?_
  · exact hs
  · split
    · exact hs_2
    · exact pumpOne_kept (kept_mk hs_2)

theorem consPoll_kept {Q} {r} {cons} {s : State} (hs : State.Kept Q s) :
    State.Kept Q (consPoll r cons s) := by
  delta consPoll
  extract_lets -merge -useContext +implicits x_0 s_1 full_2 _3 s_4
  try clear_value x_0
  have hs_1 : State.Kept Q s_1 := by
    unfold s_1
    exact countTlps_kept (countTlps_kept (State.setRing_kept hs))
  try clear_value s_1
  try clear_value full_2
  try clear_value _3
  have hs_4 : State.Kept Q s_4 := by
    unfold s_4
    exact State.setRing_kept hs_1
  try clear_value s_4
  refine kept_ite ?_ ?_
  · exact hs
  · refine kept_ite ?_ ?_
    · exact State.raise_kept hs_4
    · exact hs_4

theorem coalesce_kept {Q} {r} {s : State} (hs : State.Kept Q s) :
    State.Kept Q (coalesce r s) := by
  delta coalesce
  extract_lets -merge -useContext +implicits x_0
  try clear_value x_0
  refine kept_ite ?_ ?_
  · exact ringMessage_kept hs
  · exact hs

theorem dmaError_kept {Q} {r} {write} {s : State} (hs : State.Kept Q s) :
    State.Kept Q (dmaError r write s) := by
  delta dmaError
  refine kept_ite ?_ ?_
  · exact hs
  · extract_lets -merge -useContext +implicits s_0
    have hs_0 : State.Kept Q s_0 := by
      unfold s_0
      exact State.setBit_kept (State.setFld_kept (State.raise_kept hs))
    try clear_value s_0
    exact kept_mk hs_0

end Sys2Proof.Machine
end

