-- ==== Sys2Proof/Laws/KeptLaceRing.lean ====
section
/-! SUPPORT. The operations of Machine/LaceRing.lean keep `State.Kept`. -/

namespace Sys2Proof.Machine

theorem showKeys_kept {Q} {s : State} (hs : State.Kept Q s) :
    State.Kept Q (showKeys s) := by
  delta showKeys
  exact State.setFld_kept hs

theorem laceDetach_kept {Q} {s : State} (hs : State.Kept Q s) :
    State.Kept Q (laceDetach s) := by
  delta laceDetach
  refine kept_ite ?_ ?_
  · exact hs
  · extract_lets -merge -useContext +implicits s_0 _1 s_2
    have hs_0 : State.Kept Q s_0 := by
      unfold s_0
      exact State.setFld_kept hs
    try clear_value s_0
    try clear_value _1
    have hs_2 : State.Kept Q s_2 := by
      unfold s_2
      exact showKeys_kept (kept_mk hs_0)
    try clear_value s_2
    refine forAll_kept ?_ ?_
    · intro x3 x4 hx4
      try beta_reduce
      refine kept_ite ?_ ?_
      · extract_lets -merge -useContext +implicits s_5 _6
        have hs_5 : State.Kept Q s_5 := by
          unfold s_5
          exact laceHoldQuarter_kept hx4
        try clear_value s_5
        try clear_value _6
        exact State.setQ_kept hs_5
      · exact hx4
    · exact hs_2

theorem laceFail_kept {Q} {f} {src} {addr} {s : State} (hs : State.Kept Q s) :
    State.Kept Q (laceFail f src addr s) := by
  delta laceFail
  exact laceDetach_kept (State.report_kept (State.raise_kept hs))

theorem laceUpdate_kept {Q} {s : State} (hs : State.Kept Q s) :
    State.Kept Q (laceUpdate s) := by
  delta laceUpdate
  refine kept_ite ?_ ?_
  · refine showKeys_kept ?_
    extract_lets -merge -useContext +implicits _0 _1
    have h_0 : State.Kept Q _0 := by
      unfold _0
      exact State.setFld_kept hs
    try clear_value _0
    try clear_value _1
    exact kept_mk h_0
  · refine kept_ite ?_ ?_
    · exact State.setFld_kept hs
    · exact hs

theorem laceTake_kept {Q} {e} {eseq} {s : State} (hs : State.Kept Q s) :
    State.Kept Q (laceTake e eseq s) := by
  delta laceTake
  extract_lets -merge -useContext +implicits l_0 s_1
  try clear_value l_0
  have hs_1 : State.Kept Q s_1 := by
    unfold s_1
    exact kept_mk hs
  try clear_value s_1
  refine kept_ite ?_ ?_
  · refine forAll_kept ?_ ?_
    · intro x2 x3 hx3
      try beta_reduce
      exact noteMark_kept hx3
    · exact hs_1
  · exact hs_1

theorem laceSlip_kept {Q} {r} {s : State} (hs : State.Kept Q s) :
    State.Kept Q (laceSlip r s) := by
  delta laceSlip
  refine kept_ite ?_ ?_
  · exact hs
  · refine kept_ite ?_ ?_
    · extract_lets -merge -useContext +implicits q_0
      try clear_value q_0
      exact seqFault_kept (State.raise_kept hs)
    · refine kept_ite ?_ ?_
      · exact State.report_kept (State.raise_kept hs)
      · exact State.raise_kept hs

theorem lacePlace_kept {Q} {acc} {r} (hacc : State.Kept Q acc.1) :
    State.Kept Q (lacePlace acc r).1 := by
  unfold lacePlace
  extract_lets -merge -useContext +implicits s_0 eff_1 n_2 s_3
  have hs_0 : State.Kept Q s_0 := by
    unfold s_0
    exact hacc
  try clear_value s_0
  try clear_value eff_1
  try clear_value n_2
  have hs_3 : State.Kept Q s_3 := by
    unfold s_3
    exact State.count_kept (State.setFld_kept hs_0)
  try clear_value s_3
  split
  · exact kept_fst (laceSlip_kept hs_0)
  · extract_lets -merge -useContext +implicits slot_4
    try clear_value slot_4
    exact kept_fst (laceTake_kept hs_3)

theorem laceFill_kept {Q} {begin_} {slots} {s : State} (hs : State.Kept Q s) :
    State.Kept Q (laceFill begin_ slots s).1 := by
  unfold laceFill
  extract_lets -merge -useContext +implicits due_0 _1 s_2 r_3
  try clear_value due_0
  try clear_value _1
  have hs_2 : State.Kept Q s_2 := by
    unfold s_2
    exact kept_mk hs
  try clear_value s_2
  have hr_3 : State.Kept Q r_3.1 := by
    unfold r_3
    refine foldl_kept_fst ?_ ?_
    · intro x4 hx4 x5
      exact lacePlace_kept hx4
    · exact kept_fst hs_2
  try clear_value r_3
  refine kept_fst ?_
  refine kept_ite ?_ ?_
  · exact laceDetach_kept hr_3
  · exact hr_3

theorem surveyDelays_kept {Q} {d} {s : State} (hs : State.Kept Q s) :
    State.Kept Q (surveyDelays d s) := by
  delta surveyDelays
  extract_lets -merge -useContext +implicits n_0 a_1 b_2
  try clear_value n_0
  have ha_1 : State.Kept Q a_1.2 := by
    unfold a_1
    exact State.meanFree_kept hs
  try clear_value a_1
  have hb_2 : State.Kept Q b_2.2 := by
    unfold b_2
    exact State.meanFree_kept ha_1
  try clear_value b_2
  exact State.setReg_kept (State.setReg_kept hb_2)

theorem laceFrameStart_kept {Q} {s : State} (hs : State.Kept Q s) :
    State.Kept Q (laceFrameStart s) := by
  delta laceFrameStart
  extract_lets -merge -useContext +implicits f_0 n_1 survey_2 copies_3 _5 s_6 _7 s_8 r_9 acc_10 _11 _12
  try clear_value f_0
  try clear_value n_1
  try clear_value survey_2
  try clear_value copies_3
  try clear_value _5
  have hs_6 : State.Kept Q s_6 := by
    unfold s_6
    exact kept_mk hs
  try clear_value s_6
  try clear_value _7
  have hs_8 : State.Kept Q s_8 := by
    unfold s_8
    refine kept_ite ?_ ?_
    · exact kept_mk hs_6
    · exact hs_6
  try clear_value s_8
  have hr_9 : State.Kept Q r_9.1 := by
    unfold r_9
    exact laceFill_kept hs_8
  try clear_value r_9
  try clear_value acc_10
  have h_11 : State.Kept Q _11 := by
    unfold _11
    exact hr_9
  try clear_value _11
  try clear_value _12
  refine kept_ite ?_ ?_
  · exact hs
  · exact kept_mk h_11

theorem laceReadSlot_kept {Q} {sof} {fine} {fn} {x} {s : State} (hs : State.Kept Q s) :
    State.Kept Q (laceReadSlot sof fine fn x s) := by
  delta laceReadSlot
  refine kept_ite ?_ ?_
  · exact laceFail_kept (State.count_kept hs)
  · refine kept_ite ?_ ?_
    · exact hs
    · refine kept_ite ?_ ?_
      · exact hs
      · extract_lets -merge -useContext +implicits want_0 _1 s_2 eff_3 due_4
        try clear_value want_0
        try clear_value _1
        have hs_2 : State.Kept Q s_2 := by
          unfold s_2
          exact kept_mk hs
        try clear_value s_2
        try clear_value eff_3
        try clear_value due_4
        refine kept_ite ?_ ?_
        · exact laceFail_kept (State.count_kept hs)
        · refine kept_ite ?_ ?_
          · exact laceFail_kept hs_2
          · exact laceTake_kept (State.count_kept hs_2)

theorem laceTrack_kept {Q} {sof} {fine} {f} {cap} {s : State} (hs : State.Kept Q s) :
    State.Kept Q (laceTrack sof fine f cap s) := by
  delta laceTrack
  extract_lets -merge -useContext +implicits d_0 o_1 offs_2 _3 s_4 old_5 m_6 v_7 s_8 out_9
  try clear_value d_0
  try clear_value o_1
  try clear_value offs_2
  try clear_value _3
  have hs_4 : State.Kept Q s_4 := by
    unfold s_4
    exact kept_mk hs
  try clear_value s_4
  try clear_value old_5
  have hm_6 : State.Kept Q m_6.2 := by
    unfold m_6
    exact State.meanFree_kept hs_4
  try clear_value m_6
  try clear_value v_7
  have hs_8 : State.Kept Q s_8 := by
    unfold s_8
    exact State.setReg_kept hm_6
  try clear_value s_8
  try clear_value out_9
  refine kept_ite ?_ ?_
  · exact State.report_kept (State.raise_kept hs_8)
  · exact hs_8

theorem laceSurvey_kept {Q} {s : State} (hs : State.Kept Q s) :
    State.Kept Q (laceSurvey s) := by
  delta laceSurvey
  refine kept_ite ?_ ?_
  · exact maintRequest_kept (kept_mk hs)
  · exact hs

theorem laceFrame_kept {Q} {sof} {fine} {fn} {hop} {survey} {acc} {sofOk} {slots} {d} {s : State} (hs : State.Kept Q s) :
    State.Kept Q (laceFrame sof fine fn hop survey acc sofOk slots d s) := by
  delta laceFrame
  refine kept_ite ?_ ?_
  · exact hs
  · refine kept_ite ?_ ?_
    · exact laceFail_kept (State.count_kept hs)
    · refine kept_ite ?_ ?_
      · extract_lets -merge -useContext +implicits f_0 _1 s_2 s_3 _4 s_5 s_6 s_6b copies_7 _8 s_9
        try clear_value f_0
        try clear_value _1
        have hs_2 : State.Kept Q s_2 := by
          unfold s_2
          exact kept_mk hs
        try clear_value s_2
        have hs_3 : State.Kept Q s_3 := by
          unfold s_3
          refine kept_ite ?_ ?_
          · refine kept_ite ?_ ?_
            · exact laceSurvey_kept hs_2
            · exact hs_2
          · exact hs
        try clear_value s_3
        try clear_value _4
        have hs_5 : State.Kept Q s_5 := by
          unfold s_5
          exact kept_mk hs_3
        try clear_value s_5
        have hs_6 : State.Kept Q s_6 := by
          unfold s_6
          refine kept_ite ?_ ?_
          · exact State.setFld_kept hs_5
          · exact hs_5
        try clear_value s_6
        have hs_6b : State.Kept Q s_6b := by
          unfold s_6b
          refine kept_ite ?_ ?_
          · exact surveyDelays_kept hs_6
          · exact hs_6
        try clear_value s_6b
        try clear_value copies_7
        try clear_value _8
        have hs_9 : State.Kept Q s_9 := by
          unfold s_9
          exact kept_mk hs_6b
        try clear_value s_9
        refine kept_ite ?_ ?_
        · exact laceFail_kept hs
        · refine foldl_kept ?_ ?_
          · intro x10 hx10 x11
            try beta_reduce
            exact laceReadSlot_kept hx10
          · exact hs_9
      · extract_lets -merge -useContext +implicits f_12 _13 s_14 s_15 _16 s_17 n_18 busy_19 s_20 _21 s_22 _23 s_24 s_25 s_26 r_29 out_30 _31 _32
        try clear_value f_12
        try clear_value _13
        have hs_14 : State.Kept Q s_14 := by
          unfold s_14
          exact kept_mk hs
        try clear_value s_14
        have hs_15 : State.Kept Q s_15 := by
          unfold s_15
          exact State.setFld_kept hs_14
        try clear_value s_15
        try clear_value _16
        have hs_17 : State.Kept Q s_17 := by
          unfold s_17
          refine kept_ite ?_ ?_
          · refine kept_ite ?_ ?_
            · exact hs_15
            · exact maintRequest_kept (kept_mk hs_15)
          · exact hs_14
        try clear_value s_17
        try clear_value n_18
        try clear_value busy_19
        have hs_20 : State.Kept Q s_20 := by
          unfold s_20
          refine kept_ite ?_ ?_
          · exact State.setFld_kept (State.setReg_kept hs_17)
          · exact hs_17
        try clear_value s_20
        try clear_value _21
        have hs_22 : State.Kept Q s_22 := by
          unfold s_22
          exact kept_mk hs_20
        try clear_value s_22
        try clear_value _23
        have hs_24 : State.Kept Q s_24 := by
          unfold s_24
          refine kept_ite ?_ ?_
          · exact surveyDelays_kept (kept_mk hs_22)
          · exact hs_22
        try clear_value s_24
        have hs_25 : State.Kept Q s_25 := by
          unfold s_25
          refine kept_ite ?_ ?_
          · exact laceTrack_kept hs_24
          · refine kept_ite ?_ ?_
            · exact laceTrack_kept hs_24
            · refine kept_ite ?_ ?_
              · exact laceTrack_kept hs_24
              · exact hs_24
        try clear_value s_25
        have hs_26 : State.Kept Q s_26 := by
          unfold s_26
          refine foldl_kept ?_ ?_
          · intro x27 hx27 x28
            try beta_reduce
            exact laceReadSlot_kept (State.count_kept hx27)
          · exact hs_25
        try clear_value s_26
        have hr_29 : State.Kept Q r_29.1 := by
          unfold r_29
          exact laceFill_kept hs_26
        try clear_value r_29
        try clear_value out_30
        have h_31 : State.Kept Q _31 := by
          unfold _31
          exact hr_29
        try clear_value _31
        try clear_value _32
        exact kept_mk h_31

theorem ringLost_kept {Q} {s : State} (hs : State.Kept Q s) :
    State.Kept Q (ringLost s) := by
  delta ringLost
  refine kept_ite ?_ ?_
  · exact hs
  · extract_lets -merge -useContext +implicits _0 s_1
    try clear_value _0
    have hs_1 : State.Kept Q s_1 := by
      unfold s_1
      exact kept_mk hs
    try clear_value s_1
    exact laceFail_kept hs_1

theorem dropEffect_kept {Q} {p} {s : State} (hs : State.Kept Q s) :
    State.Kept Q (dropEffect p s) := by
  delta dropEffect
  exact kept_mk hs

theorem laceTrigEffect_kept {Q} {s : State} (hs : State.Kept Q s) :
    State.Kept Q (laceTrigEffect s) := by
  delta laceTrigEffect
  split
  · exact setLatchAll_kept (dropEffect_kept hs)
  · exact hs

theorem startStarting_kept {Q} {mode} {ok} {eff} {s : State} (hs : State.Kept Q s) :
    State.Kept Q (startStarting mode ok eff s) := by
  delta startStarting
  refine forAll_kept ?_ ?_
  · intro x0 x1 hx1
    try beta_reduce
    refine kept_ite ?_ ?_
    · exact State.setQ_kept hx1
    · exact hx1
  · exact hs

theorem laceStartEffect_kept {Q} {s : State} (hs : State.Kept Q s) :
    State.Kept Q (laceStartEffect s) := by
  delta laceStartEffect
  split
  · exact startStarting_kept (dropEffect_kept hs)
  · exact hs

theorem laceHoldEffect_kept {Q} {type} {s : State} (hs : State.Kept Q s) :
    State.Kept Q (laceHoldEffect type s) := by
  delta laceHoldEffect
  split
  · exact hs
  · extract_lets -merge -useContext +implicits same_0 old_1 keys_2 s_3 _4 s_5
    try clear_value same_0
    try clear_value old_1
    try clear_value keys_2
    have hs_3 : State.Kept Q s_3 := by
      unfold s_3
      exact dropEffect_kept hs
    try clear_value s_3
    try clear_value _4
    have hs_5 : State.Kept Q s_5 := by
      unfold s_5
      exact showKeys_kept (kept_mk hs_3)
    try clear_value s_5
    refine kept_ite ?_ ?_
    · refine forAll_kept ?_ ?_
      · intro x6 x7 hx7
        try beta_reduce
        exact laceHoldQuarter_kept hx7
      · exact hs_5
    · refine kept_ite ?_ ?_
      · refine forAll_kept ?_ ?_
        · intro x8 x9 hx9
          try beta_reduce
          exact laceResumeQuarter_kept hx9
        · exact hs_5
      · exact hs_5

theorem laceEpochEffect_kept {Q} {s : State} (hs : State.Kept Q s) :
    State.Kept Q (laceEpochEffect s) := by
  delta laceEpochEffect
  split
  · exact hs
  · extract_lets -merge -useContext +implicits s_0 off_1 m_2 _3 s_4 _5 s_6 o_7 m_8 m_9 p_10
    have hs_0 : State.Kept Q s_0 := by
      unfold s_0
      exact dropEffect_kept hs
    try clear_value s_0
    try clear_value off_1
    have hm_2 : State.Kept Q m_2.2 := by
      unfold m_2
      exact State.meanFree_kept hs_0
    try clear_value m_2
    have h_3 : State.Kept Q _3 := by
      unfold _3
      exact hm_2
    try clear_value _3
    have hs_4 : State.Kept Q s_4 := by
      unfold s_4
      refine kept_ite ?_ ?_
      · exact kept_mk h_3
      · exact hs_0
    try clear_value s_4
    try clear_value _5
    have hs_6 : State.Kept Q s_6 := by
      unfold s_6
      refine kept_ite ?_ ?_
      · exact kept_mk hs_4
      · exact hs_4
    try clear_value s_6
    try clear_value o_7
    try clear_value m_8
    try clear_value m_9
    try clear_value p_10
    refine kept_ite ?_ ?_
    · exact hs_0
    · refine kept_ite ?_ ?_
      · exact laceFail_kept hs_0
      · exact State.setFld_kept hs_6

theorem laceSendGo_kept {Q} {s : State} (hs : State.Kept Q s) :
    State.Kept Q (laceSendGo s) := by
  delta laceSendGo
  extract_lets -merge -useContext +implicits t_0
  try clear_value t_0
  refine kept_ite ?_ ?_
  · exact laceRequest_kept hs
  · exact State.raise_kept hs

theorem laceMasterSend_kept {Q} {type} {s : State} (hs : State.Kept Q s) :
    State.Kept Q (laceMasterSend type s) := by
  delta laceMasterSend
  refine kept_ite ?_ ?_
  · exact laceRequest_kept hs
  · exact State.raise_kept hs

theorem laceEpochDue_kept {Q} {s : State} (hs : State.Kept Q s) :
    State.Kept Q (laceEpochDue s) := by
  delta laceEpochDue
  extract_lets -merge -useContext +implicits per_0 _1 s_2
  try clear_value per_0
  try clear_value _1
  have hs_2 : State.Kept Q s_2 := by
    unfold s_2
    exact kept_mk hs
  try clear_value s_2
  refine kept_ite ?_ ?_
  · exact hs
  · exact laceRequest_kept hs_2

theorem laceDetachCmd_kept {Q} {s : State} (hs : State.Kept Q s) :
    State.Kept Q (laceDetachCmd s) := by
  delta laceDetachCmd
  extract_lets -merge -useContext +implicits own_0 s_1 _4
  try clear_value own_0
  have hs_1 : State.Kept Q s_1 := by
    unfold s_1
    refine foldl_kept ?_ ?_
    · intro x2 hx2 x3
      try beta_reduce
      exact laceRequest_kept hx2
    · exact hs
  try clear_value s_1
  try clear_value _4
  refine kept_ite ?_ ?_
  · exact laceDetach_kept hs_1
  · exact kept_mk hs_1

theorem surveyRelease_kept {Q} {s : State} (hs : State.Kept Q s) :
    State.Kept Q (surveyRelease s) := by
  delta surveyRelease
  extract_lets -merge -useContext +implicits _0 s_1
  try clear_value _0
  have hs_1 : State.Kept Q s_1 := by
    unfold s_1
    exact kept_mk hs
  try clear_value s_1
  exact maintEnd_kept (State.setBit_kept hs_1)

theorem laceSurveyComplete_kept {Q} {r} {s : State} (hs : State.Kept Q s) :
    State.Kept Q (laceSurveyComplete r s) := by
  delta laceSurveyComplete
  refine kept_ite ?_ ?_
  · exact hs
  · extract_lets -merge -useContext +implicits aligned_0 fails_1 s_2 s_3 s_4 s_5 _8 s_9
    try clear_value aligned_0
    try clear_value fails_1
    have hs_2 : State.Kept Q s_2 := by
      unfold s_2
      exact surveyRelease_kept hs
    try clear_value s_2
    have hs_3 : State.Kept Q s_3 := by
      unfold s_3
      refine kept_ite ?_ ?_
      · exact State.report_kept (State.raise_kept hs_2)
      · exact hs_2
    try clear_value s_3
    have hs_4 : State.Kept Q s_4 := by
      unfold s_4
      exact State.setFld_kept (State.setReg_kept hs_2)
    try clear_value s_4
    have hs_5 : State.Kept Q s_5 := by
      unfold s_5
      refine kept_ite ?_ ?_
      · refine forAll_kept ?_ ?_
        · intro x6 x7 hx7
          try beta_reduce
          exact State.setReg_kept hx7
        · exact hs_4
      · exact hs_2
    try clear_value s_5
    try clear_value _8
    have hs_9 : State.Kept Q s_9 := by
      unfold s_9
      exact kept_mk hs_5
    try clear_value s_9
    refine kept_ite ?_ ?_
    · refine kept_ite ?_ ?_
      · exact hs_3
      · exact State.setFld_kept hs_3
    · refine kept_ite ?_ ?_
      · exact State.setFld_kept hs_9
      · refine kept_ite ?_ ?_
        · exact laceDetach_kept hs_9
        · exact State.setFld_kept hs_9

theorem surveyTimeout_kept {Q} {s : State} (hs : State.Kept Q s) :
    State.Kept Q (surveyTimeout s) := by
  delta surveyTimeout
  refine kept_ite ?_ ?_
  · extract_lets -merge -useContext +implicits s_0
    have hs_0 : State.Kept Q s_0 := by
      unfold s_0
      exact surveyRelease_kept hs
    try clear_value s_0
    refine kept_ite ?_ ?_
    · exact hs_0
    · exact State.setFld_kept hs_0
  · exact hs

end Sys2Proof.Machine
end

