-- ==== Sys2Proof/Laws/KeptSupply.lean ====
section
/-! SUPPORT. The operations of Machine/Supply.lean keep `State.Kept`. -/

namespace Sys2Proof.Machine

theorem gateOff_kept {Q} {n} {s : State} (hs : State.Kept Q s) :
    State.Kept Q (gateOff n s) := by
  delta gateOff
  extract_lets -merge -useContext +implicits s_0 _1
  have hs_0 : State.Kept Q s_0 := by
    unfold s_0
    exact State.setBit_kept hs
  try clear_value s_0
  try clear_value _1
  exact State.setSg_kept hs_0

theorem sgTrip_kept {Q} {n} {k} {s : State} (hs : State.Kept Q s) :
    State.Kept Q (sgTrip n k s) := by
  delta sgTrip
  extract_lets -merge -useContext +implicits m_0 s_1 s_4 s_5 s_6 s_7 _8
  try clear_value m_0
  have hs_1 : State.Kept Q s_1 := by
    unfold s_1
    refine kept_ite ?_ ?_
    · refine forAll_kept ?_ ?_
      · intro x2 x3 hx3
        try beta_reduce
        exact failSite_kept hx3
      · exact hs
    · exact hs
  try clear_value s_1
  have hs_4 : State.Kept Q s_4 := by
    unfold s_4
    exact State.setFld_kept hs_1
  try clear_value s_4
  have hs_5 : State.Kept Q s_5 := by
    unfold s_5
    exact setLatchAll_kept (State.count_kept (State.raiseMask_kept hs_4))
  try clear_value s_5
  have hs_6 : State.Kept Q s_6 := by
    unfold s_6
    refine kept_ite ?_ ?_
    · exact hs_1
    · refine kept_ite ?_ ?_
      · exact wakeEvent_kept hs_5
      · exact hs_5
  try clear_value s_6
  have hs_7 : State.Kept Q s_7 := by
    unfold s_7
    exact State.report_kept (gateOff_kept hs_6)
  try clear_value s_7
  try clear_value _8
  refine kept_ite ?_ ?_
  · exact State.setSg_kept hs_7
  · exact hs_6

theorem sgGate_kept {Q} {n} {s : State} (hs : State.Kept Q s) :
    State.Kept Q (sgGate n s) := by
  delta sgGate
  extract_lets -merge -useContext +implicits x_0 may_1 s_2
  try clear_value x_0
  try clear_value may_1
  have hs_2 : State.Kept Q s_2 := by
    unfold s_2
    exact State.setSg_kept hs
  try clear_value s_2
  refine kept_ite ?_ ?_
  · exact hs
  · refine kept_ite ?_ ?_
    · refine kept_ite ?_ ?_
      · exact sgTrip_kept hs_2
      · exact hs_2
    · exact State.setSg_kept hs

theorem sgGates_kept {Q} {s : State} (hs : State.Kept Q s) :
    State.Kept Q (sgGates s) := by
  delta sgGates
  refine forAll_kept ?_ ?_
  · intro x0 x1 hx1
    try beta_reduce
    exact sgGate_kept hx1
  · exact hs

theorem sgGonEnd_kept {Q} {n} {s : State} (hs : State.Kept Q s) :
    State.Kept Q (sgGonEnd n s) := by
  delta sgGonEnd
  split
  · exact hs
  · refine kept_ite ?_ ?_
    · exact hs
    · extract_lets -merge -useContext +implicits _0 s_1
      try clear_value _0
      have hs_1 : State.Kept Q s_1 := by
        unfold s_1
        exact State.setSg_kept hs
      try clear_value s_1
      refine forAll_kept ?_ ?_
      · intro x2 x3 hx3
        exact sgTrip_kept hx3
      · exact hs_1

theorem sgAct_kept {Q} {n} {k} {t} {s : State} (hs : State.Kept Q s) :
    State.Kept Q (sgAct n k t s) := by
  delta sgAct
  extract_lets -merge -useContext +implicits x_0 out_1 m_2 x_3 x_4 s_5
  try clear_value x_0
  try clear_value out_1
  try clear_value m_2
  try clear_value x_3
  try clear_value x_4
  have hs_5 : State.Kept Q s_5 := by
    unfold s_5
    exact State.setSg_kept hs
  try clear_value s_5
  refine kept_ite ?_ ?_
  · exact sgTrip_kept hs_5
  · exact hs_5

theorem sgCross_kept {Q} {n} {rises} {s : State} (hs : State.Kept Q s) :
    State.Kept Q (sgCross n rises s) := by
  delta sgCross
  extract_lets -merge -useContext +implicits first_0 x_1
  try clear_value first_0
  try clear_value x_1
  refine kept_ite ?_ ?_
  · exact State.setSg_kept hs
  · exact hs

theorem sgCompare_kept {Q} {n} {v} {i} {s : State} (hs : State.Kept Q s) :
    State.Kept Q (sgCompare n v i s) := by
  delta sgCompare
  refine kept_ite ?_ ?_
  · exact hs
  · extract_lets -merge -useContext +implicits was_0 live_1 s_2 _3 s_4
    try clear_value was_0
    try clear_value live_1
    have hs_2 : State.Kept Q s_2 := by
      unfold s_2
      exact sgCross_kept hs
    try clear_value s_2
    try clear_value _3
    have hs_4 : State.Kept Q s_4 := by
      unfold s_4
      exact State.setFld_kept (State.setSg_kept hs_2)
    try clear_value s_4
    refine forAll_kept ?_ ?_
    · intro x5 x6 hx6
      try beta_reduce
      extract_lets -merge -useContext +implicits x_7 blanked_8
      try clear_value x_7
      try clear_value blanked_8
      refine kept_ite ?_ ?_
      · exact sgAct_kept hx6
      · exact hx6
    · exact hs_4

theorem sgBlankEnd_kept {Q} {n} {k} {s : State} (hs : State.Kept Q s) :
    State.Kept Q (sgBlankEnd n k s) := by
  delta sgBlankEnd
  extract_lets -merge -useContext +implicits x_0 e_1 s_2
  try clear_value x_0
  try clear_value e_1
  have hs_2 : State.Kept Q s_2 := by
    unfold s_2
    exact State.setSg_kept hs
  try clear_value s_2
  refine kept_ite ?_ ?_
  · exact hs
  · refine kept_ite ?_ ?_
    · exact sgAct_kept hs_2
    · exact hs_2

theorem vsgLost_kept {Q} {s : State} (hs : State.Kept Q s) :
    State.Kept Q (vsgLost s) := by
  delta vsgLost
  refine forAll_kept ?_ ?_
  · intro x0 x1 hx1
    try beta_reduce
    exact State.setSg_kept hx1
  · exact hs

theorem sgTripClr_kept {Q} {n} {s : State} (hs : State.Kept Q s) :
    State.Kept Q (sgTripClr n s) := by
  delta sgTripClr
  exact State.setFld_kept hs

theorem setRes24_kept {Q} {lo} {hi} {v} {s : State} (hs : State.Kept Q s) :
    State.Kept Q (setRes24 lo hi v s) := by
  delta setRes24
  extract_lets -merge -useContext +implicits c_0
  try clear_value c_0
  exact State.setFld_kept (State.setFld_kept hs)

theorem sgResults_kept {Q} {n} {vs} {is} {s : State} (hs : State.Kept Q s) :
    State.Kept Q (sgResults n vs is s) := by
  delta sgResults
  extract_lets -merge -useContext +implicits a_0 b_1 s_2
  have ha_0 : State.Kept Q a_0.2 := by
    unfold a_0
    exact State.meanFree_kept hs
  try clear_value a_0
  have hb_1 : State.Kept Q b_1.2 := by
    unfold b_1
    exact State.meanFree_kept ha_0
  try clear_value b_1
  have hs_2 : State.Kept Q s_2 := by
    unfold s_2
    exact setRes24_kept hb_1
  try clear_value s_2
  exact State.raise_kept (setRes24_kept hs_2)

theorem sgPeriodEnd_kept {Q} {n} {vs} {is} {s : State} (hs : State.Kept Q s) :
    State.Kept Q (sgPeriodEnd n vs is s) := by
  delta sgPeriodEnd
  extract_lets -merge -useContext +implicits x_0 k_1 take_2 s_3
  try clear_value x_0
  try clear_value k_1
  try clear_value take_2
  have hs_3 : State.Kept Q s_3 := by
    unfold s_3
    exact sgResults_kept (State.setSg_kept hs)
  try clear_value s_3
  refine kept_ite ?_ ?_
  · exact State.raise_kept (sgResults_kept (State.setSg_kept hs))
  · refine kept_ite ?_ ?_
    · exact hs
    · refine kept_ite ?_ ?_
      · exact sgTripClr_kept hs_3
      · exact hs_3

theorem sgCtrlWrite_kept {Q} {n} {m} {w} {s : State} (hs : State.Kept Q s) :
    State.Kept Q (sgCtrlWrite n m w s) := by
  delta sgCtrlWrite
  extract_lets -merge -useContext +implicits en_0 s_1 en_2 _3 _4 s_5 _6 s_7
  try clear_value en_0
  have hs_1 : State.Kept Q s_1 := by
    unfold s_1
    exact State.setBits_kept hs
  try clear_value s_1
  try clear_value en_2
  try clear_value _3
  try clear_value _4
  have hs_5 : State.Kept Q s_5 := by
    unfold s_5
    refine kept_ite ?_ ?_
    · exact State.setSg_kept hs_1
    · refine kept_ite ?_ ?_
      · exact State.setFld_kept (State.setSg_kept hs_1)
      · exact hs_1
  try clear_value s_5
  try clear_value _6
  have hs_7 : State.Kept Q s_7 := by
    unfold s_7
    refine kept_ite ?_ ?_
    · exact State.setSg_kept hs_5
    · exact hs_5
  try clear_value s_7
  exact sgGate_kept hs_7

theorem sgRestore_kept {Q} {n} {s : State} (hs : State.Kept Q s) :
    State.Kept Q (sgRestore n s) := by
  delta sgRestore
  refine kept_ite ?_ ?_
  · extract_lets -merge -useContext +implicits s_0 _1
    have hs_0 : State.Kept Q s_0 := by
      unfold s_0
      exact State.setBit_kept hs
    try clear_value s_0
    try clear_value _1
    exact sgGate_kept (State.setSg_kept hs_0)
  · exact sgGate_kept hs

theorem sgAfter_kept {Q} {ends} {s : State} (hs : State.Kept Q s) :
    State.Kept Q (sgAfter ends s) := by
  delta sgAfter
  extract_lets -merge -useContext +implicits s_0
  have hs_0 : State.Kept Q s_0 := by
    unfold s_0
    refine forAll_kept ?_ ?_
    · intro x1 x2 hx2
      exact sgRestore_kept hx2
    · exact hs
  try clear_value s_0
  refine kept_ite ?_ ?_
  · exact sgGates_kept hs_0
  · exact hs_0

end Sys2Proof.Machine
end

