-- ==== Sys2Proof/Laws/KeptFaults.lean ====
section
/-! SUPPORT. The operations of Machine/Faults.lean keep `State.Kept`. -/

namespace Sys2Proof.Machine

theorem forceOnce_kept {Q} {c} {s : State} (hs : State.Kept Q s) :
    State.Kept Q (forceOnce c s) := by
  delta forceOnce
  refine kept_ite ?_ ?_
  · exact hs
  · exact forceChan_kept hs

theorem faultChan_kept {Q} {c} {s : State} (hs : State.Kept Q s) :
    State.Kept Q (faultChan c s) := by
  delta faultChan
  exact pmuAbort_kept (forceOnce_kept hs)

theorem releaseFree_kept {Q} {c} {s : State} (hs : State.Kept Q s) :
    State.Kept Q (releaseFree c s) := by
  delta releaseFree
  refine kept_ite ?_ ?_
  · exact releaseChan_kept hs
  · exact hs

theorem safeChan_kept {Q} {c} {s : State} (hs : State.Kept Q s) :
    State.Kept Q (safeChan c s) := by
  delta safeChan
  extract_lets -merge -useContext +implicits s_0 _1
  have hs_0 : State.Kept Q s_0 := by
    unfold s_0
    exact pmuSafe_kept (forceOnce_kept hs)
  try clear_value s_0
  try clear_value _1
  exact State.setBit_kept (State.setChan_kept hs_0)

theorem safeEntry_kept {Q} {s : State} (hs : State.Kept Q s) :
    State.Kept Q (safeEntry s) := by
  delta safeEntry
  extract_lets -merge -useContext +implicits s_0 s_3 s_6 s_9
  have hs_0 : State.Kept Q s_0 := by
    unfold s_0
    refine forAll_kept ?_ ?_
    · intro x1 x2 hx2
      exact txnAbort_kept hx2
    · exact hs
  try clear_value s_0
  have hs_3 : State.Kept Q s_3 := by
    unfold s_3
    refine forAll_kept ?_ ?_
    · intro x4 x5 hx5
      try beta_reduce
      exact parkQuarter_kept hx5
    · exact hs_0
  try clear_value s_3
  have hs_6 : State.Kept Q s_6 := by
    unfold s_6
    refine forAll_kept ?_ ?_
    · intro x7 x8 hx8
      exact safeChan_kept hx8
    · exact State.setBit_kept hs_3
  try clear_value s_6
  have hs_9 : State.Kept Q s_9 := by
    unfold s_9
    exact sgGates_kept (txnAbort_kept (laceDetach_kept hs_6))
  try clear_value s_9
  refine forAll_kept ?_ ?_
  · intro x10 x11 hx11
    try beta_reduce
    exact invalidate_kept hx11
  · exact hs_9

theorem openEffect_kept {Q} {x} {atWelt} {s : State} (hs : State.Kept Q s) :
    State.Kept Q (openEffect x atWelt s) := by
  delta openEffect
  refine kept_ite ?_ ?_
  · extract_lets -merge -useContext +implicits _0 s_1
    try clear_value _0
    have hs_1 : State.Kept Q s_1 := by
      unfold s_1
      exact State.setEnt_kept hs
    try clear_value s_1
    refine sgGates_kept ?_
    refine foldl_kept ?_ ?_
    · intro x2 hx2 x3
      try beta_reduce
      exact faultChan_kept hx2
    · exact hs_1
  · refine kept_ite ?_ ?_
    · extract_lets -merge -useContext +implicits q_4 s_5
      try clear_value q_4
      have hs_5 : State.Kept Q s_5 := by
        unfold s_5
        exact txnAbort_kept hs
      try clear_value s_5
      refine kept_ite ?_ ?_
      · exact hs_5
      · refine forAll_kept ?_ ?_
        · intro x6 x7 hx7
          try beta_reduce
          exact faultChan_kept hx7
        · exact parkQuarter_kept hs_5
    · refine kept_ite ?_ ?_
      · exact laceDetach_kept hs
      · refine kept_ite ?_ ?_
        · exact State.setBit_kept hs
        · refine kept_ite ?_ ?_
          · exact hs
          · refine kept_ite ?_ ?_
            · exact gateOff_kept hs
            · exact safeEntry_kept hs

theorem openEnt_kept {Q} {x} {atWelt} {s : State} (hs : State.Kept Q s) :
    State.Kept Q (openEnt x atWelt s) := by
  delta openEnt
  refine kept_ite ?_ ?_
  · exact hs
  · exact openEffect_kept (State.setBit_kept hs)

theorem setCause_kept {Q} {src} {s : State} (hs : State.Kept Q s) :
    State.Kept Q (setCause src s) := by
  delta setCause
  exact State.setFld_kept hs

theorem latchFatal_kept {Q} {src} {s : State} (hs : State.Kept Q s) :
    State.Kept Q (latchFatal src s) := by
  delta latchFatal
  extract_lets -merge -useContext +implicits s_0
  have hs_0 : State.Kept Q s_0 := by
    unfold s_0
    exact openEnt_kept (setCause_kept hs)
  try clear_value s_0
  exact State.raise_kept (State.setBit_kept hs_0)

theorem hitEnt_kept {Q} {e} {latchNow} {x} {s : State} (hs : State.Kept Q s) :
    State.Kept Q (hitEnt e latchNow x s) := by
  delta hitEnt
  extract_lets -merge -useContext +implicits closed_0 s_1 _2
  try clear_value closed_0
  have hs_1 : State.Kept Q s_1 := by
    unfold s_1
    refine kept_ite ?_ ?_
    · exact latchFatal_kept (openEnt_kept hs)
    · refine kept_ite ?_ ?_
      · refine openEnt_kept ?_
        refine kept_ite ?_ ?_
        · exact setCause_kept hs
        · exact hs
      · exact hs
  try clear_value s_1
  try clear_value _2
  exact State.setEnt_kept hs_1

theorem setSrcCount_kept {Q} {src} {n} {s : State} (hs : State.Kept Q s) :
    State.Kept Q (setSrcCount src n s) := by
  delta setSrcCount
  exact State.setFld_kept hs

theorem countEvent_kept {Q} {e} {s : State} (hs : State.Kept Q s) :
    State.Kept Q (countEvent e s).1 := by
  unfold countEvent
  extract_lets -merge -useContext +implicits cfg_0 n_1 esc_2 x_3 c_4 s_5
  try clear_value cfg_0
  try clear_value n_1
  try clear_value esc_2
  try clear_value x_3
  try clear_value c_4
  have hs_5 : State.Kept Q s_5 := by
    unfold s_5
    refine kept_ite ?_ ?_
    · exact State.setSrcCnt_kept hs
    · exact hs
  try clear_value s_5
  refine kept_ite_fst ?_ ?_
  · exact kept_fst (State.raise_kept (State.raiseMask_kept (setSrcCount_kept hs_5)))
  · exact kept_fst (setSrcCount_kept hs_5)

theorem collect_kept {Q} {e} {s : State} (hs : State.Kept Q s) :
    State.Kept Q (collect e s) := by
  delta collect
  extract_lets -merge -useContext +implicits r_0 e_1 s_2 s_3 ts_4 t_5 corr_6 s_7 ts_8 latch_9
  have hr_0 : State.Kept Q r_0.1 := by
    unfold r_0
    exact countEvent_kept hs
  try clear_value r_0
  try clear_value e_1
  have hs_2 : State.Kept Q s_2 := by
    unfold s_2
    exact State.count_kept hr_0
  try clear_value s_2
  have hs_3 : State.Kept Q s_3 := by
    unfold s_3
    exact State.raise_kept hs_2
  try clear_value s_3
  try clear_value ts_4
  try clear_value t_5
  try clear_value corr_6
  have hs_7 : State.Kept Q s_7 := by
    unfold s_7
    exact kept_mk hs_3
  try clear_value s_7
  try clear_value ts_8
  try clear_value latch_9
  refine kept_ite ?_ ?_
  · exact hs_7
  · refine foldl_kept ?_ ?_
    · intro x10 hx10 x11
      try beta_reduce
      exact hitEnt_kept hx10
    · exact hs_7

theorem faultEvent_kept {Q} {s : State} (hs : State.Kept Q s) :
    State.Kept Q (faultEvent s) := by
  delta faultEvent
  split
  · exact hs
  · exact collect_kept (kept_mk hs)

theorem faultWindow_kept {Q} {src} {s : State} (hs : State.Kept Q s) :
    State.Kept Q (faultWindow src s) := by
  delta faultWindow
  refine kept_ite ?_ ?_
  · exact setSrcCount_kept hs
  · exact hs

theorem unpark_kept {Q} {q} {s : State} (hs : State.Kept Q s) :
    State.Kept Q (unpark q s) := by
  delta unpark
  refine kept_ite ?_ ?_
  · exact State.setQstate_kept hs
  · exact hs

theorem closeEffect_kept {Q} {x} {s : State} (hs : State.Kept Q s) :
    State.Kept Q (closeEffect x s) := by
  delta closeEffect
  refine kept_ite ?_ ?_
  · refine foldl_kept ?_ ?_
    · intro x0 hx0 x1
      try beta_reduce
      exact releaseFree_kept hx0
    · exact hs
  · refine kept_ite ?_ ?_
    · extract_lets -merge -useContext +implicits q_2
      try clear_value q_2
      refine unpark_kept ?_
      refine forAll_kept ?_ ?_
      · intro x3 x4 hx4
        try beta_reduce
        exact releaseFree_kept hx4
      · exact hs
    · refine kept_ite ?_ ?_
      · exact hs
      · extract_lets -merge -useContext +implicits s_5 s_6
        have hs_5 : State.Kept Q s_5 := by
          unfold s_5
          exact State.setBit_kept hs
        try clear_value s_5
        have hs_6 : State.Kept Q s_6 := by
          unfold s_6
          refine forAll_kept ?_ ?_
          · intro x7 x8 hx8
            try beta_reduce
            exact releaseFree_kept (State.setChan_kept hx8)
          · exact hs_5
        try clear_value s_6
        refine forAll_kept ?_ ?_
        · intro x9 x10 hx10
          exact unpark_kept hx10
        · exact hs_6

theorem endEnt_kept {Q} {x} {s : State} (hs : State.Kept Q s) :
    State.Kept Q (endEnt x s) := by
  delta endEnt
  extract_lets -merge -useContext +implicits s_0
  have hs_0 : State.Kept Q s_0 := by
    unfold s_0
    exact State.setBit_kept hs
  try clear_value s_0
  exact State.raise_kept (State.setFld_kept hs_0)

theorem faultQuiet_kept {Q} {x} {s : State} (hs : State.Kept Q s) :
    State.Kept Q (faultQuiet x s) := by
  delta faultQuiet
  refine kept_ite ?_ ?_
  · extract_lets -merge -useContext +implicits ends_0
    try clear_value ends_0
    refine sgAfter_kept ?_
    refine forAll_kept ?_ ?_
    · intro x1 x2 hx2
      exact closeEffect_kept hx2
    · refine forAll_kept ?_ ?_
      · intro x3 x4 hx4
        exact endEnt_kept hx4
      · exact hs
  · exact hs

theorem faultRclr_kept {Q} {x} {s : State} (hs : State.Kept Q s) :
    State.Kept Q (faultRclr x s) := by
  delta faultRclr
  refine kept_ite ?_ ?_
  · exact State.raise_kept hs
  · refine kept_ite ?_ ?_
    · exact State.setFld_kept hs
    · exact State.setFld_kept hs

theorem thaw_kept {Q} {bit} {s : State} (hs : State.Kept Q s) :
    State.Kept Q (thaw bit s) := by
  delta thaw
  refine forAll_kept ?_ ?_
  · intro x0 x1 hx1
    try beta_reduce
    extract_lets -merge -useContext +implicits y_2 f_3
    try clear_value y_2
    try clear_value f_3
    refine kept_ite ?_ ?_
    · exact State.setEnt_kept hx1
    · exact hx1
  · exact hs

theorem upset_kept {Q} {a} {k} {m} {s : State} (hs : State.Kept Q s) :
    State.Kept Q (upset a k m s) := by
  delta upset
  extract_lets -merge -useContext +implicits cb_0 cc_1
  try clear_value cb_0
  try clear_value cc_1
  split
  · exact { hs with regs := by dsimp only; exact tabSet_wf _ _ _ _ (hs.regs), copyB := by dsimp only; exact tabSet_wf _ _ _ _ (hs.copyB), copyC := by dsimp only; exact tabSet_wf _ _ _ _ (hs.copyC) }
  · exact { hs with copyB := by dsimp only; exact tabSet_wf _ _ _ _ (hs.copyB) }
  · exact { hs with copyC := by dsimp only; exact tabSet_wf _ _ _ _ (hs.copyC) }

theorem reportVotes_kept {Q} {a} {s : State} (hs : State.Kept Q s) :
    State.Kept Q (reportVotes a s) := by
  delta reportVotes
  refine foldl_kept ?_ ?_
  · intro x0 hx0 x1
    try beta_reduce
    exact State.report_kept (State.count_kept hx0)
  · exact hs

theorem scrubReg_kept {Q} {a} {s : State} (hs : State.Kept Q s) :
    State.Kept Q (scrubReg a s) := by
  delta scrubReg
  refine kept_ite ?_ ?_
  · exact hs
  · exact State.setReg_kept (reportVotes_kept hs)

theorem votedScrub_kept {Q} {ups} {s : State} (hs : State.Kept Q s) :
    State.Kept Q (votedScrub ups s) := by
  delta votedScrub
  extract_lets -merge -useContext +implicits s_0
  have hs_0 : State.Kept Q s_0 := by
    unfold s_0
    refine foldl_kept ?_ ?_
    · intro x1 hx1 x2
      try beta_reduce
      exact upset_kept hx1
    · exact hs
  try clear_value s_0
  refine kept_ite ?_ ?_
  · refine foldl_kept ?_ ?_
    · intro x3 hx3 x4
      try beta_reduce
      exact scrubReg_kept hx3
    · exact hs_0
  · exact hs_0

end Sys2Proof.Machine
end

