-- ==== Sys2Proof/Laws/KeptClock.lean ====
section
/-! SUPPORT. The operations of Machine/Clock.lean keep `State.Kept`. -/

namespace Sys2Proof.Machine

theorem xoEnable_kept {Q} {s : State} (hs : State.Kept Q s) :
    State.Kept Q (xoEnable s) := by
  delta xoEnable
  refine kept_ite ?_ ?_
  · exact hs
  · exact kept_mk hs

theorem xoDelayEnd_kept {Q} {s : State} (hs : State.Kept Q s) :
    State.Kept Q (xoDelayEnd s) := by
  delta xoDelayEnd
  refine kept_ite ?_ ?_
  · exact kept_mk hs
  · exact hs

theorem clockReady_kept {Q} {k} {s : State} (hs : State.Kept Q s) :
    State.Kept Q (clockReady k s) := by
  delta clockReady
  extract_lets -merge -useContext +implicits ok_0 s_1 _2
  try clear_value ok_0
  have hs_1 : State.Kept Q s_1 := by
    unfold s_1
    exact State.setBit_kept hs
  try clear_value s_1
  try clear_value _2
  refine kept_ite ?_ ?_
  · exact hs
  · refine kept_ite ?_ ?_
    · exact xoEnable_kept hs_1
    · refine kept_ite ?_ ?_
      · exact kept_mk hs_1
      · exact hs_1

theorem setCore_kept {Q} {m} {s : State} (hs : State.Kept Q s) :
    State.Kept Q (setCore m s) := by
  delta setCore
  extract_lets -merge -useContext +implicits old_0 s_1
  try clear_value old_0
  have hs_1 : State.Kept Q s_1 := by
    unfold s_1
    exact State.setFld_kept hs
  try clear_value s_1
  refine kept_ite ?_ ?_
  · exact laceDetach_kept hs_1
  · refine kept_ite ?_ ?_
    · exact laceUpdate_kept hs_1
    · exact hs_1

theorem enterClockHold_kept {Q} {fb} {s : State} (hs : State.Kept Q s) :
    State.Kept Q (enterClockHold fb s) := by
  delta enterClockHold
  refine kept_ite ?_ ?_
  · refine kept_ite ?_ ?_
    · exact kept_mk hs
    · exact hs
  · extract_lets -merge -useContext +implicits _0 s_1 s_2
    try clear_value _0
    have hs_1 : State.Kept Q s_1 := by
      unfold s_1
      exact kept_mk hs
    try clear_value s_1
    have hs_2 : State.Kept Q s_2 := by
      unfold s_2
      exact holdPads_kept (State.setBit_kept hs_1)
    try clear_value s_2
    exact sgGates_kept (State.raise_kept hs_2)

theorem fallBack_kept {Q} {s : State} (hs : State.Kept Q s) :
    State.Kept Q (fallBack s) := by
  delta fallBack
  extract_lets -merge -useContext +implicits fb_0 s_1
  try clear_value fb_0
  have hs_1 : State.Kept Q s_1 := by
    unfold s_1
    refine kept_ite ?_ ?_
    · exact State.setBit_kept hs
    · exact hs
  try clear_value s_1
  refine kept_ite ?_ ?_
  · exact setCore_kept hs_1
  · refine enterClockHold_kept ?_
    refine kept_ite ?_ ?_
    · exact laceDetach_kept hs_1
    · exact hs_1

theorem clockHoldExit_kept {Q} {s : State} (hs : State.Kept Q s) :
    State.Kept Q (clockHoldExit s) := by
  delta clockHoldExit
  split
  · exact hs
  · refine kept_ite ?_ ?_
    · exact hs
    · extract_lets -merge -useContext +implicits _0 _1 s_2 s_3
      try clear_value _0
      try clear_value _1
      have hs_2 : State.Kept Q s_2 := by
        unfold s_2
        exact kept_mk hs
      try clear_value s_2
      have hs_3 : State.Kept Q s_3 := by
        unfold s_3
        exact State.setFld_kept (State.setBit_kept hs_2)
      try clear_value s_3
      exact thaw_kept (setCore_kept hs_3)

theorem clockHoldTimeout_kept {Q} {s : State} (hs : State.Kept Q s) :
    State.Kept Q (clockHoldTimeout s) := by
  delta clockHoldTimeout
  split
  · exact hs
  · refine kept_ite ?_ ?_
    · exact hs
    · exact State.report_kept (State.raise_kept (kept_mk hs))

theorem clearReady_kept {Q} {k} {s : State} (hs : State.Kept Q s) :
    State.Kept Q (clearReady k s) := by
  delta clearReady
  refine kept_ite ?_ ?_
  · exact State.setBit_kept hs
  · refine kept_ite ?_ ?_
    · exact State.setBit_kept hs
    · exact State.setBit_kept hs

theorem swRefused_kept {Q} {s : State} (hs : State.Kept Q s) :
    State.Kept Q (swRefused s) := by
  delta swRefused
  exact State.report_kept (State.raise_kept hs)

theorem clockTrip_kept {Q} {k} {s : State} (hs : State.Kept Q s) :
    State.Kept Q (clockTrip k s) := by
  delta clockTrip
  refine kept_ite ?_ ?_
  · exact hs
  · extract_lets -merge -useContext +implicits ref_0 core_1 held_2 shank_3 pllRole_4 direct_5 newRef_6 s_7 s_8
    try clear_value ref_0
    try clear_value core_1
    try clear_value held_2
    try clear_value shank_3
    try clear_value pllRole_4
    try clear_value direct_5
    try clear_value newRef_6
    have hs_7 : State.Kept Q s_7 := by
      unfold s_7
      exact clearReady_kept (State.raise_kept hs)
    try clear_value s_7
    have hs_8 : State.Kept Q s_8 := by
      unfold s_8
      refine kept_ite ?_ ?_
      · exact swRefused_kept (State.setBit_kept hs_7)
      · exact hs_7
    try clear_value s_8
    refine kept_ite ?_ ?_
    · exact State.reportC_kept (enterClockHold_kept hs_8)
    · refine kept_ite ?_ ?_
      · exact State.reportC_kept (fallBack_kept hs_8)
      · refine kept_ite ?_ ?_
        · exact State.reportC_kept hs_8
        · exact State.reportC_kept hs_8

theorem pllLock_kept {Q} {s : State} (hs : State.Kept Q s) :
    State.Kept Q (pllLock s) := by
  delta pllLock
  refine kept_ite ?_ ?_
  · exact laceUpdate_kept (State.setBit_kept hs)
  · exact hs

theorem ipllLock_kept {Q} {s : State} (hs : State.Kept Q s) :
    State.Kept Q (ipllLock s) := by
  delta ipllLock
  refine kept_ite ?_ ?_
  · exact State.setBit_kept hs
  · exact hs

theorem clkSrcWrite_kept {Q} {m} {w} {s : State} (hs : State.Kept Q s) :
    State.Kept Q (clkSrcWrite m w s) := by
  delta clkSrcWrite
  extract_lets -merge -useContext +implicits old_0 core_1 ref_2 s_3 s_4
  try clear_value old_0
  try clear_value core_1
  try clear_value ref_2
  have hs_3 : State.Kept Q s_3 := by
    unfold s_3
    exact State.setBits_kept hs
  try clear_value s_3
  have hs_4 : State.Kept Q s_4 := by
    unfold s_4
    refine kept_ite ?_ ?_
    · exact hs_3
    · exact State.setBit_kept (State.setBit_kept hs_3)
  try clear_value s_4
  refine kept_ite ?_ ?_
  · exact State.setBits_kept hs
  · refine kept_ite ?_ ?_
    · exact swRefused_kept hs
    · refine kept_ite ?_ ?_
      · exact setCore_kept (State.setBit_kept hs_4)
      · exact setCore_kept (State.setBit_kept hs_4)

theorem refSwitchComplete_kept {Q} {s : State} (hs : State.Kept Q s) :
    State.Kept Q (refSwitchComplete s) := by
  delta refSwitchComplete
  refine kept_ite ?_ ?_
  · exact setCore_kept (State.setBit_kept hs)
  · exact hs

theorem rcoTrimStep_kept {Q} {up} {s : State} (hs : State.Kept Q s) :
    State.Kept Q (rcoTrimStep up s) := by
  delta rcoTrimStep
  refine kept_ite ?_ ?_
  · exact hs
  · extract_lets -merge -useContext +implicits _0 s_1 src_2 s_3 c_4
    try clear_value _0
    have hs_1 : State.Kept Q s_1 := by
      unfold s_1
      exact kept_mk hs
    try clear_value s_1
    try clear_value src_2
    have hs_3 : State.Kept Q s_3 := by
      unfold s_3
      exact State.setFld_kept hs_1
    try clear_value s_3
    try clear_value c_4
    refine kept_ite ?_ ?_
    · exact State.report_kept (State.raise_kept hs_3)
    · refine kept_ite ?_ ?_
      · exact State.setFld_kept (State.free_kept hs_3)
      · exact State.setFld_kept hs_3

theorem State.pullTable_kept {Q} {s : State} (hs : State.Kept Q s) :
    State.Kept Q (State.pullTable s).2 := by
  unfold State.pullTable
  extract_lets -merge -useContext +implicits t_0 pt_1 i_2 f_3 n_4
  try clear_value t_0
  try clear_value pt_1
  try clear_value i_2
  try clear_value f_3
  try clear_value n_4
  refine kept_ite_snd ?_ ?_
  · exact kept_snd (State.free_kept hs)
  · refine kept_ite_snd ?_ ?_
    · exact kept_snd hs
    · exact kept_snd (State.free_kept hs)

theorem State.pullGoal_kept {Q} {s : State} (hs : State.Kept Q s) :
    State.Kept Q (State.pullGoal s).2 := by
  unfold State.pullGoal
  refine kept_ite_snd ?_ ?_
  · exact kept_snd hs
  · extract_lets -merge -useContext +implicits r_0 age_1
    have hr_0 : State.Kept Q r_0.2 := by
      unfold r_0
      refine kept_ite_snd ?_ ?_
      · exact State.pullTable_kept hs
      · exact kept_snd hs
    try clear_value r_0
    try clear_value age_1
    exact kept_snd hr_0

theorem xoPullStep_kept {Q} {s : State} (hs : State.Kept Q s) :
    State.Kept Q (xoPullStep s) := by
  delta xoPullStep
  refine kept_ite ?_ ?_
  · exact hs
  · extract_lets -merge -useContext +implicits _0 s_1 g_2 c_3 c_4
    try clear_value _0
    have hs_1 : State.Kept Q s_1 := by
      unfold s_1
      exact kept_mk hs
    try clear_value s_1
    have hg_2 : State.Kept Q g_2.2 := by
      unfold g_2
      exact State.pullGoal_kept hs_1
    try clear_value g_2
    try clear_value c_3
    try clear_value c_4
    exact State.setBit_kept (State.setFld_kept hg_2)

theorem accessTimeout_kept {Q} {m} {write} {gate} {a} {s : State} (hs : State.Kept Q s) :
    State.Kept Q (accessTimeout m write gate a s) := by
  delta accessTimeout
  extract_lets -merge -useContext +implicits s_0 s_1 s_2
  have hs_0 : State.Kept Q s_0 := by
    unfold s_0
    exact State.count_kept hs
  try clear_value s_0
  have hs_1 : State.Kept Q s_1 := by
    unfold s_1
    refine kept_ite ?_ ?_
    · exact State.raise_kept (State.addSat_kept hs_0)
    · exact hs_0
  try clear_value s_1
  have hs_2 : State.Kept Q s_2 := by
    unfold s_2
    refine kept_ite ?_ ?_
    · exact hs_1
    · exact kept_mk hs_1
  try clear_value s_2
  exact State.reportAccess_kept hs_2

end Sys2Proof.Machine
end

