-- ==== Sys2Proof/Laws/KeptPower.lean ====
section
/-! SUPPORT. The operations of Machine/Power.lean keep `State.Kept`. -/

namespace Sys2Proof.Machine

theorem setQmask_kept {Q} {q} {on} {s : State} (hs : State.Kept Q s) :
    State.Kept Q (setQmask q on s) := by
  delta setQmask
  extract_lets -merge -useContext +implicits m_0
  try clear_value m_0
  exact State.setReg_kept hs

theorem setQsettle_kept {Q} {q} {on} {s : State} (hs : State.Kept Q s) :
    State.Kept Q (setQsettle q on s) := by
  delta setQsettle
  extract_lets -merge -useContext +implicits m_0
  try clear_value m_0
  exact State.setReg_kept hs

theorem quarterOff_kept {Q} {q} {s : State} (hs : State.Kept Q s) :
    State.Kept Q (quarterOff q s) := by
  delta quarterOff
  extract_lets -merge -useContext +implicits s_0 _1 s_2 s_3 s_6
  have hs_0 : State.Kept Q s_0 := by
    unfold s_0
    exact dropPending_kept hs
  try clear_value s_0
  try clear_value _1
  have hs_2 : State.Kept Q s_2 := by
    unfold s_2
    exact kept_mk hs_0
  try clear_value s_2
  have hs_3 : State.Kept Q s_3 := by
    unfold s_3
    refine forAll_kept ?_ ?_
    · intro x4 x5 hx5
      try beta_reduce
      exact lqStop_kept hx5
    · exact hs_2
  try clear_value s_3
  have hs_6 : State.Kept Q s_6 := by
    unfold s_6
    exact State.setBit_kept (setQsettle_kept (setQmask_kept (ledgerRestNow_kept hs_3)))
  try clear_value s_6
  refine kept_ite ?_ ?_
  · exact hs_2
  · refine forAll_kept ?_ ?_
    · intro x7 x8 hx8
      try beta_reduce
      exact State.setChan_kept hx8
    · exact hs_6

theorem allQuartersOff_kept {Q} {s : State} (hs : State.Kept Q s) :
    State.Kept Q (allQuartersOff s) := by
  delta allQuartersOff
  refine forAll_kept ?_ ?_
  · intro x0 x1 hx1
    exact quarterOff_kept hx1
  · exact hs

theorem startWakes_kept {Q} {s : State} (hs : State.Kept Q s) :
    State.Kept Q (startWakes s) := by
  delta startWakes
  extract_lets -merge -useContext +implicits t_0 busy_1 r_2 _3
  try clear_value t_0
  try clear_value busy_1
  try clear_value r_2
  try clear_value _3
  exact kept_mk hs

theorem quarterWake_kept {Q} {q} {s : State} (hs : State.Kept Q s) :
    State.Kept Q (quarterWake q s) := by
  delta quarterWake
  refine kept_ite ?_ ?_
  · exact hs
  · exact startWakes_kept (kept_mk hs)

theorem quarterPowered_kept {Q} {q} {s : State} (hs : State.Kept Q s) :
    State.Kept Q (quarterPowered q s) := by
  delta quarterPowered
  extract_lets -merge -useContext +implicits s_0 s_1 _9 s_10
  have hs_0 : State.Kept Q s_0 := by
    unfold s_0
    exact setQsettle_kept (setQmask_kept (ledgerRestNow_kept hs))
  try clear_value s_0
  have hs_1 : State.Kept Q s_1 := by
    unfold s_1
    refine forAll_kept ?_ ?_
    · intro x2 x3 hx3
      try beta_reduce
      extract_lets -merge -useContext +implicits c_4 _5 s_6
      try clear_value c_4
      try clear_value _5
      have hs_6 : State.Kept Q s_6 := by
        unfold s_6
        exact State.setChan_kept hx3
      try clear_value s_6
      refine forAll_kept ?_ ?_
      · intro x7 x8 hx8
        try beta_reduce
        exact State.setFld_kept hx8
      · exact hs_6
    · exact hs_0
  try clear_value s_1
  try clear_value _9
  have hs_10 : State.Kept Q s_10 := by
    unfold s_10
    exact State.setQ_kept hs_1
  try clear_value s_10
  refine kept_ite ?_ ?_
  · exact dllLocked_kept hs_10
  · exact hs_10

theorem biasSettled_kept {Q} {q} {s : State} (hs : State.Kept Q s) :
    State.Kept Q (biasSettled q s) := by
  delta biasSettled
  split
  · refine kept_ite ?_ ?_
    · exact hs
    · exact startWakes_kept (quarterPowered_kept (kept_mk hs))
  · exact hs

theorem quarterSettleEnd_kept {Q} {q} {s : State} (hs : State.Kept Q s) :
    State.Kept Q (quarterSettleEnd q s) := by
  delta quarterSettleEnd
  refine kept_ite ?_ ?_
  · exact hs
  · extract_lets -merge -useContext +implicits s_0 _1
    have hs_0 : State.Kept Q s_0 := by
      unfold s_0
      exact parkPins_kept (setQsettle_kept hs)
    try clear_value s_0
    try clear_value _1
    refine kept_ite ?_ ?_
    · exact qStart_kept (kept_mk hs_0)
    · exact hs_0

theorem qoffWrite_kept {Q} {m} {s : State} (hs : State.Kept Q s) :
    State.Kept Q (qoffWrite m s) := by
  delta qoffWrite
  refine forAll_kept ?_ ?_
  · intro x0 x1 hx1
    exact quarterOff_kept hx1
  · exact hs

theorem qonWrite_kept {Q} {m} {s : State} (hs : State.Kept Q s) :
    State.Kept Q (qonWrite m s) := by
  delta qonWrite
  refine forAll_kept ?_ ?_
  · intro x0 x1 hx1
    exact quarterWake_kept hx1
  · exact hs

theorem setPstate_kept {Q} {t} {s : State} (hs : State.Kept Q s) :
    State.Kept Q (setPstate t s) := by
  delta setPstate
  extract_lets -merge -useContext +implicits s_0 _1
  have hs_0 : State.Kept Q s_0 := by
    unfold s_0
    exact State.raise_kept (State.setFld_kept hs)
  try clear_value s_0
  try clear_value _1
  exact sgGates_kept (kept_mk hs_0)

theorem rejectAccess_kept {Q} {m} {write} {a} {s : State} (hs : State.Kept Q s) :
    State.Kept Q (rejectAccess m write a s) := by
  delta rejectAccess
  extract_lets -merge -useContext +implicits s_0
  have hs_0 : State.Kept Q s_0 := by
    unfold s_0
    refine kept_ite ?_ ?_
    · exact hs
    · exact kept_mk hs
  try clear_value s_0
  exact State.reportAccess_kept (State.raise_kept hs_0)

theorem rejectStalled_kept {Q} {s : State} (hs : State.Kept Q s) :
    State.Kept Q (rejectStalled s) := by
  delta rejectStalled
  extract_lets -merge -useContext +implicits l_0 _1 s_2
  try clear_value l_0
  try clear_value _1
  have hs_2 : State.Kept Q s_2 := by
    unfold s_2
    exact kept_mk hs
  try clear_value s_2
  refine foldl_kept ?_ ?_
  · intro x3 hx3 x4
    try beta_reduce
    exact rejectAccess_kept hx3
  · exact hs_2

theorem startEntry_kept {Q} {t} {s : State} (hs : State.Kept Q s) :
    State.Kept Q (startEntry t s) := by
  delta startEntry
  extract_lets -merge -useContext +implicits s_0 _1 s_2 s_3 s_4 s_5 s_6 s_7 s_8 _9 _10
  have hs_0 : State.Kept Q s_0 := by
    unfold s_0
    exact State.setFld_kept (State.setBit_kept hs)
  try clear_value s_0
  try clear_value _1
  have hs_2 : State.Kept Q s_2 := by
    unfold s_2
    exact kept_mk hs_0
  try clear_value s_2
  have hs_3 : State.Kept Q s_3 := by
    unfold s_3
    exact rejectStalled_kept (allQuartersOff_kept hs_2)
  try clear_value s_3
  have hs_4 : State.Kept Q s_4 := by
    unfold s_4
    refine kept_ite ?_ ?_
    · exact sgGates_kept (holdPads_kept hs_3)
    · exact hs_3
  try clear_value s_4
  have hs_5 : State.Kept Q s_5 := by
    unfold s_5
    exact laceDetachCmd_kept hs_4
  try clear_value s_5
  have hs_6 : State.Kept Q s_6 := by
    unfold s_6
    exact laceDetach_kept hs_5
  try clear_value s_6
  have hs_7 : State.Kept Q s_7 := by
    unfold s_7
    exact setCore_kept hs_6
  try clear_value s_7
  have hs_8 : State.Kept Q s_8 := by
    unfold s_8
    exact State.setBit_kept (State.setBit_kept (State.setBit_kept hs_7))
  try clear_value s_8
  have h_9 : State.Kept Q _9 := by
    unfold _9
    exact State.setFld_kept hs_8
  try clear_value _9
  try clear_value _10
  refine kept_ite ?_ ?_
  · exact hs_3
  · refine kept_ite ?_ ?_
    · exact hs_8
    · exact kept_mk h_9

theorem powerReq_kept {Q} {t} {s : State} (hs : State.Kept Q s) :
    State.Kept Q (powerReq t s) := by
  delta powerReq
  extract_lets -merge -useContext +implicits s_0
  have hs_0 : State.Kept Q s_0 := by
    unfold s_0
    exact State.setFld_kept hs
  try clear_value s_0
  refine kept_ite ?_ ?_
  · exact State.raise_kept hs_0
  · refine kept_ite ?_ ?_
    · exact hs_0
    · refine kept_ite ?_ ?_
      · exact State.raise_kept hs_0
      · refine kept_ite ?_ ?_
        · exact setPstate_kept hs_0
        · refine kept_ite ?_ ?_
          · exact startExit_kept hs_0
          · exact startEntry_kept hs_0

theorem replayWake_kept {Q} {s : State} (hs : State.Kept Q s) :
    State.Kept Q (replayWake s) := by
  delta replayWake
  refine kept_ite ?_ ?_
  · exact hs
  · exact startExit_kept (State.raise_kept (kept_mk hs))

theorem clearPres_kept {Q} {s : State} (hs : State.Kept Q s) :
    State.Kept Q (clearPres s) := by
  delta clearPres
  refine forAll_kept ?_ ?_
  · intro x0 x1 hx1
    try beta_reduce
    exact State.setReg_kept hx1
  · exact hs

theorem shankTimer_kept {Q} {s : State} (hs : State.Kept Q s) :
    State.Kept Q (shankTimer s) := by
  delta shankTimer
  extract_lets -merge -useContext +implicits n_0 _1
  try clear_value n_0
  try clear_value _1
  refine kept_ite ?_ ?_
  · exact hs
  · exact wakeEvent_kept (kept_mk hs)

theorem pgoodLost_kept {Q} {s : State} (hs : State.Kept Q s) :
    State.Kept Q (pgoodLost s) := by
  delta pgoodLost
  refine kept_ite ?_ ?_
  · exact hs
  · exact State.report_kept (State.raise_kept hs)

theorem vidTimeout_kept {Q} {s : State} (hs : State.Kept Q s) :
    State.Kept Q (vidTimeout s) := by
  delta vidTimeout
  split
  · exact hs
  · refine kept_ite ?_ ?_
    · exact hs
    · extract_lets -merge -useContext +implicits s_0 _1 s_2
      have hs_0 : State.Kept Q s_0 := by
        unfold s_0
        exact State.report_kept (State.raise_kept hs)
      try clear_value s_0
      try clear_value _1
      have hs_2 : State.Kept Q s_2 := by
        unfold s_2
        exact kept_mk hs_0
      try clear_value s_2
      refine kept_ite ?_ ?_
      · exact State.setBit_kept hs_2
      · exact hs_2

theorem padRelease_kept {Q} {s : State} (hs : State.Kept Q s) :
    State.Kept Q (padRelease s) := by
  delta padRelease
  refine kept_ite ?_ ?_
  · exact hs
  · refine kept_ite ?_ ?_
    · exact State.raise_kept hs
    · exact sgGates_kept (State.setBit_kept hs)

theorem setPres_kept {Q} {i} {v} {fail} {s : State} (hs : State.Kept Q s) :
    State.Kept Q (setPres i v fail s) := by
  delta setPres
  extract_lets -merge -useContext +implicits c_0
  try clear_value c_0
  exact State.setReg_kept (State.setReg_kept hs)

theorem patrolResult_kept {Q} {e} {rs} {ok} {acc} (hacc : State.Kept Q acc.1) :
    State.Kept Q (patrolResult e rs ok acc).1 := by
  unfold patrolResult
  extract_lets -merge -useContext +implicits s_0 n_3 _4 s_5
  have hs_0 : State.Kept Q s_0 := by
    unfold s_0
    refine foldl_kept ?_ ?_
    · intro x1 hx1 x2
      try beta_reduce
      exact setPres_kept hx1
    · exact hacc
  try clear_value s_0
  try clear_value n_3
  try clear_value _4
  have hs_5 : State.Kept Q s_5 := by
    unfold s_5
    exact kept_mk hs_0
  try clear_value s_5
  exact kept_fst hs_5

theorem patrolSg_kept {Q} {i} {acc} (hacc : State.Kept Q acc.1) :
    State.Kept Q (patrolSg i acc).1 := by
  unfold patrolSg
  extract_lets -merge -useContext +implicits s_0 n_1 v_2 a_3 inside_4
  have hs_0 : State.Kept Q s_0 := by
    unfold s_0
    exact hacc
  try clear_value s_0
  try clear_value n_1
  try clear_value v_2
  try clear_value a_3
  try clear_value inside_4
  refine kept_ite_fst ?_ ?_
  · exact hacc
  · exact patrolResult_kept hacc

theorem patrolPpmu_kept {Q} {ps} {k} {acc} (hacc : State.Kept Q acc.1) :
    State.Kept Q (patrolPpmu ps k acc).1 := by
  unfold patrolPpmu
  extract_lets -merge -useContext +implicits s_0 c_1 w_2 need_3 _4
  have hs_0 : State.Kept Q s_0 := by
    unfold s_0
    exact hacc
  try clear_value s_0
  try clear_value c_1
  try clear_value w_2
  try clear_value need_3
  try clear_value _4
  refine kept_ite_fst ?_ ?_
  · exact hacc
  · split
    · exact hacc
    · extract_lets -merge -useContext +implicits s_5 s_6 r_7 lo_8 hi_9
      have hs_5 : State.Kept Q s_5 := by
        unfold s_5
        exact State.setPmu_kept hs_0
      try clear_value s_5
      have hs_6 : State.Kept Q s_6 := by
        unfold s_6
        exact pmuFinish_kept hs_5
      try clear_value s_6
      try clear_value r_7
      try clear_value lo_8
      try clear_value hi_9
      exact patrolResult_kept (kept_fst hs_6)

end Sys2Proof.Machine
end

