-- ==== Sys2Proof/Laws/KeptThermal.lean ====
section
/-! SUPPORT. The operations of Machine/Thermal.lean keep `State.Kept`. -/

namespace Sys2Proof.Machine

theorem setBroken_kept {Q} {i} {b} {s : State} (hs : State.Kept Q s) :
    State.Kept Q (setBroken i b s) := by
  delta setBroken
  exact State.setBit_kept hs

theorem crossCheck_kept {Q} {rs} {s0 : State} {i} {s : State} (hs0 : State.Kept Q s0) (hs : State.Kept Q s) :
    State.Kept Q (crossCheck rs s0 i s) := by
  delta crossCheck
  extract_lets -merge -useContext +implicits dev_0 n_1 _2 s_3 s_4
  try clear_value dev_0
  try clear_value n_1
  try clear_value _2
  have hs_3 : State.Kept Q s_3 := by
    unfold s_3
    exact kept_mk hs
  try clear_value s_3
  have hs_4 : State.Kept Q s_4 := by
    unfold s_4
    exact State.report_kept (State.raise_kept (setBroken_kept hs_3))
  try clear_value s_4
  refine kept_ite ?_ ?_
  · exact hs_3
  · refine kept_ite ?_ ?_
    · exact State.report_kept (State.raise_kept hs_4)
    · exact hs_4

theorem thermalNap_kept {Q} {s : State} (hs : State.Kept Q s) :
    State.Kept Q (thermalNap s) := by
  delta thermalNap
  refine kept_ite ?_ ?_
  · exact kept_mk hs
  · refine kept_ite ?_ ?_
    · exact kept_mk hs
    · refine kept_ite ?_ ?_
      · exact kept_mk hs
      · extract_lets -merge -useContext +implicits s_0 _1
        have hs_0 : State.Kept Q s_0 := by
          unfold s_0
          refine kept_ite ?_ ?_
          · exact surveyRelease_kept hs
          · exact hs
        try clear_value s_0
        try clear_value _1
        exact startEntry_kept (kept_mk hs_0)

theorem thermalHoldEnd_kept {Q} {s : State} (hs : State.Kept Q s) :
    State.Kept Q (thermalHoldEnd s) := by
  delta thermalHoldEnd
  refine kept_ite ?_ ?_
  · exact hs
  · exact kept_mk hs

theorem thermalResume_kept {Q} {s : State} (hs : State.Kept Q s) :
    State.Kept Q (thermalResume s) := by
  delta thermalResume
  refine kept_ite ?_ ?_
  · exact thermalNap_kept hs
  · exact hs

theorem thermalAct_kept {Q} {old} {s : State} (hs : State.Kept Q s) :
    State.Kept Q (thermalAct old s) := by
  delta thermalAct
  extract_lets -merge -useContext +implicits h_0 w_1 s_2 s_3 _4 s_5
  try clear_value h_0
  try clear_value w_1
  have hs_2 : State.Kept Q s_2 := by
    unfold s_2
    refine kept_ite ?_ ?_
    · exact wakeEvent_kept (State.report_kept (State.raise_kept (State.setBit_kept hs)))
    · refine kept_ite ?_ ?_
      · exact State.setBit_kept hs
      · exact hs
  try clear_value s_2
  have hs_3 : State.Kept Q s_3 := by
    unfold s_3
    refine kept_ite ?_ ?_
    · exact thermalNap_kept (State.report_kept (State.raise_kept hs_2))
    · exact hs_2
  try clear_value s_3
  try clear_value _4
  have hs_5 : State.Kept Q s_5 := by
    unfold s_5
    refine kept_ite ?_ ?_
    · exact thaw_kept (kept_mk hs_3)
    · exact hs_3
  try clear_value s_5
  exact State.setFld_kept hs_5

theorem inForce_kept {Q} {rs} {i} {s : State} (hs : State.Kept Q s) :
    State.Kept Q (inForce rs i s) := by
  delta inForce
  extract_lets -merge -useContext +implicits put_0
  have hput_0 : ∀ y0,  State.Kept Q (put_0 y0) := by
    intro x1
    unfold put_0
    try beta_reduce
    exact State.setReg_kept hs
  try clear_value put_0
  refine kept_ite ?_ ?_
  · split
    · refine hput_0 _
    · exact hs
  · split
    · refine hput_0 _
    · exact hs

theorem thmReading_kept {Q} {rs} {s : State} (hs : State.Kept Q s) :
    State.Kept Q (thmReading rs s) := by
  delta thmReading
  refine kept_ite ?_ ?_
  · exact hs
  · extract_lets -merge -useContext +implicits old_0 all_1 s_2 s_5 s_8 known_11 h_12 s_13 s_16
    try clear_value old_0
    try clear_value all_1
    have hs_2 : State.Kept Q s_2 := by
      unfold s_2
      refine forAll_kept ?_ ?_
      · intro x3 x4 hx4
        try beta_reduce
        split
        · exact State.setReg_kept hx4
        · exact hx4
      · exact hs
    try clear_value s_2
    have hs_5 : State.Kept Q s_5 := by
      unfold s_5
      refine kept_ite ?_ ?_
      · refine forAll_kept ?_ ?_
        · intro x6 x7 hx7
          refine crossCheck_kept ?_ ?_
          · exact hs_2
          · exact hx7
        · exact hs_2
      · exact hs_2
    try clear_value s_5
    have hs_8 : State.Kept Q s_8 := by
      unfold s_8
      refine forAll_kept ?_ ?_
      · intro x9 x10 hx10
        exact inForce_kept hx10
      · exact hs_5
    try clear_value s_8
    try clear_value known_11
    try clear_value h_12
    have hs_13 : State.Kept Q s_13 := by
      unfold s_13
      refine forAll_kept ?_ ?_
      · intro x14 x15 hx15
        try beta_reduce
        exact State.setReg_kept hx15
      · exact hs_8
    try clear_value s_13
    have hs_16 : State.Kept Q s_16 := by
      unfold s_16
      exact thermalAct_kept (State.setReg_kept hs_13)
    try clear_value s_16
    refine forAll_kept ?_ ?_
    · intro x17 x18 hx18
      try beta_reduce
      extract_lets -merge -useContext +implicits d_19
      try clear_value d_19
      refine kept_ite ?_ ?_
      · exact relockRequest_kept hx18
      · exact hx18
    · exact hs_16

theorem patrolTemp_kept {Q} {ts} {j} {acc} (hacc : State.Kept Q acc.1) :
    State.Kept Q (patrolTemp ts j acc).1 := by
  unfold patrolTemp
  extract_lets -merge -useContext +implicits s_0 i_1 t_2
  have hs_0 : State.Kept Q s_0 := by
    unfold s_0
    exact hacc
  try clear_value s_0
  try clear_value i_1
  try clear_value t_2
  refine kept_ite_fst ?_ ?_
  · exact hacc
  · exact patrolResult_kept hacc

theorem patrolReadings_kept {Q} {ts} {s : State} (hs : State.Kept Q s) :
    State.Kept Q (patrolReadings ts s) := by
  delta patrolReadings
  extract_lets -merge -useContext +implicits old_0 is_1 s_2
  try clear_value old_0
  try clear_value is_1
  have hs_2 : State.Kept Q s_2 := by
    unfold s_2
    refine forAll_kept ?_ ?_
    · intro x3 x4 hx4
      try beta_reduce
      extract_lets -merge -useContext +implicits t_5 s_6
      try clear_value t_5
      have hs_6 : State.Kept Q s_6 := by
        unfold s_6
        exact State.setReg_kept hx4
      try clear_value s_6
      refine kept_ite ?_ ?_
      · exact hs_6
      · exact State.setReg_kept hs_6
    · exact hs
  try clear_value s_2
  split
  · exact hs_2
  · exact thermalAct_kept (State.setReg_kept hs_2)

theorem patrolCycle_kept {Q} {ts} {ps} {dur} {s : State} (hs : State.Kept Q s) :
    State.Kept Q (patrolCycle ts ps dur s) := by
  delta patrolCycle
  refine kept_ite ?_ ?_
  · exact hs
  · extract_lets -merge -useContext +implicits t_0 next_1 _2 s_3 s_4 r_5 r_8 r_11
    try clear_value t_0
    try clear_value next_1
    try clear_value _2
    have hs_3 : State.Kept Q s_3 := by
      unfold s_3
      exact kept_mk hs
    try clear_value s_3
    have hs_4 : State.Kept Q s_4 := by
      unfold s_4
      refine kept_ite ?_ ?_
      · exact State.raise_kept hs_3
      · exact hs_3
    try clear_value s_4
    have hr_5 : State.Kept Q r_5.1 := by
      unfold r_5
      refine foldl_kept_fst ?_ ?_
      · intro x6 hx6 x7
        try beta_reduce
        exact patrolSg_kept hx6
      · exact kept_fst (patrolReadings_kept hs_4)
    try clear_value r_5
    have hr_8 : State.Kept Q r_8.1 := by
      unfold r_8
      refine foldl_kept_fst ?_ ?_
      · intro x9 hx9 x10
        try beta_reduce
        exact patrolTemp_kept hx9
      · exact hr_5
    try clear_value r_8
    have hr_11 : State.Kept Q r_11.1 := by
      unfold r_11
      refine foldl_kept_fst ?_ ?_
      · intro x12 hx12 x13
        try beta_reduce
        exact patrolPpmu_kept hx12
      · exact hr_8
    try clear_value r_11
    split
    · exact hr_11
    · exact wakeEvent_kept (State.raise_kept (State.setFld_kept hr_11))

theorem brokenClear_kept {Q} {m} {s : State} (hs : State.Kept Q s) :
    State.Kept Q (brokenClear m s) := by
  delta brokenClear
  refine forAll_kept ?_ ?_
  · intro x0 x1 hx1
    try beta_reduce
    exact setBroken_kept (kept_mk hx1)
  · exact hs

theorem backstopTrip_kept {Q} {s : State} (hs : State.Kept Q s) :
    State.Kept Q (backstopTrip s) := by
  delta backstopTrip
  refine kept_ite ?_ ?_
  · exact hs
  · extract_lets -merge -useContext +implicits s_0 s_1 s_2
    have hs_0 : State.Kept Q s_0 := by
      unfold s_0
      exact State.setBit_kept (holdPads_kept hs)
    try clear_value s_0
    have hs_1 : State.Kept Q s_1 := by
      unfold s_1
      exact kept_mk hs_0
    try clear_value s_1
    have hs_2 : State.Kept Q s_2 := by
      unfold s_2
      exact setCore_kept (laceDetach_kept (allQuartersOff_kept hs_1))
    try clear_value s_2
    exact sgGates_kept (State.setBit_kept (State.setBit_kept hs_2))

end Sys2Proof.Machine
end

