-- ==== Sys2Proof/Laws/KeptReset.lean ====
section
/-! SUPPORT. The operations of Machine/Reset.lean keep `State.Kept`. -/

namespace Sys2Proof.Machine

theorem resetRegs_kept {Q} {keep} {s : State} (hs : State.Kept Q s) : State.Kept Q (resetRegs keep s) :=
  { hs with
    regs := tabFilter_wf _ _ hs.regs, copyB := tabFilter_wf _ _ hs.copyB, copyC := tabFilter_wf _ _ hs.copyC,
    hostRc := tabFilter_wf _ _ hs.hostRc, spx1Rc := tabFilter_wf _ _ hs.spx1Rc, holdH := tabFilter_wf _ _ hs.holdH,
    holdS := tabFilter_wf _ _ hs.holdS, posted := tabFilter_wf _ _ hs.posted, handed := tabFilter_wf _ _ hs.handed }

theorem resetQuarter_kept {Q} {q} {s : State} (hs : State.Kept Q s) :
    State.Kept Q (resetQuarter q s) := by
  delta resetQuarter
  extract_lets -merge -useContext +implicits s_0 s_1 s_2 s_3 s_7 _10 _11 s_12
  have hs_0 : State.Kept Q s_0 := by
    unfold s_0
    exact State.setQ_kept hs
  try clear_value s_0
  have hs_1 : State.Kept Q s_1 := by
    unfold s_1
    exact State.setM_kept hs_0
  try clear_value s_1
  have hs_2 : State.Kept Q s_2 := by
    unfold s_2
    exact State.setR_kept hs_1
  try clear_value s_2
  have hs_3 : State.Kept Q s_3 := by
    unfold s_3
    refine forAll_kept ?_ ?_
    · intro x4 x5 hx5
      try beta_reduce
      extract_lets -merge -useContext +implicits c_6
      try clear_value c_6
      exact State.setPmu_kept (State.setChan_kept hx5)
    · exact hs_2
  try clear_value s_3
  have hs_7 : State.Kept Q s_7 := by
    unfold s_7
    refine forAll_kept ?_ ?_
    · intro x8 x9 hx9
      try beta_reduce
      exact State.setTdc_kept hx9
    · exact hs_3
  try clear_value s_7
  try clear_value _10
  try clear_value _11
  have hs_12 : State.Kept Q s_12 := by
    unfold s_12
    exact { hs_7 with adcs := by dsimp only; exact tabFilter_wf _ _ (hs_7.adcs), adcAt := by dsimp only; exact tabFilter_wf _ _ (hs_7.adcAt) }
  try clear_value s_12
  exact resWait_kept (showArb_kept (State.setTxn_kept (portReset_kept hs_12)))

theorem lqAborted_kept {Q} {s0 : State} {cs} {s : State} (hs0 : State.Kept Q s0) (hs : State.Kept Q s) :
    State.Kept Q (lqAborted s0 cs s) := by
  delta lqAborted
  refine forAll_kept ?_ ?_
  · intro x0 x1 hx1
    try beta_reduce
    exact State.raise_kept hx1
  · exact hs

theorem reforce_kept {Q} {q} {s : State} (hs : State.Kept Q s) :
    State.Kept Q (reforce q s) := by
  delta reforce
  refine forAll_kept ?_ ?_
  · intro x0 x1 hx1
    try beta_reduce
    extract_lets -merge -useContext +implicits c_2
    try clear_value c_2
    refine kept_ite ?_ ?_
    · exact safeChan_kept hx1
    · refine kept_ite ?_ ?_
      · exact forceOnce_kept hx1
      · exact hx1
  · exact hs

theorem warmQuarter_kept {Q} {q} {s0 : State} (hs0 : State.Kept Q s0) :
    State.Kept Q (warmQuarter q s0) := by
  delta warmQuarter
  extract_lets -merge -useContext +implicits n_0 s_1 s_2 s_3 s_6 ring_7 s_8
  try clear_value n_0
  have hs_1 : State.Kept Q s_1 := by
    unfold s_1
    exact flushStream_kept (ledgerSettle_kept hs0)
  try clear_value s_1
  have hs_2 : State.Kept Q s_2 := by
    unfold s_2
    exact resetRegs_kept hs_1
  try clear_value s_2
  have hs_3 : State.Kept Q s_3 := by
    unfold s_3
    refine forAll_kept ?_ ?_
    · intro x4 x5 hx5
      try beta_reduce
      exact State.setEnt_kept hx5
    · exact hs_2
  try clear_value s_3
  have hs_6 : State.Kept Q s_6 := by
    unfold s_6
    exact showFill_kept (resetQuarter_kept hs_3)
  try clear_value s_6
  try clear_value ring_7
  have hs_8 : State.Kept Q s_8 := by
    unfold s_8
    exact centralWrite_kept hs_6
  try clear_value s_8
  refine reforce_kept ?_
  refine lqAborted_kept ?_ ?_
  · exact hs0
  · exact invalidate_kept hs_8

theorem keepSources_kept {Q} {old : State} {s : State} (hold : State.Kept Q old) (hs : State.Kept Q s) :
    State.Kept Q (keepSources old s) := by
  delta keepSources
  extract_lets -merge -useContext +implicits s_0
  have hs_0 : State.Kept Q s_0 := by
    unfold s_0
    refine forAll_kept ?_ ?_
    · intro x1 x2 hx2
      try beta_reduce
      exact State.setBit_kept hx2
    · exact hs
  try clear_value s_0
  exact State.setBit_kept hs_0

theorem resetBlocks_kept {Q} {s : State} (hs : State.Kept Q s) :
    State.Kept Q (resetBlocks s) := by
  delta resetBlocks
  extract_lets -merge -useContext +implicits w_0 s_1 _4
  try clear_value w_0
  have hs_1 : State.Kept Q s_1 := by
    unfold s_1
    refine forAll_kept ?_ ?_
    · intro x2 x3 hx3
      try beta_reduce
      exact State.setM_kept (resetQuarter_kept hx3)
    · exact hs
  try clear_value s_1
  try clear_value _4
  exact { hs_1 with win := by dsimp only; exact tabFilter_wf _ _ (hs_1.win), evcs := rfl, txns := rfl, srcs := rfl, sgs := rfl, rings := rfl, dlls := rfl, ports := rfl, calch := rfl }

theorem coldReset_kept {Q} {s0 : State} (hs0 : State.Kept Q s0) :
    State.Kept Q (coldReset s0) := by
  delta coldReset
  extract_lets -merge -useContext +implicits s_0 s_1 _2 _3 s_4
  have hs_0 : State.Kept Q s_0 := by
    unfold s_0
    exact resetBlocks_kept (resetRegs_kept hs0)
  try clear_value s_0
  have hs_1 : State.Kept Q s_1 := by
    unfold s_1
    refine keepSources_kept ?_ ?_
    · exact hs0
    · exact hs_0
  try clear_value s_1
  have h_2 : State.Kept Q _2 := by
    unfold _2
    exact State.setBit_kept (State.setFld_kept hs_1)
  try clear_value _2
  try clear_value _3
  have hs_4 : State.Kept Q s_4 := by
    unfold s_4
    exact kept_mk h_2
  try clear_value s_4
  refine forAll_kept ?_ ?_
  · intro x5 x6 hx6
    exact reforce_kept hx6
  · refine lqAborted_kept ?_ ?_
    · exact hs0
    · exact hs_4

theorem setCauseBit_kept {Q} {b} {s : State} (hs : State.Kept Q s) :
    State.Kept Q (setCauseBit b s) := by
  delta setCauseBit
  exact State.setRc_kept hs

theorem bootFrom_kept {Q} {n} {s : State} (hs : State.Kept Q s) :
    State.Kept Q (bootFrom n s) := by
  delta bootFrom
  extract_lets -merge -useContext +implicits _0
  have h_0 : State.Kept Q _0 := by
    unfold _0
    exact State.setFld_kept hs
  try clear_value _0
  exact kept_mk h_0

theorem coldCommand_kept {Q} {s : State} (hs : State.Kept Q s) :
    State.Kept Q (coldCommand s) := by
  delta coldCommand
  extract_lets -merge -useContext +implicits s_0 _1
  have hs_0 : State.Kept Q s_0 := by
    unfold s_0
    exact bootFrom_kept (setCauseBit_kept (coldReset_kept hs))
  try clear_value s_0
  try clear_value _1
  exact kept_mk hs_0

theorem siteOnly_wf {t : Tab Chan} (h : tabWf (fun _ => ({} : Chan)) t = true) :
    tabWf (fun _ => ({} : Chan)) ((t.map fun e => (e.1, ({ site := e.2.site } : Chan))).filter fun e => e.2.site.isSome) = true := by
  induction t with
  | nil => rfl
  | cons e t ih =>
    rw [tabWf_cons] at h
    obtain ⟨_, h2, h3⟩ := h
    rw [List.map_cons, List.filter_cons]
    split
    · rename_i hs
      rw [tabWf_cons]
      refine ⟨?_, ?_, ih h3⟩
      · intro h
        have : e.2.site = none := congrArg Chan.site h
        simp [this] at hs
      · intro x hx
        obtain ⟨y, hy, rfl⟩ := List.mem_map.1 (List.mem_filter.1 hx).1
        exact h2 y hy
    · exact ih h3

theorem fullReset_kept {Q} {straps} {cause} {power} {s : State} (hs : State.Kept Q s) :
    State.Kept Q (fullReset straps cause power s) := by
  delta fullReset
  extract_lets -merge -useContext +onlyGivenNames slews t u
  have hw : tabWf winReset t.win = true := by
    show tabWf winReset (if power then _ else _) = true
    split
    · rfl
    · exact tabFilter_wf _ _ hs.win
  have hc : tabWf (fun _ => ({} : Chan)) t.chans = true := by
    show tabWf (fun _ => ({} : Chan)) (if power then _ else _) = true
    split
    · rfl
    · exact siteOnly_wf hs.chans
  have hr : tabWf regReset t.regs = true := tabFilter_wf _ _ hs.regs
  have ht : State.Kept Q t := by
    refine ⟨?_, hs.pending⟩
    constructor <;> first | rfl | exact hw | exact hc | exact hr | exact hs.installed
  exact kept_ite (bootFrom_kept (setCauseBit_kept ht)) (lqAborted_kept hs (bootFrom_kept (setCauseBit_kept ht)))

theorem powerOn_kept {Q} {straps} {gib32} {s : State} (hs : State.Kept Q s) : State.Kept Q (powerOn straps gib32 s) := by
  refine fullReset_kept { hs with installed := ?_ }
  cases gib32
  · exact .inl rfl
  · exact .inr rfl

theorem warmCommand_kept {Q} {s : State} (hs : State.Kept Q s) :
    State.Kept Q (warmCommand s) := by
  delta warmCommand
  refine kept_ite ?_ ?_
  · exact State.raise_kept hs
  · extract_lets -merge -useContext +implicits m_0
    try clear_value m_0
    refine forAll_kept ?_ ?_
    · intro x1 x2 hx2
      exact warmQuarter_kept hx2
    · exact setCauseBit_kept hs

theorem rstWrite_kept {Q} {w} {straps} {s : State} (hs : State.Kept Q s) :
    State.Kept Q (rstWrite w straps s) := by
  delta rstWrite
  refine kept_ite ?_ ?_
  · exact hs
  · refine kept_ite ?_ ?_
    · exact fullReset_kept hs
    · refine kept_ite ?_ ?_
      · exact coldCommand_kept hs
      · refine kept_ite ?_ ?_
        · exact warmCommand_kept hs
        · exact hs

theorem losePower_kept {Q} {s0 : State} (hs0 : State.Kept Q s0) :
    State.Kept Q (losePower s0) := by
  delta losePower
  extract_lets -merge -useContext +implicits s_0 _1 s_2
  have hs_0 : State.Kept Q s_0 := by
    unfold s_0
    exact resetBlocks_kept (resetRegs_kept hs0)
  try clear_value s_0
  try clear_value _1
  have hs_2 : State.Kept Q s_2 := by
    unfold s_2
    exact { hs_0 with win := rfl, hbm := rfl }
  try clear_value s_2
  exact State.setFld_kept (State.setBit_kept hs_2)

theorem entryComplete_kept {Q} {s : State} (hs : State.Kept Q s) :
    State.Kept Q (entryComplete s) := by
  delta entryComplete
  refine kept_ite ?_ ?_
  · exact hs
  · extract_lets -merge -useContext +implicits t_0 _1 _2 s_3 s_4 s_5 _6 s_7
    try clear_value t_0
    have h_1 : State.Kept Q _1 := by
      unfold _1
      exact State.setBit_kept hs
    try clear_value _1
    try clear_value _2
    have hs_3 : State.Kept Q s_3 := by
      unfold s_3
      exact kept_mk h_1
    try clear_value s_3
    have hs_4 : State.Kept Q s_4 := by
      unfold s_4
      refine kept_ite ?_ ?_
      · exact losePower_kept hs_3
      · refine kept_ite ?_ ?_
        · exact clearPres_kept hs_3
        · exact hs_3
    try clear_value s_4
    have hs_5 : State.Kept Q s_5 := by
      unfold s_5
      exact setPstate_kept hs_4
    try clear_value s_5
    try clear_value _6
    have hs_7 : State.Kept Q s_7 := by
      unfold s_7
      exact kept_mk hs_5
    try clear_value s_7
    exact replayWake_kept (thermalResume_kept hs_7)

theorem exitComplete_kept {Q} {s : State} (hs : State.Kept Q s) :
    State.Kept Q (exitComplete s) := by
  delta exitComplete
  refine kept_ite ?_ ?_
  · exact hs
  · refine kept_ite ?_ ?_
    · refine kept_ite ?_ ?_
      · exact hs
      · refine setPstate_kept ?_
        extract_lets -merge -useContext +implicits _0 _1
        have h_0 : State.Kept Q _0 := by
          unfold _0
          exact State.setBit_kept hs
        try clear_value _0
        try clear_value _1
        exact kept_mk h_0
    · refine kept_ite ?_ ?_
      · exact hs
      · extract_lets -merge -useContext +implicits _2 _3 s_4 s_5 s_6 s_7 s_8 _11
        have h_2 : State.Kept Q _2 := by
          unfold _2
          exact State.setBit_kept hs
        try clear_value _2
        try clear_value _3
        have hs_4 : State.Kept Q s_4 := by
          unfold s_4
          exact kept_mk h_2
        try clear_value s_4
        have hs_5 : State.Kept Q s_5 := by
          unfold s_5
          exact setCore_kept hs_4
        try clear_value s_5
        have hs_6 : State.Kept Q s_6 := by
          unfold s_6
          refine kept_ite ?_ ?_
          · exact State.setFld_kept hs_5
          · exact hs_5
        try clear_value s_6
        have hs_7 : State.Kept Q s_7 := by
          unfold s_7
          exact setPstate_kept hs_6
        try clear_value s_7
        have hs_8 : State.Kept Q s_8 := by
          unfold s_8
          refine forAll_kept ?_ ?_
          · intro x9 x10 hx10
            exact quarterPowered_kept hx10
          · exact hs_7
        try clear_value s_8
        try clear_value _11
        exact thermalResume_kept (kept_mk hs_8)

end Sys2Proof.Machine
end

