-- ==== Sys2Proof/Laws/KeptViews.lean ====
section
/-! SUPPORT. The operations of Machine/Views.lean keep `State.Kept`. -/

namespace Sys2Proof.Machine

theorem State.setHold_kept {Q} {s : State} {m} {a} {v} (hs : State.Kept Q s) :
    State.Kept Q (State.setHold s m a v) := by
  delta State.setHold
  refine kept_ite ?_ ?_
  · exact { hs with holdS := by dsimp only; exact tabSet_wf _ _ _ _ (hs.holdS) }
  · exact { hs with holdH := by dsimp only; exact tabSet_wf _ _ _ _ (hs.holdH) }

theorem feRead_kept {Q} {m} {s : State} (hs : State.Kept Q s) :
    State.Kept Q (feRead m s) := by
  delta feRead
  extract_lets -merge -useContext +implicits f_0 f_1
  try clear_value f_0
  try clear_value f_1
  refine kept_ite ?_ ?_
  · exact kept_mk hs
  · exact kept_mk hs

theorem readEffect_kept {Q} {m} {a} {rc} {s : State} (hs : State.Kept Q s) :
    State.Kept Q (readEffect m a rc s) := by
  delta readEffect
  extract_lets -merge -useContext +implicits s_0 t_1 t_4 t_5 q_6 _7 t_8 _9 t_10 t_11 n_12 e_13
  have hs_0 : State.Kept Q s_0 := by
    unfold s_0
    exact reportVotes_kept hs
  try clear_value s_0
  have ht_1 : State.Kept Q t_1 := by
    unfold t_1
    refine foldl_kept ?_ ?_
    · intro x2 hx2 x3
      try beta_reduce
      exact State.setHold_kept hx2
    · exact hs_0
  try clear_value t_1
  have ht_4 : State.Kept Q t_4 := by
    unfold t_4
    refine kept_ite ?_ ?_
    · exact ht_1
    · refine kept_ite ?_ ?_
      · exact State.clrRcSpx1_kept ht_1
      · exact State.clrRcHost_kept ht_1
  try clear_value t_4
  have ht_5 : State.Kept Q t_5 := by
    unfold t_5
    refine kept_ite ?_ ?_
    · exact feRead_kept ht_4
    · exact ht_4
  try clear_value t_5
  try clear_value q_6
  try clear_value _7
  have ht_8 : State.Kept Q t_8 := by
    unfold t_8
    refine kept_ite ?_ ?_
    · refine kept_ite ?_ ?_
      · exact State.setQ_kept ht_5
      · exact ht_5
    · exact ht_5
  try clear_value t_8
  try clear_value _9
  have ht_10 : State.Kept Q t_10 := by
    unfold t_10
    refine kept_ite ?_ ?_
    · exact kept_mk ht_8
    · exact ht_8
  try clear_value t_10
  have ht_11 : State.Kept Q t_11 := by
    unfold t_11
    refine kept_ite ?_ ?_
    · exact kept_mk ht_10
    · exact ht_10
  try clear_value t_11
  try clear_value n_12
  try clear_value e_13
  refine kept_ite ?_ ?_
  · exact hs_0
  · refine kept_ite ?_ ?_
    · refine kept_ite ?_ ?_
      · exact State.setEvc_kept ht_11
      · exact ht_11
    · exact ht_11

end Sys2Proof.Machine
end

