-- ==== Sys2Proof/Laws/KeptWrites.lean ====
section
/-! SUPPORT. The operations of Machine/Writes.lean keep `State.Kept`. -/

namespace Sys2Proof.Machine

theorem bootGo_kept {Q} {s : State} (hs : State.Kept Q s) :
    State.Kept Q (bootGo s) := by
  delta bootGo
  extract_lets -merge -useContext +implicits src_0 s_1 _2
  try clear_value src_0
  have hs_1 : State.Kept Q s_1 := by
    unfold s_1
    exact State.setFld_kept (State.setBit_kept hs)
  try clear_value s_1
  try clear_value _2
  refine kept_ite ?_ ?_
  · exact State.raise_kept hs
  · exact kept_mk hs_1

theorem hdataStore_kept {Q} {s : State} (hs : State.Kept Q s) :
    State.Kept Q (hdataStore s) := by
  delta hdataStore
  extract_lets -merge -useContext +implicits a_0 v_1 s_2 n_3
  try clear_value a_0
  try clear_value v_1
  have hs_2 : State.Kept Q s_2 := by
    unfold s_2
    refine kept_ite ?_ ?_
    · exact State.setHbm_kept hs
    · exact hs
  try clear_value s_2
  try clear_value n_3
  exact State.setFld_kept (State.setFld_kept (State.setFld_kept hs_2))

theorem Wr.put_kept {Q} {w} {s : State} (hs : State.Kept Q s) :
    State.Kept Q (Wr.put w s) := by
  delta Wr.put
  refine kept_ite ?_ ?_
  · exact hs
  · exact State.setBits_kept hs

theorem Wr.putVec_kept {Q} {w} {v} {s : State} (hs : State.Kept Q s) :
    State.Kept Q (Wr.putVec w v s) := by
  delta Wr.putVec
  refine withVec_kept ?_ ?_
  · intro x0 hx0
    exact Wr.put_kept hx0
  · exact hs

theorem done_kept {Q} {s : State} (hs : State.Kept Q s) :
    State.Kept Q (done s).1 := by
  unfold done
  exact kept_fst hs

theorem refused_kept {Q} {s : State} (hs : State.Kept Q s) :
    State.Kept Q (refused s).1 := by
  unfold refused
  exact kept_fst hs

theorem wrChip_kept {Q} {w} {s : State} (hs : State.Kept Q s) :
    State.Kept Q (wrChip w s).1 := by
  unfold wrChip
  refine kept_ite_fst ?_ ?_
  · refine done_kept ?_
    refine kept_ite ?_ ?_
    · exact rstWrite_kept (Wr.put_kept hs)
    · exact Wr.put_kept hs
  · refine kept_ite_fst ?_ ?_
    · extract_lets -merge -useContext +implicits t_0
      have ht_0 : State.Kept Q t_0 := by
        unfold t_0
        exact Wr.put_kept hs
      try clear_value t_0
      refine done_kept ?_
      refine kept_ite ?_ ?_
      · exact bootGo_kept ht_0
      · exact ht_0
    · refine kept_ite_fst ?_ ?_
      · refine kept_ite_fst ?_ ?_
        · exact refused_kept (State.raise_kept hs)
        · refine kept_ite_fst ?_ ?_
          · exact done_kept (hdataStore_kept (Wr.put_kept hs))
          · exact done_kept (Wr.put_kept hs)
      · exact done_kept (Wr.put_kept hs)

theorem wrClk_kept {Q} {w} {s : State} (hs : State.Kept Q s) :
    State.Kept Q (wrClk w s).1 := by
  unfold wrClk
  refine kept_ite_fst ?_ ?_
  · extract_lets -merge -useContext +implicits v_0 t_1
    try clear_value v_0
    have ht_1 : State.Kept Q t_1 := by
      unfold t_1
      exact clkSrcWrite_kept hs
    try clear_value t_1
    exact kept_fst ht_1
  · exact done_kept (Wr.put_kept hs)

theorem wrPwr_kept {Q} {w} {s : State} (hs : State.Kept Q s) :
    State.Kept Q (wrPwr w s).1 := by
  unfold wrPwr
  refine kept_ite_fst ?_ ?_
  · extract_lets -merge -useContext +implicits t_0
    have ht_0 : State.Kept Q t_0 := by
      unfold t_0
      exact Wr.put_kept hs
    try clear_value t_0
    refine done_kept ?_
    refine kept_ite ?_ ?_
    · exact powerReq_kept ht_0
    · exact ht_0
  · refine kept_ite_fst ?_ ?_
    · refine kept_ite_fst ?_ ?_
      · exact done_kept (sgGates_kept (Wr.put_kept hs))
      · extract_lets -merge -useContext +implicits t_1
        have ht_1 : State.Kept Q t_1 := by
          unfold t_1
          exact padRelease_kept hs
        try clear_value t_1
        refine kept_ite_fst ?_ ?_
        · exact refused_kept ht_1
        · exact done_kept (Wr.put_kept ht_1)
    · refine kept_ite_fst ?_ ?_
      · exact done_kept (qoffWrite_kept hs)
      · refine kept_ite_fst ?_ ?_
        · exact done_kept (qonWrite_kept hs)
        · exact done_kept (Wr.put_kept hs)

theorem wrFlt_kept {Q} {w} {s : State} (hs : State.Kept Q s) :
    State.Kept Q (wrFlt w s).1 := by
  unfold wrFlt
  refine kept_ite_fst ?_ ?_
  · extract_lets -merge -useContext +implicits t_0
    have ht_0 : State.Kept Q t_0 := by
      unfold t_0
      exact Wr.put_kept hs
    try clear_value t_0
    refine done_kept ?_
    refine kept_ite ?_ ?_
    · exact State.reportAccess_kept ht_0
    · exact ht_0
  · refine kept_ite_fst ?_ ?_
    · extract_lets -merge -useContext +implicits t_1 x_2
      have ht_1 : State.Kept Q t_1 := by
        unfold t_1
        exact Wr.put_kept hs
      try clear_value t_1
      try clear_value x_2
      refine kept_ite_fst ?_ ?_
      · refine kept_ite_fst ?_ ?_
        · exact refused_kept (faultRclr_kept ht_1)
        · exact done_kept (faultRclr_kept ht_1)
      · exact done_kept ht_1
    · refine kept_ite_fst ?_ ?_
      · refine kept_ite_fst ?_ ?_
        · exact done_kept (Wr.put_kept hs)
        · exact refused_kept (State.raise_kept hs)
      · exact done_kept (Wr.put_kept hs)

theorem laceCtrl_kept {Q} {w} {s : State} (hs : State.Kept Q s) :
    State.Kept Q (laceCtrl w s) := by
  delta laceCtrl
  extract_lets -merge -useContext +implicits old_0 s_1 s_2 k_3 s_4 s_5 s_6 s_7
  try clear_value old_0
  have hs_1 : State.Kept Q s_1 := by
    unfold s_1
    exact Wr.put_kept hs
  try clear_value s_1
  have hs_2 : State.Kept Q s_2 := by
    unfold s_2
    refine kept_ite ?_ ?_
    · exact hs_1
    · exact laceUpdate_kept hs_1
  try clear_value s_2
  try clear_value k_3
  have hs_4 : State.Kept Q s_4 := by
    unfold s_4
    refine kept_ite ?_ ?_
    · exact laceSurvey_kept hs_2
    · exact hs_2
  try clear_value s_4
  have hs_5 : State.Kept Q s_5 := by
    unfold s_5
    refine kept_ite ?_ ?_
    · exact laceMasterSend_kept hs_4
    · exact hs_4
  try clear_value s_5
  have hs_6 : State.Kept Q s_6 := by
    unfold s_6
    refine kept_ite ?_ ?_
    · exact laceMasterSend_kept hs_5
    · exact hs_5
  try clear_value s_6
  have hs_7 : State.Kept Q s_7 := by
    unfold s_7
    refine kept_ite ?_ ?_
    · exact laceSendGo_kept hs_6
    · exact hs_6
  try clear_value s_7
  refine kept_ite ?_ ?_
  · exact laceDetachCmd_kept hs_7
  · exact hs_7

theorem wrLace_kept {Q} {w} {s : State} (hs : State.Kept Q s) :
    State.Kept Q (wrLace w s).1 := by
  unfold wrLace
  refine kept_ite_fst ?_ ?_
  · exact done_kept (laceCtrl_kept hs)
  · exact done_kept (Wr.put_kept hs)

theorem wrTdcc_kept {Q} {w} {s : State} (hs : State.Kept Q s) :
    State.Kept Q (wrTdcc w s).1 := by
  unfold wrTdcc
  refine kept_ite_fst ?_ ?_
  · refine done_kept ?_
    refine forAll_kept ?_ ?_
    · intro x0 x1 hx1
      exact relockRequest_kept hx1
    · exact hs
  · exact done_kept (Wr.put_kept hs)

theorem wrMem_kept {Q} {w} {s : State} (hs : State.Kept Q s) :
    State.Kept Q (wrMem w s).1 := by
  unfold wrMem
  refine kept_ite_fst ?_ ?_
  · refine kept_ite_fst ?_ ?_
    · exact done_kept (Wr.put_kept hs)
    · exact refused_kept (State.raise_kept hs)
  · refine kept_ite_fst ?_ ?_
    · refine done_kept ?_
      refine kept_ite ?_ ?_
      · exact startBuild_kept hs
      · exact hs
    · exact done_kept (Wr.put_kept hs)

theorem wrRing_kept {Q} {w} {s : State} (hs : State.Kept Q s) :
    State.Kept Q (wrRing w s).1 := by
  unfold wrRing
  refine kept_ite_fst ?_ ?_
  · extract_lets -merge -useContext +implicits q_0
    try clear_value q_0
    refine kept_ite_fst ?_ ?_
    · exact refused_kept (State.raise_kept hs)
    · refine done_kept ?_
      refine kept_ite ?_ ?_
      · exact ladderLift_kept (Wr.put_kept hs)
      · exact Wr.put_kept hs
  · exact done_kept (Wr.put_kept hs)

theorem wrCal_kept {Q} {w} {s : State} (hs : State.Kept Q s) :
    State.Kept Q (wrCal w s).1 := by
  unfold wrCal
  refine kept_ite_fst ?_ ?_
  · refine done_kept ?_
    refine kept_ite ?_ ?_
    · exact hs
    · exact mreqWrite_kept hs
  · exact done_kept (Wr.put_kept hs)

theorem wrNvm_kept {Q} {w} {s : State} (hs : State.Kept Q s) :
    State.Kept Q (wrNvm w s).1 := by
  unfold wrNvm
  refine kept_ite_fst ?_ ?_
  · extract_lets -merge -useContext +implicits k_0 t_1 t_2
    try clear_value k_0
    have ht_1 : State.Kept Q t_1 := by
      unfold t_1
      exact Wr.put_kept hs
    try clear_value t_1
    have ht_2 : State.Kept Q t_2 := by
      unfold t_2
      refine kept_ite ?_ ?_
      · exact nvmStore_kept ht_1
      · exact ht_1
    try clear_value t_2
    refine done_kept ?_
    refine kept_ite ?_ ?_
    · exact nvmLoad_kept ht_2
    · exact ht_2
  · exact done_kept (Wr.put_kept hs)

theorem wrThm_kept {Q} {w} {s : State} (hs : State.Kept Q s) :
    State.Kept Q (wrThm w s).1 := by
  unfold wrThm
  refine kept_ite_fst ?_ ?_
  · exact done_kept (brokenClear_kept hs)
  · refine kept_ite_fst ?_ ?_
    · exact done_kept (brokenClear_kept (Wr.put_kept hs))
    · exact done_kept (Wr.put_kept hs)

theorem wrLedg_kept {Q} {w} {s : State} (hs : State.Kept Q s) :
    State.Kept Q (wrLedg w s).1 := by
  unfold wrLedg
  refine kept_ite_fst ?_ ?_
  · exact refused_kept (State.reportAccess_kept (State.raise_kept hs))
  · extract_lets -merge -useContext +implicits t_0
    have ht_0 : State.Kept Q t_0 := by
      unfold t_0
      exact Wr.put_kept (ledgerSettle_kept hs)
    try clear_value t_0
    refine done_kept ?_
    refine kept_ite ?_ ?_
    · exact loadChecks_kept ht_0
    · exact ht_0

theorem wrEvc_kept {Q} {w} {s : State} (hs : State.Kept Q s) :
    State.Kept Q (wrEvc w s).1 := by
  unfold wrEvc
  refine kept_ite_fst ?_ ?_
  · extract_lets -merge -useContext +implicits t_0 t_1
    have ht_0 : State.Kept Q t_0 := by
      unfold t_0
      exact Wr.put_kept hs
    try clear_value t_0
    have ht_1 : State.Kept Q t_1 := by
      unfold t_1
      refine kept_ite ?_ ?_
      · exact { ht_0 with evcs := rfl }
      · exact ht_0
    try clear_value t_1
    refine done_kept ?_
    refine kept_ite ?_ ?_
    · exact State.snapshot_kept ht_1
    · exact ht_1
  · extract_lets -merge -useContext +implicits t_2
    have ht_2 : State.Kept Q t_2 := by
      unfold t_2
      exact Wr.put_kept hs
    try clear_value t_2
    refine done_kept ?_
    refine kept_ite ?_ ?_
    · exact State.setEvc_kept ht_2
    · exact ht_2

theorem wrSg_kept {Q} {w} {s : State} (hs : State.Kept Q s) :
    State.Kept Q (wrSg w s).1 := by
  unfold wrSg
  extract_lets -merge -useContext +implicits n_0 o_1
  try clear_value n_0
  try clear_value o_1
  refine kept_ite_fst ?_ ?_
  · refine done_kept ?_
    refine kept_ite ?_ ?_
    · exact hs
    · exact sgCtrlWrite_kept hs
  · refine kept_ite_fst ?_ ?_
    · refine done_kept ?_
      refine kept_ite ?_ ?_
      · exact sgTripClr_kept (Wr.put_kept hs)
      · exact Wr.put_kept hs
    · refine kept_ite_fst ?_ ?_
      · exact done_kept (Wr.putVec_kept hs)
      · refine kept_ite_fst ?_ ?_
        · exact done_kept (sgGate_kept (Wr.put_kept hs))
        · exact done_kept (Wr.put_kept hs)

theorem wrPort_kept {Q} {n} {o} {w} {s : State} (hs : State.Kept Q s) :
    State.Kept Q (wrPort n o w s).1 := by
  unfold wrPort
  refine kept_ite_fst ?_ ?_
  · refine kept_ite_fst ?_ ?_
    · exact refused_kept (portRaise_kept hs)
    · extract_lets -merge -useContext +implicits t_0
      have ht_0 : State.Kept Q t_0 := by
        unfold t_0
        refine kept_ite ?_ ?_
        · exact hs
        · exact portCtrlWrite_kept hs
      try clear_value t_0
      refine done_kept ?_
      refine kept_ite ?_ ?_
      · exact portStartWrite_kept ht_0
      · exact ht_0
  · refine kept_ite_fst ?_ ?_
    · exact done_kept (portTxAdd_kept hs)
    · refine kept_ite_fst ?_ ?_
      · exact refused_kept (State.report_kept (portRaise_kept hs))
      · exact done_kept (Wr.put_kept hs)

theorem siteOff_kept {Q} {q} {old} {s : State} (hs : State.Kept Q s) :
    State.Kept Q (siteOff q old s) := by
  delta siteOff
  refine kept_ite ?_ ?_
  · exact hs
  · refine forAll_kept ?_ ?_
    · intro x0 x1 hx1
      try beta_reduce
      split
      · refine kept_ite ?_ ?_
        · exact parkPin_kept (State.setChan_kept hx1)
        · exact hx1
      · exact hx1
    · exact hs

theorem wrQseq_kept {Q} {q} {o} {w} {s : State} (hs : State.Kept Q s) :
    State.Kept Q (wrQseq q o w s).1 := by
  unfold wrQseq
  refine kept_ite_fst ?_ ?_
  · exact done_kept (qCtrl_kept (Wr.put_kept hs))
  · refine kept_ite_fst ?_ ?_
    · refine done_kept ?_
      refine forAll_kept ?_ ?_
      · intro x0 x1 hx1
        try beta_reduce
        exact setLatch_kept hx1
      · exact hs
    · refine kept_ite_fst ?_ ?_
      · refine done_kept ?_
        refine forAll_kept ?_ ?_
        · intro x2 x3 hx3
          try beta_reduce
          exact writeLatch_kept hx3
        · exact hs
      · refine kept_ite_fst ?_ ?_
        · extract_lets -merge -useContext +implicits t_4 _5
          have ht_4 : State.Kept Q t_4 := by
            unfold t_4
            exact Wr.put_kept hs
          try clear_value t_4
          try clear_value _5
          refine done_kept ?_
          refine kept_ite ?_ ?_
          · exact State.setQ_kept ht_4
          · exact ht_4
        · refine kept_ite_fst ?_ ?_
          · exact done_kept (Wr.put_kept (ledgerSettle_kept hs))
          · refine kept_ite_fst ?_ ?_
            · exact done_kept (Wr.putVec_kept hs)
            · refine kept_ite_fst ?_ ?_
              · extract_lets -merge -useContext +implicits t_6
                have ht_6 : State.Kept Q t_6 := by
                  unfold t_6
                  exact Wr.put_kept hs
                try clear_value t_6
                exact done_kept (siteOff_kept ht_6)
              · exact done_kept (Wr.put_kept hs)

theorem stageNco_kept {Q} {c} {b} {f} {s : State} (hs : State.Kept Q s) :
    State.Kept Q (stageNco c b f s) := by
  delta stageNco
  extract_lets -merge -useContext +implicits s_0 x_1 cur_2
  have hs_0 : State.Kept Q s_0 := by
    unfold s_0
    exact settleChan_kept hs
  try clear_value s_0
  try clear_value x_1
  try clear_value cur_2
  exact State.setChan_kept hs_0

theorem wrQts_kept {Q} {q} {o} {w} {s : State} (hs : State.Kept Q s) :
    State.Kept Q (wrQts q o w s).1 := by
  unfold wrQts
  extract_lets -merge -useContext +implicits t_0 i_1 c_2 k_3 f_4
  have ht_0 : State.Kept Q t_0 := by
    unfold t_0
    exact Wr.put_kept hs
  try clear_value t_0
  try clear_value i_1
  try clear_value c_2
  try clear_value k_3
  try clear_value f_4
  refine kept_ite_fst ?_ ?_
  · exact done_kept ht_0
  · refine kept_ite_fst ?_ ?_
    · exact done_kept (stageDeskew_kept (settleChan_kept ht_0))
    · refine kept_ite_fst ?_ ?_
      · exact done_kept (stageNco_kept ht_0)
      · refine kept_ite_fst ?_ ?_
        · exact done_kept (stageNco_kept ht_0)
        · refine kept_ite_fst ?_ ?_
          · exact done_kept (stageNco_kept ht_0)
          · exact done_kept ht_0

theorem wrTdc_kept {Q} {u} {o} {w} {s : State} (hs : State.Kept Q s) :
    State.Kept Q (wrTdc u o w s).1 := by
  unfold wrTdc
  refine kept_ite_fst ?_ ?_
  · extract_lets -merge -useContext +implicits en_0 t_1 t_2 t_3
    try clear_value en_0
    have ht_1 : State.Kept Q t_1 := by
      unfold t_1
      exact Wr.putVec_kept hs
    try clear_value t_1
    have ht_2 : State.Kept Q t_2 := by
      unfold t_2
      refine kept_ite ?_ ?_
      · exact tdcAbort_kept ht_1
      · exact ht_1
    try clear_value t_2
    have ht_3 : State.Kept Q t_3 := by
      unfold t_3
      refine kept_ite ?_ ?_
      · exact tdcArm_kept ht_2
      · exact ht_2
    try clear_value t_3
    refine done_kept ?_
    refine kept_ite ?_ ?_
    · exact tdcDisarm_kept ht_3
    · exact ht_3
  · refine kept_ite_fst ?_ ?_
    · exact refused_kept (State.report_kept (State.raise_kept hs))
    · exact done_kept (Wr.put_kept hs)

theorem wrDrv_kept {Q} {c} {w} {s : State} (hs : State.Kept Q s) :
    State.Kept Q (wrDrv c w s).1 := by
  unfold wrDrv
  extract_lets -merge -useContext +implicits q_0 old_1 v_2 v_3 rises_4 t_5 clock_6
  try clear_value q_0
  try clear_value old_1
  try clear_value v_2
  try clear_value v_3
  try clear_value rises_4
  have ht_5 : State.Kept Q t_5 := by
    unfold t_5
    refine kept_ite ?_ ?_
    · exact hs
    · exact State.setBits_kept hs
  try clear_value t_5
  try clear_value clock_6
  refine kept_ite_fst ?_ ?_
  · exact refused_kept (State.report_kept (State.raise_kept hs))
  · refine done_kept ?_
    refine kept_ite ?_ ?_
    · exact ht_5
    · exact parkPin_kept ht_5

theorem wrLqCfg_kept {Q} {c} {w} {s : State} (hs : State.Kept Q s) :
    State.Kept Q (wrLqCfg c w s).1 := by
  unfold wrLqCfg
  extract_lets -merge -useContext +implicits s_0 old_1 v_2 t_3 t_4 _5
  have hs_0 : State.Kept Q s_0 := by
    unfold s_0
    refine kept_ite ?_ ?_
    · exact lqClear_kept hs
    · exact hs
  try clear_value s_0
  try clear_value old_1
  try clear_value v_2
  have ht_3 : State.Kept Q t_3 := by
    unfold t_3
    exact lqStop_kept hs_0
  try clear_value t_3
  have ht_4 : State.Kept Q t_4 := by
    unfold t_4
    exact Wr.put_kept hs_0
  try clear_value t_4
  try clear_value _5
  refine kept_ite_fst ?_ ?_
  · refine done_kept (showLq_kept (lqUnloop_kept ?_))
    refine kept_ite ?_ ?_
    · exact ht_3
    · exact State.setReg_kept ht_3
  · refine done_kept (showLq_kept ?_)
    refine kept_ite ?_ ?_
    · exact lqUnloop_kept (State.setChan_kept ht_4)
    · exact lqUnloop_kept ht_4

theorem wrChan_kept {Q} {c} {o} {w} {s : State} (hs : State.Kept Q s) :
    State.Kept Q (wrChan c o w s).1 := by
  unfold wrChan
  refine kept_ite_fst ?_ ?_
  · exact wrDrv_kept hs
  · refine kept_ite_fst ?_ ?_
    · extract_lets -merge -useContext +implicits t_0 ok_1
      have ht_0 : State.Kept Q t_0 := by
        unfold t_0
        exact Wr.put_kept hs
      try clear_value t_0
      try clear_value ok_1
      refine kept_ite_fst ?_ ?_
      · exact kept_fst (protReconnect_kept ht_0)
      · exact done_kept ht_0
    · refine kept_ite_fst ?_ ?_
      · exact refused_kept (State.raise_kept hs)
      · refine kept_ite_fst ?_ ?_
        · exact wrLqCfg_kept hs
        · refine kept_ite_fst ?_ ?_
          · refine done_kept ?_
            refine kept_ite ?_ ?_
            · exact hs
            · exact lqPush_kept hs
          · refine kept_ite_fst ?_ ?_
            · refine done_kept ?_
              refine kept_ite ?_ ?_
              · exact hs
              · refine withVec_kept ?_ ?_
                · intro x2 hx2
                  exact pmuCtrlWrite_kept hx2
                · exact hs
            · refine kept_ite_fst ?_ ?_
              · refine done_kept ?_
                refine kept_ite ?_ ?_
                · exact hs
                · exact pmuMeasWrite_kept hs
              · refine kept_ite_fst ?_ ?_
                · extract_lets -merge -useContext +implicits t_3 t_4
                  have ht_3 : State.Kept Q t_3 := by
                    unfold t_3
                    exact Wr.put_kept hs
                  try clear_value t_3
                  have ht_4 : State.Kept Q t_4 := by
                    unfold t_4
                    refine kept_ite ?_ ?_
                    · exact pmuMeasStart_kept ht_3
                    · exact ht_3
                  try clear_value t_4
                  refine done_kept ?_
                  refine kept_ite ?_ ?_
                  · exact pmuMeasStop_kept ht_4
                  · exact ht_4
                · exact done_kept (Wr.put_kept hs)

theorem wrQuarter_kept {Q} {w} {s : State} (hs : State.Kept Q s) :
    State.Kept Q (wrQuarter w s).1 := by
  unfold wrQuarter
  extract_lets -merge -useContext +implicits q_0 o_1
  try clear_value q_0
  try clear_value o_1
  refine kept_ite_fst ?_ ?_
  · exact wrQseq_kept hs
  · refine kept_ite_fst ?_ ?_
    · exact wrQts_kept hs
    · refine kept_ite_fst ?_ ?_
      · exact done_kept (Wr.put_kept hs)
      · refine kept_ite_fst ?_ ?_
        · exact wrTdc_kept hs
        · exact wrChan_kept hs

theorem applyReg_kept {Q} {m} {a} {mask} {data} {bdry} {s : State} (hs : State.Kept Q s) :
    State.Kept Q (applyReg m a mask data bdry s).1 := by
  unfold applyReg
  split
  · exact done_kept hs
  · extract_lets -merge -useContext +implicits w_0
    try clear_value w_0
    refine kept_ite_fst ?_ ?_
    · exact wrQuarter_kept hs
    · refine kept_ite_fst ?_ ?_
      · exact wrChip_kept hs
      · refine kept_ite_fst ?_ ?_
        · exact done_kept (Wr.put_kept hs)
        · refine kept_ite_fst ?_ ?_
          · exact wrClk_kept hs
          · refine kept_ite_fst ?_ ?_
            · exact wrPwr_kept hs
            · refine kept_ite_fst ?_ ?_
              · exact wrFlt_kept hs
              · refine kept_ite_fst ?_ ?_
                · exact wrLace_kept hs
                · refine kept_ite_fst ?_ ?_
                  · exact wrTdcc_kept hs
                  · refine kept_ite_fst ?_ ?_
                    · exact wrMem_kept hs
                    · refine kept_ite_fst ?_ ?_
                      · exact wrRing_kept hs
                      · refine kept_ite_fst ?_ ?_
                        · exact wrCal_kept hs
                        · refine kept_ite_fst ?_ ?_
                          · exact wrNvm_kept hs
                          · refine kept_ite_fst ?_ ?_
                            · exact wrThm_kept hs
                            · refine kept_ite_fst ?_ ?_
                              · exact wrLedg_kept hs
                              · refine kept_ite_fst ?_ ?_
                                · exact wrEvc_kept hs
                                · refine kept_ite_fst ?_ ?_
                                  · exact wrSg_kept hs
                                  · refine kept_ite_fst ?_ ?_
                                    · exact wrPort_kept hs
                                    · refine kept_ite_fst ?_ ?_
                                      · exact wrPort_kept hs
                                      · exact done_kept (Wr.put_kept hs)

end Sys2Proof.Machine
end

