-- ==== Sys2Proof/Laws/KeptTxn.lean ====
section
/-! SUPPORT. The operations of Machine/Txn.lean keep `State.Kept`. -/

namespace Sys2Proof.Machine

theorem setBusy_kept {Q} {p} {b} {s : State} (hs : State.Kept Q s) :
    State.Kept Q (setBusy p b s) := by
  delta setBusy
  exact State.setReg_kept hs

theorem writeLost_kept {Q} {p} {s : State} (hs : State.Kept Q s) :
    State.Kept Q (writeLost p s) := by
  delta writeLost
  exact State.count_kept (State.raiseMask_kept hs)

theorem postWrite_kept {Q} {p} {w} {s : State} (hs : State.Kept Q s) :
    State.Kept Q (postWrite p w s) := by
  delta postWrite
  refine kept_ite ?_ ?_
  · exact writeLost_kept hs
  · refine setBusy_kept ?_
    exact { hs with posted := by dsimp only; exact tabSet_wf _ _ _ _ (hs.posted) }

theorem putHanded_kept {Q} {p} {h} {s : State} (hs : State.Kept Q s) :
    State.Kept Q (putHanded p h s) := by
  delta putHanded
  exact { hs with handed := by dsimp only; exact tabSet_wf _ _ _ _ (hs.handed) }

theorem handedApply_kept {Q} {p} {s : State} (hs : State.Kept Q s) :
    State.Kept Q (handedApply p s) := by
  delta handedApply
  refine foldl_kept ?_ ?_
  · intro x0 hx0 x1
    try beta_reduce
    exact applyReg_kept hx0
  · exact putHanded_kept hs

theorem postDeliver_kept {Q} {p} {s : State} (hs : State.Kept Q s) :
    State.Kept Q (postDeliver p s) := by
  delta postDeliver
  split
  · exact hs
  · extract_lets -merge -useContext +implicits h_0 s_1 s_2 s_3
    try clear_value h_0
    have hs_1 : State.Kept Q s_1 := by
      unfold s_1
      refine kept_ite ?_ ?_
      · exact handedApply_kept hs
      · exact hs
    try clear_value s_1
    have hs_2 : State.Kept Q s_2 := by
      unfold s_2
      refine kept_ite ?_ ?_
      · exact putHanded_kept hs_1
      · exact hs_1
    try clear_value s_2
    have hs_3 : State.Kept Q s_3 := by
      unfold s_3
      refine setBusy_kept ?_
      exact { hs_2 with posted := by dsimp only; exact tabErase_wf _ _ _ (hs_2.posted) }
    try clear_value s_3
    refine kept_ite ?_ ?_
    · exact hs
    · exact applyReg_kept hs_3

theorem captureWrite_kept {Q} {u} {w} {s : State} (hs : State.Kept Q s) :
    State.Kept Q (captureWrite u w s) := by
  delta captureWrite
  split
  · extract_lets -merge -useContext +implicits l_0
    try clear_value l_0
    refine kept_ite ?_ ?_
    · exact State.count_kept (State.raiseMask_kept (setTxnState_kept (setTxnQueue_kept hs)))
    · exact setTxnQueue_kept hs
  · exact State.raiseMask_kept hs
  · exact hs

theorem txnRefuse_kept {Q} {u} {s : State} (hs : State.Kept Q s) :
    State.Kept Q (txnRefuse u s) := by
  delta txnRefuse
  exact State.raiseMask_kept hs

theorem txnRollback_kept {Q} {m} {u} {s : State} (hs : State.Kept Q s) :
    State.Kept Q (txnRollback m u s) := by
  delta txnRollback
  refine kept_ite ?_ ?_
  · exact hs
  · refine kept_ite ?_ ?_
    · exact txnRefuse_kept hs
    · exact State.count_kept (State.raiseMask_kept (setTxnState_kept (setTxnQueue_kept hs)))

theorem txnBegin_kept {Q} {m} {u} {s : State} (hs : State.Kept Q s) :
    State.Kept Q (txnBegin m u s) := by
  delta txnBegin
  refine kept_ite ?_ ?_
  · exact setTxnState_kept (setTxnQueue_kept hs)
  · exact txnRefuse_kept hs

theorem txnCommitCmd_kept {Q} {m} {u} {s : State} (hs : State.Kept Q s) :
    State.Kept Q (txnCommitCmd m u s) := by
  delta txnCommitCmd
  refine kept_ite ?_ ?_
  · exact setTxnState_kept (State.setTxn_kept hs)
  · exact txnRefuse_kept hs

theorem txnWrite_kept {Q} {m} {u} {a} {mask} {data} {s : State} (hs : State.Kept Q s) :
    State.Kept Q (txnWrite m u a mask data s) := by
  delta txnWrite
  refine kept_ite ?_ ?_
  · exact hs
  · split
    · exact hs
    · extract_lets -merge -useContext +implicits w_0 s_1 k_2 s_3 s_4
      try clear_value w_0
      have hs_1 : State.Kept Q s_1 := by
        unfold s_1
        exact Wr.put_kept hs
      try clear_value s_1
      try clear_value k_2
      have hs_3 : State.Kept Q s_3 := by
        unfold s_3
        refine kept_ite ?_ ?_
        · exact txnRollback_kept hs_1
        · exact hs_1
      try clear_value s_3
      have hs_4 : State.Kept Q s_4 := by
        unfold s_4
        refine kept_ite ?_ ?_
        · exact txnBegin_kept hs_3
        · exact hs_3
      try clear_value s_4
      refine kept_ite ?_ ?_
      · exact txnCommitCmd_kept hs_4
      · exact hs_4

theorem commitOne_kept {Q} {m} {t} {bdry} {w} {s : State} (hs : State.Kept Q s) :
    State.Kept Q (commitOne m t bdry w s) := by
  delta commitOne
  split
  · refine kept_ite ?_ ?_
    · exact kept_mk hs
    · exact applyReg_kept hs
  · extract_lets -merge -useContext +implicits h_0
    try clear_value h_0
    refine kept_ite ?_ ?_
    · exact putHanded_kept hs
    · refine kept_ite ?_ ?_
      · exact putHanded_kept hs
      · exact applyReg_kept hs

theorem commitSites_kept {Q} {u} {l} {s : State} (hs : State.Kept Q s) :
    State.Kept Q (commitSites u l s) := by
  delta commitSites
  refine foldl_kept ?_ ?_
  · intro x0 hx0 x1
    try beta_reduce
    exact State.setChan_kept hx0
  · exact hs

theorem commitUnit_kept {Q} {u} {t} {s : State} (hs : State.Kept Q s) :
    State.Kept Q (commitUnit u t s) := by
  delta commitUnit
  extract_lets -merge -useContext +implicits l_0 sites_1 m_2 s_3 s_4 s_7 s_8
  try clear_value l_0
  try clear_value sites_1
  try clear_value m_2
  have hs_3 : State.Kept Q s_3 := by
    unfold s_3
    exact setTxnState_kept (setTxnQueue_kept hs)
  try clear_value s_3
  have hs_4 : State.Kept Q s_4 := by
    unfold s_4
    refine forAll_kept ?_ ?_
    · intro x5 x6 hx6
      try beta_reduce
      exact State.setReg_kept hx6
    · exact hs_3
  try clear_value s_4
  have hs_7 : State.Kept Q s_7 := by
    unfold s_7
    exact State.count_kept (State.raiseMask_kept hs_4)
  try clear_value s_7
  have hs_8 : State.Kept Q s_8 := by
    unfold s_8
    refine foldl_kept ?_ ?_
    · intro x9 hx9 x10
      try beta_reduce
      exact commitOne_kept hx9
    · exact hs_7
  try clear_value s_8
  refine kept_ite ?_ ?_
  · exact calCommit_kept (commitSites_kept hs_8)
  · exact hs_8

theorem txnMoment_kept {Q} {u} {s : State} (hs : State.Kept Q s) :
    State.Kept Q (txnMoment u s) := by
  delta txnMoment
  split
  · exact commitUnit_kept hs
  · exact hs

theorem commitWord_kept {Q} {q} {t} {s : State} (hs : State.Kept Q s) :
    State.Kept Q (commitWord q t s) := by
  delta commitWord
  refine kept_ite ?_ ?_
  · exact commitUnit_kept hs
  · exact calCommit_kept hs

theorem commitMark_kept {Q} {num} {t} {s : State} (hs : State.Kept Q s) :
    State.Kept Q (commitMark num t s) := by
  delta commitMark
  refine forAll_kept ?_ ?_
  · intro x0 x1 hx1
    try beta_reduce
    refine kept_ite ?_ ?_
    · exact commitUnit_kept hx1
    · exact hx1
  · exact hs

theorem deferredApply_kept {Q} {p} {s : State} (hs : State.Kept Q s) :
    State.Kept Q (deferredApply p s) := by
  delta deferredApply
  extract_lets -merge -useContext +implicits h_0
  try clear_value h_0
  refine kept_ite ?_ ?_
  · exact hs
  · exact handedApply_kept hs

end Sys2Proof.Machine
end

