-- ==== Sys2Proof/Laws/KeptFabric.lean ====
section
/-! SUPPORT. The operations of Machine/Fabric.lean keep `State.Kept`. -/

namespace Sys2Proof.Machine

theorem msixUnmask_kept {Q} {w} {s : State} (hs : State.Kept Q s) :
    State.Kept Q (msixUnmask w s) := by
  delta msixUnmask
  extract_lets -merge -useContext +implicits a_0 v_1
  try clear_value a_0
  try clear_value v_1
  refine kept_ite ?_ ?_
  · exact State.sendMsix_kept (State.winSet_kept hs)
  · exact hs

theorem winPut_kept {Q} {a} {be} {v} {s : State} (hs : State.Kept Q s) :
    State.Kept Q (winPut a be v s) := by
  delta winPut
  exact State.winSet_kept hs

theorem timingWrite_kept {Q} {m} {a} {be} {v} {s : State} (hs : State.Kept Q s) :
    State.Kept Q (timingWrite m a be v s) := by
  delta timingWrite
  extract_lets -merge -useContext +implicits q_0
  try clear_value q_0
  refine kept_ite ?_ ?_
  · exact hs
  · refine kept_ite ?_ ?_
    · exact State.reportAccess_kept (State.raise_kept hs)
    · exact winPut_kept hs

theorem storeWrite_kept {Q} {m} {a} {be} {v} {s : State} (hs : State.Kept Q s) :
    State.Kept Q (storeWrite m a be v s) := by
  delta storeWrite
  extract_lets -merge -useContext +implicits q_0
  try clear_value q_0
  refine kept_ite ?_ ?_
  · exact hs
  · refine kept_ite ?_ ?_
    · exact State.reportAccess_kept (State.raise_kept hs)
    · exact winPut_kept hs

theorem winWrite_kept {Q} {m} {a} {be} {v} {s : State} (hs : State.Kept Q s) :
    State.Kept Q (winWrite m a be v s) := by
  delta winWrite
  refine kept_ite ?_ ?_
  · extract_lets -merge -useContext +implicits t_0
    have ht_0 : State.Kept Q t_0 := by
      unfold t_0
      exact winPut_kept hs
    try clear_value t_0
    refine kept_ite ?_ ?_
    · exact msixUnmask_kept ht_0
    · exact ht_0
  · refine kept_ite ?_ ?_
    · refine kept_ite ?_ ?_
      · exact writeLost_kept hs
      · exact winPut_kept hs
    · refine kept_ite ?_ ?_
      · exact hs
      · refine kept_ite ?_ ?_
        · exact timingWrite_kept hs
        · refine kept_ite ?_ ?_
          · exact storeWrite_kept hs
          · refine kept_ite ?_ ?_
            · exact ringDword3_kept (winPut_kept hs)
            · exact winPut_kept hs

theorem hbmWrite_kept {Q} {a} {bytes} {s : State} (hs : State.Kept Q s) :
    State.Kept Q (hbmWrite a bytes s) := by
  delta hbmWrite
  extract_lets -merge -useContext +implicits cap_0 keep_1 n_2 b_3 s_4 s_5 s_6
  try clear_value cap_0
  try clear_value keep_1
  try clear_value n_2
  try clear_value b_3
  have hs_4 : State.Kept Q s_4 := by
    unfold s_4
    exact State.setHbm_kept hs
  try clear_value s_4
  have hs_5 : State.Kept Q s_5 := by
    unfold s_5
    refine kept_ite ?_ ?_
    · exact State.count_kept hs_4
    · exact hs_4
  try clear_value s_5
  have hs_6 : State.Kept Q s_6 := by
    unfold s_6
    refine kept_ite ?_ ?_
    · exact State.count_kept hs_5
    · exact hs_5
  try clear_value s_6
  refine kept_ite ?_ ?_
  · exact State.count_kept hs_6
  · exact hs_6

theorem applyRdy_kept {Q} {w} {s : State} (hs : State.Kept Q s) :
    State.Kept Q (applyRdy w s) := by
  delta applyRdy
  exact applyReg_kept hs

theorem bar2Land_kept {Q} {a} {bytes} {s : State} (hs : State.Kept Q s) :
    State.Kept Q (bar2Land a bytes s) := by
  delta bar2Land
  refine kept_ite ?_ ?_
  · exact State.reportAccess_kept (State.raise_kept hs)
  · exact hbmWrite_kept (kept_mk hs)

theorem drainHeld_kept {Q} {l} {s : State} (hs : State.Kept Q s) : State.Kept Q (drainHeld l s) := by
  induction l generalizing s with
  | nil => exact kept_mk hs
  | cons x l ih =>
    cases x with
    | rdy w => exact ih (applyRdy_kept hs)
    | hbm a b => exact kept_ite (ih (bar2Land_kept hs)) (kept_mk hs)

theorem State.behindHeld_kept {Q} {s : State} (hs : State.Kept Q s) :
    State.Kept Q (State.behindHeld s) := by
  delta State.behindHeld
  refine foldl_kept ?_ ?_
  · intro x0 hx0 x1
    try beta_reduce
    split
    · exact bar2Land_kept hx0
    · exact applyRdy_kept hx0
  · exact hs

theorem discardWrite_kept {Q} {m} {a} {be} {s : State} (hs : State.Kept Q s) :
    State.Kept Q (discardWrite m a be s) := by
  delta discardWrite
  refine kept_ite ?_ ?_
  · exact State.reportAccess_kept (State.count_kept hs)
  · refine kept_ite ?_ ?_
    · exact hs
    · exact State.raise_kept hs

theorem noteCycle_kept {Q} {m} {a} {mask} {s : State} (hs : State.Kept Q s) :
    State.Kept Q (noteCycle m a mask s) := by
  delta noteCycle
  exact kept_mk hs

theorem regWrite_kept {Q} {m} {a} {v} {s : State} (hs : State.Kept Q s) :
    State.Kept Q (regWrite m a v s) := by
  delta regWrite
  extract_lets -merge -useContext +implicits w_0
  try clear_value w_0
  split
  · exact txnWrite_kept hs
  · split
    · exact hs
    · split
      · exact captureWrite_kept hs
      · refine kept_ite ?_ ?_
        · exact kept_mk hs
        · split
          · exact postWrite_kept hs
          · extract_lets -merge -useContext +implicits rw_1
            try clear_value rw_1
            exact applyReg_kept (noteCycle_kept hs)

theorem serveWrite_kept {Q} {m} {a} {be} {v} {s : State} (hs : State.Kept Q s) :
    State.Kept Q (serveWrite m a be v s) := by
  delta serveWrite
  refine kept_ite ?_ ?_
  · exact discardWrite_kept hs
  · refine kept_ite ?_ ?_
    · exact winWrite_kept hs
    · exact regWrite_kept hs

theorem keepCut_kept {Q} {s : State} (hs : State.Kept Q s) :
    State.Kept Q (keepCut s) := by
  delta keepCut
  extract_lets -merge -useContext +implicits a_0 v_1
  try clear_value a_0
  try clear_value v_1
  exact State.setFld_kept (State.setFld_kept (State.setFld_kept (State.setFld_kept hs)))

theorem pushRead_kept {Q} {m} {a} {v} {s : State} (hs : State.Kept Q s) :
    State.Kept Q (pushRead m a v s) := by
  delta pushRead
  extract_lets -merge -useContext +implicits s_0 _1 s_2 _3
  have hs_0 : State.Kept Q s_0 := by
    unfold s_0
    exact kept_mk hs
  try clear_value s_0
  try clear_value _1
  have hs_2 : State.Kept Q s_2 := by
    unfold s_2
    exact kept_mk hs_0
  try clear_value s_2
  try clear_value _3
  refine kept_ite ?_ ?_
  · exact hs_0
  · refine kept_ite ?_ ?_
    · exact keepCut_kept (kept_mk hs_2)
    · exact hs_2

theorem serveRead_kept {Q} {m} {a} {s : State} (hs : State.Kept Q s) :
    State.Kept Q (serveRead m a s) := by
  delta serveRead
  extract_lets -merge -useContext +implicits v_0 s_1 s_2
  try clear_value v_0
  have hs_1 : State.Kept Q s_1 := by
    unfold s_1
    refine kept_ite ?_ ?_
    · exact State.count_kept hs
    · exact hs
  try clear_value s_1
  have hs_2 : State.Kept Q s_2 := by
    unfold s_2
    refine kept_ite ?_ ?_
    · exact hs_1
    · split
      · exact hs_1
      · exact readEffect_kept hs_1
  try clear_value s_2
  exact pushRead_kept hs_2

theorem serve_kept {Q} {x} {s : State} (hs : State.Kept Q s) :
    State.Kept Q (serve x s) := by
  delta serve
  refine kept_ite ?_ ?_
  · exact serveWrite_kept hs
  · exact serveRead_kept hs

theorem stallAccess_kept {Q} {x} {s : State} (hs : State.Kept Q s) :
    State.Kept Q (stallAccess x s) := by
  delta stallAccess
  exact kept_mk hs

theorem wakeCentral_kept {Q} {s : State} (hs : State.Kept Q s) :
    State.Kept Q (wakeCentral s) := by
  delta wakeCentral
  refine kept_ite ?_ ?_
  · exact kept_mk hs
  · exact hs

theorem access_kept {Q} {x} {s0 : State} (hs0 : State.Kept Q s0) :
    State.Kept Q (access x s0) := by
  delta access
  extract_lets -merge -useContext +implicits s_0
  have hs_0 : State.Kept Q s_0 := by
    unfold s_0
    exact wakeCentral_kept hs0
  try clear_value s_0
  refine kept_ite ?_ ?_
  · exact hs_0
  · refine kept_ite ?_ ?_
    · exact stallAccess_kept hs_0
    · split
      · exact serve_kept hs_0
      · refine kept_ite ?_ ?_
        · exact rejectAccess_kept hs_0
        · exact quarterWake_kept (stallAccess_kept hs_0)

theorem hostTlps_kept {Q} {m} {write} {s : State} (hs : State.Kept Q s) :
    State.Kept Q (hostTlps m write s) := by
  delta hostTlps
  refine kept_ite ?_ ?_
  · extract_lets -merge -useContext +implicits t_0
    have ht_0 : State.Kept Q t_0 := by
      unfold t_0
      exact countTlps_kept hs
    try clear_value t_0
    refine kept_ite ?_ ?_
    · exact ht_0
    · exact countTlps_kept ht_0
  · exact hs

theorem busWrite_kept {Q} {m} {a} {be} {v} {s : State} (hs : State.Kept Q s) :
    State.Kept Q (busWrite m a be v s) := by
  delta busWrite
  exact access_kept (hostTlps_kept hs)

theorem busRead_kept {Q} {m} {a} {s : State} (hs : State.Kept Q s) :
    State.Kept Q (busRead m a s) := by
  delta busRead
  exact access_kept (hostTlps_kept hs)

theorem busReg_kept {Q} {m} {a} {mask} {data} {s : State} (hs : State.Kept Q s) :
    State.Kept Q (busReg m a mask data s) := by
  delta busReg
  exact busWrite_kept hs

theorem serveStalled_kept {Q} {s : State} (hs : State.Kept Q s) :
    State.Kept Q (serveStalled s) := by
  delta serveStalled
  refine kept_ite ?_ ?_
  · exact hs
  · extract_lets -merge -useContext +implicits l_0 _1
    try clear_value l_0
    try clear_value _1
    refine foldl_kept ?_ ?_
    · intro x2 hx2 x3
      try beta_reduce
      refine kept_ite ?_ ?_
      · exact stallAccess_kept hx2
      · split
        · exact serve_kept hx2
        · exact quarterWake_kept (stallAccess_kept hx2)
    · exact kept_mk hs

theorem hostSpan_kept {Q} {s : State} (hs : State.Kept Q s) :
    State.Kept Q (hostSpan s) := by
  delta hostSpan
  extract_lets -merge -useContext +implicits t_0
  have ht_0 : State.Kept Q t_0 := by
    unfold t_0
    exact drainHeld_kept (kept_mk hs)
  try clear_value t_0
  refine kept_ite ?_ ?_
  · exact serveStalled_kept ht_0
  · exact ht_0

theorem bar2Write_kept {Q} {a} {bytes} {s : State} (hs : State.Kept Q s) :
    State.Kept Q (bar2Write a bytes s) := by
  delta bar2Write
  refine kept_ite ?_ ?_
  · exact hs
  · refine kept_ite ?_ ?_
    · exact State.raise_kept hs
    · refine kept_ite ?_ ?_
      · exact State.count_kept hs
      · extract_lets -merge -useContext +implicits s_0
        have hs_0 : State.Kept Q s_0 := by
          unfold s_0
          exact countTlps_kept hs
        try clear_value s_0
        refine kept_ite ?_ ?_
        · exact bar2Land_kept hs_0
        · exact kept_mk hs_0

theorem bar2Unit_kept {Q} {u} {ecc} {s : State} (hs : State.Kept Q s) :
    State.Kept Q (bar2Unit u ecc s) := by
  delta bar2Unit
  extract_lets -merge -useContext +implicits s_0 t_1 _2
  have hs_0 : State.Kept Q s_0 := by
    unfold s_0
    exact State.count_kept hs
  try clear_value s_0
  have ht_1 : State.Kept Q t_1 := by
    unfold t_1
    exact uncorrected_kept hs_0
  try clear_value t_1
  try clear_value _2
  refine kept_ite ?_ ?_
  · exact corrected_kept hs_0
  · refine kept_ite ?_ ?_
    · exact State.count_kept (kept_mk ht_1)
    · exact hs_0

theorem bar2Dword_kept {Q} {a} {s : State} (hs : State.Kept Q s) :
    State.Kept Q (bar2Dword a s) := by
  delta bar2Dword
  exact kept_mk hs

theorem bar2ReadAll_kept {Q} {a} {n} {ecc} {s : State} (hs : State.Kept Q s) :
    State.Kept Q (bar2ReadAll a n ecc s) := by
  delta bar2ReadAll
  refine kept_ite ?_ ?_
  · exact hs
  · extract_lets -merge -useContext +implicits a_0 s_1 u_2 us_3 s_4
    try clear_value a_0
    have hs_1 : State.Kept Q s_1 := by
      unfold s_1
      exact countTlps_kept (countTlps_kept (kept_mk hs))
    try clear_value s_1
    try clear_value u_2
    try clear_value us_3
    have hs_4 : State.Kept Q s_4 := by
      unfold s_4
      refine forAll_kept ?_ ?_
      · intro x5 x6 hx6
        try beta_reduce
        exact bar2Unit_kept hx6
      · exact hs_1
    try clear_value s_4
    refine forAll_kept ?_ ?_
    · intro x7 x8 hx8
      try beta_reduce
      exact bar2Dword_kept hx8
    · exact hs_4

theorem postedEffect_kept {Q} {a} {mask} {data} {s : State} (hs : State.Kept Q s) :
    State.Kept Q (postedEffect a mask data s) := by
  delta postedEffect
  extract_lets -merge -useContext +implicits off_0
  try clear_value off_0
  refine kept_ite ?_ ?_
  · exact hs
  · exact applyReg_kept hs

theorem wakeAccess_kept {Q} {m} {write} {a} {be} {v} {s : State} (hs : State.Kept Q s) :
    State.Kept Q (wakeAccess m write a be v s) := by
  delta wakeAccess
  split
  · refine kept_ite ?_ ?_
    · exact hs
    · refine kept_ite ?_ ?_
      · exact busWrite_kept hs
      · exact busRead_kept hs
  · exact hs

end Sys2Proof.Machine
end

