-- ==== Sys2Proof/Laws/KeptImage.lean ====
section
/-! SUPPORT. The operations of Machine/Image.lean keep `State.Kept`. -/

namespace Sys2Proof.Machine

theorem loadDwords_kept {Q} {f} {i} {l} {s : State} (hs : State.Kept Q s) : State.Kept Q (loadDwords f i l s) := by
  fun_induction loadDwords f i l s with
  | case1 i a b c d l s ih => exact ih (State.winSet_kept hs)
  | case2 => exact hs

theorem loadRings_kept {Q} {n} {s : State} (hs : State.Kept Q s) :
    State.Kept Q (loadRings n s) := by
  delta loadRings
  refine forAll_kept ?_ ?_
  · intro x0 x1 hx1
    exact ringDword3_kept hx1
  · exact hs

theorem kept_ite_some {Q} {c : Prop} [Decidable c] {x y : Option State} (hx : ∀ t, x = some t → State.Kept Q t)
    (hy : ∀ t, y = some t → State.Kept Q t) : ∀ t, ite c x y = some t → State.Kept Q t := by
  split <;> assumption

theorem loadEntry_kept {Q} {ledger} {a} {v} {s : State} (hs : State.Kept Q s) :
    ∀ t, loadEntry ledger a v s = some t → State.Kept Q t := by
  unfold loadEntry
  extract_lets -merge -useContext mask wt u r
  have hu : State.Kept Q u := by
    unfold u
    split
    · exact postDeliver_kept hs
    · exact hs
  have hr : State.Kept Q r.1 := applyReg_kept hu
  clear_value r
  refine kept_ite_some (fun _ h => nomatch h) (kept_ite_some (fun _ h => nomatch h) (kept_ite_some ?_
    (kept_ite_some ?_ fun _ h => nomatch h)))
  · intro t h
    cases h
    exact discardWrite_kept hs
  · intro t h
    cases h
    exact hr

theorem loadEntries_kept {Q} {ledger} {l} {s : State} (hs : State.Kept Q s) : State.Kept Q (loadEntries ledger l s).1 := by
  fun_induction loadEntries ledger l s with
  | case1 a b c d e f g h l s t ht ih => exact ih (loadEntry_kept hs _ ht)
  | case2 => exact hs
  | case3 => exact hs

theorem loadSection_kept {Q} {x} {l} {s : State} (hs : State.Kept Q s) :
    State.Kept Q (loadSection x l s).1 := by
  unfold loadSection
  split
  · exact kept_fst (loadDwords_kept hs)
  · exact kept_fst (loadDwords_kept hs)
  · exact kept_fst (loadRings_kept (loadDwords_kept hs))
  · exact kept_fst (loadDwords_kept hs)
  · exact loadEntries_kept hs
  · exact loadEntries_kept hs
  · exact kept_fst hs

end Sys2Proof.Machine
end

