-- ==== Sys2Proof/Laws/KeptMarks.lean ====
section
/-! SUPPORT. The operations of Machine/Marks.lean keep `State.Kept`. -/

namespace Sys2Proof.Machine

theorem snapOnMark_kept {Q} {num} {s : State} (hs : State.Kept Q s) :
    State.Kept Q (snapOnMark num s) := by
  delta snapOnMark
  refine kept_ite ?_ ?_
  · exact State.snapshot_kept (State.setBit_kept hs)
  · exact hs

theorem armOnMark_kept {Q} {num} {t} {s : State} (hs : State.Kept Q s) :
    State.Kept Q (armOnMark num t s) := by
  delta armOnMark
  refine forAll_kept ?_ ?_
  · intro x0 x1 hx1
    try beta_reduce
    exact tdcOpen_kept hx1
  · exact hs

theorem laceMarkEffect_kept {Q} {s : State} (hs : State.Kept Q s) :
    State.Kept Q (laceMarkEffect s) := by
  delta laceMarkEffect
  split
  · exact hs
  · extract_lets -merge -useContext +implicits s_0 s_1
    have hs_0 : State.Kept Q s_0 := by
      unfold s_0
      exact commitMark_kept (dropEffect_kept hs)
    try clear_value s_0
    have hs_1 : State.Kept Q s_1 := by
      unfold s_1
      exact armOnMark_kept (snapOnMark_kept hs_0)
    try clear_value s_1
    exact startStarting_kept hs_1

end Sys2Proof.Machine
end

