-- ==== Sys2Proof/Laws/KeptBoot.lean ====
section
/-! SUPPORT. The operations of Machine/Boot.lean keep `State.Kept`. -/

namespace Sys2Proof.Machine

theorem bootFail_kept {Q} {code} {sec} {off} {s0 : State} (hs0 : State.Kept Q s0) :
    State.Kept Q (bootFail code sec off s0) := by
  delta bootFail
  extract_lets -merge -useContext +implicits s_0 s_1 s_2
  have hs_0 : State.Kept Q s_0 := by
    unfold s_0
    exact coldReset_kept (State.reportC_kept hs0)
  try clear_value s_0
  have hs_1 : State.Kept Q s_1 := by
    unfold s_1
    exact State.setBit_kept (State.setFld_kept (State.setFld_kept (State.setBit_kept hs_0)))
  try clear_value s_1
  have hs_2 : State.Kept Q s_2 := by
    unfold s_2
    refine kept_ite ?_ ?_
    · exact State.setBit_kept hs_1
    · exact hs_1
  try clear_value s_2
  exact kept_mk hs_2

theorem bootEnd_kept {Q} {s : State} (hs : State.Kept Q s) :
    State.Kept Q (bootEnd s) := by
  delta bootEnd
  extract_lets -merge -useContext +implicits s_0 _1
  have hs_0 : State.Kept Q s_0 := by
    unfold s_0
    exact State.setReg_kept (State.setFld_kept hs)
  try clear_value s_0
  try clear_value _1
  exact kept_mk hs_0

theorem enterStep_kept {Q} {n} {s : State} (hs : State.Kept Q s) :
    State.Kept Q (enterStep n s) := by
  delta enterStep
  extract_lets -merge -useContext +implicits _0 _1 s_2 _3 s_4
  have h_0 : State.Kept Q _0 := by
    unfold _0
    exact State.setFld_kept hs
  try clear_value _0
  try clear_value _1
  have hs_2 : State.Kept Q s_2 := by
    unfold s_2
    exact kept_mk h_0
  try clear_value s_2
  try clear_value _3
  have hs_4 : State.Kept Q s_4 := by
    unfold s_4
    exact kept_mk hs_2
  try clear_value s_4
  refine kept_ite ?_ ?_
  · exact xoEnable_kept hs_2
  · refine kept_ite ?_ ?_
    · refine kept_ite ?_ ?_
      · exact clkSrcWrite_kept hs_4
      · exact hs_4
    · exact hs_2

theorem bootStart_kept {Q} {mode} {s : State} (hs : State.Kept Q s) :
    State.Kept Q (bootStart mode s) := by
  delta bootStart
  refine forAll_kept ?_ ?_
  · intro x0 x1 hx1
    try beta_reduce
    exact qStartWrite_kept (State.setFld_kept hx1)
  · exact hs

theorem stepClocks_kept {Q} {s : State} (hs : State.Kept Q s) :
    State.Kept Q (stepClocks s) := by
  delta stepClocks
  split
  · refine kept_ite ?_ ?_
    · exact enterStep_kept hs
    · exact hs
  · refine kept_ite ?_ ?_
    · exact enterStep_kept hs
    · exact hs
  · refine kept_ite ?_ ?_
    · exact enterStep_kept hs
    · exact hs
  · refine kept_ite ?_ ?_
    · exact hs
    · extract_lets -merge -useContext +implicits s_0 s_1
      have hs_0 : State.Kept Q s_0 := by
        unfold s_0
        exact setCore_kept (State.setFld_kept hs)
      try clear_value s_0
      have hs_1 : State.Kept Q s_1 := by
        unfold s_1
        refine forAll_kept ?_ ?_
        · intro x2 x3 hx3
          exact quarterPowered_kept hx3
        · exact hs_0
      try clear_value s_1
      exact enterStep_kept hs_1

theorem stepHeader_kept {Q} {f} {s : State} (hs : State.Kept Q s) :
    State.Kept Q (stepHeader f s) := by
  delta stepHeader
  extract_lets -merge -useContext +implicits h_0 flash_1 base_2 l_3 x_4 _5 s_6 s_7 s_8
  try clear_value h_0
  try clear_value flash_1
  try clear_value base_2
  try clear_value l_3
  try clear_value x_4
  try clear_value _5
  have hs_6 : State.Kept Q s_6 := by
    unfold s_6
    exact kept_mk hs
  try clear_value s_6
  have hs_7 : State.Kept Q s_7 := by
    unfold s_7
    exact State.setBit_kept hs_6
  try clear_value s_7
  have hs_8 : State.Kept Q s_8 := by
    unfold s_8
    refine kept_ite ?_ ?_
    · refine kept_ite ?_ ?_
      · exact State.reportC_kept (State.setBit_kept hs_7)
      · exact hs_7
    · exact hs_6
  try clear_value s_8
  refine kept_ite ?_ ?_
  · exact bootFail_kept hs
  · refine kept_ite ?_ ?_
    · exact State.setBit_kept (bootFail_kept hs)
    · refine kept_ite ?_ ?_
      · exact bootFail_kept hs
      · split
        · exact bootFail_kept hs
        · refine kept_ite ?_ ?_
          · exact bootFail_kept hs
          · exact enterStep_kept hs_8

theorem stepAuth_kept {Q} {s : State} (hs : State.Kept Q s) :
    State.Kept Q (stepAuth s) := by
  delta stepAuth
  extract_lets -merge -useContext +implicits h_0 r_1 s_2 fl_3 s_4
  try clear_value h_0
  try clear_value r_1
  have hs_2 : State.Kept Q s_2 := by
    unfold s_2
    exact State.setBit_kept hs
  try clear_value s_2
  try clear_value fl_3
  have hs_4 : State.Kept Q s_4 := by
    unfold s_4
    refine kept_ite ?_ ?_
    · exact State.setFld_kept (State.setBit_kept hs_2)
    · exact hs_2
  try clear_value s_4
  refine kept_ite ?_ ?_
  · exact bootFail_kept hs
  · refine enterStep_kept ?_
    refine forAll_kept ?_ ?_
    · intro x5 x6 hx6
      try beta_reduce
      exact State.setReg_kept hx6
    · exact hs_4

theorem loadAll_kept {Q} {f} {load} {l} {s : State} (hload : ∀ x b, ∀ s, State.Kept Q s → State.Kept Q (load x b s).1)
    (hs : State.Kept Q s) : State.Kept Q (loadAll f load l s).1 := by
  induction l generalizing s with
  | nil => exact hs
  | cons x l ih =>
    unfold loadAll
    extract_lets
    exact kept_ite_fst hs (kept_ite_fst (ih (hload _ _ _ hs)) (hload _ _ _ hs))

theorem loadSites_kept {Q} {l} {s : State} (hs : State.Kept Q s) :
    State.Kept Q (loadSites l s) := by
  delta loadSites
  refine forAll_kept ?_ ?_
  · intro x0 x1 hx1
    try beta_reduce
    extract_lets -merge -useContext +implicits i_2 _3
    try clear_value i_2
    try clear_value _3
    refine kept_ite ?_ ?_
    · exact hx1
    · exact State.setChan_kept hx1
  · exact hs

theorem stepLoad_kept {Q} {f} {s : State} (hs : State.Kept Q s) :
    State.Kept Q (stepLoad f s) := by
  delta stepLoad
  split
  · exact bootFail_kept hs
  · extract_lets -merge -useContext +implicits r_0
    have hr_0 : State.Kept Q r_0.1 := by
      unfold r_0
      refine loadAll_kept ?_ ?_
      · intro x1 x2 x3 hx3
        exact loadSection_kept hx3
      · exact hs
    try clear_value r_0
    split
    · exact bootFail_kept hr_0
    · exact enterStep_kept (loadSites_kept hr_0)

theorem stepHbm_kept {Q} {f} {s : State} (hs : State.Kept Q s) :
    State.Kept Q (stepHbm f s) := by
  delta stepHbm
  refine kept_ite ?_ ?_
  · exact hs
  · refine kept_ite ?_ ?_
    · extract_lets -merge -useContext +implicits _0 _1
      have h_0 : State.Kept Q _0 := by
        unfold _0
        exact State.setBit_kept hs
      try clear_value _0
      try clear_value _1
      exact kept_mk h_0
    · refine kept_ite ?_ ?_
      · exact bootFail_kept hs
      · split
        · exact bootFail_kept hs
        · extract_lets -merge -useContext +implicits r_2 s_6
          have hr_2 : State.Kept Q r_2.1 := by
            unfold r_2
            refine loadAll_kept ?_ ?_
            · intro x3 x4 x5 hx5
              try beta_reduce
              exact kept_fst (State.setHbm_kept hx5)
            · exact hs
          try clear_value r_2
          have hs_6 : State.Kept Q s_6 := by
            unfold s_6
            refine kept_ite ?_ ?_
            · exact hr_2
            · exact State.setBit_kept hr_2
          try clear_value s_6
          split
          · exact bootFail_kept hr_2
          · refine enterStep_kept ?_
            refine forAll_kept ?_ ?_
            · intro x7 x8 hx8
              try beta_reduce
              exact endBuild_kept (startBuild_kept hx8)
            · exact hs_6

theorem stepNvm_kept {Q} {s : State} (hs : State.Kept Q s) :
    State.Kept Q (stepNvm s) := by
  delta stepNvm
  extract_lets -merge -useContext +implicits s_0 c_3
  have hs_0 : State.Kept Q s_0 := by
    unfold s_0
    refine forAll_kept ?_ ?_
    · intro x1 x2 hx2
      exact loadPage_kept hx2
    · exact hs
  try clear_value s_0
  have hc_3 : State.Kept Q c_3.1 := by
    unfold c_3
    exact loadChecks_kept hs_0
  try clear_value c_3
  refine kept_ite ?_ ?_
  · exact bootFail_kept hc_3
  · refine kept_ite ?_ ?_
    · exact enterStep_kept hc_3
    · refine kept_ite ?_ ?_
      · exact bootEnd_kept hc_3
      · exact enterStep_kept hc_3

theorem stepLace_kept {Q} {s : State} (hs : State.Kept Q s) :
    State.Kept Q (stepLace s) := by
  delta stepLace
  extract_lets -merge -useContext +implicits ended_0 ok_1 _2 s_3
  try clear_value ended_0
  try clear_value ok_1
  try clear_value _2
  have hs_3 : State.Kept Q s_3 := by
    unfold s_3
    refine kept_ite ?_ ?_
    · exact kept_mk hs
    · exact hs
  try clear_value s_3
  refine kept_ite ?_ ?_
  · exact hs
  · refine kept_ite ?_ ?_
    · exact bootEnd_kept hs
    · exact enterStep_kept hs_3

theorem stepPads_kept {Q} {s : State} (hs : State.Kept Q s) :
    State.Kept Q (stepPads s) := by
  delta stepPads
  refine kept_ite ?_ ?_
  · exact hs
  · extract_lets -merge -useContext +implicits s_0
    have hs_0 : State.Kept Q s_0 := by
      unfold s_0
      exact padRelease_kept hs
    try clear_value s_0
    refine kept_ite ?_ ?_
    · exact hs_0
    · refine kept_ite ?_ ?_
      · exact bootStart_kept (enterStep_kept hs_0)
      · exact bootEnd_kept (bootStart_kept hs_0)

theorem stepStart_kept {Q} {s : State} (hs : State.Kept Q s) :
    State.Kept Q (stepStart s) := by
  delta stepStart
  refine kept_ite ?_ ?_
  · exact hs
  · exact bootEnd_kept hs

theorem bootStepDone_kept {Q} {f} {s : State} (hs : State.Kept Q s) :
    State.Kept Q (bootStepDone f s) := by
  delta bootStepDone
  refine kept_ite ?_ ?_
  · exact hs
  · split
    · exact stepClocks_kept hs
    · exact stepClocks_kept hs
    · exact stepClocks_kept hs
    · exact stepClocks_kept hs
    · exact stepHeader_kept hs
    · exact stepAuth_kept hs
    · exact stepLoad_kept hs
    · exact stepHbm_kept hs
    · exact stepNvm_kept hs
    · exact stepLace_kept hs
    · exact stepPads_kept hs
    · exact stepStart_kept hs
    · exact hs

theorem hbmTrained_kept {Q} {ok} {s : State} (hs : State.Kept Q s) :
    State.Kept Q (hbmTrained ok s) := by
  delta hbmTrained
  refine kept_ite ?_ ?_
  · exact hs
  · refine kept_ite ?_ ?_
    · extract_lets -merge -useContext +implicits s_0 _1
      have hs_0 : State.Kept Q s_0 := by
        unfold s_0
        exact State.setFld_kept (State.setBit_kept hs)
      try clear_value s_0
      try clear_value _1
      refine kept_ite ?_ ?_
      · refine forAll_kept ?_ ?_
        · intro x2 x3 hx3
          exact startBuild_kept hx3
        · exact kept_mk hs_0
      · exact hs_0
    · exact State.raise_kept (bootFail_kept hs)

theorem overBudget_kept {Q} {s : State} (hs : State.Kept Q s) :
    State.Kept Q (overBudget s) := by
  delta overBudget
  refine kept_ite ?_ ?_
  · exact hs
  · split
    · refine kept_ite ?_ ?_
      · exact hs
      · exact bootFail_kept hs
    · exact hs

theorem surveyRetry_kept {Q} {s : State} (hs : State.Kept Q s) :
    State.Kept Q (surveyRetry s) := by
  delta surveyRetry
  refine kept_ite ?_ ?_
  · exact hs
  · exact laceSurvey_kept (kept_mk hs)

theorem bootSend_kept {Q} {s : State} (hs : State.Kept Q s) :
    State.Kept Q (bootSend s) := by
  delta bootSend
  split
  · refine kept_ite ?_ ?_
    · exact hs
    · extract_lets -merge -useContext +implicits _0 s_1
      try clear_value _0
      have hs_1 : State.Kept Q s_1 := by
        unfold s_1
        exact laceMasterSend_kept (kept_mk hs)
      try clear_value s_1
      refine kept_ite ?_ ?_
      · exact hs_1
      · exact State.raise_kept hs_1
  · exact hs

theorem noRing_kept {Q} {s : State} (hs : State.Kept Q s) :
    State.Kept Q (noRing s) := by
  delta noRing
  refine kept_ite ?_ ?_
  · exact hs
  · exact bootEnd_kept (State.reportC_kept (State.raise_kept hs))

end Sys2Proof.Machine
end

