-- ==== Sys2Proof/Laws/KeptEdge.lean ====
section
/-! SUPPORT. The operations of Machine/Edge.lean keep `State.Kept`. -/

namespace Sys2Proof.Machine

theorem slewAll_kept {Q} {c} {s : State} (hs : State.Kept Q s) :
    State.Kept Q (slewAll c s) := by
  delta slewAll
  refine forAll_kept ?_ ?_
  · intro x0 x1 hx1
    exact slewStep_kept hx1
  · exact hs

theorem refAll_kept {Q} {c} {s : State} (hs : State.Kept Q s) :
    State.Kept Q (refAll c s) := by
  delta refAll
  refine forAll_kept ?_ ?_
  · intro x0 x1 hx1
    exact refStep_kept hx1
  · exact hs

theorem sensePin_kept {Q} {c} {node} {amps} {within} {s : State} (hs : State.Kept Q s) :
    State.Kept Q (sensePin c node amps within s) := by
  delta sensePin
  extract_lets -merge -useContext +implicits x_0 vs_1 _2
  try clear_value x_0
  try clear_value vs_1
  try clear_value _2
  exact State.setChan_kept hs

theorem ovdEvent_kept {Q} {c} {high} {s : State} (hs : State.Kept Q s) :
    State.Kept Q (ovdEvent c high s) := by
  delta ovdEvent
  refine kept_ite ?_ ?_
  · exact ovdTrip_kept (pmuOff_kept (pmuAbort_kept hs))
  · exact hs

theorem dclkEdge_kept {Q} {c} {node} {amps} {clamp} {within} {s : State} (hs : State.Kept Q s) :
    State.Kept Q (dclkEdge c node amps clamp within s) := by
  delta dclkEdge
  refine kept_ite ?_ ?_
  · exact hs
  · exact rangeCheck_kept (pmuClamp_kept (refAll_kept (slewBackEnd_kept (slewAll_kept (sensePin_kept hs)))))

theorem lqEdge_kept {Q} {c} {s : State} (hs : State.Kept Q s) :
    State.Kept Q (lqEdge c s) := by
  delta lqEdge
  refine kept_ite ?_ ?_
  · extract_lets -merge -useContext +implicits t_0
    have ht_0 : State.Kept Q t_0 := by
      unfold t_0
      exact lqSample_kept hs
    try clear_value t_0
    refine kept_ite ?_ ?_
    · exact pmuLqTrigger_kept ht_0
    · exact ht_0
  · exact hs

theorem stageDone_kept {Q} {c} {s : State} (hs : State.Kept Q s) :
    State.Kept Q (stageDone c s) := by
  delta stageDone
  extract_lets -merge -useContext +implicits x_0 off_1 _2 y_3 s_4
  try clear_value x_0
  try clear_value off_1
  try clear_value _2
  try clear_value y_3
  have hs_4 : State.Kept Q s_4 := by
    unfold s_4
    exact State.setChan_kept (State.setBit_kept hs)
  try clear_value s_4
  split
  · exact hs
  · refine kept_ite ?_ ?_
    · exact hs
    · exact rangeCheck_kept hs_4

theorem discEnd_kept {Q} {c} {s : State} (hs : State.Kept Q s) :
    State.Kept Q (discEnd c s) := by
  delta discEnd
  extract_lets -merge -useContext +implicits q_0 at_1
  try clear_value q_0
  try clear_value at_1
  refine kept_ite ?_ ?_
  · exact reconnect_kept hs
  · exact hs

end Sys2Proof.Machine
end

