-- ==== Sys2Proof/Laws/KeptLink.lean ====
section
/-! SUPPORT. The operations of Machine/Link.lean keep `State.Kept`. -/

namespace Sys2Proof.Machine

theorem linkEvent_kept {Q} {f} {s : State} (hs : State.Kept Q s) :
    State.Kept Q (linkEvent f s) := by
  delta linkEvent
  exact State.raise_kept hs

theorem hostReset_kept {Q} {s : State} (hs : State.Kept Q s) :
    State.Kept Q (hostReset s) := by
  delta hostReset
  extract_lets -merge -useContext +implicits s_0 s_1 s_2
  have hs_0 : State.Kept Q s_0 := by
    unfold s_0
    exact { hs with win := by dsimp only; exact tabFilter_wf _ _ (hs.win) }
  try clear_value s_0
  have hs_1 : State.Kept Q s_1 := by
    unfold s_1
    exact State.setBit_kept hs_0
  try clear_value s_1
  have hs_2 : State.Kept Q s_2 := by
    unfold s_2
    exact State.setFld_kept (State.setFld_kept (State.setFld_kept (State.setFld_kept hs_1)))
  try clear_value s_2
  exact linkEvent_kept hs_2

theorem functionReset_kept {Q} {s : State} (hs : State.Kept Q s) :
    State.Kept Q (functionReset s) := by
  delta functionReset
  refine kept_ite ?_ ?_
  · exact hs
  · exact hostReset_kept hs

theorem linkLost_kept {Q} {s : State} (hs : State.Kept Q s) :
    State.Kept Q (linkLost s) := by
  delta linkLost
  refine kept_ite ?_ ?_
  · exact hs
  · exact linkEvent_kept (kept_mk hs)

theorem msixFunctionUnmask_kept {Q} {s : State} (hs : State.Kept Q s) :
    State.Kept Q (msixFunctionUnmask s) := by
  delta msixFunctionUnmask
  extract_lets -merge -useContext +implicits _0 _1 s_2
  try clear_value _0
  try clear_value _1
  have hs_2 : State.Kept Q s_2 := by
    unfold s_2
    exact kept_mk hs
  try clear_value s_2
  refine forAll_kept ?_ ?_
  · intro x3 x4 hx4
    exact msixUnmask_kept hx4
  · exact hs_2

theorem configure_kept {Q} {cfg} {s : State} (hs : State.Kept Q s) :
    State.Kept Q (configure cfg s) := by
  delta configure
  extract_lets -merge -useContext +implicits _0 t_1
  try clear_value _0
  have ht_1 : State.Kept Q t_1 := by
    unfold t_1
    exact kept_mk hs
  try clear_value t_1
  refine kept_ite ?_ ?_
  · exact ht_1
  · exact msixFunctionUnmask_kept ht_1

theorem linkTrained_kept {Q} {speed} {width} {cfg} {s : State} (hs : State.Kept Q s) :
    State.Kept Q (linkTrained speed width cfg s) := by
  delta linkTrained
  refine kept_ite ?_ ?_
  · refine configure_kept ?_
    extract_lets -merge -useContext +implicits _0
    have h_0 : State.Kept Q _0 := by
      unfold _0
      exact State.setFld_kept (State.setFld_kept hs)
    try clear_value _0
    exact kept_mk h_0
  · exact hs

theorem perstPulse_kept {Q} {s : State} (hs : State.Kept Q s) :
    State.Kept Q (perstPulse s) := by
  delta perstPulse
  exact wakeEvent_kept (functionReset_kept hs)

end Sys2Proof.Machine
end

