-- ==== Sys2Proof/Laws/KeptProgram.lean ====
section
/-! SUPPORT. The operations of Machine/Program.lean keep `State.Kept`. -/

namespace Sys2Proof.Machine

theorem startAction_kept {Q} {q} {b} {s : State} (hs : State.Kept Q s) :
    State.Kept Q (startAction q b s) := by
  delta startAction
  refine kept_ite ?_ ?_
  · exact hs
  · extract_lets -merge -useContext +implicits _0 s_1 cnt_2
    try clear_value _0
    have hs_1 : State.Kept Q s_1 := by
      unfold s_1
      exact State.setQ_kept hs
    try clear_value s_1
    try clear_value cnt_2
    split
    · exact commitWord_kept hs_1
    · exact peStart_kept hs_1
    · refine forAll_kept ?_ ?_
      · intro x3 x4 hx4
        try beta_reduce
        exact tdcArm_kept hx4
      · exact hs_1
    · exact calSlotStart_kept hs_1
    · exact hs_1

theorem decideWord_kept {Q} {q} {op} {s : State} (hs : State.Kept Q s) :
    State.Kept Q (decideWord q op s) := by
  delta decideWord
  split
  · refine kept_ite ?_ ?_
    · exact decideBody_kept hs
    · exact hs
  · exact hs

theorem actWord_kept {Q} {q} {op} {s : State} (hs : State.Kept Q s) :
    State.Kept Q (actWord q op s) := by
  delta actWord
  extract_lets -merge -useContext +implicits s_0
  have hs_0 : State.Kept Q s_0 := by
    unfold s_0
    split
    · exact startAction_kept hs
    · exact hs
  try clear_value s_0
  exact decideWord_kept hs_0

theorem decideElastic_kept {Q} {q} {b} {welt} {s : State} (hs : State.Kept Q s) :
    State.Kept Q (decideElastic q b welt s) := by
  delta decideElastic
  refine kept_ite ?_ ?_
  · extract_lets -merge -useContext +implicits r_0
    have hr_0 : State.Kept Q r_0.1 := by
      unfold r_0
      exact elasticSelect_kept hs
    try clear_value r_0
    exact putSucc_kept (kept_fst hr_0)
  · exact State.setQ_kept hs

theorem decideWaittrg_kept {Q} {q} {s : State} (hs : State.Kept Q s) :
    State.Kept Q (decideWaittrg q s) := by
  delta decideWaittrg
  split
  · refine kept_ite ?_ ?_
    · exact hs
    · extract_lets -merge -useContext +implicits hit_0
      try clear_value hit_0
      refine decideElastic_kept ?_
      refine kept_ite ?_ ?_
      · exact writeLatch_kept hs
      · exact hs
  · exact hs

theorem decideWaitmark_kept {Q} {q} {s : State} (hs : State.Kept Q s) :
    State.Kept Q (decideWaitmark q s) := by
  delta decideWaitmark
  split
  · refine kept_ite ?_ ?_
    · exact hs
    · exact decideElastic_kept hs
  · exact hs

theorem decideSync_kept {Q} {q} {s : State} (hs : State.Kept Q s) :
    State.Kept Q (decideSync q s) := by
  delta decideSync
  split
  · refine kept_ite ?_ ?_
    · exact hs
    · extract_lets -merge -useContext +implicits s_0
      have hs_0 : State.Kept Q s_0 := by
        unfold s_0
        exact decideElastic_kept hs
      try clear_value s_0
      refine kept_ite ?_ ?_
      · exact laceRequest_kept hs_0
      · exact State.raise_kept hs_0
  · exact hs

theorem decideHold_kept {Q} {q} {s : State} (hs : State.Kept Q s) :
    State.Kept Q (decideHold q s) := by
  delta decideHold
  split
  · refine kept_ite ?_ ?_
    · exact decideElastic_kept hs
    · exact hs
  · exact hs

theorem decideHaltWord_kept {Q} {q} {s : State} (hs : State.Kept Q s) :
    State.Kept Q (decideHaltWord q s) := by
  delta decideHaltWord
  split
  · refine kept_ite ?_ ?_
    · exact decideHalt_kept hs
    · exact hs
  · exact hs

theorem boundaryFirst_kept {Q} {q} {s : State} (hs : State.Kept Q s) :
    State.Kept Q (boundaryFirst q s) := by
  delta boundaryFirst
  exact holdMoment_kept (parkMoment_kept hs)

theorem granuleBoundary_kept {Q} {q} {samples} {s : State} (hs : State.Kept Q s) :
    State.Kept Q (granuleBoundary q samples s) := by
  delta granuleBoundary
  extract_lets -merge -useContext +implicits s_0 t_1
  have hs_0 : State.Kept Q s_0 := by
    unfold s_0
    exact boundaryFirst_kept hs
  try clear_value s_0
  try clear_value t_1
  refine kept_ite ?_ ?_
  · exact hs_0
  · split
    · extract_lets -merge -useContext +implicits gt_2 s_3 s_4
      try clear_value gt_2
      have hs_3 : State.Kept Q s_3 := by
        unfold s_3
        exact startAction_kept hs_0
      try clear_value s_3
      have hs_4 : State.Kept Q s_4 := by
        unfold s_4
        exact portSettle_kept hs_3
      try clear_value s_4
      refine kept_ite ?_ ?_
      · exact hs_0
      · split
        · exact hs_3
        · extract_lets -merge -useContext +implicits s_5
          have hs_5 : State.Kept Q s_5 := by
            unfold s_5
            refine kept_ite ?_ ?_
            · exact calSlotGranule_kept hs_4
            · exact hs_4
          try clear_value s_5
          exact playGranule_kept hs_5
    · refine kept_ite ?_ ?_
      · exact hs_0
      · exact idleBoundary_kept hs_0

theorem consumeRid_kept {Q} {q} {b} {s : State} (hs : State.Kept Q s) :
    State.Kept Q (consumeRid q b s) := by
  delta consumeRid
  refine kept_ite ?_ ?_
  · exact hs
  · extract_lets -merge -useContext +implicits r_0
    try clear_value r_0
    exact State.raise_kept (clearRid_kept (State.setFld_kept hs))

theorem welt_kept {Q} {q} {s : State} (hs : State.Kept Q s) :
    State.Kept Q (welt q s) := by
  delta welt
  extract_lets -merge -useContext +implicits s_0 _1
  have hs_0 : State.Kept Q s_0 := by
    unfold s_0
    exact boundaryFirst_kept hs
  try clear_value s_0
  try clear_value _1
  split
  · exact hs_0
  · extract_lets -merge -useContext +implicits w_2 s_3 s_4 s_5 op_6
    try clear_value w_2
    have hs_3 : State.Kept Q s_3 := by
      unfold s_3
      exact State.setQ_kept hs_0
    try clear_value s_3
    have hs_4 : State.Kept Q s_4 := by
      unfold s_4
      exact consumeRid_kept (calRelease_kept hs_3)
    try clear_value s_4
    have hs_5 : State.Kept Q s_5 := by
      unfold s_5
      exact endFetch_kept (summaries_kept (pushWaiting_kept hs_4))
    try clear_value s_5
    try clear_value op_6
    refine kept_ite ?_ ?_
    · exact hs_0
    · refine kept_ite ?_ ?_
      · exact dataFault_kept hs_4
      · refine kept_ite ?_ ?_
        · exact haltQuarter_kept hs_5
        · refine kept_ite ?_ ?_
          · exact haltQuarter_kept hs_5
          · refine kept_ite ?_ ?_
            · exact enterStall_kept hs_5
            · exact enterSucc_kept hs_5

theorem exitDecision_kept {Q} {q} {s : State} (hs : State.Kept Q s) :
    State.Kept Q (exitDecision q s) := by
  delta exitDecision
  split
  · exact hs
  · split
    · exact hs
    · refine kept_ite ?_ ?_
      · exact hs
      · extract_lets -merge -useContext +implicits r_0 s_1 _2
        have hr_0 : State.Kept Q r_0.1 := by
          unfold r_0
          exact elasticSelect_kept hs
        try clear_value r_0
        have hs_1 : State.Kept Q s_1 := by
          unfold s_1
          exact dropUnchosen_kept hr_0
        try clear_value s_1
        try clear_value _2
        exact State.setQ_kept hs_1

theorem waitTimeout_kept {Q} {q} {s : State} (hs : State.Kept Q s) :
    State.Kept Q (waitTimeout q s) := by
  delta waitTimeout
  split
  · exact hs
  · split
    · exact hs
    · refine kept_ite ?_ ?_
      · exact hs
      · exact State.raise_kept (State.setQ_kept hs)

theorem stallExit_kept {Q} {q} {s : State} (hs : State.Kept Q s) :
    State.Kept Q (stallExit q s) := by
  delta stallExit
  split
  · exact hs
  · split
    · exact hs
    · refine kept_ite ?_ ?_
      · exact hs
      · extract_lets -merge -useContext +implicits s_0 s_1 _2 s_3
        have hs_0 : State.Kept Q s_0 := by
          unfold s_0
          refine kept_ite ?_ ?_
          · exact writeLatch_kept hs
          · exact hs
        try clear_value s_0
        have hs_1 : State.Kept Q s_1 := by
          unfold s_1
          exact ledgerRest_kept (shiftJobs_kept hs_0)
        try clear_value s_1
        try clear_value _2
        have hs_3 : State.Kept Q s_3 := by
          unfold s_3
          exact State.setQ_kept hs_1
        try clear_value s_3
        exact enterSucc_kept hs_3

theorem refillIssue_kept {Q} {q} {s : State} (hs : State.Kept Q s) :
    State.Kept Q (refillIssue q s) := by
  delta refillIssue
  split
  · exact hs
  · split
    · exact hs
    · refine kept_ite ?_ ?_
      · exact hs
      · extract_lets -merge -useContext +implicits n_0 s_1 send_2 _3 s_4
        try clear_value n_0
        have hs_1 : State.Kept Q s_1 := by
          unfold s_1
          exact addJob_kept hs
        try clear_value s_1
        try clear_value send_2
        try clear_value _3
        have hs_4 : State.Kept Q s_4 := by
          unfold s_4
          exact State.setQ_kept hs_1
        try clear_value s_4
        refine kept_ite ?_ ?_
        · exact laceRequest_kept hs_4
        · exact hs_4

theorem refillExit_kept {Q} {q} {s : State} (hs : State.Kept Q s) :
    State.Kept Q (refillExit q s) := by
  delta refillExit
  split
  · exact hs
  · split
    · extract_lets -merge -useContext +implicits e_0
      try clear_value e_0
      refine kept_ite ?_ ?_
      · exact hs
      · exact startBody_kept (ledgerRest_kept (shiftJobs_kept hs))
    · exact hs

theorem storeScrub_kept {Q} {q} {s : State} (hs : State.Kept Q s) :
    State.Kept Q (storeScrub q s) := by
  delta storeScrub
  extract_lets -merge -useContext +implicits x_0 a_1 s_2
  try clear_value x_0
  try clear_value a_1
  have hs_2 : State.Kept Q s_2 := by
    unfold s_2
    exact State.setQ_kept hs
  try clear_value s_2
  refine kept_ite ?_ ?_
  · exact hs
  · split
    · exact hs_2
    · exact State.report_kept (State.raise_kept (State.setCsWord_kept hs_2))
    · exact State.report_kept (State.setFld_kept hs_2)

end Sys2Proof.Machine
end

