-- ==== Sys2Proof/Laws/KeptSpx.lean ====
section
/-! SUPPORT. The operations of Machine/Spx.lean keep `State.Kept`. -/

namespace Sys2Proof.Machine

theorem spxError_kept {Q} {f} {a} {s : State} (hs : State.Kept Q s) :
    State.Kept Q (spxError f a s) := by
  delta spxError
  exact State.report_kept (State.raise_kept hs)

theorem spxOpen_kept {Q} {cmd} {kind} {s : State} (hs : State.Kept Q s) :
    State.Kept Q (spxOpen cmd kind s) := by
  delta spxOpen
  extract_lets -merge -useContext +implicits s_0 _1 _2
  have hs_0 : State.Kept Q s_0 := by
    unfold s_0
    exact wakeEvent_kept hs
  try clear_value s_0
  try clear_value _1
  try clear_value _2
  refine kept_ite ?_ ?_
  · exact spxError_kept (kept_mk hs_0)
  · exact kept_mk hs_0

theorem spxToken_kept {Q} {s : State} (hs : State.Kept Q s) :
    State.Kept Q (spxToken s) := by
  delta spxToken
  refine kept_ite ?_ ?_
  · exact spxError_kept hs
  · exact hs

theorem spxAddr_kept {Q} {a} {s : State} (hs : State.Kept Q s) :
    State.Kept Q (spxAddr a s) := by
  delta spxAddr
  extract_lets -merge -useContext +implicits s_0 a_1 _2
  have hs_0 : State.Kept Q s_0 := by
    unfold s_0
    refine kept_ite ?_ ?_
    · exact hs
    · exact State.raise_kept hs
  try clear_value s_0
  try clear_value a_1
  try clear_value _2
  exact kept_mk hs_0

theorem spxNext_kept {Q} {s : State} (hs : State.Kept Q s) :
    State.Kept Q (spxNext s) := by
  delta spxNext
  exact kept_mk hs

theorem showWq_kept {Q} {s : State} (hs : State.Kept Q s) :
    State.Kept Q (showWq s) := by
  delta showWq
  exact State.setFld_kept hs

theorem spxApply_kept {Q} {s : State} (hs : State.Kept Q s) :
    State.Kept Q (spxApply s) := by
  delta spxApply
  split
  · exact hs
  · refine kept_ite ?_ ?_
    · exact hs
    · exact busWrite_kept (showWq_kept (kept_mk hs))

theorem spxDrain_kept {Q} {s : State} (hs : State.Kept Q s) :
    State.Kept Q (spxDrain s) := by
  delta spxDrain
  extract_lets -merge -useContext +implicits l_0 _1
  try clear_value l_0
  try clear_value _1
  refine foldl_kept ?_ ?_
  · intro x2 hx2 x3
    try beta_reduce
    exact busWrite_kept hx2
  · exact showWq_kept (kept_mk hs)

theorem spxReadOne_kept {Q} {s : State} (hs : State.Kept Q s) :
    State.Kept Q (spxReadOne s) := by
  delta spxReadOne
  refine kept_ite ?_ ?_
  · exact spxNext_kept (spxError_kept (kept_mk hs))
  · exact spxNext_kept (busRead_kept hs)

theorem repeat_kept {Q} {f : State → State} (hf : ∀ s, State.Kept Q s → State.Kept Q (f s)) (n : Nat) {s : State}
    (hs : State.Kept Q s) : State.Kept Q (Nat.repeat f n s) := by
  induction n with
  | zero => exact hs
  | succ n ih => exact hf _ ih

theorem spxRead_kept {Q} {cmd} {a} {n} {s : State} (hs : State.Kept Q s) : State.Kept Q (spxRead cmd a n s) := by
  delta spxRead
  refine kept_ite hs ?_
  extract_lets -merge -useContext +onlyGivenNames t
  have ht : State.Kept Q t := spxOpen_kept hs
  clear_value t
  exact kept_ite ht (repeat_kept (fun _ h => spxReadOne_kept h) n (spxDrain_kept (spxAddr_kept (spxToken_kept ht))))

theorem spxQueue_kept {Q} {v} {s : State} (hs : State.Kept Q s) :
    State.Kept Q (spxQueue v s) := by
  delta spxQueue
  refine kept_ite ?_ ?_
  · exact spxNext_kept (spxError_kept hs)
  · refine kept_ite ?_ ?_
    · exact spxNext_kept (spxError_kept hs)
    · exact spxNext_kept (showWq_kept (kept_mk hs))

theorem spxWrite_kept {Q} {cmd} {a} {vs} {s : State} (hs : State.Kept Q s) :
    State.Kept Q (spxWrite cmd a vs s) := by
  delta spxWrite
  refine kept_ite ?_ ?_
  · exact hs
  · extract_lets -merge -useContext +implicits s_0
    have hs_0 : State.Kept Q s_0 := by
      unfold s_0
      exact spxOpen_kept hs
    try clear_value s_0
    refine kept_ite ?_ ?_
    · exact hs_0
    · refine foldl_kept ?_ ?_
      · intro x1 hx1 x2
        try beta_reduce
        exact spxQueue_kept hx1
      · exact spxAddr_kept hs_0

theorem spxStatus_kept {Q} {cmd} {extra} {s : State} (hs : State.Kept Q s) :
    State.Kept Q (spxStatus cmd extra s) := by
  delta spxStatus
  refine kept_ite ?_ ?_
  · exact hs
  · extract_lets -merge -useContext +implicits s_0 s_1 v_2 s_3
    have hs_0 : State.Kept Q s_0 := by
      unfold s_0
      exact spxOpen_kept hs
    try clear_value s_0
    have hs_1 : State.Kept Q s_1 := by
      unfold s_1
      exact spxToken_kept hs_0
    try clear_value s_1
    try clear_value v_2
    have hs_3 : State.Kept Q s_3 := by
      unfold s_3
      exact State.clrRcSpx1_kept (kept_mk hs_1)
    try clear_value s_3
    refine kept_ite ?_ ?_
    · exact hs_0
    · refine kept_ite ?_ ?_
      · exact State.raise_kept hs_3
      · exact hs_3

theorem spxCut_kept {Q} {s : State} (hs : State.Kept Q s) :
    State.Kept Q (spxCut s) := by
  delta spxCut
  extract_lets -merge -useContext +implicits st_0 s_1 _2 _3
  try clear_value st_0
  have hs_1 : State.Kept Q s_1 := by
    unfold s_1
    exact spxError_kept hs
  try clear_value s_1
  try clear_value _2
  try clear_value _3
  refine kept_ite ?_ ?_
  · exact keepCut_kept hs_1
  · exact kept_mk hs_1

theorem spxRelease_kept {Q} {bits} {s : State} (hs : State.Kept Q s) :
    State.Kept Q (spxRelease bits s) := by
  delta spxRelease
  extract_lets -merge -useContext +implicits k_0 s_1 _2
  try clear_value k_0
  have hs_1 : State.Kept Q s_1 := by
    unfold s_1
    refine kept_ite ?_ ?_
    · exact spxCut_kept hs
    · refine kept_ite ?_ ?_
      · exact spxError_kept hs
      · exact hs
  try clear_value s_1
  try clear_value _2
  exact kept_mk hs_1

theorem spxIdle_kept {Q} {bits} {s : State} (hs : State.Kept Q s) :
    State.Kept Q (spxIdle bits s) := by
  delta spxIdle
  refine kept_ite ?_ ?_
  · exact hs
  · extract_lets -merge -useContext +implicits late_0 s_1 _2
    try clear_value late_0
    have hs_1 : State.Kept Q s_1 := by
      unfold s_1
      exact State.setFld_kept (State.raise_kept hs)
    try clear_value s_1
    try clear_value _2
    exact kept_mk hs_1

end Sys2Proof.Machine
end

