-- ==== Sys2Proof/Laws/KeptTap.lean ====
section
/-! SUPPORT. The operations of Machine/Tap.lean keep `State.Kept`. -/

namespace Sys2Proof.Machine

theorem tapInstr_kept {Q} {code} {extest} {highz} {s : State} (hs : State.Kept Q s) :
    State.Kept Q (tapInstr code extest highz s) := by
  delta tapInstr
  exact kept_mk hs

theorem tapBypass_kept {Q} {code} {s : State} (hs : State.Kept Q s) :
    State.Kept Q (tapBypass code s) := by
  delta tapBypass
  refine kept_ite ?_ ?_
  · exact hs
  · exact tapInstr_kept hs

theorem tapIdcode_kept {Q} {s : State} (hs : State.Kept Q s) :
    State.Kept Q (tapIdcode s) := by
  delta tapIdcode
  exact tapInstr_kept hs

theorem tapSample_kept {Q} {pins} {preload} {s : State} (hs : State.Kept Q s) :
    State.Kept Q (tapSample pins preload s) := by
  delta tapSample
  extract_lets -merge -useContext +implicits s_0 _1
  have hs_0 : State.Kept Q s_0 := by
    unfold s_0
    exact tapInstr_kept hs
  try clear_value s_0
  try clear_value _1
  exact kept_mk hs_0

theorem tapExtest_kept {Q} {s : State} (hs : State.Kept Q s) :
    State.Kept Q (tapExtest s) := by
  delta tapExtest
  exact tapInstr_kept hs

theorem tapHighz_kept {Q} {s : State} (hs : State.Kept Q s) :
    State.Kept Q (tapHighz s) := by
  delta tapHighz
  exact tapInstr_kept hs

end Sys2Proof.Machine
end

