-- ==== Sys2Proof/Laws/KeptTrigger.lean ====
section
/-! SUPPORT. The operations of Machine/Trigger.lean keep `State.Kept`. -/

namespace Sys2Proof.Machine

theorem forwardEdge_kept {Q} {n} {trg} {s : State} (hs : State.Kept Q s) :
    State.Kept Q (forwardEdge n trg s) := by
  delta forwardEdge
  refine kept_ite ?_ ?_
  · exact laceRequest_kept hs
  · exact hs

theorem triggerEdge_kept {Q} {trg} {s : State} (hs : State.Kept Q s) :
    State.Kept Q (triggerEdge trg s) := by
  delta triggerEdge
  refine kept_ite ?_ ?_
  · exact hs
  · extract_lets -merge -useContext +implicits s_0 s_1
    have hs_0 : State.Kept Q s_0 := by
      unfold s_0
      exact setLatchAll_kept hs
    try clear_value s_0
    have hs_1 : State.Kept Q s_1 := by
      unfold s_1
      refine forAll_kept ?_ ?_
      · intro x2 x3 hx3
        try beta_reduce
        exact forwardEdge_kept hx3
      · exact hs_0
    try clear_value s_1
    refine kept_ite ?_ ?_
    · exact wakeEvent_kept hs_1
    · exact hs_1

end Sys2Proof.Machine
end

