-- ==== Sys2Proof/Laws/KeptCmds.lean ====
section
/-! SUPPORT. Every command's meaning keeps `State.Kept`. -/

namespace Sys2Proof.Machine

theorem execNvmStore_kept {Q} {s : State} (hs : State.Kept Q s) :
    ∀ t, execNvmStore s = .next t → State.Kept Q t := by
  intro t ht
  unfold execNvmStore at ht
  cases ht
  exact postedEffect_kept hs

theorem execNvmStoreComplete_kept {Q} {ok} {s : State} (hs : State.Kept Q s) :
    ∀ t, execNvmStoreComplete ok s = .next t → State.Kept Q t := by
  intro t ht
  unfold execNvmStoreComplete at ht
  cases ht
  exact thermalResume_kept (nvmStoreComplete_kept hs)

theorem execNvmLoad_kept {Q} {s : State} (hs : State.Kept Q s) :
    ∀ t, execNvmLoad s = .next t → State.Kept Q t := by
  intro t ht
  unfold execNvmLoad at ht
  cases ht
  exact postedEffect_kept hs

theorem execNvmLoadComplete_kept {Q} {s : State} (hs : State.Kept Q s) :
    ∀ t, execNvmLoadComplete s = .next t → State.Kept Q t := by
  intro t ht
  unfold execNvmLoadComplete at ht
  cases ht
  exact nvmLoadComplete_kept hs

theorem execCalSlotEnd_kept {Q} {q} {rs} {s : State} (hs : State.Kept Q s) :
    ∀ t, execCalSlotEnd q rs s = .next t → State.Kept Q t := by
  intro t ht
  unfold execCalSlotEnd at ht
  cases ht
  exact calSlotEnd_kept hs

theorem execCalAgeLimit_kept {Q} {c} {s : State} (hs : State.Kept Q s) :
    ∀ t, execCalAgeLimit c s = .next t → State.Kept Q t := by
  intro t ht
  unfold execCalAgeLimit at ht
  cases ht
  exact calAgeLimit_kept hs

theorem execCalSessionRequest_kept {Q} {m} {q} {s : State} (hs : State.Kept Q s) :
    ∀ t, execCalSessionRequest m q s = .next t → State.Kept Q t := by
  intro t ht
  unfold execCalSessionRequest at ht
  cases ht
  exact busReg_kept hs

theorem execXoStartDelayEnd_kept {Q} {s : State} (hs : State.Kept Q s) :
    ∀ t, execXoStartDelayEnd s = .next t → State.Kept Q t := by
  intro t ht
  unfold execXoStartDelayEnd at ht
  cases ht
  exact xoDelayEnd_kept hs

theorem execClockSourceReady_kept {Q} {k} {s : State} (hs : State.Kept Q s) :
    ∀ t, execClockSourceReady k s = .next t → State.Kept Q t := by
  intro t ht
  unfold execClockSourceReady at ht
  cases ht
  exact clockReady_kept hs

theorem execClockMonitorTrip_kept {Q} {k} {s : State} (hs : State.Kept Q s) :
    ∀ t, execClockMonitorTrip k s = .next t → State.Kept Q t := by
  intro t ht
  unfold execClockMonitorTrip at ht
  cases ht
  exact clockTrip_kept hs

theorem execClockHoldExit_kept {Q} {s : State} (hs : State.Kept Q s) :
    ∀ t, execClockHoldExit s = .next t → State.Kept Q t := by
  intro t ht
  unfold execClockHoldExit at ht
  cases ht
  refine kept_ite ?_ ?_
  · exact serveStalled_kept (thermalResume_kept (thermalHoldEnd_kept (clockHoldExit_kept hs)))
  · exact hs

theorem execClockHoldTimeout_kept {Q} {s : State} (hs : State.Kept Q s) :
    ∀ t, execClockHoldTimeout s = .next t → State.Kept Q t := by
  intro t ht
  unfold execClockHoldTimeout at ht
  cases ht
  exact clockHoldTimeout_kept hs

theorem execRcoTrimStep_kept {Q} {up} {s : State} (hs : State.Kept Q s) :
    ∀ t, execRcoTrimStep up s = .next t → State.Kept Q t := by
  intro t ht
  unfold execRcoTrimStep at ht
  cases ht
  exact rcoTrimStep_kept hs

theorem execPllLock_kept {Q} {s : State} (hs : State.Kept Q s) :
    ∀ t, execPllLock s = .next t → State.Kept Q t := by
  intro t ht
  unfold execPllLock at ht
  cases ht
  exact pllLock_kept hs

theorem execInterfacePllLock_kept {Q} {s : State} (hs : State.Kept Q s) :
    ∀ t, execInterfacePllLock s = .next t → State.Kept Q t := by
  intro t ht
  unfold execInterfacePllLock at ht
  cases ht
  exact ipllLock_kept hs

theorem execClkSrcWrite_kept {Q} {m} {mask} {data} {s : State} (hs : State.Kept Q s) :
    ∀ t, execClkSrcWrite m mask data s = .next t → State.Kept Q t := by
  intro t ht
  unfold execClkSrcWrite at ht
  cases ht
  exact busReg_kept hs

theorem execPllRefSwitchComplete_kept {Q} {s : State} (hs : State.Kept Q s) :
    ∀ t, execPllRefSwitchComplete s = .next t → State.Kept Q t := by
  intro t ht
  unfold execPllRefSwitchComplete at ht
  cases ht
  exact refSwitchComplete_kept hs

theorem execFaultEvent_kept {Q} {s : State} (hs : State.Kept Q s) :
    ∀ t, execFaultEvent s = .next t → State.Kept Q t := by
  intro t ht
  unfold execFaultEvent at ht
  cases ht
  exact faultEvent_kept hs

theorem execFaultWindowExpiry_kept {Q} {src} {s : State} (hs : State.Kept Q s) :
    ∀ t, execFaultWindowExpiry src s = .next t → State.Kept Q t := by
  intro t ht
  unfold execFaultWindowExpiry at ht
  cases ht
  exact faultWindow_kept hs

theorem execFaultQuietExpiry_kept {Q} {x} {s : State} (hs : State.Kept Q s) :
    ∀ t, execFaultQuietExpiry x s = .next t → State.Kept Q t := by
  intro t ht
  unfold execFaultQuietExpiry at ht
  cases ht
  exact faultQuiet_kept hs

theorem execFaultRclr_kept {Q} {m} {x} {s : State} (hs : State.Kept Q s) :
    ∀ t, execFaultRclr m x s = .next t → State.Kept Q t := by
  intro t ht
  unfold execFaultRclr at ht
  cases ht
  exact busReg_kept hs

theorem execSafeReq_kept {Q} {m} {s : State} (hs : State.Kept Q s) :
    ∀ t, execSafeReq m s = .next t → State.Kept Q t := by
  intro t ht
  unfold execSafeReq at ht
  cases ht
  exact busReg_kept hs

theorem execVotedFieldScrub_kept {Q} {ups} {s : State} (hs : State.Kept Q s) :
    ∀ t, execVotedFieldScrub ups s = .next t → State.Kept Q t := by
  intro t ht
  unfold execVotedFieldScrub at ht
  cases ht
  exact votedScrub_kept hs

theorem execFeSrcRead_kept {Q} {m} {s : State} (hs : State.Kept Q s) :
    ∀ t, execFeSrcRead m s = .next t → State.Kept Q t := by
  intro t ht
  unfold execFeSrcRead at ht
  cases ht
  exact busRead_kept hs

theorem execRegisterWrite_kept {Q} {m} {addr} {be} {v} {s : State} (hs : State.Kept Q s) :
    ∀ t, execRegisterWrite m addr be v s = .next t → State.Kept Q t := by
  intro t ht
  unfold execRegisterWrite at ht
  cases ht
  exact busWrite_kept hs

theorem execPostedWriteDelivery_kept {Q} {pstat} {s : State} (hs : State.Kept Q s) :
    ∀ t, execPostedWriteDelivery pstat s = .next t → State.Kept Q t := by
  intro t ht
  unfold execPostedWriteDelivery at ht
  cases ht
  refine kept_ite ?_ ?_
  · exact hs
  · exact postDeliver_kept hs

theorem execReadClear_kept {Q} {m} {addr} {s : State} (hs : State.Kept Q s) :
    ∀ t, execReadClear m addr s = .next t → State.Kept Q t := by
  intro t ht
  unfold execReadClear at ht
  cases ht
  exact busRead_kept hs

theorem execLatchedRead_kept {Q} {m} {addr} {s : State} (hs : State.Kept Q s) :
    ∀ t, execLatchedRead m addr s = .next t → State.Kept Q t := by
  intro t ht
  unfold execLatchedRead at ht
  cases ht
  exact busRead_kept hs

theorem execEvcCntLRead_kept {Q} {m} {n} {s : State} (hs : State.Kept Q s) :
    ∀ t, execEvcCntLRead m n s = .next t → State.Kept Q t := by
  intro t ht
  unfold execEvcCntLRead at ht
  cases ht
  exact busRead_kept hs

theorem execVotedFieldRead_kept {Q} {m} {addr} {s : State} (hs : State.Kept Q s) :
    ∀ t, execVotedFieldRead m addr s = .next t → State.Kept Q t := by
  intro t ht
  unfold execVotedFieldRead at ht
  cases ht
  exact busRead_kept hs

theorem execEvcClr_kept {Q} {m} {n} {s : State} (hs : State.Kept Q s) :
    ∀ t, execEvcClr m n s = .next t → State.Kept Q t := by
  intro t ht
  unfold execEvcClr at ht
  cases ht
  exact busReg_kept hs

theorem execEvcClearAll_kept {Q} {m} {s : State} (hs : State.Kept Q s) :
    ∀ t, execEvcClearAll m s = .next t → State.Kept Q t := by
  intro t ht
  unfold execEvcClearAll at ht
  cases ht
  exact busReg_kept hs

theorem execEvcSnapNow_kept {Q} {m} {s : State} (hs : State.Kept Q s) :
    ∀ t, execEvcSnapNow m s = .next t → State.Kept Q t := by
  intro t ht
  unfold execEvcSnapNow at ht
  cases ht
  exact busReg_kept hs

theorem execBar2Write_kept {Q} {addr} {bytes} {s : State} (hs : State.Kept Q s) :
    ∀ t, execBar2Write addr bytes s = .next t → State.Kept Q t := by
  intro t ht
  unfold execBar2Write at ht
  cases ht
  exact bar2Write_kept hs

theorem execBar2Read_kept {Q} {addr} {n} {ecc} {s : State} (hs : State.Kept Q s) :
    ∀ t, execBar2Read addr n ecc s = .next t → State.Kept Q t := by
  intro t ht
  unfold execBar2Read at ht
  cases ht
  exact bar2ReadAll_kept hs

theorem execFabricAccessTimeout_kept {Q} {m} {write} {gate} {addr} {s : State} (hs : State.Kept Q s) :
    ∀ t, execFabricAccessTimeout m write gate addr s = .next t → State.Kept Q t := by
  intro t ht
  unfold execFabricAccessTimeout at ht
  cases ht
  exact accessTimeout_kept hs

theorem execQuarterWake_kept {Q} {m} {write} {addr} {be} {v} {s : State} (hs : State.Kept Q s) :
    ∀ t, execQuarterWake m write addr be v s = .next t → State.Kept Q t := by
  intro t ht
  unfold execQuarterWake at ht
  cases ht
  exact wakeAccess_kept hs

theorem execFunctionLevelReset_kept {Q} {s : State} (hs : State.Kept Q s) :
    ∀ t, execFunctionLevelReset s = .next t → State.Kept Q t := by
  intro t ht
  unfold execFunctionLevelReset at ht
  cases ht
  exact functionReset_kept hs

theorem execLinkDown_kept {Q} {s : State} (hs : State.Kept Q s) :
    ∀ t, execLinkDown s = .next t → State.Kept Q t := by
  intro t ht
  unfold execLinkDown at ht
  cases ht
  exact linkLost_kept hs

theorem execLinkUp_kept {Q} {link} {cfg} {s : State} (hs : State.Kept Q s) :
    ∀ t, execLinkUp link cfg s = .next t → State.Kept Q t := by
  intro t ht
  unfold execLinkUp at ht
  cases ht
  exact linkTrained_kept hs

theorem execPerstN_kept {Q} {s : State} (hs : State.Kept Q s) :
    ∀ t, execPerstN s = .next t → State.Kept Q t := by
  intro t ht
  unfold execPerstN at ht
  cases ht
  exact perstPulse_kept hs

theorem execMsixVectorUnmask_kept {Q} {w} {s : State} (hs : State.Kept Q s) :
    ∀ t, execMsixVectorUnmask w s = .next t → State.Kept Q t := by
  intro t ht
  unfold execMsixVectorUnmask at ht
  cases ht
  split
  · exact busWrite_kept hs
  · refine kept_ite ?_ ?_
    · exact hs
    · exact msixFunctionUnmask_kept hs

theorem execLaceFrameStart_kept {Q} {s : State} (hs : State.Kept Q s) :
    ∀ t, execLaceFrameStart s = .next t → State.Kept Q t := by
  intro t ht
  unfold execLaceFrameStart at ht
  cases ht
  exact laceFrameStart_kept hs

theorem execLaceFrameReceive_kept {Q} {sof} {fn} {hop} {survey} {acc} {sofOk} {slots} {delays} {s : State} (hs : State.Kept Q s) :
    ∀ t, execLaceFrameReceive sof fn hop survey acc sofOk slots delays s = .next t → State.Kept Q t := by
  intro t ht
  unfold execLaceFrameReceive at ht
  cases ht
  exact laceFrame_kept hs

theorem execLaceTrigEffect_kept {Q} {s : State} (hs : State.Kept Q s) :
    ∀ t, execLaceTrigEffect s = .next t → State.Kept Q t := by
  intro t ht
  unfold execLaceTrigEffect at ht
  cases ht
  exact laceTrigEffect_kept hs

theorem execLaceMarkEffect_kept {Q} {s : State} (hs : State.Kept Q s) :
    ∀ t, execLaceMarkEffect s = .next t → State.Kept Q t := by
  intro t ht
  unfold execLaceMarkEffect at ht
  cases ht
  exact laceMarkEffect_kept hs

theorem execLaceStartEffect_kept {Q} {s : State} (hs : State.Kept Q s) :
    ∀ t, execLaceStartEffect s = .next t → State.Kept Q t := by
  intro t ht
  unfold execLaceStartEffect at ht
  cases ht
  exact laceStartEffect_kept hs

theorem execLaceHoldEffect_kept {Q} {s : State} (hs : State.Kept Q s) :
    ∀ t, execLaceHoldEffect s = .next t → State.Kept Q t := by
  intro t ht
  unfold execLaceHoldEffect at ht
  cases ht
  exact laceHoldEffect_kept hs

theorem execLaceReleaseEffect_kept {Q} {s : State} (hs : State.Kept Q s) :
    ∀ t, execLaceReleaseEffect s = .next t → State.Kept Q t := by
  intro t ht
  unfold execLaceReleaseEffect at ht
  cases ht
  exact laceHoldEffect_kept hs

theorem execLaceEpochEffect_kept {Q} {s : State} (hs : State.Kept Q s) :
    ∀ t, execLaceEpochEffect s = .next t → State.Kept Q t := by
  intro t ht
  unfold execLaceEpochEffect at ht
  cases ht
  exact laceEpochEffect_kept hs

theorem execLaceSendGo_kept {Q} {m} {s : State} (hs : State.Kept Q s) :
    ∀ t, execLaceSendGo m s = .next t → State.Kept Q t := by
  intro t ht
  unfold execLaceSendGo at ht
  cases ht
  exact busReg_kept hs

theorem execLaceStartSend_kept {Q} {m} {s : State} (hs : State.Kept Q s) :
    ∀ t, execLaceStartSend m s = .next t → State.Kept Q t := by
  intro t ht
  unfold execLaceStartSend at ht
  cases ht
  exact busReg_kept hs

theorem execLaceEpochNow_kept {Q} {m} {s : State} (hs : State.Kept Q s) :
    ∀ t, execLaceEpochNow m s = .next t → State.Kept Q t := by
  intro t ht
  unfold execLaceEpochNow at ht
  cases ht
  exact busReg_kept hs

theorem execLaceEpochDue_kept {Q} {s : State} (hs : State.Kept Q s) :
    ∀ t, execLaceEpochDue s = .next t → State.Kept Q t := by
  intro t ht
  unfold execLaceEpochDue at ht
  cases ht
  exact laceEpochDue_kept hs

theorem execLaceSurvey_kept {Q} {m} {s : State} (hs : State.Kept Q s) :
    ∀ t, execLaceSurvey m s = .next t → State.Kept Q t := by
  intro t ht
  unfold execLaceSurvey at ht
  cases ht
  exact busReg_kept hs

theorem execLaceSurveyComplete_kept {Q} {r} {s : State} (hs : State.Kept Q s) :
    ∀ t, execLaceSurveyComplete r s = .next t → State.Kept Q t := by
  intro t ht
  unfold execLaceSurveyComplete at ht
  cases ht
  exact laceSurveyComplete_kept hs

theorem execSurveyBorrowTimeout_kept {Q} {s : State} (hs : State.Kept Q s) :
    ∀ t, execSurveyBorrowTimeout s = .next t → State.Kept Q t := by
  intro t ht
  unfold execSurveyBorrowTimeout at ht
  cases ht
  exact surveyTimeout_kept hs

theorem execLaceDetach_kept {Q} {m} {s : State} (hs : State.Kept Q s) :
    ∀ t, execLaceDetach m s = .next t → State.Kept Q t := by
  intro t ht
  unfold execLaceDetach at ht
  cases ht
  exact busReg_kept hs

theorem execRingLost_kept {Q} {s : State} (hs : State.Kept Q s) :
    ∀ t, execRingLost s = .next t → State.Kept Q t := by
  intro t ht
  unfold execRingLost at ht
  cases ht
  exact ringLost_kept hs

theorem execLedgerCheck_kept {Q} {m} {s : State} (hs : State.Kept Q s) :
    ∀ t, execLedgerCheck m s = .next t → State.Kept Q t := by
  intro t ht
  unfold execLedgerCheck at ht
  cases ht
  exact busReg_kept hs

theorem execLedgerWindowEnd_kept {Q} {s : State} (hs : State.Kept Q s) :
    ∀ t, execLedgerWindowEnd s = .next t → State.Kept Q t := by
  intro t ht
  unfold execLedgerWindowEnd at ht
  cases ht
  exact ledgerWindowEnd_kept hs

theorem execLedgerSensorResult_kept {Q} {ms} {bad} {s : State} (hs : State.Kept Q s) :
    ∀ t, execLedgerSensorResult ms bad s = .next t → State.Kept Q t := by
  intro t ht
  unfold execLedgerSensorResult at ht
  cases ht
  exact ledgerSensor_kept hs

theorem execMaintenanceGrant_kept {Q} {s : State} (hs : State.Kept Q s) :
    ∀ t, execMaintenanceGrant s = .next t → State.Kept Q t := by
  intro t ht
  unfold execMaintenanceGrant at ht
  cases ht
  exact maintGrant_kept hs

theorem execPmuMeasStart_kept {Q} {c} {s : State} (hs : State.Kept Q s) :
    ∀ t, execPmuMeasStart c s = .next t → State.Kept Q t := by
  intro t ht
  unfold execPmuMeasStart at ht
  cases ht
  exact postedEffect_kept hs

theorem execPmuMeasStop_kept {Q} {c} {s : State} (hs : State.Kept Q s) :
    ∀ t, execPmuMeasStop c s = .next t → State.Kept Q t := by
  intro t ht
  unfold execPmuMeasStop at ht
  cases ht
  exact postedEffect_kept hs

theorem execPmuRangeChangeStep_kept {Q} {c} {s : State} (hs : State.Kept Q s) :
    ∀ t, execPmuRangeChangeStep c s = .next t → State.Kept Q t := by
  intro t ht
  unfold execPmuRangeChangeStep at ht
  cases ht
  refine onQuarter_kept ?_ ?_
  · intro x0 hx0
    exact pmuRangeStep_kept hx0
  · exact hs

theorem execPmuAdcSlot_kept {Q} {a} {v} {lim} {s : State} (hs : State.Kept Q s) :
    ∀ t, execPmuAdcSlot a v lim s = .next t → State.Kept Q t := by
  intro t ht
  unfold execPmuAdcSlot at ht
  cases ht
  refine onQuarter_kept ?_ ?_
  · intro x0 hx0
    exact adcSlot_kept hx0
  · exact hs

theorem execPmuIntervalEnd_kept {Q} {c} {s : State} (hs : State.Kept Q s) :
    ∀ t, execPmuIntervalEnd c s = .next t → State.Kept Q t := by
  intro t ht
  unfold execPmuIntervalEnd at ht
  cases ht
  refine onQuarter_kept ?_ ?_
  · intro x0 hx0
    exact pmuIntervalEnd_kept hx0
  · exact hs

theorem execSgTrip_kept {Q} {n} {x} {s : State} (hs : State.Kept Q s) :
    ∀ t, execSgTrip n x s = .next t → State.Kept Q t := by
  intro t ht
  unfold execSgTrip at ht
  cases ht
  exact sgCompare_kept hs

theorem execSgBlankExpiry_kept {Q} {n} {k} {s : State} (hs : State.Kept Q s) :
    ∀ t, execSgBlankExpiry n k s = .next t → State.Kept Q t := by
  intro t ht
  unfold execSgBlankExpiry at ht
  cases ht
  exact sgBlankEnd_kept hs

theorem execSgGonBlankEnd_kept {Q} {n} {s : State} (hs : State.Kept Q s) :
    ∀ t, execSgGonBlankEnd n s = .next t → State.Kept Q t := by
  intro t ht
  unfold execSgGonBlankEnd at ht
  cases ht
  exact sgGonEnd_kept hs

theorem execSgTripClr_kept {Q} {n} {s : State} (hs : State.Kept Q s) :
    ∀ t, execSgTripClr n s = .next t → State.Kept Q t := by
  intro t ht
  unfold execSgTripClr at ht
  cases ht
  exact postedEffect_kept hs

theorem execSgPeriodEnd_kept {Q} {n} {vs} {is} {s : State} (hs : State.Kept Q s) :
    ∀ t, execSgPeriodEnd n vs is s = .next t → State.Kept Q t := by
  intro t ht
  unfold execSgPeriodEnd at ht
  cases ht
  exact sgPeriodEnd_kept hs

theorem execHbmReadComplete_kept {Q} {q} {ecc} {s : State} (hs : State.Kept Q s) :
    ∀ t, execHbmReadComplete q ecc s = .next t → State.Kept Q t := by
  intro t ht
  unfold execHbmReadComplete at ht
  cases ht
  exact unitArrives_kept hs

theorem execHeadBuild_kept {Q} {m} {q} {s : State} (hs : State.Kept Q s) :
    ∀ t, execHeadBuild m q s = .next t → State.Kept Q t := by
  intro t ht
  unfold execHeadBuild at ht
  cases ht
  exact busReg_kept hs

theorem execHeadBuildComplete_kept {Q} {b} {s : State} (hs : State.Kept Q s) :
    ∀ t, execHeadBuildComplete b s = .next t → State.Kept Q t := by
  intro t ht
  unfold execHeadBuildComplete at ht
  cases ht
  exact endBuild_kept hs

theorem execMemRdyWrite_kept {Q} {m} {k} {mask} {data} {s : State} (hs : State.Kept Q s) :
    ∀ t, execMemRdyWrite m k mask data s = .next t → State.Kept Q t := by
  intro t ht
  unfold execMemRdyWrite at ht
  cases ht
  exact busReg_kept hs

theorem execWinWrite_kept {Q} {m} {n} {size} {mask} {data} {s : State} (hs : State.Kept Q s) :
    ∀ t, execWinWrite m n size mask data s = .next t → State.Kept Q t := by
  intro t ht
  unfold execWinWrite at ht
  cases ht
  exact busReg_kept hs

theorem execHbmScrub_kept {Q} {stackB} {ecc} {s : State} (hs : State.Kept Q s) :
    ∀ t, execHbmScrub stackB ecc s = .next t → State.Kept Q t := by
  intro t ht
  unfold execHbmScrub at ht
  cases ht
  exact scrubStack_kept hs

theorem execHbmTrainingComplete_kept {Q} {ok} {s : State} (hs : State.Kept Q s) :
    ∀ t, execHbmTrainingComplete ok s = .next t → State.Kept Q t := by
  intro t ht
  unfold execHbmTrainingComplete at ht
  cases ht
  exact hbmTrained_kept hs

theorem execFtwHWrite_kept {Q} {m} {c} {mask} {data} {s : State} (hs : State.Kept Q s) :
    ∀ t, execFtwHWrite m c mask data s = .next t → State.Kept Q t := by
  intro t ht
  unfold execFtwHWrite at ht
  cases ht
  exact busReg_kept hs

theorem execDclkEdge_kept {Q} {c} {node} {amps} {clamp} {within} {s : State} (hs : State.Kept Q s) :
    ∀ t, execDclkEdge c node amps clamp within s = .next t → State.Kept Q t := by
  intro t ht
  unfold execDclkEdge at ht
  cases ht
  exact dclkEdge_kept hs

theorem execOvdTrip_kept {Q} {c} {high} {s : State} (hs : State.Kept Q s) :
    ∀ t, execOvdTrip c high s = .next t → State.Kept Q t := by
  intro t ht
  unfold execOvdTrip at ht
  cases ht
  exact ovdEvent_kept hs

theorem execDiscEnd_kept {Q} {c} {s : State} (hs : State.Kept Q s) :
    ∀ t, execDiscEnd c s = .next t → State.Kept Q t := by
  intro t ht
  unfold execDiscEnd at ht
  cases ht
  exact discEnd_kept hs

theorem execProtReconnect_kept {Q} {c} {s : State} (hs : State.Kept Q s) :
    ∀ t, execProtReconnect c s = .next t → State.Kept Q t := by
  intro t ht
  unfold execProtReconnect at ht
  cases ht
  exact postedEffect_kept hs

theorem execStageChangeComplete_kept {Q} {c} {s : State} (hs : State.Kept Q s) :
    ∀ t, execStageChangeComplete c s = .next t → State.Kept Q t := by
  intro t ht
  unfold execStageChangeComplete at ht
  cases ht
  exact stageDone_kept hs

theorem execDrvCtrlWrite_kept {Q} {c} {mask} {data} {s : State} (hs : State.Kept Q s) :
    ∀ t, execDrvCtrlWrite c mask data s = .next t → State.Kept Q t := by
  intro t ht
  unfold execDrvCtrlWrite at ht
  cases ht
  exact postedEffect_kept hs

theorem execLqPush_kept {Q} {c} {code} {s : State} (hs : State.Kept Q s) :
    ∀ t, execLqPush c code s = .next t → State.Kept Q t := by
  intro t ht
  unfold execLqPush at ht
  cases ht
  exact postedEffect_kept hs

theorem execLqClr_kept {Q} {c} {s : State} (hs : State.Kept Q s) :
    ∀ t, execLqClr c s = .next t → State.Kept Q t := by
  intro t ht
  unfold execLqClr at ht
  cases ht
  exact postedEffect_kept hs

theorem execLqSample_kept {Q} {c} {s : State} (hs : State.Kept Q s) :
    ∀ t, execLqSample c s = .next t → State.Kept Q t := by
  intro t ht
  unfold execLqSample at ht
  cases ht
  exact lqEdge_kept hs

theorem execPeStart_kept {Q} {m} {n} {ssel} {s : State} (hs : State.Kept Q s) :
    ∀ t, execPeStart m n ssel s = .next t → State.Kept Q t := by
  intro t ht
  unfold execPeStart at ht
  cases ht
  exact busReg_kept hs

theorem execPeSelectAssert_kept {Q} {x} {s : State} (hs : State.Kept Q s) :
    ∀ t, execPeSelectAssert x s = .next t → State.Kept Q t := by
  intro t ht
  unfold execPeSelectAssert at ht
  cases ht
  exact portSelect_kept hs

theorem execPeSelectRelease_kept {Q} {n} {bits} {cycles} {s : State} (hs : State.Kept Q s) :
    ∀ t, execPeSelectRelease n bits cycles s = .next t → State.Kept Q t := by
  intro t ht
  unfold execPeSelectRelease at ht
  cases ht
  exact portRelease_kept hs

theorem execPeIdleTimeout_kept {Q} {n} {bits} {cycles} {s : State} (hs : State.Kept Q s) :
    ∀ t, execPeIdleTimeout n bits cycles s = .next t → State.Kept Q t := by
  intro t ht
  unfold execPeIdleTimeout at ht
  cases ht
  exact portIdle_kept hs

theorem execPeUnitEnd_kept {Q} {n} {bits} {busy} {s : State} (hs : State.Kept Q s) :
    ∀ t, execPeUnitEnd n bits busy s = .next t → State.Kept Q t := by
  intro t ht
  unfold execPeUnitEnd at ht
  cases ht
  exact portMasterEnd_kept hs

theorem execPeDone_kept {Q} {n} {s : State} (hs : State.Kept Q s) :
    ∀ t, execPeDone n s = .next t → State.Kept Q t := by
  intro t ht
  unfold execPeDone at ht
  cases ht
  exact portDone_kept hs

theorem execPeTxAdd_kept {Q} {m} {n} {k} {s : State} (hs : State.Kept Q s) :
    ∀ t, execPeTxAdd m n k s = .next t → State.Kept Q t := by
  intro t ht
  unfold execPeTxAdd at ht
  cases ht
  exact busReg_kept hs

theorem execSpx1Read_kept {Q} {cmd} {addr} {n} {s : State} (hs : State.Kept Q s) :
    ∀ t, execSpx1Read cmd addr n s = .next t → State.Kept Q t := by
  intro t ht
  unfold execSpx1Read at ht
  cases ht
  exact spxRead_kept hs

theorem execSpx1Write_kept {Q} {cmd} {addr} {vs} {s : State} (hs : State.Kept Q s) :
    ∀ t, execSpx1Write cmd addr vs s = .next t → State.Kept Q t := by
  intro t ht
  unfold execSpx1Write at ht
  cases ht
  exact spxWrite_kept hs

theorem execSpx1Status_kept {Q} {cmd} {extra} {s : State} (hs : State.Kept Q s) :
    ∀ t, execSpx1Status cmd extra s = .next t → State.Kept Q t := by
  intro t ht
  unfold execSpx1Status at ht
  cases ht
  exact spxStatus_kept hs

theorem execSpx1WriteApply_kept {Q} {s : State} (hs : State.Kept Q s) :
    ∀ t, execSpx1WriteApply s = .next t → State.Kept Q t := by
  intro t ht
  unfold execSpx1WriteApply at ht
  cases ht
  exact spxApply_kept hs

theorem execSpx1SelectRelease_kept {Q} {bits} {s : State} (hs : State.Kept Q s) :
    ∀ t, execSpx1SelectRelease bits s = .next t → State.Kept Q t := by
  intro t ht
  unfold execSpx1SelectRelease at ht
  cases ht
  exact spxRelease_kept hs

theorem execSpx1IdleTimeout_kept {Q} {bits} {s : State} (hs : State.Kept Q s) :
    ∀ t, execSpx1IdleTimeout bits s = .next t → State.Kept Q t := by
  intro t ht
  unfold execSpx1IdleTimeout at ht
  cases ht
  exact spxIdle_kept hs

theorem execPowerReqRun_kept {Q} {s : State} (hs : State.Kept Q s) :
    ∀ t, execPowerReqRun s = .next t → State.Kept Q t := by
  intro t ht
  unfold execPowerReqRun at ht
  cases ht
  exact postedEffect_kept hs

theorem execPowerReqHold_kept {Q} {s : State} (hs : State.Kept Q s) :
    ∀ t, execPowerReqHold s = .next t → State.Kept Q t := by
  intro t ht
  unfold execPowerReqHold at ht
  cases ht
  exact postedEffect_kept hs

theorem execPowerReqNap_kept {Q} {s : State} (hs : State.Kept Q s) :
    ∀ t, execPowerReqNap s = .next t → State.Kept Q t := by
  intro t ht
  unfold execPowerReqNap at ht
  cases ht
  exact postedEffect_kept hs

theorem execPowerReqPatrol_kept {Q} {s : State} (hs : State.Kept Q s) :
    ∀ t, execPowerReqPatrol s = .next t → State.Kept Q t := by
  intro t ht
  unfold execPowerReqPatrol at ht
  cases ht
  exact postedEffect_kept hs

theorem execPowerReqShank_kept {Q} {s : State} (hs : State.Kept Q s) :
    ∀ t, execPowerReqShank s = .next t → State.Kept Q t := by
  intro t ht
  unfold execPowerReqShank at ht
  cases ht
  exact postedEffect_kept hs

theorem execPowerEntryComplete_kept {Q} {s : State} (hs : State.Kept Q s) :
    ∀ t, execPowerEntryComplete s = .next t → State.Kept Q t := by
  intro t ht
  unfold execPowerEntryComplete at ht
  cases ht
  exact entryComplete_kept hs

theorem execPowerExitComplete_kept {Q} {s : State} (hs : State.Kept Q s) :
    ∀ t, execPowerExitComplete s = .next t → State.Kept Q t := by
  intro t ht
  unfold execPowerExitComplete at ht
  cases ht
  exact exitComplete_kept hs

theorem execWakeEvent_kept {Q} {bit} {s : State} (hs : State.Kept Q s) :
    ∀ t, execWakeEvent bit s = .next t → State.Kept Q t := by
  intro t ht
  unfold execWakeEvent at ht
  cases ht
  exact wakeEvent_kept hs

theorem execShankTimerExpiry_kept {Q} {s : State} (hs : State.Kept Q s) :
    ∀ t, execShankTimerExpiry s = .next t → State.Kept Q t := by
  intro t ht
  unfold execShankTimerExpiry at ht
  cases ht
  exact shankTimer_kept hs

theorem execQoff_kept {Q} {mask} {data} {s : State} (hs : State.Kept Q s) :
    ∀ t, execQoff mask data s = .next t → State.Kept Q t := by
  intro t ht
  unfold execQoff at ht
  cases ht
  exact postedEffect_kept hs

theorem execQon_kept {Q} {mask} {data} {s : State} (hs : State.Kept Q s) :
    ∀ t, execQon mask data s = .next t → State.Kept Q t := by
  intro t ht
  unfold execQon at ht
  cases ht
  exact postedEffect_kept hs

theorem execBiasSettled_kept {Q} {q} {s : State} (hs : State.Kept Q s) :
    ∀ t, execBiasSettled q s = .next t → State.Kept Q t := by
  intro t ht
  unfold execBiasSettled at ht
  cases ht
  exact serveStalled_kept (biasSettled_kept hs)

theorem execQuarterSettleEnd_kept {Q} {q} {s : State} (hs : State.Kept Q s) :
    ∀ t, execQuarterSettleEnd q s = .next t → State.Kept Q t := by
  intro t ht
  unfold execQuarterSettleEnd at ht
  cases ht
  exact quarterSettleEnd_kept hs

theorem execPatrolCycle_kept {Q} {ts} {ps} {dur} {s : State} (hs : State.Kept Q s) :
    ∀ t, execPatrolCycle ts ps dur s = .next t → State.Kept Q t := by
  intro t ht
  unfold execPatrolCycle at ht
  cases ht
  exact patrolCycle_kept hs

theorem execPgoodLost_kept {Q} {s : State} (hs : State.Kept Q s) :
    ∀ t, execPgoodLost s = .next t → State.Kept Q t := by
  intro t ht
  unfold execPgoodLost at ht
  cases ht
  exact pgoodLost_kept hs

theorem execVidTimeout_kept {Q} {s : State} (hs : State.Kept Q s) :
    ∀ t, execVidTimeout s = .next t → State.Kept Q t := by
  intro t ht
  unfold execVidTimeout at ht
  cases ht
  exact vidTimeout_kept hs

theorem execPadHoldRelease_kept {Q} {s : State} (hs : State.Kept Q s) :
    ∀ t, execPadHoldRelease s = .next t → State.Kept Q t := by
  intro t ht
  unfold execPadHoldRelease at ht
  cases ht
  exact postedEffect_kept hs

theorem execThmReading_kept {Q} {rs} {s : State} (hs : State.Kept Q s) :
    ∀ t, execThmReading rs s = .next t → State.Kept Q t := by
  intro t ht
  unfold execThmReading at ht
  cases ht
  exact thmReading_kept hs

theorem execBrokenClr_kept {Q} {m} {high} {mask} {data} {s : State} (hs : State.Kept Q s) :
    ∀ t, execBrokenClr m high mask data s = .next t → State.Kept Q t := by
  intro t ht
  unfold execBrokenClr at ht
  cases ht
  exact busReg_kept hs

theorem execBackstopTrip_kept {Q} {s : State} (hs : State.Kept Q s) :
    ∀ t, execBackstopTrip s = .next t → State.Kept Q t := by
  intro t ht
  unfold execBackstopTrip at ht
  cases ht
  exact backstopTrip_kept hs

theorem execVsgLost_kept {Q} {s : State} (hs : State.Kept Q s) :
    ∀ t, execVsgLost s = .next t → State.Kept Q t := by
  intro t ht
  unfold execVsgLost at ht
  cases ht
  exact vsgLost_kept hs

theorem execQseqStart_kept {Q} {m} {q} {mode} {s : State} (hs : State.Kept Q s) :
    ∀ t, execQseqStart m q mode s = .next t → State.Kept Q t := by
  intro t ht
  unfold execQseqStart at ht
  cases ht
  exact busReg_kept hs

theorem execQseqStop_kept {Q} {m} {q} {s : State} (hs : State.Kept Q s) :
    ∀ t, execQseqStop m q s = .next t → State.Kept Q t := by
  intro t ht
  unfold execQseqStop at ht
  cases ht
  exact busReg_kept hs

theorem execQseqDisable_kept {Q} {m} {q} {s : State} (hs : State.Kept Q s) :
    ∀ t, execQseqDisable m q s = .next t → State.Kept Q t := by
  intro t ht
  unfold execQseqDisable at ht
  cases ht
  exact busReg_kept hs

theorem execQseqRelease_kept {Q} {m} {q} {s : State} (hs : State.Kept Q s) :
    ∀ t, execQseqRelease m q s = .next t → State.Kept Q t := by
  intro t ht
  unfold execQseqRelease at ht
  cases ht
  exact busReg_kept hs

theorem execQseqLatchReset_kept {Q} {m} {q} {s : State} (hs : State.Kept Q s) :
    ∀ t, execQseqLatchReset m q s = .next t → State.Kept Q t := by
  intro t ht
  unfold execQseqLatchReset at ht
  cases ht
  exact busReg_kept hs

theorem execQseqCntClr_kept {Q} {m} {q} {s : State} (hs : State.Kept Q s) :
    ∀ t, execQseqCntClr m q s = .next t → State.Kept Q t := by
  intro t ht
  unfold execQseqCntClr at ht
  cases ht
  exact busReg_kept hs

theorem execStartMoment_kept {Q} {q} {s : State} (hs : State.Kept Q s) :
    ∀ t, execStartMoment q s = .next t → State.Kept Q t := by
  intro t ht
  unfold execStartMoment at ht
  cases ht
  exact startMoment_kept hs

theorem execFlagSet_kept {Q} {m} {q} {mask} {data} {s : State} (hs : State.Kept Q s) :
    ∀ t, execFlagSet m q mask data s = .next t → State.Kept Q t := by
  intro t ht
  unfold execFlagSet at ht
  cases ht
  exact busReg_kept hs

theorem execFlagClr_kept {Q} {m} {q} {mask} {data} {s : State} (hs : State.Kept Q s) :
    ∀ t, execFlagClr m q mask data s = .next t → State.Kept Q t := by
  intro t ht
  unfold execFlagClr at ht
  cases ht
  exact busReg_kept hs

theorem execTriggerLatchSet_kept {Q} {trg} {s : State} (hs : State.Kept Q s) :
    ∀ t, execTriggerLatchSet trg s = .next t → State.Kept Q t := by
  intro t ht
  unfold execTriggerLatchSet at ht
  cases ht
  exact triggerEdge_kept hs

theorem execGranuleBoundary_kept {Q} {q} {samples} {s : State} (hs : State.Kept Q s) :
    ∀ t, execGranuleBoundary q samples s = .next t → State.Kept Q t := by
  intro t ht
  unfold execGranuleBoundary at ht
  cases ht
  exact granuleBoundary_kept hs

theorem execPowerOnReset_kept {Q} {straps} {gib32} {s : State} (hs : State.Kept Q s) :
    ∀ t, execPowerOnReset straps gib32 s = .next t → State.Kept Q t := by
  intro t ht
  unfold execPowerOnReset at ht
  cases ht
  exact powerOn_kept hs

theorem execResetN_kept {Q} {straps} {low} {s : State} (hs : State.Kept Q s) :
    ∀ t, execResetN straps low s = .next t → State.Kept Q t := by
  intro t ht
  unfold execResetN at ht
  cases ht
  refine kept_ite ?_ ?_
  · exact hs
  · exact fullReset_kept hs

theorem execSupplyDipReset_kept {Q} {s : State} (hs : State.Kept Q s) :
    ∀ t, execSupplyDipReset s = .next t → State.Kept Q t := by
  intro t ht
  unfold execSupplyDipReset at ht
  cases ht
  exact fullReset_kept hs

theorem execWarmReset_kept {Q} {m} {s : State} (hs : State.Kept Q s) :
    ∀ t, execWarmReset m s = .next t → State.Kept Q t := by
  intro t ht
  unfold execWarmReset at ht
  cases ht
  exact busReg_kept hs

theorem execColdReset_kept {Q} {m} {s : State} (hs : State.Kept Q s) :
    ∀ t, execColdReset m s = .next t → State.Kept Q t := by
  intro t ht
  unfold execColdReset at ht
  cases ht
  exact busReg_kept hs

theorem execFullReset_kept {Q} {m} {s : State} (hs : State.Kept Q s) :
    ∀ t, execFullReset m s = .next t → State.Kept Q t := by
  intro t ht
  unfold execFullReset at ht
  cases ht
  exact busReg_kept hs

theorem execBootGo_kept {Q} {m} {src} {s : State} (hs : State.Kept Q s) :
    ∀ t, execBootGo m src s = .next t → State.Kept Q t := by
  intro t ht
  unfold execBootGo at ht
  cases ht
  exact busReg_kept hs

theorem execBootHdataHWrite_kept {Q} {m} {v} {s : State} (hs : State.Kept Q s) :
    ∀ t, execBootHdataHWrite m v s = .next t → State.Kept Q t := by
  intro t ht
  unfold execBootHdataHWrite at ht
  cases ht
  exact busReg_kept hs

theorem execBootStepComplete_kept {Q} {f} {s : State} (hs : State.Kept Q s) :
    ∀ t, execBootStepComplete f s = .next t → State.Kept Q t := by
  intro t ht
  unfold execBootStepComplete at ht
  cases ht
  exact bootStepDone_kept hs

theorem execBootStepOverBudget_kept {Q} {s : State} (hs : State.Kept Q s) :
    ∀ t, execBootStepOverBudget s = .next t → State.Kept Q t := by
  intro t ht
  unfold execBootStepOverBudget at ht
  cases ht
  exact overBudget_kept hs

theorem execBootSurveyRetry_kept {Q} {s : State} (hs : State.Kept Q s) :
    ∀ t, execBootSurveyRetry s = .next t → State.Kept Q t := by
  intro t ht
  unfold execBootSurveyRetry at ht
  cases ht
  exact surveyRetry_kept hs

theorem execBootStartSend_kept {Q} {s : State} (hs : State.Kept Q s) :
    ∀ t, execBootStartSend s = .next t → State.Kept Q t := by
  intro t ht
  unfold execBootStartSend at ht
  cases ht
  exact bootSend_kept hs

theorem execBootNoRing_kept {Q} {s : State} (hs : State.Kept Q s) :
    ∀ t, execBootNoRing s = .next t → State.Kept Q t := by
  intro t ht
  unfold execBootNoRing at ht
  cases ht
  exact noRing_kept hs

theorem execRecordWriteSlot_kept {Q} {q} {s : State} (hs : State.Kept Q s) :
    ∀ t, execRecordWriteSlot q s = .next t → State.Kept Q t := by
  intro t ht
  unfold execRecordWriteSlot at ht
  cases ht
  exact recordSlot_kept hs

theorem execRingEnable_kept {Q} {m} {r} {v} {s : State} (hs : State.Kept Q s) :
    ∀ t, execRingEnable m r v s = .next t → State.Kept Q t := by
  intro t ht
  unfold execRingEnable at ht
  cases ht
  exact busWrite_kept hs

theorem execRingDisable_kept {Q} {m} {r} {v} {s : State} (hs : State.Kept Q s) :
    ∀ t, execRingDisable m r v s = .next t → State.Kept Q t := by
  intro t ht
  unfold execRingDisable at ht
  cases ht
  exact busWrite_kept hs

theorem execRingParamUpdate_kept {Q} {m} {r} {v} {s : State} (hs : State.Kept Q s) :
    ∀ t, execRingParamUpdate m r v s = .next t → State.Kept Q t := by
  intro t ht
  unfold execRingParamUpdate at ht
  cases ht
  exact busWrite_kept hs

theorem execRingPumpGrant_kept {Q} {ecc} {s : State} (hs : State.Kept Q s) :
    ∀ t, execRingPumpGrant ecc s = .next t → State.Kept Q t := by
  intro t ht
  unfold execRingPumpGrant at ht
  cases ht
  exact pumpGrant_kept hs

theorem execRingConsPoll_kept {Q} {r} {cons} {s : State} (hs : State.Kept Q s) :
    ∀ t, execRingConsPoll r cons s = .next t → State.Kept Q t := by
  intro t ht
  unfold execRingConsPoll at ht
  cases ht
  exact consPoll_kept hs

theorem execRingCoalesceTimeout_kept {Q} {r} {s : State} (hs : State.Kept Q s) :
    ∀ t, execRingCoalesceTimeout r s = .next t → State.Kept Q t := by
  intro t ht
  unfold execRingCoalesceTimeout at ht
  cases ht
  exact coalesce_kept hs

theorem execDmaError_kept {Q} {r} {write} {s : State} (hs : State.Kept Q s) :
    ∀ t, execDmaError r write s = .next t → State.Kept Q t := by
  intro t ht
  unfold execDmaError at ht
  cases ht
  exact dmaError_kept hs

theorem execControlStoreWrite_kept {Q} {m} {q} {a} {j} {be} {v} {s : State} (hs : State.Kept Q s) :
    ∀ t, execControlStoreWrite m q a j be v s = .next t → State.Kept Q t := by
  intro t ht
  unfold execControlStoreWrite at ht
  cases ht
  exact busWrite_kept hs

theorem execControlStoreScrub_kept {Q} {q} {s : State} (hs : State.Kept Q s) :
    ∀ t, execControlStoreScrub q s = .next t → State.Kept Q t := by
  intro t ht
  unfold execControlStoreScrub at ht
  cases ht
  exact storeScrub_kept hs

theorem execTimingSetWrite_kept {Q} {m} {q} {set} {c} {j} {be} {v} {s : State} (hs : State.Kept Q s) :
    ∀ t, execTimingSetWrite m q set c j be v s = .next t → State.Kept Q t := by
  intro t ht
  unfold execTimingSetWrite at ht
  cases ht
  exact busWrite_kept hs

theorem execTapBypass_kept {Q} {code} {s : State} (hs : State.Kept Q s) :
    ∀ t, execTapBypass code s = .next t → State.Kept Q t := by
  intro t ht
  unfold execTapBypass at ht
  cases ht
  exact tapBypass_kept hs

theorem execTapIdcode_kept {Q} {s : State} (hs : State.Kept Q s) :
    ∀ t, execTapIdcode s = .next t → State.Kept Q t := by
  intro t ht
  unfold execTapIdcode at ht
  cases ht
  exact tapIdcode_kept hs

theorem execTapSamplePreload_kept {Q} {pins} {preload} {s : State} (hs : State.Kept Q s) :
    ∀ t, execTapSamplePreload pins preload s = .next t → State.Kept Q t := by
  intro t ht
  unfold execTapSamplePreload at ht
  cases ht
  exact tapSample_kept hs

theorem execTapExtest_kept {Q} {s : State} (hs : State.Kept Q s) :
    ∀ t, execTapExtest s = .next t → State.Kept Q t := by
  intro t ht
  unfold execTapExtest at ht
  cases ht
  exact tapExtest_kept hs

theorem execTapHighz_kept {Q} {s : State} (hs : State.Kept Q s) :
    ∀ t, execTapHighz s = .next t → State.Kept Q t := by
  intro t ht
  unfold execTapHighz at ht
  cases ht
  exact tapHighz_kept hs

theorem execTdcArm_kept {Q} {m} {u} {s : State} (hs : State.Kept Q s) :
    ∀ t, execTdcArm m u s = .next t → State.Kept Q t := by
  intro t ht
  unfold execTdcArm at ht
  cases ht
  exact busReg_kept hs

theorem execTdcDisarm_kept {Q} {m} {u} {s : State} (hs : State.Kept Q s) :
    ∀ t, execTdcDisarm m u s = .next t → State.Kept Q t := by
  intro t ht
  unfold execTdcDisarm at ht
  cases ht
  exact busReg_kept hs

theorem execTdcArmSource_kept {Q} {u} {d} {s : State} (hs : State.Kept Q s) :
    ∀ t, execTdcArmSource u d s = .next t → State.Kept Q t := by
  intro t ht
  unfold execTdcArmSource at ht
  cases ht
  refine onQuarter_kept ?_ ?_
  · intro x0 hx0
    exact tdcArmSource_kept hx0
  · exact hs

theorem execTdcStartEvent_kept {Q} {u} {fine} {s : State} (hs : State.Kept Q s) :
    ∀ t, execTdcStartEvent u fine s = .next t → State.Kept Q t := by
  intro t ht
  unfold execTdcStartEvent at ht
  cases ht
  refine onQuarter_kept ?_ ?_
  · intro x0 hx0
    exact tdcStart_kept hx0
  · exact hs

theorem execTdcStopEvent_kept {Q} {u} {fine} {s : State} (hs : State.Kept Q s) :
    ∀ t, execTdcStopEvent u fine s = .next t → State.Kept Q t := by
  intro t ht
  unfold execTdcStopEvent at ht
  cases ht
  refine onQuarter_kept ?_ ?_
  · intro x0 hx0
    exact tdcStop_kept hx0
  · exact hs

theorem execTdcGateClose_kept {Q} {u} {d} {s : State} (hs : State.Kept Q s) :
    ∀ t, execTdcGateClose u d s = .next t → State.Kept Q t := by
  intro t ht
  unfold execTdcGateClose at ht
  cases ht
  refine onQuarter_kept ?_ ?_
  · intro x0 hx0
    exact tdcGateClose_kept hx0
  · exact hs

theorem execTdcTimeout_kept {Q} {u} {s : State} (hs : State.Kept Q s) :
    ∀ t, execTdcTimeout u s = .next t → State.Kept Q t := by
  intro t ht
  unfold execTdcTimeout at ht
  cases ht
  refine onQuarter_kept ?_ ?_
  · intro x0 hx0
    exact tdcTimeout_kept hx0
  · exact hs

theorem execTdcRangeLimit_kept {Q} {u} {s : State} (hs : State.Kept Q s) :
    ∀ t, execTdcRangeLimit u s = .next t → State.Kept Q t := by
  intro t ht
  unfold execTdcRangeLimit at ht
  cases ht
  refine onQuarter_kept ?_ ?_
  · intro x0 hx0
    exact tdcRange_kept hx0
  · exact hs

theorem execTdcResultWrite_kept {Q} {u} {s : State} (hs : State.Kept Q s) :
    ∀ t, execTdcResultWrite u s = .next t → State.Kept Q t := by
  intro t ht
  unfold execTdcResultWrite at ht
  cases ht
  refine onQuarter_kept ?_ ?_
  · intro x0 hx0
    exact tdcResult_kept hx0
  · exact hs

theorem execDllLockLost_kept {Q} {q} {s : State} (hs : State.Kept Q s) :
    ∀ t, execDllLockLost q s = .next t → State.Kept Q t := by
  intro t ht
  unfold execDllLockLost at ht
  cases ht
  exact dllLost_kept hs

theorem execTdcRelock_kept {Q} {m} {mask} {data} {s : State} (hs : State.Kept Q s) :
    ∀ t, execTdcRelock m mask data s = .next t → State.Kept Q t := by
  intro t ht
  unfold execTdcRelock at ht
  cases ht
  exact busReg_kept hs

theorem execDllRelockComplete_kept {Q} {q} {s : State} (hs : State.Kept Q s) :
    ∀ t, execDllRelockComplete q s = .next t → State.Kept Q t := by
  intro t ht
  unfold execDllRelockComplete at ht
  cases ht
  exact relockComplete_kept hs

theorem execXoPullStep_kept {Q} {s : State} (hs : State.Kept Q s) :
    ∀ t, execXoPullStep s = .next t → State.Kept Q t := by
  intro t ht
  unfold execXoPullStep at ht
  cases ht
  exact xoPullStep_kept hs

theorem execTxnBegin_kept {Q} {m} {u} {s : State} (hs : State.Kept Q s) :
    ∀ t, execTxnBegin m u s = .next t → State.Kept Q t := by
  intro t ht
  unfold execTxnBegin at ht
  cases ht
  exact busReg_kept hs

theorem execTxnCommit_kept {Q} {m} {u} {c} {s : State} (hs : State.Kept Q s) :
    ∀ t, execTxnCommit m u c s = .next t → State.Kept Q t := by
  intro t ht
  cases ht
  exact kept_ite (State.setTxn_kept (busReg_kept hs)) (busReg_kept hs)

theorem execTxnRollback_kept {Q} {m} {u} {s : State} (hs : State.Kept Q s) :
    ∀ t, execTxnRollback m u s = .next t → State.Kept Q t := by
  intro t ht
  unfold execTxnRollback at ht
  cases ht
  exact busReg_kept hs

theorem execTxnCommitMoment_kept {Q} {u} {s : State} (hs : State.Kept Q s) :
    ∀ t, execTxnCommitMoment u s = .next t → State.Kept Q t := by
  intro t ht
  unfold execTxnCommitMoment at ht
  cases ht
  refine kept_ite ?_ ?_
  · exact hs
  · exact txnMoment_kept hs

theorem execTxnDeferredPostedApply_kept {Q} {pstat} {s : State} (hs : State.Kept Q s) :
    ∀ t, execTxnDeferredPostedApply pstat s = .next t → State.Kept Q t := by
  intro t ht
  unfold execTxnDeferredPostedApply at ht
  cases ht
  refine kept_ite ?_ ?_
  · exact hs
  · exact deferredApply_kept hs

theorem execNext_kept {Q} {q} {s : State} (hs : State.Kept Q s) :
    ∀ t, execNext q s = .next t → State.Kept Q t := by
  intro t ht
  unfold execNext at ht
  cases ht
  exact decideWord_kept hs

theorem execJmp_kept {Q} {q} {s : State} (hs : State.Kept Q s) :
    ∀ t, execJmp q s = .next t → State.Kept Q t := by
  intro t ht
  unfold execJmp at ht
  cases ht
  exact decideWord_kept hs

theorem execJcond_kept {Q} {q} {s : State} (hs : State.Kept Q s) :
    ∀ t, execJcond q s = .next t → State.Kept Q t := by
  intro t ht
  unfold execJcond at ht
  cases ht
  exact decideWord_kept hs

theorem execCall_kept {Q} {q} {s : State} (hs : State.Kept Q s) :
    ∀ t, execCall q s = .next t → State.Kept Q t := by
  intro t ht
  unfold execCall at ht
  cases ht
  exact decideWord_kept hs

theorem execRet_kept {Q} {q} {s : State} (hs : State.Kept Q s) :
    ∀ t, execRet q s = .next t → State.Kept Q t := by
  intro t ht
  unfold execRet at ht
  cases ht
  exact decideWord_kept hs

theorem execLoopb_kept {Q} {q} {s : State} (hs : State.Kept Q s) :
    ∀ t, execLoopb q s = .next t → State.Kept Q t := by
  intro t ht
  unfold execLoopb at ht
  cases ht
  exact decideWord_kept hs

theorem execLoope_kept {Q} {q} {s : State} (hs : State.Kept Q s) :
    ∀ t, execLoope q s = .next t → State.Kept Q t := by
  intro t ht
  unfold execLoope at ht
  cases ht
  exact decideWord_kept hs

theorem execWaittrg_kept {Q} {q} {s : State} (hs : State.Kept Q s) :
    ∀ t, execWaittrg q s = .next t → State.Kept Q t := by
  intro t ht
  unfold execWaittrg at ht
  cases ht
  exact decideWaittrg_kept hs

theorem execWaitmark_kept {Q} {q} {s : State} (hs : State.Kept Q s) :
    ∀ t, execWaitmark q s = .next t → State.Kept Q t := by
  intro t ht
  unfold execWaitmark at ht
  cases ht
  exact decideWaitmark_kept hs

theorem execSync_kept {Q} {q} {s : State} (hs : State.Kept Q s) :
    ∀ t, execSync q s = .next t → State.Kept Q t := by
  intro t ht
  unfold execSync at ht
  cases ht
  exact decideSync_kept hs

theorem execCommit_kept {Q} {q} {s : State} (hs : State.Kept Q s) :
    ∀ t, execCommit q s = .next t → State.Kept Q t := by
  intro t ht
  unfold execCommit at ht
  cases ht
  exact actWord_kept hs

theorem execPxfer_kept {Q} {q} {s : State} (hs : State.Kept Q s) :
    ∀ t, execPxfer q s = .next t → State.Kept Q t := by
  intro t ht
  unfold execPxfer at ht
  cases ht
  exact actWord_kept hs

theorem execTarm_kept {Q} {q} {s : State} (hs : State.Kept Q s) :
    ∀ t, execTarm q s = .next t → State.Kept Q t := by
  intro t ht
  unfold execTarm at ht
  cases ht
  exact actWord_kept hs

theorem execCalwin_kept {Q} {q} {s : State} (hs : State.Kept Q s) :
    ∀ t, execCalwin q s = .next t → State.Kept Q t := by
  intro t ht
  unfold execCalwin at ht
  cases ht
  exact actWord_kept hs

theorem execHold_kept {Q} {q} {s : State} (hs : State.Kept Q s) :
    ∀ t, execHold q s = .next t → State.Kept Q t := by
  intro t ht
  unfold execHold at ht
  cases ht
  exact decideHold_kept hs

theorem execHalt_kept {Q} {q} {s : State} (hs : State.Kept Q s) :
    ∀ t, execHalt q s = .next t → State.Kept Q t := by
  intro t ht
  unfold execHalt at ht
  cases ht
  exact decideHaltWord_kept hs

theorem execWelt_kept {Q} {q} {s : State} (hs : State.Kept Q s) :
    ∀ t, execWelt q s = .next t → State.Kept Q t := by
  intro t ht
  unfold execWelt at ht
  cases ht
  exact welt_kept hs

theorem execExitDecisionPoint_kept {Q} {q} {s : State} (hs : State.Kept Q s) :
    ∀ t, execExitDecisionPoint q s = .next t → State.Kept Q t := by
  intro t ht
  unfold execExitDecisionPoint at ht
  cases ht
  exact exitDecision_kept hs

theorem execStallExit_kept {Q} {q} {s : State} (hs : State.Kept Q s) :
    ∀ t, execStallExit q s = .next t → State.Kept Q t := by
  intro t ht
  unfold execStallExit at ht
  cases ht
  exact stallExit_kept hs

theorem execWaitTimeout_kept {Q} {q} {s : State} (hs : State.Kept Q s) :
    ∀ t, execWaitTimeout q s = .next t → State.Kept Q t := by
  intro t ht
  unfold execWaitTimeout at ht
  cases ht
  exact waitTimeout_kept hs

theorem execRefillJobIssue_kept {Q} {q} {s : State} (hs : State.Kept Q s) :
    ∀ t, execRefillJobIssue q s = .next t → State.Kept Q t := by
  intro t ht
  unfold execRefillJobIssue at ht
  cases ht
  exact refillIssue_kept hs

theorem execRefillHoldExit_kept {Q} {q} {s : State} (hs : State.Kept Q s) :
    ∀ t, execRefillHoldExit q s = .next t → State.Kept Q t := by
  intro t ht
  unfold execRefillHoldExit at ht
  cases ht
  exact refillExit_kept hs

end Sys2Proof.Machine
end

