-- ==== Sys2Proof/Laws/KeptTick.lean ====
section
/-! SUPPORT. The operations of Machine/Tick.lean keep `State.Kept`. -/

namespace Sys2Proof.Machine

theorem spans_kept {Q} {n} {s : State} (hs : State.Kept Q s) : State.Kept Q (spans n s) := by
  induction n generalizing s with
  | zero => exact hs
  | succ n ih => exact ih (hostSpan_kept hs)

theorem tickPclk_kept {Q} {s : State} (hs : State.Kept Q s) :
    State.Kept Q (tickPclk s) := by
  delta tickPclk
  extract_lets -merge -useContext +implicits t_0 s_1 s_2 s_3
  try clear_value t_0
  have hs_1 : State.Kept Q s_1 := by
    unfold s_1
    exact kept_mk hs
  try clear_value s_1
  have hs_2 : State.Kept Q s_2 := by
    unfold s_2
    refine kept_ite ?_ ?_
    · exact State.count_kept hs_1
    · exact hs_1
  try clear_value s_2
  have hs_3 : State.Kept Q s_3 := by
    unfold s_3
    refine kept_ite ?_ ?_
    · exact State.count_kept hs_2
    · exact hs_2
  try clear_value s_3
  refine kept_ite ?_ ?_
  · exact hostSpan_kept hs_3
  · exact hs_3

theorem tickSko_kept {Q} {s : State} (hs : State.Kept Q s) :
    State.Kept Q (tickSko s) := by
  delta tickSko
  extract_lets -merge -useContext +implicits s_0
  have hs_0 : State.Kept Q s_0 := by
    unfold s_0
    exact kept_mk hs
  try clear_value s_0
  refine kept_ite ?_ ?_
  · exact hs_0
  · exact spans_kept (State.count_kept (State.count_kept hs_0))

theorem tick_kept {Q} {s : State} (hs : State.Kept Q s) :
    State.Kept Q (tick s) := by
  delta tick
  refine kept_ite ?_ ?_
  · exact hs
  · refine kept_ite ?_ ?_
    · exact tickPclk_kept hs
    · exact tickSko_kept hs

end Sys2Proof.Machine
end

