-- ==== Sys2Proof/Laws/Rows.lean ====
section
/-! SUPPORT. The rows of the registers that commands write or read, and the block whose part of `applyReg` takes them. -/

namespace Sys2Proof.Machine

/-! ### Rows -/

set_option maxRecDepth 4000 in
theorem plain_EVC_SEL (n : Fin 64) : plainReg (R.EVC_SEL n.val) ⟨0x68000, [(64, 0x20)], 0xF7FF, 0x800, 0, [], 0⟩ none = true := by
  revert n
  decide

set_option maxRecDepth 4000 in
theorem plain_EVC_CNT_L (n : Fin 64) : plainReg (R.EVC_CNT_L n.val) ⟨0x68004, [(64, 0x20)], 0, 0, 0, [], 0⟩ none = true := by
  revert n
  decide

theorem plain_EVC_CTRL : plainReg R.EVC_CTRL ⟨0x68800, [], 0xFFFA, 5, 0, [], 0⟩ none = true := by decide

theorem plain_CAL_MREQ : plainReg R.CAL_MREQ ⟨327704, [], 65503, 0, 0, [], 0⟩ none = true := by decide

theorem plain_CLK_SRC : plainReg R.CLK_SRC ⟨0x1000, [], 0xFFFF, 0, 0, [(0, 2), (2, 2)], 0⟩ none = true := by decide

theorem plain_FLT_CTRL : plainReg R.FLT_CTRL ⟨0x10000, [], 0xFFFE, 1, 0, [(1, 1)], 2⟩ none = true := by decide

theorem plain_FLT_FE_SRC : plainReg R.FLT_FE_SRC ⟨0x10020, [], 0x7800, 0, 0x8000, [], 0⟩ none = true := by decide

theorem plain_LACE_CTRL : plainReg R.LACE_CTRL ⟨0x20000, [], 65411, 124, 0, [(0, 1)], 3⟩ none = true := by decide

theorem plain_LEDG_CTRL : plainReg R.LEDG_CTRL ⟨417920, [], 64511, 1024, 0, [(0, 1), (1, 3), (4, 6)], 85⟩ none = true := by decide

theorem plain_MEM_QCMD (q : Fin 16) : plainReg (R.MEM_QCMD q.val) ⟨197124, [(16, 32)], 0, 1, 0, [], 0⟩ none = true := by
  revert q
  decide

theorem plain_MEM_WIN_SIZE (n : Fin 16) : plainReg (R.MEM_WIN_SIZE n.val) ⟨196868, [(16, 16)], 32767, 0, 0, [], 0⟩ none = true := by
  revert n
  decide

theorem plain_MEM_WIN_BASE (n : Fin 16) : plainReg (R.MEM_WIN_BASE n.val) ⟨196864, [(16, 16)], 32767, 0, 0, [], 0⟩ none = true := by
  revert n
  decide

theorem plain_PE_CTRL (n : Fin 16) : plainReg (R.PE_CTRL n.val) ⟨0, [], 65531, 4, 0, [], 0⟩ none = true := by
  revert n
  decide

theorem plain_TX_ADD (n : Fin 17) : plainReg (portBase n.val + 0x14) ⟨20, [], 1023, 0, 0, [], 0⟩ none = true := by
  revert n
  decide

theorem plain_THM_BROKEN_CLR_L : plainReg R.THM_BROKEN_CLR_L ⟨393236, [], 0, 65535, 0, [], 0⟩ none = true := by decide

theorem plain_THM_BROKEN_CLR_H : plainReg R.THM_BROKEN_CLR_H ⟨0x60018, [], 0xFFFE, 1, 0, [], 0⟩ none = true := by decide

theorem plain_QSEQ_CTRL (q : Fin 16) : plainReg (R.QSEQ_CTRL q.val) ⟨0, [], 65472, 63, 0, [], 0⟩ none = true := by
  revert q
  decide

theorem plain_QSEQ_FLAG_SET (q : Fin 16) : plainReg (R.QSEQ_FLAG_SET q.val) ⟨36, [], 0, 65535, 0, [], 0⟩ none = true := by
  revert q
  decide

theorem plain_QSEQ_FLAG_CLR (q : Fin 16) : plainReg (R.QSEQ_FLAG_CLR q.val) ⟨44, [], 0, 65535, 0, [], 0⟩ none = true := by
  revert q
  decide

theorem plain_CHIP_RST : plainReg R.CHIP_RST ⟨8, [], 248, 65287, 0, [], 0⟩ none = true := by decide

theorem plain_CHIP_BOOT_CTRL : plainReg R.CHIP_BOOT_CTRL ⟨256, [], 65534, 1, 0, [], 2⟩ none = true := by decide

theorem plain_CHIP_BOOT_HDATA_H : plainReg R.CHIP_BOOT_HDATA_H ⟨288, [], 65535, 0, 0, [], 0⟩ none = true := by decide

set_option maxRecDepth 4000 in
theorem plain_TDC_CTRL (u : Fin 64) : plainReg (R.TDC_CTRL u.val) ⟨0, [], 65529, 6, 0, [], 0⟩ none = true := by
  revert u
  decide

theorem plain_TDCC_RELOCK : plainReg R.TDCC_RELOCK ⟨163968, [], 0, 65535, 0, [], 0⟩ none = true := by decide

/-- A quarter register is found by its offset in the quarter's block. -/
theorem rowOf_quarter (q o : Nat) (hq : q < 16) (ho : o < 0x10000) :
    rowOf (0x100000 + q * 0x10000 + o) = findRow quarterBlocks o := by
  have h : (decide (0x100000 ≤ 0x100000 + q * 0x10000 + o) && decide (0x100000 + q * 0x10000 + o < 0x200000)) = true := by
    simp only [Bool.and_eq_true, decide_eq_true_eq]
    omega
  have e : (0x100000 + q * 0x10000 + o - 0x100000) % 0x10000 = o := by omega
  unfold rowOf
  rw [if_pos h, e]

theorem row_NVM_CMD : rowOf R.NVM_CMD = some ⟨360448, [], 65532, 3, 0, [], 0⟩ := by decide

set_option maxRecDepth 4000 in
theorem row_SG_CMD (n : Fin 64) : rowOf (R.SG_CMD n.val) = some ⟨44, [], 0xFFFE, 1, 0, [], 0⟩ := by
  revert n
  decide

theorem row_PWR_REQ : rowOf R.PWR_REQ = some ⟨8192, [], 65519, 16, 0, [], 0⟩ := by decide

theorem row_PWR_QOFF : rowOf R.PWR_QOFF = some ⟨8228, [], 0, 65535, 0, [], 0⟩ := by decide

theorem row_PWR_QON : rowOf R.PWR_QON = some ⟨8232, [], 0, 65535, 0, [], 0⟩ := by decide

theorem row_PWR_PAD_HOLD : rowOf R.PWR_PAD_HOLD = some ⟨8200, [], 65533, 0, 2, [], 1⟩ := by decide

set_option maxRecDepth 4000 in
theorem findRow_CH_PMU_CMD (k : Fin 64) : findRow quarterBlocks (0x8000 + k.val * 0x200 + 0x18c) = some ⟨396, [], 65532, 3, 0, [], 0⟩ := by
  revert k
  decide

theorem row_CH_PMU_CMD (c : Fin 1024) : rowOf (R.CH_PMU_CMD c.val) = some ⟨396, [], 65532, 3, 0, [], 0⟩ := by
  have h := rowOf_quarter (c.val / 64) (0x8000 + (c.val % 64) * 0x200 + 0x18c) (by omega) (by omega)
  have e : R.CH_PMU_CMD c.val = 0x100000 + c.val / 64 * 0x10000 + (0x8000 + (c.val % 64) * 0x200 + 0x18c) := by
    unfold R.CH_PMU_CMD quarterBase
    omega
  rw [e, h]
  exact findRow_CH_PMU_CMD ⟨c.val % 64, by omega⟩

set_option maxRecDepth 4000 in
theorem findRow_CH_PROT (k : Fin 64) : findRow quarterBlocks (0x8000 + k.val * 0x200 + 0x8) = some ⟨8, [], 65519, 16, 0, [(0, 1), (1, 2)], 1⟩ := by
  revert k
  decide

theorem row_CH_PROT (c : Fin 1024) : rowOf (R.CH_PROT c.val) = some ⟨8, [], 65519, 16, 0, [(0, 1), (1, 2)], 1⟩ := by
  have h := rowOf_quarter (c.val / 64) (0x8000 + (c.val % 64) * 0x200 + 0x8) (by omega) (by omega)
  have e : R.CH_PROT c.val = 0x100000 + c.val / 64 * 0x10000 + (0x8000 + (c.val % 64) * 0x200 + 0x8) := by
    unfold R.CH_PROT quarterBase
    omega
  rw [e, h]
  exact findRow_CH_PROT ⟨c.val % 64, by omega⟩

set_option maxRecDepth 4000 in
theorem findRow_CH_DRV_CTRL (k : Fin 64) : findRow quarterBlocks (0x8000 + k.val * 0x200 + 0x0) = some ⟨0, [], 65535, 0, 0, [], 4⟩ := by
  revert k
  decide

theorem row_CH_DRV_CTRL (c : Fin 1024) : rowOf (R.CH_DRV_CTRL c.val) = some ⟨0, [], 65535, 0, 0, [], 4⟩ := by
  have h := rowOf_quarter (c.val / 64) (0x8000 + (c.val % 64) * 0x200 + 0x0) (by omega) (by omega)
  have e : R.CH_DRV_CTRL c.val = 0x100000 + c.val / 64 * 0x10000 + (0x8000 + (c.val % 64) * 0x200 + 0x0) := by
    unfold R.CH_DRV_CTRL quarterBase
    omega
  rw [e, h]
  exact findRow_CH_DRV_CTRL ⟨c.val % 64, by omega⟩

set_option maxRecDepth 4000 in
theorem findRow_CH_LQ_PUSH (k : Fin 64) : findRow quarterBlocks (0x8000 + k.val * 0x200 + 0x108) = some ⟨264, [], 65535, 0, 0, [], 0⟩ := by
  revert k
  decide

theorem row_CH_LQ_PUSH (c : Fin 1024) : rowOf (R.CH_LQ_PUSH c.val) = some ⟨264, [], 65535, 0, 0, [], 0⟩ := by
  have h := rowOf_quarter (c.val / 64) (0x8000 + (c.val % 64) * 0x200 + 0x108) (by omega) (by omega)
  have e : R.CH_LQ_PUSH c.val = 0x100000 + c.val / 64 * 0x10000 + (0x8000 + (c.val % 64) * 0x200 + 0x108) := by
    unfold R.CH_LQ_PUSH quarterBase
    omega
  rw [e, h]
  exact findRow_CH_LQ_PUSH ⟨c.val % 64, by omega⟩

set_option maxRecDepth 4000 in
theorem findRow_CH_LQ_CFG (k : Fin 64) : findRow quarterBlocks (0x8000 + k.val * 0x200 + 0x100) = some ⟨256, [], 65519, 16, 0, [], 0⟩ := by
  revert k
  decide

theorem row_CH_LQ_CFG (c : Fin 1024) : rowOf (R.CH_LQ_CFG c.val) = some ⟨256, [], 65519, 16, 0, [], 0⟩ := by
  have h := rowOf_quarter (c.val / 64) (0x8000 + (c.val % 64) * 0x200 + 0x100) (by omega) (by omega)
  have e : R.CH_LQ_CFG c.val = 0x100000 + c.val / 64 * 0x10000 + (0x8000 + (c.val % 64) * 0x200 + 0x100) := by
    unfold R.CH_LQ_CFG quarterBase
    omega
  rw [e, h]
  exact findRow_CH_LQ_CFG ⟨c.val % 64, by omega⟩

set_option maxRecDepth 4000 in
theorem findRow_QTS_FTW_H (k : Fin 64) : findRow quarterBlocks (0x1000 + 0x810 + k.val * 0x20) = some ⟨2064, [(64, 32)], 65535, 0, 0, [], 0⟩ := by
  revert k
  decide

theorem row_QTS_FTW_H (c : Fin 1024) : rowOf (R.QTS_FTW_H (c.val / 64) (c.val % 64)) = some ⟨2064, [(64, 32)], 65535, 0, 0, [], 0⟩ := by
  have h := rowOf_quarter (c.val / 64) (0x1000 + 0x810 + (c.val % 64) * 0x20) (by omega) (by omega)
  have e : R.QTS_FTW_H (c.val / 64) (c.val % 64) = 0x100000 + c.val / 64 * 0x10000 + (0x1000 + 0x810 + (c.val % 64) * 0x20) := by
    unfold R.QTS_FTW_H quarterBase
    omega
  rw [e, h]
  exact findRow_QTS_FTW_H ⟨c.val % 64, by omega⟩

/-- The state register of an entity: RCLR is its one start bit. -/
theorem plain_entity (x : Fin 225) : ∃ r, plainReg (entAddr x.val) r none = true ∧ r.wt = 256 := by
  by_cases h1 : x.val < 128
  · refine ⟨⟨69632, [(128, 4)], 32496, 256, 0, [], 0⟩, ?_, rfl⟩
    have : ∀ i : Fin 128, plainReg (0x11000 + 4 * i.val) ⟨69632, [(128, 4)], 32496, 256, 0, [], 0⟩ none = true := by decide
    have h := this ⟨x.val, h1⟩
    unfold entAddr
    rw [if_pos h1]
    exact h
  by_cases h2 : x.val < 144
  · refine ⟨⟨70144, [(16, 4)], 0x7EF0, 0x100, 0, [], 0⟩, ?_, rfl⟩
    have : ∀ i : Fin 16, plainReg (0x11200 + 4 * i.val) ⟨70144, [(16, 4)], 0x7EF0, 0x100, 0, [], 0⟩ none = true := by decide
    have h := this ⟨x.val - 128, by omega⟩
    unfold entAddr
    rw [if_neg h1, if_pos h2]
    exact h
  by_cases h3 : x.val < 224
  · refine ⟨⟨70400, [(80, 4)], 0x7EF0, 0x100, 0, [], 0⟩, ?_, rfl⟩
    have : ∀ i : Fin 80, plainReg (0x11300 + 4 * i.val) ⟨70400, [(80, 4)], 0x7EF0, 0x100, 0, [], 0⟩ none = true := by decide
    have h := this ⟨x.val - 144, by omega⟩
    unfold entAddr
    rw [if_neg h1, if_neg h2, if_pos h3]
    exact h
  · refine ⟨⟨65544, [], 7920, 256, 0, [], 0⟩, ?_, rfl⟩
    have : x.val = 224 := by omega
    rw [this]
    decide

/-! ### Blocks -/

theorem applyReg_quarter {m : Master} {a : Nat} {r : RegRow} (mask data : Word) (b : Nat) (s : State)
    (hr : rowOf a = some r) (h : 0x100000 ≤ a) :
    applyReg m a mask data b s = wrQuarter ⟨m, a, mask, data, r.rw, r.wt, b⟩ s := by
  unfold applyReg
  rw [hr]
  dsimp only
  repeat' first
    | rw [if_neg (by omega)]
    | rw [if_pos (by omega)]

theorem applyReg_chip {m : Master} {a : Nat} {r : RegRow} (mask data : Word) (b : Nat) (s : State)
    (hr : rowOf a = some r) (h : a < 0x400) :
    applyReg m a mask data b s = wrChip ⟨m, a, mask, data, r.rw, r.wt, b⟩ s := by
  unfold applyReg
  rw [hr]
  dsimp only
  repeat' first
    | rw [if_neg (by omega)]
    | rw [if_pos (by omega)]

theorem applyReg_clk {m : Master} {a : Nat} {r : RegRow} (mask data : Word) (b : Nat) (s : State)
    (hr : rowOf a = some r) (h : 0x1000 ≤ a ∧ a < 0x2000) :
    applyReg m a mask data b s = wrClk ⟨m, a, mask, data, r.rw, r.wt, b⟩ s := by
  unfold applyReg
  rw [hr]
  dsimp only
  repeat' first
    | rw [if_neg (by omega)]
    | rw [if_pos (by omega)]

theorem applyReg_pwr {m : Master} {a : Nat} {r : RegRow} (mask data : Word) (b : Nat) (s : State)
    (hr : rowOf a = some r) (h : 0x2000 ≤ a ∧ a < 0x3000) :
    applyReg m a mask data b s = wrPwr ⟨m, a, mask, data, r.rw, r.wt, b⟩ s := by
  unfold applyReg
  rw [hr]
  dsimp only
  repeat' first
    | rw [if_neg (by omega)]
    | rw [if_pos (by omega)]

theorem applyReg_flt {m : Master} {a : Nat} {r : RegRow} (mask data : Word) (b : Nat) (s : State)
    (hr : rowOf a = some r) (h : 0x10000 ≤ a ∧ a < 0x18000) :
    applyReg m a mask data b s = wrFlt ⟨m, a, mask, data, r.rw, r.wt, b⟩ s := by
  unfold applyReg
  rw [hr]
  dsimp only
  repeat' first
    | rw [if_neg (by (try simp only [Bool.and_eq_true, decide_eq_true_eq, not_and]); omega)]
    | rw [if_pos (by (try simp only [Bool.and_eq_true, decide_eq_true_eq]); omega)]

theorem applyReg_lace {m : Master} {a : Nat} {r : RegRow} (mask data : Word) (b : Nat) (s : State)
    (hr : rowOf a = some r) (h : 0x20000 ≤ a ∧ a < 0x20200) :
    applyReg m a mask data b s = wrLace ⟨m, a, mask, data, r.rw, r.wt, b⟩ s := by
  unfold applyReg
  rw [hr]
  dsimp only
  repeat' first
    | rw [if_neg (by (try simp only [Bool.and_eq_true, decide_eq_true_eq, not_and]); omega)]
    | rw [if_pos (by (try simp only [Bool.and_eq_true, decide_eq_true_eq]); omega)]

theorem applyReg_tdcc {m : Master} {a : Nat} {r : RegRow} (mask data : Word) (b : Nat) (s : State)
    (hr : rowOf a = some r) (h : 0x28000 ≤ a ∧ a < 0x28100) :
    applyReg m a mask data b s = wrTdcc ⟨m, a, mask, data, r.rw, r.wt, b⟩ s := by
  unfold applyReg
  rw [hr]
  dsimp only
  repeat' first
    | rw [if_neg (by (try simp only [Bool.and_eq_true, decide_eq_true_eq, not_and]); omega)]
    | rw [if_pos (by (try simp only [Bool.and_eq_true, decide_eq_true_eq]); omega)]

theorem applyReg_mem {m : Master} {a : Nat} {r : RegRow} (mask data : Word) (b : Nat) (s : State)
    (hr : rowOf a = some r) (h : 0x30000 ≤ a ∧ a < 0x36000) :
    applyReg m a mask data b s = wrMem ⟨m, a, mask, data, r.rw, r.wt, b⟩ s := by
  unfold applyReg
  rw [hr]
  dsimp only
  repeat' first
    | rw [if_neg (by (try simp only [Bool.and_eq_true, decide_eq_true_eq, not_and]); omega)]
    | rw [if_pos (by (try simp only [Bool.and_eq_true, decide_eq_true_eq]); omega)]

theorem applyReg_cal {m : Master} {a : Nat} {r : RegRow} (mask data : Word) (b : Nat) (s : State)
    (hr : rowOf a = some r) (h : 0x50000 ≤ a ∧ a < 0x50100) :
    applyReg m a mask data b s = wrCal ⟨m, a, mask, data, r.rw, r.wt, b⟩ s := by
  unfold applyReg
  rw [hr]
  dsimp only
  repeat' first
    | rw [if_neg (by (try simp only [Bool.and_eq_true, decide_eq_true_eq, not_and]); omega)]
    | rw [if_pos (by (try simp only [Bool.and_eq_true, decide_eq_true_eq]); omega)]

theorem applyReg_nvm {m : Master} {a : Nat} {r : RegRow} (mask data : Word) (b : Nat) (s : State)
    (hr : rowOf a = some r) (h : 0x58000 ≤ a ∧ a < 0x58400) :
    applyReg m a mask data b s = wrNvm ⟨m, a, mask, data, r.rw, r.wt, b⟩ s := by
  unfold applyReg
  rw [hr]
  dsimp only
  repeat' first
    | rw [if_neg (by (try simp only [Bool.and_eq_true, decide_eq_true_eq, not_and]); omega)]
    | rw [if_pos (by (try simp only [Bool.and_eq_true, decide_eq_true_eq]); omega)]

theorem applyReg_thm {m : Master} {a : Nat} {r : RegRow} (mask data : Word) (b : Nat) (s : State)
    (hr : rowOf a = some r) (h : 0x60000 ≤ a ∧ a < 0x60100) :
    applyReg m a mask data b s = wrThm ⟨m, a, mask, data, r.rw, r.wt, b⟩ s := by
  unfold applyReg
  rw [hr]
  dsimp only
  repeat' first
    | rw [if_neg (by (try simp only [Bool.and_eq_true, decide_eq_true_eq, not_and]); omega)]
    | rw [if_pos (by (try simp only [Bool.and_eq_true, decide_eq_true_eq]); omega)]

theorem applyReg_ledg {m : Master} {a : Nat} {r : RegRow} (mask data : Word) (b : Nat) (s : State)
    (hr : rowOf a = some r) (h : 0x64000 ≤ a ∧ a < 0x66400) :
    applyReg m a mask data b s = wrLedg ⟨m, a, mask, data, r.rw, r.wt, b⟩ s := by
  unfold applyReg
  rw [hr]
  dsimp only
  repeat' first
    | rw [if_neg (by (try simp only [Bool.and_eq_true, decide_eq_true_eq, not_and]); omega)]
    | rw [if_pos (by (try simp only [Bool.and_eq_true, decide_eq_true_eq]); omega)]

theorem applyReg_evc {m : Master} {a : Nat} {r : RegRow} (mask data : Word) (b : Nat) (s : State)
    (hr : rowOf a = some r) (h : 0x68000 ≤ a ∧ a < 0x68900) :
    applyReg m a mask data b s = wrEvc ⟨m, a, mask, data, r.rw, r.wt, b⟩ s := by
  unfold applyReg
  rw [hr]
  dsimp only
  repeat' first
    | rw [if_neg (by (try simp only [Bool.and_eq_true, decide_eq_true_eq, not_and]); omega)]
    | rw [if_pos (by (try simp only [Bool.and_eq_true, decide_eq_true_eq]); omega)]

theorem applyReg_sg {m : Master} {a : Nat} {r : RegRow} (mask data : Word) (b : Nat) (s : State)
    (hr : rowOf a = some r) (h : 0x70000 ≤ a ∧ a < 0x80000) :
    applyReg m a mask data b s = wrSg ⟨m, a, mask, data, r.rw, r.wt, b⟩ s := by
  unfold applyReg
  rw [hr]
  dsimp only
  repeat' first
    | rw [if_neg (by (try simp only [Bool.and_eq_true, decide_eq_true_eq, not_and]); omega)]
    | rw [if_pos (by (try simp only [Bool.and_eq_true, decide_eq_true_eq]); omega)]

theorem applyReg_port {m : Master} {a : Nat} {r : RegRow} (mask data : Word) (b : Nat) (s : State)
    (hr : rowOf a = some r) (h : 0x84000 ≤ a ∧ a < 0xA4000) :
    applyReg m a mask data b s =
      wrPort ((a - 0x84000) / 0x2000) ((a - 0x84000) % 0x2000) ⟨m, a, mask, data, r.rw, r.wt, b⟩ s := by
  unfold applyReg
  rw [hr]
  dsimp only
  repeat' first
    | rw [if_neg (by (try simp only [Bool.and_eq_true, decide_eq_true_eq, not_and]); omega)]
    | rw [if_pos (by (try simp only [Bool.and_eq_true, decide_eq_true_eq]); omega)]

theorem applyReg_spx0 {m : Master} {a : Nat} {r : RegRow} (mask data : Word) (b : Nat) (s : State)
    (hr : rowOf a = some r) (h : 0x80000 ≤ a ∧ a < 0x80300) :
    applyReg m a mask data b s = wrPort 16 (a - 0x80000) ⟨m, a, mask, data, r.rw, r.wt, b⟩ s := by
  unfold applyReg
  rw [hr]
  dsimp only
  repeat' first
    | rw [if_neg (by (try simp only [Bool.and_eq_true, decide_eq_true_eq, not_and]); omega)]
    | rw [if_pos (by (try simp only [Bool.and_eq_true, decide_eq_true_eq]); omega)]

end Sys2Proof.Machine
end

