-- ==== Sys2Proof/Laws/Put.lean ====
section
/-! SUPPORT. A write's effect on its own register: `Wr.put`. -/

namespace Sys2Proof.Machine

/-- A write whose mask meets no writable bit stores the register's own value. -/
theorem value_of_mask_zero (w : Wr) (s : State) (h : w.mask &&& BitVec.ofNat 16 w.rw = 0#16) : w.value s = s.reg w.a := by
  unfold Wr.value
  rw [h]
  simp only [BitVec.not_zero, BitVec.and_allOnes, BitVec.and_zero, BitVec.or_zero]

theorem put_reg (w : Wr) (s : State) (a : Nat) :
    (w.put s).reg a = if a = w.a then w.value s else s.reg a := by
  unfold Wr.put
  split
  · rename_i h
    split
    · rename_i ha
      subst ha
      exact (value_of_mask_zero w s (by rw [h]; exact BitVec.zero_and)).symm
    · rfl
  · exact State.reg_setBits _ _ _ _ _

theorem put_reg_ne (w : Wr) (s : State) {a : Nat} (h : a ≠ w.a) : (w.put s).reg a = s.reg a := by
  rw [put_reg, if_neg h]

/-- A write whose mask meets no writable bit leaves every register's value. -/
theorem put_regsKept (w : Wr) (s : State) (h : w.bits = 0) : s.regsKept [] (w.put s) := by
  intro a _
  rw [put_reg]
  split
  · rename_i ha
    have hb : w.mask &&& BitVec.ofNat 16 w.rw = 0 := h
    subst ha
    exact value_of_mask_zero w s hb
  · rfl

theorem put_frame (w : Wr) (s : State) :
    w.put s = { s with regs := (w.put s).regs, copyB := (w.put s).copyB, copyC := (w.put s).copyC } := by
  unfold Wr.put
  split <;> rfl

/-! ### What it leaves alone -/

variable (w : Wr) (s : State)

@[simp] theorem put_pending : (w.put s).pending = s.pending := by rw [put_frame]
@[simp] theorem put_now : (w.put s).now = s.now := by rw [put_frame]
@[simp] theorem put_freeCount : (w.put s).freeCount = s.freeCount := by rw [put_frame]
@[simp] theorem put_hostRc : (w.put s).hostRc = s.hostRc := by rw [put_frame]
@[simp] theorem put_spx1Rc : (w.put s).spx1Rc = s.spx1Rc := by rw [put_frame]
@[simp] theorem put_holdH : (w.put s).holdH = s.holdH := by rw [put_frame]
@[simp] theorem put_holdS : (w.put s).holdS = s.holdS := by rw [put_frame]
@[simp] theorem put_posted : (w.put s).posted = s.posted := by rw [put_frame]
@[simp] theorem put_handed : (w.put s).handed = s.handed := by rw [put_frame]
@[simp] theorem put_cycle : (w.put s).cycle = s.cycle := by rw [put_frame]
@[simp] theorem put_win : (w.put s).win = s.win := by rw [put_frame]
@[simp] theorem put_hbm : (w.put s).hbm = s.hbm := by rw [put_frame]
@[simp] theorem put_msgs : (w.put s).msgs = s.msgs := by rw [put_frame]
@[simp] theorem put_hostMem : (w.put s).hostMem = s.hostMem := by rw [put_frame]
@[simp] theorem put_reads : (w.put s).reads = s.reads := by rw [put_frame]
@[simp] theorem put_ep : (w.put s).ep = s.ep := by rw [put_frame]
@[simp] theorem put_linkUp : (w.put s).linkUp = s.linkUp := by rw [put_frame]
@[simp] theorem put_pcie : (w.put s).pcie = s.pcie := by rw [put_frame]
@[simp] theorem put_evcs : (w.put s).evcs = s.evcs := by rw [put_frame]
@[simp] theorem put_txns : (w.put s).txns = s.txns := by rw [put_frame]
@[simp] theorem put_reported : (w.put s).reported = s.reported := by rw [put_frame]
@[simp] theorem put_srcs : (w.put s).srcs = s.srcs := by rw [put_frame]
@[simp] theorem put_ents : (w.put s).ents = s.ents := by rw [put_frame]
@[simp] theorem put_feHost : (w.put s).feHost = s.feHost := by rw [put_frame]
@[simp] theorem put_feSpx1 : (w.put s).feSpx1 = s.feSpx1 := by rw [put_frame]
@[simp] theorem put_qs : (w.put s).qs = s.qs := by rw [put_frame]
@[simp] theorem put_qm : (w.put s).qm = s.qm := by rw [put_frame]
@[simp] theorem put_qr : (w.put s).qr = s.qr := by rw [put_frame]
@[simp] theorem put_chans : (w.put s).chans = s.chans := by rw [put_frame]
@[simp] theorem put_pmus : (w.put s).pmus = s.pmus := by rw [put_frame]
@[simp] theorem put_adcs : (w.put s).adcs = s.adcs := by rw [put_frame]
@[simp] theorem put_adcAt : (w.put s).adcAt = s.adcAt := by rw [put_frame]
@[simp] theorem put_sgs : (w.put s).sgs = s.sgs := by rw [put_frame]
@[simp] theorem put_led : (w.put s).led = s.led := by rw [put_frame]
@[simp] theorem put_rings : (w.put s).rings = s.rings := by rw [put_frame]
@[simp] theorem put_pumpNext : (w.put s).pumpNext = s.pumpNext := by rw [put_frame]
@[simp] theorem put_pumpAt : (w.put s).pumpAt = s.pumpAt := by rw [put_frame]
@[simp] theorem put_pumpUsed : (w.put s).pumpUsed = s.pumpUsed := by rw [put_frame]
@[simp] theorem put_tdcs : (w.put s).tdcs = s.tdcs := by rw [put_frame]
@[simp] theorem put_dlls : (w.put s).dlls = s.dlls := by rw [put_frame]
@[simp] theorem put_lace : (w.put s).lace = s.lace := by rw [put_frame]
@[simp] theorem put_ports : (w.put s).ports = s.ports := by rw [put_frame]
@[simp] theorem put_spx1 : (w.put s).spx1 = s.spx1 := by rw [put_frame]
@[simp] theorem put_calch : (w.put s).calch = s.calch := by rw [put_frame]
@[simp] theorem put_cal : (w.put s).cal = s.cal := by rw [put_frame]
@[simp] theorem put_nvm : (w.put s).nvm = s.nvm := by rw [put_frame]
@[simp] theorem put_clk : (w.put s).clk = s.clk := by rw [put_frame]
@[simp] theorem put_pwr : (w.put s).pwr = s.pwr := by rw [put_frame]
@[simp] theorem put_thm : (w.put s).thm = s.thm := by rw [put_frame]
@[simp] theorem put_boot : (w.put s).boot = s.boot := by rw [put_frame]
@[simp] theorem put_straps : (w.put s).straps = s.straps := by rw [put_frame]
@[simp] theorem put_installed : (w.put s).installed = s.installed := by rw [put_frame]
@[simp] theorem put_tap : (w.put s).tap = s.tap := by rw [put_frame]
@[simp] theorem put_hostBudget : (w.put s).hostBudget = s.hostBudget := by rw [put_frame]
@[simp] theorem put_heldHost : (w.put s).heldHost = s.heldHost := by rw [put_frame]
@[simp] theorem put_scrubA : (w.put s).scrubA = s.scrubA := by rw [put_frame]
@[simp] theorem put_scrubB : (w.put s).scrubB = s.scrubB := by rw [put_frame]
@[simp] theorem put_scrubAtA : (w.put s).scrubAtA = s.scrubAtA := by rw [put_frame]
@[simp] theorem put_scrubAtB : (w.put s).scrubAtB = s.scrubAtB := by rw [put_frame]
@[simp] theorem put_errAddrHeld : (w.put s).errAddrHeld = s.errAddrHeld := by rw [put_frame]
@[simp] theorem put_acc_rcHost (k : Nat) : (w.put s).rcHost k = s.rcHost k := by rw [put_frame]; rfl
@[simp] theorem put_acc_rcSpx1 (k : Nat) : (w.put s).rcSpx1 k = s.rcSpx1 k := by rw [put_frame]; rfl
@[simp] theorem put_acc_rcBit (k : Fld) : (w.put s).rcBit k = s.rcBit k := by rw [put_frame]; rfl
@[simp] theorem put_acc_winGet (k : Nat) : (w.put s).winGet k = s.winGet k := by rw [put_frame]; rfl
@[simp] theorem put_acc_hbmByte (k : Nat) : (w.put s).hbmByte k = s.hbmByte k := by rw [put_frame]; rfl
@[simp] theorem put_acc_q (k : Nat) : (w.put s).q k = s.q k := by rw [put_frame]; rfl
@[simp] theorem put_acc_m (k : Nat) : (w.put s).m k = s.m k := by rw [put_frame]; rfl
@[simp] theorem put_acc_r (k : Nat) : (w.put s).r k = s.r k := by rw [put_frame]; rfl
@[simp] theorem put_acc_chan (k : Nat) : (w.put s).chan k = s.chan k := by rw [put_frame]; rfl
@[simp] theorem put_acc_pmu (k : Nat) : (w.put s).pmu k = s.pmu k := by rw [put_frame]; rfl
@[simp] theorem put_acc_sg (k : Nat) : (w.put s).sg k = s.sg k := by rw [put_frame]; rfl
@[simp] theorem put_acc_ring (k : Nat) : (w.put s).ring k = s.ring k := by rw [put_frame]; rfl
@[simp] theorem put_acc_tdc (k : Nat) : (w.put s).tdc k = s.tdc k := by rw [put_frame]; rfl
@[simp] theorem put_acc_dll (k : Nat) : (w.put s).dll k = s.dll k := by rw [put_frame]; rfl
@[simp] theorem put_acc_port (k : Nat) : (w.put s).port k = s.port k := by rw [put_frame]; rfl
@[simp] theorem put_acc_calCh (k : Nat) : (w.put s).calCh k = s.calCh k := by rw [put_frame]; rfl
@[simp] theorem put_acc_txn (k : Nat) : (w.put s).txn k = s.txn k := by rw [put_frame]; rfl
@[simp] theorem put_acc_evc (k : Nat) : (w.put s).evc k = s.evc k := by rw [put_frame]; rfl
@[simp] theorem put_acc_ent (k : Nat) : (w.put s).ent k = s.ent k := by rw [put_frame]; rfl
@[simp] theorem put_acc_srcCnt (k : Nat) : (w.put s).srcCnt k = s.srcCnt k := by rw [put_frame]; rfl

end Sys2Proof.Machine
end

