-- ==== Sys2Proof/Tests/Slice0.lean ====
section
/-! SUPPORT. Tests: the operands that WellFormed refuses, a state and operands for the hypotheses of every statement
that has some, clause by clause, and single commands beside figures of the spec. -/

open Sys2Proof Sys2Proof.Machine

namespace Sys2Proof.Tests

-- One theorem at a time: many at once take a thread's stack each.
set_option Elab.async false

/-! ### Ill-formed operands -/

/-- Register addresses are dwords of BAR0's 24 bits (R33). -/
theorem test_wf_register_address :
    (Instr.registerWrite .pcie 0x402 0xF 0).wf = false ∧ (Instr.registerWrite .pcie 0x1000000 0xF 0).wf = false ∧
      (Instr.readClear .pcie 0x401).wf = false ∧ (Instr.latchedRead .spx1 0x1000000).wf = false ∧
      (Instr.votedFieldRead .pcie 3).wf = false ∧ (Instr.quarterWake .pcie true 0x100002 0xF 0).wf = false ∧
      (Instr.fabricAccessTimeout .pcie true false 0x1000001).wf = false ∧ (Instr.spx1Read 0 0x400 0).wf = false ∧
      (Instr.spx1Read 0 0x1000000 1).wf = false ∧ (Instr.spx1Write 0x40 0x402 [0]).wf = false := by decide

/-- Posted writes are delivered for a PSTAT (R37). -/
theorem test_wf_pstat :
    (Instr.postedWriteDelivery 0x1000).wf = false ∧ (Instr.txnDeferredPostedApply 0x70000).wf = false ∧
      (Instr.postedWriteDelivery 0x13FC).wf = true := by decide

/-- BAR2 reaches 2^35 bytes (R49), in whole requests. -/
theorem test_wf_bar2 :
    (Instr.bar2Write 0 []).wf = false ∧ (Instr.bar2Write (2 ^ 35) [0]).wf = false ∧
      (Instr.bar2Read 2 1 0).wf = false ∧ (Instr.bar2Read 0 0 0).wf = false ∧
      (Instr.bar2Read (2 ^ 35) 1 0).wf = false := by decide

/-- Trigger balls and sources 0x01 to 0x18 (Table 3-7). -/
theorem test_wf_trigger :
    (Instr.triggerLatchSet 0).wf = false ∧ (Instr.triggerLatchSet 0x19).wf = false ∧
      (Instr.triggerLatchSet 0x18).wf = true := by decide

theorem test_wf_samples : (Instr.granuleBoundary 0 [(64, [])]).wf = false := by decide

/-- A converter's code has 24 bits (R164). -/
theorem test_wf_measurements :
    (Instr.pmuAdcSlot 0 (2 ^ 23) false).wf = false ∧ (Instr.sgPeriodEnd 0 [-(2 ^ 23) - 1] [0]).wf = false ∧
      (Instr.ledgerSensorResult [(136, 0)] []).wf = false ∧
      (Instr.ledgerSensorResult [] [136]).wf = false := by decide

/-- Fine codes have 11 bits (R233). -/
theorem test_wf_times :
    (Instr.tdcStartEvent 0 2048).wf = false ∧ (Instr.tdcStopEvent 0 2048).wf = false := by decide

/-- Frames and slots as Table 11-4 lays them out. -/
theorem test_wf_frames :
    (Instr.laceFrameReceive (0, 2048) 0 0 false 0 true [] {}).wf = false ∧
      (Instr.laceFrameReceive (0, 0) 0 64 false 0 true [] {}).wf = false ∧
      (Instr.laceFrameReceive (0, 0) 0 0 false 0 true [⟨1, true, 1, false, 64, 0, 0, 0, 0⟩] {}).wf = false ∧
      (Instr.laceFrameReceive (0, 0) 0 0 false 0 true
        [⟨2, true, 1, false, 1, 0, 0, 0, 0⟩, ⟨1, true, 1, false, 1, 0, 0, 0, 0⟩] {}).wf = false ∧
      (Instr.laceSurveyComplete ⟨false, 2 ^ 24, [], [], []⟩).wf = false := by decide

theorem test_wf_engines :
    (Instr.calSlotEnd 0 [⟨64, 0, 0, 0⟩]).wf = false ∧ (Instr.calSlotEnd 0 [⟨0, 0, 1, 2⟩]).wf = false ∧
      (Instr.patrolCycle [] [] 0).wf = false ∧ (Instr.thmReading []).wf = false ∧
      (Instr.votedFieldScrub [(0x12000, 3, 1)]).wf = false ∧ (Instr.votedFieldScrub [(2, 0, 1)]).wf = false := by
  decide

/-- Speeds 1 to 5 and widths 1, 4 and 8 (R48); a TAP code beyond Table 19-12 selects the bypass (R406). -/
theorem test_wf_link_and_port :
    (Instr.linkUp (0, 4) {}).wf = false ∧ (Instr.linkUp (6, 4) {}).wf = false ∧ (Instr.linkUp (5, 2) {}).wf = false ∧
      (Instr.linkUp (5, 8) {}).wf = true ∧ (Instr.tapBypass 3).wf = false := by decide

/-- The table gives its rows no bits, so no word spells a command. -/
theorem test_no_words (n w : Nat) : decodeTableWord n w = none ∧ State.reset.withFetchWord n w = State.reset := by
  simp [decodeTableWord, State.withFetchWord]

/-! ### States for the hypotheses -/

def flds : List (Fld × Nat) → State → State
  | [], s => s
  | (f, n) :: l, s => flds l (s.setFld f n)

/-- A part in RUN on its PLL, boot over, every quarter on, at a granule boundary. -/
def live : State :=
  flds [(F.PWR_QMASK_ON, 0xFFFF), (F.CLK_STAT_CORE_ACT, 2), (F.CLK_STAT_PLL_LOCK, 1), (F.CLK_STAT_IPLL_LOCK, 1),
    (readyFld 0, 1), (readyFld 1, 1), (F.CLK_SRC_CORE, 2), (F.CHIP_BOOT_STAT_STEP, 13), (F.PWR_VID_CUR, 0x64)]
    { State.reset with boot := { up := true }, now := 64000, clk := { xoOn := true, xoCounting := true } }

def servesB (s : State) (m : Master) (a : Nat) : Bool :=
  !s.fabricDown && !s.bit F.CLK_STAT_HOLD && (s.pstate ≠ 3 || !s.centralOff) && !s.mustWait m &&
    (match addrQuarter a with | some q => s.quarterOn q | none => true) && !s.regionClosed a

def takesB (s : State) (m : Master) (a : Nat) : Bool :=
  servesB s m a && !s.bootRefuses m a && (s.capturer m a).isNone && s.outranked m a = 0

def runsB (s : State) (a : Nat) : Bool :=
  !s.fabricDown && !s.bit F.CLK_STAT_HOLD && (match addrQuarter a with | some q => s.quarterOn q | none => true)

theorem serves_of {s : State} {m : Master} {a : Nat} (h : servesB s m a = true) : s.Serves m a := by
  simp only [servesB, Bool.and_eq_true, Bool.or_eq_true, Bool.not_eq_true', decide_eq_true_eq] at h
  obtain ⟨⟨⟨⟨⟨h1, h2⟩, h3⟩, h4⟩, h5⟩, h6⟩ := h
  exact ⟨h1, h2, h3, h4, fun q hq => by simpa [hq] using h5, h6⟩

theorem takes_of {s : State} {m : Master} {a : Nat} (h : takesB s m a = true) : s.Takes m a := by
  simp only [takesB, Bool.and_eq_true, Bool.not_eq_true', Option.isNone_iff_eq_none, decide_eq_true_eq] at h
  exact ⟨serves_of h.1.1.1, h.1.1.2, h.1.2, h.2⟩

theorem runs_of {s : State} {a : Nat} (h : runsB s a = true) : s.Runs a := by
  simp only [runsB, Bool.and_eq_true, Bool.not_eq_true'] at h
  exact ⟨h.1.1, h.1.2, fun q hq => by simpa [hq] using h.2⟩

def soundB (s : State) : Bool :=
  tabWf (fun _ => 0) s.hbm && tabWf winReset s.win && tabWf regReset s.regs && tabWf (fun _ => 0) s.copyB &&
    tabWf (fun _ => 0) s.copyC && tabWf (fun _ => 0) s.hostRc && tabWf (fun _ => 0) s.spx1Rc &&
    tabWf (fun _ => 0) s.holdH && tabWf (fun _ => 0) s.holdS && tabWf (fun _ => none) s.posted &&
    tabWf (fun _ => {}) s.handed && tabWf (fun _ => {}) s.evcs && tabWf (fun _ => {}) s.txns &&
    tabWf (fun _ => {}) s.srcs && tabWf (fun _ => {}) s.ents && tabWf (fun _ => {}) s.qs && tabWf (fun _ => {}) s.qm &&
    tabWf (fun _ => {}) s.qr && tabWf (fun _ => {}) s.chans && tabWf (fun _ => {}) s.pmus && tabWf (fun _ => 0) s.adcs &&
    tabWf (fun _ => 0) s.adcAt && tabWf (fun _ => {}) s.sgs && tabWf (fun _ => {}) s.rings && tabWf (fun _ => {}) s.tdcs &&
    tabWf (fun _ => {}) s.dlls && tabWf (fun _ => {}) s.ports && tabWf (fun _ => {}) s.calch &&
    (s.installed = 1 || s.installed = 2)

theorem sound_of {s : State} (h : soundB s = true) : s.Sound := by
  simp only [soundB, Bool.and_eq_true, Bool.or_eq_true, decide_eq_true_eq] at h
  constructor <;> simp only [h]

theorem live_sound : live.Sound := sound_of (by decide +kernel)

/-- A word of the null segment with its check codes, and a body of it. -/
def word (op cond dur tgt cnt trg : Nat) : Micro :=
  let raw := op * 2 ^ 186 + cond * 2 ^ 180 + dur * 2 ^ 164 + nullSeg * 2 ^ 147 + tgt * 2 ^ 128 + cnt * 2 ^ 72 + trg * 2 ^ 64
  let a := raw / 2 ^ 104 % 2 ^ 88
  let b := raw / 2 ^ 16 % 2 ^ 88
  BitVec.ofNat 192 (a * 2 ^ 104 + b * 2 ^ 16 + codeByte a * 256 + codeByte b)

def body (w : Micro) (a start len played : Nat) : Body :=
  { no := 1, start := start, len := len, segLen := 0, addr := a, word := w, desc := 0, group := 0, snap := [],
    played := played }

/-- Quarter q runs body b, over a store whose words 2 and 9 are NEXT. -/
def running (q : Nat) (b : Body) (s : State) : State :=
  let t := ((s.setFld (F.QSEQ_STAT_STATE q) 1).setCsWord q 2 (word 1 0 16 0 0 0)).setCsWord q 9 (word 1 0 16 0 0 0)
  t.setQ q { t.q q with body := some b }

/-- The body whose word stands at 1, at its decision point. -/
def deciding (op cond cnt trg : Nat) : Body := body (word op cond 16 9 cnt trg) 1 (64000 - 8 * 12) 16 12

def plainB (s : State) (q a : Nat) : Bool :=
  a ≤ 0x3FFF && (match checkMicro (s.csWord q a) with
    | some (w, false) => mwSeg w = nullSeg && !illegalWord w 0 true false
    | _ => false)

theorem plain_of {s : State} {q a : Nat} (h : plainB s q a = true) : s.plainWord q a := by
  simp only [plainB, Bool.and_eq_true, decide_eq_true_eq] at h
  obtain ⟨h1, h2⟩ := h
  refine ⟨h1, ?_⟩
  split at h2
  · rename_i w hw
    simp only [Bool.and_eq_true, decide_eq_true_eq, Bool.not_eq_true'] at h2
    exact ⟨w, hw, h2.1, h2.2⟩
  · cases h2

def weltB (s : State) (q : Nat) (b : Body) : Bool :=
  decide ((s.q q).body = some b) && s.qstate q = 1 && b.len ≤ b.played && b.welt ≤ s.now && b.decided &&
    (s.q q).laceHeld.isNone && (s.q q).parkDue.isNone && b.segLen ≤ b.len

theorem welt_of {s : State} {q : Nat} {b : Body} (h : weltB s q b = true) : s.AtWelt q b := by
  simp only [weltB, Bool.and_eq_true, decide_eq_true_eq, Option.isNone_iff_eq_none] at h
  obtain ⟨⟨⟨⟨⟨⟨⟨h1, h2⟩, h3⟩, h4⟩, h5⟩, h6⟩, h7⟩, h8⟩ := h
  exact ⟨h1, h2, h3, h4, h5, h6, h7, fun h => absurd h (by omega)⟩

theorem row_of {a : Nat} {p : RegRow → Bool} (h : (rowOf a).any p = true) : ∃ r, rowOf a = some r ∧ p r = true := by
  cases hr : rowOf a with
  | none => simp [hr] at h
  | some r => exact ⟨r, rfl, by simpa [hr] using h⟩

/-! ### The hypotheses of the statements, clause by clause -/

/-- A queue of two commands. -/
def queued : State := { live with pending := [.tapIdcode, .linkDown] }

theorem test_meets_StepRunsFront : queued.pending = .tapIdcode :: [.linkDown] := rfl

theorem test_meets_EveryStepKeepsSound : queued.Sound ∧ ∃ t, step queued = .next t := ⟨sound_of (by decide +kernel), _, rfl⟩

theorem test_meets_QueueFirstInFirstOut :
    queued.Sound ∧ queued.pending = .tapIdcode :: [.linkDown] ∧ ∃ t, step queued = .next t :=
  ⟨sound_of (by decide +kernel), rfl, _, rfl⟩

/-- The PCLKs around a pace boundary, the direct modes, and a part whose Shank has no clock. -/
theorem test_meets_IdleStep :
    (live.pending = [] ∧ live.noClock = false ∧ live.patternClock = true ∧ live.heldHost = []) ∧
      (let s : State := { live with now := 64062 }
       s.pending = [] ∧ s.noClock = false ∧ s.patternClock = true ∧ s.heldHost = [] ∧ (64062 + 1) % 64 ≠ 0) ∧
      (let s := flds [(F.CLK_STAT_CORE_ACT, 0)] live
       s.pending = [] ∧ s.noClock = false ∧ s.patternClock = false) ∧
      State.reset.pending = [] ∧ State.reset.noClock = true := by decide +kernel

theorem test_meets_CountersAdd : live.bit F.HOST_IRQ_CFG_IRQ_EN = false := by decide +kernel

theorem test_meets_VotedCopies : (0xFFC : Nat) ≠ 0x400 := by decide

theorem test_meets_EventCountersClear :
    live.Takes .pcie (R.EVC_SEL 0) ∧ live.Takes .spx1 (R.EVC_SEL 63) ∧ live.Takes .pcie R.EVC_CTRL ∧
      (flds [(F.EVC_SEL_SNAP_EN 63, 1)] live).bit (F.EVC_SEL_SNAP_EN 63) = true ∧
      (flds [(F.EVC_SEL_SNAP_EN 63, 1)] live).Takes .pcie R.EVC_CTRL ∧ live.bit F.HOST_IRQ_CFG_IRQ_EN = false :=
  ⟨takes_of (by decide +kernel), takes_of (by decide +kernel), takes_of (by decide +kernel), by decide +kernel,
    takes_of (by decide +kernel), by decide +kernel⟩

/-- The last counter, a latching register, an address that holds nothing, and the table of MSI-X. -/
theorem test_meets_LatchedReads :
    (clears .pcie = true ∧ clears .spx1 = true ∧ clears .boot = false ∧ live.spx1.cut = false ∧
      live.bit (F.EVC_SEL_RDCLR 63) = false ∧ (flds [(F.EVC_SEL_RDCLR 63, 1)] live).bit (F.EVC_SEL_RDCLR 63) = true) ∧
      live.Serves .pcie (R.EVC_CNT_L 63) ∧ (flds [(F.EVC_SEL_RDCLR 63, 1)] live).Serves .spx1 (R.EVC_CNT_L 63) ∧
      (live.Serves .spx1 (R.QSEQ_SSN_L 15) ∧ (rowOf (R.QSEQ_SSN_L 15)).isSome = true ∧ R.QSEQ_SSN_L 15 % 4 = 0 ∧
        R.QSEQ_SSN_L 15 < 2 ^ 24 ∧ isWindow (R.QSEQ_SSN_L 15) = false ∧ latchedBy (R.QSEQ_SSN_L 15) ≠ []) ∧
      (live.Serves .pcie 0xFFFFFC ∧ mapped 0xFFFFFC = false) ∧ live.Serves .pcie 0x48000 ∧ isWindow 0x48000 = true :=
  ⟨by decide +kernel, serves_of (by decide +kernel), serves_of (by decide +kernel),
    ⟨serves_of (by decide +kernel), by decide +kernel, by decide, by decide, by decide, by decide⟩,
    ⟨serves_of (by decide +kernel), by decide +kernel⟩, serves_of (by decide +kernel), by decide⟩

/-- The first and the last marker register; a register with no writable bit; an address that holds nothing, and a register
not written whole. -/
theorem test_meets_MaskedWrites :
    (live.Takes .pcie 0x400 ∧ (rowOf 0x400).isSome = true) ∧ (live.Takes .spx1 0x47C ∧ (rowOf 0x47C).isSome = true) ∧
      (live.Takes .pcie (R.EVC_CNT_L 63) ∧
        (rowOf (R.EVC_CNT_L 63)).any (fun r => decide (r.rw = 0 ∧ r.wt = 0)) = true ∧ R.EVC_CNT_L 63 % 4 = 0 ∧
        isWindow (R.EVC_CNT_L 63) = false ∧ pstatOf (R.EVC_CNT_L 63) = none ∧ txnUnitAt (R.EVC_CNT_L 63) = none) ∧
      (live.Serves .pcie 0xFFFFFC ∧ mapped 0xFFFFFC = false) ∧ live.Serves .pcie 0x400 ∧ isWindow 0x400 = false ∧
      (0xE : BitVec 4) ≠ 0xF :=
  ⟨⟨takes_of (by decide +kernel), by decide +kernel⟩, ⟨takes_of (by decide +kernel), by decide +kernel⟩,
    ⟨takes_of (by decide +kernel), by decide +kernel, by decide, by decide, by decide, by decide⟩,
    ⟨serves_of (by decide +kernel), by decide +kernel⟩, serves_of (by decide +kernel), by decide, by decide⟩

/-- A limit of channel 63 with its slot free, taken, and waiting for delivery; clocks held. -/
theorem test_meets_PostedWriteRules :
    (live.Takes .pcie (R.SG_ICRIT 63) ∧ (rowOf (R.SG_ICRIT 63)).isSome = true ∧
      pstatOf (R.SG_ICRIT 63) = some (R.SG_PSTAT 63) ∧ R.SG_PSTAT 63 ≠ R.NVM_PSTAT ∧ live.busy (R.SG_PSTAT 63) = false) ∧
      ((live.setReg (R.SG_PSTAT 63) 1).Takes .pcie (R.SG_ICRIT 63) ∧
        (live.setReg (R.SG_PSTAT 63) 1).busy (R.SG_PSTAT 63) = true) ∧
      (flds [(F.CLK_STAT_HOLD, 1)] live).bit F.CLK_STAT_HOLD = true ∧
      (let w : PendWrite := ⟨R.SG_ICRIT 63, 0xFF, 0xFFFF⟩
       let s : State := { live.setReg (R.SG_PSTAT 63) 1 with posted := [(R.SG_PSTAT 63, some w)] }
       s.bit F.CLK_STAT_HOLD = false ∧ (s.handedTo (R.SG_PSTAT 63)).writes = [] ∧
        R.SG_ICRIT 63 ∈ [R.SG_VLO 63, R.SG_VHI 63, R.SG_ILO 63, R.SG_IHI 63, R.SG_ICRIT 63] ∧
        tabGet (fun _ => none) s.posted (R.SG_PSTAT 63) = some w) :=
  ⟨⟨takes_of (by decide +kernel), by decide +kernel, by decide, by decide, by decide +kernel⟩,
    ⟨takes_of (by decide +kernel), by decide +kernel⟩, by decide +kernel, by decide +kernel⟩

theorem test_meets_ReadsClearOneCopy :
    ∃ r, rowOf R.CLK_EVT = some r ∧ r.rc ≠ 0 ∧ R.CLK_EVT % 4 = 0 ∧ R.CLK_EVT < 2 ^ 24 ∧ isWindow R.CLK_EVT = false ∧
      heldReg R.CLK_EVT = false ∧ R.CLK_EVT ≠ R.FLT_FE_SRC ∧ live.Serves .pcie R.CLK_EVT ∧
      live.disagreements R.CLK_EVT = 0 ∧ live.spx1.cut = false := by
  obtain ⟨r, hr, h⟩ := row_of (a := R.CLK_EVT) (p := fun r => decide (r.rc ≠ 0)) (by decide +kernel)
  exact ⟨r, hr, by simpa using h, by decide, by decide, by decide, by decide, by decide, serves_of (by decide +kernel),
    by decide +kernel, rfl⟩

/-- A setting of source 511 with copies that agree, and with one that does not; a window; an address that holds nothing. -/
theorem test_meets_VotedReads :
    (live.Serves .pcie (sscfg 511) ∧ (rowOf (sscfg 511)).isSome = true ∧ isWindow (sscfg 511) = false ∧
      sscfg 511 % 4 = 0 ∧ 0x12000 ≤ sscfg 511 ∧ sscfg 511 < 0x18000 ∧ live.spx1.cut = false ∧
      { live with copyB := [(sscfg 511, 0x100)] }.disagreements (sscfg 511) = 1) ∧
      (live.Serves .spx1 0x4FFFC ∧ isWindow 0x4FFFC = true) ∧ live.Serves .spx1 0xFFFFFC ∧ mapped 0xFFFFFC = false :=
  ⟨⟨serves_of (by decide +kernel), by decide +kernel, by decide, by decide, by decide, by decide, rfl, by decide +kernel⟩,
    ⟨serves_of (by decide +kernel), by decide⟩, serves_of (by decide +kernel), by decide +kernel⟩

/-- The last byte of HBM with every quarter stopped, without pace, and while a quarter runs; a boot; a part without link; a
read with and without its supply. -/
theorem test_meets_HostMemoryWindow :
    let a := 32 * 2 ^ 30 - 1
    (let s : State := { live with linkUp := true }
     s.fabricDown = false ∧ s.linkUp = true ∧ [(7 : Byte)] ≠ [] ∧ s.bootBusy = false ∧ a < s.capacity ∧ s.capacity ≤ a + 1 ∧
      s.allStopped = true ∧ s.heldHost = [] ∧ unitsOf a [(7 : Byte)].length ≤ s.hostBudget) ∧
      (let s : State := { live with linkUp := true, hostBudget := 0 }
       s.bootBusy = false ∧ s.allStopped = true ∧ ¬unitsOf a [(7 : Byte)].length ≤ s.hostBudget) ∧
      (let s : State := { flds [(F.QSEQ_STAT_STATE 3, 1)] live with linkUp := true }
       s.fabricDown = false ∧ s.linkUp = true ∧ s.bootBusy = false ∧ a < s.capacity ∧ s.allStopped = false ∧
        s.insideWindow a (a + 1) = false) ∧
      (let s : State := { flds [(F.CHIP_BOOT_STAT_STEP, 8)] live with linkUp := true, boot := { up := true, running := true } }
       s.fabricDown = false ∧ s.linkUp = true ∧ s.bootBusy = true ∧ s.bit F.CHIP_BOOT_STAT_WAIT_IMAGE = false) ∧
      live.linkUp = false ∧ live.fabricDown = false ∧ (flds [(F.PWR_STAT_BACKSTOP, 1)] live).fabricDown = true := by
  decide +kernel

def pendingVector : State :=
  { live.winSet (0x47000 + 2047 / 32 * 4) 0x80000000 with pcie := { cfg := { msixEnable := true } } }

/-- The last vector's mask with its pending bit set, and the function's mask; without power; SHANK with bit 6 of WAKE_EN. -/
theorem test_meets_LinkEvents :
    (live.fabricDown = false ∧ { live with linkUp := true }.linkUp = true ∧ live.linkMay = true ∧
      State.reset.linkMay = false ∧ (flds [(F.PWR_STAT_BACKSTOP, 1)] live).fabricDown = true ∧
      ((live.setReg R.PWR_WAKE_EN 0).reg R.PWR_WAKE_EN).getLsbD 6 = false ∧
      (let s := flds [(F.PWR_STAT_STATE, 4)] (live.setReg R.PWR_WAKE_EN 0x40)
       (s.reg R.PWR_WAKE_EN).getLsbD 6 = true ∧
        wakeEnds 6 (if s.bit F.PWR_STAT_ENTERING = true then s.pwr.target else s.pstate) = true)) ∧
      pendingVector.Serves .pcie (0x48000 + 16 * 2047 + 12) ∧
      (pendingVector.bootRefuses .pcie (0x48000 + 16 * 2047 + 12) = false ∧ pendingVector.pcie.cfg.msixEnable = true ∧
        pendingVector.pcie.cfg.functionMask = false ∧
        (pendingVector.winGet (0x48000 + 16 * 2047 + 12)).getLsbD 0 = true ∧
        (pendingVector.winGet (0x47000 + 2047 / 32 * 4)).getLsbD (2047 % 32) = true ∧
        pendingVector.bit F.HOST_IRQ_CFG_IRQ_EN = false ∧
        ((pendingVector.winSet (0x48000 + 16 * 2047 + 12) 0).winGet (0x48000 + 16 * 2047 + 12)).getLsbD 0 = false) :=
  ⟨by decide +kernel, serves_of (by decide +kernel), by decide +kernel⟩

/-- Quarter 15 on; off; off while an exit runs; an address of no quarter. -/
theorem test_meets_AccessesThatWait :
    let s := flds [(F.PWR_QMASK_ON, 0x7FFF)] live
    addrQuarter (busAddr 0x1F0000) = some 15 ∧ live.quarterOn 15 = true ∧ addrQuarter (busAddr 0x400) = none ∧
      (s.quarterOn 15 = false ∧ s.fabricDown = false ∧ s.bit F.CLK_STAT_HOLD = false ∧ s.mustWait .pcie = false ∧
        s.pstate ≠ 3 ∧ s.inTransit = false ∧ s.discards .pcie 0x1F0000 0xF = false) ∧
      (flds [(F.PWR_STAT_EXITING, 1)] s).inTransit = true ∧ (flds [(F.PWR_STAT_EXITING, 1)] s).quarterOn 15 = false := by
  decide +kernel

/-- The chip's unit and quarter 15's, for the host, the boot loader and a sequencer. -/
theorem test_meets_TransactionCommands :
    (live.Serves .pcie (txnBase 16) ∧ live.Serves .boot (txnBase 15) ∧ live.Serves (.qseq 15) (txnBase 0)) ∧
      (live.bootRefuses .pcie (txnBase 16) = false ∧ live.capturer .pcie (txnBase 16) = none ∧
        live.bootRefuses .boot (txnBase 15) = false ∧ live.capturer .boot (txnBase 15) = none ∧
        live.bootRefuses (.qseq 15) (txnBase 0) = false ∧ live.capturer (.qseq 15) (txnBase 0) = none) ∧
      (ownerCode .pcie ≠ 0 ∧ ownerCode .boot ≠ 0 ∧ ownerCode (.qseq 15) = 0) ∧ txnState live 15 = 0 ∧
      (let s := setTxnState 15 1 1 live
       txnState s 15 = 1 ∧ txnOwner s 15 = ownerCode .pcie ∧ cmodeOk 15 4 = true) ∧
      (let s := setTxnState 15 3 2 live
       txnState s 15 = 3 ∧ txnOwner s 15 ≠ ownerCode .pcie) :=
  ⟨⟨serves_of (by decide +kernel), serves_of (by decide +kernel), serves_of (by decide +kernel)⟩, by decide +kernel,
    by decide, by decide +kernel, by decide +kernel, by decide +kernel⟩

/-- A register of quarter 15 with its unit open and empty, open and full, pending, and aborted. -/
theorem test_meets_CapturedWrites :
    let a := R.QSEQ_MARK_N 15
    (∀ k : Fin 4, k ≠ 0 → (setTxnState 15 k 1 live).Serves .pcie a) ∧
      ((rowOf a).isSome = true ∧ a % 4 = 0 ∧ a < 2 ^ 24 ∧ isWindow a = false ∧ txnUnitAt a = none) ∧
      (∀ k : Fin 4, k ≠ 0 → let s := setTxnState 15 k 1 live
        s.bootRefuses .pcie a = false ∧ s.capturer .pcie a = some 15 ∧ txnState s 15 = k ∧ (s.txn 15).queue.length = 0) ∧
      (let s := (setTxnState 15 1 1 live).setTxn 15 { queue := List.replicate 1024 ⟨a, 1, 1⟩ }
       s.capturer .pcie a = some 15 ∧ txnState s 15 = 1 ∧ (s.txn 15).queue.length = 1024) := by
  refine ⟨fun k hk => serves_of ?_, by decide +kernel, by decide +kernel, by decide +kernel⟩
  revert k
  decide +kernel

/-- The chip's commit due now; clocks held; a handed write at its edge, one PCLK early, and behind a later write. -/
theorem test_meets_CommitApplies :
    (let w : PendWrite := ⟨0x47C, 0xFF, 0xFFFF⟩
     let s := (setTxnState 16 2 1 live).setTxn 16 { queue := [w], due := 64000 }
     (rowOf w.addr).isSome = true ∧ w.addr % 4 = 0 ∧ s.bit F.CLK_STAT_HOLD = false ∧ s.commitDue 16 = some 64000 ∧
      (s.txn 16).queue = [w]) ∧
      live.commitDue 15 = none ∧ (flds [(F.CLK_STAT_HOLD, 1)] live).bit F.CLK_STAT_HOLD = true ∧
      (let w : PendWrite := ⟨R.SG_VHI 63, 0xFF, 0xFFFF⟩
       ∀ n : Fin 2, let s : State := { live with handed := [(R.SG_PSTAT 63, { writes := [w], due := 64000 + n })] }
        (s.handedTo (R.SG_PSTAT 63)).writes = [w] ∧ s.bit F.CLK_STAT_HOLD = false ∧
          (s.handedTo (R.SG_PSTAT 63)).behind = false ∧ ((s.handedTo (R.SG_PSTAT 63)).due ≤ s.now ↔ n = 0)) ∧
      (live.handedTo (R.SG_PSTAT 63)).writes = [] ∧
      ({ live with handed := [(R.SG_PSTAT 63, { writes := [⟨R.SG_VHI 63, 0xFF, 0xFFFF⟩], behind := true })] }.handedTo
        (R.SG_PSTAT 63)).behind = true := by decide +kernel

/-- Quarter 15 at the decision point of a word whose target is 9. -/
def atWord (op cond cnt trg : Nat) : State := running 15 (deciding op cond cnt trg) live

def withLoops (l : List (Nat × Nat)) (s : State) : State := s.setQ 15 { s.q 15 with loopStack := l }

theorem test_meets_FlowWords :
    (∀ op : Fin 2, (atWord (1 + op) 0 0 0).deciding 15 (1 + op) = some (deciding (1 + op) 0 0 0) ∧
      (atWord (1 + op) 0 0 0).deferred 15 = none ∧ live.deciding 15 (1 + op) = none) ∧
      (atWord 1 0 0 0).plainWord 15 (1 + 1) ∧ (atWord 2 0 0 0).plainWord 15 (mwTgt (deciding 2 0 0 0).word) ∧
      (∀ cond : Fin 5, (atWord 3 cond 0 5).deciding 15 3 = some (deciding 3 cond 0 5) ∧
        mwCond (deciding 3 cond 0 5).word = cond ∧ mwTgt (deciding 3 cond 0 5).word = 9) ∧
      (atWord 3 2 0 5).latched 15 5 = false ∧ (writeLatch 15 5 true (atWord 3 2 0 5)).latched 15 5 = true ∧
      (writeLatch 15 5 true (atWord 3 2 0 5)).deciding 15 3 = some (deciding 3 2 0 5) ∧
      (∀ n : Fin 2, let s := withLoops [(4, 1 + n)] (atWord 3 (3 + n) 0 0)
        (s.q 15).loopStack.head?.map (·.2) = some (1 + n.val) ∧ s.deciding 15 3 = some (deciding 3 (3 + n) 0 0)) ∧
      (setDefer 15 (some 9) (atWord 3 2 0 5)).deferred 15 = some 9 ∧ live.deciding 15 3 = none :=
  ⟨by decide +kernel, plain_of (by decide +kernel), plain_of (by decide +kernel), by decide +kernel, by decide +kernel,
    by decide +kernel, by decide +kernel, by decide +kernel, by decide +kernel, by decide +kernel⟩

def withCalls (n : Nat) (s : State) : State := s.setQ 15 { s.q 15 with callStack := List.replicate n 9 }

/-- Quarter 15 at the welt of a decided body. -/
def ended (op : Nat) (u : Option Succ) : Body :=
  { body (word op 0 16 9 0 5) 1 (64000 - 8 * 16) 16 16 with decided := true, succ := u }

/-- The deepest CALL that succeeds and the first that does not; RET at depth 1 and 0; the park at the welt. -/
theorem test_meets_CallStack :
    (∀ n : Fin 2, let s := withCalls (7 + n) (atWord 4 0 0 0)
      s.deferred 15 = none ∧ s.deciding 15 4 = some (deciding 4 0 0 0) ∧ (s.q 15).callStack.length = 7 + n) ∧
      (withCalls 7 (atWord 4 0 0 0)).plainWord 15 (mwTgt (deciding 4 0 0 0).word) ∧
      (∀ n : Fin 2, let s := withCalls n (atWord 5 0 0 0)
        s.deferred 15 = none ∧ s.deciding 15 5 = some (deciding 5 0 0 0) ∧ (s.q 15).callStack = List.replicate n 9) ∧
      (withCalls 1 (atWord 5 0 0 0)).plainWord 15 9 ∧ live.deciding 15 4 = none ∧ live.deciding 15 5 = none ∧
      (∀ op : Fin 2, (running 15 (ended (4 + op) (some { addr := 1, word := 0, park := true })) live).AtWelt 15
        (ended (4 + op) (some { addr := 1, word := 0, park := true }))) ∧
      (∀ op : Fin 2, mwOp (ended (4 + op) none).word = 4 + op) ∧ (live.q 15).stopReq = false := by
  refine ⟨by decide +kernel, plain_of (by decide +kernel), by decide +kernel, plain_of (by decide +kernel), by decide +kernel,
    by decide +kernel, fun op => welt_of ?_, by decide +kernel, by decide +kernel⟩
  revert op
  decide +kernel

/-- LOOPB at depth 3 and 4; LOOPE with two passes left, with one, and at depth 0. -/
theorem test_meets_LoopStack :
    (∀ n : Fin 2, let s := withLoops (List.replicate (3 + n) (9, 2)) (atWord 6 0 5 0)
      s.deferred 15 = none ∧ s.deciding 15 6 = some (deciding 6 0 5 0) ∧ (s.q 15).loopStack.length = 3 + n) ∧
      (withLoops (List.replicate 3 (9, 2)) (atWord 6 0 5 0)).plainWord 15 (1 + 1) ∧
      (∀ n : Fin 3, let s := withLoops [(9, n)] (atWord 7 0 0 0)
        s.deferred 15 = none ∧ s.deciding 15 7 = some (deciding 7 0 0 0) ∧ (s.q 15).loopStack.head? = some (9, n.val)) ∧
      (withLoops [(9, 2)] (atWord 7 0 0 0)).plainWord 15 9 ∧ (withLoops [(9, 1)] (atWord 7 0 0 0)).plainWord 15 (1 + 1) ∧
      ((atWord 7 0 0 0).deciding 15 7 = some (deciding 7 0 0 0) ∧ ((atWord 7 0 0 0).q 15).loopStack = []) ∧
      live.deciding 15 6 = none ∧ live.deciding 15 7 = none :=
  ⟨by decide +kernel, plain_of (by decide +kernel), by decide +kernel, plain_of (by decide +kernel),
    plain_of (by decide +kernel), by decide +kernel, by decide +kernel, by decide +kernel⟩

/-- JCOND's late window from its decision point to the last PCLK before the welt. -/
def lateBody (decided : Bool) : Body := { deciding 3 2 0 5 with decided := decided }

def deferredAt (op cond trg : Nat) : State := setDefer 15 (some 9) (atWord op cond 0 trg)

theorem test_meets_DeferredJumps :
    (∀ op : Fin 5, (deferredAt (3 + op) 0 0).deferred 15 = some 9 ∧
      (deferredAt (3 + op) 0 0).deciding 15 (3 + op) = some (deciding (3 + op) 0 0 0) ∧
      (deciding (3 + op) 0 0 0).lateTgt = none) ∧
      (∀ op : Fin 5, ((deferredAt (3 + op) 0 0).q 15).callStack = [] ∧ ((deferredAt (3 + op) 0 0).q 15).loopStack = []) ∧
      (setDefer 15 (some 9) (atWord 3 0 0 0)).plainWord 15 9 ∧
      (let b := { deciding 3 2 0 5 with lateTgt := some 9 }
       (running 15 b (setDefer 15 (some 9) live)).deciding 15 3 = some b) ∧
      (let s := setDefer 15 (some 9) (withCalls 1 (atWord 5 0 0 0))
       s.deferred 15 = some 9 ∧ s.deciding 15 5 = some (deciding 5 0 0 0) ∧ (s.q 15).callStack = [9]) ∧
      ((deferredAt 0x10 0 0).deciding 15 0x10 = some (deciding 0x10 0 0 0) ∧ ((deferredAt 0x10 0 0).deferred 15).isSome = true ∧
        live.deciding 15 0x10 = none) ∧
      (∀ n d : Fin 2, let b := lateBody (d == 1)
        let s : State := { running 15 b live with now := 64000 + 31 * n }
        (s.q 15).body = some b ∧ s.latched 15 5 = false ∧ mwOp b.word = 3 ∧ mwCond b.word = 2 ∧ mwTrg b.word = 5 ∧
          s.inLateWindow 15 b = true) :=
  ⟨by decide +kernel, by decide +kernel, plain_of (by decide +kernel), by decide +kernel, by decide +kernel, by decide +kernel,
    by decide +kernel⟩

/-- A latch that was set in the granule before. -/
def latchedAtWord (op : Nat) : State :=
  { writeLatch 15 5 true { atWord op 0 0 5 with now := 63992 } with now := 64000 }

theorem test_meets_ElasticWords :
    (let s := atWord 8 0 0 5
     s.deciding 15 8 = some (deciding 8 0 0 5) ∧
      s.latchedBefore 15 (mwTrg (deciding 8 0 0 5).word) (deciding 8 0 0 5).decision = false) ∧
      (let s := latchedAtWord 8
       s.deciding 15 8 = some (deciding 8 0 0 5) ∧
        s.latchedBefore 15 (mwTrg (deciding 8 0 0 5).word) (deciding 8 0 0 5).decision = true) ∧
      (latchedAtWord 8).plainWord 15 (1 + 1) ∧
      (let s := (atWord 9 0 3 0).setQ 15 { (atWord 9 0 3 0).q 15 with marks := [(3, 64032)] }
       s.deciding 15 9 = some (deciding 9 0 3 0) ∧
        s.markAfter 15 (mwCnt (deciding 9 0 3 0).word % 2 ^ 16) (deciding 9 0 3 0).welt = some (deciding 9 0 3 0).welt) ∧
      (let s := (atWord 9 0 3 0).setQ 15 { (atWord 9 0 3 0).q 15 with marks := [(3, 64033)] }
       s.markAfter 15 (mwCnt (deciding 9 0 3 0).word % 2 ^ 16) (deciding 9 0 3 0).welt ≠ some (deciding 9 0 3 0).welt) ∧
      (atWord 10 0 3 0).deciding 15 10 = some (deciding 10 0 3 0) ∧ (atWord 10 0 3 0).laceJoined = false ∧
      (let s := flds [(F.LACE_STAT_STATE, 3)] (atWord 10 0 3 0)
       s.deciding 15 10 = some (deciding 10 0 3 0) ∧ s.laceJoined = true ∧ s.lace.detaching = false) ∧
      (atWord 15 0 0 5).deciding 15 15 = some (deciding 15 0 0 5) ∧
      (∀ op : Fin 8, live.deciding 15 (8 + op) = none) :=
  ⟨by decide +kernel, by decide +kernel, plain_of (by decide +kernel), by decide +kernel, by decide +kernel, by decide +kernel,
    by decide +kernel, by decide +kernel, by decide +kernel, by decide +kernel⟩

/-- A body that starts now. -/
def starting (op cnt : Nat) : Body := body (word op 0 600 9 cnt 0) 1 64000 600 0

/-- Port 15's lines on channels of quarter 15. -/
def mapped7 (s : State) : State :=
  flds ((List.range 7).flatMap fun i => [(F.PE_PIN_EN 15 i, 1), (F.PE_PIN_CH 15 i, i)]) s

theorem test_meets_BodyStartActions :
    (∀ op : Fin 4, let b := starting (11 + op) 1
      let s := running 0 b live
      b.acted = false ∧ b.start ≤ s.now ∧ s.decides b = false ∧ s.executing 0 (11 + op) = some b ∧ s.chipFault = false) ∧
      (∀ op : Fin 4, let b := starting (11 + op) 1
        let s := { running 0 b live with now := 63999 }
        s.executing 0 (11 + op) = some b ∧ s.now < b.start ∧ s.decides b = false) ∧
      (∀ op : Fin 4, let b := { deciding (11 + op) 0 0 0 with acted := true }
        (running 0 b live).deciding 0 (11 + op) = some b ∧ live.executing 0 (11 + op) = none) ∧
      (let s := (setTxnState 0 2 1 (running 0 (starting 11 1) live)).setTxn 0 { cmode := 4 }
       txnState s 0 = 2 ∧ (s.txn 0).cmode = 4 ∧ (s.txn 0).queue = []) ∧
      (txnState live 0 ≠ 2) ∧
      (∀ slave : Fin 2, let s := running 15 (starting 12 0) (mapped7 (live.setReg (portBase 15) (BitVec.ofNat 16 (1 + 2 * slave.val))))
       (s.port 15).unit = none ∧ (s.port 15).armed = none ∧ (s.port 15).startAt = none ∧ s.portEn 15 = true ∧
        s.chipFault = false ∧ s.setupBad 15 (s.portSetup 15 (mwCnt (starting 12 0).word % 16)) = false ∧
        s.portSlave 15 = (slave == 1)) ∧
      (live.portEn 15 = false ∧ (live.port 15).startAt = none) ∧
      (let s := flds [(F.TDC_CTRL_EN 0, 1), (F.TDCC_DLL_STAT_LOCKED 0, 1)] (running 0 (starting 13 1) live)
       (mwCnt (starting 13 1).word).testBit 0 = true ∧ (mwCnt (starting 13 1).word).testBit 3 = false ∧
        s.bit (F.TDC_CTRL_EN 0) = true ∧ s.tdcState 0 = 0 ∧ s.tdcCfgOk 0 = true ∧ s.tdcReady 0 = true) ∧
      (let s := flds [(F.TDC_CTRL_EN 0, 1)] (running 0 (starting 13 1) live)
       s.tdcCfgOk 0 = true ∧ s.tdcReady 0 = false) ∧
      (let s := flds [(F.CAL_CTRL_BG_EN, 1)] (running 0 (starting 14 0) live)
       s.slotConflict 0 = false ∧ s.bit F.CAL_CTRL_BG_EN = true) ∧ (flds [(F.CAL_CTRL_BG_EN, 0)] live).bit F.CAL_CTRL_BG_EN = false := by
  decide +kernel

def nextSucc : Succ := { addr := 2, word := word 1 0 16 0 0 0 }

/-- A body with `played` granules of 16 behind it. -/
def playing (played : Nat) : Body :=
  { body (word 1 0 16 0 0 0) 1 (64000 - 8 * played) 16 played with acted := true }

/-- The body's words are cut by one granule, and the part behind the cut does not decode. -/
def cutBody : Body :=
  { ended 1 none with word := BitVec.ofNat 192 (1 * 2 ^ 186 + 16 * 2 ^ 164 + 7 * 2 ^ 147), segLen := 17,
                        desc := BitVec.ofNat 128 (2 * 2 ^ 55), dec := { produced := 16 } }

theorem test_meets_EndsOfBodies :
    (let b := ended 1 none
     let s : State := { running 15 b live with now := 63999 }
     (s.q 15).body = some b ∧ (s.q 15).laceHeld = none ∧ (s.q 15).parkDue = none ∧ s.now < b.welt) ∧
      ((live.q 15).body = none ∧ (live.q 15).laceHeld = none ∧ (live.q 15).parkDue = none) ∧
      (let s := live.setQ 15 { parkDue := some 64000 }
       (s.q 15).parkDue = some 64000 ∧ 64000 ≤ s.now) ∧
      (let s := running 15 (ended 1 none) (live.setQ 15 { laceHeld := some 64000 })
       (s.q 15).laceHeld = some 64000 ∧ 64000 ≤ s.now ∧ s.qstate 15 = 1 ∧ (s.q 15).parkDue = none) ∧
      (∀ op : Fin 17, (running 15 (ended op none) live).AtWelt 15 (ended op none)) ∧
      (∀ op : Fin 17, mwOp (ended op none).word = op) ∧ (ended 1 none).succ = none ∧ (live.q 15).stopReq = false ∧
      (running 15 (ended 1 (some nextSucc)) (live.setQ 15 { stopReq := true })).AtWelt 15 (ended 1 (some nextSucc)) ∧
      ((live.setQ 15 { stopReq := true }).q 15).stopReq = true ∧
      (running 15 (ended 1 (some nextSucc)) live).AtWelt 15 (ended 1 (some nextSucc)) ∧
      (nextSucc.park = false ∧ nextSucc.ready = true) ∧
      (running 15 (ended 1 (some { nextSucc with ready := false })) live).AtWelt 15
        (ended 1 (some { nextSucc with ready := false })) ∧
      (let s := running 15 cutBody live
       (s.q 15).body = some cutBody ∧ s.qstate 15 = 1 ∧ (s.q 15).laceHeld = none ∧ (s.q 15).parkDue = none ∧
        cutBody.len ≤ cutBody.played ∧ cutBody.welt ≤ s.now ∧ cutBody.decided = true ∧ cutBody.len < cutBody.segLen ∧
        s.tailError 15 cutBody cutBody.welt = true) ∧
      (∀ n : Fin 2, let b := playing (15 * n)
        let s := running 15 b live
        (s.q 15).body = some b ∧ s.qstate 15 = 1 ∧ s.patternClock = true ∧ s.quarterOn 15 = true ∧
          (s.q 15).laceHeld = none ∧ (s.q 15).parkDue = none ∧ b.acted = true ∧ b.played < b.len ∧
          b.start + 8 * b.played ≤ s.now) ∧
      (live.qstate 15 ≠ 1 ∧ (live.q 15).parkDue = none ∧ (live.q 15).lastBoundary < granuleOf live.now ∧
        live.awaits 15 (granuleOf live.now) = false) := by
  refine ⟨by decide +kernel, by decide +kernel, by decide +kernel, by decide +kernel, fun op => welt_of ?_, by decide +kernel,
    by decide +kernel, by decide +kernel, welt_of (by decide +kernel), by decide +kernel, welt_of (by decide +kernel),
    by decide +kernel, welt_of (by decide +kernel), by decide +kernel, by decide +kernel, by decide +kernel⟩
  revert op
  decide +kernel

/-- Quarter 15 stalls in WAITTRG. -/
def stalled (x : Stall) : State :=
  let t := running 15 (ended 8 none) (flds [(F.QSEQ_STAT_STATE 15, 2)] live)
  (t.setFld (F.QSEQ_STAT_STATE 15) 2).setQ 15 { t.q 15 with body := none, stall := some x }

def waitWord : Micro := word 8 0 16 9 40 5

/-- The decision 32 PCLK before the exit and one PCLK early, with and without a timeout; the exit with its successor ready,
held, parking or absent; a wait of 40 granules that has run out, and one that has not. -/
theorem test_meets_StallsEnd :
    (∀ n m : Fin 2, let x : Stall := { addr := 1, word := waitWord, welt := 63000, exit := some (64032 + m.val), timeout := n == 1 }
      let s := stalled x
      s.stalling 15 = some x ∧ x.decided = false ∧ x.leave.isSome = true ∧ (x.leave.getD 0 ≤ s.now + 32 ↔ m = 0) ∧
        s.deferred 15 = none) ∧
      (stalled { addr := 1, word := waitWord, welt := 63000, exit := some 64032 }).plainWord 15 (1 + 1) ∧
      (stalled { addr := 1, word := waitWord, welt := 63000, exit := some 64032 }).plainWord 15 (mwTgt waitWord) ∧
      (stalled { addr := 0x3FFF, word := waitWord, welt := 63000, exit := some 64032 }).deferred 15 = none ∧
      live.stalling 15 = none ∧
      (∀ p r : Bool,
        let x : Stall := { addr := 1, word := waitWord, welt := 63000, exit := some 64000, decided := true,
                           succ := some { nextSucc with park := p, ready := r }, byLatch := true }
        (stalled x).stalling 15 = some x ∧ x.leave = some 64000 ∧ 64000 ≤ (stalled x).now) ∧
      (let x : Stall := { addr := 1, word := waitWord, welt := 63000, exit := some 64000, decided := true }
       (stalled x).stalling 15 = some x ∧ x.leave = some 64000 ∧ x.succ = none) ∧
      (∀ n : Fin 2, let x : Stall := { addr := 1, word := waitWord, welt := 63998 + 2 * n.val - 8 * 40 }
       (stalled x).stalling 15 = some x ∧ x.expiry = some (63998 + 2 * n.val) ∧ x.exit = none ∧
        ((63998 + 2 * n.val) / 2 < (stalled x).now / 2 ↔ n = 0)) := by
  refine ⟨by decide +kernel, plain_of (by decide +kernel), plain_of (by decide +kernel), by decide +kernel, by decide +kernel,
    by decide +kernel, by decide +kernel⟩

/-- A successor whose segment refills, group RID 3. -/
def refillDesc : Desc := BitVec.ofNat 128 (3 * 2 ^ 65)

def refillBody : Body :=
  { ended 1 (some nextSucc) with word := BitVec.ofNat 192 (1 * 2 ^ 186 + 16 * 2 ^ 164 + 7 * 2 ^ 147), desc := refillDesc }

theorem test_meets_RefillHolds :
    (let u : Succ := { nextSucc with desc := refillDesc, ready := false }
     let x : Stall := { addr := 1, word := waitWord, welt := 64000, succ := some u }
     let s := flds [(F.QSEQ_STAT_STATE 15, 6)] (stalled x)
     s.qstate 15 = 6 ∧ (s.q 15).stall = some x ∧ x.succ = some u ∧ x.jobAt = none ∧ s.now % 8 = 0 ∧ x.welt ≤ s.now ∧
      s.ridReady (sdRid u.desc) = false ∧ (s.setReg (R.MEM_RDY 0) 8).ridReady (sdRid u.desc) = true) ∧
      (∀ n : Fin 2, let x : Stall :=
         { addr := 1, word := waitWord, welt := 63000, succ := some nextSucc, jobAt := some (64000 + n.val - 512) }
       let s := flds [(F.QSEQ_STAT_STATE 15, 6)] (stalled x)
       s.qstate 15 = 6 ∧ (s.q 15).stall = some x ∧ x.jobAt = some (64000 + n.val - 512) ∧ s.heldAt 15 s.now = false ∧
        (max (max (64000 + n.val - 512 + 512) (x.release.getD 0)) x.floor ≤ s.now ↔ n = 0)) ∧
      live.qstate 15 ≠ 6 ∧
      (let x : Stall := { addr := 1, word := waitWord, welt := 64000 }
       (flds [(F.QSEQ_STAT_STATE 15, 6)] (stalled x)).qstate 15 = 6 ∧ x.succ = none) ∧
      (running 15 refillBody live).AtWelt 15 refillBody ∧ mwSeg refillBody.word ≠ nullSeg ∧
      sdResident refillBody.desc = false :=
  ⟨by decide +kernel, by decide +kernel, by decide +kernel, by decide +kernel, welt_of (by decide +kernel), by decide +kernel,
    by decide +kernel⟩

/-- Every state of the sequencer; a HOLD stall that has not run out; a START that waits, pending or for its moment. -/
theorem test_meets_SequencerControls :
    (∀ n : Fin 11, (flds [(F.QSEQ_STAT_STATE 15, n)] live).Takes .pcie (R.QSEQ_CTRL 15)) ∧
      (∀ n : Fin 11, (flds [(F.QSEQ_STAT_STATE 15, n)] live).qstate 15 = n) ∧
      (let x : Stall := { addr := 1, word := waitWord, welt := 63992 }
       let s := flds [(F.QSEQ_STAT_STATE 15, 5)] (stalled x)
       s.qstate 15 = 5 ∧ (s.q 15).stall = some x ∧ x.exit = none ∧ x.before s.now = true) ∧
      { live with pwr := { pendStart := [15] } }.pwr.pendStart.contains 15 = true ∧
      ((live.setQ 15 { startDue := some 64008 }).q 15).startDue.isSome = true ∧ (live.q 15).startDue = none ∧
      (atWord 1 0 0 0).qstate 15 = 1 ∧ (atWord 1 0 0 0).stopped 15 = false ∧ (atWord 1 0 0 0).inFlight 15 = true ∧
      live.inFlight 15 = false ∧ live.qstate 15 ≠ 9 := by
  refine ⟨fun n => takes_of ?_, by decide +kernel, by decide +kernel, by decide +kernel, by decide +kernel, by decide +kernel,
    by decide +kernel, by decide +kernel, by decide +kernel, by decide +kernel, by decide +kernel⟩
  revert n
  decide +kernel

/-- Modes 0 and 2 accepted with their rings on, mode 3 and a ring that is off refused; levels that settle; a start moment
due now and one PCLK away. -/
theorem test_meets_Starting :
    (live.Takes .pcie (R.QSEQ_CTRL 15) ∧ live.Takes .spx1 (R.QSEQ_CTRL 0)) ∧
      ((live.reg R.PWR_QSETTLE).getLsbD 15 = false ∧ live.stopped 15 = true ∧ live.quarterFault 15 = false ∧
        live.chipFault = false ∧ (live.q 15).startDue = none ∧ live.fld F.CLK_STAT_CORE_ACT = 2 ∧ (loadChecks live).2 = true ∧
        live.fld (F.QSEQ_CTRL_START_MODE 15) = 0 ∧ (live.setRing 0 { on := true }).routeBad 15 = false) ∧
      ((live.setReg R.PWR_QSETTLE 0x8000).reg R.PWR_QSETTLE).getLsbD 15 = true ∧
      { live with pwr := { pendStart := [15] } }.pwr.pendStart.contains 15 = true ∧
      (flds [(F.QSEQ_CFG_SSN_KEEP 15, 1)] live).bit (F.QSEQ_CFG_SSN_KEEP 15) = true ∧
      (let s := (flds [(F.QRES_RT_BIN_RING 15, 1), (F.QRES_RT_CTL_RING 15, 2)]
         ((live.setRing 1 { on := true }).setRing 2 { on := true }))
       s.routeBad 15 = false) ∧
      (flds [(F.QRES_RT_BIN_RING 15, 1)] live).routeBad 15 = true ∧
      (∀ n : Fin 2, let s := live.setQ 15 { startDue := some (64000 + n.val), first := some nextSucc }
       (s.q 15).startDue = some (64000 + n.val) ∧ (64000 + n.val ≤ s.now ↔ n = 0) ∧ (s.q 15).laceHeld = none ∧
        (s.q 15).first = some nextSucc ∧ nextSucc.park = false ∧ nextSucc.ready = true) ∧
      ((live.setQ 15 { startDue := some 64000 }).q 15).first = none ∧ (live.q 15).startDue = none :=
  ⟨⟨takes_of (by decide +kernel), takes_of (by decide +kernel)⟩, by decide +kernel, by decide +kernel, by decide +kernel,
    by decide +kernel, by decide +kernel, by decide +kernel, by decide +kernel, by decide +kernel, by decide +kernel⟩

/-- The first and the last trigger source, an edge of none; a JCOND on latch 0x80 in its late window. -/
theorem test_meets_Flags :
    live.Takes .pcie (R.QSEQ_FLAG_SET 15) ∧ live.Takes .pcie (R.QSEQ_FLAG_CLR 15) ∧
      (∀ k : Fin 16, (live.q k).body = none) ∧
      (let b : Body := { deciding 3 2 0 0x80 with decided := true }
       let s := running 15 b live
       (s.q 15).body = some b ∧ mwOp b.word = 3 ∧ mwCond b.word = 2 ∧ mwTrg b.word = 0x80 + 0 ∧ s.inLateWindow 15 b = true ∧
        b.decided = true ∧ s.latched 15 (0x80 + 0) = false ∧ ((1 : Word) &&& 1).getLsbD 0 = true) ∧
      (∀ n : Fin 2, 1 ≤ 1 + 0x17 * n.val ∧ 1 + 0x17 * n.val ≤ 0x18) ∧ 0x18 < (0x19 : Fin 256).val ∧ (0 : Fin 256).val = 0 :=
  ⟨takes_of (by decide +kernel), takes_of (by decide +kernel), by decide +kernel, by decide +kernel, by decide +kernel,
    by decide +kernel, by decide +kernel⟩

/-- The last dword of the last word with the quarter IDLE and running, and the dword behind the word. -/
theorem test_meets_ControlStoreWindow :
    (live.Serves .pcie (csAddr 15 16383 + 4 * 5) ∧ live.Serves .spx1 (csAddr 15 16383 + 4 * 6) ∧
      (atWord 1 0 0 0).Serves .pcie (csAddr 15 16383 + 4 * 5)) ∧
      live.bootRefuses .pcie (csAddr 15 16383 + 4 * 5) = false ∧ live.bootRefuses .spx1 (csAddr 15 16383 + 4 * 6) = false ∧
      live.qstate 15 = 0 ∧ (atWord 1 0 0 0).bootRefuses .pcie (csAddr 15 16383 + 4 * 5) = false ∧
      ¬((atWord 1 0 0 0).qstate 15 = 0 ∨ (atWord 1 0 0 0).qstate 15 = 8 ∨ (atWord 1 0 0 0).qstate 15 = 9) :=
  ⟨⟨serves_of (by decide +kernel), serves_of (by decide +kernel), serves_of (by decide +kernel)⟩, by decide +kernel,
    by decide +kernel, by decide +kernel, by decide +kernel, by decide +kernel⟩

/-- PERIOD (dword 1) stopped and running, an edge dword (2) running, one behind the entry; a scrub of an intact, a
correctable and an uncorrectable word, and one whose time has not come. -/
theorem test_meets_ArraysAndScrub :
    (∀ j : Fin 3, let a := tsAddr 15 31 63 + 4 * (1 + [0, 1, 7].getD j 0)
      live.Serves .pcie a ∧ (atWord 1 0 0 0).Serves .pcie a) ∧
      (∀ j : Fin 3, let a := tsAddr 15 31 63 + 4 * (1 + [0, 1, 7].getD j 0)
        live.bootRefuses .pcie a = false ∧ (atWord 1 0 0 0).bootRefuses .pcie a = false) ∧
      live.stopped 15 = true ∧ (atWord 1 0 0 0).stopped 15 = false ∧
      (let s := flds [(F.QSEQ_CFG_SCRUB_EN 15, 1)] live
       let t := s.setQ 15 { scrubPos := 2 }
       s.bit (F.QSEQ_CFG_SCRUB_EN 15) = true ∧ s.quarterOn 15 = true ∧ (s.q 15).scrubNext ≤ s.now ∧ (t.q 15).scrubPos < 16384 ∧
        checkMicro ((t.setCsWord 15 2 (word 1 0 16 0 0 0)).csWord 15 (t.q 15).scrubPos) = some (word 1 0 16 0 0 0, false) ∧
        checkMicro ((t.setCsWord 15 2 (word 1 0 16 0 0 0 ^^^ 0x10000)).csWord 15 (t.q 15).scrubPos) =
          some (word 1 0 16 0 0 0, true) ∧
        checkMicro ((t.setCsWord 15 2 (word 1 0 16 0 0 0 ^^^ 0x30000)).csWord 15 (t.q 15).scrubPos) = none) ∧
      ((live.setQ 15 { scrubNext := 64001 }).q 15).scrubNext = live.now + 1 := by
  refine ⟨fun j => ⟨serves_of ?_, serves_of ?_⟩, by decide +kernel, by decide +kernel, by decide +kernel, by decide +kernel,
    by decide +kernel⟩ <;> (revert j; decide +kernel)

/-- A unit that arrives for a job, and for a discarded one, with every outcome; none; a head build, and its end. -/
theorem test_meets_SegmentStaging :
    (∀ d : Bool, let s := live.setM 15 { flights := [⟨1, 1, 0, 0, d⟩] }
      (s.m 15).flights.head? = some ⟨1, 1, 0, 0, d⟩ ∧ (s.m 15).tails = []) ∧
      (live.m 15).flights = [] ∧ live.Takes .pcie (R.MEM_QCMD 15) ∧ live.stopped 15 = true ∧
      (atWord 1 0 0 0).Takes .pcie (R.MEM_QCMD 15) ∧ (atWord 1 0 0 0).stopped 15 = false ∧
      ((live.setM 15 { build := true }).m 15).build = true ∧ (live.m 15).build = false :=
  ⟨by decide +kernel, by decide +kernel, takes_of (by decide +kernel), by decide +kernel, takes_of (by decide +kernel),
    by decide +kernel, by decide +kernel, by decide +kernel⟩

/-- The last RDY register, free and behind a held write; the last window, with a quarter stopped and running; the last
unit of a stack and the one before, each at its pace and one PCLK early; training in step 8, after a COLD reset, and
where nothing waits for it. -/
theorem test_meets_MemorySettings :
    (live.Takes .pcie (R.MEM_RDY 2047) ∧ { live with heldHost := [.hbm 0 [1]] }.Takes .pcie (R.MEM_RDY 2047) ∧
      live.heldHost = []) ∧
      (live.Takes .pcie (R.MEM_WIN_SIZE 15) ∧ live.Takes .pcie (R.MEM_WIN_BASE 15) ∧ live.allStopped = true) ∧
      ((atWord 1 0 0 0).Takes .pcie (R.MEM_WIN_BASE 15) ∧ (atWord 1 0 0 0).allStopped = false) ∧
      (let s := flds [(F.MEM_CFG_SCRUB_EN, 1)] live
       s.bit F.MEM_CFG_SCRUB_EN = true ∧ ∀ n : Fin 2, ({ s with scrubAtB := 64000 + n.val }.scrubAtB ≤ s.now ↔ n = 0)) ∧
      (live.installed = 2 ∧ live.bit F.MEM_ID_TRAINED = false) ∧
      (∀ due : Bool,
       let s := flds [(F.CHIP_BOOT_STAT_STEP, 8)] { live with boot := { up := true, running := true, buildDue := due } }
       s.boot.running = true ∧ s.bootStep = 8 ∧ s.boot.buildDue = due ∧ s.stopped 15 = true) ∧
      (flds [(F.CHIP_BOOT_STAT_WAIT_IMAGE, 1)] live).bit F.CHIP_BOOT_STAT_WAIT_IMAGE = true ∧
      ¬((live.boot.running = true ∧ live.bootStep = 8) ∨ live.bit F.CHIP_BOOT_STAT_WAIT_IMAGE = true) :=
  ⟨⟨takes_of (by decide +kernel), takes_of (by decide +kernel), rfl⟩,
    ⟨takes_of (by decide +kernel), takes_of (by decide +kernel), by decide +kernel⟩,
    ⟨takes_of (by decide +kernel), by decide +kernel⟩, by decide +kernel, by decide +kernel, by decide +kernel,
    by decide +kernel, by decide +kernel⟩

/-- Channel 1023: no staged word; a DCLK edge and none; a safe clamp code, a pause and a step; an enabled trip and a
disabled one; a disconnect whose 10 µs inside are just over, and one PCLK short, with a body and without. -/
theorem test_meets_PinSettings :
    (live.Takes .pcie (R.QTS_FTW_H (1023 / 64) (1023 % 64)) ∧ (live.chan 1023).ncoPend = none ∧
      (live.chan 1023).corrPend = none) ∧
      (live.dclkAt 1023 = true ∧ { live with now := 64001 }.dclkAt 1023 = false ∧
        live.bit (F.CH_DRV_CTRL_LOOP 1023) = false ∧ (live.chan 1023).safe = false ∧
        tabGet (fun _ => 0) (live.chan 1023).slew 11 = 0 ∧
        ((live.setChan 1023 { safe := true, slew := [(11, 2)] }).chan 1023).safe = true ∧
        tabGet (fun _ => 0) ((live.setChan 1023 { safe := true, slew := [(11, 2)] }).chan 1023).slew 11 = 2) ∧
      (let s := flds [(F.CH_PROT_OVD_EN 1023, 1)] live
       s.bit (F.CH_PROT_OVD_EN 1023) = true ∧ s.quarterOn (1023 / 64) = true ∧ (s.pmu 1023).running = false) ∧
      (let s := (flds [(F.CH_STAT_DISC 1023, 1)] live).setChan 1023 { inSince := some (64000 - 6400) }
       s.bit (F.CH_STAT_DISC 1023) = true ∧ s.discMayEnd 1023 = true ∧ (s.q (1023 / 64)).body = none ∧ s.now % 8 = 0 ∧
        s.stopped (1023 / 64) = true) ∧
      (let s := running 15 (playing 0) ((flds [(F.CH_STAT_DISC 1023, 1)] live).setChan 1023
         { inSince := some (64000 - 6400) })
       s.bit (F.CH_STAT_DISC 1023) = true ∧ s.discMayEnd 1023 = true ∧ s.qstate (1023 / 64) = 1 ∧
        (s.q (1023 / 64)).body = some (playing 0) ∧ s.now = (playing 0).start) ∧
      ((flds [(F.CH_STAT_DISC 1023, 1)] live).setChan 1023 { inSince := some (64000 - 6399) }).discMayEnd 1023 = false ∧
      live.Runs (R.CH_PROT 1023) ∧ ¬(flds [(F.CLK_STAT_HOLD, 1)] live).Runs (R.CH_PROT 1023) :=
  ⟨⟨takes_of (by decide +kernel), by decide +kernel, by decide +kernel⟩, by decide +kernel, by decide +kernel,
    by decide +kernel, by decide +kernel, by decide +kernel, runs_of (by decide +kernel),
    fun h => absurd h.clocked (by decide +kernel)⟩

/-- A stage change at its end and one PCLK early; DRV_CTRL stopped and running; the queue with 31 codes and with 32; a
sample of the last code, of the empty queue, and of a looping one. -/
theorem test_meets_StagesAndQueues :
    (∀ n : Fin 2, let s := live.setChan 1023 { stageSw := some (64000 - 176 + n.val) }
      (s.chan 1023).stageSw = some (64000 - 176 + n.val) ∧
        (((s.now * 512 : Nat) : Int) < (((64000 - 176 + n.val + 48 + 128) * 512 : Nat) : Int) + (s.chan 1023).stageDly ↔ n = 1)) ∧
      (live.chan 1023).stageSw = none ∧
      (live.Runs (R.CH_DRV_CTRL 1023) ∧ (rowOf (R.CH_DRV_CTRL 1023)).isSome = true ∧ (live.chan 1023).calHeld = false ∧
        live.stopped (1023 / 64) = true ∧ (atWord 1 0 0 0).Runs (R.CH_DRV_CTRL 1023) ∧
        (atWord 1 0 0 0).stopped (1023 / 64) = false) ∧
      (live.Runs (R.CH_LQ_PUSH 1023) ∧ live.Runs (R.CH_LQ_CFG 1023) ∧
        ¬(flds [(F.CLK_STAT_HOLD, 1)] live).Runs (R.CH_LQ_PUSH 1023)) ∧
      (∀ n : Fin 2, ((live.setChan 1023 { lq := List.replicate (31 + n) 7 }).chan 1023).lq.length = 31 + n) ∧
      (live.bit (F.CH_LQ_CFG_EN 1023) = false ∧ (flds [(F.CH_LQ_CFG_EN 1023, 1)] live).bit (F.CH_LQ_CFG_EN 1023) = true) ∧
      (∀ n l : Fin 2,
        let t := flds [(F.CH_LQ_CFG_EN 1023, 1), (F.CH_LQ_CFG_LOOP 1023, l)] live
        let s := t.setChan 1023 { lq := List.replicate n 7 }
        s.dclkAt 1023 = true ∧ s.bit (F.CH_LQ_CFG_EN 1023) = true ∧ (s.chan 1023).lqNext ≤ s.now ∧
          (s.bit (F.CH_LQ_CFG_LOOP 1023) = true ↔ l = 1) ∧
          (s.chan 1023).lq.drop (s.chan 1023).lqPos = List.replicate n 7) :=
  ⟨by decide +kernel, by decide +kernel,
    ⟨runs_of (by decide +kernel), by decide +kernel, by decide +kernel, by decide +kernel, runs_of (by decide +kernel),
      by decide +kernel⟩,
    ⟨runs_of (by decide +kernel), runs_of (by decide +kernel), fun h => absurd h.clocked (by decide +kernel)⟩,
    by decide +kernel, by decide +kernel, by decide +kernel⟩

/-- Channel 1023 idle, measuring (software and free running), at its interval's end and one PCLK early; converter 63
with a channel that waits and with none; a range change one PCLK before its end and at it, and forced current's step. -/
theorem test_meets_Measurements :
    (live.Runs (R.CH_PMU_CMD 1023) ∧ live.fld (F.CH_PMU_MEAS_TRIG 1023) = 0 ∧ (live.pmu 1023).running = false ∧
      ¬(flds [(F.CLK_STAT_HOLD, 1)] live).Runs (R.CH_PMU_CMD 1023)) ∧
      (∀ m : Fin 4, let s := (flds [(F.CH_PMU_MEAS_TRIG 1023, m)] live).setPmu 1023 { running := true }
       s.fld (F.CH_PMU_MEAS_TRIG 1023) = m ∧ (s.pmu 1023).running = true) ∧
      (let s := live.setPmu 1023 { running := true }
       s.quarterOn (63 / 4) = true ∧ tabGet (fun _ => 0) s.adcAt 63 ≤ s.now / 320 * 320 ∧
        s.adcNext 63 (s.now / 320 * 320) = some 1023) ∧
      live.adcNext 63 (live.now / 320 * 320) = none ∧
      (∀ n : Fin 2, let s := live.setPmu 1023 { running := true, taken := 1, sum := -5, endAt := some (64000 + n.val) }
       (s.pmu 1023).endAt = some (64000 + n.val) ∧ (64000 + n.val ≤ s.now ↔ n = 0) ∧ s.quarterOn (1023 / 64) = true ∧
        0 < (s.pmu 1023).taken ∧ (s.pmu 1023).sum = -5 * (s.pmu 1023).taken) ∧
      ((live.pmu 1023).endAt = none ∧ (live.pmu 1023).rangeTo = none) ∧
      (∀ n : Fin 2, let s := live.setPmu 1023 { rangeTo := some 2, rangeT0 := 64000 - 1280 + n }
        (s.pmu 1023).rangeTo = some 2 ∧ forceOf (s.reg (R.CH_PMU_CTRL 1023)) ≠ 2 ∧
          ((s.pmu 1023).rangeT0 + 1280 ≤ s.now ↔ n = 0)) ∧
      (let s := (live.setReg (R.CH_PMU_CTRL 1023) 2).setPmu 1023 { rangeTo := some 2, rangeT0 := 64000 - 160, rangeStep := 1 }
       forceOf (s.reg (R.CH_PMU_CTRL 1023)) = 2 ∧ (s.pmu 1023).rangeStep = 1 ∧ (s.pmu 1023).rangeT0 + 160 ≤ s.now) :=
  ⟨⟨runs_of (by decide +kernel), by decide +kernel, by decide +kernel, fun h => absurd h.clocked (by decide +kernel)⟩,
    by decide +kernel, by decide +kernel, by decide +kernel, by decide +kernel, by decide +kernel, by decide +kernel,
    by decide +kernel⟩

/-- A crossing of each comparator's threshold, filtered and not; a blanking time at its end and one PCLK early; a gate
whose blanking ends; a period at its end, and one that EN cut. -/
theorem test_meets_SupplyGuard :
    (live.bit (F.SG_CTRL_EN 63) = false ∧ live.fld F.PWR_STAT_STATE ≠ 4) ∧
      (∀ filt : Fin 2,
       let l := [(F.SG_CTRL_EN 63, 1), (F.SG_CTRL_FILT 63, filt.val), (F.SG_PERIOD_PERIOD 63, 0), (F.SG_HYST_VHYST 63, 0)]
       let s := flds (l ++ [(F.SG_HYST_IHYST 63, 0)]) live
       s.bit (F.SG_CTRL_EN 63) = true ∧ s.fld F.PWR_STAT_STATE ≠ 4 ∧ (s.bit (F.SG_CTRL_FILT 63) = false ↔ filt = 0) ∧
        s.fld (F.SG_HYST_VHYST 63) = 0 ∧ s.fld (F.SG_HYST_IHYST 63) = 0 ∧
        (∀ k : Fin 5, (s.sg 63).acted.getLsbD k = false) ∧ s.gonBlank 63 = false ∧ 2 ≤ s.sgAction 63 4 ∧
        (s.fld (F.SG_TRIP_TRIP 63)).testBit 4 = false ∧
        (s.sg 63).periodStart + (s.fld (F.SG_PERIOD_PERIOD 63) + 1) * 10240 ≤ s.now ∧ (s.sg 63).ending = false) ∧
      (∀ n : Fin 2, let s := (flds [(F.SG_CTRL_EN 63, 1)] live).setSg 63 { live := 1, blankEnd := [(0, 64000 + n.val)] }
        tabGet (fun _ => 0) (s.sg 63).blankEnd 0 ≠ 0 ∧ (tabGet (fun _ => 0) (s.sg 63).blankEnd 0 ≤ s.now ↔ n = 0) ∧
          (s.sg 63).live.getLsbD 0 ≠ (s.sg 63).acted.getLsbD 0 ∧ s.bit (F.SG_CTRL_EN 63) = true) ∧
      (let s := live.setSg 63 { gonEnd := some 64000, gate := true, live := 1 }
       (s.sg 63).gonEnd = some 64000 ∧ 64000 ≤ s.now ∧ (s.sg 63).live.getLsbD 0 = true) ∧
      ((live.setSg 63 { ending := true }).sg 63).ending = true ∧ live.Runs (R.SG_CMD 63) ∧
      ¬(flds [(F.CLK_STAT_HOLD, 1)] live).Runs (R.SG_CMD 63) :=
  ⟨by decide +kernel, by decide +kernel, by decide +kernel, by decide +kernel, by decide +kernel, runs_of (by decide +kernel),
    fun h => absurd h.clocked (by decide +kernel)⟩

/-- A closed window whose result is due, and one PCLK early; predictions one above the quarter's ceiling and at it; a
window that ends, in RUN and in NAP; a group over its budget. -/
theorem test_meets_LedgerWindows :
    live.Takes .pcie R.LEDG_CTRL ∧ (640 * (live.led.window + 1) ≤ live.now ∧ live.pstate < 2) ∧
      2 ≤ (flds [(F.PWR_STAT_STATE, 2)] live).pstate ∧ live.led.waitq = [] ∧
      (let s := flds [(F.LEDG_RESV_RESV 7, 1), (F.LEDG_BUDGET_BUDGET 7, 0)] live
       checkL1 s 7 = false) ∧
      (∀ n : Fin 2, let w : LedWin := ⟨97, [(0, 1)], true⟩
       let s : State := { live with led := { waitq := [w] }, now := 640 * (97 + 1) + 960 - n }
       s.led.waitq.head? = some w ∧ (640 * (w.no + 1) + 960 ≤ s.now ↔ n = 0) ∧ w.en = true) ∧
      (128 + 7) / 8 = 16 ∧ 128 + 7 ∈ [135] ∧ 0 ∉ [135] :=
  ⟨takes_of (by decide +kernel), by decide +kernel, by decide +kernel, by decide +kernel, by decide +kernel, by decide +kernel,
    by decide +kernel⟩

/-- A quarter's re-lock, the survey, a session and a STORE that wait for a grant, and nothing; a session on a free quarter,
on one with a slot, and requested again; a slot that ends and one PCLK early; a channel of an enabled site at the
limit, and one without a site. -/
theorem test_meets_Calibration :
    live.nextGrant = none ∧
      (∀ a ∈ [0, 15, 16, 17], { live with cal := { waiting := [a] } }.nextGrant = some a) ∧
      (let s : State := { live with nvm := { storing := some 29 }, cal := { waiting := [18] } }
       s.nextGrant = some 18 ∧ s.nvm.storing = some 29) ∧
      (live.Takes .pcie R.CAL_MREQ ∧ fieldOf (live.reg R.CAL_MREQ) 4 1 = 0 ∧ 17 ∉ live.cal.running ∧ 17 ∉ live.cal.waiting ∧
        live.slotRuns 15 = false ∧ 15 ∉ live.cal.running) ∧
      ((live.setReg R.CAL_MREQ 0x1F).Takes .pcie R.CAL_MREQ ∧ fieldOf ((live.setReg R.CAL_MREQ 0x1F).reg R.CAL_MREQ) 4 1 = 1 ∧
        (live.setReg R.CAL_MREQ 0x1F).fld F.CAL_MREQ_QUARTER = 15) ∧
      (∀ n : Fin 2, let x : CalSlot := ⟨64000 - 4096 + n, [1023]⟩
       let s : State := { live with cal := { slots := [(15, some x)] } }
       s.slotRuns 15 = true ∧ tabGet (fun _ => none) s.cal.slots 15 = some x ∧ x.chans.Nodup ∧
        (x.start + 4096 ≤ s.now ↔ n = 0)) ∧
      (let s := (flds [(F.QSEQ_SITE_CFG_SITE_EN 15, 1), (F.CAL_CFG_AGE_EN, 1), (F.CAL_CFG_MAX_AGE, 1)] live).setChan 1023
         { site := some 0 }
       (s.chan 1023).site = some 0 ∧ (s.fld (F.QSEQ_SITE_CFG_SITE_EN (1023 / 64))).testBit 0 = true ∧
        s.bit F.CAL_CFG_AGE_EN = true ∧ max 1 (s.fld F.CAL_CFG_MAX_AGE) * 80000 ≤ (s.setQ 15 { bodyGran := 80000 }).calAge 1023 ∧
        (s.calCh 1023).stale = false) ∧ (live.chan 1023).site = none :=
  ⟨by decide +kernel, by decide +kernel, by decide +kernel,
    ⟨takes_of (by decide +kernel), by decide +kernel, by decide +kernel, by decide +kernel, by decide +kernel,
      by decide +kernel⟩,
    ⟨takes_of (by decide +kernel), by decide +kernel, by decide +kernel⟩, by decide +kernel, by decide +kernel,
    by decide +kernel⟩

/-- Both copies of page 0 name another page, so the key is unlocked; the first copy of logical page 2 with its CRC. -/
def unlocked : State := { live with nvm := { pages := [(0, 1), (1024, 1)] } }

def copied : State := { live with nvm := { pages := [(4096, 2)] } }

def stored (v : Dword) : State := { live with nvm := { pages := [(4096, 2), (5119, v)] } }

theorem xor_lt {a b : Nat} (ha : a < 2 ^ 32) (hb : b < 2 ^ 32) : a ^^^ b < 2 ^ 32 := Nat.xor_lt_two_pow ha hb

theorem crc32cBit_lt {c : Nat} (h : c < 2 ^ 32) : crc32cBit c < 2 ^ 32 := by
  unfold crc32cBit
  split
  · exact xor_lt (by omega) (by decide)
  · omega

theorem crc32c_lt (bs : List Byte) : crc32c bs < 2 ^ 32 := by
  refine xor_lt ?_ (by decide)
  suffices ∀ (bs : List Byte) (c : Nat), c < 2 ^ 32 → bs.foldl (fun c b => crc32cByte c b.toNat) c < 2 ^ 32 from
    this bs _ (by decide)
  intro bs
  induction bs with
  | nil => exact fun c h => h
  | cons b bs ih =>
    intro c h
    refine ih _ ?_
    unfold crc32cByte
    have hb : b.toNat < 2 ^ 32 := Nat.lt_of_lt_of_le b.isLt (by decide)
    exact crc32cBit_lt (crc32cBit_lt (crc32cBit_lt (crc32cBit_lt (crc32cBit_lt (crc32cBit_lt (crc32cBit_lt (crc32cBit_lt
      (xor_lt h hb))))))))

theorem stored_dw {v : Dword} {i : Nat} (h : i ≠ 1023) : (stored v).pageDw 4 i = copied.pageDw 4 i := by
  have e : ¬(5119 = 4 * 1024 + i) := by omega
  simp only [State.pageDw, stored, copied, tabGet, if_neg e]

theorem stored_current (v : Dword) (hv : v.toNat = crc32c (copied.pageBytes 4 1023)) : (stored v).current 2 = some 4 := by
  have hb : (stored v).pageBytes 4 1023 = copied.pageBytes 4 1023 := by
    unfold State.pageBytes
    exact List.flatMap_congr fun i hi => by rw [stored_dw (by have := List.mem_range.mp hi; omega)]
  have h0 : (stored v).pageDw 4 0 = 2 := rfl
  have h2 : (stored v).pageDw 4 2 = 0 := rfl
  have hc : (stored v).pageDw 4 1023 = v.toNat := rfl
  have h5 : (stored v).pageDw 5 0 = 0 := rfl
  have h1 : (stored v).copyValid 2 4 = true := by
    simp only [State.copyValid, hb, hc, h0, h2, hv, decide_true, Bool.and_true]
    decide
  have h6 : (stored v).copyValid 2 5 = false := by
    simp only [State.copyValid, h5]
    rfl
  simp only [State.current, h1, h6]

theorem test_page_has_a_current_copy : ∃ v, (stored v).current 2 = some 4 :=
  ⟨BitVec.ofNat 32 _, stored_current _ (by rw [BitVec.toNat_ofNat]; exact Nat.mod_eq_of_lt (crc32c_lt _))⟩

/-- An unlocked part, one that runs a STORE, a worn target; a STORE and a LOAD that end; a quarter that the page covers
running and stopped. -/
theorem test_meets_PersistentStorage :
    (unlocked.Runs R.NVM_CMD ∧ unlocked.nvm.storing = none ∧ unlocked.keyLocked = false ∧
      ¬(flds [(F.CLK_STAT_HOLD, 1)] live).Runs R.NVM_CMD) ∧
      (let s : State := { flds [(F.NVM_SEL_LPN, 2)] live with nvm := { pages := [(4099, 100000), (5123, 100000)] } }
       s.Runs R.NVM_CMD ∧ 100000 ≤ s.pageDw (s.storeTarget (s.fld F.NVM_SEL_LPN)) 3) ∧
      (let s : State := { live with nvm := { storing := some 29, granted := true, target := 59 } }
       s.nvm.storing = some 29 ∧ s.nvm.granted = true ∧ s.nvm.target / 2 = 29 ∧ s.thm.shutPend = false) ∧
      (live.nvm.storing = none ∧ live.nvm.loading = none ∧ live.thm.shutPend = false) ∧
      ((pageQuarters (live.fld F.NVM_SEL_LPN)).all (fun q => live.stopped q || !live.quarterOn q) = true ∧
        (let s := flds [(F.NVM_SEL_LPN, 25)] (atWord 1 0 0 0)
         (pageQuarters (s.fld F.NVM_SEL_LPN)).all (fun q => s.stopped q || !s.quarterOn q) = false)) ∧
      (let s : State := { live with nvm := { loading := some 2 } }
       s.nvm.loading = some 2 ∧ s.current 2 = none) ∧
      ∃ v, (stored v).current 2 = some 4 :=
  ⟨⟨runs_of (by decide +kernel), by decide +kernel, by decide +kernel, fun h => absurd h.clocked (by decide +kernel)⟩,
    ⟨runs_of (by decide +kernel), by decide +kernel⟩, by decide +kernel, by decide +kernel, by decide +kernel,
    by decide +kernel, test_page_has_a_current_copy⟩

/-- Dword 3 of a descriptor with EN and a good CRC, all else 0. -/
def enable : Dword := BitVec.ofNat 32 (0x40 + 2 ^ 16 * crc16 (bytesOf (0x40 * 2 ^ 96) 14))

/-- Ring 65535 on, with records to drain, and host accesses that it waits for. -/
def draining : State :=
  let g : Ring := { on := true, waitHost := true, uncovered := 1, ie := true, vec := 2047, fill := 1 }
  { flds [(F.RING_CTRL_PUMP_EN, 1), (F.HOST_IRQ_CFG_IRQ_EN, 1), (F.HOST_IRQ_CFG_FOLD, 11)] ((live.setRing 65535 g).winSet
      (0x48000 + 16 * 2047 + 12) 0) with linkUp := true, pcie := { cfg := { msixEnable := true } } }

theorem test_meets_RingSetup :
    (live.Serves .pcie (ringAddr 65535 + 12) ∧ live.bootRefuses .pcie (ringAddr 65535 + 12) = false ∧
      (live.ring 65535).on = false ∧ (live.ring 65535).lost = [] ∧ (live.ring 65535).waits = []) ∧
      (let w (v : Dword) : Desc := v ++ live.winGet (ringAddr 65535 + 8) ++ live.winGet (ringAddr 65535 + 4) ++
         live.winGet (ringAddr 65535)
       rdEn (w enable) = true ∧ live.ringOk 65535 (w enable) = true ∧ rdEn (w 0x40) = true ∧
        live.ringOk 65535 (w 0x40) = false ∧ rdEn (w 0) = false) ∧
      draining.Serves .pcie (ringAddr 65535 + 12) ∧
      (draining.bootRefuses .pcie (ringAddr 65535 + 12) = false ∧ (draining.ring 65535).on = true ∧
        0 < (draining.ring 65535).fill ∧ (draining.ring 65535).waitHost = true ∧
        draining.bit F.RING_CTRL_PUMP_EN = true ∧ draining.linkUp = true ∧ (draining.ring 65535).lastPoll = 0 ∧
        0 < (draining.ring 65535).uncovered ∧
        (draining.ring 65535).uncSince + 640 * draining.fld F.RING_COAL_TIME ≤ draining.now ∧
        (draining.ring 65535).ie = true ∧ 256 ≤ (draining.ring 65535).vec ∧ draining.bit F.HOST_IRQ_CFG_IRQ_EN = true ∧
        draining.pcie.cfg.msixEnable = true ∧ draining.msixMasked ((draining.ring 65535).vec % draining.vectors) = false) ∧
      (∀ n : Fin 2, let s := draining.setRing 65535 { draining.ring 65535 with lastPoll := 64000 - 640 + n }
        ((s.ring 65535).lastPoll + 640 ≤ s.now ↔ n = 0)) ∧
      live.bit F.RING_CTRL_PUMP_EN = false :=
  ⟨⟨serves_of (by decide +kernel), by decide +kernel, by decide +kernel, by decide +kernel, by decide +kernel⟩,
    by decide +kernel, serves_of (by decide +kernel), by decide +kernel, by decide +kernel, by decide +kernel⟩

/-- A record for ring 5. -/
def record (prio : Bool) : Record := ⟨if prio then 2 else 4, 0, 15, 1, 0, none, 64000, 0, 5, prio⟩

/-- Quarter 15 has a record for ring 5, which holds `fill` of its 64 places. -/
def queuedRecord (prio : Bool) (fill : Nat) : State :=
  ((flds [(F.QRES_REC_UNITS_UNITS 15, 8)] live).setR 15 { queue := [record prio] }).setRing 5
    { on := true, hsize := 1, fill := fill }

/-- Ring 5 holds a record that the pump may move. -/
def pumping : State :=
  ringStore 5 15 (record false) (flds [(F.RING_CTRL_PUMP_EN, 1), (F.RING_PUMPBW_UNITS, 8)]
    ({ live with linkUp := true }.setRing 5 { on := true }))

/-- The last place that takes a record, and the first that does not, of either kind; a ring that is off; a record of the
ring to pump, and one whose bytes are not good; a full host buffer. -/
theorem test_meets_RecordsFlow :
    (∀ p : Bool, let s := queuedRecord p 0
      (s.r 15).queue.head? = some (record p) ∧ (s.r 15).slotAt ≠ granuleOf s.now ∧
        0 < slotsIn (max 1 (min 64 (s.fld (F.QRES_REC_UNITS_UNITS 15)))) (granuleOf s.now / 8 % 8) ∧ (s.ring 5).on = true ∧
        (s.ring 5).cycle ≠ s.now / 2 + 1 ∧ (s.ring 5).rseq < 2 ^ 32) ∧
      (∀ p : Bool, let g (n : Nat) := (queuedRecord p (ringCap ((queuedRecord p 0).ring 5) - 64 - 1 + n)).ring 5
        (g 0).clear = true ∧
          (g 0).fill + 64 < ringCap (g 0) ∧ ¬(g 1).fill + 64 < ringCap (g 1) ∧ (g 1).fill < ringCap (g 1) ∧
          (g 64).fill < ringCap (g 64) ∧ ¬(g 65).fill < ringCap (g 65)) ∧
      (live.r 15).queue = [] ∧ (live.ring 5).on = false ∧
      (let a := (pumping.ring 5).hbase * 4096 + (pumping.ring 5).drained % ringCap (pumping.ring 5) * 64
       pumping.bit F.RING_CTRL_PUMP_EN = true ∧ pumping.linkUp = true ∧ pumping.pumpAt ≠ granuleOf pumping.now ∧
        0 < slotsIn (max 1 (pumping.fld F.RING_PUMPBW_UNITS)) (granuleOf pumping.now / 8 % 8) ∧
        (∀ k ∈ pumping.pumpable, pumping.hostFull k = false) ∧ pumping.pumpPick = some 5 ∧ (pumping.ring 5).lost = [] ∧
        (pumping.ring 5).waits = [] ∧
        crc32c (((List.range 64).map fun i => pumping.hbmByte (a + i)).take 60) = pumping.hbmNat (a + 60) 4 ∧
        pumping.hbmNat (a + 4) 4 = (pumping.ring 5).drained ∧
        (pumping.setHbmByte (a + 4) 1).hbmNat (a + 4) 4 ≠ (pumping.ring 5).drained) ∧
      (let s := pumping.setRing 5 { pumping.ring 5 with cons := 1 }
       s.hostFull 5 = true ∧ 5 ∈ s.pumpable) ∧ live.pumpPick = none := by decide +kernel


/-- Unit 63 with a locked DLL and these events for its start and its stops. -/
def tdcWith (st se sa te ta : Nat) (x : Tdc) : State :=
  (flds [(F.TDC_CTRL_EN 63, 1), (F.TDCC_DLL_STAT_LOCKED 15, 1), (F.TDC_STATE_STATE 63, st), (F.TDC_START_SEL_EVT 63, se),
    (F.TDC_START_SEL_ARG 63, sa), (F.TDC_STOP_SEL_EVT 63, te), (F.TDC_STOP_SEL_ARG 63, ta)] live).setTdc 63 x

/-- The same unit with a trigger ball as its start and a mark edge as its stop. -/
def tdcOn (st : Nat) (x : Tdc) : State := tdcWith st 8 1 8 1 x

/-- A quarter that is off; disabled, badly set up, not ready with a record to report it and ready; every ARM source. -/
theorem test_meets_TimeIntervals_arm :
    (flds [(F.PWR_QMASK_ON, 0x7FFF)] live).quarterOn (63 / 4) = false ∧ live.quarterOn (63 / 4) = true ∧
      live.Takes .pcie (R.TDC_CTRL 63) ∧ live.bit (F.TDC_CTRL_EN 63) = false ∧
      (let s := flds [(F.TDC_CTRL_EN 63, 1), (F.TDC_ARM_CFG_SRC 63, 1), (F.TDC_ARM_CFG_ARG 63, 4)] live
       s.bit (F.TDC_CTRL_EN 63) = true ∧ s.tdcState 63 = 0 ∧ s.tdcCfgOk 63 = false) ∧
      (∀ n : Fin 2, let s := flds [(F.TDC_CTRL_EN 63, 1), (F.TDC_CFG_REC_EN 63, n)] live
       s.tdcState 63 = 0 ∧ s.qstate 15 ≠ 9 ∧ s.chipFault = false ∧ s.tdcCfgOk 63 = true ∧ s.tdcReady 63 = false ∧
        (s.bit (F.TDC_CFG_REC_EN 63) = true ↔ n = 1) ∧ s.fld (F.QRES_LSTAT_LEVEL 15) < 3) ∧
      (tdcOn 0 {}).Takes .pcie (R.TDC_CTRL 63) ∧ (tdcOn 0 {}).tdcCfgOk 63 = true ∧ (tdcOn 0 {}).tdcReady 63 = true ∧
      (tdcOn 1 {}).Takes .pcie (R.TDC_CTRL 63) ∧ (tdcOn 1 {}).tdcState 63 = 1 ∧ ((tdcOn 1 {}).tdc 63).result = none ∧
      (∀ k : Fin 8, let s := flds [(F.TDC_ARM_CFG_SRC 63, k), (F.TDC_ARM_CFG_ARG 63, 1)] (tdcOn 0 {})
        s.fld (F.TDC_ARM_CFG_SRC 63) = k ∧ s.quarterOn (63 / 4) = true ∧ s.tdcReady 63 = true ∧ s.chipFault = false ∧
          s.qstate 15 ≠ 9 ∧ s.bit (F.TDC_CTRL_EN 63) = true ∧ s.tdcState 63 = 0) := by
  refine ⟨by decide +kernel, by decide +kernel, takes_of (by decide +kernel), by decide +kernel, by decide +kernel, by decide +kernel,
    takes_of (by decide +kernel), by decide +kernel, by decide +kernel, takes_of (by decide +kernel), by decide +kernel,
    by decide +kernel, by decide +kernel⟩

/-- A start before and at the opening, at an SG crossing that is delivered and one that is not, at the opening itself and at
a granule boundary; a stop one LSB nearer than one PCLK and at one PCLK, and the last of a set and one before it. -/
theorem test_meets_TimeIntervals_events :
    (∀ n : Fin 2, let s := tdcOn 1 { opens := 64000 + n }
      s.quarterOn (63 / 4) = true ∧ s.tdcState 63 = 1 ∧ s.tdcCounts 63 = true ∧ s.fld (F.TDC_START_SEL_EVT 63) = 8 ∧
        (s.now < (s.tdc 63).opens ↔ n = 1)) ∧
      (∀ n : Fin 2, let s := (tdcWith 1 0x0C 15 8 1 {}).setSg 15 { crossed := [64000 - 204 + n] }
        s.tdcState 63 = 1 ∧ s.tdcCounts 63 = true ∧ s.fld (F.TDC_START_SEL_EVT 63) = 0x0C ∧ (s.tdc 63).opens ≤ s.now ∧
          (s.sgDelivers (s.fld (F.TDC_START_SEL_ARG 63)) = true ↔ n = 0)) ∧
      (let s := tdcWith 1 0x0D 0 8 1 {}
       s.tdcState 63 = 1 ∧ s.fld (F.TDC_START_SEL_EVT 63) = 0x0D ∧ (s.tdc 63).opens ≤ s.now ∧ s.tdcCounts 63 = true) ∧
      (let s := tdcWith 1 0x0E 0 8 1 {}
       s.tdcState 63 = 1 ∧ s.fld (F.TDC_START_SEL_EVT 63) = 0x0E ∧ s.now % 8 = 0 ∧ { s with now := 64001 }.now % 8 ≠ 0) ∧
      (let s := flds [(F.TDC_CFG_REF_TIP 63, 1)] (tdcWith 1 1 63 1 63 {})
       s.tdcState 63 = 1 ∧ s.fld (F.TDC_START_SEL_EVT 63) = 1 ∧ s.tdcCounts 63 = true ∧ (s.tdc 63).opens ≤ s.now) ∧
      (∀ n : Fin 2, let s := tdcOn 2 { start := some 5, last := 63999 * 2048 }
        s.tdcState 63 = 2 ∧ s.tdcCounts 63 = true ∧ (s.tdc 63).start = some 5 ∧ s.fld (F.TDC_STOP_SEL_EVT 63) = 8 ∧
          (((s.now * 2048 : Nat) : Int) - n - (s.tdc 63).last < 2048 ↔ n = 1) ∧ s.tipOffset 63 8 1 = 0) ∧
      (∀ n : Fin 2, let s := flds [(F.TDC_NSTOP_NSTOP 63, 15)] (tdcOn 2 { start := some 5, stops := List.replicate (13 + n) 1 })
        s.tdcState 63 = 2 ∧ s.tdcCounts 63 = true ∧ (s.tdc 63).start = some 5 ∧
          (max 1 (s.fld (F.TDC_NSTOP_NSTOP 63)) ≤ (s.tdc 63).stops.length + 1 ↔ n = 1)) ∧
      (∀ n : Fin 2, let s := (tdcWith 2 8 1 0x0C 15 { start := some 5 }).setSg 15 { crossed := [64000 - 205 - n] }
        s.tdcState 63 = 2 ∧ s.fld (F.TDC_STOP_SEL_EVT 63) = 0x0C ∧
          (s.sgDelivers (s.fld (F.TDC_STOP_SEL_ARG 63)) = true ↔ n = 0)) ∧
      (let s := tdcWith 2 8 1 0x0E 0 { start := some 5 }
       s.tdcState 63 = 2 ∧ s.fld (F.TDC_STOP_SEL_EVT 63) = 0x0E ∧ s.now % 8 = 0) := by decide +kernel

/-- A gate, a time-out and the range limit, at their time and one PCLK before; a result due, and one PCLK before; with
REARM and without. -/
theorem test_meets_TimeIntervals_end :
    (∀ b : Bool, ((tdcOn 1 { level := b }).tdc 63).level = b ∧ (tdcOn 1 { level := b }).tdcState 63 = 1 ∧
      ((tdcOn 1 { level := b }).tdc 63).result = none) ∧
      (∀ n : Fin 2, let s := flds [(F.TDC_TMO_TMO 63, 99)] (tdcOn 1 { opens := 640 + n })
        s.quarterOn (63 / 4) = true ∧ s.tdcState 63 ≠ 0 ∧ (s.tdc 63).result = none ∧ s.fld (F.TDC_TMO_TMO 63) ≠ 0 ∧
          (s.now < (s.tdc 63).opens + 640 * s.fld (F.TDC_TMO_TMO 63) ↔ n = 1)) ∧
      (∀ n : Fin 2, let s : State := { tdcOn 2 { start := some 2047 } with now := 2 ^ 21 - n }
        (s.tdc 63).start = some 2047 ∧ (s.tdc 63).result = none ∧ s.tdcState 63 = 2 ∧
          (s.now < ((2047 : Int) / 2048).toNat + 2 ^ 21 ↔ n = 1)) ∧
      ((tdcOn 1 {}).tdc 63).start = none ∧
      (∀ n : Fin 2, let s := tdcOn 2 { start := some 2047, result := some (64000 + n), rearm := n = 1, flags := 64 }
        (s.tdc 63).result = some (64000 + n.val) ∧ (s.tdc 63).start = some 2047 ∧ ((s.tdc 63).rearm = true ↔ n = 1) ∧
          (s.now < 64000 + n.val ↔ n = 1) ∧ (s.tdc 63).stops.length < 16 ∧ (s.q (63 / 4)).body = none ∧
          (s.tdc 63).flags.testBit 6 = true) ∧
      (let s := flds [(F.TDC_CTRL_REARM 63, 1)] (tdcOn 2 { start := some 5, result := some 64000, rearm := true, level := true })
       (s.tdc 63).result = some 64000 ∧ (s.tdc 63).rearm = true ∧ s.bit (F.TDC_CTRL_REARM 63) = true ∧
        s.bit (F.TDC_CTRL_EN 63) = true ∧ s.qstate (63 / 4) ≠ 9 ∧ s.chipFault = false ∧ s.tdcCfgOk 63 = true ∧
        s.tdcReady 63 = true ∧ s.quarterOn (63 / 4) = true) := by decide +kernel

/-- A lock lost with a unit waiting, one counting and one done; re-locks asked for and run; the crystal's pull due, by its
age and with PULL_EN off; the RCO's trim at both ends, with a reference and none. -/
theorem test_meets_ClocksAndDlls_trims :
    (∀ st : Fin 3, (tdcOn st {}).bit (F.TDCC_DLL_STAT_LOCKED 15) = true ∧ (tdcOn st {}).tdcState (4 * 15 + 3) = st ∧
      ((tdcOn st {}).tdc (4 * 15 + 3)).result = none) ∧
      ((tdcOn 2 { result := some 64000 }).tdc (4 * 15 + 3)).result = some 64000 ∧
      live.bit (F.TDCC_DLL_STAT_LOCKED 15) = false ∧ live.quarterOn 15 = true ∧
      live.Takes .pcie R.TDCC_RELOCK ∧ (flds [(F.PWR_QMASK_ON, 0x7FFF)] live).Takes .pcie R.TDCC_RELOCK ∧
      (flds [(F.PWR_QMASK_ON, 0x7FFF)] live).quarterOn 15 = false ∧
      (let s : State := { live with cal := { running := [15] } }
       15 ∈ s.cal.running ∧ 14 ∉ s.cal.running) ∧
      (∀ n : Fin 2, let s : State := { live with clk := { live.clk with pullNext := 64000 + n, trimNext := 64000 + n } }
        (s.now < s.clk.pullNext ↔ n = 1) ∧ (s.now < s.clk.trimNext ↔ n = 1)) ∧
      (flds [(F.TDCC_TB_CFG_PULL_EN, 0)] live).bit F.TDCC_TB_CFG_PULL_EN = false ∧ live.clk.pullNext ≤ live.now ∧
      (∀ n : Fin 2, let s : State := { flds [(F.TDCC_TB_CFG_PULL_EN, 1), (F.TDCC_TB_CFG_AGE_EN, n), (F.TDCC_TB_CFG_TCOMP_EN, 0)] live
          with nvm := { loaded := 2 } }
        s.bit F.TDCC_TB_CFG_PULL_EN = true ∧ s.nvm.loaded.testBit 1 = true ∧ s.nvm.bad.testBit 1 = false ∧
          s.bit F.TDCC_TB_CFG_TCOMP_EN = false ∧ (s.bit F.TDCC_TB_CFG_AGE_EN = true ↔ n = 1)) ∧
      (∀ n : Fin 2, let s : State := { live with clk := { xoOn := true, xoEnd := 64000 + n } }
        s.clk.xoOn = true ∧ s.clk.xoCounting = false ∧ (s.clk.xoEnd ≤ s.now ↔ n = 0)) ∧
      (∀ n : Fin 2, let c := n.val * 1023
        let s : State := { live with regs := tabInsert live.regs R.CLK_RCO_TRIM (BitVec.ofNat 16 (0x1000 + c)) }
        s.bit F.CLK_RCO_TRIM_TRIM_EN = true ∧ s.srcPowered 1 = true ∧ s.clk.trimNext ≤ s.now ∧ s.srcReady 0 = true ∧
          s.fld F.CLK_RCO_TRIM_CODE = c ∧ (flds [(readyFld 0, 0)] s).srcReady 0 = false ∧ s.laceJoined = false ∧
          (flds [(readyFld 0, 0), (F.LACE_STAT_STATE, 3)] s).laceJoined = true) := by
  refine ⟨by decide +kernel, by decide +kernel, by decide +kernel, by decide +kernel, takes_of (by decide +kernel),
    takes_of (by decide +kernel), by decide +kernel, by decide +kernel, by decide +kernel, by decide +kernel, by decide +kernel,
    by decide +kernel, by decide +kernel, by decide +kernel⟩

/-- Every source not yet READY; every monitor in a role, with its fall-back READY and not, and beside every role; the
Shank's sources; the switches of CLK.SRC, and a clock-hold over, too long and not yet. -/
theorem test_meets_ClocksAndDlls_sources :
    (∀ k : Fin 4, let s := flds [(readyFld k, 0), (F.CLK_MON_CFG_MON_EN, 1)] live
      s.srcReady k = false ∧ s.srcPowered k = true ∧ s.bit F.CLK_MON_CFG_MON_EN = true ∧ s.clk.xoCounting = true) ∧
      (let s := flds [(readyFld 1, 0)] { live with clk := {} }
       s.srcReady 1 = false ∧ s.srcPowered 1 = true ∧ s.clk.xoOn = false) ∧
      (∀ k : Fin 6, (flds [(F.CLK_MON_CFG_MON_EN, 0)] live).monitored k = false ∧
        (flds [(F.CLK_MON_CFG_MON_EN, 1)] live).monitored k = true) ∧
      (let s := flds [(F.CLK_MON_CFG_MON_EN, 1)] live
       s.bit F.CLK_STAT_HOLD = false ∧ s.core = 2 ∧ refSource (s.fld F.CLK_SRC_PLL_REF) = 0 ∧ s.srcReady 0 = true ∧
        s.srcReady 1 = true ∧ (flds [(readyFld 0, 0)] s).srcReady 0 = false) ∧
      (∀ c : Fin 2, let s := flds [(F.CLK_MON_CFG_MON_EN, 1), (F.CLK_STAT_CORE_ACT, c)] live
        s.core = c ∧ s.monitored (1 - c.val) = true ∧ s.srcReady (1 - c.val) = true ∧ s.srcReady c.val = true ∧
          s.bit F.CLK_STAT_HOLD = false) ∧
      (let s := flds [(F.CLK_MON_CFG_MON_EN, 1), (readyFld 1, 0), (readyFld 3, 1)] live
       s.srcReady 1 = false ∧ s.monitored 3 = true ∧ (flds [(readyFld 1, 1), (readyFld 3, 0)] s).srcReady 1 = true ∧
        (flds [(readyFld 1, 1), (readyFld 3, 0)] s).srcReady 3 = false) ∧
      (let s : State := { live with clk := { holdSince := some 0 }, now := 6400000 }
       s.holdOver = true ∧ s.clk.holdSince = some 0 ∧ s.clk.holdLocked = false ∧ s.holdFallReady = true ∧
        s.thm.shutPend = false ∧ s.pwr.stalled = [] ∧ live.holdOver = false ∧ live.clk.holdSince = none ∧
        (flds [(readyFld 1, 0)] s).holdFallReady = false ∧ 0 + 6400000 ≤ s.now) ∧
      live.pllPowered = true ∧ live.srcReady (refSource (live.fld F.CLK_SRC_PLL_REF)) = true ∧ live.Takes .pcie R.CLK_SRC ∧
      live.srcWriteOk 1 0 = true ∧ live.srcWriteOk 3 0 = false ∧
      (flds [(readyFld 2, 1)] live).srcWriteOk 2 1 = true ∧ live.fld F.CLK_SRC_CORE = 2 ∧
      (∀ n : Fin 2, let s := flds [(F.CLK_STAT_SWITCHING, n)] live
       (s.bit F.CLK_STAT_SWITCHING = true ↔ n = 1) ∧ s.bit F.CLK_STAT_PLL_LOCK = true ∧ s.bit F.CLK_STAT_IPLL_LOCK = true) := by
  refine ⟨by decide +kernel, by decide +kernel, by decide +kernel, by decide +kernel, by decide +kernel, by decide +kernel,
    by decide +kernel, by decide +kernel, by decide +kernel, takes_of (by decide +kernel), by decide +kernel, by decide +kernel,
    by decide +kernel, by decide +kernel, by decide +kernel⟩

/-- One event of each type, at its time. -/
def event (type : Nat) (s : State) : State :=
  { s with lace := { s.lace with effects := [⟨type, 63, 7, 31, 64000, 64000⟩] } }

/-- Every type, at its time and one PCLK before; a quarter that waits for the mark or the start, one that plays and one that
does not follow holds; units that wait for the mark, one of them already armed; a mark beside a commit; a first key and the
last one, with a body, a stall and a start that wait; an EPOCH on the master, in step and out of step, stopped and not. -/
theorem test_meets_LaceEffects :
    (∀ type : Fin 8, type ∈ [1, 2, 3, 4, 5, 7] → (event type live).dueEffect [type] = some ⟨type, 63, 7, 31, 64000, 64000⟩ ∧
      { event type live with now := 63999 }.dueEffect [type] = none) ∧
      (live.q 15).body = none ∧ (∀ u : Fin 17, txnState (event 2 live) u ≠ 2) ∧
      (let s := flds [(F.EVC_CTRL_SNAP_ARM, 1), (F.EVC_SNAP_MARK_MARK_N, 7), (F.EVC_SEL_SNAP_EN 63, 1)] (event 2 live)
       s.bit F.EVC_CTRL_SNAP_ARM = true ∧ s.fld F.EVC_SNAP_MARK_MARK_N = 7 ∧ s.bit (F.EVC_SEL_SNAP_EN 63) = true) ∧
      (∀ m : Fin 2, let s := flds [(F.QSEQ_STAT_STATE 15, 10), (F.QSEQ_CTRL_START_MODE 15, 1 + m), (F.QSEQ_MARK_N_MARK_N 15, 7)] live
       s.qstate 15 = 10 ∧ s.fld (F.QSEQ_CTRL_START_MODE 15) = 1 + m ∧ s.fld (F.QSEQ_MARK_N_MARK_N 15) = 7 ∧
        (s.q 15).startDue = none) ∧
      (∀ st : Fin 2, let s := flds [(F.TDC_ARM_CFG_SRC 63, 7), (F.TDC_ARM_MARK_MARK_N 63, 7)] (tdcOn st {})
       s.fld (F.TDC_ARM_CFG_SRC 63) = 7 ∧ s.fld (F.TDC_ARM_MARK_MARK_N 63) = 7 ∧ s.bit (F.TDC_CTRL_EN 63) = true ∧
        s.tdcState 63 = st ∧ s.qstate 15 ≠ 9 ∧ s.chipFault = false ∧ s.tdcCfgOk 63 = true ∧ s.tdcReady 63 = true) ∧
      (∀ n : Fin 2, let s := flds [(F.QSEQ_CFG_LACE_HOLD_EN 15, n)] (event 4 (atWord 1 0 0 0))
       s.lace.keys = [] ∧ (s.bit (F.QSEQ_CFG_LACE_HOLD_EN 15) = true ↔ n = 1) ∧
        (s.lace.effects.filter fun x => (x.type = 4 || x.type = 5) && x.eff = 64000).foldl keyStep s.lace.keys = [63 * 32 + 31]) ∧
      (atWord 1 0 0 0).qstate 15 = 1 ∧ ((atWord 1 0 0 0).q 15).laceHeld = none ∧
      (let s := flds [(F.QSEQ_STAT_STATE 15, 10)] (live.setQ 15 { startDue := some 64000 })
       s.qstate 15 = 10 ∧ (s.q 15).startDue.isSome = true ∧ (s.q 15).laceHeld = none) ∧
      (∀ b : Bool, let s := (event 5 { atWord 1 0 0 0 with lace := { keys := [63 * 32 + 31] } })
       let t := s.setQ 15 { s.q 15 with laceHeld := some 63360, heldStuck := b }
       t.lace.keys = [63 * 32 + 31 % 32] ∧ (t.q 15).heldStuck = b ∧ (t.q 15).laceHeld = some 63360 ∧ (t.q 15).body.isSome = true ∧
        (t.lace.effects.filter fun x => (x.type = 4 || x.type = 5) && x.eff = 64000).foldl keyStep t.lace.keys = [] ∧
        ((t.setQ 15 { laceHeld := some 63360 }).q 15).body = none) ∧
      (event 7 live).laceMaster = false ∧ { event 7 live with straps := 0x800 }.laceMaster = true ∧
      (let s (n : Nat) (t : State) : State := { t with lace := { effects := [⟨7, 63, 0, 0, 64000 + n, 64000⟩] } }
       (s 8 live).dueEffect [7] = some ⟨7, 63, 0, 0, 64008, 64000⟩ ∧ (s 8 live).allStopped = true ∧
        (s 8 (atWord 1 0 0 0)).allStopped = false ∧ (s 0 live).lace.surveying = false) := by decide +kernel

/-- A member and a master that have joined a ring. -/
def joined (master : Bool) (l : Lace) : State :=
  { flds [(F.LACE_CTRL_RING_EN, 1), (F.LACE_STAT_STATE, 3), (F.LACE_SLOTS_OWN, 0x8000), (F.LACE_SEND_CTL_TYPE, 1)] live with
    straps := if master then 0x800 else 5, lace := l }

def slot : LaceSlot := ⟨15, true, 1, false, 3, 9, 4, 0, 66560⟩

/-- Requests of the part's own, sent and refused; a survey; a detach with keys of its own, of others and outside a ring; an
EPOCH due by its period and not; a frame with nothing due, with the survey's end and with one request due, of each kind of
sender, with an owned slot and with none. -/
theorem test_meets_LaceTraffic_sent :
    (joined true {}).Takes .pcie R.LACE_CTRL ∧ (joined false {}).Takes .pcie R.LACE_CTRL ∧ live.Takes .pcie R.LACE_CTRL ∧
      (let s := joined true {}
       s.fld F.LACE_SEND_CTL_TYPE ∈ [1, 2, 4, 5] ∧ s.laceJoined = true ∧ s.laceMaster = true ∧ s.lace.detaching = false ∧
        s.laceRelays = true ∧ 0 < s.laceState ∧ s.lace.surveyReq = false ∧ s.lace.surveying = false ∧ s.laceState ≠ 4) ∧
      live.laceJoined = false ∧ live.laceMaster = false ∧ live.laceState = 0 ∧
      (let s := joined false { keys := [5 * 32 + 31] }
       s.laceJoined = true ∧ s.lace.detaching = false ∧ (∀ k ∈ s.lace.keys, k / 32 = s.chipId) ∧
        ∀ k ∈ (joined false { keys := [6 * 32] }).lace.keys, k / 32 ≠ s.chipId) ∧
      (∀ n : Fin 2, let s := flds [(F.LACE_EPOCH_PER_PER, 1)] (joined true { nextFrame := 100, epochNext := 100 + n })
       s.laceMaster = true ∧ s.fld F.LACE_EPOCH_PER_PER ≠ 0 ∧ s.laceJoined = true ∧ (s.lace.epochNext ≤ s.lace.nextFrame ↔ n = 0)) ∧
      (∀ n : Fin 2, let s := joined true { nextFrame := 100 + n }
       s.laceMaster = true ∧ s.laceRelays = true ∧ s.laceState ≠ 0 ∧ (s.now / 640 < s.lace.nextFrame ↔ n = 1)) ∧
      (let s := joined true { nextFrame := 100, surveying := true, surveyFrames := 335 }
       s.lace.requests.filter (fun r => r.at_ < 640 * (s.now / 640)) = [] ∧ s.ownedSlot s.lace.copies = some 15) ∧
      (let s := joined true { nextFrame := 100, detaching := true, requests := [⟨25, 5, 0, 0, 63992⟩] }
       s.lace.detaching = true ∧ ∀ r ∈ s.lace.requests, r.at_ < 640 * (s.now / 640)) ∧
      (∀ who ∈ [1, 16, 17, 24, 25], ∀ type ∈ [1, 7], let r : LaceReq := ⟨who, type, 4, 0, 63992⟩
       let s := joined true { nextFrame := 100, requests := [r] }
       s.lace.requests.filter (fun r => r.at_ < 640 * (s.now / 640)) = [r] ∧ s.ownedSlot s.lace.copies = some 15 ∧
        (flds [(F.LACE_SLOTS_OWN, 0)] s).ownedSlot s.lace.copies = none ∧ s.lace.detaching = false ∧ s.lace.surveying = false) ∧
      ({ joined true {} with now := 64008 }.lace.requests.filter fun (r : LaceReq) => r.at_ < 640 * (64008 / 640)) = [] := by
  refine ⟨takes_of (by decide +kernel), takes_of (by decide +kernel), takes_of (by decide +kernel), by decide +kernel,
    by decide +kernel, by decide +kernel, by decide +kernel, by decide +kernel, by decide +kernel, by decide +kernel,
    by decide +kernel, by decide +kernel, by decide +kernel, by decide +kernel⟩

/-- A part that does not relay; a frame of the master's that is back in time and one that is not; a slot of each outcome:
bad, before the part has joined, its own, a known one, a gap, the last that is in time, at the frame's start, and one PCLK
earlier. -/
theorem test_meets_LaceTraffic_received :
    (flds [(F.LACE_CTRL_RING_EN, 0)] live).laceRelays = false ∧ live.laceState = 0 ∧
      (joined false {}).laceRelays = true ∧ (joined false {}).laceState ≠ 0 ∧
      (joined false {}).laceMaster = false ∧ (joined true {}).laceMaster = true ∧
      (∀ n : Fin 4, let s := joined true { nextFrame := 99 + n }
        frameOf 64000 100 = 100 ∧ ((s.lace.nextFrame ≤ 100 + 2 ∧ 100 < s.lace.nextFrame) ↔ (n = 2 ∨ n = 3))) ∧
      (∃ x ∈ [{ slot with good := false }, slot], x.good = false) ∧ slot.good = true ∧ slot.type ∈ [1, 2, 3, 4, 5, 7] ∧
      (let s := joined false { expect := [(3, some 9)] }
       s.laceJoined = true ∧ s.lace.requests = [] ∧ s.lace.detaching = false ∧ s.lace.surveying = false ∧
        s.lace.surveyReq = false ∧ slot.orig ≠ s.chipId ∧ { slot with orig := 5 }.orig = s.chipId ∧
        (slot.orig, slot.eseq) ∉ s.lace.acted ∧ (slot.orig, slot.eseq) ∈ (joined false { acted := [(3, 9)] }).lace.acted ∧
        (flds [(F.LACE_STAT_STATE, 2)] s).laceJoined = false ∧
        tabGet (fun _ => none) s.lace.expect slot.orig = some slot.eseq ∧
        tabGet (fun _ => none) (joined false { expect := [(3, some 8)] }).lace.expect slot.orig = some 8 ∧
        8 ≠ slot.eseq ∧ tabGet (fun _ => none) (joined false {}).lace.expect slot.orig = none) ∧
      (∀ n : Fin 2, 4 * extendEff 64000 (64394 - n) < 4 * 64000 + 5 * (24 + 16 * slot.k) + 256 ↔ n = 1) ∧
      (let s := joined false {}
       s.localMoment 64000 0 100 66560 = 66560) := by decide +kernel

/-- A survey that fails and one that does not; a borrow refused and a ring lost, at their time and before. -/
theorem test_meets_LaceTraffic_surveys :
    (∀ m : Bool, (joined m { surveying := true }).lace.surveying = true ∧ (joined m { surveying := true }).laceMaster = m) ∧
      (∀ m : Bool, let s := joined m { nextFrame := 101, surveying := true, surveyFrames := 80 }
       let d : SurveyDelays := { rtts := [5, 7], echo := 2, relays := [3, 5] }
       s.lace.surveyFrames = 80 ∧ d.rtts.sum = d.rtts.length * d.echo + 2 * d.rtts.length * 2 ∧
        d.relays.sum = d.relays.length * 4) ∧
      (let s := joined true { surveying := true }
       (0 : Nat) + (20 + 2 * s.fld F.LACE_RING_N) ≥ s.lace.accBack ∧ s.fld F.LACE_HOP_DLY_HOP_DLY ≤ 26214 ∧
        ([(0, 0, true), (1, 5, true)].map fun (e : Nat × Nat × Bool) => e.2.1).Nodup) ∧
      (let s := joined false { surveying := true, offs := [0] }
       s.lace.offs ≠ [] ∧ signed 16 (s.reg R.LACE_OFFSET).toNat = 0) ∧
      (∀ n : Fin 2, let s := flds [(F.LACE_STAT_STATE, 2)] (joined false { surveyReq := true, surveySince := n })
       s.lace.surveyReq = true ∧ s.lace.surveying = false ∧ s.laceMaster = false ∧ s.laceJoined = false ∧
        (s.lace.surveySince + 64000 ≤ s.now ↔ n = 0)) ∧
      (∀ n : Fin 2, let s := joined false { lastGood := 64000 - 1280 + n }
       2 ≤ s.laceState ∧ s.lace.lost = false ∧ (s.now < s.lace.lastGood + 1280 ↔ n = 1)) := by decide +kernel

/-- A unit of 32 bits, received or sent. -/
def portUnit (dir slave : Bool) (t0 : Nat) : PortUnit :=
  { setup := [if dir then 0x21 else 0x20, 0, 0, 0, 0, 31, 0, 0], t0 := t0, slave := slave }

theorem test_meets_PortTransfers :
    ((live.setReg (portBase 15) 1).Takes .pcie (R.PE_CTRL 15) ∧ (live.setReg (portBase 15) 1).portEn 15 = true) ∧
      ((live.setPort 15 { armed := some [0x20] }).port 15).armed = some [0x20] ∧ (live.port 15).armed = none ∧
      (let u := portUnit false true 0
       let s := live.setPort 15 { unit := some u }
       (s.port 15).unit = some u ∧ u.slave = true ∧ suDir u.setup = false ∧ suCycles u.setup = 16 ∧
        u.t0 + 6400 * max 1 (fieldOf (portReg s 15 0x10) 0 8) ≤ s.now) ∧
      (let u := portUnit true false 0
       let s := live.setPort 16 { unit := some u }
       (s.port 16).unit = some u ∧ u.slave = false ∧ suDir u.setup = true ∧ fieldOf (portReg s 16 0xC) 8 8 = 0 ∧
        s.masterEnd 16 u 0 ≤ s.now) ∧
      (let u := portUnit false false 0
       let s := (live.setReg (portBase 16 + 0x18) 1).setPort 16 { unit := some u }
       (s.port 16).unit = some u ∧ u.slave = false ∧ suDir u.setup = false ∧ suLanes u.setup 2 ≠ 0 ∧
        ceilDiv (suLen u.setup) 32 ≤ fieldOf (portReg s 16 0x18) 0 10 ∧ s.masterEnd 16 u 0 ≤ s.now) ∧
      ((live.setPort 16 { dones := [(64000, true, 32)] }).port 16).dones = [(64000, true, 32)] ∧
      live.Takes .pcie (portBase 16 + 0x14) :=
  ⟨⟨takes_of (by decide +kernel), by decide +kernel⟩, by decide +kernel, by decide +kernel, by decide +kernel, by decide +kernel,
    by decide +kernel, by decide +kernel, takes_of (by decide +kernel)⟩

def spx (x : Spx1) : State := { live with spx1 := x }

/-- Command bytes of each kind, good and bad; a queue of 63 and of 64; a register write at the front; a release in the
middle of a read and of a dword. -/
theorem test_meets_MaintenancePort :
    (live.pstate = 0 ∧ live.bit F.PWR_STAT_ENTERING = false ∧ live.spx1.frame = 0 ∧ (0xC0 : Byte).toNat / 64 = 3) ∧
      (spxBad 0x00 = false ∧ (0x00 : Byte).toNat / 64 = 0 ∧ live.fld F.SPX1_CFG_BUSY_PAT ≠ 0xA5 ∧
        csAddr 0 0 < 2 ^ 24 ∧ csAddr 0 0 % 4 = 0 ∧ isWindow (csAddr 0 0) = true ∧ 0x5E000 ≤ csAddr 0 0 ∧
        live.spx1.queue = [] ∧ live.spx1.cut = false) ∧ live.Serves .spx1 (csAddr 0 0) ∧
      (spxBad 0x40 = false ∧ (0x40 : Byte).toNat / 64 = 1 ∧
        (∀ n : Fin 2, (spx { queue := List.replicate (63 + n) (0, 0) }).spx1.queue.length = 63 + n)) ∧
      (spxBad 0x80 = false ∧ (0x80 : Byte).toNat / 64 = 2) ∧
      (let s := spx { queue := [(0x400, 0xFFFF1234)] }
       s.spx1.queue = [(0x400, 0xFFFF1234)] ∧ (rowOf 0x400).isSome = true) ∧
      (spx { queue := [(0x400, 0xFFFF1234)] }).Takes .spx1 0x400 ∧
      ((spx { frame := 2 }).spx1.frame = 2 ∧ (31 : Fin 33).val % 32 ≠ 0 ∧
        (spx { frame := 1, first := 0x400000, addr := 0x400004 }).spxOut 31 = true ∧
        (spx { frame := 1, first := 0x400000, addr := 0x400004 }).spxOut 32 = false ∧ live.pwr.stalled = []) :=
  ⟨by decide +kernel, by decide +kernel, serves_of (by decide +kernel), by decide +kernel, by decide, by decide +kernel,
    takes_of (by decide +kernel), by decide +kernel⟩

/-- The part on its way into state `t`, and out of state `t`. -/
def entering (t : Nat) (w : Nat) : State :=
  flds [(F.PWR_STAT_ENTERING, 1)] { live with pwr := { target := t, wakeLatch := w } }

def exiting (t : Nat) : State := flds [(F.PWR_STAT_STATE, t), (F.PWR_STAT_EXITING, 1)] { live with pwr := { restore := 0x8001 } }

theorem test_meets_PowerStates :
    (live.Runs R.PWR_REQ ∧ live.inTransit = false ∧ live.pstate = 0 ∧ live.powerOk 1 = true ∧ live.powerOk 2 = true ∧
      live.powerOk 4 = false ∧ (entering 2 0).inTransit = true) ∧
      (let s := flds [(F.PWR_STAT_STATE, 1)] live
       s.Runs R.PWR_REQ ∧ s.pstate = 1) ∧
      (let s := flds [(F.PWR_STAT_STATE, 2)] live
       s.Runs R.PWR_REQ ∧ s.pstate = 2 ∧ s.powerOk 1 = true) ∧
      (∀ t : Fin 4, let s := entering (t + 1) 1
        s.bit F.PWR_STAT_ENTERING = true ∧ s.vidSettled = true ∧ s.thm.shutPend = false ∧ 1 ≤ s.pwr.target ∧
          s.pwr.target ≤ 4 ∧ s.pwr.wakeLatch ≠ 0) ∧
      ((exiting 4).bit F.PWR_STAT_EXITING = true ∧ (exiting 4).pstate = 4 ∧ (exiting 4).boot.running = false ∧
        (exiting 4).fld F.CHIP_BOOT_STAT_STEP = 13) ∧
      ((exiting 2).bit F.PWR_STAT_EXITING = true ∧ (exiting 2).pstate ≠ 4 ∧ (exiting 2).thm.shutPend = false ∧
        (exiting 2).vidSettled = true ∧ (exiting 2).pwr.restore.testBit 15 = true) ∧
      (∀ b : Fin 7, (live.reg R.PWR_WAKE_EN).getLsbD b = true ∧ live.thm.napLock = false ∧
        ((live.setReg R.PWR_WAKE_EN 0).reg R.PWR_WAKE_EN).getLsbD b = false ∧
        ∃ t : Fin 5, wakeEnds b t = true ∧ (entering t 0).pwr.target = t ∧ (entering t 0).bit F.PWR_STAT_ENTERING = true ∧
          (let s := flds [(F.PWR_STAT_STATE, t)] live
           s.pstate = t ∧ s.bit F.PWR_STAT_ENTERING = false ∧ s.bit F.PWR_STAT_EXITING = false)) ∧
      (let s : State := { flds [(F.PWR_STAT_STATE, 2), (F.PWR_SHANK_TMR_SEC, 1)] live with now := 640000000 }
       s.fld F.PWR_SHANK_TMR_SEC ≠ 0 ∧ 2 ≤ s.pstate ∧ s.pwr.tmrDone = false ∧
        s.pwr.entered + s.fld F.PWR_SHANK_TMR_SEC * 640000000 ≤ s.now ∧ (s.reg R.PWR_WAKE_EN).getLsbD 4 = true ∧
        s.pstate ≤ 4) :=
  ⟨⟨runs_of (by decide +kernel), by decide +kernel⟩, ⟨runs_of (by decide +kernel), by decide +kernel⟩,
    ⟨runs_of (by decide +kernel), by decide +kernel⟩, by decide +kernel, by decide +kernel, by decide +kernel, by decide +kernel,
    by decide +kernel⟩

theorem test_meets_PowerAndTemperature :
    live.Runs R.PWR_QOFF ∧ (live.Runs R.PWR_QON ∧ live.quarterOn 15 = true ∧
      (flds [(F.PWR_QMASK_ON, 0x7FFF)] live).quarterOn 15 = false) ∧
      (let s : State := { live with now := 115200, pwr := { waking := [(15, some 0)] } }
       s.pwr.waking = [(15, some 0)] ∧ s.pwr.stalled = [] ∧ 0 + 115200 ≤ s.now) ∧
      15 ∉ live.pwr.pendStart ∧
      (let s := flds [(F.PWR_STAT_STATE, 3), (F.PWR_PTS_EN 0, 1)] live
       s.pstate = 3 ∧ s.inTransit = false ∧ s.pwr.patrolNext ≤ s.now ∧ (∀ i : Fin 16, s.bit (F.PWR_PSG_EN i) = false) ∧
        (∀ k : Fin 64, s.bit (F.PWR_PPM_EN k) = false) ∧ (∀ j : Fin 4, s.bit (F.PWR_PTS_EN j) = decide (j.val = 0)) ∧
        s.fld (F.PWR_PTS_SENSOR 0) ≤ 16) ∧
      live.pwr.vidSince = none ∧ { live with pwr := { vidSince := some 0 } }.pwr.vidSince = some 0 ∧
      live.Runs R.PWR_PAD_HOLD ∧
      (let s := flds [(F.PWR_PAD_HOLD_HOLD, 1)] live
       s.bit F.PWR_PAD_HOLD_HOLD = true ∧ s.led.passed = false) ∧
      live.pstate ≠ 4 ∧ live.bit F.PWR_STAT_BACKSTOP = false ∧
      (let rs : List (Option Int) := List.replicate 16 none ++ [some 2400]
       (flds [(F.THM_CFG_XCHK_EN, 0)] live).bit F.THM_CFG_XCHK_EN = false ∧ rs.getD 16 none = some 2400 ∧ live.sensorBroken 16 = false ∧
        live.hottest < 1920) ∧
      live.Takes .pcie R.THM_BROKEN_CLR_H ∧ live.Takes .pcie R.THM_BROKEN_CLR_L :=
  ⟨runs_of (by decide +kernel), ⟨runs_of (by decide +kernel), by decide +kernel⟩, by decide +kernel, by decide, by decide +kernel,
    rfl, rfl, runs_of (by decide +kernel), by decide +kernel, by decide +kernel, by decide +kernel, by decide +kernel,
    takes_of (by decide +kernel), takes_of (by decide +kernel)⟩

/-- An event of source `src` as the last reported, with one counted before it in the window. -/
def caught (e : FaultEvent) : State :=
  { (flds [(⟨ssstat e.src, 8, 8⟩, 1), (⟨sscfg e.src, 8, 8⟩, 3)] live).setSrcCnt e.src { wend := 64000 } with reported := [e] }

theorem test_meets_FaultCollector :
    live.reported = [] ∧
      (∀ e ∈ [FaultEvent.mk 0x026 0 0 0 0 0 64000 false false, ⟨0x1F0, 1, 0, 0, 0, 0, 64000, false, false⟩,
          ⟨0x003, 2, 0, 0, 0, 0, 64000, false, false⟩],
        (caught e).reported = [e] ∧ e.src < 512 ∧ e.time / 2 ≤ ((caught e).srcCnt e.src).wend / 2 ∧
          0 < (caught e).srcCount e.src ∧
          (caught e).srcCount e.src + 1 < max 1 (fieldOf ((caught e).reg (sscfg e.src)) 8 8) ∧
          (caught e).entOpen (128 + 15) = false ∧
          (caught e).fld (entRcnt (128 + 15)) < (caught e).recLimit (128 + 15) ∧ (caught e).entOpen 224 = false ∧
          (caught e).fld (entRcnt 224) < (caught e).recLimit 224 ∧ (caught e).feHost.valid = false ∧
          (flds [(F.FLT_CTRL_FE_CORR, 0)] (caught e)).bit F.FLT_CTRL_FE_CORR = false) ∧
      (let s := (flds [(⟨ssstat 511, 8, 8⟩, 1)] live).setSrcCnt 511 { wend := 64000 }
       s.srcCount 511 ≠ 0 ∧ (s.srcCnt 511).wend ≤ s.now) ∧
      (∀ n : Fin 2, ((flds [(entFault 224, 1)] live).setEnt 224 { qend := 64000 + n }).entDue 224 = (n == 0)) ∧
      live.Takes .pcie (entAddr 224) ∧ live.Takes .spx1 R.FLT_CTRL ∧
      (∃ r, rowOf (sscfg 511) = some r ∧ r.voted.filter (fun f => fieldOf (0x100 : Word) f.1 f.2 ≠ 0) ≠ []) ∧
      (let s := flds [(F.FLT_CTRL_SCRUB_EN, 1)] live
       s.copyB = [] ∧ s.copyC = [] ∧ (0x100 : Word) ≠ 0 ∧ s.bit F.FLT_CTRL_SCRUB_EN = true) ∧
      (Master.spx1 ∈ [Master.pcie, Master.spx1] ∧ live.Serves .spx1 R.FLT_FE_SRC ∧ live.spx1.cut = false) := by
  obtain ⟨r, hr, h⟩ := row_of (a := sscfg 511)
    (p := fun r => decide (r.voted.filter (fun f => fieldOf (0x100 : Word) f.1 f.2 ≠ 0) ≠ [])) (by decide +kernel)
  exact ⟨rfl, by decide +kernel, by decide +kernel, by decide +kernel, takes_of (by decide +kernel), takes_of (by decide +kernel),
    ⟨r, hr, by simpa only [decide_eq_true_eq] using h⟩, by decide +kernel, by decide, serves_of (by decide +kernel), rfl⟩

/-- A pulse one PCLK short and one of 10 µs; WARM with a boot that awaits an image and without. -/
theorem test_meets_Resets :
    (6399 < 6400 ∧ ¬6400 < 6400) ∧ live.Takes .pcie R.CHIP_RST ∧ live.bootBusy = false ∧
      (let s := flds [(F.CHIP_BOOT_STAT_WAIT_IMAGE, 1)] live
       s.Takes .pcie R.CHIP_RST ∧ s.bootBusy = true) ∧
      ((flds [(F.CHIP_RST_QMASK_QMASK, 0x8000)] live).reg R.CHIP_RST_QMASK).getLsbD 15 = true ∧
      ((flds [(F.CHIP_RST_QMASK_QMASK, 0x8000)] live).reg R.CHIP_RST_QMASK).getLsbD 0 = false :=
  ⟨by decide, takes_of (by decide +kernel), by decide +kernel, ⟨takes_of (by decide +kernel), by decide +kernel⟩,
    by decide +kernel, by decide +kernel⟩

/-- A boot in step `n`. -/
def booting (n : Nat) (b : Boot) : State :=
  flds [(F.CHIP_BOOT_STAT_STEP, n)] { live with boot := { b with up := true, running := true } }

theorem test_meets_BootSequence :
    (live.Takes .pcie R.CHIP_BOOT_CTRL ∧ live.bit F.CHIP_BOOT_STAT_WAIT_IMAGE = false) ∧
      (let s := flds [(F.CHIP_BOOT_STAT_WAIT_IMAGE, 1)] live
       s.Takes .pcie R.CHIP_BOOT_CTRL ∧ s.bit F.CHIP_BOOT_STAT_WAIT_IMAGE = true ∧ s.bit F.MEM_FAULT_TRAIN_FAIL = false ∧
        s.fld F.CHIP_BOOT_ERR_CODE ≠ 0x0B) ∧
      (live.Takes .pcie R.CHIP_BOOT_HDATA_H ∧ live.boot.running = false ∧ live.haddr + 4 ≤ live.capacity) ∧
      ((booting 5 {}).Takes .pcie R.CHIP_BOOT_HDATA_H ∧ (booting 5 {}).boot.running = true) ∧
      (∀ n ∈ [2, 3, 5, 12], (booting n {}).boot.running = true ∧ (booting n {}).bit F.CLK_STAT_HOLD = false ∧
        (booting n {}).bootStep = n ∧ (booting n {}).srcReady 1 = true ∧ (booting n {}).srcReady 0 = true ∧
        (booting n {}).boot.fromHbm = false ∧ (booting n {}).boot.startAt = none ∧
        (∀ q : Fin 16, (booting n {}).startMask.testBit q = false)) ∧
      (∃ b, (booting 3 {}).budget = some b) ∧
      (let s : State := { booting 10 { surveyNext := 64000 } with straps := 0x800 }
       s.boot.running = true ∧ s.bootStep = 10 ∧ s.laceMaster = true ∧ s.boot.surveyNext ≤ s.now ∧ s.boot.surveys < 8 ∧
        s.lace.surveying = false ∧ s.lace.surveyReq = false) ∧
      ((booting 12 { startAt := some 64000 }).boot.startAt = some 64000 ∧
        (booting 12 { startAt := some 64000 }).bootStep = 12 ∧ 64000 ≤ (booting 12 { startAt := some 64000 }).now) ∧
      (let s : State := { booting 10 {} with now := 2 ^ 40 }
       s.bootStep = 10 ∧ s.laceMaster = false ∧ s.laceJoined = false ∧
        s.boot.since + 9 * s.surveyWait + 2560000 ≤ s.now) :=
  ⟨⟨takes_of (by decide +kernel), by decide +kernel⟩, ⟨takes_of (by decide +kernel), by decide +kernel⟩,
    ⟨takes_of (by decide +kernel), by decide +kernel⟩, ⟨takes_of (by decide +kernel), by decide +kernel⟩, by decide +kernel,
    Option.isSome_iff_exists.mp (by decide +kernel), by decide +kernel, by decide +kernel, by decide +kernel⟩

/-- An empty flash, as the boot finds it. -/
theorem test_meets_BootSequence_empty_flash (s : State) (h : s.boot.fromHbm = false) :
    (s.imageBytes [] 0 4096).all (· = 0) = true := by
  rw [State.imageBytes, if_neg (by simp [h]), slice, List.drop_nil, List.take_nil, List.nil_append, List.length_nil]
  exact List.all_eq_true.mpr fun x hx => by simp [List.eq_of_mem_replicate hx]

theorem test_meets_WakeDuringEntry :
    live.thm.napLock = false ∧
      (∀ b : Fin 7, (live.reg R.PWR_WAKE_EN).getLsbD b = true ∧
        ∃ t : Fin 5, wakeEnds b t = true ∧ (entering t 0).bit F.PWR_STAT_ENTERING = true ∧ (entering t 0).pwr.target = t ∧
          (exiting t).bit F.PWR_STAT_ENTERING = false ∧ (exiting t).bit F.PWR_STAT_EXITING = true ∧ (exiting t).pstate = t) ∧
      (∀ t : Fin 3, let s := entering (t + 2) 0x41
        s.bit F.PWR_STAT_ENTERING = true ∧ s.vidSettled = true ∧ s.thm.shutPend = false ∧ s.pwr.wakeLatch ≠ 0 ∧
          2 ≤ s.pwr.target ∧ s.pwr.target ≤ 4) := by decide +kernel

/-- Readings at WARN, at WARN - 2 °C and one code below that; a part in NAP with wake event 1 enabled. -/
theorem test_meets_ThermalWarning :
    (live.pstate ≠ 3 ∧ live.pstate ≠ 4 ∧ live.bit F.PWR_STAT_BACKSTOP = false ∧
      (flds [(F.THM_CFG_XCHK_EN, 0)] live).bit F.THM_CFG_XCHK_EN = false ∧
      (∀ i : Fin 17, live.sensorBroken i = false) ∧ live.bit F.THM_STAT_WARN_ACT = false ∧
      ((min (live.fld F.THM_WARN_WARN) 0x0690 : Nat) : Int) = 1680) ∧
      (let s := flds [(F.PWR_STAT_STATE, 2)] live
       s.pstate = 2 ∧ (s.reg R.PWR_WAKE_EN).getLsbD 1 = true ∧ s.bit F.PWR_STAT_ENTERING = false ∧
        s.bit F.PWR_STAT_EXITING = false ∧ s.thm.napLock = false ∧ (1680 : Int) < 1920) := by decide +kernel

/-- A slave unit that receives and one that sends, released early, in time and late, or idle too long and not yet; a master
unit at its end and before, one that waits for BUSY to the limit and below it, one with too few words for what it sends; a
boundary of DONE, and words added to a unit that has begun a word it does not have. -/
theorem test_meets_PortTransfers_ends :
    (∀ d : Bool, let u := portUnit d true 0
      suHeadCycles u.setup = 0 ∧ suCycles u.setup = 16 ∧ suLanes u.setup 2 = 1 ∧ suDir u.setup = d ∧
        (∀ c : Fin 3, (15 + c.val < suCycles u.setup ↔ c = 0) ∧ (suCycles u.setup < 15 + c.val ↔ c = 2) ∧
          suHeadCycles u.setup < 15 + c.val)) ∧
      (∀ n : Fin 2, let u := portUnit true true n
       let s := live.setPort 15 { unit := some u }
       (s.port 15).unit = some u ∧ (s.now < u.t0 + 6400 * max 1 (fieldOf (portReg s 15 0x10) 0 8) ↔ n = 1)) ∧
      (let u := portUnit true true 0
       let s := (live.setReg (portBase 15 + 0x18) 0).setPort 15 { unit := some { u with dry := some 0 } }
       s.runsDry 15 u = false ∧ (live.setReg (portBase 15 + 0x18) 0x001).runsDry 15 u = false ∧
        ((live.setReg (portBase 15 + 0x18) 1).setPort 15 { unit := some { u with dry := some 0 } }).runsDry 15 u = true) ∧
      (let u := portUnit false false 0
       let s := live.setPort 15 { unit := some u }
       s.masterEnd 15 u 0 ≤ s.now ∧ { s with now := s.masterEnd 15 u 0 - 1 }.now < s.masterEnd 15 u 0 ∧
        s.runsDry 15 u = true ∧ (s.setReg (portBase 15 + 0x18) 1).runsDry 15 u = false) ∧
      (∀ n : Fin 2, let u := portUnit true false 0
       let s := (live.setReg (portBase 15 + 0xC) 0x200).setPort 15 { unit := some u }
       let most := fieldOf (portReg s 15 0xC) 8 8
       most = 2 ∧ suDir u.setup = true ∧ (most ≤ min (1 + n.val) most ↔ n = 1) ∧ s.masterEnd 15 u (min (1 + n.val) most) ≤ s.now) ∧
      (∀ n : Fin 2, let s := live.setPort 15 { dones := [(64000 + n, true, 32)] }
       (s.port 15).dones = [(64000 + n.val, true, 32)] ∧ (s.now < 64000 + n.val ↔ n = 1) ∧ (s.q 15).body = none) ∧
      (let u := portUnit false false 63000
       let s := live.setPort 15 { unit := some u }
       (s.port 15).unit = some u ∧ s.txHas 15 < s.txBegun 15 u ∧
        ¬{ s with now := 63000 }.txHas 15 < { s with now := 63000 }.txBegun 15 u) := by decide +kernel

/-- Bytes that each frame ignores: an operation that is none, reserved bits, a width that is none; a frame within a frame;
both patterns; reads of no dword, off a dword, over a window and over the end of a block; writes at the queue's last place
and past it; an applied write of the last register; releases and idle timeouts in each frame. -/
theorem test_meets_MaintenancePort_edges :
    (∀ b ∈ [0xC0, 0x01, 0x0C, 0x30], let cmd : Byte := BitVec.ofNat 8 b
      cmd.toNat / 64 = 3 ∨ cmd.toNat % 4 ≠ 0 ∨ cmd.toNat / 4 % 4 = 3 ∨ (cmd.toNat / 64 ≠ 2 ∧ cmd.toNat / 16 % 4 = 3)) ∧
      (spx { frame := 1 }).spx1.frame ≠ 0 ∧ (0x40 : Byte).toNat / 64 ≠ 0 ∧ (0x80 : Byte).toNat / 64 ≠ 1 ∧ (0x00 : Byte).toNat / 64 < 2 ∧
      (flds [(F.SPX1_CFG_BUSY_PAT, 0xA5)] live).fld F.SPX1_CFG_BUSY_PAT = 0xA5 ∧ 0x402 % 4 ≠ 0 ∧
      0x40FFFC < 2 ^ 24 ∧ 0x40FFFC % 0x10000 = 0xFFFC ∧
      (let a := csAddr 0 0
       (∀ i : Fin 2, isWindow (a + 4 * i) = true ∧ 0x5E000 ≤ a + 4 * i) ∧ a / 0x10000 = (a + 4 * 2) / 0x10000) ∧
      (∀ n : Fin 2, let s := spx { queue := List.replicate (63 + n) (0, 0) }
       (s.spx1.queue.length + 1 ≤ 64 ↔ n = 0) ∧ (64 ≤ s.spx1.queue.length ↔ n = 1) ∧ (s.spx1.queue.length < 64 ↔ n = 0)) ∧
      (0x402 % 2 ^ 24 / 4 * 4 + 4 * 2 - 1) / 0x10000 = 0x402 % 2 ^ 24 / 0x10000 ∧
      (let w (m : Master) : State := { spx { queue := [(0x47C, 0xFFFF0001)] } with pwr := { stalled := [⟨m, true, 0x400, 0, 0xF, 0⟩] } }
       let s := w .pcie
       s.pwr.stalled.any (fun (y : Stalled) => y.master = Master.spx1) = false ∧ s.spx1.queue = [(0x47C, 0xFFFF0001)] ∧
        (w .spx1).pwr.stalled.any (fun (y : Stalled) => y.master = Master.spx1) = true) ∧
      (rowOf 0x47C).isSome = true ∧ live.spx1.queue = [] ∧
      (spx { late := true }).spx1.late = true ∧
      (∀ k ∈ [0, 1, 2, 3, 4], (spx { frame := k }).spx1.frame = k ∧ (spx { frame := k }).spx1.late = false ∧
        (spx { frame := k }).spxOut 31 = false) ∧ (31 : Fin 33).val < 32 ∧ ¬(32 : Fin 33).val < 32 ∧ (32 : Fin 33).val % 32 = 0 := by
  decide +kernel

/-- A request without clock, during a transition, for the state in force, out of a state and refused; every entry's and
exit's end with its conditions met and not; the Shank's timer at its time and before, disabled and already done. -/
theorem test_meets_PowerStates_edges :
    (¬(flds [(F.CLK_STAT_HOLD, 1)] live).Runs R.PWR_REQ) ∧ (exiting 2).inTransit = true ∧
      (∀ p : Fin 5, let s := flds [(F.PWR_STAT_STATE, p), (readyFld 3, 1)] live
       s.pstate = p ∧ s.inTransit = false ∧ s.powerOk 4 = (p != 4)) ∧
      (flds [(F.PWR_PPM_EN 63, 1)] live).powerOk 3 = true ∧ (flds [(F.PWR_STAT_STATE, 2)] live).powerOk 0 = false ∧
      (flds [(F.PWR_STAT_STATE, 1)] live).powerOk 0 = true ∧
      live.bit F.PWR_STAT_ENTERING = false ∧ { entering 2 0 with pwr := { target := 2, vidSince := some 64000 } }.vidSettled = false ∧
      (entering 2 0).pwr.wakeLatch = 0 ∧
      (let s := flds [(F.CHIP_BOOT_STAT_STEP, 5)] (exiting 4)
       s.pstate = 4 ∧ s.fld F.CHIP_BOOT_STAT_STEP ≠ 13) ∧
      (let s := flds [(F.CLK_STAT_PLL_LOCK, 0)] (exiting 2)
       s.pstate ≠ 4 ∧ s.bit F.CLK_STAT_PLL_LOCK = false) ∧
      (exiting 2).bit F.CLK_STAT_PLL_LOCK = true ∧ (exiting 2).bit F.CLK_STAT_IPLL_LOCK = true ∧
      (exiting 2).bit F.LACE_CTRL_RING_EN = true ∧
      { live with thm := { napLock := true } }.thm.napLock = true ∧ wakeEnds 6 0 = false ∧
      (∀ n : Fin 2, let s : State := { flds [(F.PWR_STAT_STATE, 3), (F.PWR_SHANK_TMR_SEC, 1)] live with now := 640000000 - n }
       2 ≤ s.pstate ∧ s.bit F.PWR_STAT_ENTERING = false ∧
        (s.now < s.pwr.entered + s.fld F.PWR_SHANK_TMR_SEC * 640000000 ↔ n = 1)) ∧
      live.fld F.PWR_SHANK_TMR_SEC = 0 ∧ { live with pwr := { tmrDone := true } }.pwr.tmrDone = true := by
  refine ⟨fun h => absurd h.clocked (by decide +kernel), by decide +kernel, by decide +kernel, by decide +kernel, by decide +kernel,
    by decide +kernel, by decide +kernel, by decide +kernel, by decide +kernel, by decide +kernel, by decide +kernel,
    by decide +kernel, by decide +kernel, by decide +kernel, by decide +kernel, by decide +kernel, by decide +kernel,
    by decide +kernel, by decide +kernel⟩

/-- Quarters that wait for their bias, in time, before and for a VID ramp; one that settles with a START and one that does
not settle; a patrol with every kind of entry, a cycle too long and one in time, a code outside its limits as the last
failure that counts and as one before, one at its limit; a supply lost in a ramp; a ramp too long and not yet. -/
theorem test_meets_PowerAndTemperature_edges :
    (¬(flds [(F.CLK_STAT_HOLD, 1)] live).Runs R.PWR_QOFF) ∧ (¬(flds [(F.CLK_STAT_HOLD, 1)] live).Runs R.PWR_QON) ∧
      (¬(flds [(F.CLK_STAT_HOLD, 1)] live).Runs R.PWR_PAD_HOLD) ∧
      (∀ n : Fin 2, let s : State := { live with now := 115200, pwr := { waking := [(15, some n.val), (14, none)] } }
       (s.pwr.waking.find? fun e => e.1 = 15) = some (15, some n.val) ∧ (s.pwr.waking.find? fun e => e.1 = 14) = some (14, none) ∧
        (s.pwr.waking.find? fun e => e.1 = 13) = none ∧ s.pwr.stalled = [] ∧ (s.now < n.val + 115200 ↔ n = 1)) ∧
      (let s := ({ live with pwr := { pendStart := [15] } } : State).setReg R.PWR_QSETTLE 0x8000
       (s.reg R.PWR_QSETTLE).getLsbD 15 = true ∧ 15 ∈ s.pwr.pendStart ∧ (s.reg R.PWR_QSETTLE).getLsbD 14 = false) ∧
      (let s := flds [(F.PWR_STAT_STATE, 3), (F.PWR_PTS_EN 3, 1), (F.PWR_PTS_SENSOR 3, 17), (F.PWR_PSG_EN 15, 1),
        (F.PWR_PPM_EN 63, 1)] live
       s.pstate = 3 ∧ s.inTransit = false ∧ s.pwr.patrolNext ≤ s.now ∧ { s with pwr := { patrolNext := 64001 } }.now < 64001 ∧
        s.bit (F.PWR_PSG_EN 15) = true ∧ s.bit (F.PWR_PTS_EN 3) = true ∧ s.sensorBroken (min 16 (s.fld (F.PWR_PTS_SENSOR 3))) = false ∧
        (s.setReg R.THM_BROKEN_H 1).sensorBroken 16 = true ∧ s.patrolPeriod < s.patrolPeriod + 1) ∧
      (∀ n : Fin 2, let r : State := { live with pwr := { fails := [(16 + 3, 1 + n.val)] } }
       let s := flds [(F.PWR_PAT_CFG2_VIOL_N, 3), (F.PWR_PAT_THI_THI, 1600)] r
       (signed 16 (s.fld F.PWR_PAT_THI_THI) < 1601 ∧ ¬signed 16 (s.fld F.PWR_PAT_THI_THI) < 1600) ∧
        (max 1 (s.fld F.PWR_PAT_CFG2_VIOL_N) ≤ tabGet (fun _ => 0) s.pwr.fails (16 + 3) + 1 ↔ n = 1)) ∧
      (∀ n : Fin 2, let s : State := { live with now := 64000 * max 1 (live.fld F.PWR_VID_CFG_TMO) - n, pwr := { vidSince := some 0 } }
       s.pwr.vidSince.isSome = true ∧ (s.now < 0 + 64000 * max 1 (s.fld F.PWR_VID_CFG_TMO) ↔ n = 1) ∧ s.pstate ≠ 4) ∧
      (∀ n : Fin 2, let s : State := { flds [(F.PWR_PAD_HOLD_HOLD, 1), (F.PWR_STAT_BACKSTOP, n)] live with led := { passed := true } }
       s.bit F.PWR_PAD_HOLD_HOLD = true ∧ s.led.passed = true ∧ (s.bit F.PWR_STAT_BACKSTOP = true ↔ n = 1)) ∧
      (flds [(F.PWR_STAT_BACKSTOP, 1)] live).bit F.PWR_STAT_BACKSTOP = true ∧
      (∀ v ∈ [(-880 : Int), 1919, 1920, 2400], -880 ≤ v ∧ v ≤ 2400 ∧ (List.replicate 17 (some v)).getD 16 none = some v) ∧
      (live.setReg R.THM_BROKEN_L 0x8000).sensorBroken 15 = true := by
  refine ⟨fun h => absurd h.clocked (by decide +kernel), fun h => absurd h.clocked (by decide +kernel),
    fun h => absurd h.clocked (by decide +kernel), by decide +kernel, by decide +kernel, by decide +kernel, by decide +kernel,
    by decide +kernel, by decide +kernel, by decide +kernel, by decide +kernel, by decide +kernel⟩

/-- A quarter whose levels have settled. -/
theorem test_meets_PowerAndTemperature_settled : live.quarterSettled 15 = true := by decide +kernel

/-- An event that the window's count makes FATAL; a state at its recovery limit, an event that latches and one in the window
that has ended; a copy taken, in another MCLK cycle; RCLR of a latched part, an open state and one that ends now. -/
theorem test_meets_FaultCollector_edges :
    (let e := FaultEvent.mk 0x026 0 0 0 0 0 64000 false false
     let s := flds [(⟨sscfg 0x026, 8, 8⟩, 2), (⟨sscfg 0x026, 2, 2⟩, 2)] (caught e)
     nextEvent s.reported = some e ∧ max 1 (fieldOf (s.reg (sscfg 0x026)) 8 8) ≤ s.srcCount 0x026 + 1 ∧
      max e.cls (min 2 (fieldOf (s.reg (sscfg 0x026)) 2 2)) = 2 ∧
      ¬(s.srcCnt 0x026).wend / 2 < e.time / 2 ∧ (s.srcCnt 0x026).wend / 2 < 64002 / 2) ∧
      (let e := FaultEvent.mk 0x1F0 1 0 0 0 0 64000 false false
       let s := flds [(entRcnt (128 + 15), 15)] (caught e)
       (128 + 15 ∈ s.targets e) ∧ s.entOpen (128 + 15) = false ∧ s.recLimit (128 + 15) ≤ s.fld (entRcnt (128 + 15)) ∧
        { s with feHost := { valid := true, ev := some { e with time := 63998 } } }.feHost.ev = some { e with time := 63998 } ∧
        63998 / 2 ≠ 64000 / 2) ∧
      (flds [(F.FLT_CHIPST_LATCHED, 1)] live).faultLatched = true ∧ live.faultLatched = false ∧
      (∀ n : Fin 2, let s := (flds [(entFault 224, 1)] live).setEnt 224 { qend := 64000 + n }
       s.entOpen 224 = true ∧ (s.entDue 224 = false ↔ n = 1)) ∧
      (let s := live.setEnt 224 { qend := 64001 }
       s.entOpen 224 = false ∧ (s.ent 224).qend ≠ 0 ∧ (s.ent 224).qend / 2 = s.now / 2) ∧
      (flds [(F.FLT_CTRL_SCRUB_EN, 0)] live).bit F.FLT_CTRL_SCRUB_EN = false ∧
      (flds [(F.FLT_CTRL_FE_CORR, 1)] live).bit F.FLT_CTRL_FE_CORR = true ∧
      Master.qseq 0 ∉ [Master.pcie, Master.spx1] ∧ live.feHost.valid = false := by decide +kernel

theorem test_meets_FaultCollector_reader : live.Serves (.qseq 0) R.FLT_FE_SRC := serves_of (by decide +kernel)

/-- Every step of the boot whose condition is met and not: the flash step with an image in HBM that cannot be read, a blank
one, a header that does not check, one whose directory does not; a header that authenticates as unsigned; too little HBM; a
load that came from no image; the ring of a master and a member; pads kept and released; a START that waits. -/
theorem test_meets_BootSequence_steps :
    (booting 1 {}).srcReady 3 = false ∧ (flds [(readyFld 3, 1)] (booting 1 {})).srcReady 3 = true ∧
      (flds [(readyFld 1, 0)] (booting 2 {})).srcReady 1 = false ∧ (booting 2 {}).clk.xoOn = true ∧
      (flds [(readyFld 0, 0)] (booting 3 {})).srcReady 0 = false ∧
      (booting 4 {}).bit F.CLK_STAT_PLL_LOCK = true ∧ (booting 4 {}).bit F.CLK_STAT_IPLL_LOCK = true ∧
      (flds [(F.CLK_STAT_PLL_LOCK, 0)] (booting 4 {})).bit F.CLK_STAT_PLL_LOCK = false ∧
      (booting 5 { fromHbm := true }).boot.fromHbm = true ∧ (booting 5 { fromHbm := true }).bootStep = 5 ∧
      (booting 8 {}).bit F.MEM_ID_TRAINED = false ∧ (booting 8 { fromHbm := true }).boot.header = [] ∧
      (let s := flds [(F.MEM_ID_TRAINED, 1)] (booting 8 { header := List.replicate 14 0 ++ [3] })
       s.bit F.MEM_ID_TRAINED = true ∧ s.boot.header ≠ [] ∧ s.installed < s.bootHdr 0xE 1) ∧
      (booting 10 {}).laceMaster = false ∧ (booting 10 {}).laceJoined = false ∧
      (flds [(F.LACE_STAT_STATE, 3)] (booting 10 { shankExit := true })).laceJoined = true ∧
      (let s : State := { booting 10 { surveys := 8 } with straps := 0x800 }
       s.laceMaster = true ∧ s.lace.surveying = false ∧ s.lace.surveyReq = false ∧ 8 ≤ s.boot.surveys) ∧
      (booting 11 {}).chipFault = false ∧ (flds [(F.FLT_CHIPST_FATAL, 1)] (booting 11 {})).chipFault = true ∧
      (flds [(F.PWR_PAD_HOLD_HOLD, 1)] (booting 11 {})).bit F.PWR_PAD_HOLD_HOLD = true ∧ (booting 11 {}).led.passed = false ∧
      { booting 11 {} with led := { passed := true } }.led.passed = true ∧ (booting 11 {}).bit F.PWR_STAT_BACKSTOP = false ∧
      (booting 11 {}).bit F.LACE_CTRL_RING_EN = true ∧
      (let s := flds [(F.QSEQ_STAT_STATE 15, 10)] (booting 12 {})
       s.qstate 15 = 10 ∧ (s.q 15).startDue = none) ∧
      (∀ n : Fin 2, let s : State := { booting 3 { since := 0 } with now := (((booting 3 {}).budget).getD 0) + n }
       s.budget.isSome = true ∧ (s.now ≤ s.boot.since + s.budget.getD 0 ↔ n = 0)) ∧
      (booting 12 {}).budget = none ∧
      ({ joined true { } with boot := { up := true, running := true, startAt := some 64000 } }).lace.detaching = false := by
  decide +kernel

/-- A header whose one section, of this type, starts at 4,096 or (`off` 0) in the header. -/
def header (type off : Nat) : List Byte :=
  let l : List (Nat × Byte) := [(0, 0x4C), (1, 0x41), (2, 0x53), (3, 0x54), (4, 1), (6, 1), (9, 0x10), (0x44, 1),
    (0x100, BitVec.ofNat 8 type), (0x109, BitVec.ofNat 8 (off / 256))]
  (List.range 4096).map fun i => (l.lookup i).getD 0

/-- A header that does not check, one with a section in the header, one without a ledger and one with it; a section that does
not hash as its entry says; a section of an image in HBM that cannot be read. -/
theorem test_meets_BootSequence_headers :
    headerOk (1 :: (header 6 4096).tail) = false ∧ headerOk (header 6 4096) = true ∧
      (illFormed (2 ^ 34) none (header 6 0)).isSome = true ∧ illFormed (2 ^ 34) none (header 6 4096) = none ∧
      ((sections (header 6 4096)).filter fun x => x.type = 6).length = 1 ∧
      ((sections (header 1 4096)).filter fun x => x.type = 6).length ≠ 1 ∧
      (∀ b : Bool, (ueFail { ue := some 0 } (·.type ≤ 6)
        (booting 7 { fromHbm := b, header := header 6 4096 })).isSome = b) ∧
      (((sections (header 6 4096)).filter (·.type ≤ 6)).head?.map (·.hash)) = some 0 ∧ sha256 [] ≠ 0 := by decide +kernel

/-! ### Single commands beside the spec's words -/

def after (c : Instr) (s : State) : State :=
  match exec c s with
  | .next t => t
  | _ => s

/-- The catalogue's check string for the CRC of records (R212 names CRC-32C). -/
theorem test_crc32c : crc32c [0x31, 0x32, 0x33, 0x34, 0x35, 0x36, 0x37, 0x38, 0x39] = 0xE3069283 := by decide +kernel

/-- R33, R34: the high half of a write is its mask. -/
theorem test_masked_write : (after (.registerWrite .pcie 0x404 0xF 0x00FF1234) live).reg 0x404 = 0x0034 := by decide +kernel

/-- R33: a write of two bytes changes nothing and is source 0x000. -/
theorem test_partial_write :
    let t := after (.registerWrite .spx1 0x404 0x3 0x00FF1234) live
    t.reg 0x404 = 0 ∧ t.reported.map (fun e => (e.src, e.addr)) = [(0x000, 0x404)] := by decide +kernel

/-- R36: the host's read clears the host's copy, not SPX1's. -/
theorem test_read_clears_one_copy :
    let t := after (.readClear .pcie 0x10) State.reset
    t.reads = [0x10] ∧ t.rcHost 0x10 = 0 ∧ t.rcSpx1 0x10 = 0x10 := by decide +kernel

/-- R52: an unmask with nothing pending sends nothing. -/
theorem test_unmask : (after (.msixVectorUnmask (some 5)) live).msgs = [] ∧
    ((after (.msixVectorUnmask (some 5)) live).winGet (0x48000 + 16 * 5 + 12)) = 0 := by decide +kernel

/-- R60, R62: NEXT at address 1 selects 2, JMP its target 9. -/
theorem test_next : ((after (.next 15) (atWord 1 0 0 0)).successor 15).map (·.addr) = some 2 := by decide +kernel
theorem test_jmp : ((after (.jmp 15) (atWord 2 0 0 0)).successor 15).map (·.addr) = some 9 := by decide +kernel

/-- R65: LAST with one pass left jumps, NOT_LAST with one pass left goes on. -/
theorem test_jcond_last :
    ((after (.jcond 15) (withLoops [(4, 1)] (atWord 3 3 0 0))).successor 15).map (·.addr) = some 9 ∧
      ((after (.jcond 15) (withLoops [(4, 1)] (atWord 3 4 0 0))).successor 15).map (·.addr) = some 2 := by decide +kernel

/-- R68: the eighth return address still fits, the ninth is CALL_OVF. -/
theorem test_call_depth :
    ((after (.call 15) (withCalls 7 (atWord 4 0 0 0))).q 15).callStack.length = 8 ∧
      (after (.call 15) (withCalls 8 (atWord 4 0 0 0))).reported.map (·.src) = [0x1F0] := by decide +kernel

/-- R69: the last pass drops the frame and goes on. -/
theorem test_loope_last :
    ((after (.loope 15) (withLoops [(9, 1)] (atWord 7 0 0 0))).q 15).loopStack = [] ∧
      ((after (.loope 15) (withLoops [(9, 1)] (atWord 7 0 0 0))).successor 15).map (·.addr) = some 2 := by decide +kernel

/-- R71: WAITTRG at its welt with no latch stalls in WAIT_TRG. -/
theorem test_welt_stall : (after (.welt 15) (running 15 (ended 8 none) live)).qstate 15 = 2 := by decide +kernel

/-- R70: HALT. -/
theorem test_welt_halt : (after (.welt 15) (running 15 (ended 0x10 none) live)).qstate 15 = 8 := by decide +kernel

/-- R80: DISABLE of a quarter with nothing in flight parks it. -/
theorem test_disable : (after (.qseqDisable .pcie 15) live).qstate 15 = 9 := by decide +kernel

/-- R64: FLAG_SET under its mask. -/
theorem test_flag_set : (after (.flagSet .pcie 15 0x0F0F 0x00FF) live).reg (R.QSEQ_FLAG 15) = 0x000F := by decide +kernel

/-- R55: refused outside IDLE, HALTED and PARKED. -/
theorem test_store_write_refused :
    (after (.controlStoreWrite .pcie 15 9 0 0xF 1) (atWord 1 0 0 0)).reported.map (·.src) = [0x1F1] := by decide +kernel

/-- R56: a flipped bit of a word is put right. -/
theorem test_one_flipped_bit : checkMicro (word 1 0 16 0 0 0 ^^^ (1 <<< 190)) = some (word 1 0 16 0 0 0, true) := by
  decide +kernel

/-- R105: an RDY write under its mask. -/
theorem test_rdy : (after (.memRdyWrite .pcie 2047 0x8001 0xFFFF) live).reg (R.MEM_RDY 2047) = 0x8001 := by decide +kernel

/-- R136: a level steps by STEP, here 4,096 (STEP 0), toward its target. -/
theorem test_level_step :
    let s := flds [(F.CH_LVL_TGT_TGT 0 0, 0x8000), (F.CH_LVL_OUT_OUT 0 0, 0), (F.CH_LVL_STEP_STEP 0 0, 0)] live
    (after (.dclkEdge 0 [] 0 false 0) s).fld (F.CH_LVL_OUT_OUT 0 0) = 4096 := by decide +kernel

/-- R168, R172: a current above ICRIT, and below IHI, drops the gate whatever ACT says. -/
theorem test_icrit :
    let s := (flds [(F.SG_CTRL_EN 0, 1), (F.SG_CTRL_GATE_ON 0, 1)] live).setSg 0 { gate := true }
    ((after (.sgTrip 0 (0, 2 ^ 23 - 256)) s).sg 0).gate = false ∧ (after (.sgTrip 0 (0, 2 ^ 23 - 256)) s).fld (F.SG_TRIP_TRIP 0) = 0x10 := by
  decide +kernel

/-- R233: a stop 3 PCLK and 5 LSB after the start. -/
theorem test_tdc_stop :
    let s := tdcOn 2 { start := some ((63997 * 2048 : Nat) : Int), last := ((63997 * 2048 : Nat) : Int) }
    ((after (.tdcStopEvent 63 5) s).tdc 63).stops = [6149] := by decide +kernel

/-- R255: two HOLD keys count two. -/
theorem test_lace_keys :
    (after .laceHoldEffect (event 4 { live with lace := { keys := [32] } })).fld F.LACE_HOLD_STAT_KEYS = 2 := by decide +kernel

/-- R275: TX_AVAIL stops at 512. -/
theorem test_tx_add :
    let s := after (.peTxAdd .pcie 3 500) live
    fieldOf (portReg s 3 0x18) 0 10 = 500 ∧ fieldOf (portReg (after (.peTxAdd .pcie 3 500) s) 3 0x18) 0 10 = 512 := by
  decide +kernel

/-- R281: an unaligned write is queued at the aligned address. -/
theorem test_spx_write : (after (.spx1Write 0x40 0x402 [7]) live).spx1.queue = [(0x400, 7)] := by decide +kernel

/-- R330: HOLD from RUN turns the quarters off on the way. -/
theorem test_hold_request :
    let t := after .powerReqHold live
    t.bit F.PWR_STAT_ENTERING = true ∧ t.reg R.PWR_QMASK = 0 ∧ t.pstate = 0 := by decide +kernel

/-- R362: the safe-state request is an event of source 0x003. -/
theorem test_safe_request : (after (.safeReq .pcie) live).reported.map (·.src) = [3] := by decide +kernel

/-- R406: the part number of IDCODE is 0x1024. -/
theorem test_idcode (s : State) : (after .tapIdcode s).tapReg = .idcode idcode ∧ idcode.toNat % 2 ^ 12 = 0x54F ∧
    idcode.toNat / 2 ^ 12 % 2 ^ 16 = 0x1024 := by
  refine ⟨rfl, ?_⟩
  have h : idcode.toNat = Config.dieRev.toNat % 16 * 2 ^ 28 + 0x1024 * 2 ^ 12 + 0x2A7 * 2 + 1 :=
    (BitVec.toNat_ofNat _ _).trans (Nat.mod_eq_of_lt (by omega))
  rw [h]
  omega

end Sys2Proof.Tests
end

section
/-! The family of the scope: the state after power-on, and an idle step. -/

namespace Sys2Proof.Machine

/-! ### What power-on leaves -/

/-- With no copy upset and nothing written, the vote of R39 is the reset column. -/
@[simp] theorem reset_reg (a : Nat) : State.reset.reg a = regReset a := by
  simp [State.reg, State.reset]

theorem reset_rcHost (a : Nat) : State.reset.rcHost a = if 0x10 = a then 0x10 else 0 := rfl

theorem reset_rcSpx1 (a : Nat) : State.reset.rcSpx1 a = if 0x10 = a then 0x10 else 0 := rfl

/-- Every quarter starts in IDLE. -/
theorem reset_qstate (q : Fin 16) : State.reset.qstate q = 0 := by
  have column : ∀ q : Fin 16, fieldOf (regReset (R.QSEQ_STAT q)) 0 4 = 0 := by decide
  rw [State.qstate, State.fld, reset_reg]
  exact column q

/-- A table whose only entry differs from what it reads as unlisted is canonical. -/
theorem tabWf_singleton {α : Type} [DecidableEq α] (d : Nat → α) (e : Nat × α) (h : e.2 ≠ d e.1) :
    tabWf d [e] = true :=
  (tabWf_cons d e []).2 ⟨h, fun _ hx => absurd hx List.not_mem_nil, rfl⟩

/-- Every table is empty but the two copies of RST_CAUSE. -/
theorem reset_sound : State.reset.Sound where
  hbm := rfl
  win := rfl
  regs := rfl
  copyB := rfl
  copyC := rfl
  hostRc := tabWf_singleton _ _ (by decide)
  spx1Rc := tabWf_singleton _ _ (by decide)
  holdH := rfl
  holdS := rfl
  posted := rfl
  handed := rfl
  evcs := rfl
  txns := rfl
  srcs := rfl
  ents := rfl
  qs := rfl
  qm := rfl
  qr := rfl
  chans := rfl
  pmus := rfl
  adcs := rfl
  adcAt := rfl
  sgs := rfl
  rings := rfl
  tdcs := rfl
  dlls := rfl
  ports := rfl
  calch := rfl
  installed := .inr rfl

/-- Settles O4: the tables are empty or hold RST_CAUSE alone. -/
theorem resetIsSound : Obligations.ResetIsSound :=
  ⟨reset_sound, rfl, rfl, rfl⟩

/-- Settles O6, from the reset column of each register named and the empty tables. -/
theorem resetValues : Obligations.ResetValues := by
  refine ⟨reset_reg, rfl, rfl, fun a ha => ?_, ?_, reset_qstate, fun _ => rfl, rfl, fun _ => rfl, rfl⟩
  · rw [reset_rcHost, reset_rcSpx1, if_neg ha.symm]
    exact ⟨rfl, rfl⟩
  · rw [reset_reg]
    decide

/-! ### An idle step that restarts device time

R105 holds an RDY write behind BAR2 writes that wait for the memory pace, and R35 has the host's later accesses wait
behind it. The tick that begins the next span lets all of them go. A FULL reset among them starts device time anew. -/

/-- With no command waiting, a step is a tick. -/
theorem step_of_pending_nil {s : State} (h : s.pending = []) : step s = .next (tick s) := by
  rw [step, h]

/-- A part on its PLL with the link up, one PCLK before a span of the memory pace and with nothing left of this one. -/
def paceSpent : State :=
  (({ State.reset with boot := { up := true }, linkUp := true, now := 63, hostBudget := 0 }).setFld
    F.CLK_STAT_CORE_ACT 2).setFld F.CLK_STAT_PLL_LOCK 1

/-- `paceSpent` with what three host writes leave waiting: a byte for HBM, ready bit 0, a FULL reset. -/
def resetWaits : State :=
  { paceSpent with
    heldHost := [.hbm 0 [1], .rdy { addr := R.MEM_RDY 0, mask := 1, data := 1 }]
    pwr := { stalled := [
      { master := .pcie, write := true, addr := R.CHIP_RST, data := 0xFF045A04, be := 0xF, since := 63 }] } }

/-- The counterexample is no stray state: three commands of the host lead to it. -/
theorem run_resetWaits :
    Sys2Proof.core.run 3 { paceSpent with
      pending := [.bar2Write 0 [1], .memRdyWrite .pcie 0 1 1, .fullReset .pcie] } = .next resetWaits := by
  have writes : busReg .pcie R.CHIP_RST 0xFF04 0x5A04 (busReg .pcie (R.MEM_RDY 0) 1 1 (bar2Write 0 [1]
      { paceSpent with pending := [] })) = resetWaits := by decide +kernel
  rw [← writes]
  rfl

theorem resetWaits_clocks : resetWaits.noClock = false ∧ resetWaits.patternClock = true := by decide +kernel

theorem tick_resetWaits_now : (tick resetWaits).now = 0 := by decide +kernel

/-- Refutes O2: `resetWaits` stands at 63; its tick begins a span, lets the RDY write go, then serves the FULL reset
behind it, which leaves device time at 0 and not at 64. -/
theorem not_idleStep : ¬ Obligations.IdleStep := by
  intro h
  obtain ⟨clocked, pattern⟩ := resetWaits_clocks
  obtain ⟨t, hstep, hnow, -⟩ := (h resetWaits rfl).2 clocked
  rw [step_of_pending_nil rfl] at hstep
  injection hstep with ht
  rw [← ht, tick_resetWaits_now, if_pos pattern] at hnow
  exact absurd hnow (by decide)

end Sys2Proof.Machine
end

section
/-! The step and the queue: every command, and so every step, keeps the state sound. -/

namespace Sys2Proof.Machine

/-- Every command keeps the state sound and the commands behind it in the queue. -/
theorem exec_kept {Q : List Instr} {s t : State} (hs : s.Kept Q) : ∀ c : Instr, exec c s = .next t → t.Kept Q
  | .registerWrite .., h => execRegisterWrite_kept hs t h
  | .postedWriteDelivery .., h => execPostedWriteDelivery_kept hs t h
  | .readClear .., h => execReadClear_kept hs t h
  | .latchedRead .., h => execLatchedRead_kept hs t h
  | .evcCntLRead .., h => execEvcCntLRead_kept hs t h
  | .txnBegin .., h => execTxnBegin_kept hs t h
  | .txnCommit .., h => execTxnCommit_kept hs t h
  | .txnRollback .., h => execTxnRollback_kept hs t h
  | .txnCommitMoment .., h => execTxnCommitMoment_kept hs t h
  | .txnDeferredPostedApply .., h => execTxnDeferredPostedApply_kept hs t h
  | .evcClr .., h => execEvcClr_kept hs t h
  | .evcClearAll .., h => execEvcClearAll_kept hs t h
  | .evcSnapNow .., h => execEvcSnapNow_kept hs t h
  | .bar2Write .., h => execBar2Write_kept hs t h
  | .bar2Read .., h => execBar2Read_kept hs t h
  | .fabricAccessTimeout .., h => execFabricAccessTimeout_kept hs t h
  | .quarterWake .., h => execQuarterWake_kept hs t h
  | .quarterSettleEnd .., h => execQuarterSettleEnd_kept hs t h
  | .functionLevelReset, h => execFunctionLevelReset_kept hs t h
  | .linkDown, h => execLinkDown_kept hs t h
  | .linkUp .., h => execLinkUp_kept hs t h
  | .msixVectorUnmask .., h => execMsixVectorUnmask_kept hs t h
  | .controlStoreWrite .., h => execControlStoreWrite_kept hs t h
  | .controlStoreScrub .., h => execControlStoreScrub_kept hs t h
  | .next .., h => execNext_kept hs t h
  | .jmp .., h => execJmp_kept hs t h
  | .jcond .., h => execJcond_kept hs t h
  | .call .., h => execCall_kept hs t h
  | .ret .., h => execRet_kept hs t h
  | .loopb .., h => execLoopb_kept hs t h
  | .loope .., h => execLoope_kept hs t h
  | .waittrg .., h => execWaittrg_kept hs t h
  | .waitmark .., h => execWaitmark_kept hs t h
  | .sync .., h => execSync_kept hs t h
  | .commit .., h => execCommit_kept hs t h
  | .pxfer .., h => execPxfer_kept hs t h
  | .tarm .., h => execTarm_kept hs t h
  | .calwin .., h => execCalwin_kept hs t h
  | .hold .., h => execHold_kept hs t h
  | .halt .., h => execHalt_kept hs t h
  | .welt .., h => execWelt_kept hs t h
  | .exitDecisionPoint .., h => execExitDecisionPoint_kept hs t h
  | .stallExit .., h => execStallExit_kept hs t h
  | .waitTimeout .., h => execWaitTimeout_kept hs t h
  | .refillJobIssue .., h => execRefillJobIssue_kept hs t h
  | .refillHoldExit .., h => execRefillHoldExit_kept hs t h
  | .qseqStart .., h => execQseqStart_kept hs t h
  | .qseqStop .., h => execQseqStop_kept hs t h
  | .qseqDisable .., h => execQseqDisable_kept hs t h
  | .qseqRelease .., h => execQseqRelease_kept hs t h
  | .qseqLatchReset .., h => execQseqLatchReset_kept hs t h
  | .qseqCntClr .., h => execQseqCntClr_kept hs t h
  | .startMoment .., h => execStartMoment_kept hs t h
  | .flagSet .., h => execFlagSet_kept hs t h
  | .flagClr .., h => execFlagClr_kept hs t h
  | .triggerLatchSet .., h => execTriggerLatchSet_kept hs t h
  | .granuleBoundary .., h => execGranuleBoundary_kept hs t h
  | .hbmReadComplete .., h => execHbmReadComplete_kept hs t h
  | .headBuild .., h => execHeadBuild_kept hs t h
  | .headBuildComplete .., h => execHeadBuildComplete_kept hs t h
  | .memRdyWrite .., h => execMemRdyWrite_kept hs t h
  | .winWrite .., h => execWinWrite_kept hs t h
  | .hbmScrub .., h => execHbmScrub_kept hs t h
  | .hbmTrainingComplete .., h => execHbmTrainingComplete_kept hs t h
  | .timingSetWrite .., h => execTimingSetWrite_kept hs t h
  | .ftwHWrite .., h => execFtwHWrite_kept hs t h
  | .dclkEdge .., h => execDclkEdge_kept hs t h
  | .ovdTrip .., h => execOvdTrip_kept hs t h
  | .discEnd .., h => execDiscEnd_kept hs t h
  | .protReconnect .., h => execProtReconnect_kept hs t h
  | .stageChangeComplete .., h => execStageChangeComplete_kept hs t h
  | .drvCtrlWrite .., h => execDrvCtrlWrite_kept hs t h
  | .lqPush .., h => execLqPush_kept hs t h
  | .lqClr .., h => execLqClr_kept hs t h
  | .lqSample .., h => execLqSample_kept hs t h
  | .pmuMeasStart .., h => execPmuMeasStart_kept hs t h
  | .pmuMeasStop .., h => execPmuMeasStop_kept hs t h
  | .pmuRangeChangeStep .., h => execPmuRangeChangeStep_kept hs t h
  | .pmuAdcSlot .., h => execPmuAdcSlot_kept hs t h
  | .pmuIntervalEnd .., h => execPmuIntervalEnd_kept hs t h
  | .sgTrip .., h => execSgTrip_kept hs t h
  | .sgBlankExpiry .., h => execSgBlankExpiry_kept hs t h
  | .sgGonBlankEnd .., h => execSgGonBlankEnd_kept hs t h
  | .sgTripClr .., h => execSgTripClr_kept hs t h
  | .sgPeriodEnd .., h => execSgPeriodEnd_kept hs t h
  | .ledgerCheck .., h => execLedgerCheck_kept hs t h
  | .ledgerWindowEnd, h => execLedgerWindowEnd_kept hs t h
  | .ledgerSensorResult .., h => execLedgerSensorResult_kept hs t h
  | .maintenanceGrant, h => execMaintenanceGrant_kept hs t h
  | .recordWriteSlot .., h => execRecordWriteSlot_kept hs t h
  | .ringEnable .., h => execRingEnable_kept hs t h
  | .ringDisable .., h => execRingDisable_kept hs t h
  | .ringParamUpdate .., h => execRingParamUpdate_kept hs t h
  | .ringPumpGrant .., h => execRingPumpGrant_kept hs t h
  | .ringConsPoll .., h => execRingConsPoll_kept hs t h
  | .ringCoalesceTimeout .., h => execRingCoalesceTimeout_kept hs t h
  | .dmaError .., h => execDmaError_kept hs t h
  | .tdcArm .., h => execTdcArm_kept hs t h
  | .tdcDisarm .., h => execTdcDisarm_kept hs t h
  | .tdcArmSource .., h => execTdcArmSource_kept hs t h
  | .tdcStartEvent .., h => execTdcStartEvent_kept hs t h
  | .tdcStopEvent .., h => execTdcStopEvent_kept hs t h
  | .tdcGateClose .., h => execTdcGateClose_kept hs t h
  | .tdcTimeout .., h => execTdcTimeout_kept hs t h
  | .tdcRangeLimit .., h => execTdcRangeLimit_kept hs t h
  | .tdcResultWrite .., h => execTdcResultWrite_kept hs t h
  | .dllLockLost .., h => execDllLockLost_kept hs t h
  | .tdcRelock .., h => execTdcRelock_kept hs t h
  | .dllRelockComplete .., h => execDllRelockComplete_kept hs t h
  | .xoPullStep, h => execXoPullStep_kept hs t h
  | .laceFrameStart, h => execLaceFrameStart_kept hs t h
  | .laceFrameReceive .., h => execLaceFrameReceive_kept hs t h
  | .laceTrigEffect, h => execLaceTrigEffect_kept hs t h
  | .laceMarkEffect, h => execLaceMarkEffect_kept hs t h
  | .laceStartEffect, h => execLaceStartEffect_kept hs t h
  | .laceHoldEffect, h => execLaceHoldEffect_kept hs t h
  | .laceReleaseEffect, h => execLaceReleaseEffect_kept hs t h
  | .laceEpochEffect, h => execLaceEpochEffect_kept hs t h
  | .laceSendGo .., h => execLaceSendGo_kept hs t h
  | .laceStartSend .., h => execLaceStartSend_kept hs t h
  | .laceEpochNow .., h => execLaceEpochNow_kept hs t h
  | .laceEpochDue, h => execLaceEpochDue_kept hs t h
  | .laceSurvey .., h => execLaceSurvey_kept hs t h
  | .laceSurveyComplete .., h => execLaceSurveyComplete_kept hs t h
  | .surveyBorrowTimeout, h => execSurveyBorrowTimeout_kept hs t h
  | .laceDetach .., h => execLaceDetach_kept hs t h
  | .ringLost, h => execRingLost_kept hs t h
  | .peStart .., h => execPeStart_kept hs t h
  | .peSelectAssert .., h => execPeSelectAssert_kept hs t h
  | .peSelectRelease .., h => execPeSelectRelease_kept hs t h
  | .peIdleTimeout .., h => execPeIdleTimeout_kept hs t h
  | .peUnitEnd .., h => execPeUnitEnd_kept hs t h
  | .peDone .., h => execPeDone_kept hs t h
  | .peTxAdd .., h => execPeTxAdd_kept hs t h
  | .spx1Read .., h => execSpx1Read_kept hs t h
  | .spx1Write .., h => execSpx1Write_kept hs t h
  | .spx1Status .., h => execSpx1Status_kept hs t h
  | .spx1WriteApply, h => execSpx1WriteApply_kept hs t h
  | .spx1SelectRelease .., h => execSpx1SelectRelease_kept hs t h
  | .spx1IdleTimeout .., h => execSpx1IdleTimeout_kept hs t h
  | .nvmStore, h => execNvmStore_kept hs t h
  | .nvmStoreComplete .., h => execNvmStoreComplete_kept hs t h
  | .nvmLoad, h => execNvmLoad_kept hs t h
  | .nvmLoadComplete, h => execNvmLoadComplete_kept hs t h
  | .calSlotEnd .., h => execCalSlotEnd_kept hs t h
  | .calAgeLimit .., h => execCalAgeLimit_kept hs t h
  | .calSessionRequest .., h => execCalSessionRequest_kept hs t h
  | .xoStartDelayEnd, h => execXoStartDelayEnd_kept hs t h
  | .clockSourceReady .., h => execClockSourceReady_kept hs t h
  | .clockMonitorTrip .., h => execClockMonitorTrip_kept hs t h
  | .clockHoldExit, h => execClockHoldExit_kept hs t h
  | .clockHoldTimeout, h => execClockHoldTimeout_kept hs t h
  | .rcoTrimStep .., h => execRcoTrimStep_kept hs t h
  | .pllLock, h => execPllLock_kept hs t h
  | .interfacePllLock, h => execInterfacePllLock_kept hs t h
  | .clkSrcWrite .., h => execClkSrcWrite_kept hs t h
  | .pllRefSwitchComplete, h => execPllRefSwitchComplete_kept hs t h
  | .powerReqRun, h => execPowerReqRun_kept hs t h
  | .powerReqHold, h => execPowerReqHold_kept hs t h
  | .powerReqNap, h => execPowerReqNap_kept hs t h
  | .powerReqPatrol, h => execPowerReqPatrol_kept hs t h
  | .powerReqShank, h => execPowerReqShank_kept hs t h
  | .powerEntryComplete, h => execPowerEntryComplete_kept hs t h
  | .powerExitComplete, h => execPowerExitComplete_kept hs t h
  | .wakeEvent .., h => execWakeEvent_kept hs t h
  | .shankTimerExpiry, h => execShankTimerExpiry_kept hs t h
  | .qoff .., h => execQoff_kept hs t h
  | .qon .., h => execQon_kept hs t h
  | .patrolCycle .., h => execPatrolCycle_kept hs t h
  | .pgoodLost, h => execPgoodLost_kept hs t h
  | .vidTimeout, h => execVidTimeout_kept hs t h
  | .padHoldRelease, h => execPadHoldRelease_kept hs t h
  | .thmReading .., h => execThmReading_kept hs t h
  | .brokenClr .., h => execBrokenClr_kept hs t h
  | .backstopTrip, h => execBackstopTrip_kept hs t h
  | .supplyDipReset, h => execSupplyDipReset_kept hs t h
  | .faultEvent, h => execFaultEvent_kept hs t h
  | .faultWindowExpiry .., h => execFaultWindowExpiry_kept hs t h
  | .faultQuietExpiry .., h => execFaultQuietExpiry_kept hs t h
  | .faultRclr .., h => execFaultRclr_kept hs t h
  | .safeReq .., h => execSafeReq_kept hs t h
  | .votedFieldScrub .., h => execVotedFieldScrub_kept hs t h
  | .feSrcRead .., h => execFeSrcRead_kept hs t h
  | .powerOnReset .., h => execPowerOnReset_kept hs t h
  | .resetN .., h => execResetN_kept hs t h
  | .perstN, h => execPerstN_kept hs t h
  | .warmReset .., h => execWarmReset_kept hs t h
  | .coldReset .., h => execColdReset_kept hs t h
  | .fullReset .., h => execFullReset_kept hs t h
  | .bootGo .., h => execBootGo_kept hs t h
  | .bootHdataHWrite .., h => execBootHdataHWrite_kept hs t h
  | .bootStepOverBudget, h => execBootStepOverBudget_kept hs t h
  | .bootSurveyRetry, h => execBootSurveyRetry_kept hs t h
  | .bootStartSend, h => execBootStartSend_kept hs t h
  | .bootNoRing, h => execBootNoRing_kept hs t h
  | .tapBypass .., h => execTapBypass_kept hs t h
  | .tapIdcode, h => execTapIdcode_kept hs t h
  | .tapSamplePreload .., h => execTapSamplePreload_kept hs t h
  | .tapExtest, h => execTapExtest_kept hs t h
  | .tapHighz, h => execTapHighz_kept hs t h
  | .bootStepComplete .., h => execBootStepComplete_kept hs t h
  | .biasSettled .., h => execBiasSettled_kept hs t h
  | .votedFieldRead .., h => execVotedFieldRead_kept hs t h
  | .vsgLost, h => execVsgLost_kept hs t h

/-- Settles O1: the model's step, on a queue with a command in front. -/
theorem stepRunsFront : Obligations.StepRunsFront := by
  intro s c rest h
  rw [step, h]

/-- Taking commands off the queue leaves what `State.Sound` speaks of. -/
theorem State.Sound.kept {s : State} (hs : s.Sound) (Q : List Instr) : State.Kept Q { s with pending := Q } :=
  { hs with pending := rfl }

/-- Settles O3: a step is a tick or a command, and each keeps every table canonical. -/
theorem everyStepKeepsSound : Obligations.EveryStepKeepsSound := by
  intro s t hs ht
  cases hq : s.pending with
  | nil =>
    rw [step_of_pending_nil hq] at ht
    cases ht
    exact (tick_kept { hs with pending := hq }).toSound
  | cons c rest =>
    rw [stepRunsFront s c rest hq] at ht
    exact (exec_kept (hs.kept rest) c ht).toSound

/-- Settles O5: the command runs on the rest of the queue, and no meaning writes the queue. -/
theorem queueFirstInFirstOut : Obligations.QueueFirstInFirstOut := by
  intro s t c rest hs hq ht
  rw [stepRunsFront s c rest hq] at ht
  exact (exec_kept (hs.kept rest) c ht).pending

end Sys2Proof.Machine
end

section
/-! Events and votes: RC fields in both copies (R36), event counters (R45), the three copies of a register (R39). -/

namespace Sys2Proof.Machine

/-! ### RC fields only grow

Raising an event may send messages, which are counted, and a counter that wraps raises a flag in its turn. On all
these paths RC bits are set and none is cleared. -/

/-- Every RC bit set in `s` is set in `t`, in both readers' copies. -/
def State.rcGrows (s t : State) : Prop :=
  ∀ a, s.rcHost a &&& t.rcHost a = s.rcHost a ∧ s.rcSpx1 a &&& t.rcSpx1 a = s.rcSpx1 a

theorem State.rcGrows_refl (s : State) : s.rcGrows s := fun _ => ⟨BitVec.and_self, BitVec.and_self⟩

theorem State.rcGrows_of_eq {s t : State} (hh : t.hostRc = s.hostRc) (hs : t.spx1Rc = s.spx1Rc) : s.rcGrows t := by
  intro a
  simp only [State.rcHost, State.rcSpx1, hh, hs, BitVec.and_self, and_self]

/-- A mask inside one that is contained in `z`. -/
theorem and_eq_of_and_eq {x y z : Word} (h1 : x &&& y = x) (h2 : y &&& z = y) : x &&& z = x := by
  rw [← h1, BitVec.and_assoc, h2]

theorem State.rcGrows_trans {s t u : State} (h1 : s.rcGrows t) (h2 : t.rcGrows u) : s.rcGrows u :=
  fun a => ⟨and_eq_of_and_eq (h1 a).1 (h2 a).1, and_eq_of_and_eq (h1 a).2 (h2 a).2⟩

theorem and_or_self (x m : Word) : x &&& (x ||| m) = x := by
  apply BitVec.eq_of_getLsbD_eq
  intro i _
  simp only [BitVec.getLsbD_and, BitVec.getLsbD_or]
  cases x.getLsbD i <;> rfl

theorem or_and_right_self (x m : Word) : (x ||| m) &&& m = m := by
  rw [BitVec.and_comm, BitVec.or_comm]
  exact and_or_self m x

theorem setRc_rcGrows (s : State) (a : Nat) (m : Word) : s.rcGrows (s.setRc a m) := by
  intro b
  rw [State.rcHost_setRc, State.rcSpx1_setRc]
  by_cases h : b = a
  · subst h
    simp only [if_pos, and_or_self, and_self]
  · simp only [if_neg h, BitVec.and_self, and_self]

theorem addCount_rcGrows (n i : Nat) (s : State) : s.rcGrows (addCount n i s) := by
  delta addCount
  extract_lets e t
  have ht : s.rcGrows t := State.rcGrows_of_eq rfl rfl
  split
  · exact State.rcGrows_trans ht (setRc_rcGrows _ _ _)
  · exact ht

theorem foldl_rcGrows {β : Type} (f : State → β → State) (hf : ∀ (s : State) x, s.rcGrows (f s x)) (l : List β) (s : State) :
    s.rcGrows (l.foldl f s) := by
  induction l generalizing s with
  | nil => exact s.rcGrows_refl
  | cons a l ih => exact State.rcGrows_trans (hf _ _) (ih _)

theorem countRaw_rcGrows (s : State) (src n : Nat) : s.rcGrows (s.countRaw src n) :=
  foldl_rcGrows _ (fun s i => addCount_rcGrows n i s) _ s

theorem sendRaw_rcGrows (s : State) (w : Nat) : s.rcGrows (s.sendRaw w) := by
  delta State.sendRaw
  split
  · exact s.rcGrows_refl
  · split
    · exact State.rcGrows_of_eq rfl rfl
    · have hm : s.rcGrows { s with msgs := s.msgs ++ [w] } := State.rcGrows_of_eq rfl rfl
      exact State.rcGrows_trans (State.rcGrows_trans hm (countRaw_rcGrows _ _ _)) (countRaw_rcGrows _ _ _)

theorem sendMsix_rcGrows (s : State) (w : Nat) : s.rcGrows (s.sendMsix w) := by
  delta State.sendMsix
  extract_lets t
  have ht : s.rcGrows t := sendRaw_rcGrows s w
  split
  · exact State.rcGrows_trans ht (sendRaw_rcGrows _ _)
  · exact ht

theorem sendVec_rcGrows (s : State) (v : Nat) : s.rcGrows (s.sendVec v) := by
  delta State.sendVec
  split
  · exact sendMsix_rcGrows _ _
  · exact s.rcGrows_refl

/-- What `withVec` does after `f` clears nothing. -/
theorem withVec_rcGrows (v : Nat) (f : State → State) (s : State) : (f s).rcGrows (withVec v f s) := by
  delta withVec
  extract_lets t
  split
  · exact sendVec_rcGrows _ _
  · exact t.rcGrows_refl

theorem withVecs_rcGrows (l : List Nat) (f : State → State) (s : State) :
    (f s).rcGrows (l.foldl (fun f v => withVec v f) f s) := by
  induction l generalizing f with
  | nil => exact State.rcGrows_refl _
  | cons v l ih => exact State.rcGrows_trans (withVec_rcGrows v f s) (ih _)

/-- A raised mask: its bits are set first, and what follows clears none. -/
theorem raiseMask_rcGrows_setRc (s : State) (a : Nat) (m : Word) : (s.setRc a m).rcGrows (s.raiseMask a m) :=
  withVecs_rcGrows _ (fun t => t.setRc a m) s

theorem raiseMask_rcGrows (s : State) (a : Nat) (m : Word) : s.rcGrows (s.raiseMask a m) :=
  State.rcGrows_trans (setRc_rcGrows s a m) (raiseMask_rcGrows_setRc s a m)

theorem raise_rcGrows (s : State) (f : Fld) : s.rcGrows (s.raise f) := raiseMask_rcGrows _ _ _

theorem count_rcGrows (s : State) (src n : Nat) : s.rcGrows (s.count src n) := by
  delta State.count
  split
  · exact s.rcGrows_refl
  · exact State.rcGrows_trans (countRaw_rcGrows s src n) (withVec_rcGrows _ _ _)

/-- Bits that are set in a copy are still set when the copies have grown. -/
theorem State.rcGrows.keeps {s t : State} (h : s.rcGrows t) {a : Nat} {m : Word}
    (hm : s.rcHost a &&& m = m ∧ s.rcSpx1 a &&& m = m) : t.rcHost a &&& m = m ∧ t.rcSpx1 a &&& m = m := by
  obtain ⟨hh, hs⟩ := hm
  rw [BitVec.and_comm] at hh hs ⊢
  rw [BitVec.and_comm (t.rcSpx1 a)]
  exact ⟨and_eq_of_and_eq hh (h a).1, and_eq_of_and_eq hs (h a).2⟩

theorem State.rcGrows.flagged {s t : State} (h : s.rcGrows t) {f : Fld} (hf : s.flagged f) : t.flagged f := h.keeps hf

/-- A raised mask stands in both readers' copies (R36). -/
theorem raiseMask_sets (s : State) (a : Nat) (m : Word) :
    (s.raiseMask a m).rcHost a &&& m = m ∧ (s.raiseMask a m).rcSpx1 a &&& m = m := by
  refine (raiseMask_rcGrows_setRc s a m).keeps ?_
  rw [State.rcHost_setRc, State.rcSpx1_setRc, if_pos rfl, if_pos rfl]
  exact ⟨or_and_right_self _ _, or_and_right_self _ _⟩

/-- A raised field is flagged. -/
theorem raise_flagged (s : State) (f : Fld) : (s.raise f).flagged f := raiseMask_sets _ _ _

/-- Settles O7: an event sets its bits in both copies, and the messages that follow set more and clear none. -/
theorem eventsSetBothCopies : Obligations.EventsSetBothCopies := by
  intro s f
  obtain ⟨hh, hs⟩ := raise_flagged s f
  exact ⟨hh, hs, raise_rcGrows s f, raise_eventsOnly s f⟩

/-! ### Counting without messages -/

theorem sendVec_of_irq_off {s : State} (v : Nat) (h : s.bit F.HOST_IRQ_CFG_IRQ_EN = false) : s.sendVec v = s := by
  rw [State.sendVec, h]
  rfl

theorem State.bit_of_eventsOnly {s t : State} (h : s.eventsOnly t) (f : Fld) : t.bit f = s.bit f := by
  rw [h.1]
  rfl

/-- With messages off an event is its bits alone. -/
theorem withVec_of_irq_off (v : Nat) (f : State → State) {s : State} (h : (f s).bit F.HOST_IRQ_CFG_IRQ_EN = false) :
    withVec v f s = f s := by
  unfold withVec
  dsimp only
  rw [sendVec_of_irq_off v h, ite_self]

theorem count_of_irq_off {s : State} (src n : Nat) (h : s.bit F.HOST_IRQ_CFG_IRQ_EN = false) :
    s.count src n = s.countRaw src n := by
  unfold State.count
  split
  · rename_i hn
    rw [State.countRaw, hn]
    rfl
  · exact withVec_of_irq_off _ _ ((State.bit_of_eventsOnly (countRaw_eventsOnly s src n) _).trans h)

theorem evc_addCount (n j i : Nat) (s : State) :
    (addCount n j s).evc i = if i = j then { s.evc i with count := ((s.evc i).count + n) % 2 ^ 48 } else s.evc i := by
  have key : (addCount n j s).evc i = (s.setEvc j { s.evc j with count := ((s.evc j).count + n) % 2 ^ 48 }).evc i := by
    unfold addCount
    dsimp only
    split <;> rfl
  rw [key, State.evc_setEvc]
  split
  · rename_i h
    rw [h]
  · rfl

/-- Each counter of a list without repetition takes the increment once. -/
theorem evc_forAll_addCount (n : Nat) (l : List Nat) (i : Nat) (s : State) (hl : l.Nodup) :
    (forAll l (addCount n) s).evc i =
      if i ∈ l then { s.evc i with count := ((s.evc i).count + n) % 2 ^ 48 } else s.evc i := by
  induction l generalizing s with
  | nil => rfl
  | cons j l ih =>
    obtain ⟨hj, hl⟩ := List.nodup_cons.1 hl
    rw [show forAll (j :: l) (addCount n) s = forAll l (addCount n) (addCount n j s) from rfl, ih _ hl, evc_addCount]
    by_cases h : i = j
    · rw [h, if_neg hj, if_pos rfl, if_pos List.mem_cons_self]
    · simp only [if_neg h, List.mem_cons, or_iff_right h]

theorem countersOn_nodup (s : State) (src : Nat) : (s.countersOn src).Nodup := List.nodup_range.filter _

/-- Settles O8: with messages off a counted event is one increment of each counter on its source. -/
theorem countersAdd : Obligations.CountersAdd := by
  intro s src n i h
  refine ⟨?_, count_eventsOnly s src n⟩
  rw [count_of_irq_off src n h]
  exact evc_forAll_addCount n _ i s (countersOn_nodup s src)

/-! ### Three copies of a register (R39) -/


theorem vote_of_agree_right (x y : Word) : vote x y y = y := by
  simp only [vote, BitVec.and_self]
  apply BitVec.eq_of_getLsbD_eq
  intro i _
  simp only [BitVec.getLsbD_or, BitVec.getLsbD_and]
  cases x.getLsbD i <;> cases y.getLsbD i <;> rfl

theorem vote_of_agree_left (x y : Word) : vote x x y = x := by
  simp only [vote, BitVec.and_self]
  apply BitVec.eq_of_getLsbD_eq
  intro i _
  simp only [BitVec.getLsbD_or, BitVec.getLsbD_and]
  cases x.getLsbD i <;> cases y.getLsbD i <;> rfl

theorem vote_of_agree_outer (x y : Word) : vote x y x = x := by
  simp only [vote, BitVec.and_self]
  apply BitVec.eq_of_getLsbD_eq
  intro i _
  simp only [BitVec.getLsbD_or, BitVec.getLsbD_and]
  cases x.getLsbD i <;> cases y.getLsbD i <;> rfl

theorem State.reg_of_copies {s : State} {a : Nat} {x b c v : Word} (hx : tabGet regReset s.regs a = x)
    (hb : tabGet (fun _ => 0) s.copyB a = b) (hc : tabGet (fun _ => 0) s.copyC a = c)
    (h : vote x (x ^^^ b) (x ^^^ c) = v) : s.reg a = v := by
  subst hx hb hc
  exact h

/-- One upset copy is outvoted by the other two. -/
theorem reg_upset_of_agrees {s : State} {a : Nat} {v : Word} (hx : tabGet regReset s.regs a = v) (h : s.agrees a) (m : Word)
    (k : Nat) : (upset a k m s).reg a = v := by
  obtain ⟨hB, hC⟩ := h
  have zero : ∀ x : Word, x ^^^ 0 = x := fun x => BitVec.xor_zero
  have twice : v ^^^ m ^^^ (0 ^^^ m) = v := by rw [BitVec.xor_comm 0 m, zero, BitVec.xor_assoc, BitVec.xor_self]; exact zero v
  unfold upset
  dsimp only
  rw [hx, hB, hC]
  split
  · refine State.reg_of_copies (tabGet_tabSet_same _ _ _ _) (tabGet_tabSet_same _ _ _ _) (tabGet_tabSet_same _ _ _ _) ?_
    rw [twice]
    exact vote_of_agree_right _ _
  · refine State.reg_of_copies hx (tabGet_tabSet_same _ _ _ _) hC ?_
    rw [zero v]
    exact vote_of_agree_outer _ _
  · refine State.reg_of_copies hx hB (tabGet_tabSet_same _ _ _ _) ?_
    rw [zero v]
    exact vote_of_agree_left _ _

theorem agrees_setReg (s : State) (a : Nat) (v : Word) : (s.setReg a v).agrees a :=
  ⟨tabGet_tabErase_same _ _ _, tabGet_tabErase_same _ _ _⟩

theorem reg_upset_ne (s : State) {a b : Nat} (k : Nat) (m : Word) (h : b ≠ a) : (upset a k m s).reg b = s.reg b := by
  unfold upset State.reg
  split <;> simp only [tabGet_tabSet_ne _ _ _ h]

/-- Settles O9: read after write, the frame of a write, and the majority of two copies against one. -/
theorem votedCopies : Obligations.VotedCopies := by
  intro s a b v m k
  exact ⟨s.reg_setReg_same a v, s.reg_setReg_ne v, reg_upset_of_agrees (tabGet_tabSet_same _ _ _ _) (agrees_setReg s a v) m k, reg_upset_ne s k m,
    s.reg_setBits_same a m v, s.reg_setBits_ne m v, tabGet_tabSet_same _ _ _ _, tabGet_tabSet_same _ _ _ _⟩

end Sys2Proof.Machine
end

section
/-! Three statements of registers that a concrete state refutes. -/

namespace Sys2Proof.Machine

/-! ### A refused write of a register without a writable bit

The profile words of LEDG have writable bits only where Table 4-8 names them; 0x64000 has none. The guard of R345 asks
only where a write goes: with a quarter running it refuses this one too, and reports it. -/

/-- After power-on, with quarter 0 powered and in RUN. -/
def quarterRuns : State := (State.reset.setFld F.PWR_QMASK_ON 1).setFld (F.QSEQ_STAT_STATE 0) 1

theorem quarterRuns_takes : quarterRuns.Takes .cal 0x64000 :=
  { up := by decide +kernel, clocked := by decide +kernel, awake := .inl (by decide +kernel), ahead := by decide +kernel,
    domain := fun q h => absurd h (by rw [show addrQuarter 0x64000 = none by decide +kernel]; exact nofun),
    region := by decide +kernel, boot := by decide +kernel, free := by decide +kernel, first := by decide +kernel }

theorem quarterRuns_write_reported : ∃ t, exec (.registerWrite .cal 0x64000 0xF 0) quarterRuns = .next t ∧
    t.reported ≠ [] := ⟨_, rfl, by decide +kernel⟩

/-- Refutes O12: a write of the calibration engine to 0x64000, which has no writable bit, is refused and reported
while quarter 0 runs. -/
theorem not_maskedWrites : ¬ Obligations.MaskedWrites := by
  intro h
  obtain ⟨-, noBit, -⟩ := h quarterRuns .cal 0x64000 0 0
  obtain ⟨t, ht, -, hframe⟩ := noBit ⟨0x64000, [(8, 4)], 0, 0, 0, [], 0⟩ (by decide +kernel) rfl (by decide) (by decide +kernel) rfl rfl
    (by decide +kernel) (by decide +kernel) quarterRuns_takes
  obtain ⟨t', ht', hreported⟩ := quarterRuns_write_reported
  have htt : t = t' := Host.Outcome.next.inj (ht.symm.trans ht')
  have hnone : t.reported = [] := by
    rw [hframe]
    exact (show (hostTlps .cal true quarterRuns).reported = [] by decide +kernel)
  exact hreported (htt ▸ hnone)

/-! ### An RC field in the fault collector's range

The second clause of O15 has a read in 0x12000 to 0x17FFF answer the register alone. SSTAT lies there, and its OVF is
an RC field: it answers the reader's copy (R36). -/

/-- After power-on, with SSTAT.OVF of source 0 set in both copies, as the event that overflows CNT leaves it. -/
def sstatOverflowed : State := State.reset.setRc 0x16000 4

theorem sstatOverflowed_serves : sstatOverflowed.Serves .pcie 0x16000 :=
  { up := by decide +kernel, clocked := by decide +kernel, awake := .inl (by decide +kernel), ahead := by decide +kernel,
    domain := fun q h => absurd h (by rw [show addrQuarter 0x16000 = none by decide +kernel]; exact nofun),
    region := by decide +kernel }

theorem sstatOverflowed_read : ∃ t, exec (.votedFieldRead .pcie 0x16000) sstatOverflowed = .next t ∧
    t.reads ≠ (sstatOverflowed.reg 0x16000).setWidth 32 :: sstatOverflowed.reads := ⟨_, rfl, by decide +kernel⟩

/-- Refutes O15: the host's read of SSTAT shows OVF, which the register itself does not hold. -/
theorem not_votedReads : ¬ Obligations.VotedReads := by
  intro h
  obtain ⟨ofRegister, -, -⟩ := h sstatOverflowed .pcie 0x16000 rfl (by decide) sstatOverflowed_serves
  obtain ⟨t, ht, -, hreads, -⟩ := ofRegister ⟨0x16000, [(512, 4)], 0xF8, 0, 4, [], 0⟩ (by decide +kernel) (by decide +kernel)
  obtain ⟨t', ht', hread⟩ := sstatOverflowed_read
  have htt : t = t' := Host.Outcome.next.inj (ht.symm.trans ht')
  exact hread (htt ▸ hreads (by decide) (by decide))

/-! ### A queue that resets the part

A commit records its moment first and applies its queue after that. The statement takes any queue: one that holds
CHIP.RST's FULL request (which lies in no unit's scope, so that no captured write puts it there) resets CTIME and
COMMITTED with all the rest. -/

/-- After power-on at device time 64, with the chip's unit pending for the host since 8 and a FULL reset queued. -/
def resetQueued : State :=
  setTxnState 16 2 1 ({ State.reset with now := 64 }.setTxn 16
    { queue := [{ addr := R.CHIP_RST, mask := 0xFF04, data := 0x5A04 }], due := 8 })

theorem resetQueued_due : resetQueued.commitDue 16 = some 8 ∧ resetQueued.bit F.CLK_STAT_HOLD = false := by decide +kernel

theorem resetQueued_commit : ∃ t, exec (.txnCommitMoment 16) resetQueued = .next t ∧ t.reg (txnBase 16 + 16) ≠ 8 :=
  ⟨_, rfl, by decide +kernel⟩

/-- Refutes O21: the commit of `resetQueued` leaves CTIME at 0 and not at 8. -/
theorem not_commitApplies : ¬ Obligations.CommitApplies := by
  intro h
  obtain ⟨hdue, hclock⟩ := resetQueued_due
  obtain ⟨t, ht, -, -, -, -, hctime, -⟩ := ((h resetQueued).1 16).2 8 hdue hclock
  obtain ⟨t', ht', hreset⟩ := resetQueued_commit
  have htt : t = t' := Host.Outcome.next.inj (ht.symm.trans ht')
  exact hreset (htt ▸ hctime)

end Sys2Proof.Machine
end

section
/-! Reads (R33, R36, R46): what a read leaves alone, what it latches and what it clears. -/

namespace Sys2Proof.Machine

/-! ### What a read leaves alone -/

/-- From `s` to `t` nothing changes but what the effect of a read may touch: RC copies, counters, messages, events
reported, the holds of latching reads and the captures that a read arms again. -/
def State.readOnly (s t : State) : Prop :=
  t = { s with
    hostRc := t.hostRc, spx1Rc := t.spx1Rc, evcs := t.evcs, win := t.win, msgs := t.msgs, reported := t.reported,
    holdH := t.holdH, holdS := t.holdS, feHost := t.feHost, feSpx1 := t.feSpx1, qs := t.qs, led := t.led,
    errAddrHeld := t.errAddrHeld } ∧
  ∀ a, a < 0x47000 ∨ 0x47100 ≤ a → t.winGet a = s.winGet a

theorem State.readOnly_refl (s : State) : s.readOnly s := ⟨rfl, fun _ _ => rfl⟩

theorem State.readOnly_trans {s t u : State} (h1 : s.readOnly t) (h2 : t.readOnly u) : s.readOnly u := by
  refine ⟨h2.1.trans ?_, fun a ha => (h2.2 a ha).trans (h1.2 a ha)⟩
  rw [h1.1]

theorem State.eventsOnly.readOnly {s t : State} (h : s.eventsOnly t) : s.readOnly t := by
  refine ⟨h.1.trans ?_, h.2⟩
  rw [h.1]

theorem State.readOnly.regsKept {s t : State} (h : s.readOnly t) : s.regsKept [] t := fun a _ => by
  rw [h.1]
  rfl

theorem State.readOnly.memoryKept {s t : State} (h : s.readOnly t) : s.memoryKept t := ⟨by rw [h.1], h.2⟩

theorem foldl_readOnly {β : Type} {f : State → β → State} (hf : ∀ (s : State) x, s.readOnly (f s x)) (l : List β)
    (s : State) : s.readOnly (l.foldl f s) :=
  List.foldlRecOn l f s.readOnly_refl fun t h x _ => State.readOnly_trans h (hf t x)

theorem report_readOnly (s : State) (src addr : Nat) : s.readOnly (s.report src addr) := ⟨rfl, fun _ _ => rfl⟩

theorem reportVotes_readOnly (a : Nat) (s : State) : s.readOnly (reportVotes a s) :=
  foldl_readOnly (fun s _ => State.readOnly_trans (count_eventsOnly s 0xA3 1).readOnly (report_readOnly _ _ _)) _ s

/-- Copies that agree report nothing. -/
theorem reportVotes_of_agreeing {a : Nat} {s : State} (h : s.disagreements a = 0) : reportVotes a s = s := by
  unfold reportVotes
  rw [h]
  rfl

/-! ### The effect of a read, part by part -/

/-- The holds that a read of `a` takes (R46). -/
def latchReads (m : Master) (a : Nat) (s : State) : State :=
  (latchedBy a).foldl (fun t b => t.setHold m b (s.latchValue m a b)) s

/-- The reader's copy of the RC fields at `a`, cleared (R36). -/
def clearOwnRc (m : Master) (a rc : Nat) (s : State) : State :=
  if rc = 0 then s else if isSpx1 m then s.clrRcSpx1 a else s.clrRcHost a

/-- The captures that a read of `a` arms again. -/
def rearmCaptures (m : Master) (a : Nat) (s : State) : State :=
  let t := if a = R.FLT_FE_SRC then feRead m s else s
  let t := if 0x100000 ≤ a && a % 0x10000 = 0x1004 then
      let q := (a - 0x100000) / 0x10000
      if (t.q q).tsHeld then t.setQ q { t.q q with tsHeld := false } else t
    else t
  let t := if a = R.LEDG_STAT then { t with led := { t.led with firstHeld := false } } else t
  if a = R.MEM_ERR_ADDR2 then { t with errAddrHeld := false } else t

/-- The rebase of a counter with RDCLR by a read of its CNT_L (R46). -/
def rebaseCounter (m : Master) (a : Nat) (s : State) : State :=
  if 0x68000 ≤ a && a < 0x68800 && a % 32 = 4 then
    let n := (a - 0x68000) / 32
    if s.bit (F.EVC_SEL_RDCLR n) then
      let e := s.evc n
      s.setEvc n (if isSpx1 m then { e with spx1Base := e.count } else { e with hostBase := e.count })
    else s
  else s

/-- A read of a master that clears nothing reports votes and no more. -/
theorem readEffect_of_keeps {m : Master} (a rc : Nat) (s : State) (h : clears m = false) :
    readEffect m a rc s = reportVotes a s := by
  unfold readEffect
  rw [h]
  rfl

theorem readEffect_of_clears {m : Master} (a rc : Nat) (s : State) (h : clears m = true) :
    readEffect m a rc s =
      rebaseCounter m a (rearmCaptures m a (clearOwnRc m a rc (latchReads m a (reportVotes a s)))) := by
  unfold readEffect
  rw [h]
  rfl

theorem setHold_readOnly (s : State) (m : Master) (a : Nat) (v : Word) : s.readOnly (s.setHold m a v) := by
  unfold State.setHold
  split <;> exact ⟨rfl, fun _ _ => rfl⟩

theorem clearOwnRc_readOnly (m : Master) (a rc : Nat) (s : State) : s.readOnly (clearOwnRc m a rc s) := by
  unfold clearOwnRc
  split
  · exact s.readOnly_refl
  · split <;> exact ⟨rfl, fun _ _ => rfl⟩

theorem ite_readOnly {s t u : State} {c : Prop} [Decidable c] (ht : s.readOnly t) (hu : s.readOnly u) :
    s.readOnly (if c then t else u) := by
  split
  · exact ht
  · exact hu

/-- From `s` to `t` nothing changes but the captures that reads arm again. -/
def State.capturesOnly (s t : State) : Prop :=
  t = { s with
    feHost := t.feHost, feSpx1 := t.feSpx1, qs := t.qs, led := t.led, errAddrHeld := t.errAddrHeld }

theorem State.capturesOnly_trans {s t u : State} (h1 : s.capturesOnly t) (h2 : t.capturesOnly u) :
    s.capturesOnly u := by
  refine Eq.trans h2 ?_
  rw [h1]

theorem ite_capturesOnly {s t u : State} {c : Prop} [Decidable c] (ht : s.capturesOnly t) (hu : s.capturesOnly u) :
    s.capturesOnly (if c then t else u) := by
  split
  · exact ht
  · exact hu

theorem feRead_capturesOnly (m : Master) (s : State) : s.capturesOnly (feRead m s) := ite_capturesOnly rfl rfl

theorem rearmCaptures_capturesOnly (m : Master) (a : Nat) (s : State) : s.capturesOnly (rearmCaptures m a s) := by
  unfold rearmCaptures
  extract_lets t q _ t2 _ t3
  have ht : s.capturesOnly t := ite_capturesOnly (feRead_capturesOnly m s) rfl
  have ht2 : s.capturesOnly t2 := ite_capturesOnly (ite_capturesOnly (State.capturesOnly_trans ht rfl) ht) ht
  have ht3 : s.capturesOnly t3 := ite_capturesOnly (State.capturesOnly_trans ht2 rfl) ht2
  exact ite_capturesOnly (State.capturesOnly_trans ht3 rfl) ht3

theorem rearmCaptures_readOnly (m : Master) (a : Nat) (s : State) : s.readOnly (rearmCaptures m a s) := by
  rw [show rearmCaptures m a s = _ from rearmCaptures_capturesOnly m a s]
  exact ⟨rfl, fun _ _ => rfl⟩

theorem rebaseCounter_readOnly (m : Master) (a : Nat) (s : State) : s.readOnly (rebaseCounter m a s) :=
  ite_readOnly (ite_readOnly ⟨rfl, fun _ _ => rfl⟩ s.readOnly_refl) s.readOnly_refl

theorem latchReads_readOnly (m : Master) (a : Nat) (s : State) : s.readOnly (latchReads m a s) :=
  foldl_readOnly (fun t b => setHold_readOnly t m b _) _ s

theorem readEffect_readOnly (m : Master) (a rc : Nat) (s : State) : s.readOnly (readEffect m a rc s) := by
  cases h : clears m with
  | false => exact readEffect_of_keeps a rc s h ▸ reportVotes_readOnly a s
  | true =>
    rw [readEffect_of_clears a rc s h]
    exact State.readOnly_trans (reportVotes_readOnly a s) <| State.readOnly_trans (latchReads_readOnly m a _) <|
      State.readOnly_trans (clearOwnRc_readOnly m a rc _) <| State.readOnly_trans (rearmCaptures_readOnly m a _)
        (rebaseCounter_readOnly m a _)

/-! ### A value reaches its reader -/

@[simp] theorem pushRead_reads (m : Master) (a : Nat) (v : Dword) (s : State) :
    (pushRead m a v s).reads = v :: s.reads := by
  unfold pushRead
  simp only [apply_ite State.reads, keepCut, State.setFld_reads, ite_self]

@[simp] theorem pushRead_hostRc (m : Master) (a : Nat) (v : Dword) (s : State) :
    (pushRead m a v s).hostRc = s.hostRc := by
  simp only [pushRead, keepCut, apply_ite State.hostRc, State.setFld_hostRc, ite_self]

@[simp] theorem pushRead_spx1Rc (m : Master) (a : Nat) (v : Dword) (s : State) :
    (pushRead m a v s).spx1Rc = s.spx1Rc := by
  simp only [pushRead, keepCut, apply_ite State.spx1Rc, State.setFld_spx1Rc, ite_self]

@[simp] theorem pushRead_evcs (m : Master) (a : Nat) (v : Dword) (s : State) :
    (pushRead m a v s).evcs = s.evcs := by
  simp only [pushRead, keepCut, apply_ite State.evcs, State.setFld_evcs, ite_self]

@[simp] theorem pushRead_win (m : Master) (a : Nat) (v : Dword) (s : State) :
    (pushRead m a v s).win = s.win := by
  simp only [pushRead, keepCut, apply_ite State.win, State.setFld_win, ite_self]

@[simp] theorem pushRead_hbm (m : Master) (a : Nat) (v : Dword) (s : State) :
    (pushRead m a v s).hbm = s.hbm := by
  simp only [pushRead, keepCut, apply_ite State.hbm, State.setFld_hbm, ite_self]

@[simp] theorem pushRead_msgs (m : Master) (a : Nat) (v : Dword) (s : State) :
    (pushRead m a v s).msgs = s.msgs := by
  simp only [pushRead, keepCut, apply_ite State.msgs, State.setFld_msgs, ite_self]

@[simp] theorem pushRead_reported (m : Master) (a : Nat) (v : Dword) (s : State) :
    (pushRead m a v s).reported = s.reported := by
  simp only [pushRead, keepCut, apply_ite State.reported, State.setFld_reported, ite_self]

@[simp] theorem pushRead_holdH (m : Master) (a : Nat) (v : Dword) (s : State) :
    (pushRead m a v s).holdH = s.holdH := by
  simp only [pushRead, keepCut, apply_ite State.holdH, State.setFld_holdH, ite_self]

@[simp] theorem pushRead_holdS (m : Master) (a : Nat) (v : Dword) (s : State) :
    (pushRead m a v s).holdS = s.holdS := by
  simp only [pushRead, keepCut, apply_ite State.holdS, State.setFld_holdS, ite_self]

/-- Nothing but LAST_ADDR and LAST_DATA of SPX1, at the end of a cut read, is stored by a read's value. -/
theorem pushRead_regs {s : State} (m : Master) (a : Nat) (v : Dword) (h : s.spx1.cut = false) :
    (pushRead m a v s).regs = s.regs ∧ (pushRead m a v s).copyB = s.copyB ∧ (pushRead m a v s).copyC = s.copyC := by
  unfold pushRead
  split
  · exact ⟨rfl, rfl, rfl⟩
  · rw [if_neg (by simp [h])]
    exact ⟨rfl, rfl, rfl⟩

theorem pushRead_memoryKept {s t : State} (m : Master) (a : Nat) (v : Dword) (h : s.memoryKept t) :
    s.memoryKept (pushRead m a v t) :=
  ⟨by rw [pushRead_hbm, h.1], fun b hb => by rw [State.winGet, pushRead_win, ← State.winGet, h.2 b hb]⟩

theorem pushRead_regsKept {s t : State} (m : Master) (a : Nat) (v : Dword) (h : s.regsKept [] t)
    (hcut : t.spx1.cut = false) : s.regsKept [] (pushRead m a v t) := fun b hb => by
  obtain ⟨hregs, hB, hC⟩ := pushRead_regs m a v hcut
  rw [State.reg, hregs, hB, hC, ← State.reg, h b hb]

/-! ### What each part of the effect leaves -/

theorem foldl_proj {α β : Type} {p : State → α} {f : State → β → State} (hf : ∀ s x, p (f s x) = p s) (l : List β)
    (s : State) : p (l.foldl f s) = p s := by
  induction l generalizing s with
  | nil => rfl
  | cons x l ih => rw [List.foldl_cons, ih, hf]

theorem latchReads_hostRc (m : Master) (a : Nat) (s : State) : (latchReads m a s).hostRc = s.hostRc :=
  foldl_proj (p := State.hostRc) (fun t b => by simp only [State.setHold, apply_ite State.hostRc, ite_self]) _ s

theorem latchReads_spx1Rc (m : Master) (a : Nat) (s : State) : (latchReads m a s).spx1Rc = s.spx1Rc :=
  foldl_proj (p := State.spx1Rc) (fun t b => by simp only [State.setHold, apply_ite State.spx1Rc, ite_self]) _ s

theorem latchReads_win (m : Master) (a : Nat) (s : State) : (latchReads m a s).win = s.win :=
  foldl_proj (p := State.win) (fun t b => by simp only [State.setHold, apply_ite State.win, ite_self]) _ s

@[simp] theorem rearmCaptures_hostRc (m : Master) (a : Nat) (s : State) : (rearmCaptures m a s).hostRc = s.hostRc := by
  rw [show rearmCaptures m a s = _ from rearmCaptures_capturesOnly m a s]

@[simp] theorem rearmCaptures_spx1Rc (m : Master) (a : Nat) (s : State) : (rearmCaptures m a s).spx1Rc = s.spx1Rc := by
  rw [show rearmCaptures m a s = _ from rearmCaptures_capturesOnly m a s]

@[simp] theorem rearmCaptures_evcs (m : Master) (a : Nat) (s : State) : (rearmCaptures m a s).evcs = s.evcs := by
  rw [show rearmCaptures m a s = _ from rearmCaptures_capturesOnly m a s]

@[simp] theorem rearmCaptures_holdH (m : Master) (a : Nat) (s : State) : (rearmCaptures m a s).holdH = s.holdH := by
  rw [show rearmCaptures m a s = _ from rearmCaptures_capturesOnly m a s]

@[simp] theorem rearmCaptures_holdS (m : Master) (a : Nat) (s : State) : (rearmCaptures m a s).holdS = s.holdS := by
  rw [show rearmCaptures m a s = _ from rearmCaptures_capturesOnly m a s]

@[simp] theorem rearmCaptures_win (m : Master) (a : Nat) (s : State) : (rearmCaptures m a s).win = s.win := by
  rw [show rearmCaptures m a s = _ from rearmCaptures_capturesOnly m a s]

@[simp] theorem rearmCaptures_msgs (m : Master) (a : Nat) (s : State) : (rearmCaptures m a s).msgs = s.msgs := by
  rw [show rearmCaptures m a s = _ from rearmCaptures_capturesOnly m a s]

@[simp] theorem rearmCaptures_reported (m : Master) (a : Nat) (s : State) : (rearmCaptures m a s).reported = s.reported := by
  rw [show rearmCaptures m a s = _ from rearmCaptures_capturesOnly m a s]

@[simp] theorem rebaseCounter_hostRc (m : Master) (a : Nat) (s : State) : (rebaseCounter m a s).hostRc = s.hostRc := by
  simp only [rebaseCounter, apply_ite State.hostRc, State.setEvc_hostRc, ite_self]

@[simp] theorem rebaseCounter_spx1Rc (m : Master) (a : Nat) (s : State) : (rebaseCounter m a s).spx1Rc = s.spx1Rc := by
  simp only [rebaseCounter, apply_ite State.spx1Rc, State.setEvc_spx1Rc, ite_self]

@[simp] theorem rebaseCounter_holdH (m : Master) (a : Nat) (s : State) : (rebaseCounter m a s).holdH = s.holdH := by
  simp only [rebaseCounter, apply_ite State.holdH, State.setEvc_holdH, ite_self]

@[simp] theorem rebaseCounter_holdS (m : Master) (a : Nat) (s : State) : (rebaseCounter m a s).holdS = s.holdS := by
  simp only [rebaseCounter, apply_ite State.holdS, State.setEvc_holdS, ite_self]

@[simp] theorem rebaseCounter_win (m : Master) (a : Nat) (s : State) : (rebaseCounter m a s).win = s.win := by
  simp only [rebaseCounter, apply_ite State.win, State.setEvc_win, ite_self]

@[simp] theorem rebaseCounter_msgs (m : Master) (a : Nat) (s : State) : (rebaseCounter m a s).msgs = s.msgs := by
  simp only [rebaseCounter, apply_ite State.msgs, State.setEvc_msgs, ite_self]

@[simp] theorem rebaseCounter_reported (m : Master) (a : Nat) (s : State) : (rebaseCounter m a s).reported = s.reported := by
  simp only [rebaseCounter, apply_ite State.reported, State.setEvc_reported, ite_self]

@[simp] theorem clearOwnRc_evcs (m : Master) (a rc : Nat) (s : State) : (clearOwnRc m a rc s).evcs = s.evcs := by
  simp only [clearOwnRc, apply_ite State.evcs, State.clrRcHost_evcs, State.clrRcSpx1_evcs, ite_self]

@[simp] theorem clearOwnRc_holdH (m : Master) (a rc : Nat) (s : State) : (clearOwnRc m a rc s).holdH = s.holdH := by
  simp only [clearOwnRc, apply_ite State.holdH, State.clrRcHost_holdH, State.clrRcSpx1_holdH, ite_self]

@[simp] theorem clearOwnRc_holdS (m : Master) (a rc : Nat) (s : State) : (clearOwnRc m a rc s).holdS = s.holdS := by
  simp only [clearOwnRc, apply_ite State.holdS, State.clrRcHost_holdS, State.clrRcSpx1_holdS, ite_self]

@[simp] theorem clearOwnRc_win (m : Master) (a rc : Nat) (s : State) : (clearOwnRc m a rc s).win = s.win := by
  simp only [clearOwnRc, apply_ite State.win, State.clrRcHost_win, State.clrRcSpx1_win, ite_self]

@[simp] theorem clearOwnRc_msgs (m : Master) (a rc : Nat) (s : State) : (clearOwnRc m a rc s).msgs = s.msgs := by
  simp only [clearOwnRc, apply_ite State.msgs, State.clrRcHost_msgs, State.clrRcSpx1_msgs, ite_self]

@[simp] theorem clearOwnRc_reported (m : Master) (a rc : Nat) (s : State) : (clearOwnRc m a rc s).reported = s.reported := by
  simp only [clearOwnRc, apply_ite State.reported, State.clrRcHost_reported, State.clrRcSpx1_reported, ite_self]

theorem latchReads_evcs (m : Master) (a : Nat) (s : State) : (latchReads m a s).evcs = s.evcs :=
  foldl_proj (p := State.evcs) (fun t b => by simp only [State.setHold, apply_ite State.evcs, ite_self]) _ s

theorem latchReads_msgs (m : Master) (a : Nat) (s : State) : (latchReads m a s).msgs = s.msgs :=
  foldl_proj (p := State.msgs) (fun t b => by simp only [State.setHold, apply_ite State.msgs, ite_self]) _ s

theorem latchReads_reported (m : Master) (a : Nat) (s : State) : (latchReads m a s).reported = s.reported :=
  foldl_proj (p := State.reported) (fun t b => by simp only [State.setHold, apply_ite State.reported, ite_self]) _ s

end Sys2Proof.Machine
end

section
/-! Reads that clear (O14) and reads that latch (O11). -/

namespace Sys2Proof.Machine

/-! ### Clearing reads -/

theorem State.rcHost_clrRcHost (s : State) (a b : Nat) : (s.clrRcHost a).rcHost b = if b = a then 0 else s.rcHost b := by
  unfold State.rcHost State.clrRcHost
  split
  · next h => exact h ▸ tabGet_tabErase_same _ _ _
  · next h => exact tabGet_tabErase_ne _ _ h

theorem State.rcSpx1_clrRcSpx1 (s : State) (a b : Nat) : (s.clrRcSpx1 a).rcSpx1 b = if b = a then 0 else s.rcSpx1 b := by
  unfold State.rcSpx1 State.clrRcSpx1
  split
  · next h => exact h ▸ tabGet_tabErase_same _ _ _
  · next h => exact tabGet_tabErase_ne _ _ h

theorem clearOwnRc_rcHost {m : Master} {a rc : Nat} (s : State) (hc : clears m = true) (hrc : rc ≠ 0) (b : Nat) :
    (clearOwnRc m a rc s).rcHost b = if m = .pcie ∧ b = a then 0 else s.rcHost b := by
  unfold clearOwnRc
  rw [if_neg hrc]
  cases m with
  | pcie => simpa [isSpx1] using s.rcHost_clrRcHost a b
  | spx1 => simp [isSpx1]
  | boot | qseq | cal => exact absurd hc Bool.false_ne_true

theorem clearOwnRc_rcSpx1 {m : Master} {a rc : Nat} (s : State) (hc : clears m = true) (hrc : rc ≠ 0) (b : Nat) :
    (clearOwnRc m a rc s).rcSpx1 b = if m = .spx1 ∧ b = a then 0 else s.rcSpx1 b := by
  unfold clearOwnRc
  rw [if_neg hrc]
  cases m with
  | pcie => simp [isSpx1]
  | spx1 => simpa [isSpx1] using s.rcSpx1_clrRcSpx1 a b
  | boot | qseq | cal => exact absurd hc Bool.false_ne_true

theorem disagreements_of_eventsOnly {s t : State} (h : s.eventsOnly t) (a : Nat) :
    t.disagreements a = s.disagreements a := by
  rw [h.1]
  rfl

/-- Where the copies agree, a read of a register with RC fields clears the reader's copy of them and no other. -/
theorem readEffect_rcHost {m : Master} {a rc : Nat} {s : State} (hv : s.disagreements a = 0) (hrc : rc ≠ 0) (b : Nat) :
    (readEffect m a rc s).rcHost b = if m = .pcie ∧ b = a then 0 else s.rcHost b := by
  cases hc : clears m with
  | false =>
    rw [readEffect_of_keeps a rc s hc, reportVotes_of_agreeing hv, if_neg (by rintro ⟨rfl, -⟩; exact absurd hc (by decide))]
  | true =>
    rw [readEffect_of_clears a rc s hc, reportVotes_of_agreeing hv, State.rcHost, rebaseCounter_hostRc, rearmCaptures_hostRc,
      ← State.rcHost, clearOwnRc_rcHost _ hc hrc, State.rcHost, latchReads_hostRc, ← State.rcHost]

theorem readEffect_rcSpx1 {m : Master} {a rc : Nat} {s : State} (hv : s.disagreements a = 0) (hrc : rc ≠ 0) (b : Nat) :
    (readEffect m a rc s).rcSpx1 b = if m = .spx1 ∧ b = a then 0 else s.rcSpx1 b := by
  cases hc : clears m with
  | false =>
    rw [readEffect_of_keeps a rc s hc, reportVotes_of_agreeing hv, if_neg (by rintro ⟨rfl, -⟩; exact absurd hc (by decide))]
  | true =>
    rw [readEffect_of_clears a rc s hc, reportVotes_of_agreeing hv, State.rcSpx1, rebaseCounter_spx1Rc, rearmCaptures_spx1Rc,
      ← State.rcSpx1, clearOwnRc_rcSpx1 _ hc hrc, State.rcSpx1, latchReads_spx1Rc, ← State.rcSpx1]

/-- Where the copies agree, a read reports nothing, sends nothing and touches no window. -/
theorem readEffect_quiet {m : Master} {a : Nat} (rc : Nat) {s : State} (hv : s.disagreements a = 0) :
    (readEffect m a rc s).reported = s.reported ∧ (readEffect m a rc s).msgs = s.msgs ∧
      (readEffect m a rc s).win = s.win := by
  cases hc : clears m with
  | false =>
    rw [readEffect_of_keeps a rc s hc, reportVotes_of_agreeing hv]
    exact ⟨rfl, rfl, rfl⟩
  | true =>
    rw [readEffect_of_clears a rc s hc, reportVotes_of_agreeing hv]
    simp [latchReads_reported, latchReads_msgs, latchReads_win]

/-! ### What a clearing read answers -/

/-- TDC.STATE, whose NGOT a read latches, has no RC field. -/
theorem tdcState_rc {a : Nat} {r : RegRow} (hr : rowOf a = some r)
    (h : 0x100000 ≤ a ∧ a < 0x200000 ∧ 0x3000 ≤ a % 0x10000 ∧ a % 0x10000 < 0x3400 ∧ a % 0x100 = 0x24) : r.rc = 0 := by
  have column : ∀ k : Fin 4, ∀ r ∈ findRow quarterBlocks (0x3024 + 0x100 * k.val), r.rc = 0 := by decide
  obtain ⟨h1, h2, h3, h4, h5⟩ := h
  rw [rowOf, if_pos (by simp [h1, h2]), show (a - 0x100000) % 0x10000 = 0x3024 + 0x100 * ((a % 0x10000 - 0x3000) / 0x100) by omega] at hr
  exact column ⟨(a % 0x10000 - 0x3000) / 0x100, by omega⟩ r hr

theorem readValue_of_rc {s : State} {m : Master} {a : Nat} {r : RegRow} (hr : rowOf a = some r) (hheld : heldReg a = false)
    (hfe : a ≠ R.FLT_FE_SRC) (hrc : r.rc ≠ 0) :
    s.readValue m a r.rc = (s.view m a &&& ~~~(BitVec.ofNat 16 r.rc)) ||| (s.rcView m a &&& BitVec.ofNat 16 r.rc) := by
  unfold State.readValue
  dsimp only
  rw [if_neg hfe, if_neg (by simp [hheld]), if_neg]
  simp only [Bool.and_eq_true, decide_eq_true_eq]
  rintro ⟨⟨⟨⟨⟨-, h1⟩, h2⟩, h3⟩, h4⟩, h5⟩
  exact hrc (tdcState_rc hr ⟨h1, h2, h3, h4, h5⟩)

/-- A host access counts its packets; SPX1's copies stay with every other. -/
theorem hostTlps_of_ne_pcie {m : Master} (w : Bool) (s : State) (h : m ≠ .pcie) : hostTlps m w s = s := by
  unfold hostTlps
  rw [if_neg (by simp [h])]

theorem rcView_hostTlps (m : Master) (w : Bool) (s : State) (a : Nat) :
    (hostTlps m w s).rcView m a = if isSpx1 m then s.rcSpx1 a else (hostTlps m w s).rcHost a := by
  unfold State.rcView
  split
  · next h => rw [hostTlps_of_ne_pcie w s (by rintro rfl; exact absurd h (by decide))]
  · rfl

theorem hostTlps_reported (m : Master) (w : Bool) (s : State) : (hostTlps m w s).reported = s.reported := by
  rw [(hostTlps_eventsOnly m w s).1]

theorem hostTlps_reads (m : Master) (w : Bool) (s : State) : (hostTlps m w s).reads = s.reads := by
  rw [(hostTlps_eventsOnly m w s).1]

theorem hostTlps_spx1 (m : Master) (w : Bool) (s : State) : (hostTlps m w s).spx1 = s.spx1 := by
  rw [(hostTlps_eventsOnly m w s).1]

/-- Settles O14: where the copies agree the effect is that of `clearOwnRc`, besides the holds and captures. -/
theorem readsClearOneCopy : Obligations.ReadsClearOneCopy := by
  intro s m a r hr h4 h24 hw hheld hfe hrc hserves hv
  have hevents := hostTlps_eventsOnly m false s
  have hv' : (hostTlps m false s).disagreements a = 0 := (disagreements_of_eventsOnly hevents a).trans hv
  have hreg := readEffect_readOnly m a r.rc (hostTlps m false s)
  obtain ⟨hreported, hmsgs, hwin⟩ := readEffect_quiet (m := m) r.rc hv'
  have hread : (hostTlps m false s).readValue m a r.rc =
      ((hostTlps m false s).view m a &&& ~~~(BitVec.ofNat 16 r.rc)) |||
        ((if isSpx1 m then s.rcSpx1 a else (hostTlps m false s).rcHost a) &&& BitVec.ofNat 16 r.rc) := by
    rw [readValue_of_rc hr hheld hfe hrc, rcView_hostTlps]
  refine ⟨_, rfl, ?_⟩
  rw [busRead_eq hserves (busAddr_eq h24 h4) hw hr, readDword_eq (hserves.events hevents) hw hr]
  refine ⟨?_, fun b => ?_, fun b => ?_, ?_, ?_, ?_, ?_, fun hcut => ?_⟩
  · rw [pushRead_reads, hread, hreg.1, hostTlps_reads]
  · rw [State.rcHost, pushRead_hostRc, ← State.rcHost, readEffect_rcHost hv' hrc]
  · rw [State.rcSpx1, pushRead_spx1Rc, ← State.rcSpx1, readEffect_rcSpx1 hv' hrc]
  · rw [pushRead_win, hwin]
  · rw [pushRead_hbm, hreg.1, hevents.1]
  · rw [pushRead_reported, hreported, hostTlps_reported]
  · rw [pushRead_msgs, hmsgs]
  · have hcut' : (readEffect m a r.rc (hostTlps m false s)).spx1.cut = false := by rw [hreg.1, hostTlps_spx1, hcut]
    rw [(pushRead_regs m a _ hcut').1, hreg.1, hevents.1]

/-! ### Latching reads -/

theorem State.hold_setHold (s : State) (m : Master) (a b : Nat) (v : Word) :
    (s.setHold m a v).hold m b = if b = a then v else s.hold m b := by
  unfold State.setHold State.hold
  cases isSpx1 m <;> exact tabGet_tabSet _ _ _ _ _

/-- After a run of latches every register on the list holds its value; the holds of the rest stay. -/
theorem foldl_setHold_hold (m : Master) (v : Nat → Word) (l : List Nat) (s : State) (b : Nat) :
    (l.foldl (fun t c => t.setHold m c (v c)) s).hold m b = if b ∈ l then v b else s.hold m b := by
  induction l generalizing s with
  | nil => rfl
  | cons c l ih =>
    rw [List.foldl_cons, ih, State.hold_setHold]
    by_cases hl : b ∈ l
    · rw [if_pos hl, if_pos (List.mem_cons_of_mem c hl)]
    · by_cases hc : b = c
      · rw [if_neg hl, if_pos hc, if_pos (hc ▸ List.mem_cons_self), hc]
      · rw [if_neg hl, if_neg hc, if_neg (by simp [hc, hl])]

theorem latchReads_hold {m : Master} {a b : Nat} (s : State) (h : b ∈ latchedBy a) :
    (latchReads m a s).hold m b = s.latchValue m a b := by
  unfold latchReads
  rw [foldl_setHold_hold, if_pos h]

/-- What a counter's read shows is no other register's. -/
def inCounterView (a : Nat) : Bool := 0x68000 ≤ a && a < 0x68800 && a % 32 = 4

/-- `s` with the RC copies, counters, windows, messages and reports of `t`. -/
def State.withEventsOf (s t : State) : State :=
  { s with
    hostRc := t.hostRc, spx1Rc := t.spx1Rc, evcs := t.evcs, win := t.win, msgs := t.msgs, reported := t.reported }

section
variable (s t : State)

@[simp] theorem State.withEventsOf_reg (a : Nat) : (s.withEventsOf t).reg a = s.reg a := rfl
@[simp] theorem State.withEventsOf_straps : (s.withEventsOf t).straps = s.straps := rfl
@[simp] theorem State.withEventsOf_laceMaster : (s.withEventsOf t).laceMaster = s.laceMaster := rfl
@[simp] theorem State.withEventsOf_linkUp : (s.withEventsOf t).linkUp = s.linkUp := rfl
@[simp] theorem State.withEventsOf_feCopy (m : Master) : (s.withEventsOf t).feCopy m = s.feCopy m := rfl
@[simp] theorem State.withEventsOf_viewRing (a : Nat) : (s.withEventsOf t).viewRing a = s.viewRing a := rfl
@[simp] theorem State.withEventsOf_viewCal (a : Nat) : (s.withEventsOf t).viewCal a = s.viewCal a := rfl
@[simp] theorem State.withEventsOf_viewNvm (a : Nat) : (s.withEventsOf t).viewNvm a = s.viewNvm a := rfl
@[simp] theorem State.withEventsOf_viewLedg (a : Nat) : (s.withEventsOf t).viewLedg a = s.viewLedg a := rfl
@[simp] theorem State.withEventsOf_viewChan (a : Nat) : (s.withEventsOf t).viewChan a = s.viewChan a := rfl
@[simp] theorem State.withEventsOf_viewAvail (n : Nat) : (s.withEventsOf t).viewAvail n = s.viewAvail n := rfl

/-- Events and reports show in the counters' CNT_L alone. -/
theorem State.withEventsOf_view (m : Master) {a : Nat} (h : inCounterView a = false) :
    (s.withEventsOf t).view m a = s.view m a := by
  unfold inCounterView at h
  simp only [State.view, h, Bool.false_eq_true, if_false, withEventsOf_reg, withEventsOf_straps,
    withEventsOf_laceMaster, withEventsOf_linkUp, withEventsOf_feCopy, withEventsOf_viewRing, withEventsOf_viewCal,
    withEventsOf_viewNvm, withEventsOf_viewLedg, withEventsOf_viewChan, withEventsOf_viewAvail]
  rfl

end

theorem State.eventsOnly.eq_withEventsOf {s t : State} (h : s.eventsOnly t) (hr : t.reported = s.reported) :
    t = s.withEventsOf t := by
  refine h.1.trans ?_
  unfold State.withEventsOf
  rw [hr]

theorem State.withEventsOf_withEventsOf (s t u : State) : (s.withEventsOf t).withEventsOf u = s.withEventsOf u := rfl

theorem countReport_eq_withEventsOf (s : State) (src n rsrc addr : Nat) :
    (s.count src n).report rsrc addr = s.withEventsOf ((s.count src n).report rsrc addr) := by
  obtain ⟨t, ht⟩ : ∃ t, s.count src n = t := ⟨_, rfl⟩
  have hframe : s.eventsOnly t := ht ▸ count_eventsOnly s src n
  rw [ht, hframe.1]
  rfl

theorem reportVotes_eq_withEventsOf (a : Nat) (s : State) : reportVotes a s = s.withEventsOf (reportVotes a s) := by
  unfold reportVotes
  generalize List.range (s.disagreements a) = l
  induction l generalizing s with
  | nil => rfl
  | cons x l ih =>
    rw [List.foldl_cons]
    refine (ih _).trans ?_
    generalize List.foldl _ _ l = u
    rw [countReport_eq_withEventsOf, State.withEventsOf_withEventsOf]

theorem view_reportVotes (m : Master) {b : Nat} (a : Nat) (s : State) (h : inCounterView b = false) :
    (reportVotes a s).view m b = s.view m b := by
  rw [reportVotes_eq_withEventsOf, State.withEventsOf_view _ _ m h]

theorem mem_of_mem_ite {c : Prop} [Decidable c] {l l' : List Nat} {b : Nat} (h : b ∈ if c then l else l') :
    c ∧ b ∈ l ∨ b ∈ l' := by
  split at h
  · next hc => exact .inl ⟨hc, h⟩
  · exact .inr h

/-- What a read latches lies with the counters' CNT_L or is no register that counters show. -/
theorem latchedBy_cases {a b : Nat} (h : b ∈ latchedBy a) :
    inCounterView a = true ∨ ((a < 0x68000 ∨ 0x68800 ≤ a) ∧ inCounterView b = false) := by
  have outside : b < 0x68000 ∨ 0x68800 ≤ b → inCounterView b = false := fun hb => by
    simp only [inCounterView, Bool.and_eq_false_iff, decide_eq_false_iff_not]
    omega
  have named : ∀ {k : Nat} {l : List Nat}, (k < 0x68000 ∨ 0x68800 ≤ k) → (∀ c ∈ l, inCounterView c = false) →
      a = k ∧ b ∈ l → (a < 0x68000 ∨ 0x68800 ≤ a) ∧ inCounterView b = false := fun hk hl hb => ⟨hb.1 ▸ hk, hl b hb.2⟩
  have next : ∀ {p : Bool}, (p = true → a + 8 < 0x68000 ∨ 0x68800 ≤ a) → p = true ∧ b ∈ [a + 4] →
      (a < 0x68000 ∨ 0x68800 ≤ a) ∧ inCounterView b = false := fun hp hb => by
    have := hp hb.1
    exact ⟨by omega, outside (by rw [List.mem_singleton.1 hb.2]; omega)⟩
  unfold latchedBy at h
  rcases mem_of_mem_ite h with h | h
  · exact .inr (named (by decide) (by decide) h)
  rcases mem_of_mem_ite h with h | h
  · exact .inr (named (by decide) (by decide) h)
  rcases mem_of_mem_ite h with h | h
  · exact .inr (named (by decide) (by decide) h)
  rcases mem_of_mem_ite h with h | h
  · exact .inr (named (by decide) (by decide) h)
  rcases mem_of_mem_ite h with h | h
  · exact .inr (named (by decide) (by decide) h)
  rcases mem_of_mem_ite h with h | h
  · exact .inr (next (by simp only [Bool.and_eq_true, decide_eq_true_eq]; omega) h)
  rcases mem_of_mem_ite h with h | h
  · exact .inr (next (by simp only [Bool.and_eq_true, decide_eq_true_eq]; omega) h)
  rcases mem_of_mem_ite h with h | h
  · exact .inr (next (by simp only [Bool.and_eq_true, decide_eq_true_eq]; omega) h)
  rcases mem_of_mem_ite h with ⟨c, -⟩ | h
  · exact .inl c
  rcases mem_of_mem_ite h with ⟨c, h⟩ | h
  · simp only [Bool.and_eq_true, decide_eq_true_eq] at c
    refine .inr ⟨by omega, outside (.inr ?_)⟩
    rcases mem_of_mem_ite h with ⟨-, h⟩ | h
    · rw [List.mem_singleton.1 h, R.QSEQ_SSN_H, quarterBase]
      omega
    rcases mem_of_mem_ite h with ⟨-, h⟩ | h
    · simp only [List.mem_append, List.mem_cons, List.not_mem_nil, or_false, List.mem_map, List.mem_range] at h
      omega
    rcases mem_of_mem_ite h with ⟨-, h⟩ | h
    · simp only [List.mem_cons, List.not_mem_nil, or_false] at h
      omega
    · exact absurd h List.not_mem_nil
  · exact absurd h List.not_mem_nil

/-! ### The counters' reads (R46) -/

section
variable (m : Master) (n : Fin 64) (s : State)

theorem evcCntL_addr : R.EVC_CNT_L n.val = 0x68004 + 32 * n.val := by
  unfold R.EVC_CNT_L
  omega

/-- CNT_L lies in no block whose registers are shown from elsewhere but its own. -/
theorem view_cntL : s.view m (R.EVC_CNT_L n.val) = word (s.evcView m n.val) := by
  have hn := n.isLt
  have hindex : (R.EVC_CNT_L n.val - 0x68000) / 32 = n.val := by rw [evcCntL_addr]; omega
  unfold State.view
  rw [if_neg (by rw [evcCntL_addr, R.CHIP_STRAP]; omega), if_neg (by rw [evcCntL_addr, R.CLK_XO_DLY]; omega),
    if_neg (by rw [evcCntL_addr, R.LACE_STAT]; omega), if_neg (by rw [evcCntL_addr, R.HOST_LINK_STAT]; omega),
    if_neg (by simp only [evcCntL_addr, Bool.and_eq_true, decide_eq_true_eq]; omega),
    if_neg (by simp only [evcCntL_addr, Bool.and_eq_true, decide_eq_true_eq]; omega),
    if_neg (by simp only [evcCntL_addr, Bool.and_eq_true, decide_eq_true_eq]; omega),
    if_neg (by simp only [evcCntL_addr, Bool.and_eq_true, decide_eq_true_eq]; omega),
    if_neg (by simp only [evcCntL_addr, Bool.and_eq_true, decide_eq_true_eq]; omega),
    if_pos (by simp only [evcCntL_addr, Bool.and_eq_true, decide_eq_true_eq]; omega), hindex]
  rfl

theorem heldReg_cntL : heldReg (R.EVC_CNT_L n.val) = false := by
  revert n
  decide

theorem latchedBy_cntL : latchedBy (R.EVC_CNT_L n.val) = [R.EVC_CNT_M n.val, R.EVC_CNT_H n.val] := by
  revert n
  decide

theorem disagreements_cntL : s.disagreements (R.EVC_CNT_L n.val) = 0 := by
  unfold State.disagreements
  rw [plainReg_row (plain_EVC_CNT_L n)]
  rfl

theorem readValue_cntL : s.readValue m (R.EVC_CNT_L n.val) 0 = word (s.evcView m n.val) := by
  have hn := n.isLt
  unfold State.readValue
  dsimp only
  rw [heldReg_cntL, if_neg (by rw [evcCntL_addr, R.FLT_FE_SRC]; omega), if_neg (by simp),
    if_neg (by simp only [evcCntL_addr, Bool.and_eq_true, decide_eq_true_eq]; omega), view_cntL]
  rw [show BitVec.ofNat 16 0 = 0#16 from rfl, BitVec.not_zero, BitVec.and_allOnes, BitVec.and_zero, BitVec.or_zero]

theorem rebaseCounter_cntL : rebaseCounter m (R.EVC_CNT_L n.val) s =
    if s.bit (F.EVC_SEL_RDCLR n.val) then
      s.setEvc n.val (if isSpx1 m then { s.evc n.val with spx1Base := (s.evc n.val).count }
        else { s.evc n.val with hostBase := (s.evc n.val).count })
    else s := by
  have hn := n.isLt
  have hindex : (R.EVC_CNT_L n.val - 0x68000) / 32 = n.val := by rw [evcCntL_addr]; omega
  unfold rebaseCounter
  rw [if_pos (by simp only [evcCntL_addr, Bool.and_eq_true, decide_eq_true_eq]; omega), hindex]

theorem latchValue_cntL (i : Nat) : s.latchValue m (R.EVC_CNT_L n.val) (R.EVC_CNT_L n.val + 4 * i) =
    word (s.evcView m n.val / 2 ^ (16 * i)) := by
  have hn := n.isLt
  have hindex : (R.EVC_CNT_L n.val - 0x68000) / 32 = n.val := by rw [evcCntL_addr]; omega
  unfold State.latchValue
  rw [if_pos (by simp only [evcCntL_addr, Bool.and_eq_true, decide_eq_true_eq]; omega), hindex, Nat.add_sub_cancel_left,
    Nat.mul_div_cancel_left i (by decide)]

/-- A read of CNT_L by a master that latches. -/
theorem readEffect_cntL {m : Master} (h : clears m = true) : readEffect m (R.EVC_CNT_L n.val) 0 s =
    rebaseCounter m (R.EVC_CNT_L n.val) (rearmCaptures m (R.EVC_CNT_L n.val) (latchReads m (R.EVC_CNT_L n.val) s)) := by
  rw [readEffect_of_clears _ _ _ h, reportVotes_of_agreeing (disagreements_cntL n s)]
  rfl

theorem State.hold_congr {s t : State} {m : Master} (hh : t.holdH = s.holdH) (hs : t.holdS = s.holdS) (b : Nat) :
    t.hold m b = s.hold m b := by
  unfold State.hold
  rw [hh, hs]

end

/-- A counter rebased on its count shows 0 to that reader (R46). -/
theorem evcView_rebase (m : Master) (n : Nat) (s : State) :
    (s.setEvc n (if isSpx1 m then { s.evc n with spx1Base := (s.evc n).count }
      else { s.evc n with hostBase := (s.evc n).count })).evcView m n = 0 := by
  unfold State.evcView
  rw [State.evc_setEvc_same]
  cases isSpx1 m <;> simp

/-- The holds that stand after a read are those that it latched. -/
theorem readEffect_hold {m : Master} {a b : Nat} (rc : Nat) (s : State) (h : clears m = true) (hb : b ∈ latchedBy a) :
    (readEffect m a rc s).hold m b = (reportVotes a s).latchValue m a b := by
  rw [readEffect_of_clears a rc s h, State.hold_congr (s := latchReads m a (reportVotes a s)) (by simp) (by simp), latchReads_hold _ hb]

theorem readEffect_holds_of_keeps {m : Master} (a rc : Nat) (s : State) (h : clears m = false) :
    (readEffect m a rc s).holdH = s.holdH ∧ (readEffect m a rc s).holdS = s.holdS := by
  rw [readEffect_of_keeps a rc s h, reportVotes_eq_withEventsOf]
  exact ⟨rfl, rfl⟩

theorem latchValue_reportVotes (m : Master) {a b : Nat} (s : State) (hb : b ∈ latchedBy a) :
    (reportVotes a s).latchValue m a b = s.latchValue m a b := by
  rcases latchedBy_cases hb with ha | ⟨ha, hview⟩
  · simp only [inCounterView, Bool.and_eq_true, decide_eq_true_eq] at ha
    have hn : a = R.EVC_CNT_L (⟨(a - 0x68000) / 32, by omega⟩ : Fin 64).val := by
      rw [evcCntL_addr]
      dsimp only
      omega
    rw [hn, reportVotes_of_agreeing (disagreements_cntL _ s)]
  · unfold State.latchValue
    rw [if_neg (by simp only [Bool.and_eq_true, decide_eq_true_eq]; omega),
      if_neg (by simp only [Bool.and_eq_true, decide_eq_true_eq]; omega), view_reportVotes m a s hview]

/-- What a read of CNT_L does to the counters. -/
theorem readEffect_cntL_evcs (m : Master) (n : Fin 64) (s : State) :
    ((readEffect m (R.EVC_CNT_L n.val) 0 s).evc n.val).count = (s.evc n.val).count ∧
      (∀ k, k ≠ n.val → (readEffect m (R.EVC_CNT_L n.val) 0 s).evc k = s.evc k) ∧
      (clears m = true → s.bit (F.EVC_SEL_RDCLR n.val) = true →
        (readEffect m (R.EVC_CNT_L n.val) 0 s).evcView m n.val = 0) ∧
      (clears m = false ∨ s.bit (F.EVC_SEL_RDCLR n.val) = false →
        (readEffect m (R.EVC_CNT_L n.val) 0 s).evcs = s.evcs) := by
  cases hc : clears m with
  | false =>
    rw [readEffect_of_keeps _ _ _ hc, reportVotes_of_agreeing (disagreements_cntL n s)]
    exact ⟨rfl, fun _ _ => rfl, nofun, fun _ => rfl⟩
  | true =>
    rw [readEffect_cntL n s hc, rebaseCounter_cntL]
    obtain ⟨t, ht⟩ : ∃ t, rearmCaptures m (R.EVC_CNT_L n.val) (latchReads m (R.EVC_CNT_L n.val) s) = t := ⟨_, rfl⟩
    have hevcs : t.evcs = s.evcs := by rw [← ht, rearmCaptures_evcs, latchReads_evcs]
    have hevc : ∀ k, t.evc k = s.evc k := fun k => by rw [State.evc, hevcs, ← State.evc]
    have hbit : t.bit (F.EVC_SEL_RDCLR n.val) = s.bit (F.EVC_SEL_RDCLR n.val) := by
      have hr := (State.readOnly_trans (latchReads_readOnly m (R.EVC_CNT_L n.val) s)
        (rearmCaptures_readOnly m (R.EVC_CNT_L n.val) _)).regsKept
      rw [State.bit, State.fld, ← ht, hr _ List.not_mem_nil, ← State.fld, ← State.bit]
    rw [ht, hbit]
    cases hd : s.bit (F.EVC_SEL_RDCLR n.val) with
    | false => exact ⟨by rw [if_neg Bool.false_ne_true, hevc], fun k _ => hevc k, nofun, fun _ => hevcs⟩
    | true =>
      rw [if_pos rfl]
      refine ⟨?_, fun k hk => ?_, fun _ _ => evcView_rebase m n.val t, by simp⟩
      · rw [State.evc_setEvc_same, ← hevc]
        cases isSpx1 m <;> rfl
      · rw [State.evc_setEvc, if_neg hk, hevc]

@[simp] theorem pushRead_evc (m : Master) (a : Nat) (v : Dword) (s : State) (k : Nat) :
    (pushRead m a v s).evc k = s.evc k := by
  rw [State.evc, pushRead_evcs, ← State.evc]

@[simp] theorem pushRead_evcView (m m' : Master) (a : Nat) (v : Dword) (s : State) (k : Nat) :
    (pushRead m a v s).evcView m' k = s.evcView m' k := by
  rw [State.evcView, pushRead_evc, ← State.evcView]

@[simp] theorem pushRead_hold (m m' : Master) (a : Nat) (v : Dword) (s : State) (b : Nat) :
    (pushRead m a v s).hold m' b = s.hold m' b :=
  State.hold_congr (pushRead_holdH _ _ _ _) (pushRead_holdS _ _ _ _) b

/-- The upper halves of the count, latched by the read of the low one (R46). -/
theorem readEffect_cntL_holds {m : Master} (n : Fin 64) (s : State) (hc : clears m = true) :
    (readEffect m (R.EVC_CNT_L n.val) 0 s).hold m (R.EVC_CNT_M n.val) = word (s.evcView m n.val / 2 ^ 16) ∧
      (readEffect m (R.EVC_CNT_L n.val) 0 s).hold m (R.EVC_CNT_H n.val) = word (s.evcView m n.val / 2 ^ 32) := by
  have hM : R.EVC_CNT_M n.val = R.EVC_CNT_L n.val + 4 * 1 := by unfold R.EVC_CNT_M R.EVC_CNT_L; omega
  have hH : R.EVC_CNT_H n.val = R.EVC_CNT_L n.val + 4 * 2 := by unfold R.EVC_CNT_H R.EVC_CNT_L; omega
  rw [readEffect_hold 0 s hc (by simp [latchedBy_cntL]), readEffect_hold 0 s hc (by simp [latchedBy_cntL]),
    reportVotes_of_agreeing (disagreements_cntL n s), hM, hH, latchValue_cntL, latchValue_cntL]
  exact ⟨rfl, rfl⟩

/-! ### Reads of what is no register -/

theorem busRead_unmapped {s : State} {m : Master} {a : Nat} (h : s.Serves m a) (ha : busAddr a = a)
    (hm : mapped a = false) : busRead m a s = pushRead m a 0 ((hostTlps m false s).count 0x8F 1) := by
  unfold busRead
  rw [ha, access_eq (h.events (hostTlps_eventsOnly m false s))]
  simp [serve, serveRead, State.readDword, hm]

theorem busRead_window {s : State} {m : Master} {a : Nat} (h : s.Serves m a) (ha : busAddr a = a)
    (hw : isWindow a = true) :
    busRead m a s = pushRead m a ((hostTlps m false s).winRead a) (hostTlps m false s) := by
  have h' := h.events (hostTlps_eventsOnly m false s)
  unfold busRead
  rw [ha, access_eq h']
  simp [serve, serveRead, State.readDword, mapped, hw, h'.region]

/-- Settles O11, by the effect of a read part by part: what it latches first, then what it rebases. -/
theorem latchedReads : Obligations.LatchedReads := by
  intro s m
  have hevents := hostTlps_eventsOnly m false s
  have hmemory : s.memoryKept (hostTlps m false s) := hevents.readOnly.memoryKept
  have hregs : s.regsKept [] (hostTlps m false s) := hevents.readOnly.regsKept
  have effect (a rc : Nat) := State.readOnly_trans hevents.readOnly (readEffect_readOnly m a rc (hostTlps m false s))
  have cut {t : State} (h : s.readOnly t) (hcut : s.spx1.cut = false) : t.spx1.cut = false := by rw [h.1, hcut]
  refine ⟨fun n hserves => ?_, fun a r hr h4 h24 hw hserves => ?_, fun a h4 h24 hm hserves => ?_, fun a h4 h24 hw hserves => ?_⟩
  · have heff := effect (R.EVC_CNT_L n.val) 0
    obtain ⟨hcount, hother, hrebase, hkeep⟩ := readEffect_cntL_evcs m n (hostTlps m false s)
    have hbit : (hostTlps m false s).bit (F.EVC_SEL_RDCLR n.val) = s.bit (F.EVC_SEL_RDCLR n.val) := by
      rw [State.bit, State.fld, hregs _ List.not_mem_nil, ← State.fld, ← State.bit]
    refine ⟨_, rfl, ?_⟩
    rw [busRead_plain (plain_EVC_CNT_L n) hserves, readValue_cntL]
    simp only [pushRead_hold, pushRead_evcView, pushRead_evcs, pushRead_evc, pushRead_holdH, pushRead_holdS]
    refine ⟨?_, fun hc => ?_, fun hc => ?_, hcount, fun hk => hkeep (by rwa [hbit]), hother,
      pushRead_memoryKept m _ _ heff.memoryKept, fun hcut => pushRead_regsKept m _ _ heff.regsKept (cut heff hcut)⟩
    · rw [pushRead_reads, heff.1]
      rfl
    · obtain ⟨hM, hH⟩ := readEffect_cntL_holds n (hostTlps m false s) hc
      exact ⟨hM, hH, fun hd => hrebase hc (by rwa [hbit])⟩
    · obtain ⟨hh, hs⟩ := readEffect_holds_of_keeps (R.EVC_CNT_L n.val) 0 (hostTlps m false s) hc
      rw [hh, hs, hevents.1]
      exact ⟨rfl, rfl⟩
  · have heff := effect a r.rc
    refine ⟨_, rfl, ?_⟩
    rw [busRead_eq hserves (busAddr_eq h24 h4) hw hr, readDword_eq (hserves.events hevents) hw hr]
    refine ⟨?_, fun b hb hc => ?_, fun hc => ?_, pushRead_memoryKept m a _ heff.memoryKept, fun hcut =>
      pushRead_regsKept m a _ heff.regsKept (cut heff hcut)⟩
    · rw [pushRead_reads, heff.1]
    · rw [pushRead_hold, readEffect_hold r.rc _ hc hb,
        latchValue_reportVotes m _ hb]
    · obtain ⟨hh, hs⟩ := readEffect_holds_of_keeps a r.rc (hostTlps m false s) hc
      rw [pushRead_holdH, pushRead_holdS, hh, hs, hevents.1]
      exact ⟨rfl, rfl⟩
  · have hcount := State.eventsOnly_trans hevents (count_eventsOnly (hostTlps m false s) 0x8F 1)
    refine ⟨_, rfl, ?_⟩
    rw [busRead_unmapped hserves (busAddr_eq h24 h4) hm]
    refine ⟨?_, pushRead_memoryKept m a _ hcount.readOnly.memoryKept, fun hcut =>
      pushRead_regsKept m a _ hcount.readOnly.regsKept (cut hcount.readOnly hcut)⟩
    rw [pushRead_reads, hcount.1]
  · refine ⟨_, rfl, ?_⟩
    rw [busRead_window hserves (busAddr_eq h24 h4) hw]
    refine ⟨?_, pushRead_memoryKept m a _ hmemory, fun hcut => pushRead_regsKept m a _ hregs (cut hevents.readOnly hcut)⟩
    rw [pushRead_reads, hostTlps_reads]

end Sys2Proof.Machine
end

section
/-! Event counters cleared and copied (O10). -/

namespace Sys2Proof.Machine

/-! ### Registers and events -/

/-- From `s` to `t` nothing changes but registers and what events touch; the windows keep all but the pending bits. -/
def State.storesOnly (s t : State) : Prop :=
  t = { s with
    regs := t.regs, copyB := t.copyB, copyC := t.copyC, hostRc := t.hostRc, spx1Rc := t.spx1Rc, win := t.win,
    msgs := t.msgs, evcs := t.evcs } ∧
  ∀ a, a < 0x47000 ∨ 0x47100 ≤ a → t.winGet a = s.winGet a

theorem State.storesOnly_refl (s : State) : s.storesOnly s := ⟨rfl, fun _ _ => rfl⟩

theorem State.storesOnly_trans {s t u : State} (h1 : s.storesOnly t) (h2 : t.storesOnly u) : s.storesOnly u := by
  refine ⟨h2.1.trans ?_, fun a ha => (h2.2 a ha).trans (h1.2 a ha)⟩
  rw [h1.1]

theorem State.eventsOnly.storesOnly {s t : State} (h : s.eventsOnly t) : s.storesOnly t := by
  refine ⟨h.1.trans ?_, h.2⟩
  rw [h.1]

theorem setReg_storesOnly (s : State) (a : Nat) (v : Word) : s.storesOnly (s.setReg a v) := ⟨rfl, fun _ _ => rfl⟩

theorem put_storesOnly (w : Wr) (s : State) : s.storesOnly (w.put s) := by
  rw [put_frame]
  exact ⟨rfl, fun _ _ => rfl⟩

theorem State.storesOnly.memoryKept {s t : State} (h : s.storesOnly t) : s.memoryKept t := ⟨by rw [h.1], h.2⟩

theorem foldl_storesOnly {β : Type} {f : State → β → State} (hf : ∀ (s : State) x, s.storesOnly (f s x)) (l : List β)
    (s : State) : s.storesOnly (l.foldl f s) :=
  List.foldlRecOn l f s.storesOnly_refl fun t h x _ => State.storesOnly_trans h (hf t x)

/-! ### Folds -/

/-- What one element of a list establishes and no element destroys holds after the whole list. -/
theorem foldl_establishes {β : Type} {P : State → Prop} {f : State → β → State} {x : β} (hset : ∀ s, P (f s x))
    (hkeep : ∀ s y, P s → P (f s y)) (l : List β) (s : State) (hx : x ∈ l) : P (l.foldl f s) := by
  induction l generalizing s with
  | nil => exact absurd hx List.not_mem_nil
  | cons y l ih =>
    rcases List.mem_cons.1 hx with rfl | hx
    · exact List.foldlRecOn l f (hset s) fun t h y _ => hkeep t y h
    · exact ih _ hx

/-! ### A snapshot (R47) -/

/-- Counter n's count stands in its SNAP registers, shown valid to both readers. -/
def State.snapHolds (t : State) (n c : Nat) : Prop :=
  t.reg (R.EVC_SNAP_L n) = BitVec.ofNat 16 c ∧ t.reg (R.EVC_SNAP_M n) = BitVec.ofNat 16 (c / 2 ^ 16) ∧
    t.reg (R.EVC_SNAP_H n) = BitVec.ofNat 16 (c / 2 ^ 32) ∧ t.flagged (F.EVC_STAT_SNAP_VALID n)

theorem snapOne_storesOnly (s0 : State) (n : Nat) (s : State) : s.storesOnly (snapOne s0 n s) := by
  unfold snapOne
  split
  · exact State.storesOnly_trans (State.storesOnly_trans (State.storesOnly_trans (setReg_storesOnly _ _ _)
      (setReg_storesOnly _ _ _)) (setReg_storesOnly _ _ _)) (raise_eventsOnly _ _).storesOnly
  · exact s.storesOnly_refl

theorem snapOne_reg (s0 : State) (n : Nat) (s : State) (a : Nat) : (snapOne s0 n s).reg a =
    if s0.bit (F.EVC_SEL_SNAP_EN n) = true then
      if a = R.EVC_SNAP_H n then BitVec.ofNat 16 ((s0.evc n).count / 2 ^ 32)
      else if a = R.EVC_SNAP_M n then BitVec.ofNat 16 ((s0.evc n).count / 2 ^ 16)
      else if a = R.EVC_SNAP_L n then BitVec.ofNat 16 (s0.evc n).count else s.reg a
    else s.reg a := by
  unfold snapOne
  split
  · simp only [State.raise_acc_reg, State.reg_setReg]
  · rfl

theorem snapOne_rcGrows (s0 : State) (n : Nat) (s : State) : s.rcGrows (snapOne s0 n s) := by
  unfold snapOne
  split
  · exact State.rcGrows_trans (State.rcGrows_of_eq (t := ((s.setReg _ _).setReg _ _).setReg _ _) rfl rfl) (raise_rcGrows _ _)
  · exact s.rcGrows_refl

theorem snapOne_sets {s0 : State} {n : Nat} (h : s0.bit (F.EVC_SEL_SNAP_EN n) = true) (s : State) :
    (snapOne s0 n s).snapHolds n (s0.evc n).count := by
  refine ⟨?_, ?_, ?_, ?_⟩
  · rw [snapOne_reg, if_pos h, if_neg (by unfold R.EVC_SNAP_L R.EVC_SNAP_H; omega),
      if_neg (by unfold R.EVC_SNAP_L R.EVC_SNAP_M; omega), if_pos rfl]
  · rw [snapOne_reg, if_pos h, if_neg (by unfold R.EVC_SNAP_M R.EVC_SNAP_H; omega), if_pos rfl]
  · rw [snapOne_reg, if_pos h, if_pos rfl]
  · unfold snapOne
    rw [if_pos h]
    exact raise_flagged _ _

theorem snapOne_keeps {s0 : State} {n : Nat} (k : Nat) {s : State} (h : s.snapHolds n (s0.evc n).count) :
    (snapOne s0 k s).snapHolds n (s0.evc n).count := by
  by_cases hk : s0.bit (F.EVC_SEL_SNAP_EN k) = true
  · by_cases hn : k = n
    · subst hn
      exact snapOne_sets hk s
    · obtain ⟨hL, hM, hH, hflag⟩ := h
      have apart : ∀ a ∈ [R.EVC_SNAP_L n, R.EVC_SNAP_M n, R.EVC_SNAP_H n], (snapOne s0 k s).reg a = s.reg a := by
        intro a ha
        simp only [List.mem_cons, List.not_mem_nil, or_false, R.EVC_SNAP_L, R.EVC_SNAP_M, R.EVC_SNAP_H] at ha
        rw [snapOne_reg, if_pos hk, if_neg (by unfold R.EVC_SNAP_H; omega), if_neg (by unfold R.EVC_SNAP_M; omega),
          if_neg (by unfold R.EVC_SNAP_L; omega)]
      refine ⟨?_, ?_, ?_, (snapOne_rcGrows s0 k s).flagged hflag⟩
      · rw [apart _ (by simp), hL]
      · rw [apart _ (by simp), hM]
      · rw [apart _ (by simp), hH]
  · unfold snapOne
    rw [if_neg hk]
    exact h

theorem snapshot_holds {s : State} (n : Fin 64) (h : s.bit (F.EVC_SEL_SNAP_EN n) = true) :
    s.snapshot.snapHolds n (s.evc n).count := by
  unfold State.snapshot forAll
  exact foldl_establishes (P := fun t => t.snapHolds n (s.evc n).count) (f := fun t i => snapOne s i t)
    (fun t => snapOne_sets h t) (fun t k ht => snapOne_keeps k ht) _ s (List.mem_range.2 n.isLt)

theorem snapshot_storesOnly (s : State) : s.storesOnly s.snapshot := by
  unfold State.snapshot forAll
  exact foldl_storesOnly (f := fun t i => snapOne s i t) (fun t n => snapOne_storesOnly s n t) _ s

/-- A register that no counter taking part has as its SNAP is left alone. -/
theorem snapshot_reg_ne {s : State} {a : Nat} (h : ∀ n : Fin 64, s.bit (F.EVC_SEL_SNAP_EN n) = true →
    a ≠ R.EVC_SNAP_L n ∧ a ≠ R.EVC_SNAP_M n ∧ a ≠ R.EVC_SNAP_H n) : s.snapshot.reg a = s.reg a := by
  unfold State.snapshot forAll
  refine List.foldlRecOn (motive := fun t : State => t.reg a = s.reg a) _ _ rfl fun t ht n hn => ?_
  rw [snapOne_reg]
  split
  · next he =>
    obtain ⟨hL, hM, hH⟩ := h ⟨n, List.mem_range.1 hn⟩ he
    rw [if_neg hH, if_neg hM, if_neg hL, ht]
  · exact ht

/-- With messages off a flag raised is a flag set. -/
theorem raise_of_irq_off {s : State} (f : Fld) (h : s.bit F.HOST_IRQ_CFG_IRQ_EN = false) :
    s.raise f = s.setRc f.addr (fldMask f) := by
  have vectors : ∀ (l : List Nat) (g : State → State), (g s).bit F.HOST_IRQ_CFG_IRQ_EN = false →
      (l.foldl (fun f v => withVec v f) g) s = g s := fun l => by
    induction l with
    | nil => exact fun _ _ => rfl
    | cons v l ih =>
      intro g hg
      have hv := withVec_of_irq_off v g hg
      rw [List.foldl_cons, ih _ (by rw [hv, hg]), hv]
  exact vectors _ _ h

theorem snapOne_evcs (s0 : State) (n : Nat) {s : State} (h : s.bit F.HOST_IRQ_CFG_IRQ_EN = false) :
    (snapOne s0 n s).bit F.HOST_IRQ_CFG_IRQ_EN = false ∧ (snapOne s0 n s).evcs = s.evcs := by
  have hirq : (snapOne s0 n s).reg R.HOST_IRQ_CFG = s.reg R.HOST_IRQ_CFG := by
    rw [snapOne_reg, if_neg (c := R.HOST_IRQ_CFG = R.EVC_SNAP_H n) (by unfold R.HOST_IRQ_CFG R.EVC_SNAP_H; omega),
      if_neg (c := R.HOST_IRQ_CFG = R.EVC_SNAP_M n) (by unfold R.HOST_IRQ_CFG R.EVC_SNAP_M; omega),
      if_neg (c := R.HOST_IRQ_CFG = R.EVC_SNAP_L n) (by unfold R.HOST_IRQ_CFG R.EVC_SNAP_L; omega), ite_self]
  refine ⟨by rw [State.bit, State.fld, show F.HOST_IRQ_CFG_IRQ_EN.addr = R.HOST_IRQ_CFG from rfl, hirq]; exact h, ?_⟩
  unfold snapOne at hirq ⊢
  split
  · next he =>
    rw [if_pos he, State.raise_acc_reg] at hirq
    rw [raise_of_irq_off _ (by rw [State.bit, State.fld, show F.HOST_IRQ_CFG_IRQ_EN.addr = R.HOST_IRQ_CFG from rfl, hirq]; exact h)]
    rfl
  · rfl

/-- With messages off a flag raised counts nothing. -/
theorem snapshot_evcs {s : State} (h : s.bit F.HOST_IRQ_CFG_IRQ_EN = false) : s.snapshot.evcs = s.evcs := by
  unfold State.snapshot forAll
  refine (List.foldlRecOn (motive := fun t : State => t.bit F.HOST_IRQ_CFG_IRQ_EN = false ∧ t.evcs = s.evcs) _ _ ⟨h, rfl⟩
    fun t ht n _ => ?_).2
  obtain ⟨hbit, hevcs⟩ := snapOne_evcs s n ht.1
  exact ⟨hbit, hevcs.trans ht.2⟩

/-! ### The three commands -/

section
variable (m : Master) (mask data : Word) (b : Nat) (s : State)

/-- A write of CLR stores no bit: the counter alone is cleared. -/
theorem applyReg_clr (n : Fin 64) : (applyReg m (R.EVC_SEL n.val) 0x800 0x800 b s).1 =
    ((⟨m, R.EVC_SEL n.val, 0x800, 0x800, 0xF7FF, 0x800, b⟩ : Wr).put s).setEvc n.val {} := by
  have hn := n.isLt
  have hindex : (R.EVC_SEL n.val - 0x68000) / 32 = n.val := by unfold R.EVC_SEL; omega
  rw [applyReg_evc _ _ _ _ (plainReg_row (plain_EVC_SEL n)) (by unfold R.EVC_SEL; omega)]
  unfold wrEvc
  dsimp only
  rw [if_neg (by unfold R.EVC_SEL R.EVC_CTRL; omega), if_pos, hindex]
  · rfl
  · rw [show R.EVC_SEL n.val % 32 = 0 by unfold R.EVC_SEL; omega]
    unfold Wr.start
    dsimp only
    decide

theorem applyReg_clearAll : (applyReg m R.EVC_CTRL 1 1 b s).1 =
    { (⟨m, R.EVC_CTRL, 1, 1, 0xFFFA, 5, b⟩ : Wr).put s with evcs := [] } := by
  rw [applyReg_evc _ _ _ _ (plainReg_row plain_EVC_CTRL) (by decide)]
  unfold wrEvc Wr.start
  dsimp only
  rw [if_pos rfl, if_neg (by decide), if_pos (by decide)]
  rfl

theorem applyReg_snapNow : (applyReg m R.EVC_CTRL 4 4 b s).1 =
    ((⟨m, R.EVC_CTRL, 4, 4, 0xFFFA, 5, b⟩ : Wr).put s).snapshot := by
  rw [applyReg_evc _ _ _ _ (plainReg_row plain_EVC_CTRL) (by decide)]
  unfold wrEvc Wr.start
  dsimp only
  rw [if_pos rfl, if_pos (by decide), if_neg (by decide)]
  rfl

end

/-- The write of a start bit alone: the register keeps its value, and only its MCLK cycle remembers the write. -/
theorem put_noteCycle_regsKept {s : State} (m : Master) (c : Nat) (x : Word) (w : Wr) (hw : w.bits = 0) :
    s.regsKept [] (w.put (noteCycle m c x (hostTlps m true s))) := fun k hk => by
  rw [put_regsKept w _ hw k hk]
  exact (hostTlps_eventsOnly m true s).readOnly.regsKept k hk

/-- Settles O10: CLR and CLEAR_ALL store no register bit and empty counters, SNAP_NOW is a snapshot. -/
theorem eventCountersClear : Obligations.EventCountersClear := by
  intro s m
  have hevents := hostTlps_eventsOnly m true s
  refine ⟨fun n htakes => ?_, fun htakes => ?_, fun htakes => ?_⟩
  · have hkept := put_noteCycle_regsKept (s := s) m (R.EVC_SEL n.val) (0x800 &&& BitVec.ofNat 16 0xF7FF)
      ⟨m, R.EVC_SEL n.val, 0x800, 0x800, 0xF7FF, 0x800, granuleNext s.now⟩ (by unfold Wr.bits; dsimp only; decide)
    refine ⟨_, rfl, ?_⟩
    rw [busReg_plain _ _ (plain_EVC_SEL n) htakes, applyReg_clr]
    refine ⟨State.evc_setEvc_same _ _ _, fun k hk => ?_, hkept, ?_⟩
    · rw [State.evc_setEvc, if_neg hk, State.evc, put_evcs]
      rfl
    · rw [put_frame]
      rfl
  · have hkept := put_noteCycle_regsKept (s := s) m R.EVC_CTRL (1 &&& BitVec.ofNat 16 0xFFFA)
      ⟨m, R.EVC_CTRL, 1, 1, 0xFFFA, 5, granuleNext s.now⟩ (by unfold Wr.bits; dsimp only; decide)
    refine ⟨_, rfl, ?_⟩
    rw [busReg_plain _ _ plain_EVC_CTRL htakes, applyReg_clearAll]
    refine ⟨fun _ => rfl, hkept, ?_⟩
    rw [put_frame]
    rfl
  · have hkept := put_noteCycle_regsKept (s := s) m R.EVC_CTRL (4 &&& BitVec.ofNat 16 0xFFFA)
      ⟨m, R.EVC_CTRL, 4, 4, 0xFFFA, 5, granuleNext s.now⟩ (by unfold Wr.bits; dsimp only; decide)
    obtain ⟨u, hu⟩ : ∃ u, (⟨m, R.EVC_CTRL, 4, 4, 0xFFFA, 5, granuleNext s.now⟩ : Wr).put
        (noteCycle m R.EVC_CTRL (4 &&& BitVec.ofNat 16 0xFFFA) (hostTlps m true s)) = u := ⟨_, rfl⟩
    rw [hu] at hkept
    have hevcs : u.evcs = (hostTlps m true s).evcs := by rw [← hu, put_evcs]; rfl
    have hwin : u.win = (hostTlps m true s).win := by rw [← hu, put_win]; rfl
    have hbit : ∀ f, u.bit f = s.bit f := fun f => by rw [State.bit, State.fld, hkept _ List.not_mem_nil, ← State.fld, ← State.bit]
    have hstores := snapshot_storesOnly u
    refine ⟨_, rfl, ?_⟩
    rw [busReg_plain _ _ plain_EVC_CTRL htakes, applyReg_snapNow, hu]
    refine ⟨fun n hn => ?_, fun a ha => ?_, fun hirq => ?_, ?_, ?_⟩
    · rw [show (hostTlps m true s).evc n.val = u.evc n.val by rw [State.evc, ← hevcs, ← State.evc]]
      exact snapshot_holds n (by rw [hbit, hn])
    · rw [snapshot_reg_ne fun n hn => ha n (by rw [← hbit, hn]), hkept _ List.not_mem_nil]
    · rw [snapshot_evcs (by rw [hbit, hirq]), hevcs]
    · refine ⟨by rw [hstores.1, ← hu, put_frame]; exact (hevents.readOnly.memoryKept).1, fun a ha => ?_⟩
      rw [hstores.2 a ha, State.winGet, hwin, ← State.winGet, hevents.2 a ha]
    · refine hstores.1.trans ?_
      have hframe : u = { s with
          regs := u.regs, copyB := u.copyB, copyC := u.copyC, hostRc := u.hostRc, spx1Rc := u.spx1Rc,
          cycle := u.cycle, win := u.win, msgs := u.msgs, evcs := u.evcs } := by
        rw [← hu, put_frame, noteCycle, hevents.1]
      have hcycle : u.snapshot.cycle = u.cycle := by rw [hstores.1]
      generalize u.snapshot = t at hcycle ⊢
      rw [hcycle, hframe]

end Sys2Proof.Machine
end

section
/-! Transaction units (R40 to R44): what each operation stores, captured writes (O20) and the commands (O19). -/

namespace Sys2Proof.Machine

/-! ### A full write that the fabric serves -/

/-- Nothing of this write asks what other masters wrote in its MCLK cycle: only an applied write does (R35). -/
theorem busReg_of_serves {s : State} {m : Master} {a : Nat} {r : RegRow} (mask data : Word) (h : s.Serves m a)
    (hb : s.bootRefuses m a = false) (ha : busAddr a = a) (hw : isWindow a = false) (hr : rowOf a = some r) :
    busWrite m a 0xF (mask ++ data) s = regWrite m a (mask ++ data) (hostTlps m true s) := by
  have hevents := hostTlps_eventsOnly m true s
  have h' := h.events hevents
  have hb' : (hostTlps m true s).bootRefuses m a = false := by rw [hevents.1]; exact hb
  unfold busWrite
  rw [ha, access_eq h']
  simp [serve, serveWrite, State.discards, mapped, hr, hw, h'.region, hb']

/-! ### What the operations on a unit leave alone -/

/-- From `s` to `t` nothing changes but registers, what events touch and the transaction units. -/
def State.txnsOnly (s t : State) : Prop :=
  t = { s with
    regs := t.regs, copyB := t.copyB, copyC := t.copyC, hostRc := t.hostRc, spx1Rc := t.spx1Rc, win := t.win,
    msgs := t.msgs, evcs := t.evcs, txns := t.txns } ∧
  ∀ a, a < 0x47000 ∨ 0x47100 ≤ a → t.winGet a = s.winGet a

theorem State.txnsOnly_refl (s : State) : s.txnsOnly s := ⟨rfl, fun _ _ => rfl⟩

theorem State.txnsOnly_trans {s t u : State} (h1 : s.txnsOnly t) (h2 : t.txnsOnly u) : s.txnsOnly u := by
  refine ⟨h2.1.trans ?_, fun a ha => (h2.2 a ha).trans (h1.2 a ha)⟩
  rw [h1.1]

theorem State.storesOnly.txnsOnly {s t : State} (h : s.storesOnly t) : s.txnsOnly t := by
  refine ⟨h.1.trans ?_, h.2⟩
  rw [h.1]

theorem State.txnsOnly.memoryKept {s t : State} (h : s.txnsOnly t) : s.memoryKept t := ⟨by rw [h.1], h.2⟩

section
variable (u : Nat) (s : State)

theorem setTxnState_txnsOnly (st owner : Nat) : s.txnsOnly (setTxnState u st owner s) :=
  (setReg_storesOnly s _ _).txnsOnly

theorem setTxnQueue_txnsOnly (l : List PendWrite) : s.txnsOnly (setTxnQueue u l s) := ⟨rfl, fun _ _ => rfl⟩

/-! ### What they store -/

@[simp] theorem setTxnState_txn (st owner k : Nat) : (setTxnState u st owner s).txn k = s.txn k := rfl

theorem setTxnState_reg (st owner a : Nat) :
    (setTxnState u st owner s).reg a = if a = txnBase u + 8 then BitVec.ofNat 16 (st + 4 * owner) else s.reg a :=
  State.reg_setReg _ _ _ _

theorem setTxnQueue_reg (l : List PendWrite) (a : Nat) :
    (setTxnQueue u l s).reg a = if a = txnBase u + 12 then BitVec.ofNat 16 l.length else s.reg a :=
  State.reg_setReg _ _ _ _

theorem setTxnQueue_txn (l : List PendWrite) (k : Nat) :
    (setTxnQueue u l s).txn k = if k = u then { s.txn u with queue := l, sites := [] } else s.txn k :=
  State.txn_setTxn _ _ _ _

/-- STATE and OWNER read back what was set, in their widths. -/
theorem txnState_setTxnState (st owner : Nat) (hst : st < 4) (ho : owner < 8) :
    txnState (setTxnState u st owner s) u = st ∧ txnOwner (setTxnState u st owner s) u = owner := by
  unfold txnState txnOwner
  rw [setTxnState_reg, if_pos rfl]
  unfold fieldOf
  rw [BitVec.toNat_ofNat]
  omega

theorem txnState_congr {s t : State} {u : Nat} (h : t.reg (txnBase u + 8) = s.reg (txnBase u + 8)) :
    txnState t u = txnState s u ∧ txnOwner t u = txnOwner s u := by
  unfold txnState txnOwner
  rw [h]
  exact ⟨rfl, rfl⟩

theorem txnOwner_lt : txnOwner s u < 8 := Nat.mod_lt _ (by decide)

end

/-- The unit's state, owner, queue and FILL after a change of both: the queue first, as in every command. -/
theorem queueThenState (u st owner : Nat) (l : List PendWrite) (s : State) (hst : st < 4) (ho : owner < 8) :
    let t := setTxnState u st owner (setTxnQueue u l s)
    txnState t u = st ∧ txnOwner t u = owner ∧ (t.txn u).queue = l ∧ t.reg (txnBase u + 12) = BitVec.ofNat 16 l.length ∧
      (∀ a, a ∉ [txnBase u + 8, txnBase u + 12] → t.reg a = s.reg a) ∧ (∀ k, k ≠ u → t.txn k = s.txn k) ∧
      s.txnsOnly t := by
  intro t
  obtain ⟨hstate, howner⟩ := txnState_setTxnState u (setTxnQueue u l s) st owner hst ho
  refine ⟨hstate, howner, ?_, ?_, fun a ha => ?_, fun k hk => ?_,
    State.txnsOnly_trans (setTxnQueue_txnsOnly u s l) (setTxnState_txnsOnly u _ st owner)⟩
  · rw [setTxnState_txn, setTxnQueue_txn, if_pos rfl]
  · rw [setTxnState_reg, if_neg (by omega), setTxnQueue_reg, if_pos rfl]
  · simp only [List.mem_cons, List.not_mem_nil, or_false, not_or] at ha
    rw [setTxnState_reg, if_neg ha.1, setTxnQueue_reg, if_neg ha.2]
  · rw [setTxnState_txn, setTxnQueue_txn, if_neg hk]

/-! ### What events leave -/

theorem State.eventsOnly.reg {s t : State} (h : s.eventsOnly t) (a : Nat) : t.reg a = s.reg a := by rw [h.1]; rfl

theorem State.eventsOnly.txns {s t : State} (h : s.eventsOnly t) : t.txns = s.txns := by rw [h.1]

theorem State.eventsOnly.txn {s t : State} (h : s.eventsOnly t) (k : Nat) : t.txn k = s.txn k := by rw [h.1]; rfl

theorem State.eventsOnly.txnState {s t : State} (h : s.eventsOnly t) (u : Nat) :
    txnState t u = txnState s u ∧ txnOwner t u = txnOwner s u := txnState_congr (h.reg _)

theorem State.eventsOnly.txnsOnly {s t : State} (h : s.eventsOnly t) : s.txnsOnly t := h.storesOnly.txnsOnly

/-- A flag of the unit, and the count that goes with it. -/
theorem raiseMask_count_eventsOnly (s : State) (a : Nat) (m : Word) (src n : Nat) :
    s.eventsOnly ((s.raiseMask a m).count src n) :=
  State.eventsOnly_trans (raiseMask_eventsOnly s a m) (count_eventsOnly _ src n)

theorem count_rcHost_keeps {s : State} {a : Nat} {m : Word} (src n : Nat) (h : s.rcHost a &&& m = m) :
    (s.count src n).rcHost a &&& m = m := by
  rw [BitVec.and_comm] at h ⊢
  exact and_eq_of_and_eq h (by simpa [BitVec.and_comm] using (count_rcGrows s src n a).1)

/-! ### Captured writes -/

section
variable {s : State} {u : Nat} (w : PendWrite)

theorem captureWrite_open (h : txnState s u = 1) (hl : (s.txn u).queue.length < 1024) :
    captureWrite u w s = setTxnQueue u ((s.txn u).queue ++ [w]) s := by
  unfold captureWrite
  rw [h]
  exact if_neg (by omega)

theorem captureWrite_full (h : txnState s u = 1) (hl : 1024 ≤ (s.txn u).queue.length) :
    captureWrite u w s =
      ((setTxnState u 3 (txnOwner s u) (setTxnQueue u [] s)).raiseMask (txnBase u + 8) 0x80).count 0xA5 1 := by
  unfold captureWrite
  rw [h]
  exact if_pos hl

theorem captureWrite_pending (h : txnState s u = 2) : captureWrite u w s = s.raiseMask (txnBase u + 8) 0x200 := by
  unfold captureWrite
  rw [h]
  rfl

theorem captureWrite_aborted (h : txnState s u = 3) : captureWrite u w s = s := by
  unfold captureWrite
  rw [h]
  rfl

end

/-- What a captured write stores, whatever the state of its unit. -/
theorem captureWrite_stores (u : Nat) (w : PendWrite) (s : State) :
    s.txnsOnly (captureWrite u w s) ∧ s.regsKept [txnBase u + 8, txnBase u + 12] (captureWrite u w s) ∧
      ∀ k, k ≠ u → (captureWrite u w s).txn k = s.txn k := by
  have aborts := queueThenState u 3 (txnOwner s u) [] s (by decide) (txnOwner_lt u s)
  unfold captureWrite
  split
  · dsimp only
    split
    · obtain ⟨-, -, -, -, hreg, htxn, honly⟩ := aborts
      have hevents := raiseMask_count_eventsOnly (setTxnState u 3 (txnOwner s u) (setTxnQueue u [] s)) (txnBase u + 8) 0x80
        0xA5 1
      exact ⟨State.txnsOnly_trans honly hevents.txnsOnly, fun a ha => (hevents.reg a).trans (hreg a ha),
        fun k hk => (hevents.txn k).trans (htxn k hk)⟩
    · refine ⟨setTxnQueue_txnsOnly u s _, fun a ha => ?_, fun k hk => ?_⟩
      · simp only [List.mem_cons, List.not_mem_nil, or_false, not_or] at ha
        rw [setTxnQueue_reg, if_neg ha.2]
      · rw [setTxnQueue_txn, if_neg hk]
  · have hevents := raiseMask_eventsOnly s (txnBase u + 8) 0x200
    exact ⟨hevents.txnsOnly, fun a _ => hevents.reg a, fun k _ => hevents.txn k⟩
  · exact ⟨s.txnsOnly_refl, fun _ _ => rfl, fun _ _ => rfl⟩

/-- Settles O20, by the state of the capturing unit. -/
theorem capturedWrites : Obligations.CapturedWrites := by
  intro s m a u mask data r hr hserves hboot h4 h24 hw htxn hcap
  have hevents := hostTlps_eventsOnly m true s
  obtain ⟨hstate, howner⟩ := hevents.txnState u.val
  refine ⟨_, rfl, ?_⟩
  have hwrite : busWrite m a 0xF (mask ++ data) s =
      captureWrite u.val { addr := a, mask := mask, data := data } (hostTlps m true s) := by
    rw [busReg_of_serves mask data hserves hboot (busAddr_eq h24 h4) hw hr]
    have hcap' : (hostTlps m true s).capturer m a = some u.val := by rw [hevents.1]; exact hcap
    unfold regWrite
    simp only [htxn, hr, hcap', mask_of_pair, data_of_pair]
  rw [hwrite]
  generalize hostTlps m true s = s' at hevents hstate howner ⊢
  obtain ⟨honly, hkept, hother⟩ := captureWrite_stores u.val { addr := a, mask := mask, data := data } s'
  have honly' := State.txnsOnly_trans hevents.txnsOnly honly
  refine ⟨fun h1 hl => ?_, fun h1 hl => ?_, fun h2 => ?_, fun h3 => ?_, fun k hk => (hother k hk).trans (hevents.txn k),
    fun b hb => (hkept b hb).trans (hevents.reg b), honly'.memoryKept, honly'.1⟩
  · rw [captureWrite_open _ (hstate.trans h1) (by rw [hevents.txn]; exact hl), setTxnQueue_txn, if_pos rfl, hevents.txn]
    refine ⟨rfl, ?_, fun b hb => ?_⟩
    · rw [setTxnQueue_reg, if_pos rfl, List.length_append, List.length_singleton]
    · rw [setTxnQueue_reg, if_neg (by simpa using hb), hevents.reg]
  · rw [captureWrite_full _ (hstate.trans h1) (by rw [hevents.txn]; exact hl)]
    obtain ⟨hst, -, hqueue, -, -, -, -⟩ := queueThenState u.val 3 (txnOwner s' u.val) [] s' (by decide) (txnOwner_lt _ _)
    have hev := raiseMask_count_eventsOnly (setTxnState u.val 3 (txnOwner s' u.val) (setTxnQueue u.val [] s'))
      (txnBase u.val + 8) 0x80 0xA5 1
    exact ⟨by rw [hev.txn]; exact hqueue, (hev.txnState u.val).1.trans hst,
      count_rcHost_keeps _ _ (raiseMask_sets _ _ _).1⟩
  · rw [captureWrite_pending _ (hstate.trans h2)]
    have hev := State.eventsOnly_trans hevents (raiseMask_eventsOnly s' (txnBase u.val + 8) 0x200)
    exact ⟨hev.txns, fun b _ => hev.reg b, (raiseMask_sets _ _ _).1⟩
  · rw [captureWrite_aborted _ (hstate.trans h3)]
    exact hevents

end Sys2Proof.Machine
end

section
/-! The commands of a transaction unit (O19). -/

namespace Sys2Proof.Machine

/-! ### The CTRL register of a unit -/

/-- CTRL of every unit: its settings, and the three start bits. -/
theorem txnBase_row (u : Fin 17) : ∃ r, rowOf (txnBase u.val) = some r ∧ r.rw = 0xFFF8 ∧ r.wt = 7 := by
  have column : ∀ u : Fin 17, (rowOf (txnBase u.val)).map (fun r => (r.rw, r.wt)) = some (0xFFF8, 7) := by decide
  obtain ⟨r, hr, hcol⟩ := Option.map_eq_some_iff.1 (column u)
  exact ⟨r, hr, (Prod.mk.inj hcol).1, (Prod.mk.inj hcol).2⟩

theorem txnBase_addr : ∀ u : Fin 17,
    busAddr (txnBase u.val) = txnBase u.val ∧ isWindow (txnBase u.val) = false ∧ txnUnitAt (txnBase u.val) = some u.val := by
  decide

/-- The write that a command of unit u is. -/
def ctrlWrite (m : Master) (u : Nat) (mask data : Word) : Wr :=
  { m := m, a := txnBase u, mask := mask, data := data, rw := 0xFFF8, wt := 7, bdry := 0 }

/-- The start bits of CTRL, in the order in which they act (R41). -/
def ctrlStarts (m : Master) (u : Nat) (start : Word) (s : State) : State :=
  let s := if start.getLsbD 2 then txnRollback m u s else s
  let s := if start.getLsbD 0 then txnBegin m u s else s
  if start.getLsbD 1 then txnCommitCmd m u s else s

theorem busReg_ctrl {s : State} {m : Master} {u : Fin 17} (mask data : Word) (h : s.Serves m (txnBase u.val))
    (hb : s.bootRefuses m (txnBase u.val) = false) (ho : ownerCode m ≠ 0) :
    busReg m (txnBase u.val) mask data s =
      ctrlStarts m u.val (ctrlWrite m u.val mask data).start ((ctrlWrite m u.val mask data).put (hostTlps m true s)) := by
  obtain ⟨ha, hw, hu⟩ := txnBase_addr u
  obtain ⟨r, hr, hrw, hwt⟩ := txnBase_row u
  unfold busReg
  rw [busReg_of_serves mask data h hb ha hw hr]
  unfold regWrite txnWrite
  simp only [hu, hr, if_neg ho, hrw, hwt, mask_of_pair, data_of_pair]
  rfl

/-- A sequencer's or the calibration engine's write to a unit is discarded (R41). -/
theorem busReg_ctrl_internal {s : State} {m : Master} {u : Fin 17} (mask data : Word) (h : s.Serves m (txnBase u.val))
    (hb : s.bootRefuses m (txnBase u.val) = false) (ho : ownerCode m = 0) : busReg m (txnBase u.val) mask data s = s := by
  obtain ⟨ha, hw, hu⟩ := txnBase_addr u
  obtain ⟨r, hr, -, -⟩ := txnBase_row u
  unfold busReg
  rw [busReg_of_serves mask data h hb ha hw hr, hostTlps_of_ne_pcie true s (by rintro rfl; exact absurd ho (by decide))]
  unfold regWrite txnWrite
  simp only [hu, if_pos ho]

theorem ownerCode_lt (m : Master) : ownerCode m < 8 := by
  cases m <;> simp [ownerCode]

/-! ### The state on which a command acts -/

/-- From `s` to `s'` the packets are counted and CTRL may have changed: the rest of the unit stands. -/
structure State.ctrlWritten (s : State) (u : Nat) (s' : State) : Prop where
  only : s.txnsOnly s'
  regs : s.regsKept [txnBase u] s'
  txns : s'.txns = s.txns

theorem ctrlWrite_written (m : Master) (u : Nat) (mask data : Word) (s : State) :
    s.ctrlWritten u ((ctrlWrite m u mask data).put (hostTlps m true s)) where
  only := State.txnsOnly_trans (hostTlps_eventsOnly m true s).txnsOnly (put_storesOnly _ _).txnsOnly
  regs a ha := by
    rw [put_reg_ne _ _ (show a ≠ txnBase u by simpa using ha)]
    exact (hostTlps_eventsOnly m true s).reg a
  txns := by rw [put_txns, (hostTlps_eventsOnly m true s).txns]

/-- A start bit alone stores nothing. -/
theorem ctrlWrite_regsKept (m : Master) (u : Nat) (mask data : Word) (s : State) (h : mask &&& 0xFFF8 = 0) :
    s.regsKept [] ((ctrlWrite m u mask data).put (hostTlps m true s)) := fun a ha => by
  rw [put_regsKept (ctrlWrite m u mask data) _ h a ha]
  exact (hostTlps_eventsOnly m true s).reg a

section
variable {s s' : State} {u : Nat}

theorem State.ctrlWritten.state (h : s.ctrlWritten u s') : txnState s' u = txnState s u ∧ txnOwner s' u = txnOwner s u :=
  txnState_congr (h.regs _ (by simp))

theorem State.ctrlWritten.txn (h : s.ctrlWritten u s') (k : Nat) : s'.txn k = s.txn k := by
  rw [State.txn, h.txns, ← State.txn]

end

/-! ### A refusal (R41) -/

theorem txnRefuse_eventsOnly (u : Nat) (s : State) : s.eventsOnly (txnRefuse u s) := raiseMask_eventsOnly _ _ _

theorem txnRefuse_sets (u : Nat) (s : State) : (txnRefuse u s).rcHost (txnBase u + 8) &&& 0x100 = 0x100 :=
  (raiseMask_sets _ _ _).1

/-! ### BEGIN and ROLLBACK -/

theorem txnBegin_of_allowed {m : Master} {u : Nat} {s : State}
    (h : txnState s u = 0 ∨ (txnState s u = 3 ∧ txnOwner s u = ownerCode m)) :
    txnBegin m u s = setTxnState u 1 (ownerCode m) (setTxnQueue u [] s) := by
  unfold txnBegin
  exact if_pos (by simpa using h)

theorem txnBegin_of_refused {m : Master} {u : Nat} {s : State}
    (h : ¬(txnState s u = 0 ∨ (txnState s u = 3 ∧ txnOwner s u = ownerCode m))) : txnBegin m u s = txnRefuse u s := by
  unfold txnBegin
  exact if_neg (by simpa using h)

theorem txnRollback_of_idle {m : Master} {u : Nat} {s : State} (h : txnState s u = 0) : txnRollback m u s = s :=
  if_pos h

theorem txnRollback_of_other {m : Master} {u : Nat} {s : State} (h : txnState s u ≠ 0) (ho : txnOwner s u ≠ ownerCode m) :
    txnRollback m u s = txnRefuse u s := by
  unfold txnRollback
  rw [if_neg h, if_pos ho]

theorem txnRollback_of_owner {m : Master} {u : Nat} {s : State} (h : txnState s u ≠ 0) (ho : txnOwner s u = ownerCode m) :
    txnRollback m u s =
      ((setTxnState u 0 0 (setTxnQueue u [] s)).raiseMask (txnBase u + 8) 0x40).count 0xA7 1 := by
  unfold txnRollback
  rw [if_neg h, if_neg (by simpa using ho)]

/-! ### COMMIT -/

/-- CMODE after a write of it. -/
theorem fieldOf_cmode_merge (x d : Word) : fieldOf ((x &&& ~~~0x70) ||| (d &&& 0x70)) 4 3 = fieldOf d 4 3 := by
  unfold fieldOf
  apply Nat.eq_of_testBit_eq
  intro i
  rw [Nat.testBit_mod_two_pow, Nat.testBit_mod_two_pow, Nat.testBit_div_two_pow, Nat.testBit_div_two_pow,
    BitVec.testBit_toNat, BitVec.testBit_toNat]
  by_cases hi : i < 3
  · interval_cases i <;> simp
  · simp [hi]

/-- CMODE as a COMMIT leaves it: what it brings, or what stands. -/
def cmodeAfter (s : State) (u : Nat) (c : Option (Fin 8)) : Nat :=
  match c with
  | some k => k.val
  | none => fieldOf (s.reg (txnBase u)) 4 3

/-- COMMIT's write: of CMODE too, where it brings one. -/
def commitWrite (m : Master) (u : Nat) (c : Option (Fin 8)) : Wr :=
  ctrlWrite m u (if c.isSome then 0x72 else 2) (word (16 * (c.getD 0).val + 2))

theorem commitWrite_start (m : Master) (u : Nat) (c : Option (Fin 8)) : (commitWrite m u c).start = 2 := by
  have brought : ∀ k : Fin 8, (0x72 : Word) &&& word (16 * k.val + 2) &&& BitVec.ofNat 16 7 = 2 := by decide
  cases c with
  | none => exact show (2 : Word) &&& word (16 * 0 + 2) &&& BitVec.ofNat 16 7 = 2 by decide
  | some k => exact brought k

theorem commitWrite_cmode (m : Master) (u : Nat) (c : Option (Fin 8)) (s : State) :
    fieldOf (((commitWrite m u c).put (hostTlps m true s)).reg (txnBase u)) 4 3 = cmodeAfter s u c := by
  have brought : ∀ k : Fin 8, fieldOf (word (16 * k.val + 2)) 4 3 = k.val := by decide
  cases c with
  | none => 
    have hkept := ctrlWrite_regsKept m u 2 (word (16 * 0 + 2)) s (by decide)
    exact congrArg (fieldOf · 4 3) (hkept (txnBase u) List.not_mem_nil)
  | some k =>
    rw [put_reg, if_pos (show txnBase u = (commitWrite m u (some k)).a from rfl)]
    unfold Wr.value
    rw [show (commitWrite m u (some k)).mask &&& BitVec.ofNat 16 (commitWrite m u (some k)).rw = 0x70 from
      show (0x72 : Word) &&& BitVec.ofNat 16 0xFFF8 = 0x70 by decide,
      fieldOf_cmode_merge]
    exact brought k

/-- A COMMIT that the unit takes. -/
theorem txnCommitCmd_of_allowed {m : Master} {u : Nat} {s : State}
    (h : txnState s u = 1 ∧ txnOwner s u = ownerCode m ∧ cmodeOk u (fieldOf (s.reg (txnBase u)) 4 3) = true) :
    txnCommitCmd m u s = setTxnState u 2 (ownerCode m) (s.setTxn u (txnArm u s)) :=
  if_pos (by simpa [and_assoc] using h)

theorem txnCommitCmd_of_refused {m : Master} {u : Nat} {s : State}
    (h : ¬(txnState s u = 1 ∧ txnOwner s u = ownerCode m ∧ cmodeOk u (fieldOf (s.reg (txnBase u)) 4 3) = true)) :
    txnCommitCmd m u s = txnRefuse u s :=
  if_neg (by simpa [and_assoc] using h)

/-! ### The three commands -/

section
variable {s : State} {m : Master} {u : Fin 17}

theorem exec_txnBegin (h : s.Serves m (txnBase u.val)) (hb : s.bootRefuses m (txnBase u.val) = false)
    (ho : ownerCode m ≠ 0) :
    exec (.txnBegin m u) s = .next (txnBegin m u ((ctrlWrite m u 1 1).put (hostTlps m true s))) := by
  show Host.Outcome.next (busReg m (txnBase u.val) 1 1 s) = _
  rw [busReg_ctrl 1 1 h hb ho, show (ctrlWrite m u.val 1 1).start = 1 from
    show (1 : Word) &&& 1 &&& BitVec.ofNat 16 7 = 1 by decide]
  rfl

theorem exec_txnRollback (h : s.Serves m (txnBase u.val)) (hb : s.bootRefuses m (txnBase u.val) = false)
    (ho : ownerCode m ≠ 0) :
    exec (.txnRollback m u) s = .next (txnRollback m u ((ctrlWrite m u 4 4).put (hostTlps m true s))) := by
  show Host.Outcome.next (busReg m (txnBase u.val) 4 4 s) = _
  rw [busReg_ctrl 4 4 h hb ho, show (ctrlWrite m u.val 4 4).start = 4 from
    show (4 : Word) &&& 4 &&& BitVec.ofNat 16 7 = 4 by decide]
  rfl

/-- The changes of the site assignment go with a COMMIT that makes the unit PENDING (R14). -/
def takeSites (u : Nat) (l : List (Fin 64 × Option (Fin 8))) (s t : State) : State :=
  if l ≠ [] && txnState s u ≠ 2 && txnState t u = 2 then
    t.setTxn u { t.txn u with sites := l.map fun e => (e.1.val, e.2.map (·.val)) }
  else t

theorem exec_txnCommit (c : Option (Fin 8)) (l : List (Fin 64 × Option (Fin 8))) (h : s.Serves m (txnBase u.val))
    (hb : s.bootRefuses m (txnBase u.val) = false) (ho : ownerCode m ≠ 0) :
    exec (.txnCommit m u (c, l)) s =
      .next (takeSites u l s (txnCommitCmd m u ((commitWrite m u c).put (hostTlps m true s)))) := by
  have hw : busReg m (txnBase u.val) (if c.isSome then 0x72 else 2) (word (16 * (c.getD 0).val + 2)) s =
      txnCommitCmd m u ((commitWrite m u c).put (hostTlps m true s)) := by
    have hs := commitWrite_start m u c
    unfold commitWrite at hs ⊢
    rw [busReg_ctrl _ _ h hb ho, hs]
    rfl
  rw [← hw]
  rfl

end

/-- What every command leaves: registers outside `l`, other units, memory, and all that is no unit's. -/
def State.unitOnly (s : State) (l : List Nat) (u : Nat) (t : State) : Prop :=
  s.regsKept l t ∧ (∀ k, k ≠ u → t.txn k = s.txn k) ∧ s.memoryKept t ∧
    t = { s with
      regs := t.regs, copyB := t.copyB, copyC := t.copyC, hostRc := t.hostRc, spx1Rc := t.spx1Rc, win := t.win,
      msgs := t.msgs, evcs := t.evcs, txns := t.txns }

theorem State.unitOnly_of {s t : State} {l : List Nat} {u : Nat} (hregs : s.regsKept l t)
    (htxn : ∀ k, k ≠ u → t.txn k = s.txn k) (honly : s.txnsOnly t) : s.unitOnly l u t :=
  ⟨hregs, htxn, honly.memoryKept, honly.1⟩

section
variable {s s' : State} {u : Nat} {m : Master}

/-- A refusal shows REFUSED and changes nothing of the unit. -/
theorem State.ctrlWritten.refused (h : s.ctrlWritten u s') {l : List Nat} (hs : s.regsKept l s') :
    (txnRefuse u s').reg (txnBase u + 8) = s.reg (txnBase u + 8) ∧ (txnRefuse u s').txns = s.txns ∧
      (txnRefuse u s').rcHost (txnBase u + 8) &&& 0x100 = 0x100 ∧ s.unitOnly l u (txnRefuse u s') := by
  have hev := txnRefuse_eventsOnly u s'
  exact ⟨(hev.reg _).trans (h.regs _ (by simp)), hev.txns.trans h.txns, txnRefuse_sets u s',
    State.unitOnly_of (fun a ha => (hev.reg a).trans (hs a ha)) (fun k _ => (hev.txn k).trans (h.txn k))
      (State.txnsOnly_trans h.only hev.txnsOnly)⟩

/-- The unit's registers and queue change together, on a state whose CTRL stands. -/
theorem State.ctrlWritten.changed (h : s.ctrlWritten u s') (hs : s.regsKept [] s') {st owner : Nat} {l : List PendWrite}
    (hst : st < 4) (ho : owner < 8) {t : State} (ht : (setTxnState u st owner (setTxnQueue u l s')).eventsOnly t) :
    txnState t u = st ∧ txnOwner t u = owner ∧ (t.txn u).queue = l ∧
      t.reg (txnBase u + 12) = BitVec.ofNat 16 l.length ∧ s.unitOnly [txnBase u + 8, txnBase u + 12] u t := by
  obtain ⟨hstate, howner, hqueue, hfill, hregs, htxn, honly⟩ := queueThenState u st owner l s' hst ho
  exact ⟨(ht.txnState u).1.trans hstate, (ht.txnState u).2.trans howner, by rw [ht.txn]; exact hqueue,
    (ht.reg _).trans hfill, State.unitOnly_of (fun a ha => (ht.reg a).trans ((hregs a ha).trans (hs a List.not_mem_nil)))
      (fun k hk => (ht.txn k).trans ((htxn k hk).trans (h.txn k)))
      (State.txnsOnly_trans h.only (State.txnsOnly_trans honly ht.txnsOnly))⟩

theorem State.unitOnly.mono {t : State} {l l' : List Nat} (h : s.unitOnly l u t) (hl : ∀ a ∈ l, a ∈ l') :
    s.unitOnly l' u t := ⟨fun a ha => h.1 a fun hc => ha (hl a hc), h.2⟩

theorem txnBegin_settles (h : s.ctrlWritten u s') (hs : s.regsKept [] s') :
    (if txnState s u = 0 ∨ (txnState s u = 3 ∧ txnOwner s u = ownerCode m) then
      txnState (txnBegin m u s') u = 1 ∧ txnOwner (txnBegin m u s') u = ownerCode m ∧
        ((txnBegin m u s').txn u).queue = [] ∧ (txnBegin m u s').reg (txnBase u + 12) = 0
    else (txnBegin m u s').reg (txnBase u + 8) = s.reg (txnBase u + 8) ∧ (txnBegin m u s').txns = s.txns ∧
      (txnBegin m u s').rcHost (txnBase u + 8) &&& 0x100 = 0x100) ∧
    s.unitOnly [txnBase u + 8, txnBase u + 12] u (txnBegin m u s') := by
  obtain ⟨hstate, howner⟩ := h.state
  split
  · next hok =>
    rw [txnBegin_of_allowed (by rwa [hstate, howner])]
    obtain ⟨h1, h2, h3, h4, h5⟩ := h.changed hs (by decide) (ownerCode_lt m) (State.eventsOnly_refl (setTxnState u 1 (ownerCode m) (setTxnQueue u [] s')))
    exact ⟨⟨h1, h2, h3, h4⟩, h5⟩
  · next hno =>
    rw [txnBegin_of_refused (by rwa [hstate, howner])]
    obtain ⟨h1, h2, h3, h4⟩ := h.refused hs
    exact ⟨⟨h1, h2, h3⟩, h4.mono fun a ha => absurd ha List.not_mem_nil⟩

theorem txnRollback_settles (h : s.ctrlWritten u s') (hs : s.regsKept [] s') :
    (if txnState s u = 0 then s.regsKept [] (txnRollback m u s') ∧ (txnRollback m u s').txns = s.txns
    else if txnOwner s u ≠ ownerCode m then s.regsKept [] (txnRollback m u s') ∧ (txnRollback m u s').txns = s.txns ∧
      (txnRollback m u s').rcHost (txnBase u + 8) &&& 0x100 = 0x100
    else txnState (txnRollback m u s') u = 0 ∧ ((txnRollback m u s').txn u).queue = [] ∧
      (txnRollback m u s').reg (txnBase u + 12) = 0 ∧ (txnRollback m u s').rcHost (txnBase u + 8) &&& 0x40 = 0x40) ∧
    s.unitOnly [txnBase u + 8, txnBase u + 12] u (txnRollback m u s') := by
  obtain ⟨hstate, howner⟩ := h.state
  split
  · next hidle =>
    rw [txnRollback_of_idle (hstate.trans hidle)]
    exact ⟨⟨hs, h.txns⟩, State.unitOnly_of (fun a _ => hs a List.not_mem_nil) (fun k _ => h.txn k) h.only⟩
  · next hbusy =>
    split
    · next hother =>
      rw [txnRollback_of_other (by rwa [hstate]) (by rwa [howner])]
      obtain ⟨-, h2, h3, h4⟩ := h.refused hs
      exact ⟨⟨h4.1, h2, h3⟩, h4.mono fun a ha => absurd ha List.not_mem_nil⟩
    · next hown =>
      rw [txnRollback_of_owner (by rwa [hstate]) (by rw [howner]; exact not_not.1 hown)]
      obtain ⟨h1, -, h3, h4, h5⟩ := h.changed hs (st := 0) (owner := 0) (l := []) (by decide) (by decide)
        (raiseMask_count_eventsOnly _ (txnBase u + 8) 0x40 0xA7 1)
      exact ⟨⟨h1, h3, h4, count_rcHost_keeps _ _ (raiseMask_sets _ _ _).1⟩, h5⟩

/-- The site changes touch nothing else of the unit. -/
theorem takeSites_keeps (l : List (Fin 64 × Option (Fin 8))) (s t : State) :
    (∀ a, (takeSites u l s t).reg a = t.reg a) ∧ ((takeSites u l s t).txn u).queue = (t.txn u).queue ∧
      ((takeSites u l s t).txn u).cmode = (t.txn u).cmode ∧ ((takeSites u l s t).txn u).mark = (t.txn u).mark ∧
      (∀ k, k ≠ u → (takeSites u l s t).txn k = t.txn k) ∧ t.txnsOnly (takeSites u l s t) := by
  unfold takeSites
  split
  · simp only [State.txn_setTxn_same]
    exact ⟨fun _ => rfl, trivial, trivial, trivial, fun k hk => by rw [State.txn_setTxn, if_neg hk], rfl, fun _ _ => rfl⟩
  · exact ⟨fun _ => rfl, rfl, rfl, rfl, fun _ _ => rfl, t.txnsOnly_refl⟩

theorem takeSites_sites {l : List (Fin 64 × Option (Fin 8))} {s t : State} (hl : l ≠ []) (hs : txnState s u ≠ 2)
    (ht : txnState t u = 2) : ((takeSites u l s t).txn u).sites = l.map fun e => (e.1.val, e.2.map (·.val)) := by
  unfold takeSites
  rw [if_pos (by simp [hl, hs, ht]), State.txn_setTxn_same]

/-- A COMMIT taken: the unit is PENDING with its queue, CMODE and mark, and the sites that came with it. -/
theorem commit_settles (l : List (Fin 64 × Option (Fin 8))) (h : s.ctrlWritten u s')
    (hok : txnState s' u = 1 ∧ txnOwner s' u = ownerCode m ∧ cmodeOk u (fieldOf (s'.reg (txnBase u)) 4 3) = true) :
    let t := takeSites u l s (txnCommitCmd m u s')
    txnState t u = 2 ∧ txnOwner t u = ownerCode m ∧ (t.txn u).queue = (s.txn u).queue ∧
      (t.txn u).cmode = fieldOf (s'.reg (txnBase u)) 4 3 ∧ (t.txn u).mark = (s.reg (txnBase u + 4)).toNat ∧
      (l ≠ [] → (t.txn u).sites = l.map fun e => (e.1.val, e.2.map (·.val))) ∧
      t.reg (txnBase u) = s'.reg (txnBase u) ∧ s.unitOnly [txnBase u, txnBase u + 8] u t := by
  obtain ⟨hstate, -⟩ := h.state
  obtain ⟨hregs, hqueue, hcmode, hmark, hother, honly⟩ := takeSites_keeps (u := u) l s (txnCommitCmd m u s')
  have hstate' := txnState_congr (hregs (txnBase u + 8))
  rw [txnCommitCmd_of_allowed hok] at *
  intro t
  obtain ⟨h2, hm⟩ := txnState_setTxnState u (s'.setTxn u (txnArm u s')) 2 (ownerCode m) (by decide) (ownerCode_lt m)
  have hu : (setTxnState u 2 (ownerCode m) (s'.setTxn u (txnArm u s'))).txn u = txnArm u s' := State.txn_setTxn_same _ _ _
  have harm : (txnArm u s').queue = (s.txn u).queue ∧ (txnArm u s').cmode = fieldOf (s'.reg (txnBase u)) 4 3 ∧
      (txnArm u s').mark = (s.reg (txnBase u + 4)).toNat :=
    ⟨(show (txnArm u s').queue = (s'.txn u).queue from rfl).trans (congrArg Txn.queue (h.txn u)), rfl, congrArg BitVec.toNat (h.regs _ (by simp))⟩
  have hreg : ∀ a, a ≠ txnBase u + 8 → t.reg a = s'.reg a := fun a ha => by
    rw [hregs, setTxnState_reg, if_neg ha]
    rfl
  refine ⟨hstate'.1.trans h2, hstate'.2.trans hm, by rw [hqueue, hu, harm.1], by rw [hcmode, hu, harm.2.1],
    by rw [hmark, hu, harm.2.2], fun hl => takeSites_sites hl (by rw [← hstate, hok.1]; decide) h2, hreg _ (by omega), ?_⟩
  refine State.unitOnly_of (fun a ha => ?_) (fun k hk => ?_) (State.txnsOnly_trans h.only (State.txnsOnly_trans ?_ honly))
  · simp only [List.mem_cons, List.not_mem_nil, or_false, not_or] at ha
    rw [hreg a ha.2, h.regs a (by simpa using ha.1)]
  · rw [hother k hk, setTxnState_txn, State.txn_setTxn, if_neg hk, h.txn]
  · exact ⟨rfl, fun _ _ => rfl⟩

/-- A COMMIT refused takes no sites either. -/
theorem commit_refused (l : List (Fin 64 × Option (Fin 8))) (h : s.ctrlWritten u s')
    (hno : ¬(txnState s' u = 1 ∧ txnOwner s' u = ownerCode m ∧ cmodeOk u (fieldOf (s'.reg (txnBase u)) 4 3) = true)) :
    takeSites u l s (txnCommitCmd m u s') = txnRefuse u s' := by
  have hstate := ((txnRefuse_eventsOnly u s').txnState u).1.trans h.state.1
  rw [txnCommitCmd_of_refused hno, takeSites, if_neg]
  simp only [Bool.and_eq_true, decide_eq_true_eq, hstate]
  exact fun hc => hc.1.2 hc.2

end

/-- Settles O19, by the unit's state and owner. -/
theorem transactionCommands : Obligations.TransactionCommands := by
  intro s m u hserves hboot _
  refine ⟨fun ho => ⟨?_, ?_, fun c l => ?_⟩, fun ho => ?_, fun c l ho => ?_, fun ho => ?_⟩
  · show Host.Outcome.next (busReg m (txnBase u.val) 1 1 s) = _
    rw [busReg_ctrl_internal 1 1 hserves hboot ho]
  · show Host.Outcome.next (busReg m (txnBase u.val) 4 4 s) = _
    rw [busReg_ctrl_internal 4 4 hserves hboot ho]
  · show Host.Outcome.next (takeSites u.val l s (busReg m (txnBase u.val) _ _ s)) = _
    rw [busReg_ctrl_internal _ _ hserves hboot ho, takeSites, if_neg (by simp)]
  · obtain ⟨hcase, hunit⟩ := txnBegin_settles (m := m) (ctrlWrite_written m u.val 1 1 s) (ctrlWrite_regsKept m u.val 1 1 s (by decide))
    exact ⟨_, exec_txnBegin hserves hboot ho, hcase, hunit⟩
  · have hw : s.ctrlWritten u.val ((commitWrite m u.val c).put (hostTlps m true s)) := ctrlWrite_written m u.val _ _ s
    have hcmode := commitWrite_cmode m u.val c s
    obtain ⟨hstate, howner⟩ := hw.state
    refine ⟨_, exec_txnCommit c l hserves hboot ho, ?_⟩
    by_cases hok : txnState s u.val = 1 ∧ txnOwner s u.val = ownerCode m ∧ cmodeOk u.val (cmodeAfter s u.val c) = true
    · obtain ⟨h1, h2, h3, h4, h5, h6, h7, h8⟩ := commit_settles l hw (by rwa [hstate, howner, hcmode])
      exact ⟨(congrArg (fieldOf · 4 3) h7).trans hcmode, Eq.mpr (if_pos hok) ⟨h1, h2, h3, h4.trans hcmode, h5, h6⟩, h8⟩
    · rw [commit_refused l hw (by rwa [hstate, howner, hcmode])]
      obtain ⟨h1, h2, h3, h4⟩ := hw.refused hw.regs
      refine ⟨?_, Eq.mpr (if_neg hok) ⟨h1, h2, h3⟩, h4.mono (by simp)⟩
      rw [(txnRefuse_eventsOnly u.val _).reg]
      exact hcmode
  · obtain ⟨hcase, hunit⟩ := txnRollback_settles (m := m) (ctrlWrite_written m u.val 4 4 s) (ctrlWrite_regsKept m u.val 4 4 s (by decide))
    exact ⟨_, exec_txnRollback hserves hboot ho, hcase, hunit⟩

end Sys2Proof.Machine
end

section
/-! Accesses that wait or end with an error (O18). -/

namespace Sys2Proof.Machine

/-! ### What an access reports -/

theorem reportAccess_reported (s : State) (src a : Nat) (m : Master) (acc : Nat) :
    (s.reportAccess src a m acc).reported = s.reported ++ [s.accessEvent src a m acc] := rfl

/-- The stamp of an event rests on the time and on what the Shank shows. -/
theorem accessEvent_congr {s t : State} (hnow : t.now = s.now) (hstamp : t.shankStamps = s.shankStamps)
    (src a : Nat) (m : Master) (acc : Nat) : t.accessEvent src a m acc = s.accessEvent src a m acc := by
  unfold State.accessEvent
  rw [hnow, hstamp]

theorem shankStamps_congr {s t : State} (hpwr : t.pwr = s.pwr) (hstat : t.reg R.PWR_STAT = s.reg R.PWR_STAT)
    (hclk : t.reg R.CLK_STAT = s.reg R.CLK_STAT) : t.shankStamps = s.shankStamps := by
  have hfld : ∀ f : Fld, f.addr = R.PWR_STAT → t.fld f = s.fld f := fun f hf => by
    rw [State.fld, hf, hstat, ← hf, ← State.fld]
  have hhold : t.fld F.CLK_STAT_HOLD = s.fld F.CLK_STAT_HOLD := congrArg (fieldOf · F.CLK_STAT_HOLD.lo F.CLK_STAT_HOLD.w) hclk
  unfold State.shankStamps State.centralOff State.bit
  rw [hpwr, hhold, hfld F.PWR_STAT_STATE rfl, hfld F.PWR_STAT_BACKSTOP rfl, hfld F.PWR_STAT_EXITING rfl]

theorem State.eventsOnly.accessEvent {s t : State} (h : s.eventsOnly t) (src a : Nat) (m : Master) (acc : Nat) :
    t.accessEvent src a m acc = s.accessEvent src a m acc := by
  rw [h.1]
  rfl

/-! ### A timeout (R50, R321) -/

/-- A read that fails answers 0. -/
def answerZero (write : Bool) (s : State) : State := if write then s else { s with reads := 0 :: s.reads }

theorem answerZero_reads (write : Bool) (s : State) :
    (answerZero write s).reads = if write then s.reads else 0 :: s.reads := by
  cases write <;> rfl

theorem answerZero_frame (write : Bool) (s : State) :
    answerZero write s = { s with reads := (answerZero write s).reads } := by
  cases write <;> rfl

/-- The count of deferred accesses, and the flag that goes with a gate. -/
def gateTimeout (s : State) : State := (s.addSat F.CLK_DEFER_CNT_CNT 1).raise F.CLK_EVT_GATE_TMO

theorem accessTimeout_plain (m : Master) (write : Bool) (a : Nat) (s : State) :
    accessTimeout m write false a s =
      (answerZero write (s.count 0xAB 1)).reportAccess 0x001 a m (if write then 2 else 1) := rfl

theorem accessTimeout_gate (m : Master) (write : Bool) (a : Nat) (s : State) :
    accessTimeout m write true a s =
      (answerZero write (gateTimeout (s.count 0xAB 1))).reportAccess 0x016 a m (if write then 2 else 1) := rfl

theorem gateTimeout_storesOnly (s : State) : s.storesOnly (gateTimeout s) :=
  State.storesOnly_trans (t := s.addSat F.CLK_DEFER_CNT_CNT 1) ⟨rfl, fun _ _ => rfl⟩ (raise_eventsOnly _ _).storesOnly

theorem gateTimeout_reg (s : State) {a : Nat} (h : a ≠ R.CLK_DEFER_CNT) : (gateTimeout s).reg a = s.reg a := by
  unfold gateTimeout State.addSat
  rw [State.raise_acc_reg, State.reg_setFld_ne _ _ h]

theorem gateTimeout_count (s : State) : (gateTimeout s).fld F.CLK_DEFER_CNT_CNT =
    min (s.fld F.CLK_DEFER_CNT_CNT + 1) (2 ^ F.CLK_DEFER_CNT_CNT.w - 1) := by
  unfold gateTimeout State.addSat
  rw [State.raise_acc_fld, State.fld_setFld _ _ _ (by decide)]
  exact Nat.mod_eq_of_lt (by simp only [F.CLK_DEFER_CNT_CNT]; omega)

theorem gateTimeout_shankStamps (s : State) : (gateTimeout s).shankStamps = s.shankStamps :=
  shankStamps_congr (by rw [(gateTimeout_storesOnly s).1]) (gateTimeout_reg s (by decide)) (gateTimeout_reg s (by decide))

/-! ### A quarter's wake (R335) -/

/-- One quarter in the order of wakes: it starts at `t` while fewer than two are under way. -/
def startOne (t : Nat) (acc : List (Nat × Option Nat) × Nat) (e : Nat × Option Nat) : List (Nat × Option Nat) × Nat :=
  match e.2 with
  | some _ => (acc.1 ++ [e], acc.2)
  | none => if acc.2 < 2 then (acc.1 ++ [(e.1, some t)], acc.2 + 1) else (acc.1 ++ [e], acc.2)

theorem startWakes_eq (s : State) : (startWakes s).pwr.waking =
    (s.pwr.waking.foldl (startOne (max s.now (s.pwr.central.getD 0)))
      ([], (s.pwr.waking.filter fun e => e.2.isSome).length)).1 := rfl

theorem startOne_fst (t : Nat) (acc : List (Nat × Option Nat) × Nat) (e : Nat × Option Nat) :
    (startOne t acc e).1.map Prod.fst = acc.1.map Prod.fst ++ [e.1] := by
  unfold startOne
  split
  · exact List.map_append
  · split <;> exact List.map_append

/-- Starting wakes neither adds nor drops one. -/
theorem startWakes_waking (s : State) : (startWakes s).pwr.waking.map Prod.fst = s.pwr.waking.map Prod.fst := by
  have order : ∀ (l : List (Nat × Option Nat)) (t : Nat) (acc : List (Nat × Option Nat) × Nat),
      (l.foldl (startOne t) acc).1.map Prod.fst = acc.1.map Prod.fst ++ l.map Prod.fst := fun l t => by
    induction l with
    | nil => exact fun acc => (List.append_nil _).symm
    | cons e l ih =>
      intro acc
      rw [List.foldl_cons, ih, startOne_fst, List.append_assoc]
      rfl
  rw [startWakes_eq, order]
  rfl

theorem quarterWake_frame (q : Nat) (s : State) : quarterWake q s = { s with pwr := (quarterWake q s).pwr } ∧
    (quarterWake q s).pwr.stalled = s.pwr.stalled := by
  unfold quarterWake
  split <;> exact ⟨rfl, rfl⟩

/-- A quarter that is off and whose wake was asked for is among those waking. -/
theorem quarterWake_waking {q : Nat} {s : State} (h : s.quarterOn q = false) :
    ∃ e, e ∈ (quarterWake q s).pwr.waking ∧ e.1 = q := by
  unfold quarterWake
  split
  · next hw => 
    rw [h, Bool.false_or] at hw
    obtain ⟨e, he, heq⟩ := List.any_eq_true.1 hw
    exact ⟨e, he, of_decide_eq_true heq⟩
  · have hmem : q ∈ (startWakes { s with pwr := { s.pwr with waking := s.pwr.waking ++ [(q, none)] } }).pwr.waking.map Prod.fst := by
      rw [startWakes_waking]
      simp
    obtain ⟨e, he, heq⟩ := List.mem_map.1 hmem
    exact ⟨e, he, heq⟩

/-- An access to a quarter that is off, where the fabric and the master are free. -/
theorem access_off {x : Stalled} {s : State} {q : Nat} (hup : s.fabricDown = false) (hclock : s.bit F.CLK_STAT_HOLD = false)
    (hahead : s.mustWait x.master = false) (hawake : s.pstate ≠ 3 ∨ s.centralOff = false)
    (hq : addrQuarter x.addr = some q) (hoff : s.quarterOn q = false)
    (hd : x.write = false ∨ s.discards x.master x.addr x.be = false) :
    access x s = if s.inTransit then rejectAccess x.master x.write x.addr s else quarterWake q (stallAccess x s) := by
  have hoffq : s.offQuarter x = some q := by
    unfold State.offQuarter
    rw [if_neg (by rcases hd with h | h <;> simp [h]), hq]
    exact if_neg (by simp [hoff])
  unfold access
  rw [wakeCentral_eq hawake]
  dsimp only
  rw [if_neg (by simp [hup]), if_neg (by simp [hclock, hahead]), hoffq]

theorem rejectAccess_eq (m : Master) (write : Bool) (a : Nat) (s : State) : rejectAccess m write a s =
    ((answerZero write s).raise F.PWR_STAT_ACC_REJ).reportAccess 0x023 a m (if write then 2 else 1) := rfl

/-! ### The statement -/

/-- An access that ends with an error: a read answers 0, and the fault is reported. -/
theorem endsWithError (write : Bool) (u : State) (src a : Nat) (m : Master) (acc : Nat) :
    let t := (answerZero write u).reportAccess src a m acc
    t.reported = u.reported ++ [u.accessEvent src a m acc] ∧ t.reads = (if write then u.reads else 0 :: u.reads) ∧
      t = { u with reads := t.reads, reported := t.reported } := by
  cases write <;> exact ⟨rfl, rfl, rfl⟩

theorem memoryKept_of_frame {s u t : State} (hu : s.memoryKept u)
    (ht : t = { u with reads := t.reads, reported := t.reported }) : s.memoryKept t := by
  refine ⟨?_, fun a ha => ?_⟩
  · rw [ht]
    exact hu.1
  · rw [ht]
    exact hu.2 a ha

theorem endsWithError_frame {s u t : State} (hu : s.eventsOnly u)
    (ht : t = { u with reads := t.reads, reported := t.reported }) :
    t = { s with
      hostRc := t.hostRc, spx1Rc := t.spx1Rc, win := t.win, msgs := t.msgs, reads := t.reads, evcs := t.evcs,
      reported := t.reported } := by
  rw [ht, hu.1]

/-- A rejected access: ACC_REJ in both copies beside the error. -/
theorem rejectAccess_settles (write : Bool) (s : State) (m : Master) (a : Nat) :
    let t := rejectAccess m write a s
    t.flagged F.PWR_STAT_ACC_REJ ∧ t.reads = (if write then s.reads else 0 :: s.reads) ∧
      t.reported = s.reported ++ [s.accessEvent 0x023 a m (if write then 2 else 1)] ∧ t.pwr = s.pwr ∧
      s.memoryKept t := by
  intro t
  have hev := raise_eventsOnly (answerZero write s) F.PWR_STAT_ACC_REJ
  have hflag := raise_flagged (answerZero write s) F.PWR_STAT_ACC_REJ
  have hmem := hev.storesOnly.memoryKept
  have ht : t = ((answerZero write s).raise F.PWR_STAT_ACC_REJ).reportAccess 0x023 a m (if write then 2 else 1) := rfl
  rw [ht]
  refine ⟨hflag, ?_, ?_, ?_, ⟨hmem.1.trans ?_, fun b hb => (hmem.2 b hb).trans ?_⟩⟩
  · exact (show (State.raise _ _).reads = _ by rw [hev.1]).trans (answerZero_reads write s)
  · rw [reportAccess_reported, hev.accessEvent, hev.1]
    cases write <;> rfl
  · exact (show (State.raise _ _).pwr = _ by rw [hev.1]).trans (by rw [answerZero_frame])
  · rw [answerZero_frame]
  · rw [answerZero_frame]
    rfl

/-- The access that wakes a quarter, as the bus takes it. -/
def wakingAccess (m : Master) (write : Bool) (a : Nat) (be : BitVec 4) (v : Dword) (s : State) : Stalled :=
  { master := m, write := write, addr := busAddr a, data := if write then v else 0, be := if write then be else 0xF,
    since := s.now }

theorem wakeAccess_off {m : Master} {write : Bool} {a q : Nat} (be : BitVec 4) (v : Dword) {s : State}
    (hq : addrQuarter (busAddr a) = some q) (hoff : s.quarterOn q = false) :
    wakeAccess m write a be v s = access (wakingAccess m write a be v s) (hostTlps m write s) := by
  unfold wakeAccess
  rw [hq]
  refine (if_neg (by simp [hoff])).trans ?_
  cases write <;> rfl

theorem State.eventsOnly.quarterOn {s t : State} (h : s.eventsOnly t) (q : Nat) : t.quarterOn q = s.quarterOn q := by
  rw [h.1]
  rfl

/-- An access to a quarter that is off: rejected during an entry or exit, else it waits and wakes the quarter (R331,
R335). -/
theorem wakeAccess_settles {m : Master} {write : Bool} {a q : Nat} {be : BitVec 4} {v : Dword} {s : State}
    (hq : addrQuarter (busAddr a) = some q) (hoff : s.quarterOn q = false) (hup : s.fabricDown = false)
    (hclock : s.bit F.CLK_STAT_HOLD = false) (hahead : s.mustWait m = false)
    (hawake : s.pstate ≠ 3 ∨ s.centralOff = false) (hd : write = false ∨ s.discards m (busAddr a) be = false) :
    wakeAccess m write a be v s = if s.inTransit then rejectAccess m write (busAddr a) (hostTlps m write s)
      else quarterWake q (stallAccess (wakingAccess m write a be v s) (hostTlps m write s)) := by
  have hev := hostTlps_eventsOnly m write s
  rw [wakeAccess_off be v hq hoff, access_off (q := q) (by rw [hev.1]; exact hup) (by rw [hev.1]; exact hclock)
    (by rw [hev.1]; exact hahead) (by rw [hev.1]; exact hawake) hq (by rw [hev.quarterOn]; exact hoff) ?_]
  · rw [show (hostTlps m write s).inTransit = s.inTransit by rw [hev.1]; rfl]
    rfl
  · rcases hd with h | h
    · exact .inl h
    · cases write with
      | false => exact .inl rfl
      | true =>
        refine .inr ?_
        rw [hev.1]
        exact h

/-- Settles O18. -/
theorem accessesThatWait : Obligations.AccessesThatWait := by
  intro s m a write
  have hcount := count_eventsOnly s 0xAB 1
  refine ⟨⟨_, rfl, ?_⟩, ⟨_, rfl, ?_⟩, fun be v => ⟨fun hnone => ?_, fun q hq => ⟨fun hon => ?_, fun hoff hup hclock hahead hawake hd => ?_⟩⟩⟩
  · rw [accessTimeout_plain]
    obtain ⟨hrep, hreads, hframe⟩ := endsWithError write (s.count 0xAB 1) 0x001 (busAddr a) m (if write then 2 else 1)
    refine ⟨?_, ?_, memoryKept_of_frame hcount.storesOnly.memoryKept hframe, ?_⟩
    · rw [hrep, hcount.accessEvent, hcount.1]
    · rw [hreads, hcount.1]
    · exact endsWithError_frame hcount hframe
  · rw [accessTimeout_gate]
    obtain ⟨hrep, -, hframe⟩ := endsWithError write (gateTimeout (s.count 0xAB 1)) 0x016 (busAddr a) m (if write then 2 else 1)
    have hgate := gateTimeout_storesOnly (s.count 0xAB 1)
    have hstores := State.storesOnly_trans hcount.storesOnly hgate
    refine ⟨?_, ?_, ?_, fun b hb => ?_, memoryKept_of_frame hstores.memoryKept hframe⟩
    · rw [hrep, accessEvent_congr (by rw [hgate.1]) (gateTimeout_shankStamps _), hcount.accessEvent, hstores.1]
    · rw [hframe]
      refine (gateTimeout_count (s.count 0xAB 1)).trans ?_
      rw [hcount.1]
      rfl
    · rw [hframe]
      exact raise_flagged _ _
    · rw [hframe]
      exact (gateTimeout_reg _ (by simpa using hb)).trans (hcount.reg b)
  · show Host.Outcome.next (wakeAccess m write a be v s) = _
    rw [wakeAccess, hnone]
  · show Host.Outcome.next (wakeAccess m write a be v s) = _
    rw [wakeAccess, hq]
    exact congrArg _ (if_pos hon)
  · have hev := hostTlps_eventsOnly m write s
    refine ⟨_, rfl, ?_⟩
    rw [wakeAccess_settles hq hoff hup hclock hahead hawake hd]
    cases s.inTransit with
    | true =>
      obtain ⟨hflag, hreads, hrep, hpwr, hmem⟩ := rejectAccess_settles write (hostTlps m write s) m (busAddr a)
      refine ⟨⟨hmem.1.trans (by rw [hev.1]), fun b hb => (hmem.2 b hb).trans (hev.2 b hb)⟩, hflag, ?_, ?_, ?_⟩
      · exact hreads.trans (by rw [hev.1])
      · exact hrep.trans (by rw [hev.accessEvent, hev.1])
      · exact hpwr.trans (by rw [hev.1])
    | false =>
      obtain ⟨hframe, hstalled⟩ := quarterWake_frame q.val (stallAccess (wakingAccess m write a be v s) (hostTlps m write s))
      refine ⟨?_, hstalled.trans ?_, quarterWake_waking ((hev.quarterOn q.val).trans hoff), hframe⟩
      · rw [show (if false = true then _ else _) = _ from if_neg Bool.false_ne_true, hframe]
        exact hev.storesOnly.memoryKept
      · show (hostTlps m write s).pwr.stalled ++ _ = _
        rw [show (hostTlps m write s).pwr = s.pwr by rw [hev.1]]
        rfl

end Sys2Proof.Machine
end

section
/-! Messages and the link (O17). -/

namespace Sys2Proof.Machine

/-! ### Messages are only added

What events send is appended to the messages sent, or, where it is masked, sets a pending bit: neither takes one
back. -/

/-- Vector w is pending (R52). -/
def State.pba (s : State) (w : Nat) : Bool := (s.winGet (0x47000 + w / 32 * 4)).getLsbD (w % 32)

/-- From `s` to `t` only events happen; messages are appended, and no pending bit goes. -/
def State.sends (s t : State) : Prop := s.eventsOnly t ∧ s.msgs <+: t.msgs ∧ ∀ w, s.pba w = true → t.pba w = true

theorem State.sends_refl (s : State) : s.sends s := ⟨s.eventsOnly_refl, List.prefix_refl _, fun _ h => h⟩

theorem State.sends_trans {s t u : State} (h1 : s.sends t) (h2 : t.sends u) : s.sends u :=
  ⟨State.eventsOnly_trans h1.1 h2.1, h1.2.1.trans h2.2.1, fun w h => h2.2.2 w (h1.2.2 w h)⟩

/-- Events that neither send nor mask anything. -/
theorem State.sends_of_quiet {s t : State} (h : s.eventsOnly t) (hm : t.msgs = s.msgs) (hw : t.win = s.win) : s.sends t :=
  ⟨h, hm ▸ List.prefix_refl _, fun w hp => by rw [State.pba, State.winGet, hw]; exact hp⟩

theorem addCount_quiet (n i : Nat) (s : State) : (addCount n i s).msgs = s.msgs ∧ (addCount n i s).win = s.win := by
  delta addCount
  extract_lets e t
  split <;> exact ⟨rfl, rfl⟩

theorem countRaw_quiet (s : State) (src n : Nat) : (s.countRaw src n).msgs = s.msgs ∧ (s.countRaw src n).win = s.win :=
  List.foldlRecOn (motive := fun t : State => t.msgs = s.msgs ∧ t.win = s.win) _ _ ⟨rfl, rfl⟩ fun t ht i _ =>
    ⟨(addCount_quiet n i t).1.trans ht.1, (addCount_quiet n i t).2.trans ht.2⟩

theorem countRaw_sends (s : State) (src n : Nat) : s.sends (s.countRaw src n) :=
  State.sends_of_quiet (countRaw_eventsOnly s src n) (countRaw_quiet s src n).1 (countRaw_quiet s src n).2

/-- A vector that is enabled and not masked goes out. -/
theorem sendRaw_of_free {s : State} {w : Nat} (he : s.pcie.cfg.msixEnable = true) (hm : s.msixMasked w = false) :
    s.sendRaw w = ({ s with msgs := s.msgs ++ [w] }.countRaw 0x8E 1).countTlp false 1 := by
  unfold State.sendRaw
  rw [if_neg (by simp [he]), if_neg (by simp [hm])]

theorem sendRaw_of_masked {s : State} {w : Nat} (he : s.pcie.cfg.msixEnable = true) (hm : s.msixMasked w = true) :
    s.sendRaw w = s.winSet (0x47000 + w / 32 * 4) (s.winGet (0x47000 + w / 32 * 4) ||| BitVec.ofNat 32 (2 ^ (w % 32))) := by
  unfold State.sendRaw
  rw [if_neg (by simp [he]), if_pos hm]

theorem sendRaw_of_disabled {s : State} (w : Nat) (he : s.pcie.cfg.msixEnable = false) : s.sendRaw w = s :=
  if_pos (by simp [he])

/-- What goes out stands at the end of the messages. -/
theorem sendRaw_msgs_of_free {s : State} {w : Nat} (he : s.pcie.cfg.msixEnable = true) (hm : s.msixMasked w = false) :
    (s.sendRaw w).msgs = s.msgs ++ [w] ∧ (s.sendRaw w).win = s.win := by
  rw [sendRaw_of_free he hm]
  unfold State.countTlp
  rw [(countRaw_quiet _ _ _).1, (countRaw_quiet _ _ _).2, (countRaw_quiet _ _ _).1, (countRaw_quiet _ _ _).2]
  exact ⟨rfl, rfl⟩

/-- Setting bits of a dword that holds pending bits takes none away. -/
theorem pba_winSet_or {s : State} {w : Nat} (a : Nat) (x : Dword) (h : s.pba w = true) :
    (s.winSet a (s.winGet a ||| x)).pba w = true := by
  unfold State.pba at h ⊢
  rw [State.winGet_winSet]
  split
  · next ha =>
    rw [← ha, BitVec.getLsbD_or, h, Bool.true_or]
  · exact h

theorem sendRaw_sends (s : State) (w : Nat) (h : w < 2048) : s.sends (s.sendRaw w) := by
  have hev := sendRaw_eventsOnly s w h
  cases he : s.pcie.cfg.msixEnable with
  | false =>
    rw [sendRaw_of_disabled w he]
    exact s.sends_refl
  | true =>
    cases hm : s.msixMasked w with
    | false =>
      obtain ⟨hmsgs, hwin⟩ := sendRaw_msgs_of_free he hm
      exact ⟨hev, hmsgs ▸ List.prefix_append _ _, fun v hv => by rw [State.pba, State.winGet, hwin]; exact hv⟩
    | true =>
      rw [sendRaw_of_masked he hm] at hev ⊢
      exact ⟨hev, List.prefix_refl _, fun v hv => pba_winSet_or _ _ hv⟩

theorem sendMsix_sends (s : State) (w : Nat) (h : w < 2048) : s.sends (s.sendMsix w) := by
  delta State.sendMsix
  extract_lets t
  have ht : s.sends t := sendRaw_sends s w h
  split
  · exact State.sends_trans ht (sendRaw_sends _ _ (vectors_mod s 12))
  · exact ht

theorem sendVec_sends (s : State) (v : Nat) : s.sends (s.sendVec v) := by
  delta State.sendVec
  split
  · exact sendMsix_sends _ _ (vectors_mod s v)
  · exact s.sends_refl

theorem count_sends (s : State) (src n : Nat) : s.sends (s.count src n) := by
  delta State.count
  split
  · exact s.sends_refl
  · delta withVec
    extract_lets t
    have ht : s.sends t := countRaw_sends s src n
    split
    · exact State.sends_trans ht (sendVec_sends _ _)
    · exact ht

theorem hostTlps_sends (m : Master) (w : Bool) (s : State) : s.sends (hostTlps m w s) := by
  unfold hostTlps
  split
  · dsimp only
    split
    · exact count_sends s 0x88 1
    · exact State.sends_trans (count_sends s 0x88 1) (count_sends _ 0x89 1)
  · exact s.sends_refl

/-! ### A vector unmasked (R52) -/

/-- From `s` to `t`, as `sends`, but for pending bits: some may have gone out. -/
theorem msixUnmask_eventsOnly (s : State) {w : Nat} (h : w < 2048) : s.eventsOnly (msixUnmask w s) := by
  unfold msixUnmask
  dsimp only
  split
  · exact State.eventsOnly_trans (winSet_eventsOnly s _ _ (by omega)) (sendMsix_eventsOnly _ w h)
  · exact s.eventsOnly_refl

/-- Masks stand in the MSI-X table and the configuration, which events leave alone. -/
theorem State.eventsOnly.msixMasked {s t : State} (h : s.eventsOnly t) (w : Nat) : t.msixMasked w = s.msixMasked w := by
  unfold State.msixMasked
  rw [h.2 _ (by omega), h.1]

theorem State.eventsOnly.pcie {s t : State} (h : s.eventsOnly t) : t.pcie = s.pcie := by rw [h.1]

theorem pba_eq (s : State) (w : Nat) : s.pba w = (s.winGet (0x47000 + w / 32 * 4)).getLsbD (w % 32) := rfl

/-- A pending vector that nothing masks goes out, before any message that it brings about. -/
theorem msixUnmask_of_pending {s : State} {w : Nat} (he : s.pcie.cfg.msixEnable = true) (hp : s.pba w = true)
    (hm : s.msixMasked w = false) : msixUnmask w s =
      (s.winSet (0x47000 + w / 32 * 4) (s.winGet (0x47000 + w / 32 * 4) &&& ~~~BitVec.ofNat 32 (2 ^ (w % 32)))).sendMsix w := by
  unfold msixUnmask
  rw [pba_eq] at hp
  exact if_pos (by simp [he, hp, hm])

theorem msixUnmask_of_not {s : State} {w : Nat} (h : (s.pcie.cfg.msixEnable && s.pba w && !s.msixMasked w) = false) :
    msixUnmask w s = s := if_neg (by rw [← pba_eq, h]; decide)

/-- What `sendMsix` appends first is the vector itself. -/
theorem sendMsix_msgs {s : State} {w : Nat} (he : s.pcie.cfg.msixEnable = true) (hm : s.msixMasked w = false) :
    s.msgs ++ [w] <+: (s.sendMsix w).msgs := by
  have hraw := (sendRaw_msgs_of_free he hm).1
  unfold State.sendMsix
  dsimp only
  split
  · exact hraw ▸ (sendRaw_sends _ _ (vectors_mod s 12)).2.1
  · exact hraw ▸ List.prefix_refl _

/-- Only its own pending bit goes when a vector is unmasked. -/
theorem pba_clear_ne {s : State} {w v : Nat} (hne : v ≠ w) (h : s.pba v = true) :
    (s.winSet (0x47000 + w / 32 * 4) (s.winGet (0x47000 + w / 32 * 4) &&& ~~~BitVec.ofNat 32 (2 ^ (w % 32)))).pba v = true := by
  rw [pba_eq] at h ⊢
  rw [State.winGet_winSet]
  split
  · next ha =>
    have hmod : v % 32 ≠ w % 32 := by omega
    rw [← ha, BitVec.getLsbD_and, h, BitVec.getLsbD_not, BitVec.getLsbD_ofNat, Nat.testBit_two_pow_of_ne (Ne.symm hmod)]
    simp
    omega
  · exact h

theorem pba_clear_same (s : State) (w : Nat) :
    (s.winSet (0x47000 + w / 32 * 4) (s.winGet (0x47000 + w / 32 * 4) &&& ~~~BitVec.ofNat 32 (2 ^ (w % 32)))).pba w = false := by
  rw [pba_eq, State.winGet_winSet, if_pos rfl, BitVec.getLsbD_and, BitVec.getLsbD_not, BitVec.getLsbD_ofNat, Nat.testBit_two_pow_self]
  simp

/-! ### The function mask cleared (R52) -/

/-- Vector w has gone out since `s`. -/
def State.sentBy (s t : State) (w : Nat) : Prop := w ∈ t.msgs.drop s.msgs.length

theorem State.sentBy_of_prefix {s t u : State} {w : Nat} (h : s.sentBy t w) (hp : t.msgs <+: u.msgs) : s.sentBy u w :=
  (hp.drop _).subset h

/-- From `s` to `t` events happen, messages are appended, and a vector pending in `s` is pending still or has gone out. -/
def State.lets (s t : State) : Prop :=
  s.eventsOnly t ∧ s.msgs <+: t.msgs ∧ ∀ w, s.pba w = true → s.sentBy t w ∨ t.pba w = true

theorem sentBy_of_append {s t u : State} {w : Nat} (h : s.msgs <+: t.msgs) (hu : t.msgs ++ [w] <+: u.msgs) : s.sentBy u w := by
  refine (hu.drop _).subset ?_
  rw [List.drop_append_of_le_length h.length_le]
  exact List.mem_append_right _ List.mem_cons_self

/-- Unmasking a vector keeps that, and sends the vector where it was pending. -/
theorem msixUnmask_lets {s t : State} {w : Nat} (hw : w < 2048) (h : s.lets t) : s.lets (msixUnmask w t) ∧
    (s.pcie.cfg.msixEnable = true → s.pba w = true → s.msixMasked w = false → s.sentBy (msixUnmask w t) w) := by
  obtain ⟨hev, hmsgs, hpend⟩ := h
  have hev' := State.eventsOnly_trans hev (msixUnmask_eventsOnly t hw)
  cases hc : t.pcie.cfg.msixEnable && t.pba w && !t.msixMasked w with
  | false =>
    rw [msixUnmask_of_not hc]
    refine ⟨⟨hev, hmsgs, hpend⟩, fun he hp hm => (hpend w hp).resolve_right fun hpt => ?_⟩
    rw [hev.pcie, hev.msixMasked, he, hpt, hm] at hc
    exact absurd hc (by decide)
  | true =>
    simp only [Bool.and_eq_true, Bool.not_eq_true'] at hc
    obtain ⟨⟨he, hp⟩, hm⟩ := hc
    rw [msixUnmask_of_pending he hp hm] at hev' ⊢
    have hsent := sendMsix_msgs (s := t.winSet (0x47000 + w / 32 * 4)
      (t.winGet (0x47000 + w / 32 * 4) &&& ~~~BitVec.ofNat 32 (2 ^ (w % 32)))) (w := w) he
      (((winSet_eventsOnly t _ _ (by omega)).msixMasked w).trans hm)
    have hsends := sendMsix_sends (t.winSet (0x47000 + w / 32 * 4)
      (t.winGet (0x47000 + w / 32 * 4) &&& ~~~BitVec.ofNat 32 (2 ^ (w % 32)))) w hw
    have hself := sentBy_of_append hmsgs hsent
    refine ⟨⟨hev', hmsgs.trans hsends.2.1, fun v hv => ?_⟩, fun _ _ _ => hself⟩
    by_cases hvw : v = w
    · exact .inl (hvw ▸ hself)
    · rcases hpend v hv with hv | hv
      · exact .inl (State.sentBy_of_prefix hv hsends.2.1)
      · exact .inr (hsends.2.2 v (pba_clear_ne hvw hv))

theorem foldl_msixUnmask_lets {s : State} (l : List Nat) (hl : ∀ w ∈ l, w < 2048) : ∀ t, s.lets t →
    s.lets (l.foldl (fun t w => msixUnmask w t) t) ∧
      (s.pcie.cfg.msixEnable = true → ∀ w ∈ l, s.pba w = true → s.msixMasked w = false →
        s.sentBy (l.foldl (fun t w => msixUnmask w t) t) w) := by
  induction l with
  | nil => exact fun t h => ⟨h, fun _ w hw => absurd hw List.not_mem_nil⟩
  | cons w l ih =>
    intro t h
    obtain ⟨hstep, hsent⟩ := msixUnmask_lets (hl w List.mem_cons_self) h
    have hrest : (msixUnmask w t).msgs <+: (l.foldl (fun t w => msixUnmask w t) (msixUnmask w t)).msgs :=
      List.foldlRecOn (motive := fun u : State => (msixUnmask w t).msgs <+: u.msgs) l _ (List.prefix_refl _) fun u hu v hv =>
        hu.trans (msixUnmask_lets (s := u) (hl v (List.mem_cons_of_mem w hv)) ⟨u.eventsOnly_refl, List.prefix_refl _, fun _ h => .inr h⟩).1.2.1
    obtain ⟨hlets, hall⟩ := ih (fun v hv => hl v (List.mem_cons_of_mem w hv)) _ hstep
    refine ⟨hlets, fun he v hv hp hm => ?_⟩
    rcases List.mem_cons.1 hv with rfl | hv
    · exact State.sentBy_of_prefix (hsent he hp hm) hrest
    · exact hall he v hv hp hm

/-- The function's mask, cleared. -/
def clearFunctionMask (s : State) : State :=
  { s with pcie := { s.pcie with cfg := { s.pcie.cfg with functionMask := false } } }

theorem msixFunctionUnmask_settles (s : State) : (clearFunctionMask s).eventsOnly (msixFunctionUnmask s) ∧
    (s.pcie.cfg.msixEnable = true → ∀ w : Fin 2048, s.pba w.val = true →
      (s.winGet (0x48000 + 16 * w.val + 12)).getLsbD 0 = false → s.sentBy (msixFunctionUnmask s) w.val) := by
  obtain ⟨hlets, hsent⟩ := foldl_msixUnmask_lets (s := clearFunctionMask s)
    ((List.range 2048).filter fun w => (clearFunctionMask s).pba w && !(clearFunctionMask s).msixMasked w)
    (fun w hw => List.mem_range.1 (List.mem_of_mem_filter hw)) (clearFunctionMask s)
    ⟨State.eventsOnly_refl _, List.prefix_refl _, fun _ h => .inr h⟩
  refine ⟨hlets.1, fun he w hp hm => ?_⟩
  have hfree : (clearFunctionMask s).msixMasked w.val = false := (Bool.false_or _).trans hm
  have hpend : (clearFunctionMask s).pba w.val = true := hp
  exact hsent he w.val (List.mem_filter.2 ⟨List.mem_range.2 w.isLt, by rw [hpend, hfree]; rfl⟩) hpend hfree

/-! ### The host's reset of the function (R51, R224) -/

theorem tabGet_filter {α : Type} (d : Nat → α) (p : Nat → Bool) (l : Tab α) (a : Nat) :
    tabGet d (l.filter fun e => p e.1) a = if p a then tabGet d l a else d a := by
  induction l with
  | nil => simp
  | cons e l ih =>
    obtain ⟨k, v⟩ := e
    rw [List.filter_cons]
    by_cases hk : k = a
    · subst hk
      cases hp : p k with
      | true => simp [tabGet]
      | false => simp [ih, hp]
    · cases hp : p k with
      | true => simp [tabGet, hk, ih]
      | false => simp [tabGet, hk, ih]

/-- From `s` to `t` nothing changes but registers. -/
def State.regsOnly (s t : State) : Prop := t = { s with regs := t.regs, copyB := t.copyB, copyC := t.copyC }

theorem State.regsOnly_trans {s t u : State} (h1 : s.regsOnly t) (h2 : t.regsOnly u) : s.regsOnly u := by
  refine Eq.trans h2 ?_
  rw [h1]

theorem setFld_regsOnly (s : State) (f : Fld) (n : Nat) : s.regsOnly (s.setFld f n) := rfl

/-- The windows and the configuration of a Function Level Reset. -/
def windowsCleared (s : State) : State :=
  { s with win := s.win.filter (fun e => !(0x47000 ≤ e.1 && e.1 < 0x50000)), pcie := {} }

/-- The registers of a Function Level Reset. -/
def pumpCleared (s : State) : State :=
  ((((s.setBit F.RING_CTRL_PUMP_EN false).setFld F.RING_CB_BASE0_CB 0).setFld F.RING_CB_BASE1_CB 0).setFld
    F.RING_CB_BASE2_CB 0).setFld F.RING_CB_BASE3_CB 0

theorem pumpCleared_regsOnly (s : State) : s.regsOnly (pumpCleared s) :=
  State.regsOnly_trans (State.regsOnly_trans (State.regsOnly_trans (State.regsOnly_trans (setFld_regsOnly s _ _)
    (setFld_regsOnly _ _ _)) (setFld_regsOnly _ _ _)) (setFld_regsOnly _ _ _)) (setFld_regsOnly _ _ _)

theorem functionReset_eq {s : State} (h : s.fabricDown = false) :
    functionReset s = (pumpCleared (windowsCleared s)).raise F.HOST_LINK_STAT_FLR_EVT := by
  unfold functionReset
  exact if_neg (by simp [h])

theorem windowsCleared_winGet (s : State) (a : Nat) :
    (windowsCleared s).winGet a = if 0x47000 ≤ a ∧ a < 0x50000 then winReset a else s.winGet a := by
  refine (tabGet_filter winReset (fun k => !(0x47000 ≤ k && k < 0x50000)) s.win a).trans ?_
  by_cases h : 0x47000 ≤ a ∧ a < 0x50000
  · rw [if_pos h, if_neg (by simpa using h)]
  · rw [if_neg h, if_pos (by simp; omega)]
    rfl

theorem pumpCleared_fields (s : State) : (pumpCleared s).bit F.RING_CTRL_PUMP_EN = false ∧
    (pumpCleared s).fld F.RING_CB_BASE0_CB = 0 ∧ (pumpCleared s).fld F.RING_CB_BASE1_CB = 0 ∧
    (pumpCleared s).fld F.RING_CB_BASE2_CB = 0 ∧ (pumpCleared s).fld F.RING_CB_BASE3_CB = 0 := by
  have apart (u : State) (f g : Fld) (hw : f.lo + f.w ≤ 16) (hd : g.addr ≠ f.addr) :
      (u.setFld f 0).fld g = u.fld g := State.fld_setFld_ne u f g 0 hw (.inl hd)
  have cleared (u : State) (f : Fld) (hw : f.lo + f.w ≤ 16) : (u.setFld f 0).fld f = 0 := by
    rw [State.fld_setFld u f 0 hw, Nat.zero_mod]
  unfold pumpCleared State.bit
  refine ⟨?_, ?_, ?_, ?_, ?_⟩
  · simp (disch := decide) only [apart]
    exact State.bit_setBit _ F.RING_CTRL_PUMP_EN false (by decide) rfl
  all_goals simp (disch := decide) only [apart, cleared]

theorem pumpCleared_regsKept (s : State) :
    s.regsKept [R.RING_CTRL, R.RING_CB_BASE0, R.RING_CB_BASE1, R.RING_CB_BASE2, R.RING_CB_BASE3] (pumpCleared s) := by
  intro a ha
  simp only [List.mem_cons, List.not_mem_nil, or_false, not_or] at ha
  obtain ⟨h0, h1, h2, h3, h4⟩ := ha
  unfold pumpCleared
  rw [State.reg_setFld_ne _ _ h4, State.reg_setFld_ne _ _ h3, State.reg_setFld_ne _ _ h2, State.reg_setFld_ne _ _ h1,
    State.reg_setBit_ne _ _ h0]

/-- What a Function Level Reset does to a part whose endpoint runs. -/
theorem functionReset_settles {s : State} (h : s.fabricDown = false) :
    let t := functionReset s
    (∀ a, 0x48000 ≤ a → a < 0x50000 → t.winGet a = winReset a) ∧ t.pcie = {} ∧ t.bit F.RING_CTRL_PUMP_EN = false ∧
      t.fld F.RING_CB_BASE0_CB = 0 ∧ t.fld F.RING_CB_BASE1_CB = 0 ∧ t.fld F.RING_CB_BASE2_CB = 0 ∧
      t.fld F.RING_CB_BASE3_CB = 0 ∧ t.flagged F.HOST_LINK_STAT_FLR_EVT ∧
      s.regsKept [R.RING_CTRL, R.RING_CB_BASE0, R.RING_CB_BASE1, R.RING_CB_BASE2, R.RING_CB_BASE3] t ∧
      (∀ a, a < 0x47000 ∨ 0x50000 ≤ a → t.winGet a = s.winGet a) ∧
      t = { s with
        regs := t.regs, copyB := t.copyB, copyC := t.copyC, hostRc := t.hostRc, spx1Rc := t.spx1Rc,
        win := t.win, msgs := t.msgs, pcie := t.pcie, evcs := t.evcs } := by
  intro t
  have ht : t = (pumpCleared (windowsCleared s)).raise F.HOST_LINK_STAT_FLR_EVT := functionReset_eq h
  have hregs := pumpCleared_regsKept (windowsCleared s)
  have hframe := pumpCleared_regsOnly (windowsCleared s)
  have hwin : ∀ a, (pumpCleared (windowsCleared s)).winGet a = if 0x47000 ≤ a ∧ a < 0x50000 then winReset a else s.winGet a := fun a => by
    rw [hframe]
    exact windowsCleared_winGet s a
  obtain ⟨hpump, hcb0, hcb1, hcb2, hcb3⟩ := pumpCleared_fields (windowsCleared s)
  generalize pumpCleared (windowsCleared s) = u at ht hregs hframe hwin hpump hcb0 hcb1 hcb2 hcb3
  have hev : u.eventsOnly t := ht ▸ raise_eventsOnly _ _
  have hfld : ∀ f, t.fld f = u.fld f := fun f => congrArg (fieldOf · f.lo f.w) (hev.reg f.addr)
  refine ⟨fun a h1 h2 => ?_, hev.pcie.trans (by rw [hframe]; rfl), (State.bit_of_eventsOnly hev _).trans hpump,
    (hfld _).trans hcb0, (hfld _).trans hcb1, (hfld _).trans hcb2, (hfld _).trans hcb3, ht ▸ raise_flagged _ _,
    fun a ha => (hev.reg a).trans (hregs a ha), fun a ha => ?_, ?_⟩
  · rw [hev.2 a (by omega), hwin, if_pos ⟨by omega, h2⟩]
  · rw [hev.2 a (by omega), hwin, if_neg (by omega)]
  · rw [hev.1, hframe]
    rfl

end Sys2Proof.Machine
end

section
/-! The link, PERST_N and unmasked vectors (O17). -/

namespace Sys2Proof.Machine

/-! ### A wake event (R333) -/

/-- What a wake event leaves alone: RC bits that stand, windows but for pending bits, and the ring's control. -/
def State.wakes (s t : State) : Prop :=
  s.rcGrows t ∧ (∀ a, a < 0x47000 ∨ 0x47100 ≤ a → t.winGet a = s.winGet a) ∧ t.reg R.RING_CTRL = s.reg R.RING_CTRL

theorem State.wakes_trans {s t u : State} (h1 : s.wakes t) (h2 : t.wakes u) : s.wakes u :=
  ⟨State.rcGrows_trans h1.1 h2.1, fun a ha => (h2.2.1 a ha).trans (h1.2.1 a ha), h2.2.2.trans h1.2.2⟩

theorem State.wakes_refl (s : State) : s.wakes s := ⟨s.rcGrows_refl, fun _ _ => rfl, rfl⟩

theorem raiseMask_wakes (s : State) (a : Nat) (m : Word) : s.wakes (s.raiseMask a m) :=
  ⟨raiseMask_rcGrows s a m, (raiseMask_eventsOnly s a m).2, (raiseMask_eventsOnly s a m).reg _⟩

theorem startExit_wakes (s : State) : s.wakes (startExit s) := by
  have hreg : ∀ (u : State) (f : Fld) (n : Nat), f.addr ≠ R.RING_CTRL → (u.setFld f n).reg R.RING_CTRL = u.reg R.RING_CTRL :=
    fun u f n hf => State.reg_setFld_ne u n (Ne.symm hf)
  have hstart : ((s.setBit F.PWR_STAT_EXITING true).setFld F.PWR_VID_CUR 0x64).reg R.RING_CTRL = s.reg R.RING_CTRL :=
    (hreg _ _ _ (by decide)).trans (hreg _ _ _ (by decide))
  unfold startExit
  dsimp only
  split
  · exact ⟨State.rcGrows_of_eq rfl rfl, fun _ _ => rfl, (hreg _ F.CHIP_BOOT_STAT_STEP _ (by decide)).trans hstart⟩
  · exact ⟨State.rcGrows_of_eq rfl rfl, fun _ _ => rfl, hstart⟩

/-- The state whose wake an event may end. -/
def State.wakeState (s : State) : Nat := if s.bit F.PWR_STAT_ENTERING then s.pwr.target else s.fld F.PWR_STAT_STATE

theorem wakeEvent_of_ignored {s : State} {bit : Nat}
    (h : (s.reg R.PWR_WAKE_EN).getLsbD bit = false ∨ wakeEnds bit s.wakeState = false) : wakeEvent bit s = s := by
  unfold State.wakeState at h
  exact if_pos (by rcases h with h | h <;> simp [h])

/-- A wake event that counts is noted in WAKE_SRC before all that it brings about. -/
theorem wakeEvent_of_noted {s : State} {bit : Nat} (he : (s.reg R.PWR_WAKE_EN).getLsbD bit = true)
    (hw : wakeEnds bit s.wakeState = true) :
    (s.raiseMask R.PWR_WAKE_SRC (BitVec.ofNat 16 (2 ^ bit))).wakes (wakeEvent bit s) := by
  unfold wakeEvent
  dsimp only
  unfold State.wakeState at hw
  rw [if_neg (by simp [he, hw])]
  split
  · exact State.wakes_refl _
  · split
    · exact State.wakes_trans (raiseMask_wakes _ _ _) ⟨State.rcGrows_of_eq rfl rfl, fun _ _ => rfl, rfl⟩
    · split
      · exact State.wakes_refl _
      · exact State.wakes_trans (raiseMask_wakes _ _ _) (startExit_wakes _)

theorem wakeEvent_wakes (bit : Nat) (s : State) : s.wakes (wakeEvent bit s) := by
  by_cases h : (s.reg R.PWR_WAKE_EN).getLsbD bit = true ∧ wakeEnds bit s.wakeState = true
  · exact State.wakes_trans (raiseMask_wakes _ _ _) (wakeEvent_of_noted h.1 h.2)
  · rw [not_and_or, Bool.not_eq_true, Bool.not_eq_true] at h
    rw [wakeEvent_of_ignored h]
    exact s.wakes_refl

theorem wakeEvent_sets {s : State} {bit : Nat} (he : (s.reg R.PWR_WAKE_EN).getLsbD bit = true)
    (hw : wakeEnds bit s.wakeState = true) : (wakeEvent bit s).rcHost R.PWR_WAKE_SRC &&& BitVec.ofNat 16 (2 ^ bit) =
      BitVec.ofNat 16 (2 ^ bit) ∧ (wakeEvent bit s).rcSpx1 R.PWR_WAKE_SRC &&& BitVec.ofNat 16 (2 ^ bit) = BitVec.ofNat 16 (2 ^ bit) :=
  (wakeEvent_of_noted he hw).1.keeps (raiseMask_sets _ _ _)

/-! ### PERST_N (R375) -/

/-- The reset of the function leaves the power registers. -/
theorem functionReset_power (s : State) : (functionReset s).reg R.PWR_WAKE_EN = s.reg R.PWR_WAKE_EN ∧
    (functionReset s).wakeState = s.wakeState := by
  cases h : s.fabricDown with
  | true => rw [functionReset, if_pos h]; exact ⟨rfl, rfl⟩
  | false =>
    obtain ⟨-, -, -, -, -, -, -, -, hregs, -, hframe⟩ := functionReset_settles h
    have hstat : (functionReset s).reg R.PWR_STAT = s.reg R.PWR_STAT := hregs _ (by decide)
    have hpwr : (functionReset s).pwr = s.pwr := by rw [hframe]
    refine ⟨hregs _ (by decide), ?_⟩
    unfold State.wakeState State.bit State.fld
    rw [show F.PWR_STAT_ENTERING.addr = R.PWR_STAT from rfl, show F.PWR_STAT_STATE.addr = R.PWR_STAT from rfl, hstat, hpwr]

/-! ### The link (R51) -/

theorem linkLost_settles (s : State) (hup : s.fabricDown = false) : (s.linkUp = false → linkLost s = s) ∧
    (s.linkUp = true → ({ s with linkUp := false } : State).eventsOnly (linkLost s) ∧
      (linkLost s).flagged F.HOST_LINK_STAT_LINK_DOWN_EVT) := by
  refine ⟨fun h => ?_, fun h => ?_⟩
  · unfold linkLost
    exact if_pos (by simp [h])
  · have ht : linkLost s = ({ s with linkUp := false } : State).raise F.HOST_LINK_STAT_LINK_DOWN_EVT := by
      unfold linkLost
      exact if_neg (by simp [h, hup])
    exact ht ▸ ⟨raise_eventsOnly _ _, raise_flagged _ _⟩

/-- The host configures the function: whatever was masked by the function alone goes out. -/
theorem configure_eventsOnly (cfg : PcieConfig) (s : State) :
    ({ s with pcie := { s.pcie with cfg := cfg } } : State).eventsOnly (configure cfg s) := by
  unfold configure
  dsimp only
  split
  · exact State.eventsOnly_refl _
  · next h =>
    have hcfg : ({ cfg with functionMask := false } : PcieConfig) = cfg := by
      cases cfg
      simp only [Bool.not_eq_true] at h
      simp only [h]
    have hset := (msixFunctionUnmask_settles { s with pcie := { s.pcie with cfg := cfg } }).1
    unfold clearFunctionMask at hset
    dsimp only at hset
    rwa [hcfg] at hset

/-- The link in L0, before the host configures the function. -/
def linkShown (speed width : Nat) (s : State) : State :=
  { (s.setFld F.HOST_LINK_STAT_SPEED speed).setFld F.HOST_LINK_STAT_WIDTH width with linkUp := true }

theorem linkShown_fields (speed width : Fin 16) (s : State) :
    (linkShown speed.val width.val s).fld F.HOST_LINK_STAT_SPEED = speed.val ∧
      (linkShown speed.val width.val s).fld F.HOST_LINK_STAT_WIDTH = width.val ∧
      s.regsKept [R.HOST_LINK_STAT] (linkShown speed.val width.val s) := by
  have hfld : ∀ f, (linkShown speed.val width.val s).fld f =
      ((s.setFld F.HOST_LINK_STAT_SPEED speed.val).setFld F.HOST_LINK_STAT_WIDTH width.val).fld f := fun _ => rfl
  have hreg : ∀ a, (linkShown speed.val width.val s).reg a =
      ((s.setFld F.HOST_LINK_STAT_SPEED speed.val).setFld F.HOST_LINK_STAT_WIDTH width.val).reg a := fun _ => rfl
  refine ⟨?_, ?_, fun a ha => ?_⟩
  · rw [hfld, State.fld_setFld_ne _ F.HOST_LINK_STAT_WIDTH F.HOST_LINK_STAT_SPEED _ (by decide) (by decide),
      State.fld_setFld _ _ _ (by decide)]
    exact Nat.mod_eq_of_lt speed.isLt
  · rw [hfld, State.fld_setFld _ _ _ (by decide)]
    exact Nat.mod_eq_of_lt width.isLt
  · have ha' : a ≠ R.HOST_LINK_STAT := by simpa using ha
    rw [hreg, State.reg_setFld_ne _ _ ha', State.reg_setFld_ne _ _ ha']

/-! ### One vector unmasked (R52) -/

/-- The write of 0 to byte 0 of a vector's mask, as the window takes it. -/
theorem winWrite_mask (w : Fin 2048) (s : State) : winWrite .pcie (0x48000 + 16 * w.val + 12) 1 0 s =
    let t := winPut (0x48000 + 16 * w.val + 12) 1 0 s
    if (s.winGet (0x48000 + 16 * w.val + 12)).getLsbD 0 && !(t.winGet (0x48000 + 16 * w.val + 12)).getLsbD 0 then
      msixUnmask w.val t else t := by
  have hw := w.isLt
  have hindex : (0x48000 + 16 * w.val + 12 - 0x48000) / 16 = w.val := by omega
  unfold winWrite
  rw [if_pos (by simp only [Bool.and_eq_true, decide_eq_true_eq]; omega), hindex]

theorem mergeBytes_low_zero (v : Dword) : (mergeBytes v 0 1).getLsbD 0 = false := by
  rw [show mergeBytes v 0 1 = (v &&& ~~~(0xFF#32)) ||| (0#32 &&& 0xFF#32) from rfl, BitVec.zero_and, BitVec.or_zero,
    BitVec.getLsbD_and, BitVec.getLsbD_not]
  simp

theorem hostTlps_msgs_of_irq_off {s : State} (m : Master) (w : Bool) (h : s.bit F.HOST_IRQ_CFG_IRQ_EN = false) :
    (hostTlps m w s).msgs = s.msgs := by
  have counted : ∀ (u : State) (src n : Nat), u.bit F.HOST_IRQ_CFG_IRQ_EN = false → (u.count src n).msgs = u.msgs :=
    fun u src n hu => by rw [count_of_irq_off src n hu, (countRaw_quiet u src n).1]
  have hbit : (s.count 0x88 1).bit F.HOST_IRQ_CFG_IRQ_EN = false := (State.bit_of_eventsOnly (count_eventsOnly s 0x88 1) _).trans h
  unfold hostTlps
  split
  · dsimp only
    split
    · exact counted s 0x88 1 h
    · exact (counted _ 0x89 1 hbit).trans (counted s 0x88 1 h)
  · rfl

theorem sendMsix_of_irq_off {s : State} (w : Nat) (h : s.bit F.HOST_IRQ_CFG_IRQ_EN = false) : s.sendMsix w = s.sendRaw w :=
  if_neg (by simp [h])

section
variable {s : State} {w : Fin 2048}

/-- The vector's mask byte, written 0. -/
def maskCleared (w : Nat) (s : State) : State := winPut (0x48000 + 16 * w + 12) 1 0 s

theorem maskCleared_winGet (s : State) (w a : Nat) : (maskCleared w s).winGet a =
    if a = 0x48000 + 16 * w + 12 then mergeBytes (s.winGet (0x48000 + 16 * w + 12)) 0 1 else s.winGet a :=
  State.winGet_winSet _ _ _ _

theorem maskCleared_bit (s : State) (w : Nat) : ((maskCleared w s).winGet (0x48000 + 16 * w + 12)).getLsbD 0 = false := by
  rw [maskCleared_winGet, if_pos rfl, mergeBytes_low_zero]

/-- The write acts as an unmask where the mask bit stood. -/
theorem exec_vectorUnmask (hs : s.Serves .pcie (0x48000 + 16 * w.val + 12))
    (hb : s.bootRefuses .pcie (0x48000 + 16 * w.val + 12) = false) :
    exec (.msixVectorUnmask (some w)) s = .next (if (s.winGet (0x48000 + 16 * w.val + 12)).getLsbD 0 then
      msixUnmask w.val (maskCleared w.val (hostTlps .pcie true s)) else maskCleared w.val (hostTlps .pcie true s)) := by
  have hw := w.isLt
  have haddr : busAddr (0x48000 + 16 * w.val + 12) = 0x48000 + 16 * w.val + 12 := busAddr_eq (by omega) (by omega)
  have hwindow : isWindow (0x48000 + 16 * w.val + 12) = true := by
    unfold isWindow
    simp only [Bool.or_eq_true, Bool.and_eq_true, decide_eq_true_eq]
    omega
  have hmask : (hostTlps .pcie true s).winGet (0x48000 + 16 * w.val + 12) = s.winGet (0x48000 + 16 * w.val + 12) :=
    (hostTlps_eventsOnly .pcie true s).2 _ (by omega)
  show Host.Outcome.next (busWrite .pcie (0x48000 + 16 * w.val + 12) 1 0 s) = _
  rw [busWrite_window 1 0 hs hb haddr hwindow, winWrite_mask]
  dsimp only
  rw [hmask, show winPut (0x48000 + 16 * w.val + 12) 1 0 (hostTlps .pcie true s) = maskCleared w.val (hostTlps .pcie true s) from rfl,
    maskCleared_bit, Bool.not_false, Bool.and_true]

theorem vectorUnmask_kept (s : State) (w : Fin 2048) {t : State}
    (ht : (maskCleared w.val (hostTlps .pcie true s)).eventsOnly t) :
    (t.winGet (0x48000 + 16 * w.val + 12)).getLsbD 0 = false ∧
      (∀ a, a ≠ 0x48000 + 16 * w.val + 12 → a < 0x47000 ∨ 0x47100 ≤ a → t.winGet a = s.winGet a) ∧ s.regsKept [] t := by
  have hev := hostTlps_eventsOnly .pcie true s
  refine ⟨?_, fun a ha hout => ?_, fun a _ => (ht.reg a).trans (hev.reg a)⟩
  · rw [ht.2 _ (by omega)]
    exact maskCleared_bit _ _
  · rw [ht.2 a hout, maskCleared_winGet, if_neg ha, hev.2 a hout]

/-- A pending vector that nothing masks goes out first; with no messages of the chip's own, alone, and is no longer
pending. -/
theorem msixUnmask_sends {t : State} {v : Nat} (hv : v < 2048) (he : t.pcie.cfg.msixEnable = true) (hp : t.pba v = true)
    (hm : t.msixMasked v = false) : t.msgs ++ [v] <+: (msixUnmask v t).msgs ∧
      (t.bit F.HOST_IRQ_CFG_IRQ_EN = false → (msixUnmask v t).msgs = t.msgs ++ [v] ∧ (msixUnmask v t).pba v = false) := by
  rw [msixUnmask_of_pending he hp hm]
  have hev := winSet_eventsOnly t (0x47000 + v / 32 * 4)
    (t.winGet (0x47000 + v / 32 * 4) &&& ~~~BitVec.ofNat 32 (2 ^ (v % 32))) (by omega)
  have hclear := pba_clear_same t v
  have hmsgs : (t.winSet (0x47000 + v / 32 * 4)
    (t.winGet (0x47000 + v / 32 * 4) &&& ~~~BitVec.ofNat 32 (2 ^ (v % 32)))).msgs = t.msgs := rfl
  generalize t.winSet (0x47000 + v / 32 * 4)
    (t.winGet (0x47000 + v / 32 * 4) &&& ~~~BitVec.ofNat 32 (2 ^ (v % 32))) = u at hev hclear hmsgs ⊢
  have he' : u.pcie.cfg.msixEnable = true := by rw [hev.pcie, he]
  have hm' : u.msixMasked v = false := by rw [hev.msixMasked, hm]
  refine ⟨hmsgs ▸ sendMsix_msgs he' hm', fun hoff => ?_⟩
  obtain ⟨hraw, hwin⟩ := sendRaw_msgs_of_free he' hm'
  rw [sendMsix_of_irq_off _ ((State.bit_of_eventsOnly hev _).trans hoff)]
  refine ⟨by rw [hraw, hmsgs], ?_⟩
  rw [pba_eq, State.winGet, hwin]
  exact hclear

/-- The pending message of a vector whose mask is cleared goes out; with no messages of the chip's own, alone. -/
theorem vectorUnmask_sends (he : s.pcie.cfg.msixEnable = true) (hf : s.pcie.cfg.functionMask = false)
    (hp : s.pba w.val = true) :
    s.sentBy (msixUnmask w.val (maskCleared w.val (hostTlps .pcie true s))) w.val ∧
      (s.bit F.HOST_IRQ_CFG_IRQ_EN = false →
        (msixUnmask w.val (maskCleared w.val (hostTlps .pcie true s))).msgs = s.msgs ++ [w.val] ∧
        (msixUnmask w.val (maskCleared w.val (hostTlps .pcie true s))).pba w.val = false) := by
  have hw := w.isLt
  obtain ⟨hev, hmsgs, hpend⟩ := hostTlps_sends .pcie true s
  have hquiet := hostTlps_msgs_of_irq_off (s := s) .pcie true
  generalize hostTlps .pcie true s = s' at hev hmsgs hpend hquiet ⊢
  have hcfg : (maskCleared w.val s').pcie = s.pcie := hev.pcie
  have hirq : (maskCleared w.val s').bit F.HOST_IRQ_CFG_IRQ_EN = s.bit F.HOST_IRQ_CFG_IRQ_EN := State.bit_of_eventsOnly hev _
  have hmsgs' : (maskCleared w.val s').msgs = s'.msgs := rfl
  have hp' : (maskCleared w.val s').pba w.val = true := by
    rw [pba_eq, maskCleared_winGet, if_neg (by omega)]
    exact hpend w.val hp
  have hm' : (maskCleared w.val s').msixMasked w.val = false := by
    unfold State.msixMasked
    rw [hcfg, hf, maskCleared_bit]
    rfl
  generalize maskCleared w.val s' = t at hcfg hirq hmsgs' hp' hm' ⊢
  obtain ⟨hsent, halone⟩ := msixUnmask_sends hw (by rw [hcfg, he]) hp' hm'
  refine ⟨sentBy_of_append (hmsgs' ▸ hmsgs) hsent, fun hoff => ?_⟩
  obtain ⟨hm1, hp1⟩ := halone (hirq.trans hoff)
  exact ⟨by rw [hm1, hmsgs', hquiet hoff], hp1⟩

end

theorem linkTrained_settles (s : State) (speed width : Fin 16) (cfg : PcieConfig) :
    let t := linkTrained speed.val width.val cfg s
    (s.linkMay = false → t = s) ∧
      (s.linkMay = true → t.linkUp = true ∧ t.pcie = { s.pcie with cfg := cfg } ∧
        t.fld F.HOST_LINK_STAT_SPEED = speed.val ∧ t.fld F.HOST_LINK_STAT_WIDTH = width.val ∧
        s.regsKept [R.HOST_LINK_STAT] t ∧
        t = { s with
          regs := t.regs, copyB := t.copyB, copyC := t.copyC, hostRc := t.hostRc, spx1Rc := t.spx1Rc,
          win := t.win, msgs := t.msgs, linkUp := t.linkUp, pcie := t.pcie, evcs := t.evcs }) := by
  intro t
  refine ⟨fun h => if_neg (by simp [h]), fun h => ?_⟩
  have ht : t = configure cfg (linkShown speed.val width.val s) := if_pos h
  obtain ⟨hspeed, hwidth, hregs⟩ := linkShown_fields speed width s
  have hshown : linkShown speed.val width.val s = { s with
      regs := (linkShown speed.val width.val s).regs, copyB := (linkShown speed.val width.val s).copyB,
      copyC := (linkShown speed.val width.val s).copyC, linkUp := true } := rfl
  generalize linkShown speed.val width.val s = u at ht hspeed hwidth hregs hshown
  have hev : ({ u with pcie := { u.pcie with cfg := cfg } } : State).eventsOnly t := ht ▸ configure_eventsOnly cfg u
  have hreg : ∀ a, t.reg a = u.reg a := hev.reg
  refine ⟨by rw [hev.1, hshown], by rw [hev.1, hshown], (congrArg (fieldOf · 4 4) (hreg _)).trans hspeed,
    (congrArg (fieldOf · 0 4) (hreg _)).trans hwidth, fun a ha => (hreg a).trans (hregs a ha), ?_⟩
  rw [hev.1, hshown]

/-- Settles O17, link event by link event. -/
theorem linkEvents : Obligations.LinkEvents := by
  intro s
  refine ⟨fun hdown => ⟨?_, ?_, ?_⟩, fun hup => ⟨_, rfl, functionReset_settles hup⟩, fun hup => ⟨_, rfl, ?_⟩,
    fun speed width cfg => ?_, fun hoff => ?_, ⟨_, rfl, fun hup => ?_, fun hen hends => ?_⟩,
    fun w hserves hboot => ?_, fun hup => ⟨msixFunctionUnmask s, ?_, ?_⟩⟩
  · exact congrArg Host.Outcome.next (if_pos hdown)
  · exact congrArg Host.Outcome.next (if_pos (by simp [hdown]))
  · exact congrArg Host.Outcome.next (if_pos hdown)
  · obtain ⟨hkeeps, hlost⟩ := linkLost_settles s hup
    refine ⟨hkeeps, fun h => ?_⟩
    obtain ⟨hev, hflag⟩ := hlost h
    refine ⟨by rw [hev.1], hflag, ⟨by rw [hev.1], hev.2⟩, ?_⟩
    rw [hev.1]
  · exact ⟨_, rfl, linkTrained_settles s _ _ cfg⟩
  · refine congrArg Host.Outcome.next (wakeEvent_of_ignored (.inl ?_))
    rw [(functionReset_power s).1, hoff]
  · obtain ⟨htable, -, hpump, -, -, -, -, hflag, -, -, -⟩ := functionReset_settles hup
    obtain ⟨hrc, hwin, hctrl⟩ := wakeEvent_wakes 6 (functionReset s)
    refine ⟨?_, hrc.flagged hflag, fun a h1 h2 => (hwin a (by omega)).trans (htable a h1 h2)⟩
    exact (congrArg (fun v => fieldOf v 0 1 != 0) hctrl).trans hpump
  · obtain ⟨hwake, hstate⟩ := functionReset_power s
    exact wakeEvent_sets (s := functionReset s) (bit := 6) (by rw [hwake, hen]) (by rw [hstate]; exact hends)
  · refine ⟨_, exec_vectorUnmask hserves hboot, ?_⟩
    cases hmask : (s.winGet (0x48000 + 16 * w.val + 12)).getLsbD 0 with
    | false =>
      obtain ⟨hbit, hwin, hregs⟩ := vectorUnmask_kept s w (State.eventsOnly_refl _)
      exact ⟨hbit, hwin, hregs, nofun⟩
    | true =>
      obtain ⟨hbit, hwin, hregs⟩ := vectorUnmask_kept s w (msixUnmask_eventsOnly _ w.isLt)
      exact ⟨hbit, hwin, hregs, fun _ he hf hp => vectorUnmask_sends he hf hp⟩
  · exact congrArg Host.Outcome.next (if_neg (by simp [hup]))
  · obtain ⟨hev, hsent⟩ := msixFunctionUnmask_settles s
    refine ⟨by rw [hev.pcie]; rfl, fun a _ => hev.reg a, hev.2, hsent, ?_⟩
    generalize msixFunctionUnmask s = t at hev
    exact hev.1.trans (by rw [hev.pcie]; rfl)

end Sys2Proof.Machine
end

section
/-! Rings set up and disabled, and the pump's host traffic (O45). -/

namespace Sys2Proof.Machine

/-! ### What fills a ring leaves alone (R213, R220) -/

/-- From `s` to `t` records may go into ring r: it keeps what its descriptor set and what is drained; other rings, the
windows but the pending bits, and what is reported stand. -/
structure State.fills (r : Nat) (s t : State) : Prop where
  other : ∀ k, k ≠ r → t.ring k = s.ring k
  on : (t.ring r).on = (s.ring r).on
  drained : (t.ring r).drained = (s.ring r).drained
  hbase : (t.ring r).hbase = (s.ring r).hbase
  hsize : (t.ring r).hsize = (s.ring r).hsize
  vec : (t.ring r).vec = (s.ring r).vec
  ie : (t.ring r).ie = (s.ring r).ie
  reported : t.reported = s.reported
  win : ∀ a, a < 0x47000 ∨ 0x47100 ≤ a → t.winGet a = s.winGet a

theorem State.fills_refl (r : Nat) (s : State) : s.fills r s :=
  ⟨fun _ _ => rfl, rfl, rfl, rfl, rfl, rfl, rfl, rfl, fun _ _ => rfl⟩

theorem State.fills_trans {r : Nat} {s t u : State} (h1 : s.fills r t) (h2 : t.fills r u) : s.fills r u where
  other k hk := (h2.other k hk).trans (h1.other k hk)
  on := h2.on.trans h1.on
  drained := h2.drained.trans h1.drained
  hbase := h2.hbase.trans h1.hbase
  hsize := h2.hsize.trans h1.hsize
  vec := h2.vec.trans h1.vec
  ie := h2.ie.trans h1.ie
  reported := h2.reported.trans h1.reported
  win a ha := (h2.win a ha).trans (h1.win a ha)

theorem State.eventsOnly.ring {s t : State} (h : s.eventsOnly t) (k : Nat) : t.ring k = s.ring k := by rw [h.1]; rfl

theorem State.eventsOnly.fills {s t : State} (r : Nat) (h : s.eventsOnly t) : s.fills r t where
  other k _ := h.ring k
  on := by rw [h.ring]
  drained := by rw [h.ring]
  hbase := by rw [h.ring]
  hsize := by rw [h.ring]
  vec := by rw [h.ring]
  ie := by rw [h.ring]
  reported := by rw [h.1]
  win := h.2

/-- A change of ring r that keeps its descriptor. -/
theorem setRing_fills (r : Nat) (s : State) (x : Ring) (hon : x.on = (s.ring r).on) (hd : x.drained = (s.ring r).drained)
    (hb : x.hbase = (s.ring r).hbase) (hs : x.hsize = (s.ring r).hsize) (hv : x.vec = (s.ring r).vec)
    (hi : x.ie = (s.ring r).ie) : s.fills r (s.setRing r x) where
  other k hk := State.ring_setRing_ne _ _ hk
  on := by rw [State.ring_setRing_same, hon]
  drained := by rw [State.ring_setRing_same, hd]
  hbase := by rw [State.ring_setRing_same, hb]
  hsize := by rw [State.ring_setRing_same, hs]
  vec := by rw [State.ring_setRing_same, hv]
  ie := by rw [State.ring_setRing_same, hi]
  reported := rfl
  win _ _ := rfl

/-- From `s` to `t` HBM alone changes. -/
def State.hbmOnly (s t : State) : Prop := t = { s with hbm := t.hbm }

theorem State.hbmOnly_trans {s t u : State} (h1 : s.hbmOnly t) (h2 : t.hbmOnly u) : s.hbmOnly u := by
  refine Eq.trans h2 ?_
  rw [h1]

theorem setHbm_hbmOnly (s : State) (a : Nat) (l : List Byte) : s.hbmOnly (s.setHbm a l) := by
  induction l generalizing s a with
  | nil => exact rfl
  | cons b l ih =>
    unfold State.setHbm
    exact State.hbmOnly_trans (t := s.setHbmByte a b) rfl (ih _ (a + 1))

theorem putUnits_hbmOnly (x : Ring) (l : List (Nat × Record)) (n : Nat) (s : State) : s.hbmOnly (putUnits x n l s) := by
  induction l generalizing s n with
  | nil => exact rfl
  | cons e l ih =>
    unfold putUnits
    exact State.hbmOnly_trans (setHbm_hbmOnly s _ _) (ih _ _)

theorem State.hbmOnly.ring {s t : State} (h : s.hbmOnly t) (r : Nat) : t.ring r = s.ring r := by
  rw [h]
  rfl

theorem State.hbmOnly.winGet {s t : State} (h : s.hbmOnly t) (a : Nat) : t.winGet a = s.winGet a := by
  rw [h]
  rfl

theorem State.hbmOnly.fills {s t : State} (r : Nat) (h : s.hbmOnly t) : s.fills r t where
  other k _ := h.ring k
  on := by rw [h.ring]
  drained := by rw [h.ring]
  hbase := by rw [h.ring]
  hsize := by rw [h.ring]
  vec := by rw [h.ring]
  ie := by rw [h.ring]
  reported := by rw [h]
  win a _ := h.winGet a

/-- HBM written, and then the ring's own state. -/
theorem storeRing_fills {r : Nat} {s u : State} {x : Ring} (hu : s.hbmOnly u) (hon : x.on = (s.ring r).on)
    (hd : x.drained = (s.ring r).drained) (hb : x.hbase = (s.ring r).hbase) (hs : x.hsize = (s.ring r).hsize)
    (hv : x.vec = (s.ring r).vec) (hi : x.ie = (s.ring r).ie) : s.fills r (u.setRing r x) := by
  rw [← hu.ring] at hon hd hb hs hv hi
  exact State.fills_trans (hu.fills r) (setRing_fills r u x hon hd hb hs hv hi)

/-- A record stored moves the ring's RSEQ, fill and cycle alone. -/
theorem ringStore_fills (ri q : Nat) (r : Record) (s : State) : s.fills ri (ringStore ri q r s) := by
  have counted : ∀ (u : State) (src : Nat), u.fills ri (u.count src 1) := fun u src => (count_eventsOnly u src 1).fills ri
  have maybe : ∀ (u : State), u.fills ri (if r.type = 0x0A then u.count 0x94 1 else u) := fun u => by
    split
    · exact counted u _
    · exact u.fills_refl ri
  unfold ringStore
  dsimp only
  refine State.fills_trans (State.fills_trans (State.fills_trans ?_ (maybe _)) (counted _ _)) (counted _ _)
  exact storeRing_fills (putUnits_hbmOnly _ _ _ s) rfl rfl rfl rfl rfl rfl

theorem foldl_fills {β : Type} {f : State → β → State} (r : Nat) (hf : ∀ (s : State) x, s.fills r (f s x)) (l : List β) (s : State) :
    s.fills r (l.foldl f s) :=
  List.foldlRecOn l f (s.fills_refl r) fun t h x _ => State.fills_trans h (hf t x)

theorem flushRing_fills (r : Nat) (s : State) : s.fills r (flushRing r s) := by
  unfold flushRing
  refine State.fills_trans (foldl_fills r (fun u e => ?_) _ s) (foldl_fills r (fun u e => ?_) _ _)
  · dsimp only
    split
    · exact State.fills_trans (t := u.setRing r { u.ring r with lost := (u.ring r).lost.erase e })
        (setRing_fills r u _ rfl rfl rfl rfl rfl rfl) (ringStore_fills r _ _ _)
    · exact u.fills_refl r
  · dsimp only
    split
    · exact State.fills_trans (t := u.setRing r { u.ring r with waits := (u.ring r).waits.erase e })
        (setRing_fills r u _ rfl rfl rfl rfl rfl rfl) (ringStore_fills r _ _ _)
    · exact u.fills_refl r

/-- With nothing waiting a flush does nothing. -/
theorem flushRing_of_clear {r : Nat} {s : State} (hl : (s.ring r).lost = []) (hw : (s.ring r).waits = []) :
    flushRing r s = s := by
  unfold flushRing
  rw [hl]
  dsimp only [List.foldl_nil]
  rw [hw]
  rfl

/-! ### What the loss of records leaves alone (R220, R226) -/

/-- From `s` to `t` records of ring r are counted lost: nothing else of the ring changes, nor do other rings, HBM, or
the windows but the pending bits; a loss that was counted stays. -/
structure State.loses (r : Nat) (s t : State) : Prop where
  other : ∀ k, k ≠ r → t.ring k = s.ring k
  ring : t.ring r = { s.ring r with lost := (t.ring r).lost }
  lost : (s.ring r).lost ≠ [] → (t.ring r).lost ≠ []
  hbm : t.hbm = s.hbm
  win : ∀ a, a < 0x47000 ∨ 0x47100 ≤ a → t.winGet a = s.winGet a

theorem State.loses_refl (r : Nat) (s : State) : s.loses r s := ⟨fun _ _ => rfl, rfl, id, rfl, fun _ _ => rfl⟩

theorem State.loses_trans {r : Nat} {s t u : State} (h1 : s.loses r t) (h2 : t.loses r u) : s.loses r u where
  other k hk := (h2.other k hk).trans (h1.other k hk)
  ring := h2.ring.trans (by rw [h1.ring])
  lost h := h2.lost (h1.lost h)
  hbm := h2.hbm.trans h1.hbm
  win a ha := (h2.win a ha).trans (h1.win a ha)

theorem State.eventsOnly.loses {s t : State} (r : Nat) (h : s.eventsOnly t) : s.loses r t where
  other k _ := h.ring k
  ring := by rw [h.ring]
  lost hl := by rwa [h.ring]
  hbm := by rw [h.1]
  win := h.2

theorem setLost_loses (r : Nat) (s : State) (l : List (Nat × Nat × Nat)) (hl : (s.ring r).lost ≠ [] → l ≠ []) :
    s.loses r (s.setRing r { s.ring r with lost := l }) where
  other k hk := State.ring_setRing_ne _ _ hk
  ring := by rw [State.ring_setRing_same]
  lost h := by rw [State.ring_setRing_same]; exact hl h
  hbm := rfl
  win _ _ := rfl

/-- The losses of a ring with `n` more of quarter q and a cause. -/
def lostWith (x : Ring) (q cause n : Nat) : List (Nat × Nat × Nat) :=
  if x.lost.any (fun e => e.1 = q && e.2.1 = cause) then
    x.lost.map (fun e => if e.1 = q && e.2.1 = cause then (e.1, e.2.1, e.2.2 + n) else e)
  else x.lost ++ [(q, cause, n)]

theorem lostWith_ne_nil (x : Ring) (q cause n : Nat) : lostWith x q cause n ≠ [] := by
  unfold lostWith
  split
  · next h =>
    intro hnil
    rw [List.map_eq_nil_iff] at hnil
    rw [hnil] at h
    exact absurd h (by simp)
  · simp

theorem ringLose_loses (r q cause n : Nat) (s : State) : s.loses r (ringLose r q cause n s) ∧
    ((ringLose r q cause n s).ring r).lost ≠ [] := by
  have ht : ringLose r q cause n s =
    (s.setRing r { s.ring r with lost := lostWith (s.ring r) q cause n }).raise (F.QRES_STAT_LOSS q) := rfl
  have hset := setLost_loses r s (lostWith (s.ring r) q cause n) fun _ => lostWith_ne_nil _ _ _ _
  have hev := raise_eventsOnly (s.setRing r { s.ring r with lost := lostWith (s.ring r) q cause n }) (F.QRES_STAT_LOSS q)
  rw [ht]
  refine ⟨State.loses_trans hset (hev.loses r), ?_⟩
  rw [hev.ring, State.ring_setRing_same]
  exact lostWith_ne_nil _ _ _ _

theorem report_loses (r : Nat) (s : State) (src a : Nat) : s.loses r (s.report src a) :=
  ⟨fun _ _ => rfl, rfl, id, rfl, fun _ _ => rfl⟩

theorem discardRecord_loses (r q : Nat) (s : State) : s.loses r (discardRecord r q s) := by
  have hraise := (raise_eventsOnly (ringLose r q 3 1 s) F.RING_STAT_DISC_DROP).loses r
  exact State.loses_trans (State.loses_trans (ringLose_loses r q 3 1 s).1 hraise) (report_loses r _ 0x043 r)

theorem foldl_loses {β : Type} {f : State → β → State} (r : Nat) (hf : ∀ (s : State) x, s.loses r (f s x)) (l : List β) (s : State) :
    s.loses r (l.foldl f s) :=
  List.foldlRecOn l f (s.loses_refl r) fun t h x _ => State.loses_trans h (hf t x)

end Sys2Proof.Machine
end

section
/-! The writes of a ring descriptor's dword 3, and the pump's events (O45). -/

namespace Sys2Proof.Machine

/-! ### Dword 3 stored -/

theorem mergeBytes_all (old new : Dword) : mergeBytes old new 0xF = new := by
  rw [show mergeBytes old new 0xF = (old &&& ~~~(BitVec.allOnes 32)) ||| (new &&& BitVec.allOnes 32) from rfl,
    BitVec.not_allOnes, BitVec.and_zero, BitVec.zero_or, BitVec.and_allOnes]

/-- Ring r's descriptor with its dword 3 stored as `v`. -/
def dword3Stored (r : Nat) (v : Dword) (s : State) : State := winPut (ringAddr r + 12) 0xF v s

/-- The descriptor that a write of `v` to dword 3 makes. -/
def State.descWith (s : State) (r : Nat) (v : Dword) : Desc :=
  v ++ s.winGet (ringAddr r + 8) ++ s.winGet (ringAddr r + 4) ++ s.winGet (ringAddr r)

section
variable {s s' : State} (r : Nat) (v : Dword)

theorem dword3Stored_winGet (a : Nat) :
    (dword3Stored r v s').winGet a = if a = ringAddr r + 12 then v else s'.winGet a := by
  refine (State.winGet_winSet _ _ _ _).trans ?_
  rw [mergeBytes_all]

theorem dword3Stored_ring (h : s.eventsOnly s') (k : Nat) : (dword3Stored r v s').ring k = s.ring k := h.ring k

theorem dword3Stored_ringDesc (h : s.eventsOnly s') : (dword3Stored r v s').ringDesc r = s.descWith r v := by
  have hout : ∀ j, 0x47100 ≤ ringAddr r + j := fun j => by
    unfold ringAddr
    omega
  unfold State.ringDesc State.descWith
  simp only [dword3Stored_winGet]
  rw [if_pos trivial, if_neg (by omega), if_neg (by omega), if_neg (by omega), h.2 _ (.inr (hout _)), h.2 _ (.inr (hout _)),
    h.2 _ (.inr (hout _))]
  rfl

theorem dword3Stored_ringOk (h : s.eventsOnly s') (d : Desc) : (dword3Stored r v s').ringOk r d = s.ringOk r d := by
  unfold dword3Stored
  rw [h.1]
  rfl

end

theorem exec_ringEnable {s : State} {m : Master} {r : Fin 65536} (v : Dword) (h : s.Serves m (ringAddr r.val + 12))
    (hb : s.bootRefuses m (ringAddr r.val + 12) = false) :
    exec (.ringEnable m r v) s = .next (ringDword3 r.val (dword3Stored r.val v (hostTlps m true s))) := by
  have hr := r.isLt
  have haddr : busAddr (ringAddr r.val + 12) = ringAddr r.val + 12 := busAddr_eq (by unfold ringAddr; omega) (by unfold ringAddr; omega)
  have hwindow : isWindow (ringAddr r.val + 12) = true := by
    unfold isWindow ringAddr
    simp only [Bool.or_eq_true, Bool.and_eq_true, decide_eq_true_eq]
    omega
  have hindex : (ringAddr r.val + 12 - 0xE00000) / 16 = r.val := by unfold ringAddr; omega
  show Host.Outcome.next (busWrite m (ringAddr r.val + 12) 0xF v s) = _
  rw [busWrite_window 0xF v h hb haddr hwindow]
  unfold winWrite
  rw [if_neg (by simp only [Bool.and_eq_true, decide_eq_true_eq]; unfold ringAddr; omega),
    if_neg (by simp only [Bool.and_eq_true, decide_eq_true_eq]; unfold ringAddr; omega),
    if_neg (by simp only [Bool.and_eq_true, decide_eq_true_eq]; unfold ringAddr; omega),
    if_neg (by simp only [Bool.and_eq_true, decide_eq_true_eq]; unfold ringAddr; omega),
    if_neg (by simp only [Bool.and_eq_true, decide_eq_true_eq]; unfold ringAddr; omega),
    if_pos (by simp only [Bool.and_eq_true, decide_eq_true_eq]; unfold ringAddr; omega), hindex]
  rfl

/-! ### What the write does, by the ring's state and EN -/

section
variable {r : Nat} {s : State}

theorem ringDword3_of_off (hon : (s.ring r).on = false) (hen : rdEn (s.ringDesc r) = false) : ringDword3 r s = s := by
  unfold ringDword3
  dsimp only
  rw [hon, hen]
  rfl

theorem ringDword3_of_rejected (hon : (s.ring r).on = false) (hen : rdEn (s.ringDesc r) = true)
    (hok : s.ringOk r (s.ringDesc r) = false) :
    ringDword3 r s = ((s.setFld F.RING_ERR_RING_RING r).raise F.RING_STAT_DESC_ERR).report 0x041 r := by
  unfold ringDword3 ringEnable
  dsimp only
  rw [hon, hen, hok]
  rfl

/-- Ring r as an enable leaves it: empty, with what its descriptor sets. -/
def enabledRing (x : Ring) (d : Desc) : Ring :=
  { x with
    on := true, hbase := rdHbase d, hsize := rdHsize d, hostBase := rdHostBase d, hostSize := rdHostSize d,
    vec := rdVec d, hwm := rdHwm d, lwm := rdLwm d, ie := rdIe d, drained := x.rseq, fill := 0, waitHost := false }

theorem ringDword3_of_enabled (hon : (s.ring r).on = false) (hen : rdEn (s.ringDesc r) = true)
    (hok : s.ringOk r (s.ringDesc r) = true) :
    ringDword3 r s = flushRing r (s.setRing r (enabledRing (s.ring r) (s.ringDesc r))) := by
  unfold ringDword3 ringEnable
  dsimp only
  rw [hon, hen, hok]
  rfl

theorem ringDword3_of_disabled (hon : (s.ring r).on = true) (hen : rdEn (s.ringDesc r) = false) :
    ringDword3 r s = ringDisable r s := by
  unfold ringDword3
  dsimp only
  rw [hon, hen]
  rfl

theorem ringDword3_of_kept (hon : (s.ring r).on = true) (hen : rdEn (s.ringDesc r) = true) :
    ringDword3 r s = s.setRing r { s.ring r with
      hwm := rdHwm (s.ringDesc r), lwm := rdLwm (s.ringDesc r), ie := rdIe (s.ringDesc r) } := by
  unfold ringDword3 ringParam
  dsimp only
  rw [hon, hen]
  rfl

/-- Ring r as a disable leaves it, but for its losses. -/
def disabledRing (x : Ring) : Ring := { x with on := false, fill := 0, drained := x.rseq, waitHost := false, waits := [] }

/-- A disable empties the ring; each record that was in it is counted lost. -/
theorem ringDisable_settles (hon : (s.ring r).on = true) : (s.setRing r (disabledRing (s.ring r))).loses r (ringDisable r s) ∧
    (0 < (s.ring r).fill → ((ringDisable r s).ring r).lost ≠ []) := by
  have ht : ringDisable r s = (s.ring r).waits.foldl (fun s e => discardRecord r e.1 s)
      (((List.range (s.ring r).fill).map fun i => s.recQuarter (s.ring r) ((s.ring r).drained + i)).foldl
        (fun s q => ringLose r q 3 1 s) (s.setRing r (disabledRing (s.ring r)))) := by
    unfold ringDisable
    dsimp only
    rw [hon]
    rfl
  rw [ht]
  have hwaits (u : State) : u.loses r ((s.ring r).waits.foldl (fun s e => discardRecord r e.1 s) u) :=
    foldl_loses (f := fun s (e : Nat × Record) => discardRecord r e.1 s) r (fun s e => discardRecord_loses r e.1 s) (s.ring r).waits u
  have hlost (l : List Nat) (u : State) : u.loses r (l.foldl (fun s q => ringLose r q 3 1 s) u) :=
    foldl_loses (f := fun s q => ringLose r q 3 1 s) r (fun s q => (ringLose_loses r q 3 1 s).1) l u
  generalize s.setRing r (disabledRing (s.ring r)) = u
  refine ⟨State.loses_trans (hlost _ u) (hwaits _), fun hfill => (hwaits _).lost ?_⟩
  obtain ⟨n, hn⟩ := Nat.exists_eq_succ_of_ne_zero (Nat.ne_of_gt hfill)
  rw [hn, List.range_succ_eq_map, List.map_cons, List.foldl_cons]
  exact (hlost _ _).lost (ringLose_loses r _ 3 1 u).2

end

/-! ### The pump's events -/

/-- CONS taken, before it is known whether the buffer is still full (R222). -/
def consTaken (r cons : Nat) (s : State) : State :=
  countTlps true 1 (countTlps false 1 (s.setRing r { s.ring r with cons := cons % 2 ^ 32, lastPoll := s.now }))

theorem consPoll_of_idle {r cons : Nat} {s : State} (h : ¬((s.ring r).on = true ∧ (s.ring r).waitHost = true ∧
    s.bit F.RING_CTRL_PUMP_EN = true ∧ s.linkUp = true ∧ ((s.ring r).lastPoll = 0 ∨ (s.ring r).lastPoll + 640 ≤ s.now))) :
    consPoll r cons s = s := by
  unfold consPoll
  refine if_pos ?_
  simp only [Bool.or_eq_true, Bool.not_eq_true', Bool.and_eq_true, decide_eq_true_eq, ← Bool.not_eq_true]
  unfold usPclk
  by_contra hc
  push Not at hc
  obtain ⟨⟨⟨⟨hon, hwait⟩, hpump⟩, hlink⟩, hpoll⟩ := hc
  exact h ⟨hon, hwait, hpump, hlink, or_iff_not_imp_left.2 hpoll⟩

theorem consPoll_of_waiting {r cons : Nat} {s : State} (h : (s.ring r).on = true ∧ (s.ring r).waitHost = true ∧
    s.bit F.RING_CTRL_PUMP_EN = true ∧ s.linkUp = true ∧ ((s.ring r).lastPoll = 0 ∨ (s.ring r).lastPoll + 640 ≤ s.now)) :
    consPoll r cons s =
      let u := consTaken r cons s
      let v := u.setRing r { u.ring r with waitHost := u.hostFull r }
      if u.hostFull r then v.raise F.RING_STAT_HOST_FULL else v := by
  obtain ⟨h1, h2, h3, h4, h5⟩ := h
  unfold consPoll
  rw [if_neg]
  · rfl
  · simp only [Bool.or_eq_true, Bool.not_eq_true', Bool.and_eq_true, decide_eq_true_eq, h1, h2, h3, h4]
    unfold usPclk
    simp
    omega

/-- Coalescing time is over for ring r, and it may send its vector (R223). -/
def State.coalesceDue (s : State) (r : Nat) : Prop :=
  0 < (s.ring r).uncovered ∧ (s.ring r).uncSince + 640 * s.fld F.RING_COAL_TIME ≤ s.now ∧ (s.ring r).ie = true ∧
    256 ≤ (s.ring r).vec

theorem coalesce_of_due {r : Nat} {s : State} (h : s.coalesceDue r) :
    coalesce r s = (s.setRing r { s.ring r with uncovered := 0 }).sendVec (s.ring r).vec := by
  obtain ⟨hunc, htime, hie, hvec⟩ := h
  unfold coalesce
  refine (if_pos ?_).trans (if_pos ?_)
  · simp only [Bool.and_eq_true, decide_eq_true_eq]
    exact ⟨hunc, htime⟩
  · simp only [Bool.and_eq_true, decide_eq_true_eq]
    exact ⟨hie, hvec⟩

theorem coalesce_of_not {r : Nat} {s : State} (h : ¬s.coalesceDue r) : coalesce r s = s := by
  unfold coalesce
  dsimp only
  split
  · next htime =>
    refine if_neg fun hvec => h ?_
    simp only [Bool.and_eq_true, decide_eq_true_eq] at htime hvec
    exact ⟨htime.1, htime.2, hvec.1, hvec.2⟩
  · rfl

/-- A failed access of the pump: shown, and the pump stopped (R224). -/
def pumpStopped (r : Nat) (s : State) : State :=
  ((s.raise F.RING_STAT_DMA_ERR).setFld F.RING_ERR_RING_RING r).setBit F.RING_CTRL_PUMP_EN false

theorem pumpStopped_storesOnly (r : Nat) (s : State) : s.storesOnly (pumpStopped r s) :=
  State.storesOnly_trans (raise_eventsOnly s F.RING_STAT_DMA_ERR).storesOnly ⟨rfl, fun _ _ => rfl⟩

theorem pumpStopped_reg (r : Nat) (s : State) {a : Nat} (h1 : a ≠ R.RING_ERR_RING) (h2 : a ≠ R.RING_CTRL) :
    (pumpStopped r s).reg a = s.reg a := by
  unfold pumpStopped
  rw [State.reg_setBit_ne _ _ h2, State.reg_setFld_ne _ _ h1, State.raise_acc_reg]

theorem pumpStopped_fields (r : Fin 65536) (s : State) : (pumpStopped r.val s).bit F.RING_CTRL_PUMP_EN = false ∧
    (pumpStopped r.val s).fld F.RING_ERR_RING_RING = r.val := by
  unfold pumpStopped
  refine ⟨State.bit_setBit _ _ _ (by decide) rfl, ?_⟩
  rw [State.setBit, State.fld_setFld_ne _ F.RING_CTRL_PUMP_EN F.RING_ERR_RING_RING _ (by decide) (by decide),
    State.fld_setFld _ _ _ (by decide)]
  exact Nat.mod_eq_of_lt r.isLt

theorem pumpStopped_shankStamps (r : Nat) (s : State) : (pumpStopped r s).shankStamps = s.shankStamps :=
  shankStamps_congr (by rw [(pumpStopped_storesOnly r s).1]) (pumpStopped_reg r s (by decide) (by decide))
    (pumpStopped_reg r s (by decide) (by decide))

theorem dmaError_settles (r : Fin 65536) (write : Bool) (s : State) :
    let t := dmaError r.val write s
    (s.bit F.RING_CTRL_PUMP_EN = false → t = s) ∧
      (s.bit F.RING_CTRL_PUMP_EN = true →
        t.bit F.RING_CTRL_PUMP_EN = false ∧ t.fld F.RING_ERR_RING_RING = r.val ∧ t.flagged F.RING_STAT_DMA_ERR ∧
        t.reported = s.reported ++
          [{ s.plainEvent 0x040 r.val with cls := 1, master := 6, acc := if write = true then 5 else 4 }] ∧
        t.rings = s.rings ∧ s.regsKept [R.RING_ERR_RING, R.RING_CTRL] t ∧ s.memoryKept t) := by
  intro t
  refine ⟨fun h => if_pos (by simp [h]), fun h => ?_⟩
  have ht : t = { pumpStopped r.val s with reported := (pumpStopped r.val s).reported ++
      [{ src := 0x040, cls := 1, addr := r.val, master := 6, acc := if write then 5 else 4, time := (pumpStopped r.val s).now,
         shank := (pumpStopped r.val s).shankStamps }] } := if_neg (by simp [h])
  obtain ⟨hpump, hring⟩ := pumpStopped_fields r s
  have hstores := pumpStopped_storesOnly r.val s
  have hflag : (pumpStopped r.val s).flagged F.RING_STAT_DMA_ERR := raise_flagged s _
  rw [ht]
  refine ⟨hpump, hring, hflag, ?_, ?_, fun a ha => ?_, hstores.memoryKept⟩
  · rw [pumpStopped_shankStamps, hstores.1]
    rfl
  · rw [hstores.1]
  · simp only [List.mem_cons, List.not_mem_nil, or_false, not_or] at ha
    exact pumpStopped_reg r.val s ha.1 ha.2

/-- Ring r with the copy of CONS that a poll takes. -/
def polledRing (x : Ring) (cons now : Nat) : Ring := { x with cons := cons % 2 ^ 32, lastPoll := now }

theorem consTaken_eventsOnly (r cons : Nat) (s : State) :
    (s.setRing r (polledRing (s.ring r) cons s.now)).eventsOnly (consTaken r cons s) :=
  State.eventsOnly_trans (count_eventsOnly _ 0x89 1) (count_eventsOnly _ 0x88 1)

theorem hostFull_congr {s t : State} {r : Nat} (hs : (t.ring r).hostSize = (s.ring r).hostSize)
    (hd : (t.ring r).drained = (s.ring r).drained) (hc : (t.ring r).cons = (s.ring r).cons) : t.hostFull r = s.hostFull r := by
  unfold State.hostFull hostCap
  dsimp only
  rw [hs, hd, hc]

/-- From `s` to `t` events happen and rings change. -/
def State.ringsOnly (s t : State) : Prop :=
  t = { s with hostRc := t.hostRc, spx1Rc := t.spx1Rc, win := t.win, msgs := t.msgs, evcs := t.evcs, rings := t.rings }

theorem State.ringsOnly_trans {s t u : State} (h1 : s.ringsOnly t) (h2 : t.ringsOnly u) : s.ringsOnly u := by
  refine Eq.trans h2 ?_
  rw [h1]

theorem State.eventsOnly.ringsOnly {s t : State} (h : s.eventsOnly t) : s.ringsOnly t := by
  refine Eq.trans h.1 ?_
  rw [h.1]

theorem setRing_ringsOnly (s : State) (r : Nat) (x : Ring) : s.ringsOnly (s.setRing r x) := rfl

theorem consPoll_settles (r : Fin 65536) (cons : BitVec 32) (s : State) :
    let t := consPoll r.val cons.toNat s
    if (s.ring r).on = true ∧ (s.ring r).waitHost = true ∧ s.bit F.RING_CTRL_PUMP_EN = true ∧ s.linkUp = true ∧
        ((s.ring r).lastPoll = 0 ∨ (s.ring r).lastPoll + 640 ≤ s.now) then
      (t.ring r).cons = cons.toNat ∧ (t.ring r).lastPoll = s.now ∧ (t.ring r).waitHost = t.hostFull r ∧
      (t.hostFull r = true → t.flagged F.RING_STAT_HOST_FULL) ∧ (∀ k, k ≠ r.val → t.ring k = s.ring k) ∧
      s.regsKept [] t ∧ s.memoryKept t ∧
        t = { s with
          hostRc := t.hostRc, spx1Rc := t.spx1Rc, win := t.win, msgs := t.msgs, evcs := t.evcs,
          rings := t.rings }
    else t = s := by
  intro t
  split
  · next h =>
    have ht := consPoll_of_waiting (cons := cons.toNat) h
    have hu := consTaken_eventsOnly r.val cons.toNat s
    dsimp only at ht
    generalize consTaken r.val cons.toNat s = u at ht hu
    have hring : u.ring r = polledRing (s.ring r) cons.toNat s.now := by rw [hu.ring, State.ring_setRing_same]
    obtain ⟨v, hv⟩ : ∃ v, u.setRing r { u.ring r with waitHost := u.hostFull r } = v := ⟨_, rfl⟩
    rw [hv] at ht
    have hvring : v.ring r = { u.ring r with waitHost := u.hostFull r } := hv ▸ State.ring_setRing_same _ _ _
    have hvother : ∀ k, k ≠ r.val → v.ring k = s.ring k := fun k hk => by
      rw [← hv, State.ring_setRing_ne _ _ hk, hu.ring, State.ring_setRing_ne _ _ hk]
    have hev : v.eventsOnly t := by
      rw [show t = _ from ht]
      split
      · exact raise_eventsOnly _ _
      · exact v.eventsOnly_refl
    have hfull : t.hostFull r = u.hostFull r := by
      refine hostFull_congr ?_ ?_ ?_ <;> rw [hev.ring, hvring]
    have hcons : t.ring r = { polledRing (s.ring r) cons.toNat s.now with waitHost := u.hostFull r } := by
      rw [hev.ring, hvring, hring]
    refine ⟨?_, ?_, ?_, fun hf => ?_, fun k hk => (hev.ring k).trans (hvother k hk), fun a _ => ?_, ⟨?_, fun a ha => ?_⟩, ?_⟩
    · rw [hcons]
      exact Nat.mod_eq_of_lt cons.isLt
    · rw [hcons]
      rfl
    · rw [hcons, hfull]
    · rw [hfull] at hf
      rw [show t = _ from ht, if_pos hf]
      exact raise_flagged v _
    · rw [hev.reg, ← hv]
      exact hu.reg a
    · rw [hev.1, ← hv, State.setRing, hu.1]
      rfl
    · rw [hev.2 a ha, ← hv]
      exact hu.2 a ha
    · have hsv : s.ringsOnly v :=
        hv ▸ State.ringsOnly_trans (State.ringsOnly_trans (setRing_ringsOnly _ _ _) hu.ringsOnly) (setRing_ringsOnly _ _ _)
      exact State.ringsOnly_trans hsv hev.ringsOnly
  · next h => exact consPoll_of_idle h

/-- Vector w's message, sent where the host takes messages, is pending where it is masked, and has gone out where not. -/
theorem sendMsix_arrives {s : State} {w : Nat} (he : s.pcie.cfg.msixEnable = true) :
    if s.msixMasked w = true then (s.sendMsix w).pba w = true else s.sentBy (s.sendMsix w) w := by
  split
  · next hm =>
    have hraw : (s.sendRaw w).pba w = true := by
      rw [sendRaw_of_masked he hm, pba_eq, State.winGet_winSet, if_pos rfl, BitVec.getLsbD_or, BitVec.getLsbD_ofNat,
        Nat.testBit_two_pow_self]
      simp
      omega
    unfold State.sendMsix
    dsimp only
    split
    · exact (sendRaw_sends _ _ (vectors_mod s 12)).2.2 w hraw
    · exact hraw
  · next hm => exact sentBy_of_append (List.prefix_refl _) (sendMsix_msgs he (Bool.not_eq_true _ ▸ hm))

theorem coalesce_settles (r : Fin 65536) (s : State) :
    let t := coalesce r.val s
    if 0 < (s.ring r).uncovered ∧ (s.ring r).uncSince + 640 * s.fld F.RING_COAL_TIME ≤ s.now ∧
      (s.ring r).ie = true ∧
        256 ≤ (s.ring r).vec then
      (t.ring r).uncovered = 0 ∧ (∀ k, k ≠ r.val → t.ring k = s.ring k) ∧ s.regsKept [] t ∧ s.memoryKept t ∧
      (s.bit F.HOST_IRQ_CFG_IRQ_EN = true → s.pcie.cfg.msixEnable = true →
        if s.msixMasked ((s.ring r).vec % s.vectors) = true then
          (t.winGet (0x47000 + (s.ring r).vec % s.vectors / 32 * 4)).getLsbD ((s.ring r).vec % s.vectors % 32) =
            true
        else (s.ring r).vec % s.vectors ∈ t.msgs.drop s.msgs.length)
     else t = s := by
  intro t
  split
  · next h =>
    have ht : t = (s.setRing r { s.ring r with uncovered := 0 }).sendVec (s.ring r).vec := coalesce_of_due h
    have hev := sendVec_eventsOnly (s.setRing r { s.ring r with uncovered := 0 }) (s.ring r).vec
    rw [← ht] at hev
    refine ⟨?_, fun k hk => ?_, fun a _ => hev.reg a, ⟨by rw [hev.1]; rfl, hev.2⟩, fun hirq he => ?_⟩
    · rw [hev.ring, State.ring_setRing_same]
    · rw [hev.ring, State.ring_setRing_ne _ _ hk]
    · have hsend : t = (s.setRing r { s.ring r with uncovered := 0 }).sendMsix ((s.ring r).vec % s.vectors) :=
        ht.trans (if_pos hirq)
      rw [hsend]
      exact sendMsix_arrives (s := s.setRing r { s.ring r with uncovered := 0 }) he
  · next h => exact coalesce_of_not h

/-! ### The write of dword 3 settled -/

/-- From `s` to `t` no ring but r changes, and no window but the pending bits. -/
def State.oneRing (r : Nat) (s t : State) : Prop :=
  (∀ k, k ≠ r → t.ring k = s.ring k) ∧ ∀ a, a < 0x47000 ∨ 0x47100 ≤ a → t.winGet a = s.winGet a

theorem setRing_oneRing (r : Nat) (s : State) (x : Ring) : s.oneRing r (s.setRing r x) :=
  ⟨fun _ hk => State.ring_setRing_ne _ _ hk, fun _ _ => rfl⟩

theorem State.oneRing_trans {r : Nat} {s t u : State} (h1 : s.oneRing r t) (h2 : t.oneRing r u) : s.oneRing r u :=
  ⟨fun k hk => (h2.1 k hk).trans (h1.1 k hk), fun a ha => (h2.2 a ha).trans (h1.2 a ha)⟩

theorem State.fills.oneRing {r : Nat} {s t : State} (h : s.fills r t) : s.oneRing r t := ⟨h.other, h.win⟩

theorem State.loses.oneRing {r : Nat} {s t : State} (h : s.loses r t) : s.oneRing r t := ⟨h.other, h.win⟩

/-- A descriptor that fails its checks changes no ring: it is flagged, shown and reported (R219). -/
theorem rejected_settles (r : Fin 65536) (s : State) :
    let t := ((s.setFld F.RING_ERR_RING_RING r.val).raise F.RING_STAT_DESC_ERR).report 0x041 r.val
    s.oneRing r.val t ∧ t.ring r = s.ring r ∧ t.flagged F.RING_STAT_DESC_ERR ∧ t.fld F.RING_ERR_RING_RING = r.val ∧
      t.reported = s.reported ++ [s.plainEvent 0x041 r] := by
  obtain ⟨u, hu⟩ : ∃ u, (s.setFld F.RING_ERR_RING_RING r.val).raise F.RING_STAT_DESC_ERR = u := ⟨_, rfl⟩
  have hev : (s.setFld F.RING_ERR_RING_RING r.val).eventsOnly u := hu ▸ raise_eventsOnly _ _
  have hstamps : u.shankStamps = s.shankStamps :=
    shankStamps_congr (by rw [hev.1]; rfl) ((hev.reg _).trans (State.reg_setFld_ne _ _ (by decide)))
      ((hev.reg _).trans (State.reg_setFld_ne _ _ (by decide)))
  have hflag : u.flagged F.RING_STAT_DESC_ERR := hu ▸ raise_flagged _ _
  rw [hu]
  refine ⟨⟨fun k _ => hev.ring k, hev.2⟩, hev.ring _, hflag, ?_, ?_⟩
  · show u.fld F.RING_ERR_RING_RING = r.val
    rw [← hu, State.raise_acc_fld, State.fld_setFld _ _ _ (by decide)]
    exact Nat.mod_eq_of_lt r.isLt
  · show u.reported ++ _ = _
    rw [hstamps, hev.1]
    rfl

/-- What an enable leaves in the ring (R219). -/
theorem enabled_settles (r : Nat) (s : State) (d : Desc) :
    let t := flushRing r (s.setRing r (enabledRing (s.ring r) d))
    s.oneRing r t ∧ (t.ring r).on = true ∧
      (t.ring r).drained = (s.ring r).rseq ∧ (t.ring r).hbase = rdHbase d ∧ (t.ring r).hsize = rdHsize d ∧
      (t.ring r).vec = rdVec d ∧ (t.ring r).ie = rdIe d ∧ t.reported = s.reported ∧
      ((s.ring r).lost = [] → (s.ring r).waits = [] → (t.ring r).fill = 0 ∧ (t.ring r).rseq = (s.ring r).rseq ∧
        t.hbm = s.hbm) := by
  intro t
  have hf : (s.setRing r (enabledRing (s.ring r) d)).fills r t := flushRing_fills r _
  have hring : (s.setRing r (enabledRing (s.ring r) d)).ring r = enabledRing (s.ring r) d := State.ring_setRing_same _ _ _
  refine ⟨State.oneRing_trans (setRing_oneRing _ _ _) hf.oneRing, ?_, ?_, ?_, ?_, ?_, ?_, hf.reported, fun hl hw => ?_⟩
  · rw [hf.on, hring]; rfl
  · rw [hf.drained, hring]; rfl
  · rw [hf.hbase, hring]; rfl
  · rw [hf.hsize, hring]; rfl
  · rw [hf.vec, hring]; rfl
  · rw [hf.ie, hring]; rfl
  · rw [show t = _ from flushRing_of_clear (by rw [hring]; exact hl) (by rw [hring]; exact hw), hring]
    exact ⟨rfl, rfl, rfl⟩

/-- No path of a dword-3 write changes another ring. -/
theorem ringDword3_oneRing (r : Fin 65536) (s : State) : s.oneRing r.val (ringDword3 r.val s) := by
  cases hon : (s.ring r.val).on with
  | false =>
    cases hen : rdEn (s.ringDesc r.val) with
    | false =>
      rw [ringDword3_of_off hon hen]
      exact (s.fills_refl r.val).oneRing
    | true =>
      cases hok : s.ringOk r.val (s.ringDesc r.val) with
      | false => exact ringDword3_of_rejected hon hen hok ▸ (rejected_settles r s).1
      | true => exact ringDword3_of_enabled hon hen hok ▸ (enabled_settles r.val s _).1
  | true =>
    cases hen : rdEn (s.ringDesc r.val) with
    | false =>
      exact ringDword3_of_disabled hon hen ▸ State.oneRing_trans (setRing_oneRing _ _ _) (ringDisable_settles hon).1.oneRing
    | true => exact ringDword3_of_kept hon hen ▸ setRing_oneRing _ _ _

theorem disabled_settles {r : Nat} {s : State} (hon : (s.ring r).on = true) :
    let t := ringDisable r s
    (t.ring r).on = false ∧ (t.ring r).fill = 0 ∧ (t.ring r).drained = (s.ring r).rseq ∧ (t.ring r).waits = [] ∧
      (0 < (s.ring r).fill → (t.ring r).lost ≠ []) ∧ t.hbm = s.hbm := by
  intro t
  obtain ⟨hl, hlost⟩ := ringDisable_settles hon
  have hring : t.ring r = { disabledRing (s.ring r) with lost := (t.ring r).lost } := by
    refine hl.ring.trans ?_
    rw [State.ring_setRing_same]
  refine ⟨?_, ?_, ?_, ?_, hlost, hl.hbm⟩ <;> rw [hring] <;> rfl

/-- The whole write: what `hostTlps` and the stored dword keep of `s`. -/
theorem dword3_settles (s : State) (m : Master) (r : Fin 65536) (v : Dword) :
    let d := s.descWith r.val v
    let t := ringDword3 r.val (dword3Stored r.val v (hostTlps m true s))
    t.winGet (ringAddr r + 12) = v ∧ (∀ k, k ≠ r.val → t.ring k = s.ring k) ∧
      (∀ b, b < 0x47000 ∨ 0x47100 ≤ b → b ≠ ringAddr r + 12 → t.winGet b = s.winGet b) ∧
      ((s.ring r).on = false → rdEn d = false → t.ring r = s.ring r ∧ t = { hostTlps m true s with win := t.win }) ∧
      ((s.ring r).on = false → rdEn d = true → s.ringOk r d = false →
        t.ring r = s.ring r ∧ t.flagged F.RING_STAT_DESC_ERR ∧ t.fld F.RING_ERR_RING_RING = r.val ∧
        t.reported = s.reported ++ [s.plainEvent 0x041 r]) ∧
      ((s.ring r).on = false → rdEn d = true → s.ringOk r d = true → (t.ring r).on = true ∧
        (t.ring r).drained = (s.ring r).rseq ∧ (t.ring r).hbase = rdHbase d ∧ (t.ring r).hsize = rdHsize d ∧
        (t.ring r).vec = rdVec d ∧ (t.ring r).ie = rdIe d ∧ t.reported = s.reported ∧
        ((s.ring r).lost = [] → (s.ring r).waits = [] → (t.ring r).fill = 0 ∧ (t.ring r).rseq = (s.ring r).rseq ∧
          t.hbm = s.hbm)) ∧
      ((s.ring r).on = true → rdEn d = false → (t.ring r).on = false ∧
        (t.ring r).fill = 0 ∧ (t.ring r).drained = (s.ring r).rseq ∧ (t.ring r).waits = [] ∧
        (0 < (s.ring r).fill → (t.ring r).lost ≠ []) ∧ t.hbm = s.hbm) ∧
      ((s.ring r).on = true → rdEn d = true →
        t.ring r = { s.ring r with hwm := rdHwm d, lwm := rdLwm d, ie := rdIe d } ∧
        t = { hostTlps m true s with win := t.win, rings := t.rings }) := by
  intro d t
  have hev := hostTlps_eventsOnly m true s
  obtain ⟨x, hx⟩ : ∃ x, dword3Stored r.val v (hostTlps m true s) = x := ⟨_, rfl⟩
  have ht : t = ringDword3 r.val x := by rw [← hx]
  have hframe : x = { hostTlps m true s with win := x.win } := hx ▸ rfl
  have hrings : ∀ k, x.ring k = s.ring k := hx ▸ dword3Stored_ring r.val v hev
  have hdesc : x.ringDesc r.val = d := hx ▸ dword3Stored_ringDesc r.val v hev
  have hok : x.ringOk r.val d = s.ringOk r.val d := hx ▸ dword3Stored_ringOk r.val v hev d
  have hwin : ∀ a, x.winGet a = if a = ringAddr r.val + 12 then v else (hostTlps m true s).winGet a :=
    hx ▸ dword3Stored_winGet r.val v
  have hreported : x.reported = s.reported := by rw [hframe, hev.1]
  have hhbm : x.hbm = s.hbm := by rw [hframe, hev.1]
  have hplain : x.plainEvent 0x041 r = s.plainEvent 0x041 r := by
    unfold State.plainEvent
    rw [shankStamps_congr (s := s) (t := x) (by rw [hframe, hev.1]) (by rw [hframe]; exact hev.reg _)
      (by rw [hframe]; exact hev.reg _), show x.now = s.now by rw [hframe, hev.1]]
  obtain ⟨hothers, hwins⟩ := ringDword3_oneRing r x
  rw [← ht] at hothers hwins
  clear_value d t
  subst hdesc
  rw [← hrings r.val, ← hok, ← hreported, ← hhbm, ← hplain]
  refine ⟨?_, fun k hk => (hothers k hk).trans (hrings k), fun b hb hne => ?_, fun hon hen => ?_, fun hon hen hbad => ?_,
    fun hon hen hgood => ?_, fun hon hen => ?_, fun hon hen => ?_⟩
  · rw [hwins _ (.inr (by unfold ringAddr; omega)), hwin, if_pos rfl]
  · rw [hwins b hb, hwin, if_neg hne]
    exact hev.2 b hb
  · rw [ht, ringDword3_of_off hon hen]
    exact ⟨rfl, hframe⟩
  · rw [ht, ringDword3_of_rejected hon hen hbad]
    exact (rejected_settles r x).2
  · rw [ht, ringDword3_of_enabled hon hen hgood]
    exact (enabled_settles r.val x _).2
  · rw [ht, ringDword3_of_disabled hon hen]
    exact disabled_settles hon
  · rw [ht, ringDword3_of_kept hon hen]
    refine ⟨State.ring_setRing_same _ _ _, ?_⟩
    generalize hostTlps m true s = h at hframe
    rw [hframe]
    rfl

/-- Settles O45, by the state of the ring and EN for the write, and by whether the pump has something to act on for
its events. -/
theorem ringSetup : Obligations.RingSetup := by
  unfold Obligations.RingSetup
  intro s r
  refine ⟨fun m v => ⟨rfl, rfl⟩, fun m v hs hb => ?_, fun cons => ⟨_, rfl, consPoll_settles r cons s⟩,
    ⟨_, rfl, coalesce_settles r s⟩, fun write => ⟨_, rfl, dmaError_settles r write s⟩⟩
  exact ⟨_, exec_ringEnable v hs hb, dword3_settles s m r v⟩

end Sys2Proof.Machine
end

section
/-! The release of a Lace hold, refuted by a concrete state (O49). -/

namespace Sys2Proof.Machine

/-! ### A release into a state that QSEQ.STAT cannot show

O49 asks of every state, sound or not, that a held body's quarter shows on release the state it was held in. STATE is
four bits wide (Table 5-9) and a hold records the state it reads there, so no hold leaves 16; the statement admits it. -/

/-- A body of the NULL segment. -/
def nullBody : Body :=
  { no := 0, start := 0, len := 8, segLen := 0, addr := 0, word := 0, desc := 0, group := 0, snap := [] }

/-- After power-on, with quarter 0 held in LACE_HOLD under a body, its state before recorded as 16, and a RELEASE of the
one key due. -/
def heldOutOfRange : State :=
  let s := State.reset.setFld (F.QSEQ_STAT_STATE 0) 7
  let s := s.setQ 0 { s.q 0 with body := some nullBody, laceHeld := some 0, heldState := 16 }
  { s with lace := { s.lace with keys := [32], effects := [{ type := 5, orig := 1, num := 0, arg := 0, eff := 0 }] } }

theorem heldOutOfRange_released : ∃ t, exec .laceReleaseEffect heldOutOfRange = .next t ∧ t.lace.keys = [] ∧
    t.qstate 0 ≠ 16 := ⟨_, rfl, by decide +kernel, by decide +kernel⟩

/-- Refutes O49: the release writes the recorded 16 to the four bits of STATE, which then read 0. -/
theorem not_laceEffects : ¬ Obligations.LaceEffects := by
  intro h
  obtain ⟨-, -, -, -, ⟨t, ht, -, turn⟩, -⟩ := h heldOutOfRange
  obtain ⟨-, -, -, -, -, -, -, resumed, -⟩ := turn { type := 5, orig := 1, num := 0, arg := 0, eff := 0 } (by decide +kernel)
  obtain ⟨t', ht', hkeys, hstate⟩ := heldOutOfRange_released
  obtain rfl : t = t' := Host.Outcome.next.inj (ht.symm.trans ht')
  obtain ⟨-, release⟩ := resumed (by decide +kernel) hkeys 0
  obtain ⟨-, ofBody, -⟩ := release 0 (by decide +kernel) (by decide +kernel)
  obtain ⟨-, shown⟩ := ofBody nullBody (by decide +kernel)
  exact hstate (shown (by decide +kernel))

end Sys2Proof.Machine
end

section
/-! The maintenance port SPX1 (R269, R279 to R283): what each part of a frame leaves alone, and O52. -/

namespace Sys2Proof.Machine

/-! ### A flag of the port -/

theorem shankStamps_of_events {s t : State} (h : s.eventsOnly t) : t.shankStamps = s.shankStamps :=
  shankStamps_congr (by rw [h.1]) (h.reg _) (h.reg _)

theorem spxError_flagged (f : Fld) (a : Nat) (s : State) : (spxError f a s).flagged f := raise_flagged s f

theorem spxError_rcGrows (f : Fld) (a : Nat) (s : State) : s.rcGrows (spxError f a s) := raise_rcGrows s f

theorem spxError_readOnly (f : Fld) (a : Nat) (s : State) : s.readOnly (spxError f a s) :=
  State.readOnly_trans (raise_eventsOnly s f).readOnly (report_readOnly _ _ _)

theorem spxError_reported (f : Fld) (a : Nat) (s : State) :
    (spxError f a s).reported = s.reported ++ [s.plainEvent 0x066 a] := by
  have hev := raise_eventsOnly s f
  show (s.raise f).reported ++ _ = _
  rw [shankStamps_of_events hev, hev.1]
  rfl

theorem State.readOnly.spx1 {s t : State} (h : s.readOnly t) : t.spx1 = s.spx1 := by rw [h.1]

theorem State.readOnly.reads {s t : State} (h : s.readOnly t) : t.reads = s.reads := by rw [h.1]

/-! ### A frame opens -/

/-- In RUN with no entry on, the select's wake event is none that the state ends at. -/
theorem wakeEvent_select_of_run {s : State} (h : s.pstate = 0) (he : s.bit F.PWR_STAT_ENTERING = false) : wakeEvent 5 s = s := by
  refine wakeEvent_of_ignored (.inr ?_)
  unfold State.wakeState
  rw [he, show s.fld F.PWR_STAT_STATE = 0 from h]
  rfl

theorem wakeEvent_reads (bit : Nat) (s : State) : (wakeEvent bit s).reads = s.reads := by
  have hraise : ∀ u : State, (u.raise F.PWR_STAT_STATE_EVT).reads = u.reads := fun u => by rw [(raise_eventsOnly u _).1]
  have hmask : (s.raiseMask R.PWR_WAKE_SRC (BitVec.ofNat 16 (2 ^ bit))).reads = s.reads := by rw [(raiseMask_eventsOnly s _ _).1]
  have hexit : ∀ u : State, (startExit u).reads = u.reads := fun u => by
    unfold startExit
    dsimp only
    split <;> rfl
  by_cases h : (s.reg R.PWR_WAKE_EN).getLsbD bit = true ∧ wakeEnds bit s.wakeState = true
  · obtain ⟨he, hw⟩ := h
    unfold wakeEvent
    dsimp only
    unfold State.wakeState at hw
    rw [if_neg (by simp [he, hw])]
    split
    · exact hmask
    · split
      · exact (hraise _).trans hmask
      · split
        · exact hmask
        · exact (hexit _).trans ((hraise _).trans hmask)
  · rw [not_and_or, Bool.not_eq_true, Bool.not_eq_true] at h
    rw [wakeEvent_of_ignored h]

theorem spxOpen_of_bad {cmd : Byte} (h : spxBad cmd = true) (kind : Nat) (s : State) : spxOpen cmd kind s =
    spxError F.SPX1_STAT_FRAME_ERR 0 { wakeEvent 5 s with spx1 := { (wakeEvent 5 s).spx1 with frame := 4 } } := by
  unfold spxOpen
  rw [if_pos h]

/-- In RUN a good command byte opens its frame and does no more. -/
theorem spxOpen_of_good {cmd : Byte} {s : State} (h : spxBad cmd = false) (hrun : s.pstate = 0)
    (he : s.bit F.PWR_STAT_ENTERING = false) (kind : Nat) :
    spxOpen cmd kind s = { s with spx1 := { s.spx1 with frame := kind } } := by
  unfold spxOpen
  rw [wakeEvent_select_of_run hrun he, if_neg (by simp [h])]

theorem spxOpen_bad_ignored {cmd : Byte} (h : spxBad cmd = true) (kind : Nat) (s : State) : s.spxIgnored (spxOpen cmd kind s) := by
  rw [spxOpen_of_bad h]
  have hro := spxError_readOnly F.SPX1_STAT_FRAME_ERR 0 { wakeEvent 5 s with spx1 := { (wakeEvent 5 s).spx1 with frame := 4 } }
  refine ⟨spxError_flagged _ _ _, by rw [hro.spx1], by rw [hro.reads]; exact wakeEvent_reads 5 s, fun hrun he => ?_⟩
  rw [wakeEvent_select_of_run hrun he] at hro ⊢
  exact ⟨spxError_reported _ _ _, hro.regsKept, hro.memoryKept, hro.spx1⟩

/-- The command bytes that cannot be, as R279 lists them. -/
theorem spxBad_iff (cmd : Byte) : spxBad cmd = true ↔
    (cmd.toNat / 64 = 3 ∨ cmd.toNat % 4 ≠ 0 ∨ cmd.toNat / 4 % 4 = 3 ∨ (cmd.toNat / 64 ≠ 2 ∧ cmd.toNat / 16 % 4 = 3)) := by
  unfold spxBad
  simp only [Bool.or_eq_true, Bool.and_eq_true, decide_eq_true_eq, or_assoc]

/-! ### Frames of another kind, and inside a frame -/

section
variable {cmd : Byte} {s : State}

theorem spxRead_of_other {a n : Nat} (h : s.spx1.frame ≠ 0 ∨ (cmd.toNat / 64 ≠ 0 ∧ cmd.toNat / 64 ≠ 3)) : spxRead cmd a n s = s :=
  if_pos (by simp only [Bool.or_eq_true, Bool.and_eq_true, decide_eq_true_eq]; exact h)

theorem spxWrite_of_other {a : Nat} {vs : List Dword} (h : s.spx1.frame ≠ 0 ∨ (cmd.toNat / 64 ≠ 1 ∧ cmd.toNat / 64 ≠ 3)) :
    spxWrite cmd a vs s = s :=
  if_pos (by simp only [Bool.or_eq_true, Bool.and_eq_true, decide_eq_true_eq]; exact h)

theorem spxStatus_of_other {extra : Bool} (h : s.spx1.frame ≠ 0 ∨ cmd.toNat / 64 < 2) : spxStatus cmd extra s = s :=
  if_pos (by simp only [Bool.or_eq_true, decide_eq_true_eq]; exact h)

theorem spxOpen_bad_frame (h : spxBad cmd = true) (kind : Nat) (s : State) : (spxOpen cmd kind s).spx1.frame = 4 :=
  (spxOpen_bad_ignored h kind s).2.1

theorem spxRead_of_bad {a n : Nat} (h : spxBad cmd = true) (hf : s.spx1.frame = 0) (hop : cmd.toNat / 64 = 0 ∨ cmd.toNat / 64 = 3) :
    spxRead cmd a n s = spxOpen cmd 1 s := by
  unfold spxRead
  rw [if_neg (by simp only [Bool.or_eq_true, Bool.and_eq_true, decide_eq_true_eq]; omega)]
  exact if_pos (by rw [spxOpen_bad_frame h]; decide)

theorem spxWrite_of_bad {a : Nat} {vs : List Dword} (h : spxBad cmd = true) (hf : s.spx1.frame = 0)
    (hop : cmd.toNat / 64 = 1 ∨ cmd.toNat / 64 = 3) : spxWrite cmd a vs s = spxOpen cmd 2 s := by
  unfold spxWrite
  rw [if_neg (by simp only [Bool.or_eq_true, Bool.and_eq_true, decide_eq_true_eq]; omega)]
  exact if_pos (by rw [spxOpen_bad_frame h]; decide)

theorem spxStatus_of_bad {extra : Bool} (h : spxBad cmd = true) (hf : s.spx1.frame = 0) (hop : 2 ≤ cmd.toNat / 64) :
    spxStatus cmd extra s = spxOpen cmd 3 s := by
  unfold spxStatus
  rw [if_neg (by simp only [Bool.or_eq_true, decide_eq_true_eq]; omega)]
  exact if_pos (by rw [spxOpen_bad_frame h]; decide)

end

end Sys2Proof.Machine
end

section
/-! Frames of the maintenance port that read nothing: STATUS, WRITE, the queue, the select's release and the idle
timeout (O52). -/

namespace Sys2Proof.Machine

/-! ### What an event leaves in SPX1's copy

The messages that follow an event set RC bits of counters' STAT alone, which lie at 0x1C of every 32 bytes (R45). -/

section
variable {a : Nat} (ha : a % 32 ≠ 28)
include ha

theorem addCount_rcSpx1 (n i : Nat) (s : State) : (addCount n i s).rcSpx1 a = s.rcSpx1 a := by
  have hne : a ≠ R.EVC_STAT i := by
    unfold R.EVC_STAT
    omega
  delta addCount
  extract_lets e t
  split
  · rw [State.rcSpx1_setRc, if_neg hne]
    rfl
  · rfl

theorem countRaw_rcSpx1 (s : State) (src n : Nat) : (s.countRaw src n).rcSpx1 a = s.rcSpx1 a :=
  foldl_proj (p := fun t => t.rcSpx1 a) (fun t i => addCount_rcSpx1 ha n i t) _ s

theorem sendRaw_rcSpx1 (s : State) (w : Nat) : (s.sendRaw w).rcSpx1 a = s.rcSpx1 a := by
  delta State.sendRaw
  split
  · rfl
  · split
    · rfl
    · exact (countRaw_rcSpx1 ha _ _ _).trans (countRaw_rcSpx1 ha _ _ _)

theorem sendVec_rcSpx1 (s : State) (v : Nat) : (s.sendVec v).rcSpx1 a = s.rcSpx1 a := by
  delta State.sendVec State.sendMsix
  dsimp only
  split
  · split
    · exact (sendRaw_rcSpx1 ha _ _).trans (sendRaw_rcSpx1 ha _ _)
    · exact sendRaw_rcSpx1 ha _ _
  · rfl

theorem withVecs_rcSpx1 (l : List Nat) (f : State → State) (s : State) :
    (l.foldl (fun f v => withVec v f) f s).rcSpx1 a = (f s).rcSpx1 a := by
  induction l generalizing f with
  | nil => rfl
  | cons v l ih =>
    refine (ih _).trans ?_
    dsimp only [withVec]
    split
    · exact sendVec_rcSpx1 ha (f s) v
    · rfl

theorem raise_rcSpx1 (s : State) (f : Fld) :
    (s.raise f).rcSpx1 a = if a = f.addr then s.rcSpx1 f.addr ||| fldMask f else s.rcSpx1 a :=
  (withVecs_rcSpx1 ha _ (fun t => t.setRc f.addr (fldMask f)) s).trans (State.rcSpx1_setRc _ _ _ _)

end

/-! ### A STATUS frame (R283) -/

theorem spxToken_of_pattern {s : State} (h : s.fld F.SPX1_CFG_BUSY_PAT = 0xA5) :
    spxToken s = spxError F.SPX1_STAT_FRAME_ERR 0 s := if_pos h

theorem spxToken_of_not {s : State} (h : ¬s.fld F.SPX1_CFG_BUSY_PAT = 0xA5) : spxToken s = s := if_neg h

theorem spxToken_readOnly (s : State) : s.readOnly (spxToken s) := by
  by_cases h : s.fld F.SPX1_CFG_BUSY_PAT = 0xA5
  · exact spxToken_of_pattern h ▸ spxError_readOnly _ _ _
  · rw [spxToken_of_not h]
    exact s.readOnly_refl

/-- The dword of a STATUS frame goes out, and SPX1's copy of the flags is cleared. -/
def spxAnswered (s : State) : State :=
  { s with reads := (s.readValue .spx1 R.SPX1_STAT 0xFE ++ word s.attention) :: s.reads }.clrRcSpx1 R.SPX1_STAT

/-- `s` with a frame of a kind open. -/
def framed (kind : Nat) (s : State) : State := { s with spx1 := { s.spx1 with frame := kind } }

theorem spxStatus_of_good {cmd : Byte} {s : State} (hf : s.spx1.frame = 0) (hgood : spxBad cmd = false) (hrun : s.pstate = 0)
    (he : s.bit F.PWR_STAT_ENTERING = false) (hop : cmd.toNat / 64 = 2) (extra : Bool) : spxStatus cmd extra s =
      if extra = true then (spxAnswered (spxToken (framed 3 s))).raise F.SPX1_STAT_OVERCLOCK
      else spxAnswered (spxToken (framed 3 s)) := by
  unfold spxStatus
  rw [if_neg (by simp only [Bool.or_eq_true, decide_eq_true_eq]; omega), spxOpen_of_good hgood hrun he]
  exact if_neg fun h => h rfl

/-- A bit set in the host's copy outlives an event. -/
theorem raise_rcHost_keeps {s : State} {a : Nat} {m : Word} (f : Fld) (h : s.rcHost a &&& m = m) :
    (s.raise f).rcHost a &&& m = m := by
  rw [BitVec.and_comm] at h ⊢
  exact and_eq_of_and_eq h (raise_rcGrows s f a).1

/-- From `s` to `t` no register, window or byte changes, nor what is reported. -/
def State.answers (s t : State) : Prop := s.regsKept [] t ∧ s.memoryKept t ∧ t.spx1 = s.spx1 ∧ t.reported = s.reported

theorem State.eventsOnly.answers {s t : State} (h : s.eventsOnly t) : s.answers t :=
  ⟨fun a _ => h.reg a, ⟨by rw [h.1], h.2⟩, by rw [h.1], by rw [h.1]⟩

theorem spxAnswered_settles (extra : Bool) (u : State) :
    let t := if extra = true then (spxAnswered u).raise F.SPX1_STAT_OVERCLOCK else spxAnswered u
    u.answers t ∧ t.reads = (u.readValue .spx1 R.SPX1_STAT 0xFE ++ word u.attention) :: u.reads ∧
      t.rcSpx1 R.SPX1_STAT = (if extra = true then fldMask F.SPX1_STAT_OVERCLOCK else 0) ∧
      (∀ m, u.rcHost R.SPX1_STAT &&& m = m → t.rcHost R.SPX1_STAT &&& m = m) := by
  have hclear : (spxAnswered u).rcSpx1 R.SPX1_STAT = 0 := (State.rcSpx1_clrRcSpx1 _ _ _).trans (if_pos rfl)
  have hframe : u.answers (spxAnswered u) := ⟨fun _ _ => rfl, ⟨rfl, fun _ _ => rfl⟩, rfl, rfl⟩
  cases extra with
  | false => exact ⟨hframe, rfl, hclear, fun m h => h⟩
  | true =>
    obtain ⟨hregs, hmem, hspx, hrep⟩ := hframe
    have hev := raise_eventsOnly (spxAnswered u) F.SPX1_STAT_OVERCLOCK
    refine ⟨⟨fun a ha => (hev.reg a).trans (hregs a ha), ⟨?_, fun a ha => (hev.2 a ha).trans (hmem.2 a ha)⟩, ?_, ?_⟩, ?_, ?_,
      fun m h => raise_rcHost_keeps _ h⟩
    · exact hev.answers.2.1.1.trans hmem.1
    · exact hev.answers.2.2.1.trans hspx
    · exact hev.answers.2.2.2.trans hrep
    · rw [if_pos rfl, hev.1]
      rfl
    · rw [if_pos rfl, if_pos rfl, raise_rcSpx1 (by decide), if_pos (show R.SPX1_STAT = F.SPX1_STAT_OVERCLOCK.addr from rfl)]
      show (spxAnswered u).rcSpx1 R.SPX1_STAT ||| _ = _
      rw [hclear]
      exact BitVec.zero_or

theorem spxStatus_settles {cmd : Byte} {s : State} (hf : s.spx1.frame = 0) (hgood : spxBad cmd = false) (hrun : s.pstate = 0)
    (he : s.bit F.PWR_STAT_ENTERING = false) (hop : cmd.toNat / 64 = 2) (extra : Bool) :
    let t := spxStatus cmd extra s
    let pattern := s.fld F.SPX1_CFG_BUSY_PAT = 0xA5
    t.spx1.frame = 3 ∧ s.regsKept [] t ∧
      t.rcSpx1 R.SPX1_STAT = (if extra = true then fldMask F.SPX1_STAT_OVERCLOCK else 0) ∧ s.memoryKept t ∧
      (¬pattern → t.reads = (s.readValue .spx1 R.SPX1_STAT 0xFE ++ BitVec.ofNat 16 s.attention) :: s.reads ∧
        t.reported = s.reported) ∧
      (pattern → t.rcHost R.SPX1_STAT &&& fldMask F.SPX1_STAT_FRAME_ERR = fldMask F.SPX1_STAT_FRAME_ERR ∧
        t.reported = s.reported ++ [s.plainEvent 0x066 0]) := by
  intro t pattern
  have hro : (framed 3 s).readOnly (spxToken (framed 3 s)) := spxToken_readOnly _
  have ht := spxStatus_of_good hf hgood hrun he hop extra
  obtain ⟨⟨hregs, hmem, hspx, hrep⟩, hreads, hown, hhost⟩ := spxAnswered_settles extra (spxToken (framed 3 s))
  rw [← ht] at hregs hmem hspx hrep hreads hown hhost
  refine ⟨?_, fun a ha => (hregs a ha).trans (hro.regsKept a ha), hown,
    ⟨hmem.1.trans hro.memoryKept.1, fun a ha => (hmem.2 a ha).trans (hro.2 a ha)⟩, fun hp => ?_, fun hp => ?_⟩
  · rw [hspx, hro.spx1]
    rfl
  · rw [show spxToken (framed 3 s) = framed 3 s from spxToken_of_not hp] at hreads hrep
    exact ⟨hreads, hrep⟩
  · rw [show spxToken (framed 3 s) = _ from spxToken_of_pattern hp] at hrep hhost
    exact ⟨hhost _ (spxError_flagged _ _ _).1, hrep.trans (spxError_reported _ _ _)⟩

/-! ### A WRITE frame (R281, R282) -/

/-- From `s` to `t` a WRITE frame takes `k` dwords: its address moves past them, flags may be set, and no register but
WQ changes. -/
structure State.queues (k : Nat) (s t : State) : Prop where
  frame : t.spx1.frame = s.spx1.frame
  first : t.spx1.first = s.spx1.first
  addr : t.spx1.addr = s.spx1.addr + 4 * k
  reads : t.reads = s.reads
  regs : s.regsKept [R.SPX1_WQ] t
  memory : s.memoryKept t
  grows : s.rcGrows t

theorem State.memoryKept_trans {s t u : State} (h1 : s.memoryKept t) (h2 : t.memoryKept u) : s.memoryKept u :=
  ⟨h2.1.trans h1.1, fun a ha => (h2.2 a ha).trans (h1.2 a ha)⟩

theorem State.queues_refl (s : State) : s.queues 0 s :=
  ⟨rfl, rfl, rfl, rfl, fun _ _ => rfl, ⟨rfl, fun _ _ => rfl⟩, s.rcGrows_refl⟩

theorem State.queues_trans {k l : Nat} {s t u : State} (h1 : s.queues k t) (h2 : t.queues l u) : s.queues (k + l) u where
  frame := h2.frame.trans h1.frame
  first := h2.first.trans h1.first
  addr := by rw [h2.addr, h1.addr]; omega
  reads := h2.reads.trans h1.reads
  regs a ha := (h2.regs a ha).trans (h1.regs a ha)
  memory := State.memoryKept_trans h1.memory h2.memory
  grows := State.rcGrows_trans h1.grows h2.grows

theorem spxNext_queues (s : State) : s.queues 1 (spxNext s) :=
  ⟨rfl, rfl, rfl, rfl, fun _ _ => rfl, ⟨rfl, fun _ _ => rfl⟩, State.rcGrows_of_eq rfl rfl⟩

theorem spxError_queues (f : Fld) (a : Nat) (s : State) : s.queues 0 (spxError f a s) := by
  have hro := spxError_readOnly f a s
  refine ⟨?_, ?_, ?_, hro.reads, fun b _ => hro.regsKept b (by simp), hro.memoryKept, spxError_rcGrows f a s⟩ <;> rw [hro.spx1]
  rfl

/-- `s` with one dword more in the queue, and WQ showing it. -/
def spxQueued (v : Dword) (s : State) : State :=
  spxNext (showWq { s with spx1 := { s.spx1 with queue := s.spx1.queue ++ [(s.spx1.addr, v)] } })

theorem showWq_reg {s : State} {a : Nat} (h : a ≠ R.SPX1_WQ) : (showWq s).reg a = s.reg a := State.reg_setFld_ne _ _ h

theorem spxQueued_queues (v : Dword) (s : State) : s.queues 1 (spxQueued v s) :=
  ⟨rfl, rfl, rfl, rfl, fun _ ha => showWq_reg (List.ne_of_not_mem_cons ha), ⟨rfl, fun _ _ => rfl⟩, State.rcGrows_of_eq rfl rfl⟩

section
variable {v : Dword} {s : State}

theorem spxQueue_of_past (h : s.spx1.addr / 0x10000 ≠ s.spx1.first / 0x10000) :
    spxQueue v s = spxNext (spxError F.SPX1_STAT_PAST_END s.spx1.addr s) := if_pos (by simpa [State.spxPast] using h)

theorem spxQueue_of_full (h : s.spx1.addr / 0x10000 = s.spx1.first / 0x10000) (hf : 64 ≤ s.spx1.queue.length) :
    spxQueue v s = spxNext (spxError F.SPX1_STAT_WR_DROP s.spx1.addr s) :=
  (if_neg (by simpa [State.spxPast] using h)).trans (if_pos hf)

theorem spxQueue_of_room (h : s.spx1.addr / 0x10000 = s.spx1.first / 0x10000) (hf : s.spx1.queue.length < 64) :
    spxQueue v s = spxQueued v s :=
  (if_neg (by simpa [State.spxPast] using h)).trans (if_neg (by omega))

end

theorem spxQueue_queues (v : Dword) (s : State) : s.queues 1 (spxQueue v s) := by
  by_cases hp : s.spx1.addr / 0x10000 = s.spx1.first / 0x10000
  · by_cases hf : 64 ≤ s.spx1.queue.length
    · rw [spxQueue_of_full hp hf]
      exact State.queues_trans (spxError_queues _ _ s) (spxNext_queues _)
    · rw [spxQueue_of_room hp (by omega)]
      exact spxQueued_queues v s
  · rw [spxQueue_of_past hp]
    exact State.queues_trans (spxError_queues _ _ s) (spxNext_queues _)

theorem foldl_spxQueue_queues (vs : List Dword) (s : State) : s.queues vs.length (vs.foldl (fun s v => spxQueue v s) s) := by
  induction vs generalizing s with
  | nil => exact s.queues_refl
  | cons v vs ih =>
    rw [List.length_cons, Nat.add_comm]
    exact State.queues_trans (spxQueue_queues v s) (ih _)

/-- Dwords that fit in the queue and in the block wait at rising addresses. -/
theorem foldl_spxQueue_fits (vs : List Dword) (c k : Nat) (s : State) (haddr : s.spx1.addr = c + 4 * k)
    (hroom : s.spx1.queue.length + vs.length ≤ 64) (hlow : s.spx1.first / 0x10000 ≤ s.spx1.addr / 0x10000)
    (hhigh : (s.spx1.addr + 4 * vs.length - 1) / 0x10000 = s.spx1.first / 0x10000) :
    let t := vs.foldl (fun s v => spxQueue v s) s
    t.spx1.queue = s.spx1.queue ++ ((vs.zipIdx k).map fun e => (c + 4 * e.2, e.1)) ∧
      (vs ≠ [] → t.fld F.SPX1_WQ_FILL = s.spx1.queue.length + vs.length) ∧ t.reported = s.reported := by
  induction vs generalizing s k with
  | nil => exact ⟨(List.append_nil _).symm, fun h => absurd rfl h, rfl⟩
  | cons v vs ih =>
    rw [List.length_cons] at hroom hhigh
    have hstep : spxQueue v s = spxQueued v s := spxQueue_of_room (by omega) (by omega)
    have hqueue : (spxQueued v s).spx1.queue = s.spx1.queue ++ [(s.spx1.addr, v)] := rfl
    have hlen : (spxQueued v s).spx1.queue.length = s.spx1.queue.length + 1 := by rw [hqueue, List.length_append]; rfl
    have hnext : (spxQueued v s).spx1.addr = s.spx1.addr + 4 := rfl
    have hfirst : (spxQueued v s).spx1.first = s.spx1.first := rfl
    rw [List.foldl_cons, hstep]
    have ih' := fun hlast => ih (k + 1) (spxQueued v s) (by rw [hnext]; omega) (by omega) hlast
    cases vs with
    | nil =>
      refine ⟨?_, fun _ => ?_, rfl⟩
      · rw [List.zipIdx_singleton, List.map_singleton, ← haddr]
        rfl
      · show ((State.setFld _ F.SPX1_WQ_FILL (s.spx1.queue ++ [(s.spx1.addr, v)]).length)).fld F.SPX1_WQ_FILL = _
        rw [State.fld_setFld _ _ _ (by decide), List.length_append]
        exact Nat.mod_eq_of_lt (show s.spx1.queue.length + 1 < 2 ^ 7 by omega)
    | cons w ws =>
      rw [List.length_cons] at hroom hhigh
      obtain ⟨hq, hfill, hrep⟩ := ih' (by rw [hfirst, hnext]; omega) (by rw [hfirst, hnext, List.length_cons]; rw [← hhigh]; congr 1; omega)
      refine ⟨?_, fun _ => ?_, hrep⟩
      · rw [hq, hqueue, List.append_assoc, List.zipIdx_cons (a := v), List.map_cons, haddr]
        rfl
      · rw [hfill (List.cons_ne_nil _ _), hlen, List.length_cons, List.length_cons, List.length_cons]
        omega

/-- `s` with a frame's address set. -/
def addressed (a : Nat) (s : State) : State :=
  { s with spx1 := { s.spx1 with first := a % 2 ^ 24 / 4 * 4, addr := a % 2 ^ 24 / 4 * 4 } }

theorem spxAddr_of_aligned {a : Nat} (h : a % 4 = 0) (s : State) : spxAddr a s = addressed a s := by
  unfold spxAddr
  rw [if_pos h]
  rfl

theorem spxAddr_of_not {a : Nat} (h : a % 4 ≠ 0) (s : State) : spxAddr a s = addressed a (s.raise F.SPX1_STAT_ALIGN) := by
  unfold spxAddr
  rw [if_neg h]
  rfl

/-- The address phase may set ALIGN, and changes no register, window or byte. -/
theorem spxAddr_settles (a : Nat) (s : State) :
    let t := spxAddr a s
    t.spx1 = (addressed a s).spx1 ∧ t.reads = s.reads ∧ t.reported = s.reported ∧ s.regsKept [] t ∧ s.memoryKept t ∧
      s.rcGrows t ∧ (a % 4 ≠ 0 → t.flagged F.SPX1_STAT_ALIGN) ∧ t.shankStamps = s.shankStamps ∧ t.now = s.now := by
  by_cases h : a % 4 = 0
  · rw [spxAddr_of_aligned h]
    exact ⟨rfl, rfl, rfl, fun _ _ => rfl, ⟨rfl, fun _ _ => rfl⟩, State.rcGrows_of_eq rfl rfl, fun hn => absurd h hn, rfl, rfl⟩
  · have hev := raise_eventsOnly s F.SPX1_STAT_ALIGN
    have hflag := raise_flagged s F.SPX1_STAT_ALIGN
    have hstamps := shankStamps_of_events hev
    have hgrows := raise_rcGrows s F.SPX1_STAT_ALIGN
    rw [spxAddr_of_not h]
    generalize s.raise F.SPX1_STAT_ALIGN = u at hev hflag hstamps hgrows
    exact ⟨by rw [hev.1]; rfl, by rw [hev.1]; rfl, by rw [hev.1]; rfl, fun b _ => hev.reg b, hev.answers.2.1, hgrows,
      fun _ => hflag, hstamps, by rw [hev.1]; rfl⟩

theorem spxWrite_of_good {cmd : Byte} {s : State} (hf : s.spx1.frame = 0) (hgood : spxBad cmd = false) (hrun : s.pstate = 0)
    (he : s.bit F.PWR_STAT_ENTERING = false) (hop : cmd.toNat / 64 = 1) (a : Nat) (vs : List Dword) :
    spxWrite cmd a vs s = vs.foldl (fun s v => spxQueue v s) (spxAddr a (framed 2 s)) := by
  unfold spxWrite
  rw [if_neg (by simp only [Bool.or_eq_true, Bool.and_eq_true, decide_eq_true_eq]; omega), spxOpen_of_good hgood hrun he]
  exact if_neg fun h => h rfl

theorem spxWrite_settles {cmd : Byte} {s : State} (hf : s.spx1.frame = 0) (hgood : spxBad cmd = false) (hrun : s.pstate = 0)
    (he : s.bit F.PWR_STAT_ENTERING = false) (hop : cmd.toNat / 64 = 1) (a : Nat) (vs : List Dword) :
    let t := spxWrite cmd a vs s
    t.spx1.frame = 2 ∧
    s.memoryKept t ∧ s.regsKept [R.SPX1_WQ] t ∧ (a % 4 ≠ 0 → t.flagged F.SPX1_STAT_ALIGN) ∧
    t.spx1.addr = a % 2 ^ 24 / 4 * 4 + 4 * vs.length ∧ t.reads = s.reads ∧
    (s.spx1.queue.length + vs.length ≤ 64 → (a % 2 ^ 24 / 4 * 4 + 4 * vs.length - 1) / 0x10000 = a % 2 ^ 24 /
      0x10000 →
      t.spx1.queue = s.spx1.queue ++ (vs.zipIdx.map fun e => (a % 2 ^ 24 / 4 * 4 + 4 * e.2, e.1)) ∧
      (vs ≠ [] → t.fld F.SPX1_WQ_FILL = s.spx1.queue.length + vs.length) ∧ t.reported = s.reported) ∧
    (∀ v, vs = [v] → 64 ≤ s.spx1.queue.length → t.spx1.queue = s.spx1.queue ∧ t.flagged F.SPX1_STAT_WR_DROP ∧
        t.reported = s.reported ++ [s.plainEvent 0x066 (a % 2 ^ 24 / 4 * 4)]) ∧
    (∀ v w, vs = [v, w] → a % 0x10000 = 0xFFFC → s.spx1.queue.length < 64 → t.flagged F.SPX1_STAT_PAST_END ∧
      t.spx1.queue = s.spx1.queue ++ [(a % 2 ^ 24, v)]) := by
  intro t
  obtain ⟨hspx, hreads, hrep, hregs, hmem, hgrows, halign, hstamps, hnow⟩ := spxAddr_settles a (framed 2 s)
  have ht : t = vs.foldl (fun s v => spxQueue v s) (spxAddr a (framed 2 s)) := spxWrite_of_good hf hgood hrun he hop a vs
  generalize spxAddr a (framed 2 s) = u at *
  have hframe : u.spx1.frame = 2 := by rw [hspx]; rfl
  have hqueue : u.spx1.queue = s.spx1.queue := by rw [hspx]; rfl
  have haddr : u.spx1.addr = a % 2 ^ 24 / 4 * 4 := by rw [hspx]; rfl
  have hfirst : u.spx1.first = a % 2 ^ 24 / 4 * 4 := by rw [hspx]; rfl
  have hq : u.queues vs.length t := ht ▸ foldl_spxQueue_queues vs u
  refine ⟨hq.frame.trans hframe, State.memoryKept_trans hmem hq.memory, fun b hb => (hq.regs b hb).trans (hregs b (by simp)),
    fun h => hq.grows.flagged (halign h), by rw [hq.addr, haddr], hq.reads.trans hreads, fun hroom hblock => ?_,
    fun v hv hfull => ?_, fun v w hvw hend hroom => ?_⟩
  · have hfits := foldl_spxQueue_fits vs (a % 2 ^ 24 / 4 * 4) 0 u (by rw [haddr]; rfl) (by rw [hqueue]; exact hroom)
      (by rw [haddr, hfirst]) (by rw [haddr, hfirst]; omega)
    dsimp only at hfits
    rw [← ht, hqueue, hrep] at hfits
    exact hfits
  · have hone : t = spxNext (spxError F.SPX1_STAT_WR_DROP u.spx1.addr u) := by
      rw [ht, hv]
      exact spxQueue_of_full (by rw [haddr, hfirst]) (by rw [hqueue]; exact hfull)
    have hro := spxError_readOnly F.SPX1_STAT_WR_DROP u.spx1.addr u
    rw [hone]
    refine ⟨?_, spxError_flagged _ u.spx1.addr u, (spxError_reported F.SPX1_STAT_WR_DROP u.spx1.addr u).trans ?_⟩
    · show (spxError F.SPX1_STAT_WR_DROP u.spx1.addr u).spx1.queue = _
      rw [hro.spx1, hqueue]
    · rw [hrep, haddr]
      unfold State.plainEvent
      rw [hstamps, hnow]
      rfl
  · have hbase : a % 2 ^ 24 / 4 * 4 = a % 2 ^ 24 := by omega
    have hfst : spxQueue v u = spxQueued v u := spxQueue_of_room (by rw [haddr, hfirst]) (by rw [hqueue]; exact hroom)
    have hpast : t = spxNext (spxError F.SPX1_STAT_PAST_END (spxQueued v u).spx1.addr (spxQueued v u)) := by
      rw [ht, hvw, List.foldl_cons, List.foldl_cons, List.foldl_nil, hfst]
      refine spxQueue_of_past ?_
      show (u.spx1.addr + 4) / 0x10000 ≠ u.spx1.first / 0x10000
      rw [haddr, hfirst]
      omega
    rw [hpast]
    refine ⟨spxError_flagged _ (spxQueued v u).spx1.addr (spxQueued v u), ?_⟩
    show (spxError F.SPX1_STAT_PAST_END (spxQueued v u).spx1.addr (spxQueued v u)).spx1.queue = _
    rw [(spxError_readOnly _ _ _).spx1]
    show u.spx1.queue ++ [(u.spx1.addr, v)] = _
    rw [hqueue, haddr, hbase]

end Sys2Proof.Machine
end

section
/-! A queued dword applied, the select's release and the idle timeout (O52). -/

namespace Sys2Proof.Machine

/-! ### A queued dword applied (R281) -/

theorem regionClosed_congr {s t : State} (h : s.regsKept [R.SPX1_WQ] t) (a : Nat) : t.regionClosed a = s.regionClosed a := by
  unfold State.regionClosed
  cases hr : addrRegion a with
  | none => rfl
  | some r =>
    have hlt : r < 9 := by
      unfold addrRegion at hr
      split at hr
      · exact absurd hr nofun
      · split at hr
        · obtain rfl := Option.some.inj hr
          decide
        · split at hr
          · obtain rfl := Option.some.inj hr
            decide
          · split at hr
            · obtain rfl := Option.some.inj hr
              omega
            · exact absurd hr nofun
    have hreg : t.reg (R.FLT_UST (2 + r)) = s.reg (R.FLT_UST (2 + r)) :=
      h _ (by simp only [List.mem_singleton, R.FLT_UST, R.SPX1_WQ]; omega)
    dsimp only
    unfold State.unitFault State.bit State.fld
    rw [show (F.FLT_UST_FAULT (2 + r)).addr = R.FLT_UST (2 + r) from rfl, hreg]

/-- From `s` to `t` nothing changes but registers, what SPX1 holds, and the values read. -/
def State.portOnly (s t : State) : Prop :=
  t = { s with regs := t.regs, copyB := t.copyB, copyC := t.copyC, spx1 := t.spx1, reads := t.reads }

theorem fld_of_regsKept {s t : State} (hregs : s.regsKept [R.SPX1_WQ] t) {f : Fld} (hf : f.addr ≠ R.SPX1_WQ) : t.fld f = s.fld f := by
  unfold State.fld
  rw [hregs f.addr (by simpa using hf)]

theorem bit_of_regsKept {s t : State} (hregs : s.regsKept [R.SPX1_WQ] t) {f : Fld} (hf : f.addr ≠ R.SPX1_WQ) : t.bit f = s.bit f := by
  unfold State.bit
  rw [fld_of_regsKept hregs hf]

section
variable {s t : State} {m : Master} {a : Nat} (hframe : s.portOnly t) (hregs : s.regsKept [R.SPX1_WQ] t)
include hframe hregs

theorem State.Serves.port (h : s.Serves m a) : t.Serves m a where
  up := by
    rw [← h.up]
    unfold State.fabricDown State.pstate
    rw [fld_of_regsKept hregs (by decide), bit_of_regsKept hregs (by decide),
      bit_of_regsKept hregs (by decide)]
  clocked := (bit_of_regsKept hregs (by decide)).trans h.clocked
  awake := by
    have hoff : t.centralOff = s.centralOff := by
      unfold State.centralOff
      rw [fld_of_regsKept hregs (by decide), bit_of_regsKept hregs (by decide),
        bit_of_regsKept hregs (by decide), show t.pwr = s.pwr by rw [hframe]]
    rw [hoff, show t.pstate = s.pstate from fld_of_regsKept hregs (by decide)]
    exact h.awake
  ahead := by
    rw [← h.ahead, show t.mustWait m = s.mustWait m by rw [hframe]; rfl]
  domain q hq := by
    rw [← h.domain q hq]
    unfold State.quarterOn
    rw [hregs _ (by decide)]
  region := (regionClosed_congr hregs a).trans h.region

/-- A write outside the transaction units' own registers, for the chip's unit. -/
theorem State.Takes.port (hscope : txnScopes a = [16]) (h : s.Takes m a) : t.Takes m a where
  toServes := h.toServes.port hframe hregs
  boot := by
    rw [← h.boot]
    unfold State.bootRefuses State.bootBusy
    rw [fld_of_regsKept hregs (by decide), bit_of_regsKept hregs (by decide), show t.boot = s.boot by rw [hframe]]
  free := by
    rw [← h.free]
    unfold State.capturer
    rw [hscope]
    unfold txnState txnOwner
    simp only [List.find?_cons, List.find?_nil, hregs (txnBase 16 + 8) (by decide)]
  first := by
    rw [← h.first]
    unfold State.outranked
    rw [show t.cycle = s.cycle by rw [hframe], show t.now = s.now by rw [hframe]]

end

/-- A marker register is one that no transaction register, window, posted block or RDY register shares its address with. -/
theorem markerReg_plain {a : Nat} (h1 : 0x400 ≤ a) (h2 : a < 0x480) (h4 : a % 4 = 0) :
    busAddr a = a ∧ isWindow a = false ∧ txnUnitAt a = none ∧ pstatOf a = none ∧ txnScopes a = [16] := by
  have all : ∀ i : Fin 32, busAddr (0x400 + 4 * i.val) = 0x400 + 4 * i.val ∧ isWindow (0x400 + 4 * i.val) = false ∧
      txnUnitAt (0x400 + 4 * i.val) = none ∧ pstatOf (0x400 + 4 * i.val) = none ∧ txnScopes (0x400 + 4 * i.val) = [16] := by
    decide
  have h := all ⟨(a - 0x400) / 4, by omega⟩
  rwa [show 0x400 + 4 * ((a - 0x400) / 4) = a by omega] at h

theorem applyReg_marker {m : Master} {a : Nat} {r : RegRow} (mask data : Word) (b : Nat) (s : State)
    (hr : rowOf a = some r) (h : 0x400 ≤ a ∧ a < 0x480) :
    applyReg m a mask data b s = done (Wr.put ⟨m, a, mask, data, r.rw, r.wt, b⟩ s) := by
  unfold applyReg
  rw [hr]
  dsimp only
  rw [if_neg (by omega), if_neg (by omega), if_pos (by omega)]

/-- A dword is its mask half and its data half (R5). -/
theorem dword_eq_pair (v : Dword) : v = (v >>> 16).setWidth 16 ++ v.setWidth 16 := by
  refine BitVec.eq_of_getLsbD_eq fun i hi => ?_
  rw [BitVec.getLsbD_append]
  split
  · next h => simp [h]
  · next h =>
    have hhigh : i - 16 < 16 := by omega
    simp [BitVec.getLsbD_ushiftRight, hhigh, Nat.add_sub_cancel' (Nat.not_lt.1 h)]

/-- A write that the fabric takes changes the masked writable bits of its marker register, and no other register. -/
theorem busWrite_marker {s : State} {m : Master} {a : Nat} {r : RegRow} (v : Dword) (hr : rowOf a = some r) (h1 : 0x400 ≤ a)
    (h2 : a < 0x480) (h4 : a % 4 = 0) (h : s.Takes m a) :
    let t := busWrite m a 0xF v s
    t.reg a = (s.reg a &&& ~~~((v >>> 16).setWidth 16 &&& BitVec.ofNat 16 r.rw)) |||
      (v.setWidth 16 &&& ((v >>> 16).setWidth 16 &&& BitVec.ofNat 16 r.rw)) ∧
    s.regsKept [a] t ∧ s.memoryKept t ∧ t.spx1 = s.spx1 := by
  obtain ⟨mask, data, rfl⟩ : ∃ mask data : Word, v = mask ++ data := ⟨_, _, dword_eq_pair v⟩
  obtain ⟨haddr, hwin, htxn, hpstat, -⟩ := markerReg_plain h1 h2 h4
  have heq := busReg_eq mask data h haddr hwin hr htxn hpstat
    (by simp only [Bool.and_eq_false_iff, decide_eq_false_iff_not]; omega)
  rw [applyReg_marker _ _ _ _ hr ⟨h1, h2⟩] at heq
  have hev := hostTlps_eventsOnly m true s
  intro t
  have ht : t = Wr.put ⟨m, a, mask, data, r.rw, r.wt, granuleNext s.now⟩
    (noteCycle m a (mask &&& BitVec.ofNat 16 r.rw) (hostTlps m true s)) := heq
  rw [mask_of_pair, data_of_pair, ht]
  refine ⟨?_, fun b hb => ?_, ⟨?_, fun b hb => ?_⟩, ?_⟩
  · rw [put_reg, if_pos rfl]
    unfold Wr.value
    rw [show (noteCycle m a (mask &&& BitVec.ofNat 16 r.rw) (hostTlps m true s)).reg a = s.reg a from hev.reg a]
  · rw [put_reg_ne _ _ (by simpa using hb)]
    exact hev.reg b
  · rw [put_hbm]
    exact hev.answers.2.1.1
  · rw [State.winGet, put_win]
    exact hev.2 b hb
  · rw [put_frame]
    exact hev.answers.2.2.1

/-- `s` with `l` left in the queue, and WQ showing it. -/
def dequeued (l : List (Nat × Dword)) (s : State) : State := showWq { s with spx1 := { s.spx1 with queue := l } }

theorem spxApply_of_idle {s : State} (h : s.spx1.queue = [] ∨ s.pwr.stalled.any (fun y => y.master = .spx1) = true) :
    spxApply s = s := by
  unfold spxApply
  split
  · rfl
  · next hq =>
    rcases h with h | h
    · exact absurd (h.symm.trans hq) nofun
    · exact if_pos h

theorem spxApply_of_queued {s : State} {a : Nat} {v : Dword} {l : List (Nat × Dword)} (hq : s.spx1.queue = (a, v) :: l)
    (hst : s.pwr.stalled.any (fun y => y.master = .spx1) = false) : spxApply s = busWrite .spx1 a 0xF v (dequeued l s) := by
  unfold spxApply
  rw [hq]
  exact if_neg (by simp [hst])

theorem dequeued_marker {s : State} {a : Nat} {r : RegRow} (v : Dword) {l : List (Nat × Dword)} (hr : rowOf a = some r)
    (hl : l.length < 128) (h1 : 0x400 ≤ a) (h2 : a < 0x480) (h4 : a % 4 = 0) (h : s.Takes .spx1 a) :
    let t := busWrite .spx1 a 0xF v (dequeued l s)
    t.spx1.queue = l ∧ t.fld F.SPX1_WQ_FILL = l.length ∧
      t.reg a = (s.reg a &&& ~~~((v >>> 16).setWidth 16 &&& BitVec.ofNat 16 r.rw)) |||
        (v.setWidth 16 &&& ((v >>> 16).setWidth 16 &&& BitVec.ofNat 16 r.rw)) ∧
      s.regsKept [a, R.SPX1_WQ] t ∧ s.memoryKept t := by
  have hregs : s.regsKept [R.SPX1_WQ] (dequeued l s) := fun b hb => showWq_reg (List.ne_of_not_mem_cons hb)
  have ha : a ≠ R.SPX1_WQ := by unfold R.SPX1_WQ; omega
  have hport : s.portOnly (dequeued l s) := rfl
  obtain ⟨-, -, -, -, hscope⟩ := markerReg_plain h1 h2 h4
  obtain ⟨hreg, hkept, hmem, hspx⟩ := busWrite_marker v hr h1 h2 h4 (State.Takes.port hport hregs hscope h)
  rw [hregs a (by simpa using ha)] at hreg
  refine ⟨by rw [hspx]; rfl, ?_, hreg, fun b hb => ?_, State.memoryKept_trans ⟨rfl, fun _ _ => rfl⟩ hmem⟩
  · unfold State.fld
    rw [hkept F.SPX1_WQ_FILL.addr (by rw [List.mem_singleton]; exact Ne.symm ha)]
    exact (State.fld_setFld _ F.SPX1_WQ_FILL l.length (by decide)).trans (Nat.mod_eq_of_lt hl)
  · rw [hkept b (by simp_all), hregs b (by simp_all)]

/-! ### The select is released (R280) -/

theorem keepCut_fields (s : State) :
    (keepCut s).fld F.SPX1_LAST_ADDR_L_ADDR = s.spx1.lastAddr % 2 ^ 16 ∧
      (keepCut s).fld F.SPX1_LAST_ADDR_H_ADDR = s.spx1.lastAddr / 2 ^ 16 % 2 ^ 8 ∧
      (keepCut s).fld F.SPX1_LAST_DATA_L_DATA = s.spx1.lastData.toNat % 2 ^ 16 ∧
      (keepCut s).fld F.SPX1_LAST_DATA_H_DATA = s.spx1.lastData.toNat / 2 ^ 16 := by
  have hdata : s.spx1.lastData.toNat / 2 ^ 16 < 2 ^ 16 := by have := s.spx1.lastData.isLt; omega
  have hne : ∀ (u : State) (f g : Fld) (n : Nat), g.addr ≠ f.addr → (u.setFld f n).fld g = u.fld g := fun u f g n h => by
    unfold State.fld
    rw [State.reg_setFld_ne _ _ h]
  unfold keepCut
  dsimp only
  refine ⟨?_, ?_, ?_, ?_⟩
  · rw [hne _ _ _ _ (by decide), hne _ _ _ _ (by decide), hne _ _ _ _ (by decide)]
    exact State.fld_setFld _ _ _ (by decide)
  · rw [hne _ _ _ _ (by decide), hne _ _ _ _ (by decide)]
    exact State.fld_setFld _ _ _ (by decide)
  · rw [hne _ _ _ _ (by decide)]
    exact State.fld_setFld _ _ _ (by decide)
  · exact (State.fld_setFld _ _ _ (by decide)).trans (Nat.mod_eq_of_lt hdata)

/-- The port out of its frame. -/
def closed (s : State) : State := { s with spx1 := { s.spx1 with frame := 0, late := false } }

/-- A cut read: the flag, its event, and, where nothing stalls, LAST_ADDR and LAST_DATA. -/
theorem spxCut_settles (s : State) :
    let t := spxCut s
    s.memoryKept t ∧ t.flagged F.SPX1_STAT_RD_CUT ∧ t.reported = s.reported ++ [s.plainEvent 0x066 (s.spx1.addr - 4)] ∧
      (s.pwr.stalled = [] → t.fld F.SPX1_LAST_ADDR_L_ADDR = s.spx1.lastAddr % 2 ^ 16 ∧
        t.fld F.SPX1_LAST_ADDR_H_ADDR = s.spx1.lastAddr / 2 ^ 16 % 2 ^ 8 ∧
        t.fld F.SPX1_LAST_DATA_L_DATA = s.spx1.lastData.toNat % 2 ^ 16 ∧
        t.fld F.SPX1_LAST_DATA_H_DATA = s.spx1.lastData.toNat / 2 ^ 16) := by
  have hro := spxError_readOnly F.SPX1_STAT_RD_CUT (s.spx1.addr - 4) s
  have hflag := spxError_flagged F.SPX1_STAT_RD_CUT (s.spx1.addr - 4) s
  have hrep := spxError_reported F.SPX1_STAT_RD_CUT (s.spx1.addr - 4) s
  unfold spxCut
  dsimp only
  generalize spxError F.SPX1_STAT_RD_CUT (s.spx1.addr - 4) s = u at hro hflag hrep
  split
  · have hcut := keepCut_fields u
    rw [hro.spx1] at hcut
    exact ⟨State.memoryKept_trans hro.memoryKept ⟨rfl, fun _ _ => rfl⟩, hflag, hrep, fun _ => hcut⟩
  · next hst =>
    exact ⟨State.memoryKept_trans hro.memoryKept ⟨rfl, fun _ _ => rfl⟩, hflag, hrep, fun hnone => absurd (by rw [hnone]; rfl) hst⟩

theorem spxRelease_eq (bits : Nat) (s : State) : spxRelease bits s =
    closed (if (s.spxOut bits || s.spx1.late) = true then spxCut s
      else if (decide (s.spx1.frame = 2) && decide (bits % 32 ≠ 0) || decide (s.spx1.frame = 3) && decide (bits < 32)) = true then
        spxError F.SPX1_STAT_FRAME_ERR s.spx1.addr s
      else s) := rfl

theorem spxRelease_settles (s : State) (bits : Fin 33) :
    let t := spxRelease bits.val s
    t.spx1.frame = 0 ∧ t.spx1.late = false ∧ s.memoryKept t ∧
    (if s.spxOut bits = true ∨ s.spx1.late = true then
      t.flagged F.SPX1_STAT_RD_CUT ∧ t.reported = s.reported ++ [s.plainEvent 0x066 (s.spx1.addr - 4)] ∧
        (s.pwr.stalled = [] → t.fld F.SPX1_LAST_ADDR_L_ADDR = s.spx1.lastAddr % 2 ^ 16 ∧
          t.fld F.SPX1_LAST_ADDR_H_ADDR = s.spx1.lastAddr / 2 ^ 16 % 2 ^ 8 ∧
          t.fld F.SPX1_LAST_DATA_L_DATA = s.spx1.lastData.toNat % 2 ^ 16 ∧
          t.fld F.SPX1_LAST_DATA_H_DATA = s.spx1.lastData.toNat / 2 ^ 16)
     else if (s.spx1.frame = 2 ∧ bits.val % 32 ≠ 0) ∨ (s.spx1.frame = 3 ∧ bits.val < 32) then
      t.flagged F.SPX1_STAT_FRAME_ERR ∧ s.regsKept [] t ∧
        t.reported = s.reported ++ [s.plainEvent 0x066 s.spx1.addr]
     else t = { s with spx1 := t.spx1 }) := by
  intro t
  have hcloses : ∀ u : State, t = closed u → s.memoryKept u → t.spx1.frame = 0 ∧ t.spx1.late = false ∧ s.memoryKept t := by
    rintro u ht hmem
    rw [ht]
    exact ⟨rfl, rfl, State.memoryKept_trans hmem ⟨rfl, fun _ _ => rfl⟩⟩
  split
  · next hc =>
    have ht : t = closed (spxCut s) :=
      (spxRelease_eq _ s).trans (by rw [if_pos (by simpa only [Bool.or_eq_true] using hc)])
    obtain ⟨hmem, hflag, hrep, hlast⟩ := spxCut_settles s
    obtain ⟨hframe, hlate, hmem'⟩ := hcloses _ ht hmem
    refine ⟨hframe, hlate, hmem', ?_⟩
    rw [ht]
    exact ⟨hflag, hrep, hlast⟩
  · next hc =>
    have hcut : ¬(s.spxOut bits || s.spx1.late) = true := by simpa only [Bool.or_eq_true] using hc
    split
    · next he =>
      have ht : t = closed (spxError F.SPX1_STAT_FRAME_ERR s.spx1.addr s) :=
        (spxRelease_eq _ s).trans (by rw [if_neg hcut, if_pos (by
          simpa only [Bool.or_eq_true, Bool.and_eq_true, decide_eq_true_eq] using he)])
      have hro := spxError_readOnly F.SPX1_STAT_FRAME_ERR s.spx1.addr s
      obtain ⟨hframe, hlate, hmem'⟩ := hcloses _ ht hro.memoryKept
      refine ⟨hframe, hlate, hmem', ?_⟩
      rw [ht]
      exact ⟨spxError_flagged F.SPX1_STAT_FRAME_ERR s.spx1.addr s, hro.regsKept, spxError_reported F.SPX1_STAT_FRAME_ERR _ s⟩
    · next he =>
      have ht : t = closed s :=
        (spxRelease_eq _ s).trans (by rw [if_neg hcut, if_neg (by
          simpa only [Bool.or_eq_true, Bool.and_eq_true, decide_eq_true_eq] using he)])
      obtain ⟨hframe, hlate, hmem'⟩ := hcloses _ ht ⟨rfl, fun _ _ => rfl⟩
      refine ⟨hframe, hlate, hmem', ?_⟩
      rw [ht]
      rfl

/-! ### The idle timeout (R269) -/

theorem spxIdle_settles (s : State) (bits : Fin 32) :
    let t := spxIdle bits.val s
    if s.spx1.frame = 0 ∨ s.spx1.frame = 4 then t = s else
      t.spx1 = { s.spx1 with frame := 4, late := s.spxOut bits } ∧ t.flagged F.SPX1_STAT_INCOMPLETE ∧
      t.fld F.SPX1_STAT_INC_BITS = bits.val ∧ s.regsKept [F.SPX1_STAT_INC_BITS.addr] t ∧ s.memoryKept t := by
  intro t
  split
  · next h => exact if_pos (by simpa only [Bool.or_eq_true, decide_eq_true_eq] using h)
  · next h =>
    obtain ⟨u, hu⟩ : ∃ u, s.raise F.SPX1_STAT_INCOMPLETE = u := ⟨_, rfl⟩
    have hev : s.eventsOnly u := hu ▸ raise_eventsOnly s _
    have hflag : u.flagged F.SPX1_STAT_INCOMPLETE := hu ▸ raise_flagged s _
    have ht : t = { u.setFld F.SPX1_STAT_INC_BITS bits.val with spx1 := { u.spx1 with frame := 4, late := s.spxOut bits.val } } := by
      rw [← hu]
      exact if_neg (by simpa only [Bool.or_eq_true, decide_eq_true_eq] using h)
    rw [ht]
    refine ⟨?_, hflag, (State.fld_setFld u _ _ (by decide)).trans (Nat.mod_eq_of_lt bits.isLt), fun b hb => ?_, hev.answers.2.1⟩
    · rw [hev.1]
    · exact (State.reg_setFld_ne u _ (by simpa using hb)).trans (hev.reg b)

end Sys2Proof.Machine
end

section
/-! A READ frame of the maintenance port (R280, R282), and O52. -/

namespace Sys2Proof.Machine

/-! ### What a read of SPX1 leaves of its frame -/

/-- From `s` to `t` the frame stands, with its first address, the next one, and the queue. -/
structure State.frameKept (s t : State) : Prop where
  frame : t.spx1.frame = s.spx1.frame
  queue : t.spx1.queue = s.spx1.queue
  first : t.spx1.first = s.spx1.first
  addr : t.spx1.addr = s.spx1.addr

theorem State.frameKept_of_eq {s t : State} (h : t.spx1 = s.spx1) : s.frameKept t := ⟨by rw [h], by rw [h], by rw [h], by rw [h]⟩

theorem State.frameKept_trans {s t u : State} (h1 : s.frameKept t) (h2 : t.frameKept u) : s.frameKept u :=
  ⟨h2.frame.trans h1.frame, h2.queue.trans h1.queue, h2.first.trans h1.first, h2.addr.trans h1.addr⟩

theorem pushRead_frameKept (m : Master) (a : Nat) (v : Dword) (s : State) : s.frameKept (pushRead m a v s) := by
  unfold pushRead
  dsimp only
  split
  · exact State.frameKept_of_eq rfl
  · split <;> exact ⟨rfl, rfl, rfl, rfl⟩

theorem serveRead_frameKept (m : Master) (a : Nat) (s : State) : s.frameKept (serveRead m a s) := by
  unfold serveRead
  dsimp only
  refine State.frameKept_trans (State.frameKept_of_eq ?_) (pushRead_frameKept m a _ _)
  have hcount : (if !mapped a then s.count 0x8F 1 else s).spx1 = s.spx1 := by
    split
    · rw [(count_eventsOnly s 0x8F 1).1]
    · rfl
  generalize (if !mapped a then s.count 0x8F 1 else s) = u at hcount
  split
  · exact hcount
  · split
    · exact hcount
    · exact (readEffect_readOnly m a _ u).spx1.trans hcount

theorem rejectAccess_spx1 (m : Master) (write : Bool) (a : Nat) (s : State) : (rejectAccess m write a s).spx1 = s.spx1 := by
  have hzero : (if write then s else { s with reads := 0 :: s.reads }).spx1 = s.spx1 := by split <;> rfl
  unfold rejectAccess
  dsimp only
  generalize (if write then s else { s with reads := 0 :: s.reads }) = u at hzero
  rw [State.reportAccess_spx1, State.raise_spx1, hzero]

theorem access_read_frameKept (x : Stalled) (hx : x.write = false) (s : State) : s.frameKept (access x s) := by
  have hwake : (wakeCentral s).spx1 = s.spx1 := by
    unfold wakeCentral
    split <;> rfl
  unfold access
  dsimp only
  generalize wakeCentral s = u at hwake
  refine State.frameKept_trans (State.frameKept_of_eq hwake) ?_
  split
  · exact State.frameKept_of_eq rfl
  · split
    · exact State.frameKept_of_eq rfl
    · split
      · unfold serve
        rw [hx]
        exact serveRead_frameKept _ _ u
      · split
        · exact State.frameKept_of_eq (rejectAccess_spx1 _ _ _ u)
        · refine State.frameKept_of_eq ?_
          rw [(quarterWake_frame _ _).1]
          rfl

theorem busRead_frameKept (m : Master) (a : Nat) (s : State) : s.frameKept (busRead m a s) :=
  State.frameKept_trans (State.frameKept_of_eq (hostTlps_spx1 m false s)) (access_read_frameKept _ rfl _)

/-! ### One dword, and several (R282) -/

theorem spxReadOne_of_past {s : State} (h : s.spx1.addr / 0x10000 ≠ s.spx1.first / 0x10000) :
    spxReadOne s = spxNext (spxError F.SPX1_STAT_PAST_END s.spx1.addr { s with reads := 0 :: s.reads }) :=
  if_pos (by simpa [State.spxPast] using h)

theorem spxReadOne_of_in {s : State} (h : s.spx1.addr / 0x10000 = s.spx1.first / 0x10000) :
    spxReadOne s = spxNext (busRead .spx1 s.spx1.addr s) := if_neg (by simpa [State.spxPast] using h)

/-- A dword moves the frame's address on, and leaves the rest of the frame. -/
theorem spxReadOne_steps (s : State) : (spxReadOne s).spx1.frame = s.spx1.frame ∧ (spxReadOne s).spx1.queue = s.spx1.queue ∧
    (spxReadOne s).spx1.first = s.spx1.first ∧ (spxReadOne s).spx1.addr = s.spx1.addr + 4 := by
  have hnext : ∀ u : State, s.frameKept u → (spxNext u).spx1.frame = s.spx1.frame ∧ (spxNext u).spx1.queue = s.spx1.queue ∧
      (spxNext u).spx1.first = s.spx1.first ∧ (spxNext u).spx1.addr = s.spx1.addr + 4 :=
    fun u h => ⟨h.frame, h.queue, h.first, congrArg (· + 4) h.addr⟩
  by_cases h : s.spx1.addr / 0x10000 = s.spx1.first / 0x10000
  · rw [spxReadOne_of_in h]
    exact hnext _ (busRead_frameKept _ _ s)
  · rw [spxReadOne_of_past h]
    exact hnext _ (State.frameKept_of_eq (spxError_readOnly _ _ { s with reads := 0 :: s.reads }).spx1)

theorem repeat_spxReadOne_steps (n : Nat) (s : State) :
    let t := Nat.repeat spxReadOne n s
    t.spx1.frame = s.spx1.frame ∧ t.spx1.queue = s.spx1.queue ∧ t.spx1.first = s.spx1.first ∧ t.spx1.addr = s.spx1.addr + 4 * n := by
  induction n with
  | zero => exact ⟨rfl, rfl, rfl, rfl⟩
  | succ n ih =>
    obtain ⟨hframe, hqueue, hfirst, haddr⟩ := ih
    obtain ⟨hframe', hqueue', hfirst', haddr'⟩ := spxReadOne_steps (Nat.repeat spxReadOne n s)
    refine ⟨hframe'.trans hframe, hqueue'.trans hqueue, hfirst'.trans hfirst, haddr'.trans ?_⟩
    rw [haddr]
    omega

/-- A window's dword reaches SPX1, which notes it as the last one read. -/
theorem spxReadOne_window {s u : State} (hport : s.portOnly u) (hregs : s.regsKept [R.SPX1_WQ] u) (hcut : u.spx1.cut = false)
    (hin : u.spx1.addr / 0x10000 = u.spx1.first / 0x10000) (haddr : busAddr u.spx1.addr = u.spx1.addr)
    (hw : isWindow u.spx1.addr = true) (hnvm : u.spx1.addr < 0x5D000 ∨ 0x5E000 ≤ u.spx1.addr)
    (hserves : s.Serves .spx1 u.spx1.addr) : spxReadOne u = { u with
      reads := s.winGet u.spx1.addr :: u.reads,
      spx1 := { u.spx1 with addr := u.spx1.addr + 4, lastAddr := u.spx1.addr, lastData := s.winGet u.spx1.addr } } := by
  have hvalue : u.winRead u.spx1.addr = s.winGet u.spx1.addr := by
    unfold State.winRead
    rw [if_neg (by simp only [Bool.and_eq_true, decide_eq_true_eq]; omega), State.winGet, show u.win = s.win by rw [hport]]
    rfl
  rw [spxReadOne_of_in hin, busRead_window (State.Serves.port hport hregs hserves) haddr hw,
    hostTlps_of_ne_pcie (m := .spx1) false u nofun, hvalue]
  unfold pushRead
  rw [if_neg (by decide)]
  dsimp only
  rw [hcut, if_neg (by decide)]
  rfl

/-- What a READ frame of `k` windows' dwords from `a` leaves, begun in `u`. -/
structure State.windowsRead (s u : State) (a k : Nat) (t : State) : Prop where
  port : s.portOnly t
  regs : s.regsKept [R.SPX1_WQ] t
  first : t.spx1.first = a
  addr : t.spx1.addr = a + 4 * k
  cut : t.spx1.cut = false
  reads : t.reads = ((List.range k).map fun i => s.winGet (a + 4 * i)).reverse ++ u.reads
  last : 0 < k → t.spx1.lastAddr = a + 4 * k - 4 ∧ t.spx1.lastData = s.winGet (a + 4 * k - 4)

theorem repeat_spxReadOne_windows {s u : State} {a n : Nat} (h24 : a < 2 ^ 24) (h4 : a % 4 = 0)
    (hblock : a / 0x10000 = (a + 4 * n) / 0x10000)
    (hall : ∀ i, i < n → isWindow (a + 4 * i) = true ∧ (a + 4 * i < 0x5D000 ∨ 0x5E000 ≤ a + 4 * i) ∧ s.Serves .spx1 (a + 4 * i))
    (hu : s.windowsRead u a 0 u) (k : Nat) (hk : k ≤ n) : s.windowsRead u a k (Nat.repeat spxReadOne k u) := by
  induction k with
  | zero => exact hu
  | succ k ih =>
    have h := ih (by omega)
    obtain ⟨hw, hnvm, hserves⟩ := hall k hk
    show s.windowsRead u a (k + 1) (spxReadOne (Nat.repeat spxReadOne k u))
    generalize Nat.repeat spxReadOne k u = t at h
    obtain ⟨hport, hregs, hfirst, haddr, hcut, hreads, -⟩ := h
    have hone := spxReadOne_window hport hregs hcut (by rw [haddr, hfirst]; omega)
      (by rw [haddr]; exact busAddr_eq (by omega) (by omega)) (by rw [haddr]; exact hw) (by rw [haddr]; exact hnvm)
      (by rw [haddr]; exact hserves)
    rw [haddr] at hone
    rw [hone]
    refine ⟨?_, hregs, hfirst, rfl, hcut, ?_, fun _ => ⟨rfl, rfl⟩⟩
    · unfold State.portOnly at hport
      rw [hport]
      rfl
    · rw [List.range_succ, List.map_append, List.reverse_append]
      exact congrArg _ hreads

/-! ### The frame -/

theorem spxRead_of_good {cmd : Byte} {s : State} (hf : s.spx1.frame = 0) (hgood : spxBad cmd = false) (hrun : s.pstate = 0)
    (he : s.bit F.PWR_STAT_ENTERING = false) (hop : cmd.toNat / 64 = 0) (a n : Nat) :
    spxRead cmd a n s = Nat.repeat spxReadOne n (spxDrain (spxAddr a (spxToken (framed 1 s)))) := by
  unfold spxRead
  rw [if_neg (by simp only [Bool.or_eq_true, Bool.and_eq_true, decide_eq_true_eq]; omega), spxOpen_of_good hgood hrun he]
  exact if_neg fun h => h rfl

theorem spxDrain_of_empty {s : State} (h : s.spx1.queue = []) : spxDrain s = dequeued [] s := by
  unfold spxDrain
  rw [h]
  rfl

/-- With nothing queued, the frame up to its first dword. -/
def readBegun (a : Nat) (s : State) : State := dequeued [] (spxAddr a (spxToken (framed 1 s)))

theorem readBegun_settles {s : State} (a : Nat) (hq : s.spx1.queue = []) :
    let u := readBegun a s
    u = spxDrain (spxAddr a (spxToken (framed 1 s))) ∧
      u.spx1 = { s.spx1 with frame := 1, first := a % 2 ^ 24 / 4 * 4, addr := a % 2 ^ 24 / 4 * 4 } ∧ u.reads = s.reads ∧
      s.memoryKept u ∧ s.regsKept [R.SPX1_WQ] u ∧
      (s.fld F.SPX1_CFG_BUSY_PAT = 0xA5 → u.flagged F.SPX1_STAT_FRAME_ERR) ∧ (a % 4 ≠ 0 → u.flagged F.SPX1_STAT_ALIGN) := by
  have htoken := spxToken_readOnly (framed 1 s)
  have hflag : s.fld F.SPX1_CFG_BUSY_PAT = 0xA5 → (spxToken (framed 1 s)).flagged F.SPX1_STAT_FRAME_ERR := fun h => by
    rw [spxToken_of_pattern (s := framed 1 s) h]
    exact spxError_flagged _ _ _
  unfold readBegun
  generalize spxToken (framed 1 s) = v at htoken hflag
  obtain ⟨hspx, hreads, -, hregs, hmem, hgrows, halign, -⟩ := spxAddr_settles a v
  generalize spxAddr a v = w at *
  have hspx' : w.spx1 = { s.spx1 with frame := 1, first := a % 2 ^ 24 / 4 * 4, addr := a % 2 ^ 24 / 4 * 4 } := by
    rw [hspx, addressed, htoken.spx1]
    rfl
  have hempty : w.spx1.queue = [] := by rw [hspx']; exact hq
  refine ⟨(spxDrain_of_empty hempty).symm, ?_, hreads.trans htoken.reads,
    State.memoryKept_trans (State.memoryKept_trans htoken.memoryKept hmem) ⟨rfl, fun _ _ => rfl⟩, fun b hb => ?_,
    fun h => hgrows.flagged (hflag h), halign⟩
  · show { w.spx1 with queue := [] } = _
    rw [hspx', ← hq]
  · rw [show (dequeued [] w).reg b = w.reg b from showWq_reg (List.ne_of_not_mem_cons hb), hregs b (by simp)]
    exact htoken.regsKept b (by simp)

theorem spxRead_settles {cmd : Byte} {s : State} (hf : s.spx1.frame = 0) (hgood : spxBad cmd = false) (hrun : s.pstate = 0)
    (he : s.bit F.PWR_STAT_ENTERING = false) (hop : cmd.toNat / 64 = 0) (a n : Nat) :
    let t := spxRead cmd a n s
    let pattern := s.fld F.SPX1_CFG_BUSY_PAT = 0xA5
    (s.spx1.queue = [] → t.spx1.frame = 1 ∧ t.spx1.queue = [] ∧ t.spx1.first = a % 2 ^ 24 / 4 * 4 ∧
      t.spx1.addr = a % 2 ^ 24 / 4 * 4 + 4 * n) ∧
    (s.spx1.queue = [] → n = 0 → t.reads = s.reads ∧ s.memoryKept t ∧ s.regsKept [R.SPX1_WQ] t ∧
      (pattern → t.flagged F.SPX1_STAT_FRAME_ERR) ∧ (a % 4 ≠ 0 → t.flagged F.SPX1_STAT_ALIGN)) ∧
    (a < 2 ^ 24 → a % 4 = 0 → s.spx1.queue = [] → s.spx1.cut = false → ¬pattern →
      (∀ i, i < n → isWindow (a + 4 * i) = true ∧ (a + 4 * i < 0x5D000 ∨ 0x5E000 ≤ a + 4 * i) ∧
        s.Serves .spx1 (a + 4 * i)) → a / 0x10000 = (a + 4 * n) / 0x10000 →
      t.reads = ((List.range n).map fun i => s.winGet (a + 4 * i)).reverse ++ s.reads ∧
      (0 < n → t.spx1.lastAddr = a + 4 * n - 4 ∧ t.spx1.lastData = s.winGet (a + 4 * n - 4)) ∧
      s.regsKept [R.SPX1_WQ] t ∧ s.memoryKept t) ∧
    (s.spx1.queue = [] → a < 2 ^ 24 → a % 0x10000 = 0xFFFC → n = 2 → t.flagged F.SPX1_STAT_PAST_END ∧
      t.reads.head? = some 0) := by
  intro t pattern
  have ht : s.spx1.queue = [] → t = Nat.repeat spxReadOne n (readBegun a s) := fun hq => by
    rw [(readBegun_settles a hq).1]
    exact spxRead_of_good hf hgood hrun he hop a n
  refine ⟨fun hq => ?_, fun hq hn => ?_, fun h24 h4 hq hcut hpat hall hblock => ?_, fun hq h24 hend hn => ?_⟩
  · obtain ⟨-, hspx, -⟩ := readBegun_settles a hq
    obtain ⟨hframe, hqueue, hfirst, haddr⟩ := repeat_spxReadOne_steps n (readBegun a s)
    rw [ht hq, hframe, hqueue, hfirst, haddr, hspx]
    exact ⟨rfl, hq, rfl, rfl⟩
  · obtain ⟨-, -, hreads, hmem, hregs, hpat, halign⟩ := readBegun_settles a hq
    rw [ht hq, hn]
    exact ⟨hreads, hmem, hregs, hpat, halign⟩
  · have hbase : a % 2 ^ 24 / 4 * 4 = a := by omega
    obtain ⟨-, hspx, hreads, -, hregs, -⟩ := readBegun_settles a hq
    have hport : s.portOnly (readBegun a s) := by
      unfold readBegun
      rw [spxAddr_of_aligned h4, spxToken_of_not (s := framed 1 s) hpat]
      rfl
    rw [hbase] at hspx
    have hstart : s.windowsRead (readBegun a s) a 0 (readBegun a s) :=
      ⟨hport, hregs, by rw [hspx], by rw [hspx]; rfl, by rw [hspx]; exact hcut, rfl, fun h => absurd h (by decide)⟩
    obtain ⟨hport', hregs', -, -, -, hreads', hlast⟩ := repeat_spxReadOne_windows h24 h4 hblock hall hstart n (Nat.le_refl n)
    rw [ht hq]
    exact ⟨hreads'.trans (by rw [hreads]), hlast, hregs', by rw [hport'], fun b _ => by rw [State.winGet, hport']; rfl⟩
  · obtain ⟨-, hspx, -⟩ := readBegun_settles a hq
    obtain ⟨-, -, hfirst, haddr⟩ := spxReadOne_steps (readBegun a s)
    rw [ht hq, hn]
    show (spxReadOne (spxReadOne (readBegun a s))).flagged _ ∧ (spxReadOne (spxReadOne (readBegun a s))).reads.head? = _
    rw [spxReadOne_of_past (by rw [hfirst, haddr, hspx]; dsimp only; omega)]
    generalize spxReadOne (readBegun a s) = v
    refine ⟨spxError_flagged F.SPX1_STAT_PAST_END v.spx1.addr { v with reads := 0 :: v.reads }, ?_⟩
    show (spxError F.SPX1_STAT_PAST_END v.spx1.addr { v with reads := 0 :: v.reads }).reads.head? = _
    rw [(spxError_readOnly _ _ _).reads]
    rfl

/-! ### The statement -/

/-- Settles O52, command by command: a bad command byte first, then each frame, the queue, the release and the idle
timeout. -/
theorem maintenancePort : Obligations.MaintenancePort := by
  unfold Obligations.MaintenancePort
  intro s
  refine ⟨fun cmd a n vs extra => ⟨fun h => congrArg Host.Outcome.next (spxRead_of_other h),
      fun h => congrArg Host.Outcome.next (spxWrite_of_other h), fun h => congrArg Host.Outcome.next (spxStatus_of_other h),
      fun hf hbad => ⟨⟨_, rfl, fun hop => ?_⟩, ⟨_, rfl, fun hop => ?_⟩, ⟨_, rfl, fun hop => ?_⟩⟩⟩,
    fun cmd hf hgood hrun he => ⟨fun hop a n => ⟨_, rfl, spxRead_settles hf hgood hrun he hop a n⟩,
      fun hop a vs => ⟨_, rfl, spxWrite_settles hf hgood hrun he hop a vs⟩,
      fun hop extra => ⟨_, rfl, spxStatus_settles hf hgood hrun he hop extra⟩⟩,
    fun h => congrArg Host.Outcome.next (spxApply_of_idle h),
    fun a v l hq hst => ?_, fun bits => ⟨_, rfl, spxRelease_settles s bits⟩, fun bits => ⟨_, rfl, spxIdle_settles s bits⟩⟩
  · show s.spxIgnored (spxRead cmd a n s)
    rw [spxRead_of_bad ((spxBad_iff cmd).2 hbad) hf hop]
    exact spxOpen_bad_ignored ((spxBad_iff cmd).2 hbad) 1 s
  · show s.spxIgnored (spxWrite cmd a vs s)
    rw [spxWrite_of_bad ((spxBad_iff cmd).2 hbad) hf hop]
    exact spxOpen_bad_ignored ((spxBad_iff cmd).2 hbad) 2 s
  · show s.spxIgnored (spxStatus cmd extra s)
    rw [spxStatus_of_bad ((spxBad_iff cmd).2 hbad) hf hop]
    exact spxOpen_bad_ignored ((spxBad_iff cmd).2 hbad) 3 s
  · have hexec : exec .spx1WriteApply s = .next (busWrite .spx1 a 0xF v (dequeued l s)) :=
      congrArg Host.Outcome.next (spxApply_of_queued hq hst)
    exact ⟨hexec, _, hexec, fun r hr hl h1 h2 h4 h => dequeued_marker v hr hl h1 h2 h4 h⟩

end Sys2Proof.Machine
end

section
/-! The read of FE_SRC, refuted by a concrete state (O55). -/

namespace Sys2Proof.Machine

/-! ### VALID shown with nothing captured

A read of FE_SRC answers the register's own majority together with the reader's capture (R39, R367). O55 has VALID show
the capture alone, in every state; the upsets that its own clauses allow reach one in which it does not. -/

/-- After power-on, with VALID upset in two of FE_SRC's three copies. -/
def feSrcUpset : State := upset R.FLT_FE_SRC 2 0x8000 (upset R.FLT_FE_SRC 1 0x8000 State.reset)

/-- One command of the model leads there from reset. -/
theorem feSrcUpset_reached : exec (.votedFieldScrub [(R.FLT_FE_SRC, 1, 0x8000), (R.FLT_FE_SRC, 2, 0x8000)]) State.reset =
    .next feSrcUpset := rfl

theorem feSrcUpset_serves : feSrcUpset.Serves .pcie R.FLT_FE_SRC :=
  { up := by decide +kernel, clocked := by decide +kernel, awake := .inl (by decide +kernel), ahead := by decide +kernel,
    domain := fun q h => absurd h (by rw [show addrQuarter R.FLT_FE_SRC = none by decide +kernel]; exact nofun),
    region := by decide +kernel }

theorem feSrcUpset_shows_valid : (feSrcUpset.readValue .pcie R.FLT_FE_SRC 0x8000).getLsbD 15 = true := by decide +kernel

/-- Refutes O55: the host reads VALID as 1 while its copy of the first-error capture holds nothing. -/
theorem not_faultCollector : ¬ Obligations.FaultCollector := by
  intro h
  obtain ⟨-, -, -, -, -, -, -, -, readers, -⟩ := h feSrcUpset
  obtain ⟨t, -, -, hvalid, -⟩ := readers .pcie (by decide) feSrcUpset_serves (by decide +kernel)
  rw [feSrcUpset_shows_valid] at hvalid
  exact absurd hvalid (by decide +kernel)

end Sys2Proof.Machine
end

section
/-! What a quarter's work in flight leaves alone when it ends (R80, R166, R243, R284, R302), for O31. -/

namespace Sys2Proof.Machine

/-! ### What the end of a quarter's work leaves -/

/-- From `s` to `t` quarter q's work goes on or ends: the other quarters' sequencers, the power unit's state and RC bits
that are set stand, and q's own STAT; a sequencer with neither body nor stall changes in its latches alone. -/
structure State.works (q : Nat) (s t : State) : Prop where
  others : ∀ k, k ≠ q → t.q k = s.q k
  pwr : t.pwr = s.pwr
  grows : s.rcGrows t
  stat : t.reg (R.QSEQ_STAT q) = s.reg (R.QSEQ_STAT q)
  still : (s.q q).body = none → (s.q q).stall = none →
    t.q q = { s.q q with latch := (t.q q).latch, latchAt := (t.q q).latchAt } ∧ t.reg (R.QSEQ_DEFER q) = s.reg (R.QSEQ_DEFER q)

theorem State.works_refl (q : Nat) (s : State) : s.works q s := ⟨fun _ _ => rfl, rfl, s.rcGrows_refl, rfl, fun _ _ => ⟨rfl, rfl⟩⟩

theorem State.works_trans {q : Nat} {s t u : State} (h1 : s.works q t) (h2 : t.works q u) : s.works q u where
  others k hk := (h2.others k hk).trans (h1.others k hk)
  pwr := h2.pwr.trans h1.pwr
  grows := State.rcGrows_trans h1.grows h2.grows
  stat := h2.stat.trans h1.stat
  still hb hs := by
    obtain ⟨hq, hd⟩ := h1.still hb hs
    obtain ⟨hq', hd'⟩ := h2.still (by rw [hq]; exact hb) (by rw [hq]; exact hs)
    exact ⟨hq'.trans (by rw [hq]), hd'.trans hd⟩

theorem foldl_works {β : Type} {f : State → β → State} (q : Nat) (hf : ∀ (s : State) x, s.works q (f s x)) (l : List β) (s : State) :
    s.works q (l.foldl f s) :=
  List.foldlRecOn l f (s.works_refl q) fun t h x _ => State.works_trans h (hf t x)

theorem forAll_works {f : Nat → State → State} (q : Nat) (hf : ∀ (s : State) i, s.works q (f i s)) (l : List Nat) (s : State) :
    s.works q (forAll l f s) := foldl_works q (f := fun s i => f i s) hf l s

/-- The registers of quarter q's sequencer that `works` speaks of. -/
def ownReg (q a : Nat) : Prop := a = R.QSEQ_STAT q ∨ a = R.QSEQ_DEFER q

/-- From `s` to `t` no sequencer changes, nor q's STAT and DEFER, nor the power unit's state; RC bits that are set stand. -/
structure State.spares (q : Nat) (s t : State) : Prop where
  qs : t.qs = s.qs
  pwr : t.pwr = s.pwr
  grows : s.rcGrows t
  own : ∀ a, ownReg q a → t.reg a = s.reg a

theorem State.spares_refl (q : Nat) (s : State) : s.spares q s := ⟨rfl, rfl, s.rcGrows_refl, fun _ _ => rfl⟩

theorem State.spares_trans {q : Nat} {s t u : State} (h1 : s.spares q t) (h2 : t.spares q u) : s.spares q u :=
  ⟨h2.qs.trans h1.qs, h2.pwr.trans h1.pwr, State.rcGrows_trans h1.grows h2.grows, fun a ha => (h2.own a ha).trans (h1.own a ha)⟩

theorem State.spares.q {q : Nat} {s t : State} (h : s.spares q t) (k : Nat) : t.q k = s.q k := by
  rw [State.q, h.qs]
  rfl

theorem State.spares.works {q : Nat} {s t : State} (h : s.spares q t) : s.works q t where
  others k _ := h.q k
  pwr := h.pwr
  grows := h.grows
  stat := h.own _ (.inl rfl)
  still _ _ := ⟨by rw [h.q], h.own _ (.inr rfl)⟩

/-- A change of other parts of the state. -/
theorem spares_of_eq {q : Nat} {s t : State} (hqs : t.qs = s.qs) (hpwr : t.pwr = s.pwr) (hh : t.hostRc = s.hostRc)
    (hs : t.spx1Rc = s.spx1Rc) (hreg : ∀ a, ownReg q a → t.reg a = s.reg a) : s.spares q t :=
  ⟨hqs, hpwr, State.rcGrows_of_eq hh hs, hreg⟩

theorem spares_of_events {q : Nat} {s t : State} (h : s.eventsOnly t) (hg : s.rcGrows t) : s.spares q t :=
  ⟨by rw [h.1], by rw [h.1], hg, fun a _ => h.reg a⟩

section
variable {q : Nat} (s : State)

theorem setReg_spares {a : Nat} (v : Word) (h : ¬ownReg q a) : s.spares q (s.setReg a v) :=
  spares_of_eq rfl rfl rfl rfl fun _ hb => State.reg_setReg_ne s v fun hba => h (hba ▸ hb)

theorem setFld_spares {f : Fld} (n : Nat) (h : ¬ownReg q f.addr) : s.spares q (s.setFld f n) :=
  spares_of_eq rfl rfl rfl rfl fun _ hb => State.reg_setFld_ne s n fun hba => h (hba ▸ hb)

theorem setBit_spares {f : Fld} (b : Bool) (h : ¬ownReg q f.addr) : s.spares q (s.setBit f b) := setFld_spares s _ h

theorem setBitOf_spares {f : Fld} (i : Nat) (h : ¬ownReg q f.addr) : s.spares q (s.setBitOf f i) := setFld_spares s _ h

theorem raise_spares (f : Fld) : s.spares q (s.raise f) := spares_of_events (raise_eventsOnly s f) (raise_rcGrows s f)

theorem raiseMask_spares (a : Nat) (m : Word) : s.spares q (s.raiseMask a m) :=
  spares_of_events (raiseMask_eventsOnly s a m) (raiseMask_rcGrows s a m)

theorem count_spares (src n : Nat) : s.spares q (s.count src n) := spares_of_events (count_eventsOnly s src n) (count_rcGrows s src n)

theorem report_spares (src a : Nat) : s.spares q (s.report src a) := spares_of_eq rfl rfl rfl rfl fun _ _ => rfl

theorem setChan_spares (c : Nat) (x : Chan) : s.spares q (s.setChan c x) := spares_of_eq rfl rfl rfl rfl fun _ _ => rfl

theorem setPmu_spares (c : Nat) (x : Pmu) : s.spares q (s.setPmu c x) := spares_of_eq rfl rfl rfl rfl fun _ _ => rfl

theorem setR_spares (k : Nat) (x : QRes) : s.spares q (s.setR k x) := spares_of_eq rfl rfl rfl rfl fun _ _ => rfl

theorem setM_spares (k : Nat) (x : QMem) : s.spares q (s.setM k x) := spares_of_eq rfl rfl rfl rfl fun _ _ => rfl

/-- A choice between two ways that are both quiet. -/
theorem ite_spares {t u : State} {c : Prop} [Decidable c] (ht : s.spares q t) (hu : s.spares q u) : s.spares q (if c then t else u) := by
  split
  · exact ht
  · exact hu

theorem ite_works {t u : State} {c : Prop} [Decidable c] (ht : s.works q t) (hu : s.works q u) : s.works q (if c then t else u) := by
  split
  · exact ht
  · exact hu

end

theorem foldl_spares {β : Type} {f : State → β → State} (q : Nat) (hf : ∀ (s : State) x, s.spares q (f s x)) (l : List β) (s : State) :
    s.spares q (l.foldl f s) :=
  List.foldlRecOn l f (s.spares_refl q) fun t h x _ => State.spares_trans h (hf t x)

theorem forAll_spares {f : Nat → State → State} (q : Nat) (hf : ∀ (s : State) i, s.spares q (f i s)) (l : List Nat) (s : State) :
    s.spares q (forAll l f s) := foldl_spares q (f := fun s i => f i s) hf l s

/-! ### Registers beyond the sequencer's page -/

theorem ownReg_page {q a : Nat} (h : ownReg q a) : quarterBase q ≤ a ∧ a < quarterBase q + 0x1000 := by
  unfold ownReg R.QSEQ_STAT R.QSEQ_DEFER at h
  omega

theorem channelReg_not_own {c k q : Nat} (hk : k < 0x200) : ¬ownReg q (quarterBase (c / 64) + 0x8000 + c % 64 * 0x200 + k) := by
  intro h
  have hpage := ownReg_page h
  unfold quarterBase at hpage
  omega

theorem centralReg_not_own {a q : Nat} (ha : a < 0x100000) : ¬ownReg q a := by
  intro h
  have hpage := ownReg_page h
  unfold quarterBase at hpage
  omega

theorem resultReg_not_own {k q : Nat} (hk : k < 0x100) : ¬ownReg q (0x41000 + q * 0x100 + k) := by
  intro h
  have hpage := ownReg_page h
  unfold quarterBase at hpage
  omega

/-! ### Latches (R64) -/

theorem showFlags_spares (q : Nat) (s : State) : s.spares q (showFlags q s) :=
  setReg_spares s _ fun h => by unfold ownReg R.QSEQ_STAT R.QSEQ_DEFER R.QSEQ_FLAG at h; omega

/-- A change of quarter q's sequencer that, where it stands still, is one of its latches. -/
theorem setQ_works {q : Nat} {s : State} {x : QSeq} (h : (s.q q).body = none → (s.q q).stall = none →
    x = { s.q q with latch := x.latch, latchAt := x.latchAt }) : s.works q (s.setQ q x) where
  others _ hk := State.q_setQ_ne _ x hk
  pwr := rfl
  grows := State.rcGrows_of_eq rfl rfl
  stat := rfl
  still hb hs := ⟨by rw [State.q_setQ_same]; exact h hb hs, rfl⟩

theorem writeLatch_works (q trg : Nat) (b : Bool) (s : State) : s.works q (writeLatch q trg b s) := by
  unfold writeLatch
  exact State.works_trans (setQ_works fun _ _ => rfl) (showFlags_spares q _).works

theorem setDefer_keeps (q : Nat) (d : Option Nat) (s : State) : (setDefer q d s).qs = s.qs ∧ (setDefer q d s).pwr = s.pwr ∧
    s.rcGrows (setDefer q d s) ∧ ∀ a, a ≠ R.QSEQ_DEFER q → (setDefer q d s).reg a = s.reg a := by
  unfold setDefer
  split <;> exact ⟨rfl, rfl, State.rcGrows_of_eq rfl rfl, fun a ha => State.reg_setReg_ne s _ ha⟩

theorem stat_ne_defer (q : Nat) : R.QSEQ_STAT q ≠ R.QSEQ_DEFER q := by
  unfold R.QSEQ_STAT R.QSEQ_DEFER
  omega

/-- A latch may leave a deferred jump where a body runs. -/
theorem setDefer_works {q : Nat} {s : State} (d : Option Nat) (h : (s.q q).body ≠ none) : s.works q (setDefer q d s) := by
  obtain ⟨hqs, hpwr, hgrows, hreg⟩ := setDefer_keeps q d s
  exact ⟨fun k _ => by rw [State.q, hqs]; rfl, hpwr, hgrows, hreg _ (stat_ne_defer q), fun hb => absurd hb h⟩

theorem setLatch_works (q trg : Nat) (s : State) : s.works q (setLatch q trg s) := by
  unfold setLatch
  split
  · exact s.works_refl q
  · dsimp only
    split
    · next b hb =>
      split
      · have hlate : s.works q (s.addSat (F.QSEQ_LATE_LATE_CNT q) 1) :=
          (setFld_spares s _ fun h => by
            unfold ownReg R.QSEQ_STAT R.QSEQ_DEFER F.QSEQ_LATE_LATE_CNT R.QSEQ_LATE at h
            dsimp only at h
            omega).works
        have hcount := State.works_trans hlate (count_spares (q := q) _ (0x20 + q) 1).works
        have hbody : (((s.addSat (F.QSEQ_LATE_LATE_CNT q) 1).count (0x20 + q) 1).q q).body ≠ none := by
          rw [show ((s.addSat (F.QSEQ_LATE_LATE_CNT q) 1).count (0x20 + q) 1).q q = s.q q by
            rw [State.q, State.count_qs]; rfl, hb]
          nofun
        split
        · exact State.works_trans hcount (setDefer_works _ hbody)
        · exact State.works_trans hcount (setQ_works fun hnone => absurd hnone hbody)
      · exact writeLatch_works q trg true s
    · next hb =>
      refine State.works_trans (writeLatch_works q trg true s) (setQ_works fun _ hstall => ?_)
      have hsame : ((writeLatch q trg true s).q q).stall.map (stallOnLatch (writeLatch q trg true s).now trg) =
          ((writeLatch q trg true s).q q).stall := by rw [hstall]; rfl
      rw [hsame]

/-! ### Ports and time-interval units -/

theorem portReg_not_own {q k : Nat} (hk : k < 0x1000) : ¬ownReg q (portBase q + k) := by
  intro h
  have hpage := ownReg_page h
  unfold quarterBase portBase at hpage
  split at hpage <;> omega

theorem peAbort_works (q : Nat) (s : State) : s.works q (peAbort q s) := by
  have hport : ∀ (u : State) (x : Port), u.works q (u.setPort q x) := fun u x =>
    State.spares.works (s := u) (t := u.setPort q x) (spares_of_eq rfl rfl rfl rfl fun _ _ => rfl)
  have hlatch : ∀ u : State, u.works q (portLatch q 0x91 u) := fun u => ite_works u (setLatch_works q _ u) (u.works_refl q)
  unfold peAbort portAbort
  dsimp only
  split
  · exact s.works_refl q
  · split
    · exact hport s _
    · exact State.works_trans (State.works_trans (State.works_trans (hport s _)
        (setFld_spares _ _ (portReg_not_own (by decide))).works) (raiseMask_spares _ _ _).works) (hlatch _)

theorem tdcClose_spares (q u t flags : Nat) (rearm : Bool) (s : State) : s.spares q (tdcClose u t flags rearm s) := by
  unfold tdcClose
  dsimp only
  split
  · exact s.spares_refl q
  · exact spares_of_eq rfl rfl rfl rfl fun _ _ => rfl

theorem tdcAbortQuarter_spares (q : Nat) (s : State) : s.spares q (tdcAbortQuarter q s) :=
  forAll_spares q (f := fun k s => tdcAbort (4 * q + k) s) (fun u _ => tdcClose_spares q _ _ _ _ u) _ s

/-! ### Calibration slots (R302) -/

theorem setCal_spares (q : Nat) (s : State) (x : Cal) : s.spares q { s with cal := x } := spares_of_eq rfl rfl rfl rfl fun _ _ => rfl

theorem setCalCh_spares (q c : Nat) (x : CalCh) (s : State) : s.spares q (s.setCalCh c x) := spares_of_eq rfl rfl rfl rfl fun _ _ => rfl

theorem calRelease_spares (q : Nat) (s : State) : s.spares q (calRelease q s) :=
  forAll_spares q (f := fun i s =>
    let c := q * 64 + i
    if (s.chan c).calHeld then s.setChan c { s.chan c with calHeld := false } else s)
    (fun u _ => ite_spares u (setChan_spares u _ _) (u.spares_refl q)) _ s

theorem calPrbs_spares (q : Nat) (x : CalSlot) (j : Nat) (s : State) : s.spares q (calPrbs x j s) :=
  foldl_spares q (fun u c => setCalCh_spares q c _ u) _ s

theorem resWait_spares (q : Nat) (s : State) : s.spares q (resWait s) := by
  unfold resWait
  dsimp only
  refine State.spares_trans (setCal_spares q s _) (forAll_spares q (fun u a => ?_) _ _)
  have hcount := State.spares_trans (raise_spares (q := q) u F.LEDG_STAT_RES_WAIT) (count_spares _ 0xAA 1)
  exact ite_spares u (State.spares_trans hcount (raise_spares _ F.NVM_STAT_ARB_WAIT)) hcount

theorem showArb_spares (q : Nat) (s : State) : s.spares q (showArb s) :=
  State.spares_trans (State.spares_trans (setReg_spares s _ (centralReg_not_own (by decide)))
    (setFld_spares _ _ (centralReg_not_own (by decide)))) (setBit_spares _ _ (centralReg_not_own (by decide)))

theorem calSlotAbort_spares (q : Nat) (s : State) : s.spares q (calSlotAbort q s) := by
  have hchan : ∀ (u : State) (c : Nat), u.spares q (setCalStat c 4 ((((u.setChan c (u.chan c).cut).setBit (F.CH_DRV_CTRL_LOOP c) false)).setBit
      (F.CH_DRV_CTRL_CAL_ISO c) false)) := fun u c =>
    State.spares_trans (State.spares_trans (State.spares_trans (setChan_spares u _ _)
      (setBit_spares _ _ (channelReg_not_own (k := 0) (by decide)))) (setBit_spares _ _ (channelReg_not_own (k := 0) (by decide))))
      (setCalCh_spares q c _ _)
  unfold calSlotAbort
  split
  · exact calRelease_spares q s
  · next x _ =>
    refine State.spares_trans (State.spares_trans (calPrbs_spares q x ((s.now - x.start) / 8) s) (foldl_spares q hchan x.chans _)) ?_
    exact State.spares_trans (State.spares_trans (State.spares_trans (setCal_spares q _ _) (showArb_spares q _))
      (resWait_spares q _)) (calRelease_spares q _)

end Sys2Proof.Machine
end

section
/-! A quarter's results and measurements when its work ends (R163 to R166, R206, R209, R214), for O31. -/

namespace Sys2Proof.Machine

/-! ### Measurements (R164, R166) -/

theorem addWaiting_spares (q p : Nat) (r : Record) (s : State) : s.spares q (addWaiting p r s) :=
  ite_spares s (s.spares_refl q) (setR_spares s _ _)

theorem siteFail_works (q i goff n mask : Nat) (shared : Bool) (s : State) : s.works q (siteFail q i goff n mask shared s) := by
  unfold siteFail
  dsimp only
  split
  · exact s.works_refl q
  · next b hb =>
    refine State.works_trans (State.works_trans (setR_spares s _ _).works (setBitOf_spares (f := F.QRES_SITES_SITE_FAIL q) _ i
      (resultReg_not_own (k := 0x38) (by decide))).works) (setQ_works fun hnone => ?_)
    exact absurd (hb.symm.trans hnone) nofun

theorem failSite_works (q i : Nat) (s : State) : s.works q (failSite q i s) := by
  unfold failSite
  split
  · exact s.works_refl q
  · exact ite_works s (s.works_refl q) (ite_works s (siteFail_works q i _ _ _ _ s) (setR_spares s _ _).works)

theorem meanFree_spares (q : Nat) (s : State) (sum : Int) (n : Nat) : s.spares q (s.meanFree sum n).2 := by
  unfold State.meanFree
  split
  · exact spares_of_eq rfl rfl rfl rfl fun _ _ => rfl
  · split
    · exact s.spares_refl q
    · exact spares_of_eq rfl rfl rfl rfl fun _ _ => rfl

theorem pmuUnmerge_spares (q c : Nat) (s : State) : s.spares q (pmuUnmerge c s) := ite_spares s (s.spares_refl q) (setPmu_spares s _ _)

theorem pmuEmit_spares (q c t : Nat) (r : Int) (lim part abort : Bool) (x : Pmu) (s : State) :
    s.spares q (pmuEmit c t r lim part abort x s) := by
  unfold pmuEmit
  dsimp only
  refine ite_spares s (pmuUnmerge_spares q c s) (ite_spares s ?_ (ite_spares s ?_ (setPmu_spares s _ _)))
  · exact State.spares_trans (addWaiting_spares q _ _ s) (pmuUnmerge_spares q c _)
  · exact State.spares_trans (State.spares_trans (meanFree_spares q s _ _) (addWaiting_spares q _ _ _)) (pmuUnmerge_spares q c _)

/-- A result's registers are the channel's own. -/
theorem pmuFinish_works {q c : Nat} (hc : c / 64 = q) (t : Nat) (part abort : Bool) (s : State) :
    s.works q (pmuFinish c t part abort s) := by
  have flag : ∀ (u : State) (p : Bool) (f : Fld), u.works q (if p then u.raise f else u) := fun u p f =>
    (ite_spares u (raise_spares u f) (u.spares_refl q)).works
  have fails : ∀ u : State, u.works q (failSiteNow c u) := fun u => by
    unfold failSiteNow
    split
    · exact hc ▸ failSite_works (c / 64) _ u
    · exact u.works_refl q
  unfold pmuFinish
  dsimp only
  refine State.works_trans ?_ (pmuEmit_spares q c _ _ _ _ _ _ _).works
  refine State.works_trans ?_ (ite_works _ (State.works_trans (raise_spares _ _).works (fails _)) (State.works_refl q _))
  refine State.works_trans ?_ (ite_spares _ (State.spares_trans (raise_spares _ _) (report_spares _ _ _)) (State.spares_refl q _)).works
  refine State.works_trans (State.works_trans (State.works_trans ?_ (raise_spares _ _).works) (flag _ part _)) (flag _ abort _)
  refine State.works_trans (State.works_trans ?_ (setFld_spares _ _ (channelReg_not_own (k := 0x1A0) (by decide))).works)
    (setFld_spares _ _ (channelReg_not_own (k := 0x1A0) (by decide))).works
  refine State.works_trans (State.works_trans (State.works_trans ?_ (setReg_spares _ _ (channelReg_not_own (k := 0x194) (by decide))).works)
    (setFld_spares _ _ (channelReg_not_own (k := 0x198) (by decide))).works) (setReg_spares _ _ (channelReg_not_own (k := 0x19C) (by decide))).works
  exact State.works_trans (State.works_trans (meanFree_spares q s _ _).works (setPmu_spares _ _ _).works)
    (setBit_spares _ _ (channelReg_not_own (k := 0x190) (by decide))).works

theorem abortUnits_works (q : Nat) (s : State) : s.works q (abortUnits q s) := by
  have pmus : s.works q (forAll (List.range 64) (fun i s => pmuAbort (q * 64 + i) s) s) := by
    refine List.foldlRecOn (motive := fun t : State => s.works q t) _ _ (s.works_refl q) fun t ht i hi => State.works_trans ht ?_
    have hi' := List.mem_range.1 hi
    exact ite_works t (pmuFinish_works (by omega) _ _ _ t) (t.works_refl q)
  exact State.works_trans (State.works_trans (State.works_trans pmus (tdcAbortQuarter_spares q _).works) (peAbort_works q _))
    (calSlotAbort_spares q _).works

/-! ### Records (R206 to R214) -/


/-! ### Records (R206 to R217) -/

theorem showFill_spares (q : Nat) (s : State) : s.spares q (showFill q s) := by
  have hfill : s.spares q (s.setFld (F.QRES_FILL_FILL q) (s.r q).queue.length) :=
    setFld_spares s _ (resultReg_not_own (k := 0x28) (by decide))
  unfold showFill
  dsimp only
  split
  · exact State.spares_trans hfill (setFld_spares _ _ (resultReg_not_own (k := 0x2C) (by decide)))
  · exact hfill

theorem pushRecord_spares (q : Nat) (r : Record) (s : State) : s.spares q (pushRecord q r s) := by
  unfold pushRecord
  dsimp only
  refine ite_spares s (State.spares_trans (setR_spares s _ _) (raise_spares _ _)) ?_
  refine State.spares_trans ?_ (ite_spares _ (count_spares _ _ _) (State.spares_refl q _))
  refine State.spares_trans ?_ (ite_spares _ (count_spares _ _ _) (State.spares_refl q _))
  refine State.spares_trans ?_ (ite_spares _ (count_spares _ _ _) (State.spares_refl q _))
  exact State.spares_trans (setR_spares s _ _) (showFill_spares q _)

theorem pushWaiting_spares (q : Nat) (s : State) : s.spares q (pushWaiting q s) := by
  have pushes : ∀ (u : State) (l : List Record), u.spares q (l.foldl (fun s r => pushRecord q r s) u) := fun u l =>
    foldl_spares q (fun t r => pushRecord_spares q r t) l u
  exact State.spares_trans (State.spares_trans (State.spares_trans (setR_spares s _ _) (pushes _ _)) (pushes _ _)) (pushes _ _)

theorem pushPendingLoss_spares (q t : Nat) (s : State) : s.spares q (pushPendingLoss q t s) :=
  ite_spares s (s.spares_refl q) (State.spares_trans (setR_spares s _ _) (pushRecord_spares q _ _))

theorem binSites_spares (q : Nat) (m : BinMoment) (aborted : Bool) (goff t : Nat) (s : State) :
    s.spares q (binSites q m aborted goff t s) := by
  unfold binSites forAll
  refine List.foldlRecOn (motive := fun u : State => s.spares q u) _ _ (s.spares_refl q) fun u hu i hi => State.spares_trans hu ?_
  have hi' := List.mem_range.1 hi
  have hbin : ∀ (v : State) (f : Fld) (n : Nat), f.addr = R.QRES_SITE_BIN q i → v.spares q (v.setFld f n) := fun v f n hf =>
    setFld_spares v n (by
      rw [hf, show R.QRES_SITE_BIN q i = 0x41000 + q * 0x100 + (0x40 + i * 4) by unfold R.QRES_SITE_BIN; omega]
      exact resultReg_not_own (by omega))
  refine ite_spares u ?_ (u.spares_refl q)
  exact State.spares_trans (State.spares_trans (hbin u _ _ rfl) (hbin _ _ _ rfl)) (pushRecord_spares q _ _)

theorem ladderRefs_spares (q : Nat) (s : State) : s.spares q (ladderRefs q s) := setR_spares s _ _

theorem ladderEval_spares (q t : Nat) (s : State) : s.spares q (ladderEval q t s) := by
  have hlevel : ∀ (u : State) (n : Nat), u.spares q (u.setFld (F.QRES_LSTAT_LEVEL q) n) := fun u n =>
    setFld_spares u n (resultReg_not_own (k := 0x24) (by decide))
  unfold ladderEval
  dsimp only
  refine State.spares_trans ?_ (ite_spares _ (setR_spares _ _ _) (State.spares_refl q _))
  refine ite_spares s ?_ (ite_spares s (ite_spares s ?_ (setR_spares s _ _)) (setR_spares s _ _))
  · exact State.spares_trans (State.spares_trans (State.spares_trans (State.spares_trans (hlevel s _) (raise_spares _ _))
      (pushRecord_spares q _ _)) (ladderRefs_spares q _)) (setR_spares _ _ _)
  · exact State.spares_trans (State.spares_trans (State.spares_trans (State.spares_trans (hlevel s _) (raise_spares _ _))
      (setR_spares _ _ _)) (pushRecord_spares q _ _)) (ladderRefs_spares q _)

theorem boundaryEnd_spares (q t : Nat) {bins : State → State} (hbins : ∀ s : State, s.spares q (bins s)) (s : State) :
    s.spares q (boundaryEnd q t bins s) := by
  have hprio : ∀ u : State, u.spares q (if u.prioWaits q then u.count 0x95 1 else u) := fun u =>
    ite_spares u (count_spares u _ _) (u.spares_refl q)
  have hrecords : s.spares q (if s.qstate q = 9 then pushWaiting q s else bins (pushPendingLoss q t (pushWaiting q s))) :=
    ite_spares s (pushWaiting_spares q s)
      (State.spares_trans (State.spares_trans (pushWaiting_spares q s) (pushPendingLoss_spares q t _)) (hbins _))
  unfold boundaryEnd
  dsimp only
  generalize (if s.qstate q = 9 then pushWaiting q s else bins (pushPendingLoss q t (pushWaiting q s))) = u at hrecords
  refine State.spares_trans hrecords (ite_spares u (u.spares_refl q) ?_)
  have hcount := hprio u
  generalize (if u.prioWaits q = true then u.count 0x95 1 else u) = v at hcount
  exact State.spares_trans (State.spares_trans hcount (setR_spares v q { v.r q with ladAt := t + 1 }))
    (ite_spares _ (State.spares_refl q _) (ladderEval_spares q t _))

theorem summaries_spares (q : Nat) (b : Body) (goff t : Nat) (aborted : Bool) (s : State) :
    s.spares q (summaries q b goff t aborted s) := by
  unfold summaries
  exact forAll_spares q (fun u i => ite_spares u (pushRecord_spares q _ u) (u.spares_refl q)) _ s

theorem abortWaiting_spares (q : Nat) (s : State) : s.spares q (abortWaiting q s) := setR_spares s _ _

/-! ### Pins and fetches -/

theorem tagDisturbed_spares (q smask : Nat) (s : State) : s.spares q (tagDisturbed q smask s) := by
  unfold tagDisturbed
  exact forAll_spares q (fun u i => ite_spares u (u.spares_refl q) (setBitOf_spares (f := F.QRES_SITES_SITE_TDIST q) u i
    (resultReg_not_own (k := 0x38) (by decide)))) _ s

theorem clipEvents_spares (q i smask : Nat) (p : Played) (s : State) : s.spares q (clipEvents q i smask p s) := by
  have hclip : ¬ownReg q (R.QTS_CLIP_CNT q) := fun h => by
    have hpage := ownReg_page h
    unfold R.QTS_CLIP_CNT at hpage
    omega
  unfold clipEvents
  dsimp only
  refine ite_spares s (s.spares_refl q) ?_
  have hcount : s.spares q ((s.raise (F.QTS_STAT_EDGE_CLIP q)).addSat (F.QTS_CLIP_CNT_CLIP_CNT q) p.clips) :=
    State.spares_trans (raise_spares s _) (setFld_spares (f := F.QTS_CLIP_CNT_CLIP_CNT q) _ _ hclip)
  have hnco : ∀ u : State, u.spares q (if p.ncoClip then u.raise (F.QTS_STAT_NCO_CLIP q) else u) := fun u =>
    ite_spares u (raise_spares u _) (u.spares_refl q)
  have hreports := State.spares_trans (State.spares_trans hcount (hnco _)) (forAll_spares q
    (f := fun _ s => s.report (0x104 + 16 * q) 0) (fun u _ => report_spares u _ _) (List.range p.clips) _)
  split
  · exact State.spares_trans hreports (setBitOf_spares (f := F.QRES_SITES_SITE_TDIST q) _ _ (resultReg_not_own (k := 0x38) (by decide)))
  · exact State.spares_trans hreports (tagDisturbed_spares q smask _)

theorem parkPins_spares (q : Nat) (s : State) : s.spares q (parkPins q s) := by
  unfold parkPins forAll
  refine List.foldlRecOn (motive := fun u : State => s.spares q u) _ _ (s.spares_refl q) fun u hu i hi => State.spares_trans hu ?_
  have hi' := List.mem_range.1 hi
  have hq : (q * 64 + i) / 64 = q := by omega
  have hkept := ite_spares (q := q) (c := (u.chan (q * 64 + i)).kept.isSome = true) u
    (setChan_spares u (q * 64 + i) { u.chan (q * 64 + i) with kept := none }) (u.spares_refl q)
  refine State.spares_trans hkept ?_
  unfold parkPin
  dsimp only
  rw [hq]
  exact ite_spares _ (State.spares_refl q _) (State.spares_trans (setChan_spares _ _ _) (clipEvents_spares q _ _ _ _))

theorem discardJobs_spares (q : Nat) (gone : Nat → Nat → Bool) (s : State) : s.spares q (discardJobs q gone s) :=
  State.spares_trans (foldl_spares q (fun u _ => report_spares u _ _) _ s) (setM_spares _ _ _)

theorem txnStallEnd_spares (q t : Nat) (s : State) : s.spares q (txnStallEnd q t s) := by
  unfold txnStallEnd
  exact ite_spares s (spares_of_eq rfl rfl rfl rfl fun _ _ => rfl) (s.spares_refl q)

/-- A transaction unit's registers are its own. -/
theorem txnReg_not_own {q u k : Nat} (hk : k < 0x100) : ¬ownReg q (txnBase u + k) := by
  intro h
  have hpage := ownReg_page h
  unfold txnBase R.QTXN_CTRL quarterBase at hpage
  split at hpage <;> omega

theorem txnAbort_spares (q u : Nat) (s : State) : s.spares q (txnAbort u s) := by
  have hqueue : s.spares q (setTxnQueue u [] s) :=
    State.spares_trans (t := s.setTxn u { s.txn u with queue := [], sites := [] }) (spares_of_eq rfl rfl rfl rfl fun _ _ => rfl)
      (setReg_spares _ _ (txnReg_not_own (by decide)))
  unfold txnAbort
  exact ite_spares s (State.spares_trans (State.spares_trans hqueue (setReg_spares _ _ (txnReg_not_own (by decide)))) (raiseMask_spares _ _ _))
    (s.spares_refl q)

end Sys2Proof.Machine
end

section
/-! The sequencer's controls: LATCH_RESET, CNT_CLR, RELEASE, STOP and DISABLE (O31). -/

namespace Sys2Proof.Machine

/-! ### A command to QSEQ.CTRL (R82) -/

/-- From `s` to `u` a command of master m reaches its register: packets are counted and the write has its place in its MCLK
cycle; no register changes its value. -/
structure State.commanded (m : Master) (s u : State) : Prop where
  frame : u = { s.heard m true u with regs := u.regs, copyB := u.copyB, copyC := u.copyC }
  reg : ∀ a, u.reg a = s.reg a

section
variable {m : Master} {s u : State} (h : s.commanded m u)
include h

theorem State.commanded.events : s.eventsOnly { u with regs := s.regs, copyB := s.copyB, copyC := s.copyC, cycle := s.cycle } := by
  have hev := hostTlps_eventsOnly m true s
  rw [h.frame]
  refine ⟨?_, hev.2⟩
  unfold State.heard
  generalize hostTlps m true s = t at hev
  rw [hev.1]

theorem State.commanded.qs : u.qs = s.qs := by
  have heq := congrArg State.qs h.events.1
  exact heq

theorem State.commanded.q (k : Nat) : u.q k = s.q k := by
  rw [State.q, h.qs]
  rfl

theorem State.commanded.pwr : u.pwr = s.pwr := by
  have heq := congrArg State.pwr h.events.1
  exact heq

theorem State.commanded.now : u.now = s.now := by
  have heq := congrArg State.now h.events.1
  exact heq

theorem State.commanded.memory : s.memoryKept u := ⟨h.events.answers.2.1.1, h.events.2⟩

theorem State.commanded.fld (f : Fld) : u.fld f = s.fld f := by
  unfold State.fld
  rw [h.reg]

/-- A command that changes registers and sequencers alone. -/
theorem State.commanded.changes {t : State} (ht : t = { u with regs := t.regs, copyB := t.copyB, copyC := t.copyC, qs := t.qs }) :
    t = { s.heard m true t with regs := t.regs, copyB := t.copyB, copyC := t.copyC, qs := t.qs } := by
  have hcycle : t.cycle = u.cycle := by rw [ht]
  refine ht.trans ((congrArg (fun v : State => { v with regs := t.regs, copyB := t.copyB, copyC := t.copyC, qs := t.qs }) h.frame).trans ?_)
  unfold State.heard
  rw [hcycle]

end

/-- What the part has heard when a command to quarter q's CTRL acts. -/
def ctrlHeard (m : Master) (q : Nat) (n : Word) (s : State) : State :=
  Wr.put ⟨m, R.QSEQ_CTRL q, n, n, 65472, 63, granuleNext s.now⟩ (noteCycle m (R.QSEQ_CTRL q) (n &&& 65472) (hostTlps m true s))

theorem ctrlHeard_commanded {m : Master} {q : Nat} {n : Word} (hn : n &&& BitVec.ofNat 16 65472 = 0) (s : State) :
    s.commanded m (ctrlHeard m q n s) where
  frame := by
    unfold ctrlHeard
    rw [put_frame]
    rfl
  reg a := by
    unfold ctrlHeard
    rw [put_regsKept (⟨m, R.QSEQ_CTRL q, n, n, 65472, 63, granuleNext s.now⟩ : Wr) _ hn a (by simp)]
    exact (hostTlps_eventsOnly m true s).reg a

/-- A write of start bits alone is the command itself. -/
theorem busReg_qseqCtrl {m : Master} {q : Fin 16} {n : Word} {s : State} (h : s.Takes m (R.QSEQ_CTRL q.val))
    (hstart : n &&& n &&& BitVec.ofNat 16 63 = n) :
    busReg m (R.QSEQ_CTRL q.val) n n s = qCtrl q.val n.toNat (ctrlHeard m q.val n s) := by
  have hq := q.isLt
  have hrow := plainReg_row (plain_QSEQ_CTRL q)
  have ha : 0x100000 ≤ R.QSEQ_CTRL q.val := by
    unfold R.QSEQ_CTRL quarterBase
    omega
  rw [busReg_plain n n (plain_QSEQ_CTRL q) h, applyReg_quarter n n _ _ hrow ha]
  have hindex : (R.QSEQ_CTRL q.val - 0x100000) / 0x10000 = q.val := by
    unfold R.QSEQ_CTRL quarterBase
    omega
  have hoffset : R.QSEQ_CTRL q.val % 0x10000 = 0 := by
    unfold R.QSEQ_CTRL quarterBase
    omega
  unfold wrQuarter
  dsimp only
  rw [hindex, hoffset, if_pos (by decide)]
  unfold wrQseq Wr.start
  dsimp only
  rw [if_pos rfl, hstart]
  rfl

/-! ### LATCH_RESET, CNT_CLR, RELEASE -/

theorem clearLatches_settles (q : Fin 16) {m : Master} {s u : State} (h : s.commanded m u) :
    let t := clearLatches q.val u
    (t.q q).latch = 0 ∧ t.reg (R.QSEQ_FLAG q) = 0 ∧
      (t.q q).body = (s.q q).body ∧ (t.q q).stall = (s.q q).stall ∧
      s.regsKept [R.QSEQ_FLAG q] t ∧ (∀ k, k ≠ q.val → t.q k = s.q k) ∧
      t = { s.heard m true t with regs := t.regs, copyB := t.copyB, copyC := t.copyC, qs := t.qs } := by
  intro t
  have hsame : t.q q = { s.q q with latch := 0 } := by
    rw [← h.q q]
    exact State.q_setQ_same _ _ _
  refine ⟨by rw [hsame], ?_, by rw [hsame], by rw [hsame], fun a ha => ?_, fun k hk => ?_, ?_⟩
  · refine (State.reg_setReg_same _ _ _).trans ?_
    rw [State.q_setQ_same]
    simp
  · exact (State.reg_setReg_ne _ _ (by simpa using ha)).trans (h.reg a)
  · exact (State.q_setQ_ne _ _ hk).trans (h.q k)
  · exact h.changes rfl

theorem qCntClr_settles (q : Fin 16) {m : Master} {s u : State} (h : s.commanded m u) :
    let t := qCntClr q.val u
    t.reg (R.QSEQ_LATE q) = 0 ∧ t.reg (R.QSEQ_DEFER_OVR q) = 0 ∧
      s.regsKept [R.QSEQ_LATE q, R.QSEQ_DEFER_OVR q] t ∧
      t = { s.heard m true t with regs := t.regs, copyB := t.copyB, copyC := t.copyC } := by
  intro t
  have hne : R.QSEQ_LATE q.val ≠ R.QSEQ_DEFER_OVR q.val := by
    unfold R.QSEQ_LATE R.QSEQ_DEFER_OVR
    omega
  have hqs : t.qs = (s.heard m true t).qs := h.qs.trans (congrArg State.qs (hostTlps_eventsOnly m true s).1).symm
  refine ⟨?_, State.reg_setReg_same _ _ _, fun a ha => ?_, ?_⟩
  · exact (State.reg_setReg_ne _ _ hne).trans (State.reg_setReg_same _ _ _)
  · simp only [List.mem_cons, List.not_mem_nil, or_false, not_or] at ha
    exact ((State.reg_setReg_ne _ _ ha.2).trans (State.reg_setReg_ne _ _ ha.1)).trans (h.reg a)
  · refine (h.changes (t := t) rfl).trans ?_
    rw [hqs]

theorem qRelease_of_hold {q : Nat} {u : State} (h : u.qstate q = 5) : qRelease q u =
    u.setQ q { u.q q with stall := (u.q q).stall.map fun y =>
      if y.exit.isNone && y.before u.now then { y with exit := some (max y.welt (granuleAt u.now) + 32) } else y } := if_pos h

theorem qRelease_of_not {q : Nat} {u : State} (h : u.qstate q ≠ 5) : qRelease q u = u := if_neg h

theorem qRelease_settles (q : Fin 16) {m : Master} {s u : State} (h : s.commanded m u) :
    let t := qRelease q.val u
    s.regsKept [] t ∧ (∀ k, k ≠ q.val → t.q k = s.q k) ∧
      (s.qstate q ≠ 5 → t.qs = s.qs) ∧
      (s.qstate q = 5 → ∀ y, (s.q q).stall = some y → (t.q q).stall =
        some (if y.exit = none ∧ y.before s.now = true
          then { y with exit := some (max y.welt (granuleAt s.now) + 32) } else y)) ∧
      t = { s.heard m true t with regs := t.regs, copyB := t.copyB, copyC := t.copyC, qs := t.qs } := by
  intro t
  have hstate : u.qstate q.val = s.qstate q.val := h.fld _
  by_cases h5 : s.qstate q.val = 5
  · have ht : t = _ := qRelease_of_hold (hstate.trans h5)
    rw [ht]
    refine ⟨fun a _ => h.reg a, fun k hk => (State.q_setQ_ne _ _ hk).trans (h.q k), fun hn => absurd h5 hn, fun _ y hy => ?_, h.changes rfl⟩
    rw [State.q_setQ_same, h.q, hy, h.now]
    simp only [Option.map_some, Option.isNone_iff_eq_none, Bool.and_eq_true]
  · rw [show t = u from qRelease_of_not (hstate ▸ h5)]
    exact ⟨fun a _ => h.reg a, fun k _ => h.q k, fun _ => h.qs, fun hn => absurd hn h5, h.changes rfl⟩

/-! ### What the end of a quarter's work leaves -/

/-- From `s` to `t` quarter q's sequencer changes and no other, nor the power unit's state; RC bits that are set stand. -/
structure State.leaves (q : Nat) (s t : State) : Prop where
  others : ∀ k, k ≠ q → t.q k = s.q k
  pwr : t.pwr = s.pwr
  grows : s.rcGrows t

theorem State.leaves_trans {q : Nat} {s t u : State} (h1 : s.leaves q t) (h2 : t.leaves q u) : s.leaves q u :=
  ⟨fun k hk => (h2.others k hk).trans (h1.others k hk), h2.pwr.trans h1.pwr, State.rcGrows_trans h1.grows h2.grows⟩

theorem State.works.leaves {q : Nat} {s t : State} (h : s.works q t) : s.leaves q t := ⟨h.others, h.pwr, h.grows⟩

theorem State.spares.leaves {q : Nat} {s t : State} (h : s.spares q t) : s.leaves q t := h.works.leaves

theorem setQ_leaves (q : Nat) (s : State) (x : QSeq) : s.leaves q (s.setQ q x) :=
  ⟨fun _ hk => State.q_setQ_ne _ x hk, rfl, State.rcGrows_of_eq rfl rfl⟩

/-- A sequencer with nothing to go on with. -/
def emptySeq (x : QSeq) : QSeq :=
  { x with body := none, stall := none, startDue := none, first := none, stopReq := false, laceHeld := none, parkDue := none }

/-- The pins park, the deferred jump is dropped, and the sequencer has nothing to go on with. -/
def emptied (q t : Nat) (s : State) : State :=
  let u := parkPins q (markStop q t (setDefer q none s))
  u.setQ q (emptySeq (u.q q))

theorem emptied_settles (q t : Nat) (s : State) : s.leaves q (emptied q t s) ∧ (∃ x, (emptied q t s).q q = emptySeq x) ∧
    (emptied q t s).reg (R.QSEQ_DEFER q) = 0 := by
  obtain ⟨hqs, hpwr, hgrows, -⟩ := setDefer_keeps q none s
  have hdefer : s.leaves q (setDefer q none s) := ⟨fun k _ => by rw [State.q, hqs]; rfl, hpwr, hgrows⟩
  have hmark : s.leaves q (markStop q t (setDefer q none s)) := State.leaves_trans hdefer (setQ_leaves q _ _)
  have hpins := parkPins_spares q (markStop q t (setDefer q none s))
  refine ⟨State.leaves_trans (State.leaves_trans hmark hpins.leaves) (setQ_leaves q _ _), ⟨_, State.q_setQ_same _ _ _⟩, ?_⟩
  exact (hpins.own _ (.inr rfl)).trans (show (s.setReg (R.QSEQ_DEFER q) 0).reg (R.QSEQ_DEFER q) = 0 from State.reg_setReg_same s _ _)

/-- A state is entered: STAT shows it, and the events that go with it are set. -/
theorem setQstate_settles (q st : Nat) (s : State) (hst : st < 16) :
    let t := s.setQstate q st
    s.leaves q t ∧ t.qs = s.qs ∧ t.qstate q = st ∧ (∀ a, a ≠ R.QSEQ_STAT q → t.reg a = s.reg a) ∧
      (st = 9 → t.flagged (F.QSEQ_STAT_PARK_EVT q)) := by
  obtain ⟨u, hu⟩ : ∃ u, s.setFld (F.QSEQ_STAT_STATE q) st = u := ⟨_, rfl⟩
  have hset : s.leaves q u := hu ▸ ⟨fun _ _ => rfl, rfl, State.rcGrows_of_eq rfl rfl⟩
  have hqs : u.qs = s.qs := hu ▸ rfl
  have hstate : u.qstate q = st := hu ▸ (State.fld_setFld s (F.QSEQ_STAT_STATE q) st (show 0 + 4 ≤ 16 by decide)).trans (Nat.mod_eq_of_lt hst)
  have hreg : ∀ a, a ≠ R.QSEQ_STAT q → u.reg a = s.reg a := fun a ha => hu ▸ State.reg_setFld_ne s st ha
  have raised : ∀ f : Fld, (st = 9 → f = F.QSEQ_STAT_PARK_EVT q) → s.leaves q (u.raise f) ∧ (u.raise f).qs = s.qs ∧
      (u.raise f).qstate q = st ∧ (∀ a, a ≠ R.QSEQ_STAT q → (u.raise f).reg a = s.reg a) ∧
      (st = 9 → (u.raise f).flagged (F.QSEQ_STAT_PARK_EVT q)) := fun f hf => by
    have hev := raise_eventsOnly u f
    refine ⟨State.leaves_trans hset (raise_spares u f).leaves, by rw [hev.1, ← hqs], ?_, fun a ha => (hev.reg a).trans (hreg a ha), fun h9 => ?_⟩
    · exact (State.raise_acc_fld u f _).trans hstate
    · rw [hf h9]
      exact raise_flagged u _
  unfold State.setQstate
  dsimp only
  rw [hu]
  split
  · next h => exact raised _ fun h9 => absurd (h.symm.trans h9) (by decide)
  · split
    · next h => exact raised _ fun h9 => by simp [h9] at h
    · split
      · exact raised _ fun _ => rfl
      · next h9 => exact ⟨hset, hqs, hstate, hreg, fun h => absurd h h9⟩

theorem deferred_of_clear {q : Nat} {s : State} (h : s.reg (R.QSEQ_DEFER q) = 0) : s.deferred q = none := by
  unfold State.deferred State.bit State.fld
  rw [show (F.QSEQ_DEFER_PEND q).addr = R.QSEQ_DEFER q from rfl, h]
  exact if_neg (show ¬(fieldOf (0 : Word) 15 1 != 0) = true by decide)

/-- Quarter q in state `st` with nothing to go on with: what STOP and DISABLE leave. -/
structure State.ended (q st : Nat) (t : State) : Prop where
  state : t.qstate q = st
  seq : ∃ x, t.q q = emptySeq x
  defer : t.reg (R.QSEQ_DEFER q) = 0

theorem ended_of_emptied {q t st : Nat} {s v : State} (hst : st < 16) (h : (emptied q t s).spares q v) :
    (v.setQstate q st).ended q st ∧ s.leaves q (v.setQstate q st) := by
  obtain ⟨hleaves, ⟨x, hx⟩, hdefer⟩ := emptied_settles q t s
  obtain ⟨hset, hqs, hstate, hreg, -⟩ := setQstate_settles q st v hst
  refine ⟨⟨hstate, ⟨x, ?_⟩, ?_⟩, State.leaves_trans (State.leaves_trans hleaves h.leaves) hset⟩
  · rw [State.q, hqs, ← State.q, h.q, hx]
  · rw [hreg _ (Ne.symm (stat_ne_defer q)), h.own _ (.inr rfl), hdefer]

/-- STOP's end (R79). -/
theorem haltQuarter_settles (q t : Nat) (m : BinMoment) (goff : Nat) (aborted : Bool) (s : State) :
    (haltQuarter q t m goff aborted s).ended q 8 ∧ s.leaves q (haltQuarter q t m goff aborted s) := by
  obtain ⟨u, hu⟩ : ∃ u, txnStallEnd q t (boundaryEnd q t (binSites q m aborted goff t) s) = u := ⟨_, rfl⟩
  have hspares : s.spares q u := hu ▸ State.spares_trans (boundaryEnd_spares q t (binSites_spares q m aborted goff t) s)
    (txnStallEnd_spares q t _)
  have hend : haltQuarter q t m goff aborted s =
      (discardOthers q (((emptied q t u).q q).bodyNo + 1) 0x8000 (emptied q t u)).setQstate q 8 := by
    rw [← hu]
    rfl
  obtain ⟨hended, hleaves⟩ := ended_of_emptied (s := u) (t := t) (show 8 < 16 by decide)
    (discardJobs_spares q (fun g a => g = ((emptied q t u).q q).bodyNo + 1 && a ≠ 0x8000) (emptied q t u))
  rw [hend]
  exact ⟨hended, State.leaves_trans hspares.leaves hleaves⟩

/-- The end of a quarter's park (R80). -/
theorem parkAt_settles (q t goff : Nat) (aborted : Bool) (s : State) :
    (parkAt q t goff aborted s).ended q 9 ∧ s.leaves q (parkAt q t goff aborted s) ∧
      (parkAt q t goff aborted s).flagged (F.QSEQ_STAT_PARK_EVT q) := by
  obtain ⟨u, hu⟩ : ∃ u, boundaryEnd q t (binSites q .park aborted goff t) (abortUnits q s) = u := ⟨_, rfl⟩
  have hworks : s.works q u := hu ▸ State.works_trans (abortUnits_works q s)
    (boundaryEnd_spares q t (binSites_spares q .park aborted goff t) _).works
  have hend : parkAt q t goff aborted s = (txnAbort q (flushStream q (emptied q t u))).setQstate q 9 := by
    rw [← hu]
    rfl
  obtain ⟨hended, hleaves⟩ := ended_of_emptied (s := u) (t := t) (show 9 < 16 by decide)
    (State.spares_trans (discardJobs_spares q (fun _ _ => true) (emptied q t u)) (txnAbort_spares q q _))
  rw [hend]
  exact ⟨hended, State.leaves_trans hworks.leaves hleaves, (setQstate_settles q 9 _ (by decide)).2.2.2.2 rfl⟩

end Sys2Proof.Machine
end

section
/-! STOP and DISABLE, and O31. -/

namespace Sys2Proof.Machine

/-! ### A pending START is dropped (R335) -/

/-- From `s` to `t` no START of quarter q is pending any more: one that was is refused, and nothing else changes. -/
structure State.dropped (q : Nat) (s t : State) : Prop where
  pending : t.pwr.pendStart.contains q = false
  refused : s.pwr.pendStart.contains q = true → t.flagged (F.QSEQ_STAT_START_REFUSED q)
  qs : t.qs = s.qs
  now : t.now = s.now
  reg : ∀ a, t.reg a = s.reg a
  memory : s.memoryKept t

theorem dropPending_dropped (q : Nat) (s : State) : s.dropped q (dropPending q s) := by
  unfold dropPending
  split
  · obtain ⟨u, hu⟩ : ∃ u : State, { s with pwr := { s.pwr with pendStart := s.pwr.pendStart.filter (· ≠ q) } } = u := ⟨_, rfl⟩
    have hev := raise_eventsOnly u (F.QSEQ_STAT_START_REFUSED q)
    have hgone : u.pwr.pendStart.contains q = false := by
      rw [← hu]
      simp
    rw [hu]
    refine ⟨by rw [hev.1]; exact hgone, fun _ => raise_flagged u _, ?_, ?_, fun a => ?_, ?_, fun a ha => ?_⟩
    · rw [hev.1, ← hu]
    · rw [hev.1, ← hu]
    · rw [hev.reg, ← hu]
      rfl
    · rw [hev.1, ← hu]
    · rw [hev.2 a ha, ← hu]
      rfl
  · next h => exact ⟨by simpa using h, fun hc => absurd hc h, rfl, rfl, fun _ => rfl, rfl, fun _ _ => rfl⟩

theorem State.dropped.q {q : Nat} {s t : State} (h : s.dropped q t) (k : Nat) : t.q k = s.q k := by
  rw [State.q, h.qs]
  rfl

theorem State.dropped.qstate {q : Nat} {s t : State} (h : s.dropped q t) (k : Nat) : t.qstate k = s.qstate k := by
  unfold State.qstate State.fld
  rw [h.reg]

/-! ### STOP, by the state it meets (R79) -/

section
variable {q : Nat} {s : State}

theorem qStop_of_running (h : (dropPending q s).qstate q = 1) : qStop q s =
    setDefer q none ((dropPending q s).setQ q { (dropPending q s).q q with stopReq := true }) := by
  unfold qStop
  dsimp only
  rw [h]
  rfl

/-- The records of a held body that STOP ends. -/
def heldRecords (q : Nat) (s : State) : State :=
  match (s.q q).body with
  | some b => summaries q b (b.played - 1) s.now true (pushWaiting q s)
  | none => s

/-- The last granule offset that a held body has played. -/
def heldOffset (q : Nat) (s : State) : Nat :=
  match (s.q q).body with
  | some b => b.played - 1
  | none => 0

theorem qStop_of_held (h : (dropPending q s).qstate q = 7) : qStop q s =
    abortUnits q (haltQuarter q (granuleAt (heldRecords q (dropPending q s)).now) .stop (heldOffset q (dropPending q s))
      ((dropPending q s).q q).body.isSome (heldRecords q (dropPending q s))) := by
  unfold qStop heldRecords heldOffset
  generalize dropPending q s = u at h ⊢
  dsimp only
  rw [h]
  cases (u.q q).body with
  | none => rfl
  | some b => rfl

theorem qStop_of_starting (h : (dropPending q s).qstate q = 10) : qStop q s =
    ((dropPending q s).setQ q { (dropPending q s).q q with startDue := none, first := none, laceHeld := none }).setQstate q 8 := by
  unfold qStop
  dsimp only
  rw [h]
  rfl

theorem qStop_of_stalled (h1 : 2 ≤ (dropPending q s).qstate q) (h2 : (dropPending q s).qstate q ≤ 6) : qStop q s =
    haltQuarter q (granuleAt (dropPending q s).now) .stop ((dropPending q s).lastGoff q) false (dropPending q s) := by
  unfold qStop
  dsimp only
  split
  · omega
  · omega
  · omega
  · exact if_pos (by simp only [Bool.and_eq_true, decide_eq_true_eq]; exact ⟨h1, h2⟩)

theorem qStop_of_other (h : (dropPending q s).qstate q = 0 ∨ 8 ≤ (dropPending q s).qstate q) (h10 : (dropPending q s).qstate q ≠ 10) :
    qStop q s = if ((dropPending q s).q q).startDue.isSome then
      ((dropPending q s).setQ q { (dropPending q s).q q with startDue := none, first := none, laceHeld := none }).setQstate q 8
    else dropPending q s := by
  unfold qStop
  dsimp only
  split
  · omega
  · omega
  · omega
  · exact if_neg (by simp only [Bool.and_eq_true, decide_eq_true_eq]; omega)

end

theorem heldRecords_spares (q : Nat) (s : State) : s.spares q (heldRecords q s) := by
  unfold heldRecords
  split
  · exact State.spares_trans (pushWaiting_spares q s) (summaries_spares q _ _ _ _ _)
  · exact s.spares_refl q

/-- What ends with the quarter's work does not bring it back. -/
theorem State.ended.works {q st : Nat} {s t : State} (h : s.ended q st) (hw : s.works q t) : t.ended q st := by
  obtain ⟨hstate, ⟨x, hx⟩, hdefer⟩ := h
  obtain ⟨hq, hd⟩ := hw.still (by rw [hx]; rfl) (by rw [hx]; rfl)
  refine ⟨?_, ⟨{ x with latch := (t.q q).latch, latchAt := (t.q q).latchAt }, ?_⟩, hd.trans hdefer⟩
  · rw [← hstate]
    unfold State.qstate State.fld
    rw [show (F.QSEQ_STAT_STATE q).addr = R.QSEQ_STAT q from rfl, hw.stat]
  · rw [hq, hx]
    rfl

/-- A stalled or held quarter halts at once. -/
theorem qStop_ends {q : Nat} {s : State} (h1 : 2 ≤ (dropPending q s).qstate q) (h2 : (dropPending q s).qstate q ≤ 7) :
    (qStop q s).ended q 8 ∧ (dropPending q s).leaves q (qStop q s) := by
  by_cases h7 : (dropPending q s).qstate q = 7
  · have hhalt := haltQuarter_settles q (granuleAt (heldRecords q (dropPending q s)).now) .stop (heldOffset q (dropPending q s))
      ((dropPending q s).q q).body.isSome (heldRecords q (dropPending q s))
    rw [qStop_of_held h7]
    generalize haltQuarter q _ _ _ _ _ = u at hhalt ⊢
    obtain ⟨hended, hleaves⟩ := hhalt
    have hworks := abortUnits_works q u
    exact ⟨hended.works hworks, State.leaves_trans (State.leaves_trans (heldRecords_spares q _).leaves hleaves) hworks.leaves⟩
  · rw [qStop_of_stalled h1 (by omega)]
    exact haltQuarter_settles q _ .stop _ false _

/-- A START held or waiting is dropped, and the quarter halts. -/
theorem startDropped_settles (q : Nat) (s : State) :
    let t := (s.setQ q { s.q q with startDue := none, first := none, laceHeld := none }).setQstate q 8
    s.leaves q t ∧ t.qstate q = 8 ∧ (t.q q).startDue = none ∧ (t.q q).laceHeld = none := by
  intro t
  obtain ⟨hleaves, hqs, hstate, -, -⟩ := setQstate_settles q 8 (s.setQ q { s.q q with startDue := none, first := none, laceHeld := none })
    (by decide)
  have hq : t.q q = { s.q q with startDue := none, first := none, laceHeld := none } := by
    rw [State.q, hqs, ← State.q, State.q_setQ_same]
  exact ⟨State.leaves_trans (setQ_leaves q s _) hleaves, hstate, by rw [hq], by rw [hq]⟩

theorem qStop_leaves (q : Nat) (s : State) : (dropPending q s).leaves q (qStop q s) := by
  by_cases h1 : (dropPending q s).qstate q = 1
  · obtain ⟨hqs, hpwr, hgrows, -⟩ := setDefer_keeps q none ((dropPending q s).setQ q { (dropPending q s).q q with stopReq := true })
    rw [qStop_of_running h1]
    exact State.leaves_trans (setQ_leaves q _ _) ⟨fun k _ => by rw [State.q, hqs]; rfl, hpwr, hgrows⟩
  · by_cases h27 : 2 ≤ (dropPending q s).qstate q ∧ (dropPending q s).qstate q ≤ 7
    · exact (qStop_ends h27.1 h27.2).2
    · by_cases h10 : (dropPending q s).qstate q = 10
      · rw [qStop_of_starting h10]
        exact (startDropped_settles q _).1
      · rw [qStop_of_other (by omega) h10]
        split
        · exact (startDropped_settles q _).1
        · exact ⟨fun _ _ => rfl, rfl, State.rcGrows_refl _⟩

theorem qStop_settles (q : Fin 16) {m : Master} {s u : State} (h : s.commanded m u) :
    let t := qStop q.val u
    t.pwr.pendStart.contains q.val = false ∧
      (s.pwr.pendStart.contains q.val = true → t.flagged (F.QSEQ_STAT_START_REFUSED q)) ∧
      (∀ k, k ≠ q.val → t.q k = s.q k) ∧
      (s.qstate q = 1 → (t.q q).stopReq = true ∧ t.deferred q = none ∧ (t.q q).body = (s.q q).body ∧
        s.regsKept [R.QSEQ_DEFER q] t ∧ s.memoryKept t) ∧
      (2 ≤ s.qstate q ∧ s.qstate q ≤ 7 ∨ s.qstate q = 10 → t.qstate q = 8 ∧ (t.q q).body = none ∨ s.qstate q = 10 ∧
        t.qstate q = 8) ∧
      (2 ≤ s.qstate q → s.qstate q ≤ 7 → t.deferred q = none ∧ (t.q q).stall = none ∧ (t.q q).laceHeld = none ∧
        (t.q q).startDue = none) ∧
      (s.qstate q = 10 → (t.q q).startDue = none ∧ (t.q q).laceHeld = none) ∧
      (s.qstate q = 0 ∨ s.qstate q = 8 ∨ s.qstate q = 9 →
        ((s.q q).startDue = none → t.qs = s.qs ∧ s.regsKept [] t ∧ s.memoryKept t) ∧
        ((s.q q).startDue.isSome = true → t.qstate q = 8 ∧ (t.q q).startDue = none)) := by
  intro t
  have hdrop := dropPending_dropped q.val u
  have hleaves := qStop_leaves q.val u
  have hq : ∀ k, (dropPending q.val u).q k = s.q k := fun k => (hdrop.q k).trans (h.q k)
  have hstate : (dropPending q.val u).qstate q.val = s.qstate q.val := (hdrop.qstate _).trans (h.fld _)
  have hreg : ∀ a, (dropPending q.val u).reg a = s.reg a := fun a => (hdrop.reg a).trans (h.reg a)
  have hmem : s.memoryKept (dropPending q.val u) := State.memoryKept_trans h.memory hdrop.memory
  have hended : 2 ≤ s.qstate q.val → s.qstate q.val ≤ 7 → t.ended q.val 8 := fun h1 h2 =>
    (qStop_ends (hstate ▸ h1) (hstate ▸ h2)).1
  have hstarting : s.qstate q.val = 10 → t.qstate q.val = 8 ∧ (t.q q).startDue = none ∧ (t.q q).laceHeld = none := fun h10 => by
    rw [show t = _ from qStop_of_starting (hstate.trans h10)]
    exact (startDropped_settles q.val _).2
  refine ⟨by rw [hleaves.pwr]; exact hdrop.pending, fun hp => hleaves.grows.flagged (hdrop.refused (h.pwr ▸ hp)),
    fun k hk => (hleaves.others k hk).trans (hq k), fun h1 => ?_, fun hst => ?_, fun h1 h2 => ?_, fun h10 => (hstarting h10).2,
    fun hidle => ?_⟩
  · have ht : t = _ := qStop_of_running (hstate.trans h1)
    rw [ht]
    refine ⟨?_, deferred_of_clear (State.reg_setReg_same _ _ _), ?_, fun a ha => ?_, hmem⟩
    · rw [State.q, (setDefer_keeps _ _ _).1, ← State.q, State.q_setQ_same]
    · rw [State.q, (setDefer_keeps _ _ _).1, ← State.q, State.q_setQ_same, hq]
    · rw [(setDefer_keeps _ _ _).2.2.2 a (by simpa using ha)]
      exact hreg a
  · rcases hst with ⟨h1, h2⟩ | h10
    · obtain ⟨hst, ⟨x, hx⟩, -⟩ := hended h1 h2
      exact .inl ⟨hst, by rw [hx]; rfl⟩
    · exact .inr ⟨h10, (hstarting h10).1⟩
  · obtain ⟨-, ⟨x, hx⟩, hdefer⟩ := hended h1 h2
    exact ⟨deferred_of_clear hdefer, by rw [hx]; rfl, by rw [hx]; rfl, by rw [hx]; rfl⟩
  · have ht : t = _ := qStop_of_other (q := q.val) (s := u) (by rw [hstate]; omega) (by rw [hstate]; omega)
    refine ⟨fun hnone => ?_, fun hsome => ?_⟩
    · rw [ht, hq, hnone, if_neg (by decide)]
      exact ⟨hdrop.qs.trans h.qs, fun a _ => hreg a, hmem⟩
    · rw [ht, if_pos (by rw [hq]; exact hsome)]
      obtain ⟨-, hst, hdue, -⟩ := startDropped_settles q.val (dropPending q.val u)
      exact ⟨hst, hdue⟩

end Sys2Proof.Machine
end

section
/-! DISABLE, and O31. -/

namespace Sys2Proof.Machine

/-! ### A quarter loses its transaction (R44) -/

theorem statusReg_not_txn {a q : Nat} (ha : ownReg q a ∨ a = R.CLK_STAT) (u : Nat) : a ∉ [txnBase u + 8, txnBase u + 12] := by
  unfold ownReg R.QSEQ_STAT R.QSEQ_DEFER R.CLK_STAT quarterBase at ha
  unfold txnBase R.QTXN_CTRL quarterBase
  simp only [List.mem_cons, List.not_mem_nil, or_false, not_or]
  split <;> omega

/-- Afterwards unit u is neither open nor pending. -/
theorem txnAbort_settles (u : Nat) (s : State) :
    let t := txnAbort u s
    (txnState t u ≠ 1 ∧ txnState t u ≠ 2) ∧ t.now = s.now ∧ ∀ a, a ∉ [txnBase u + 8, txnBase u + 12] → t.reg a = s.reg a := by
  unfold txnAbort
  split
  · obtain ⟨hstate, -, -, -, hreg, -, hframe⟩ := queueThenState u 3 (txnOwner s u) [] s (by decide) (txnOwner_lt u s)
    generalize setTxnState u 3 (txnOwner s u) (setTxnQueue u [] s) = v at hstate hreg hframe ⊢
    have hev := raiseMask_eventsOnly v (txnBase u + 8) 0x400
    have h3 := (hev.txnState u).1.trans hstate
    refine ⟨⟨by rw [h3]; decide, by rw [h3]; decide⟩, ?_, fun a ha => (hev.reg a).trans (hreg a ha)⟩
    have h1 := congrArg State.now hev.1
    have h2 := congrArg State.now hframe.1
    exact h1.trans h2
  · next h =>
    simp only [Bool.or_eq_true, decide_eq_true_eq, not_or] at h
    exact ⟨h, rfl, fun _ _ => rfl⟩

/-! ### The granule in flight -/

theorem inFlight_congr {q : Nat} {s t : State} (hqs : t.qs = s.qs) (hnow : t.now = s.now)
    (hreg : ∀ a, ownReg q a ∨ a = R.CLK_STAT → t.reg a = s.reg a) : t.inFlight q = s.inFlight q := by
  have hq : t.q q = s.q q := by rw [State.q, hqs]; rfl
  have hstat := hreg (R.QSEQ_STAT q) (.inl (.inl rfl))
  have hclk := hreg R.CLK_STAT (.inr rfl)
  unfold State.inFlight State.heldAt State.patternClock State.core State.qstate State.bit State.fld
  rw [hq, hnow, show (F.QSEQ_STAT_STATE q).addr = R.QSEQ_STAT q from rfl, hstat, show F.CLK_STAT_CORE_ACT.addr = R.CLK_STAT from rfl,
    show F.CLK_STAT_PLL_LOCK.addr = R.CLK_STAT from rfl, show F.CLK_STAT_HOLD.addr = R.CLK_STAT from rfl, hclk]

theorem inFlight_running {q : Nat} {s : State} (h : s.inFlight q = true) : s.qstate q = 1 := by
  unfold State.inFlight at h
  split at h
  · simp only [Bool.and_eq_true, decide_eq_true_eq] at h
    exact h.1.1.1
  · cases h

/-! ### The park (R27, R80) -/

theorem parkAt_txn (q t goff : Nat) (aborted : Bool) (s : State) :
    txnState (parkAt q t goff aborted s) q ≠ 1 ∧ txnState (parkAt q t goff aborted s) q ≠ 2 := by
  obtain ⟨v, hend⟩ : ∃ v, parkAt q t goff aborted s = (txnAbort q v).setQstate q 9 := ⟨_, rfl⟩
  have hreg := (setQstate_settles q 9 (txnAbort q v) (by decide)).2.2.2.1 (txnBase q + 8) fun h =>
    statusReg_not_txn (q := q) (.inl (.inl rfl)) q (h ▸ List.mem_cons_self)
  rw [hend, (txnState_congr hreg).1]
  exact (txnAbort_settles q v).1

/-- A quarter that has parked: the state's end, its event, and no transaction. -/
structure State.parked (q : Nat) (s t : State) : Prop where
  ended : t.ended q 9
  leaves : s.leaves q t
  event : t.flagged (F.QSEQ_STAT_PARK_EVT q)
  txn : txnState t q ≠ 1 ∧ txnState t q ≠ 2

theorem parkAt_parked {q : Nat} {s u : State} (h : s.leaves q u) (t goff : Nat) (aborted : Bool) :
    s.parked q (parkAt q t goff aborted u) := by
  obtain ⟨hended, hleaves, hevent⟩ := parkAt_settles q t goff aborted u
  exact ⟨hended, State.leaves_trans h hleaves, hevent, parkAt_txn q t goff aborted u⟩

theorem parkNow_parked (q : Nat) (s : State) : s.parked q (parkNow q s) := by
  have hworks := (abortUnits_works q s).leaves
  unfold parkNow
  dsimp only
  generalize abortUnits q s = u at hworks ⊢
  cases (u.q q).body with
  | none => exact parkAt_parked hworks _ _ _
  | some b =>
    have hrecords := State.spares_trans (State.spares_trans (abortWaiting_spares q u) (pushWaiting_spares q _))
      (summaries_spares q b (b.played - 1) ((s.q q).parkDue.getD (granuleAt s.now)) true (pushWaiting q (abortWaiting q u)))
    exact parkAt_parked (State.leaves_trans hworks hrecords.leaves) _ _ _

section
variable {q : Nat} {s : State}

theorem parkQuarter_of_parked (h : (dropPending q s).qstate q = 9) : parkQuarter q s = dropPending q s := if_pos h

theorem parkQuarter_of_inFlight (h : (dropPending q s).inFlight q = true) : parkQuarter q s =
    (dropPending q s).setQ q { (dropPending q s).q q with
      parkDue := some (((dropPending q s).q q).parkDue.getD (granuleNext (dropPending q s).now)) } :=
  (if_neg (by rw [inFlight_running h]; decide)).trans (if_pos h)

theorem parkQuarter_of_idle (h9 : (dropPending q s).qstate q ≠ 9) (h : (dropPending q s).inFlight q = false) :
    parkQuarter q s = parkNow q (dropPending q s) := (if_neg h9).trans (if_neg (by rw [h]; decide))

end

theorem parkQuarter_leaves (q : Nat) (s : State) : (dropPending q s).leaves q (parkQuarter q s) := by
  by_cases h9 : (dropPending q s).qstate q = 9
  · rw [parkQuarter_of_parked h9]
    exact (State.spares_refl q _).leaves
  · cases h : (dropPending q s).inFlight q with
    | true =>
      rw [parkQuarter_of_inFlight h]
      exact setQ_leaves q _ _
    | false =>
      rw [parkQuarter_of_idle h9 h]
      exact (parkNow_parked q _).leaves

/-- A quarter whose transaction is over has none after it is told to park. -/
theorem parkQuarter_txn {q : Nat} {s : State} (h : txnState s q ≠ 1 ∧ txnState s q ≠ 2) :
    txnState (parkQuarter q s) q ≠ 1 ∧ txnState (parkQuarter q s) q ≠ 2 := by
  have hdrop : txnState (dropPending q s) q = txnState s q := (txnState_congr ((dropPending_dropped q s).reg _)).1
  by_cases h9 : (dropPending q s).qstate q = 9
  · rw [parkQuarter_of_parked h9, hdrop]
    exact h
  · cases hf : (dropPending q s).inFlight q with
    | true =>
      rw [parkQuarter_of_inFlight hf]
      exact hdrop ▸ h
    | false =>
      rw [parkQuarter_of_idle h9 hf]
      exact (parkNow_parked q _).txn

/-! ### DISABLE -/

/-- The transaction that DISABLE takes from a quarter in flight. -/
def disabledTxn (q : Nat) (s : State) : State := if s.stopped q then s else txnAbort q s

theorem disabledTxn_keeps (q : Nat) (s : State) : s.spares q (disabledTxn q s) ∧ (disabledTxn q s).now = s.now ∧
    ∀ a, ownReg q a ∨ a = R.CLK_STAT → (disabledTxn q s).reg a = s.reg a := by
  unfold disabledTxn
  split
  · exact ⟨s.spares_refl q, rfl, fun _ _ => rfl⟩
  · obtain ⟨-, hnow, hreg⟩ := txnAbort_settles q s
    exact ⟨txnAbort_spares q q s, hnow, fun a ha => hreg a (statusReg_not_txn ha q)⟩

theorem disabledTxn_over {q : Nat} {s : State} (h : s.stopped q = false) :
    txnState (disabledTxn q s) q ≠ 1 ∧ txnState (disabledTxn q s) q ≠ 2 := by
  unfold disabledTxn
  rw [if_neg (by rw [h]; decide)]
  exact (txnAbort_settles q s).1

theorem stopped_of_parked {q : Nat} {s : State} (h : s.qstate q = 9) : s.stopped q = true := by
  unfold State.stopped
  rw [h]
  decide

theorem qDisable_settles (q : Fin 16) {m : Master} {s u : State} (h : s.commanded m u) :
    let t := qDisable q.val u
    t.pwr.pendStart.contains q.val = false ∧ (∀ k, k ≠ q.val → t.q k = s.q k) ∧
      (s.stopped q = false → txnState t q ≠ 1 ∧ txnState t q ≠ 2) ∧
      (s.qstate q = 9 → t.qs = s.qs ∧ s.regsKept [] t ∧ s.memoryKept t) ∧
      (s.qstate q ≠ 9 → s.inFlight q = true → (t.q q).parkDue = some ((s.q q).parkDue.getD (granuleNext s.now)) ∧
        (t.q q).body = (s.q q).body ∧ t.qstate q = 1) ∧
      (s.qstate q ≠ 9 → s.inFlight q = false → t.qstate q = 9 ∧ (t.q q).body = none ∧ (t.q q).stall = none ∧
        t.deferred q = none ∧ t.flagged (F.QSEQ_STAT_PARK_EVT q)) := by
  intro t
  have hstate : u.qstate q.val = s.qstate q.val := h.fld _
  have hstopped : u.stopped q.val = s.stopped q.val := by unfold State.stopped; rw [hstate]
  obtain ⟨hspares, hnow, hreg⟩ := disabledTxn_keeps q.val u
  obtain ⟨v, hv⟩ : ∃ v, disabledTxn q.val u = v := ⟨_, rfl⟩
  have ht : t = parkQuarter q.val v := hv ▸ rfl
  have hover : s.stopped q.val = false → txnState v q.val ≠ 1 ∧ txnState v q.val ≠ 2 := fun hs =>
    hv ▸ disabledTxn_over (hstopped.trans hs)
  have hpark : s.qstate q.val = 9 → v = u := fun h9 => by
    rw [← hv, disabledTxn, if_pos (hstopped.trans (stopped_of_parked h9))]
  rw [hv] at hspares hnow hreg
  have hdrop := dropPending_dropped q.val v
  have hleaves := parkQuarter_leaves q.val v
  have hqs : (dropPending q.val v).qs = s.qs := hdrop.qs.trans (hspares.qs.trans h.qs)
  have hq : ∀ k, (dropPending q.val v).q k = s.q k := fun k => by rw [State.q, hqs]; rfl
  have hregs : ∀ a, ownReg q a ∨ a = R.CLK_STAT → (dropPending q.val v).reg a = s.reg a := fun a ha =>
    (hdrop.reg a).trans ((hreg a ha).trans (h.reg a))
  have hnow' : (dropPending q.val v).now = s.now := hdrop.now.trans (hnow.trans h.now)
  have hstate' : (dropPending q.val v).qstate q.val = s.qstate q.val := by
    unfold State.qstate State.fld
    rw [show (F.QSEQ_STAT_STATE q.val).addr = R.QSEQ_STAT q.val from rfl, hregs _ (.inl (.inl rfl))]
  have hflight : (dropPending q.val v).inFlight q.val = s.inFlight q.val := inFlight_congr hqs hnow' hregs
  rw [ht]
  refine ⟨by rw [hleaves.pwr]; exact hdrop.pending, fun k hk => (hleaves.others k hk).trans (hq k), fun hs => parkQuarter_txn (hover hs),
    fun h9 => ?_, fun h9 hf => ?_, fun h9 hf => ?_⟩
  · rw [parkQuarter_of_parked (hstate'.trans h9)]
    refine ⟨hqs, fun a _ => ?_, ?_⟩
    · rw [hdrop.reg, hpark h9, h.reg]
    · exact State.memoryKept_trans h.memory (hpark h9 ▸ hdrop.memory)
  · rw [parkQuarter_of_inFlight (hflight.trans hf), State.q_setQ_same, hq, hnow']
    exact ⟨rfl, rfl, hstate'.trans (inFlight_running hf)⟩
  · rw [parkQuarter_of_idle (fun hp => h9 (hstate' ▸ hp)) (hflight.trans hf)]
    obtain ⟨⟨hst, ⟨x, hx⟩, hdefer⟩, -, hevent, -⟩ := parkNow_parked q.val (dropPending q.val v)
    exact ⟨hst, by rw [hx]; rfl, by rw [hx]; rfl, deferred_of_clear hdefer, hevent⟩

/-! ### The five commands -/

/-- A command to CTRL that the fabric takes runs its start bits on what the part has heard. -/
theorem ctrlCommand {m : Master} {q : Fin 16} {n : Word} {s : State} (h : s.Takes m (R.QSEQ_CTRL q.val))
    (hstart : n &&& n &&& BitVec.ofNat 16 63 = n) (hset : n &&& BitVec.ofNat 16 65472 = 0) {P : State → Prop}
    (hp : ∀ u, s.commanded m u → P (qCtrl q.val n.toNat u)) :
    ∃ t, (.next (busReg m (R.QSEQ_CTRL q.val) n n s) : Answer) = .next t ∧ P t :=
  ⟨_, by rw [busReg_qseqCtrl h hstart], hp _ (ctrlHeard_commanded hset s)⟩

/-- Settles O31, each command by the rule of its start bit on what the part has heard. -/
theorem sequencerControls : Obligations.SequencerControls := by
  unfold Obligations.SequencerControls
  intro s m q h
  refine ⟨?_, ?_, ?_, ?_, ?_⟩
  · exact ctrlCommand h (n := 16) (by decide) (by decide) fun u hu => clearLatches_settles q hu
  · exact ctrlCommand h (n := 32) (by decide) (by decide) fun u hu => qCntClr_settles q hu
  · exact ctrlCommand h (n := 8) (by decide) (by decide) fun u hu => qRelease_settles q hu
  · exact ctrlCommand h (n := 2) (by decide) (by decide) fun u hu => qStop_settles q hu
  · exact ctrlCommand h (n := 4) (by decide) (by decide) fun u hu => qDisable_settles q hu

end Sys2Proof.Machine
end

section
/-! What a decision of a quarter's sequencer may change (R56, R60 to R69, R89, R99, R115). -/

namespace Sys2Proof.Machine

/-! ### Addresses -/

/-- The registers of quarter q's page that a word's own effects show: the stacks, the deferred jump, its overruns, FLAG. -/
def effectRegs (q : Nat) : List Nat :=
  [R.QSEQ_STACK q, R.QSEQ_LOOP_L q, R.QSEQ_LOOP_H q, R.QSEQ_DEFER q, R.QSEQ_DEFER_OVR q, R.QSEQ_FLAG q]

/-- The registers that a failed check of a successor shows. -/
def checkRegs (q : Nat) : List Nat :=
  [(F.QSEQ_FAULT_PC_FAULT_PC q).addr, R.QTS_ERR_TS q, (F.MEM_ERR_SEG_L_SEG_L q).addr, (F.MEM_ERR_SEG_H_SEG_H q).addr]

theorem decisionRegs_eq (q : Nat) : decisionRegs q = effectRegs q ++ checkRegs q := rfl

/-- What a word's own effects show is not what a failed check shows. -/
theorem effectReg_not_check {q a : Nat} (h : a ∈ effectRegs q) : a ∉ checkRegs q := by
  simp only [effectRegs, checkRegs, R.QSEQ_STACK, R.QSEQ_LOOP_L, R.QSEQ_LOOP_H, R.QSEQ_DEFER, R.QSEQ_DEFER_OVR, R.QSEQ_FLAG,
    R.QSEQ_FAULT_PC, R.QTS_ERR_TS, R.MEM_ERR_SEG_L, R.MEM_ERR_SEG_H, F.QSEQ_FAULT_PC_FAULT_PC, F.MEM_ERR_SEG_L_SEG_L,
    F.MEM_ERR_SEG_H_SEG_H, quarterBase, List.mem_cons, List.not_mem_nil, or_false, not_or] at h ⊢
  omega

theorem regsKept_refl (l : List Nat) (s : State) : s.regsKept l s := fun _ _ => rfl

theorem State.regsKept_trans {l : List Nat} {s t u : State} (h1 : s.regsKept l t) (h2 : t.regsKept l u) : s.regsKept l u :=
  fun a ha => (h2 a ha).trans (h1 a ha)

theorem State.regsKept_mono {l l' : List Nat} {s t : State} (h : s.regsKept l t) (hl : ∀ a ∈ l, a ∈ l') : s.regsKept l' t :=
  fun a ha => h a fun hm => ha (hl a hm)

theorem State.regsKept_of_regs {l : List Nat} {s t : State} (h : ∀ a, t.reg a = s.reg a) : s.regsKept l t := fun a _ => h a

/-! ### Frames -/

/-- What a decision of quarter q keeps (`State.decisionFrame`), and that RC bits that are set stand. -/
structure State.decisionKeeps (q : Nat) (s t : State) : Prop where
  regs : s.regsKept (decisionRegs q) t
  others : ∀ k, k ≠ q → t.q k = s.q k ∧ t.m k = s.m k
  reports : s.reported <+: t.reported
  frame : t = { s with regs := t.regs, copyB := t.copyB, copyC := t.copyC, qs := t.qs, qm := t.qm, reported := t.reported,
                       hostRc := t.hostRc, spx1Rc := t.spx1Rc, evcs := t.evcs, win := t.win, msgs := t.msgs }
  grows : s.rcGrows t

theorem State.decisionKeeps.decisionFrame {q : Nat} {s t : State} (h : s.decisionKeeps q t) : s.decisionFrame q t :=
  ⟨h.regs, h.others, (List.prefix_iff_eq_take.1 h.reports).symm, h.frame⟩

theorem State.decisionKeeps_trans {q : Nat} {s t u : State} (h1 : s.decisionKeeps q t) (h2 : t.decisionKeeps q u) :
    s.decisionKeeps q u where
  regs := State.regsKept_trans h1.regs h2.regs
  others k hk := ⟨(h2.others k hk).1.trans (h1.others k hk).1, (h2.others k hk).2.trans (h1.others k hk).2⟩
  reports := h1.reports.trans h2.reports
  frame := by
    refine h2.frame.trans ?_
    conv_lhs => rw [h1.frame]
  grows := State.rcGrows_trans h1.grows h2.grows

/-- From `s` to `t` a word of quarter q has its own effects, before a successor is selected: its stacks and latches, the
deferred jump, and the registers that show them. -/
structure State.prepares (q : Nat) (s t : State) : Prop where
  regs : s.regsKept (effectRegs q) t
  others : ∀ k, k ≠ q → t.q k = s.q k
  body : (t.q q).body = (s.q q).body
  frame : t = { s with regs := t.regs, copyB := t.copyB, copyC := t.copyC, qs := t.qs }

theorem State.prepares_refl (q : Nat) (s : State) : s.prepares q s := ⟨fun _ _ => rfl, fun _ _ => rfl, rfl, rfl⟩

theorem State.prepares_trans {q : Nat} {s t u : State} (h1 : s.prepares q t) (h2 : t.prepares q u) : s.prepares q u where
  regs := State.regsKept_trans h1.regs h2.regs
  others k hk := (h2.others k hk).trans (h1.others k hk)
  body := h2.body.trans h1.body
  frame := by
    refine h2.frame.trans ?_
    conv_lhs => rw [h1.frame]

section
variable {q : Nat} {s t : State} (h : s.prepares q t)
include h

theorem State.prepares.win : t.win = s.win := by rw [h.frame]

theorem State.prepares.memory : s.memoryKept t := ⟨by rw [h.frame], fun a _ => by rw [State.winGet, h.win]; rfl⟩

theorem State.prepares.keeps : s.decisionKeeps q t where
  regs := State.regsKept_mono h.regs fun a ha => List.mem_append_left _ ha
  others k hk := ⟨h.others k hk, by rw [h.frame]; rfl⟩
  reports := by rw [h.frame]
  frame := by
    refine h.frame.trans ?_
    conv_rhs => rw [h.frame]
  grows := by
    rw [h.frame]
    exact State.rcGrows_of_eq rfl rfl

theorem State.prepares.csWord (k a : Nat) : t.csWord k a = s.csWord k a := by
  unfold State.csWord State.winGet
  rw [h.win]

theorem State.prepares.plainWord {a : Nat} (hp : s.plainWord q a) : t.plainWord q a := by
  unfold State.plainWord
  rw [h.csWord]
  exact hp

end

/-! ### The effects of a word -/

theorem setQ_prepares {q : Nat} {s : State} {x : QSeq} (h : x.body = (s.q q).body) : s.prepares q (s.setQ q x) where
  regs _ _ := rfl
  others _ hk := State.q_setQ_ne s x hk
  body := by rw [State.q_setQ_same, h]
  frame := rfl

theorem setReg_prepares {q a : Nat} (s : State) (v : Word) (h : a ∈ effectRegs q) : s.prepares q (s.setReg a v) where
  regs _ hb := State.reg_setReg_ne s v fun hba => hb (hba ▸ h)
  others _ _ := rfl
  body := rfl
  frame := rfl

theorem addSat_prepares {q : Nat} {f : Fld} (s : State) (n : Nat) (h : f.addr ∈ effectRegs q) : s.prepares q (s.addSat f n) where
  regs _ hb := State.reg_addSat_ne s n fun hba => hb (hba ▸ h)
  others _ _ := rfl
  body := rfl
  frame := rfl

theorem setDefer_prepares (q : Nat) (d : Option Nat) (s : State) : s.prepares q (setDefer q d s) := by
  unfold setDefer
  split <;> exact setReg_prepares s _ (by simp [effectRegs])

theorem showStack_prepares (q : Nat) (s : State) : s.prepares q (showStack q s) := by
  unfold showStack
  exact State.prepares_trans (State.prepares_trans (setReg_prepares s _ (by simp [effectRegs]))
    (setReg_prepares _ _ (by simp [effectRegs]))) (setReg_prepares _ _ (by simp [effectRegs]))

theorem showFlags_prepares (q : Nat) (s : State) : s.prepares q (showFlags q s) :=
  setReg_prepares s _ (by simp [effectRegs])

theorem writeLatch_prepares (q trg : Nat) (b : Bool) (s : State) : s.prepares q (writeLatch q trg b s) := by
  unfold writeLatch
  refine State.prepares_trans (setQ_prepares ?_) (showFlags_prepares q _)
  rfl

/-! ### What they show -/

theorem showStack_q (q k : Nat) (s : State) : (showStack q s).q k = s.q k := rfl

theorem setDefer_q (q k : Nat) (d : Option Nat) (s : State) : (setDefer q d s).q k = s.q k := by
  rw [State.q, (setDefer_keeps q d s).1]
  rfl

theorem deferred_congr {q : Nat} {s t : State} (h : t.reg (R.QSEQ_DEFER q) = s.reg (R.QSEQ_DEFER q)) : t.deferred q = s.deferred q := by
  unfold State.deferred State.bit State.fld
  rw [show (F.QSEQ_DEFER_PEND q).addr = R.QSEQ_DEFER q from rfl, show (F.QSEQ_DEFER_TGT q).addr = R.QSEQ_DEFER q from rfl, h]

theorem deferred_setDefer_none (q : Nat) (s : State) : (setDefer q none s).deferred q = none :=
  deferred_of_clear (State.reg_setReg_same s _ _)

theorem deferred_setDefer_some {q a : Nat} (s : State) (h : a < 2 ^ 14) : (setDefer q (some a) s).deferred q = some a := by
  have hreg : (setDefer q (some a) s).reg (R.QSEQ_DEFER q) = BitVec.ofNat 16 (0x8000 + a) := State.reg_setReg_same s _ _
  have hval : (BitVec.ofNat 16 (0x8000 + a)).toNat = 0x8000 + a := by
    rw [BitVec.toNat_ofNat]
    omega
  unfold State.deferred State.bit State.fld
  rw [show (F.QSEQ_DEFER_PEND q).addr = R.QSEQ_DEFER q from rfl, show (F.QSEQ_DEFER_TGT q).addr = R.QSEQ_DEFER q from rfl, hreg]
  unfold fieldOf
  rw [hval, show (F.QSEQ_DEFER_PEND q).lo = 15 from rfl, show (F.QSEQ_DEFER_PEND q).w = 1 from rfl,
    show (F.QSEQ_DEFER_TGT q).lo = 0 from rfl, show (F.QSEQ_DEFER_TGT q).w = 14 from rfl]
  have hpend : (0x8000 + a) / 2 ^ 15 % 2 ^ 1 = 1 := by omega
  have htgt : (0x8000 + a) / 2 ^ 0 % 2 ^ 14 = a := by omega
  rw [hpend, htgt]
  rfl

theorem bitsAt_lt (v lo w : Nat) : bitsAt v lo w < 2 ^ w := Nat.mod_lt _ (Nat.two_pow_pos w)

theorem mwTgt_lt (w : Micro) : mwTgt w < 2 ^ 14 := bitsAt_lt _ _ _

theorem mwTrg_lt (w : Micro) : mwTrg w < 2 ^ 8 := bitsAt_lt _ _ _

theorem deferred_le {q a : Nat} {s : State} (h : s.deferred q = some a) : a ≤ 0x3FFF := by
  unfold State.deferred at h
  split at h
  · obtain rfl := Option.some.inj h
    exact Nat.le_of_lt_succ (Nat.mod_lt _ (Nat.two_pow_pos 14))
  · cases h

/-- What a write of a latch does to the sequencer. -/
theorem writeLatch_q (q trg : Nat) (b : Bool) (s : State) : (writeLatch q trg b s).q q =
    { s.q q with latch := ((writeLatch q trg b s).q q).latch, latchAt := ((writeLatch q trg b s).q q).latchAt } := by
  unfold writeLatch showFlags
  dsimp only
  rw [State.setReg_acc_q, State.q_setQ_same]

theorem writeLatch_latch (q trg : Nat) (b : Bool) (s : State) (j : Nat) (hj : j < 256) :
    ((writeLatch q trg b s).q q).latch.getLsbD j = if j = trg then b else (s.q q).latch.getLsbD j := by
  unfold writeLatch showFlags
  dsimp only
  rw [State.setReg_acc_q, State.q_setQ_same]
  have hmask : (BitVec.ofNat 256 (2 ^ trg)).getLsbD j = decide (j = trg) := by
    rw [BitVec.getLsbD_ofNat, Nat.testBit_two_pow, decide_eq_true hj, Bool.true_and]
    exact decide_eq_decide.2 eq_comm
  cases b
  · simp only [Bool.false_eq_true, if_false, BitVec.getLsbD_and, BitVec.getLsbD_not, hmask, hj, decide_true, Bool.true_and]
    by_cases h : j = trg <;> simp [h]
  · simp only [if_true, BitVec.getLsbD_or, hmask]
    by_cases h : j = trg <;> simp [h]

end Sys2Proof.Machine
end

section
/-! The successor's selection: fetch, checks, and the decision put in place (R56, R58, R60, R89, R99, R115). -/

namespace Sys2Proof.Machine

/-! ### What fetching and checking a successor may change -/

/-- From `s` to `t` quarter q's successor is fetched and checked: a corrected word is written back, faults are shown and
reported; of the sequencer itself only the hold of ERR_TS changes. -/
structure State.checks (q : Nat) (s t : State) : Prop where
  regs : s.regsKept (checkRegs q) t
  others : ∀ k, k ≠ q → t.q k = s.q k
  seq : t.q q = { s.q q with tsHeld := (t.q q).tsHeld }
  reports : s.reported <+: t.reported
  frame : t = { s with regs := t.regs, copyB := t.copyB, copyC := t.copyC, qs := t.qs, reported := t.reported,
                       hostRc := t.hostRc, spx1Rc := t.spx1Rc, evcs := t.evcs, win := t.win, msgs := t.msgs }
  grows : s.rcGrows t

theorem State.checks_refl (q : Nat) (s : State) : s.checks q s :=
  ⟨fun _ _ => rfl, fun _ _ => rfl, rfl, List.prefix_refl _, rfl, s.rcGrows_refl⟩

theorem State.checks_trans {q : Nat} {s t u : State} (h1 : s.checks q t) (h2 : t.checks q u) : s.checks q u where
  regs := State.regsKept_trans h1.regs h2.regs
  others k hk := (h2.others k hk).trans (h1.others k hk)
  seq := h2.seq.trans (by rw [h1.seq])
  reports := h1.reports.trans h2.reports
  frame := by
    refine h2.frame.trans ?_
    conv_lhs => rw [h1.frame]
  grows := State.rcGrows_trans h1.grows h2.grows

theorem State.checks.keeps {q : Nat} {s t : State} (h : s.checks q t) : s.decisionKeeps q t where
  regs := State.regsKept_mono h.regs fun a ha => List.mem_append_right (effectRegs q) ha
  others k hk := ⟨h.others k hk, by rw [h.frame]; rfl⟩
  reports := h.reports
  frame := by
    refine h.frame.trans ?_
    conv_rhs => rw [h.frame]
  grows := h.grows

theorem State.eventsOnly.checks {s t : State} (h : s.eventsOnly t) (hg : s.rcGrows t) (q : Nat) : s.checks q t where
  regs a _ := h.reg a
  others k _ := by rw [h.1]; rfl
  seq := by rw [h.1]; rfl
  reports := by rw [h.1]
  frame := by
    refine h.1.trans ?_
    conv_rhs => rw [h.1]
  grows := hg

section
variable {q : Nat} (s : State)

theorem raise_checks (f : Fld) : s.checks q (s.raise f) := (raise_eventsOnly s f).checks (raise_rcGrows s f) q

theorem reports_checks (l : List FaultEvent) : s.checks q { s with reported := s.reported ++ l } :=
  ⟨fun _ _ => rfl, fun _ _ => rfl, rfl, List.prefix_append _ _, rfl, State.rcGrows_of_eq rfl rfl⟩

theorem setFld_checks {f : Fld} (n : Nat) (h : f.addr ∈ checkRegs q) : s.checks q (s.setFld f n) :=
  ⟨fun _ hb => State.reg_setFld_ne s n fun hba => hb (hba ▸ h), fun _ _ => rfl, rfl, List.prefix_refl _, rfl, State.rcGrows_of_eq rfl rfl⟩

theorem setReg_checks {a : Nat} (v : Word) (h : a ∈ checkRegs q) : s.checks q (s.setReg a v) :=
  ⟨fun _ hb => State.reg_setReg_ne s v fun hba => hb (hba ▸ h), fun _ _ => rfl, rfl, List.prefix_refl _, rfl, State.rcGrows_of_eq rfl rfl⟩

theorem setTsHeld_checks {x : QSeq} (h : x = { s.q q with tsHeld := x.tsHeld }) : s.checks q (s.setQ q x) where
  regs _ _ := rfl
  others _ hk := State.q_setQ_ne s _ hk
  seq := by rw [State.q_setQ_same]; exact h
  reports := List.prefix_refl _
  frame := rfl
  grows := State.rcGrows_of_eq rfl rfl

theorem winSet_checks (a : Nat) (v : Dword) : s.checks q (s.winSet a v) :=
  ⟨fun _ _ => rfl, fun _ _ => rfl, rfl, List.prefix_refl _, rfl, State.rcGrows_of_eq rfl rfl⟩

theorem setCsWord_checks (a : Nat) (w : Micro) : s.checks q (s.setCsWord q a w) :=
  List.foldlRecOn (motive := fun t : State => s.checks q t) _ _ (s.checks_refl q) fun t h _ _ => State.checks_trans h (winSet_checks t _ _)

end

/-- The event that a fault of quarter q's word at `pc` reports (R68, R69). -/
def seqEvent (q pc : Nat) (atWelt : Bool) (s : State) : FaultEvent :=
  { src := 0x100 + 16 * q, cls := 1, addr := pc, time := s.now, quarter := q, atWelt := atWelt }

theorem seqFault_checks (q : Nat) (f : Fld) (pc : Nat) (atWelt : Bool) (s : State) : s.checks q (seqFault q f pc atWelt s) := by
  unfold seqFault
  exact State.checks_trans (State.checks_trans (raise_checks s f) (setFld_checks _ pc (.head _))) (reports_checks _ _)

theorem seqFault_settles (q : Nat) (f : Fld) (pc : Nat) (atWelt : Bool) (s : State) :
    let t := seqFault q f pc atWelt s
    t.flagged f ∧ t.fld (F.QSEQ_FAULT_PC_FAULT_PC q) = pc % 2 ^ (F.QSEQ_FAULT_PC_FAULT_PC q).w ∧
      t.reported = s.reported ++ [seqEvent q pc atWelt s] ∧ t.qs = s.qs ∧ s.memoryKept t := by
  have hev := raise_eventsOnly s f
  have hpc := State.fld_setFld (s.raise f) (F.QSEQ_FAULT_PC_FAULT_PC q) pc (show 0 + 14 ≤ 16 by decide)
  refine ⟨raise_flagged s f, hpc, ?_, ?_, ?_, hev.2⟩
  · unfold seqFault seqEvent
    dsimp only
    rw [show ((s.raise f).setFld (F.QSEQ_FAULT_PC_FAULT_PC q) pc).reported = s.reported from State.raise_reported s f]
  · exact State.raise_qs s f
  · exact State.raise_hbm s f

theorem reportAtWelt_checks {q : Nat} (src a : Nat) (s : State) : s.checks q (reportAtWelt src a s) := reports_checks s _

/-! ### The fetch (R56) -/

theorem fetchWord_of_none {q a : Nat} {s : State} (stall : Bool) (h : checkMicro (s.csWord q a) = none) :
    fetchWord q a stall s = (seqFault q (F.QSEQ_FAULT_CHK_UNCORR q) a stall s, none) := by
  unfold fetchWord
  rw [h]

theorem fetchWord_of_intact {q a : Nat} {s : State} {w : Micro} (stall : Bool) (h : checkMicro (s.csWord q a) = some (w, false)) :
    fetchWord q a stall s = (s, some w) := by
  unfold fetchWord
  rw [h]

/-- A word that can be read is fetched, corrected where it has to be. -/
theorem fetchWord_checks {q a : Nat} {s : State} (stall : Bool) (h : checkMicro (s.csWord q a) ≠ none) :
    s.checks q (fetchWord q a stall s).1 ∧ ∃ w, (fetchWord q a stall s).2 = some w := by
  unfold fetchWord
  split
  · next hn => exact absurd hn h
  · next w _ => exact ⟨s.checks_refl q, w, rfl⟩
  · next w _ => exact ⟨State.checks_trans (State.checks_trans (setCsWord_checks s _ _) (raise_checks _ _)) (reports_checks _ _), w, rfl⟩

/-! ### The selection (R60) -/

/-- From `s` the selection of the word at `a` by quarter q goes to `t` with the successor `u`. -/
structure State.selects (q a : Nat) (s t : State) (u : Option Succ) : Prop where
  checks : s.checks q t
  addr : ∀ v, u = some v → v.addr = a ∨ v.park = true
  plain : s.plainWord q a → t = s ∧ ∃ v, u = some v ∧ v.addr = a ∧ v.park = false ∧ v.ready = true
  unread : a ≤ 0x3FFF → checkMicro (s.csWord q a) = none → t.flagged (F.QSEQ_FAULT_CHK_UNCORR q) ∧ ∀ v, u = some v → v.park = true
  past : 0x3FFF < a → (∃ v, u = some v ∧ v.park = true) ∧ t.flagged (F.QSEQ_FAULT_PC_OVF q)

/-- A timing set that fails its check is shown once in ERR_TS and reported (R115). -/
theorem tsFault_checks (q code : Nat) (f : Fld) (s : State) : s.checks q (reportAtWelt (0x103 + 16 * q) code
    ((if (s.q q).tsHeld then s else (s.setReg (R.QTS_ERR_TS q) (BitVec.ofNat 16 code)).setQ q { s.q q with tsHeld := true }).raise f)) := by
  refine State.checks_trans (State.checks_trans ?_ (raise_checks _ f)) (reportAtWelt_checks _ _ _)
  split
  · exact s.checks_refl q
  · exact State.checks_trans (setReg_checks s _ (.tail _ (.head _))) (setTsHeld_checks _ (by rw [State.setReg_acc_q]))

/-- A descriptor that fails its check is shown in ERR_SEG and reported (R89). -/
theorem descFault_checks (q seg : Nat) (f : Fld) (s : State) : s.checks q (reportAtWelt (0x102 + 16 * q) seg
    (((s.setFld (F.MEM_ERR_SEG_L_SEG_L q) seg).setFld (F.MEM_ERR_SEG_H_SEG_H q) (seg / 2 ^ 16)).raise f)) :=
  State.checks_trans (State.checks_trans (State.checks_trans (setFld_checks s _ (.tail _ (.tail _ (.head _))))
    (setFld_checks _ _ (.tail _ (.tail _ (.tail _ (.head _)))))) (raise_checks _ f)) (reportAtWelt_checks _ _ _)

theorem ite_checks {q : Nat} {s t u : State} {c : Prop} {_ : Decidable c} (ht : s.checks q t) (hu : s.checks q u) :
    s.checks q (if c then t else u) := by
  split
  · exact ht
  · exact hu

/-- The word checked, once it is fetched: whether it is legal, its timing set and its descriptor (R58, R89, R115). -/
theorem selectSucc_of_fetched {q pc a : Nat} {stall : Bool} {cands : List Cand} {s : State} {w : Micro} (ha : a ≤ 0x3FFF)
    (hw : (fetchWord q a stall s).2 = some w) :
    (fetchWord q a stall s).1.checks q (selectSucc q pc a stall cands s).1 ∧
      ∀ v, (selectSucc q pc a stall cands s).2 = some v → v.addr = a := by
  obtain ⟨⟨u, o⟩, hf⟩ : ∃ f, fetchWord q a stall s = f := ⟨_, rfl⟩
  rw [hf] at hw
  obtain rfl : o = some w := hw
  have hillegal : ∀ v, (if stall then some { addr := a, word := 0, park := true } else none : Option Succ) = some v → v.addr = a := by
    rintro v hv
    cases stall
    · cases hv
    · obtain rfl := Option.some.inj hv
      rfl
  unfold selectSucc
  rw [if_neg (by omega), hf]
  dsimp only
  split
  · split
    · exact ⟨seqFault_checks q _ a stall u, hillegal⟩
    · refine ⟨ite_checks ?_ (State.checks_trans ?_ (descFault_checks q _ _ _)), fun v hv => Option.some.inj hv ▸ rfl⟩
      all_goals
        split
        · exact tsFault_checks q _ _ u
        · exact u.checks_refl q
  · split
    · exact ⟨seqFault_checks q _ a stall u, hillegal⟩
    · refine ⟨?_, fun v hv => Option.some.inj hv ▸ rfl⟩
      rw [if_pos rfl]
      split
      · exact tsFault_checks q _ _ u
      · exact u.checks_refl q

/-- An intact, legal word of the null segment is selected with no effect on the state. -/
theorem selectSucc_of_plain {q pc a : Nat} {stall : Bool} {cands : List Cand} {s : State} (h : s.plainWord q a) :
    ∃ w, selectSucc q pc a stall cands s = (s, some { addr := a, word := w }) := by
  obtain ⟨ha, w, hw, hnull, hlegal⟩ := h
  have hloop : ∀ l, illegalWord w 0 true l = illegalWord w 0 true false := fun l => by
    unfold illegalWord
    simp [hnull]
  refine ⟨w, ?_⟩
  unfold selectSucc
  rw [if_neg (by omega), fetchWord_of_intact stall hw]
  simp only [hnull, if_true, hloop, hlegal, Bool.false_eq_true, if_false]
  rfl

theorem selectSucc_of_past {q pc a : Nat} {stall : Bool} {cands : List Cand} {s : State} (h : 0x3FFF < a) :
    selectSucc q pc a stall cands s =
      (seqFault q (F.QSEQ_FAULT_PC_OVF q) pc true s, some { addr := a, word := 0, park := true }) := if_pos h

theorem selectSucc_of_unread {q pc a : Nat} {stall : Bool} {cands : List Cand} {s : State} (ha : a ≤ 0x3FFF)
    (h : checkMicro (s.csWord q a) = none) : selectSucc q pc a stall cands s =
      (seqFault q (F.QSEQ_FAULT_CHK_UNCORR q) a stall s, if stall then some { addr := a, word := 0, park := true } else none) := by
  unfold selectSucc
  rw [if_neg (by omega), fetchWord_of_none stall h]

theorem selectSucc_selects (q pc a : Nat) (stall : Bool) (cands : List Cand) (s : State) :
    s.selects q a (selectSucc q pc a stall cands s).1 (selectSucc q pc a stall cands s).2 := by
  have hplain : s.plainWord q a → (selectSucc q pc a stall cands s).1 = s ∧
      ∃ v, (selectSucc q pc a stall cands s).2 = some v ∧ v.addr = a ∧ v.park = false ∧ v.ready = true := fun hp => by
    obtain ⟨w, hw⟩ := selectSucc_of_plain (pc := pc) (stall := stall) (cands := cands) hp
    rw [hw]
    exact ⟨rfl, _, rfl, rfl, rfl, rfl⟩
  by_cases ha : 0x3FFF < a
  · rw [selectSucc_of_past ha] at hplain ⊢
    refine ⟨seqFault_checks _ _ _ _ s, fun v hv => .inr ?_, hplain, fun hle => absurd ha (by omega),
      fun _ => ⟨⟨_, rfl, rfl⟩, (seqFault_settles q _ pc true s).1⟩⟩
    obtain rfl := Option.some.inj hv
    rfl
  · have hle : a ≤ 0x3FFF := by omega
    by_cases hc : checkMicro (s.csWord q a) = none
    · rw [selectSucc_of_unread hle hc] at hplain ⊢
      have hpark : ∀ v, (if stall then some { addr := a, word := 0, park := true } else none : Option Succ) = some v → v.park = true :=
        fun v hv => by
          split at hv
          · obtain rfl := Option.some.inj hv
            rfl
          · cases hv
      exact ⟨seqFault_checks _ _ _ _ s, fun v hv => .inr (hpark v hv), hplain,
        fun _ _ => ⟨(seqFault_settles q _ a stall s).1, hpark⟩, fun hgt => absurd hgt ha⟩
    · obtain ⟨hfetch, w, hw⟩ := fetchWord_checks stall hc
      obtain ⟨hchecks, haddr⟩ := selectSucc_of_fetched (pc := pc) (cands := cands) hle hw
      exact ⟨State.checks_trans hfetch hchecks, fun v hv => .inl (haddr v hv), hplain, fun _ hn => absurd hn hc, fun hgt => absurd hgt ha⟩

/-- A successor that parks, where the selection gave none. -/
theorem State.selects.getD {q a : Nat} {s t : State} {u : Option Succ} (h : s.selects q a t u) {p : Succ} (hp : p.park = true) :
    s.selects q a t (some (u.getD p)) := by
  cases u with
  | some v => exact h
  | none =>
    refine ⟨h.checks, fun v hv => .inr ?_, fun hplain => ?_, fun ha hc => ⟨(h.unread ha hc).1, fun v hv => ?_⟩,
      fun ha => ⟨⟨p, rfl, hp⟩, (h.past ha).2⟩⟩
    · exact Option.some.inj hv ▸ hp
    · obtain ⟨-, v, hv, -⟩ := h.plain hplain
      cases hv
    · exact Option.some.inj hv ▸ hp

/-! ### The decision put in place (R99) -/

/-- From `s` to `t` fetch jobs and data of quarter q are dropped, with their reports (R86, R99). -/
structure State.drops (q : Nat) (s t : State) : Prop where
  frame : t = { s with qm := t.qm, reported := t.reported }
  reports : s.reported <+: t.reported
  others : ∀ k, k ≠ q → t.m k = s.m k

theorem State.drops_trans {q : Nat} {s t u : State} (h1 : s.drops q t) (h2 : t.drops q u) : s.drops q u where
  frame := by
    refine h2.frame.trans ?_
    conv_lhs => rw [h1.frame]
  reports := h1.reports.trans h2.reports
  others k hk := (h2.others k hk).trans (h1.others k hk)

theorem report_drops (q : Nat) (s : State) (src a : Nat) : s.drops q (s.report src a) := ⟨rfl, List.prefix_append _ _, fun _ _ => rfl⟩

theorem setM_drops (q : Nat) (s : State) (x : QMem) : s.drops q (s.setM q x) :=
  ⟨rfl, List.prefix_refl _, fun _ hk => State.m_setM_ne s x hk⟩

theorem discardJobs_drops (q : Nat) (gone : Nat → Nat → Bool) (s : State) : s.drops q (discardJobs q gone s) := by
  unfold discardJobs
  refine State.drops_trans (List.foldlRecOn (motive := fun t : State => s.drops q t) _ _ ⟨rfl, List.prefix_refl _, fun _ _ => rfl⟩
    fun t h x _ => State.drops_trans h (report_drops q t _ _)) (setM_drops q _ _)

theorem State.drops.keeps {q : Nat} {s t : State} (h : s.drops q t) : s.decisionKeeps q t where
  regs a _ := by rw [h.frame]; rfl
  others k hk := ⟨by rw [h.frame]; rfl, h.others k hk⟩
  reports := h.reports
  frame := by
    refine h.frame.trans ?_
    conv_rhs => rw [h.frame]
  grows := by
    rw [h.frame]
    exact State.rcGrows_of_eq rfl rfl

theorem setQ_keeps (q : Nat) (s : State) (x : QSeq) : s.decisionKeeps q (s.setQ q x) where
  regs _ _ := rfl
  others _ hk := ⟨State.q_setQ_ne s x hk, rfl⟩
  reports := List.prefix_refl _
  frame := rfl
  grows := State.rcGrows_of_eq rfl rfl

/-- The decision of body `b` in its place: the successor `v`, with the other candidates' jobs dropped (R99). -/
def placed (q : Nat) (v : Option Succ) (b : Body) (s : State) : State :=
  (dropUnchosen q v s).setQ q { s.q q with body := some { b with succ := v, decided := true } }

section
variable {q : Nat} {s : State} {b : Body} (v : Option Succ)

theorem dropUnchosen_drops : s.drops q (dropUnchosen q v s) := by
  unfold dropUnchosen discardOthers
  exact discardJobs_drops q _ s

theorem dropUnchosen_q (k : Nat) : (dropUnchosen q v s).q k = s.q k := by
  rw [(dropUnchosen_drops v).frame]
  rfl

theorem placed_q : (placed q v b s).q q = { s.q q with body := some { b with succ := v, decided := true } } := State.q_setQ_same _ _ _

theorem placed_reg (a : Nat) : (placed q v b s).reg a = s.reg a := by
  unfold placed
  rw [State.setQ_acc_reg, (dropUnchosen_drops v).frame]
  rfl

theorem placed_memory : s.memoryKept (placed q v b s) := by
  unfold placed
  generalize hu : dropUnchosen q v s = u
  have hframe := (dropUnchosen_drops (q := q) (s := s) v).frame
  rw [hu] at hframe
  rw [hframe]
  exact ⟨rfl, fun _ _ => rfl⟩

theorem placed_keeps : s.decisionKeeps q (placed q v b s) :=
  State.decisionKeeps_trans (dropUnchosen_drops v).keeps (setQ_keeps q _ _)

/-- A latch that came late makes the pending jump with the decision (R67). -/
theorem putSucc_eq (hb : (s.q q).body = some b) : putSucc q (s, v) =
    if b.lateTgt.isSome then setDefer q b.lateTgt (placed q v b s) else placed q v b s := by
  unfold putSucc placed
  dsimp only
  rw [dropUnchosen_q, hb, Option.bind_some, Option.map_some]
  cases b.lateTgt <;> rfl

end

theorem putSucc_settles {q : Nat} {u : State} {b : Body} (v : Option Succ) (hb : (u.q q).body = some b) :
    let t := putSucc q (u, v)
    u.decisionKeeps q t ∧ t.q q = { u.q q with body := some { b with succ := v, decided := true } } ∧
      u.regsKept [R.QSEQ_DEFER q] t ∧ u.memoryKept t ∧
      (b.lateTgt = none → t.deferred q = u.deferred q) ∧
      (∀ a, b.lateTgt = some a → a ≤ 0x3FFF → t.deferred q = some a) := by
  intro t
  have ht : t = _ := putSucc_eq v hb
  obtain hl | ⟨a, hl⟩ := Option.eq_none_or_eq_some b.lateTgt
  · rw [if_neg (by rw [hl]; decide)] at ht
    rw [ht]
    exact ⟨placed_keeps v, placed_q v, fun a _ => placed_reg v a, placed_memory v, fun _ => deferred_congr (placed_reg v _),
      fun a ha => absurd (hl.symm.trans ha) nofun⟩
  · rw [if_pos (by rw [hl]; rfl), hl] at ht
    have hprep := setDefer_prepares q (some a) (placed q v b u)
    rw [ht]
    refine ⟨State.decisionKeeps_trans (placed_keeps v) hprep.keeps, (setDefer_q q q _ _).trans (placed_q v), fun c hc => ?_,
      State.memoryKept_trans (placed_memory v) hprep.memory, fun hn => absurd (hl.symm.trans hn) nofun, fun c hc hle => ?_⟩
    · exact ((setDefer_keeps q (some a) _).2.2.2 c (by simpa using hc)).trans (placed_reg v c)
    · obtain rfl := Option.some.inj (hl.symm.trans hc)
      exact deferred_setDefer_some _ (by omega)

end Sys2Proof.Machine
end

section
/-! The decision of a word: its stack effects, a pending deferred jump, its successor (R60 to R69). -/

namespace Sys2Proof.Machine

/-! ### The decision's outcome -/

/-- From `s` to `t` the decision of body `b` in quarter q is put in place: stacks, latches and what shows them stay, and the
deferred jump but for a latch that came late (R67). -/
structure State.placesIn (q : Nat) (b : Body) (s t : State) : Prop where
  calls : (t.q q).callStack = (s.q q).callStack
  loops : (t.q q).loopStack = (s.q q).loopStack
  latch : (t.q q).latch = (s.q q).latch
  shown : ∀ a ∈ effectRegs q, a ≠ R.QSEQ_DEFER q → t.reg a = s.reg a
  onTime : b.lateTgt = none → t.deferred q = s.deferred q
  late : ∀ a, b.lateTgt = some a → a ≤ 0x3FFF → t.deferred q = some a

section
variable {q : Nat} {s t u : State} {b : Body}

theorem State.prepares.body_eq (h : s.prepares q t) (hb : (s.q q).body = some b) : (t.q q).body = some b := h.body.trans hb

theorem State.checks.body_eq (h : s.checks q t) (hb : (s.q q).body = some b) : (t.q q).body = some b := by
  rw [h.seq]
  exact hb

theorem State.checks.deferred (h : s.checks q t) : t.deferred q = s.deferred q :=
  deferred_congr (h.regs _ (effectReg_not_check (by simp [effectRegs])))

theorem putSucc_placesIn (h : s.checks q u) (hb : (s.q q).body = some b) (v : Option Succ) : s.placesIn q b (putSucc q (u, v)) := by
  obtain ⟨-, hseq, hregs, -, honTime, hlate⟩ := putSucc_settles v (h.body_eq hb)
  refine ⟨by rw [hseq, h.seq], by rw [hseq, h.seq], by rw [hseq, h.seq], fun a ha hne => ?_, fun hn => (honTime hn).trans h.deferred, hlate⟩
  exact (hregs a (by simpa using hne)).trans (h.regs a (effectReg_not_check ha))

theorem putSucc_body {w : State} (h : (w.q q).body = some b) (v : Option Succ) :
    ((putSucc q (w, v)).q q).body = some { b with decided := true, succ := (putSucc q (w, v)).successor q } ∧
      (putSucc q (w, v)).successor q = v := by
  obtain ⟨-, hseq, -⟩ := putSucc_settles v h
  have hsucc : (putSucc q (w, v)).successor q = v := by
    unfold State.successor
    rw [hseq]
    rfl
  refine ⟨?_, hsucc⟩
  rw [hsucc, hseq]

/-- A word's own effects, then a selection put in place, is a decision for the word selected. -/
theorem goes_of_selects {a : Nat} {v : Option Succ} (hp : s.prepares q t) (hb : (s.q q).body = some b) (hs : t.selects q a u v) :
    s.goes q b a (putSucc q (u, v)) := by
  have hub := hs.checks.body_eq (hp.body_eq hb)
  obtain ⟨hkeeps, -, hregs, hmem, -⟩ := putSucc_settles v hub
  obtain ⟨hbody, hsucc⟩ := putSucc_body hub v
  refine ⟨hbody, fun w hw => hs.addr w (hsucc ▸ hw), fun hplain => ?_, fun ha hc => ?_, fun ha => ?_,
    (State.decisionKeeps_trans (State.decisionKeeps_trans hp.keeps hs.checks.keeps) hkeeps).decisionFrame⟩
  · obtain ⟨rfl, hv⟩ := hs.plain (hp.plainWord hplain)
    exact ⟨hsucc.symm ▸ hv, State.memoryKept_trans hp.memory hmem,
      State.regsKept_trans hp.regs (State.regsKept_mono hregs fun c hc => by simp_all)⟩
  · obtain ⟨hflag, hpark⟩ := hs.unread ha ((hp.csWord q a).symm ▸ hc)
    exact ⟨hkeeps.grows.flagged hflag, fun w hw => hpark w (hsucc ▸ hw)⟩
  · obtain ⟨hpark, hflag⟩ := hs.past ha
    exact ⟨hsucc.symm ▸ hpark, hkeeps.grows.flagged hflag⟩

/-- A stack fault after the word's own effects. -/
theorem stackFault_of_prepares (hp : s.prepares q t) (hb : (s.q q).body = some b) (f : Fld) {v : Succ} (hv : v.park = true) :
    s.stackFault q b f (putSucc q (seqFault q f b.addr true t, some v)) := by
  have hchecks := seqFault_checks q f b.addr true t
  obtain ⟨hflag, hpc, hreported, -, hmem⟩ := seqFault_settles q f b.addr true t
  have hub := hchecks.body_eq (hp.body_eq hb)
  obtain ⟨hkeeps, -, hregs, hmem', -⟩ := putSucc_settles (some v) hub
  obtain ⟨hbody, hsucc⟩ := putSucc_body hub (some v)
  have hpcReg : (F.QSEQ_FAULT_PC_FAULT_PC q).addr ∉ [R.QSEQ_DEFER q] := by
    simp [F.QSEQ_FAULT_PC_FAULT_PC, R.QSEQ_FAULT_PC, R.QSEQ_DEFER]
  refine ⟨hkeeps.grows.flagged hflag, ?_, ?_, hbody, ⟨v, hsucc, hv⟩,
    (State.decisionKeeps_trans (State.decisionKeeps_trans hp.keeps hchecks.keeps) hkeeps).decisionFrame,
    State.memoryKept_trans hp.memory (State.memoryKept_trans hmem hmem')⟩
  · rw [← hpc]
    unfold State.fld
    rw [hregs _ hpcReg]
  · have hev : seqEvent q b.addr true t = seqEvent q b.addr true s := by
      unfold seqEvent
      rw [hp.frame]
    obtain ⟨l, hl⟩ := hkeeps.reports
    have hrep : t.reported = s.reported := by rw [hp.frame]
    rw [← hl, hreported, hrep, List.append_assoc, List.drop_left, hev]
    exact List.mem_append_left _ (List.mem_singleton.2 rfl)

end

/-! ### The decision of a word -/

/-- What follows the word's own effects: the selection, or the stack fault and a successor that parks. -/
def resolved (q : Nat) (b : Body) (r : Sel) (s : State) : State :=
  match r with
  | .go a => putSucc q (selectSucc q b.addr a false b.cands s)
  | .fault f => putSucc q (seqFault q f b.addr true s, some { addr := 0, word := 0, park := true })

section
variable {q : Nat} {s t : State} {b : Body}

theorem resolved_goes {a : Nat} (hp : s.prepares q t) (hb : (s.q q).body = some b) : s.goes q b a (resolved q b (.go a) t) :=
  goes_of_selects hp hb (selectSucc_selects q b.addr a false b.cands t)

theorem resolved_fault {f : Fld} (hp : s.prepares q t) (hb : (s.q q).body = some b) : s.stackFault q b f (resolved q b (.fault f) t) :=
  stackFault_of_prepares hp hb f rfl

theorem resolved_placesIn (r : Sel) (hb : (t.q q).body = some b) : t.placesIn q b (resolved q b r t) := by
  cases r with
  | go a => exact putSucc_placesIn (selectSucc_selects q b.addr a false b.cands t).checks hb _
  | fault f => exact putSucc_placesIn (seqFault_checks q f b.addr true t) hb _

/-- A JCOND that waits on a latch consumes it where it is set (R64, R65). -/
def latchTaken (q : Nat) (w : Micro) (s : State) : State :=
  if mwOp w = 3 && mwCond w = 2 && condHolds s q w then writeLatch q (mwTrg w) false s else s

/-- A deferred jump that overtakes a JCOND whose own condition holds is counted (R66). -/
def overtaken (q : Nat) (w : Micro) (s : State) : State :=
  if mwOp w = 3 && condHolds s q w then s.addSat (F.QSEQ_DEFER_OVR_DEFER_OVR q) 1 else s

theorem decideBody_of_free (h : s.deferred q = none) : decideBody q b s =
    resolved q b (stackEffect q b.word b.addr (condHolds s q b.word) ((latchTaken q b.word s).q q)).2
      (showStack q ((latchTaken q b.word s).setQ q
        (stackEffect q b.word b.addr (condHolds s q b.word) ((latchTaken q b.word s).q q)).1)) := by
  unfold decideBody
  rw [h]
  rfl

theorem decideBody_of_pending {tgt : Nat} (h : s.deferred q = some tgt) : decideBody q b s =
    resolved q b (closingEffect q b.word tgt (s.q q)).2
      (showStack q (setDefer q none ((overtaken q b.word s).setQ q (closingEffect q b.word tgt (s.q q)).1))) := by
  unfold decideBody
  rw [h]
  rfl

theorem latchTaken_prepares (q : Nat) (w : Micro) (s : State) : s.prepares q (latchTaken q w s) := by
  unfold latchTaken
  split
  · exact writeLatch_prepares q _ _ s
  · exact s.prepares_refl q

theorem overtaken_prepares (q : Nat) (w : Micro) (s : State) : s.prepares q (overtaken q w s) := by
  unfold overtaken
  split
  · exact addSat_prepares s 1 (by simp [effectRegs, F.QSEQ_DEFER_OVR_DEFER_OVR])
  · exact s.prepares_refl q

theorem overtaken_q (q : Nat) (w : Micro) (s : State) (k : Nat) : (overtaken q w s).q k = s.q k := by
  unfold overtaken
  split <;> rfl

/-- The stacks after an effect, shown. -/
theorem effect_prepares {x : QSeq} (hp : s.prepares q t) (hx : x.body = (t.q q).body) : s.prepares q (showStack q (t.setQ q x)) :=
  State.prepares_trans (State.prepares_trans hp (setQ_prepares hx)) (showStack_prepares q _)

theorem closing_prepares {x : QSeq} (hp : s.prepares q t) (hx : x.body = (t.q q).body) :
    s.prepares q (showStack q (setDefer q none (t.setQ q x))) :=
  State.prepares_trans (State.prepares_trans (State.prepares_trans hp (setQ_prepares hx)) (setDefer_prepares q none _))
    (showStack_prepares q _)

theorem showStack_deferred (q : Nat) (s : State) : (showStack q s).deferred q = s.deferred q :=
  deferred_congr (by
    unfold showStack
    have h1 : R.QSEQ_DEFER q ≠ R.QSEQ_STACK q := by unfold R.QSEQ_DEFER R.QSEQ_STACK; omega
    have h2 : R.QSEQ_DEFER q ≠ R.QSEQ_LOOP_L q := by unfold R.QSEQ_DEFER R.QSEQ_LOOP_L; omega
    have h3 : R.QSEQ_DEFER q ≠ R.QSEQ_LOOP_H q := by unfold R.QSEQ_DEFER R.QSEQ_LOOP_H; omega
    rw [State.reg_setReg_ne _ _ h3, State.reg_setReg_ne _ _ h2, State.reg_setReg_ne _ _ h1])

/-- What STACK and LOOP show. -/
theorem showStack_regs (q : Nat) (s : State) :
    (showStack q s).reg (R.QSEQ_STACK q) = BitVec.ofNat 16 ((s.q q).callStack.length + 16 * (s.q q).loopStack.length) ∧
      (showStack q s).reg (R.QSEQ_LOOP_L q) = BitVec.ofNat 16 (((s.q q).loopStack.head?.map (·.2)).getD 0) ∧
      (showStack q s).reg (R.QSEQ_LOOP_H q) = BitVec.ofNat 16 (((s.q q).loopStack.head?.map (·.2)).getD 0 / 2 ^ 16) := by
  have h1 : R.QSEQ_STACK q ≠ R.QSEQ_LOOP_L q := by unfold R.QSEQ_STACK R.QSEQ_LOOP_L; omega
  have h2 : R.QSEQ_STACK q ≠ R.QSEQ_LOOP_H q := by unfold R.QSEQ_STACK R.QSEQ_LOOP_H; omega
  have h3 : R.QSEQ_LOOP_L q ≠ R.QSEQ_LOOP_H q := by unfold R.QSEQ_LOOP_L R.QSEQ_LOOP_H; omega
  unfold showStack
  dsimp only
  rw [State.reg_setReg_ne _ _ h2, State.reg_setReg_ne _ _ h1, State.reg_setReg_same, State.reg_setReg_ne _ _ h3,
    State.reg_setReg_same, State.reg_setReg_same]
  exact ⟨rfl, rfl, rfl⟩

/-! ### A decision with and without a deferred jump -/

/-- From `s` to `t` the decision of body `b` in quarter q leaves the stacks and latches of `x`, which STACK and LOOP show, and
selects or faults as `r` says. -/
structure State.decidesTo (q : Nat) (b : Body) (x : QSeq) (r : Sel) (s t : State) : Prop where
  go : ∀ a, r = .go a → s.goes q b a t
  fault : ∀ f, r = .fault f → s.stackFault q b f t
  calls : (t.q q).callStack = x.callStack
  loops : (t.q q).loopStack = x.loopStack
  latch : (t.q q).latch = x.latch
  stack : t.reg (R.QSEQ_STACK q) = BitVec.ofNat 16 (x.callStack.length + 16 * x.loopStack.length)
  loopL : t.reg (R.QSEQ_LOOP_L q) = BitVec.ofNat 16 ((x.loopStack.head?.map (·.2)).getD 0)
  loopH : t.reg (R.QSEQ_LOOP_H q) = BitVec.ofNat 16 ((x.loopStack.head?.map (·.2)).getD 0 / 2 ^ 16)

theorem stackRegs_ne_defer (q : Nat) : R.QSEQ_STACK q ≠ R.QSEQ_DEFER q ∧ R.QSEQ_LOOP_L q ≠ R.QSEQ_DEFER q ∧
    R.QSEQ_LOOP_H q ≠ R.QSEQ_DEFER q ∧ R.QSEQ_DEFER_OVR q ≠ R.QSEQ_DEFER q := by
  unfold R.QSEQ_STACK R.QSEQ_LOOP_L R.QSEQ_LOOP_H R.QSEQ_DEFER R.QSEQ_DEFER_OVR
  omega

/-- After the word's own effects, with its stacks shown. -/
theorem resolved_decidesTo {x : QSeq} (r : Sel) (hp : s.prepares q (showStack q t)) (hb : (s.q q).body = some b) (hx : t.q q = x) :
    s.decidesTo q b x r (resolved q b r (showStack q t)) := by
  obtain ⟨hcalls, hloops, hlatch, hshown, -, -⟩ := resolved_placesIn r (hp.body_eq hb)
  obtain ⟨hstack, hl, hh⟩ := showStack_regs q t
  obtain ⟨n1, n2, n3, -⟩ := stackRegs_ne_defer q
  rw [showStack_q, hx] at hcalls hloops hlatch
  rw [hx] at hstack hl hh
  exact ⟨fun a ha => ha ▸ resolved_goes hp hb, fun f hf => hf ▸ resolved_fault hp hb, hcalls, hloops, hlatch,
    (hshown _ (by simp [effectRegs]) n1).trans hstack, (hshown _ (by simp [effectRegs]) n2).trans hl,
    (hshown _ (by simp [effectRegs]) n3).trans hh⟩

/-- Without a deferred jump the word has its own stack effect. -/
theorem decideBody_free (h : s.deferred q = none) (hb : (s.q q).body = some b) {x : QSeq} {r : Sel}
    (hx : x.body = ((latchTaken q b.word s).q q).body)
    (he : stackEffect q b.word b.addr (condHolds s q b.word) ((latchTaken q b.word s).q q) = (x, r)) :
    s.decidesTo q b x r (decideBody q b s) := by
  rw [decideBody_of_free h, he]
  exact resolved_decidesTo r (effect_prepares (latchTaken_prepares q b.word s) hx) hb (State.q_setQ_same _ _ _)

/-- With one pending the word has its closing effect alone, and the jump is no longer pending (R67). -/
theorem decideBody_pending {tgt : Nat} (h : s.deferred q = some tgt) (hb : (s.q q).body = some b) {x : QSeq} {r : Sel}
    (hx : x.body = (s.q q).body) (he : closingEffect q b.word tgt (s.q q) = (x, r)) :
    s.decidesTo q b x r (decideBody q b s) ∧ (b.lateTgt = none → (decideBody q b s).deferred q = none) ∧
      (∀ a, b.lateTgt = some a → a ≤ 0x3FFF → (decideBody q b s).deferred q = some a) ∧
      (decideBody q b s).reg (R.QSEQ_DEFER_OVR q) = (overtaken q b.word s).reg (R.QSEQ_DEFER_OVR q) := by
  rw [decideBody_of_pending h, he]
  dsimp only
  have hp := closing_prepares (overtaken_prepares q b.word s) (x := x) (by rw [overtaken_q, hx])
  obtain ⟨-, -, -, hshown, honTime, hlate⟩ := resolved_placesIn r (hp.body_eq hb)
  refine ⟨resolved_decidesTo r hp hb (by rw [setDefer_q, State.q_setQ_same]), fun hn => ?_, hlate, ?_⟩
  · rw [honTime hn, showStack_deferred, deferred_setDefer_none]
  · obtain ⟨n1, n2, n3, n4⟩ := stackRegs_ne_defer q
    refine (hshown _ (by simp [effectRegs]) n4).trans ?_
    have hstack : ∀ u : State, (showStack q u).reg (R.QSEQ_DEFER_OVR q) = u.reg (R.QSEQ_DEFER_OVR q) := fun u => by
      have h1 : R.QSEQ_DEFER_OVR q ≠ R.QSEQ_STACK q := by unfold R.QSEQ_DEFER_OVR R.QSEQ_STACK; omega
      have h2 : R.QSEQ_DEFER_OVR q ≠ R.QSEQ_LOOP_L q := by unfold R.QSEQ_DEFER_OVR R.QSEQ_LOOP_L; omega
      have h3 : R.QSEQ_DEFER_OVR q ≠ R.QSEQ_LOOP_H q := by unfold R.QSEQ_DEFER_OVR R.QSEQ_LOOP_H; omega
      unfold showStack
      rw [State.reg_setReg_ne _ _ h3, State.reg_setReg_ne _ _ h2, State.reg_setReg_ne _ _ h1]
    rw [hstack, (setDefer_keeps q none _).2.2.2 _ n4]
    rfl

end

/-! ### The words' own effects -/

section
variable {q pc tgt : Nat} {w : Micro} {taken : Bool} {x : QSeq}

/-- A word with no stack effect goes on, or where it jumps. -/
theorem stackEffect_of_plain (h : mwOp w ∉ [2, 3, 4, 5, 6, 7]) : stackEffect q w pc taken x = (x, .go (pc + 1)) := by
  unfold stackEffect
  split
  case h_7 => rfl
  all_goals
    next hop => simp [hop] at h

theorem stackEffect_of_jmp (h : mwOp w = 2) : stackEffect q w pc taken x = (x, .go (mwTgt w)) := by
  simp only [stackEffect, h]

theorem stackEffect_of_jcond (h : mwOp w = 3) : stackEffect q w pc taken x = (x, .go (if taken then mwTgt w else pc + 1)) := by
  simp only [stackEffect, h]

theorem stackEffect_of_call (h : mwOp w = 4) : stackEffect q w pc taken x =
    if 8 ≤ x.callStack.length then (x, .fault (F.QSEQ_FAULT_CALL_OVF q))
    else ({ x with callStack := (pc + 1) :: x.callStack }, .go (mwTgt w)) := by
  simp only [stackEffect, h]

theorem stackEffect_of_ret_empty (h : mwOp w = 5) (hx : x.callStack = []) :
    stackEffect q w pc taken x = (x, .fault (F.QSEQ_FAULT_CALL_UNF q)) := by
  simp only [stackEffect, h, hx]

theorem stackEffect_of_ret {a : Nat} {l : List Nat} (h : mwOp w = 5) (hx : x.callStack = a :: l) :
    stackEffect q w pc taken x = ({ x with callStack := l }, .go a) := by
  simp only [stackEffect, h, hx]

theorem stackEffect_of_loopb (h : mwOp w = 6) : stackEffect q w pc taken x =
    if 4 ≤ x.loopStack.length then (x, .fault (F.QSEQ_FAULT_LOOP_OVF q))
    else ({ x with loopStack := (pc + 1, mwCnt w) :: x.loopStack }, .go (pc + 1)) := by
  simp only [stackEffect, h]

theorem stackEffect_of_loope_empty (h : mwOp w = 7) (hx : x.loopStack = []) :
    stackEffect q w pc taken x = (x, .fault (F.QSEQ_FAULT_LOOP_UNF q)) := by
  simp only [stackEffect, h, hx]

theorem stackEffect_of_loope {f : Nat × Nat} {l : List (Nat × Nat)} (h : mwOp w = 7) (hx : x.loopStack = f :: l) :
    stackEffect q w pc taken x = if 1 < f.2 then ({ x with loopStack := (f.1, f.2 - 1) :: l }, .go f.1)
      else ({ x with loopStack := l }, .go (pc + 1)) := by
  simp only [stackEffect, h, hx]

/-- A word that is no RET and no LOOPE closes nothing. -/
theorem closingEffect_of_plain (h : mwOp w ∉ [5, 7]) : closingEffect q w tgt x = (x, .go tgt) := by
  unfold closingEffect
  split
  · next hop => simp [hop] at h
  · next hop => simp [hop] at h
  · rfl

theorem closingEffect_of_ret (h : mwOp w = 5) : closingEffect q w tgt x =
    ({ x with callStack := x.callStack.drop 1 },
      if x.callStack = [] then .fault (F.QSEQ_FAULT_CALL_UNF q) else .go tgt) := by
  simp only [closingEffect, h]
  rcases x with ⟨_ | _⟩ <;> rfl

theorem closingEffect_of_loope (h : mwOp w = 7) : closingEffect q w tgt x =
    ({ x with loopStack := x.loopStack.drop 1 },
      if x.loopStack = [] then .fault (F.QSEQ_FAULT_LOOP_UNF q) else .go tgt) := by
  simp only [closingEffect, h]
  rcases x with ⟨_, _ | _⟩ <;> rfl

end

/-! ### The executing word -/

section
variable {q op : Nat} {s : State} {b : Body}

theorem executing_iff : s.executing q op = some b ↔ (s.q q).body = some b ∧ s.qstate q = 1 ∧ mwOp b.word = op ∧
    s.heldAt q s.now = false ∧ (s.q q).parkDue = none := by
  unfold State.executing
  cases hb : (s.q q).body with
  | none => simp
  | some c =>
    simp only [Option.some.injEq]
    constructor
    · intro h
      split at h
      · next hc =>
        obtain rfl := Option.some.inj h
        simpa [and_assoc] using hc
      · cases h
    · rintro ⟨rfl, h1, h2, h3, h4⟩
      simp [h1, h2, h3, h4]

theorem deciding_iff : s.deciding q op = some b ↔ s.executing q op = some b ∧ s.decides b = true := by
  unfold State.deciding
  rw [Option.filter_eq_some_iff]

theorem decideWord_of_none (h : s.deciding q op = none) : decideWord q op s = s := by
  unfold decideWord
  unfold State.deciding at h
  cases he : s.executing q op with
  | none => rfl
  | some b =>
    rw [he, Option.filter_eq_none_iff] at h
    exact if_neg (h b rfl)

theorem decideWord_of_deciding (h : s.deciding q op = some b) : decideWord q op s = decideBody q b s := by
  obtain ⟨he, hd⟩ := deciding_iff.1 h
  unfold decideWord
  rw [he]
  exact if_pos hd

theorem deciding_body (h : s.deciding q op = some b) : (s.q q).body = some b := (executing_iff.1 (deciding_iff.1 h).1).1

theorem deciding_op (h : s.deciding q op = some b) : mwOp b.word = op := (executing_iff.1 (deciding_iff.1 h).1).2.2.1

/-- A word that is no JCOND takes no latch and counts no overrun. -/
theorem latchTaken_of_ne {w : Micro} (h : mwOp w ≠ 3) : latchTaken q w s = s := if_neg (by simp [h])

theorem overtaken_of_ne {w : Micro} (h : mwOp w ≠ 3) : overtaken q w s = s := if_neg (by simp [h])

/-- The decision of a word with no effect of its own on stacks and latches: it goes on, or to the target of a pending jump. -/
theorem decideBody_passes (hb : (s.q q).body = some b) (hop : mwOp b.word ∉ [2, 3, 4, 5, 6, 7]) :
    s.goes q b ((s.deferred q).getD (b.addr + 1)) (decideBody q b s) ∧ (decideBody q b s |>.q q).callStack = (s.q q).callStack ∧
      ((decideBody q b s).q q).loopStack = (s.q q).loopStack ∧ ((decideBody q b s).q q).latch = (s.q q).latch := by
  have hne : mwOp b.word ≠ 3 := fun h => hop (by rw [h]; decide)
  have hlatch : latchTaken q b.word s = s := latchTaken_of_ne hne
  cases hd : s.deferred q with
  | none =>
    have h := decideBody_free hd hb (x := s.q q) (by rw [hlatch]) (by rw [hlatch, stackEffect_of_plain hop])
    exact ⟨h.go _ rfl, h.calls, h.loops, h.latch⟩
  | some tgt =>
    have h := (decideBody_pending hd hb rfl (closingEffect_of_plain fun hm => hop (by simp_all))).1
    exact ⟨h.go _ rfl, h.calls, h.loops, h.latch⟩

end

end Sys2Proof.Machine
end

section
/-! The flow words, the calls and the loops at their decision points (R60 to R69). -/

namespace Sys2Proof.Machine

/-- A body that executes does nothing before its decision point; at it the word is decided. -/
theorem decideWord_cases (q op : Nat) (s : State) : (s.deciding q op = none → decideWord q op s = s) ∧
    ∀ b, s.deciding q op = some b → decideWord q op s = decideBody q b s :=
  ⟨decideWord_of_none, fun _ => decideWord_of_deciding⟩

section
variable {q : Nat} {s : State} {b : Body}

/-- Without a pending jump a word that is no JCOND, which takes no latch, has its own stack effect. -/
theorem decideBody_free_of_ne (hop : mwOp b.word ≠ 3) (hd : s.deferred q = none) (hb : (s.q q).body = some b) {x : QSeq} {r : Sel}
    (he : stackEffect q b.word b.addr (condHolds s q b.word) (s.q q) = (x, r)) (hx : x.body = (s.q q).body) :
    s.decidesTo q b x r (decideBody q b s) := by
  have hlatch : latchTaken q b.word s = s := latchTaken_of_ne hop
  exact decideBody_free hd hb (by rw [hlatch, hx]) (by rw [hlatch, he])

/-- The decision of a word that neither pushes nor pops: with a pending jump it goes to its target. -/
theorem decideBody_jumps {a : Nat} (hb : (s.q q).body = some b) (hop : mwOp b.word ∉ [3, 5, 7])
    (he : ∀ x, stackEffect q b.word b.addr (condHolds s q b.word) x = (x, .go a)) :
    s.goes q b ((s.deferred q).getD a) (decideBody q b s) ∧ ((decideBody q b s).q q).callStack = (s.q q).callStack ∧
      ((decideBody q b s).q q).loopStack = (s.q q).loopStack ∧ ((decideBody q b s).q q).latch = (s.q q).latch := by
  cases hd : s.deferred q with
  | none =>
    have h := decideBody_free_of_ne (fun h => hop (by simp [h])) hd hb (he _) rfl
    exact ⟨h.go _ rfl, h.calls, h.loops, h.latch⟩
  | some tgt =>
    have h := (decideBody_pending hd hb rfl (closingEffect_of_plain fun hm => hop (by simp_all))).1
    exact ⟨h.go _ rfl, h.calls, h.loops, h.latch⟩

/-- Taking a latch changes neither the stacks nor the body. -/
theorem latchTaken_seq (q : Nat) (w : Micro) (s : State) : ((latchTaken q w s).q q).callStack = (s.q q).callStack ∧
    ((latchTaken q w s).q q).loopStack = (s.q q).loopStack := by
  unfold latchTaken
  split
  · rw [writeLatch_q]
    exact ⟨rfl, rfl⟩
  · exact ⟨rfl, rfl⟩

/-- A JCOND without a pending jump goes to TGT where its condition holds and on elsewhere. -/
theorem decideBody_jcond_free (hb : (s.q q).body = some b) (hop : mwOp b.word = 3) (hd : s.deferred q = none) :
    s.goes q b (if condHolds s q b.word = true then mwTgt b.word else b.addr + 1) (decideBody q b s) ∧
      ((decideBody q b s).q q).callStack = (s.q q).callStack ∧ ((decideBody q b s).q q).loopStack = (s.q q).loopStack ∧
      ((decideBody q b s).q q).latch = ((latchTaken q b.word s).q q).latch := by
  have h := decideBody_free hd hb (x := (latchTaken q b.word s).q q) rfl (stackEffect_of_jcond hop)
  obtain ⟨hcalls, hloops⟩ := latchTaken_seq q b.word s
  exact ⟨h.go _ rfl, h.calls.trans hcalls, h.loops.trans hloops, h.latch⟩

theorem latchTaken_of_cond {w : Micro} (h : mwCond w ≠ 2) : latchTaken q w s = s := if_neg (by simp [h])

theorem condHolds_always {w : Micro} (h : mwCond w = 0) : condHolds s q w = true := by
  simp only [condHolds, h]

theorem condHolds_never {w : Micro} (h : mwCond w = 1) : condHolds s q w = false := by
  simp only [condHolds, h]

theorem condHolds_latch {w : Micro} (h : mwCond w = 2) : condHolds s q w = s.latched q (mwTrg w) := by
  simp only [condHolds, h]

theorem condHolds_last {w : Micro} (h : mwCond w = 3) :
    condHolds s q w = decide (((s.q q).loopStack.head?.map (·.2)).getD 1 = 1) := by
  simp only [condHolds, h]
  cases (s.q q).loopStack.head?.map (·.2) <;> rfl

theorem condHolds_notLast {w : Micro} (h : mwCond w = 4) :
    condHolds s q w = decide (1 < ((s.q q).loopStack.head?.map (·.2)).getD 0) := by
  simp only [condHolds, h]
  cases (s.q q).loopStack.head?.map (·.2) <;> rfl

theorem latched_congr {s t : State} {q : Nat} (h : (t.q q).latch = (s.q q).latch) (trg : Nat) : t.latched q trg = s.latched q trg := by
  unfold State.latched
  rw [h]

/-- A taken latch is clear. -/
theorem latchTaken_latched (hop : mwOp b.word = 3) (hc : mwCond b.word = 2) (hl : s.latched q (mwTrg b.word) = true) :
    (latchTaken q b.word s).latched q (mwTrg b.word) = false := by
  have htaken : latchTaken q b.word s = writeLatch q (mwTrg b.word) false s :=
    if_pos (by simp [hop, hc, condHolds_latch hc, hl])
  rw [htaken]
  unfold State.latched
  rw [writeLatch_latch q _ false s _ (mwTrg_lt b.word), if_pos rfl, Bool.and_false]

end

/-! ### The obligations -/

/-- Settles O22: NEXT and JMP neither push nor pop; JCOND by the cases of its condition. -/
theorem flowWords : Obligations.FlowWords := by
  unfold Obligations.FlowWords
  intro s q
  refine ⟨⟨_, rfl, (decideWord_cases q 1 s).1, fun b hb => ?next⟩, ⟨_, rfl, (decideWord_cases q 2 s).1, fun b hb => ?jmp⟩,
    ⟨_, rfl, (decideWord_cases q 3 s).1, fun b hb => ?jcond⟩⟩
  all_goals
    have hbody := deciding_body hb
    have hop := deciding_op hb
    rw [decideWord_of_deciding hb]
  case next => exact decideBody_passes hbody (by rw [hop]; decide)
  case jmp => exact decideBody_jumps hbody (by rw [hop]; decide) fun x => stackEffect_of_jmp hop
  case jcond =>
    cases hd : s.deferred q with
    | some tgt =>
      have h := (decideBody_pending hd hbody rfl (closingEffect_of_plain (by rw [hop]; decide))).1
      refine ⟨h.calls, h.loops, fun a ha => ?_, nofun⟩
      obtain rfl := Option.some.inj ha
      exact ⟨h.go _ rfl, h.latch⟩
    | none =>
      obtain ⟨hgo, hcalls, hloops, hlatch⟩ := decideBody_jcond_free hbody hop hd
      refine ⟨hcalls, hloops, nofun, fun _ => ⟨fun hc => ?_, fun hc => ?_, fun hc => ?_, fun hc => ?_, fun hc => ?_, fun hc => ?_⟩⟩
      · rwa [condHolds_always hc, if_pos rfl] at hgo
      · rwa [condHolds_never hc, if_neg Bool.false_ne_true] at hgo
      · rw [condHolds_latch hc] at hgo
        split
        · next hl =>
          rw [if_pos hl] at hgo
          exact ⟨hgo, (latched_congr hlatch _).trans (latchTaken_latched hop hc hl)⟩
        · next hl => rwa [if_neg hl] at hgo
      · simpa only [condHolds_last hc, decide_eq_true_eq] using hgo
      · simpa only [condHolds_notLast hc, decide_eq_true_eq] using hgo
      · rw [hlatch, latchTaken_of_cond hc]

/-- Settles O24: LOOPB by the depth of the loop stack, LOOPE by its innermost frame. -/
theorem loopStack : Obligations.LoopStack := by
  unfold Obligations.LoopStack
  intro s q
  refine ⟨⟨_, rfl, (decideWord_cases q 6 s).1, fun b hb hd => ?loopb⟩, ⟨_, rfl, (decideWord_cases q 7 s).1, fun b hb hd => ?loope⟩⟩
  all_goals
    have hbody := deciding_body hb
    have hop := deciding_op hb
    have hne : mwOp b.word ≠ 3 := by rw [hop]; decide
    rw [decideWord_of_deciding hb]
  case loopb =>
    have he := stackEffect_of_loopb (q := q.val) (pc := b.addr) (taken := condHolds s q b.word) (x := s.q q) hop
    by_cases hdepth : (s.q q).loopStack.length < 4
    · have h := decideBody_free_of_ne hne hd hbody (he.trans (if_neg (by omega))) rfl
      rw [if_pos hdepth]
      exact ⟨⟨h.loops, h.go _ rfl, h.stack, h.loopL, h.loopH⟩, h.calls, h.latch⟩
    · have h := decideBody_free_of_ne hne hd hbody (he.trans (if_pos (by omega))) rfl
      rw [if_neg hdepth]
      exact ⟨⟨h.fault _ rfl, h.loops⟩, h.calls, h.latch⟩
  case loope =>
    cases hl : (s.q q).loopStack with
    | nil =>
      have h := decideBody_free_of_ne hne hd hbody (stackEffect_of_loope_empty hop hl) rfl
      exact ⟨nofun, fun _ => ⟨h.fault _ rfl, h.loops.trans hl⟩, h.calls, h.latch⟩
    | cons f l =>
      have he := stackEffect_of_loope (q := q.val) (pc := b.addr) (taken := condHolds s q b.word) hop hl
      by_cases hcount : 1 < f.2
      · have h := decideBody_free_of_ne hne hd hbody (he.trans (if_pos hcount)) rfl
        refine ⟨fun g hg => ?_, nofun, h.calls, h.latch⟩
        obtain rfl := Option.some.inj hg
        exact ⟨fun _ => ⟨h.loops, h.go _ rfl⟩, fun hle => absurd hcount (by omega)⟩
      · have h := decideBody_free_of_ne hne hd hbody (he.trans (if_neg hcount)) rfl
        refine ⟨fun g hg => ?_, nofun, h.calls, h.latch⟩
        obtain rfl := Option.some.inj hg
        exact ⟨fun hlt => absurd hlt hcount, fun _ => ⟨h.loops, h.go _ rfl⟩⟩

end Sys2Proof.Machine
end

section
/-! The call stack, and the park at the welt of a failing word (R68, R80). -/

namespace Sys2Proof.Machine

/-! ### The welt of a word that parks -/

section
variable {q : Nat} {s t : State} {b : Body}

theorem tailError_congr (h : t.qm = s.qm) (b : Body) (w : Nat) : t.tailError q b w = s.tailError q b w := by
  unfold State.tailError State.unitMap State.m
  rw [h]

theorem calRelease_qm (q : Nat) (s : State) : (calRelease q s).qm = s.qm :=
  List.foldlRecOn (motive := fun t : State => t.qm = s.qm) _ _ rfl fun t h i _ => by
    dsimp only
    split
    · exact h
    · exact h

theorem consumeRid_qm (q : Nat) (b : Body) (s : State) : (consumeRid q b s).qm = s.qm := by
  unfold consumeRid
  split
  · rfl
  · exact State.raise_qm _ _

theorem consumeRid_spares (q : Nat) (b : Body) (s : State) : s.spares q (consumeRid q b s) := by
  have hrid : sdRid b.desc < 2 ^ 15 := bitsAt_lt _ _ _
  have hrdy : R.MEM_RDY (sdRid b.desc / 16) < 0x100000 := by
    unfold R.MEM_RDY
    omega
  have hlast : ¬ownReg q (R.MEM_LAST_RID q) := fun h => by
    have hpage := ownReg_page h
    unfold quarterBase R.MEM_LAST_RID at hpage
    omega
  have hset : s.spares q (s.setFld (F.MEM_LAST_RID_RID q) (sdRid b.desc)) := setFld_spares s _ hlast
  unfold consumeRid
  exact ite_spares s (s.spares_refl q)
    (State.spares_trans (State.spares_trans hset (setReg_spares _ _ (centralReg_not_own hrdy))) (raise_spares _ _))

theorem endFetch_spares (q : Nat) (b : Body) (s : State) : s.spares q (endFetch q b s) :=
  ite_spares s (setM_spares s _ _) (discardJobs_spares q _ s)

theorem lqStop_spares (q c : Nat) (abort : Bool) (s : State) : s.spares q (lqStop c abort s) := by
  have hempty : s.spares q (showLq c ((s.setBit (F.CH_LQ_CFG_EN c) false).setChan c { s.chan c with lq := [], lqPos := 0 })) :=
    State.spares_trans (State.spares_trans (setBit_spares s _ (channelReg_not_own (k := 0x100) (by decide))) (setChan_spares _ _ _))
      (setFld_spares _ _ (channelReg_not_own (k := 0x10C) (by decide)))
  unfold lqStop
  exact ite_spares s (ite_spares s (State.spares_trans hempty (raise_spares _ _)) hempty) (s.spares_refl q)

theorem forceChan_spares (q c : Nat) (s : State) : s.spares q (forceChan c s) :=
  State.spares_trans (State.spares_trans (lqStop_spares q c true s) (setChan_spares _ _ _))
    (setBit_spares _ _ (channelReg_not_own (k := 0xC) (by decide)))

/-- A quarter with nothing in flight that has parked. -/
structure State.parkedAt (q : Nat) (t : State) : Prop where
  state : t.qstate q = 9
  body : (t.q q).body = none
  event : t.flagged (F.QSEQ_STAT_PARK_EVT q)

theorem State.parkedAt_spares {q : Nat} {s t : State} (h : s.parkedAt q) (hst : s.spares q t) : t.parkedAt q where
  state := by
    unfold State.qstate State.fld
    rw [hst.own (F.QSEQ_STAT_STATE q).addr (.inl rfl)]
    exact h.state
  body := by rw [hst.q]; exact h.body
  event := hst.grows.flagged h.event

theorem parkAt_parkedAt (q t goff : Nat) (aborted : Bool) (s : State) : (parkAt q t goff aborted s).parkedAt q := by
  obtain ⟨⟨hstate, ⟨x, hx⟩, -⟩, -, hevent⟩ := parkAt_settles q t goff aborted s
  exact ⟨hstate, by rw [hx]; rfl, hevent⟩

/-- A successor that parks: the quarter's park, with the channels forced where its fault state is open (Table 16-2). -/
theorem enterSucc_parkedAt {u : Succ} (h : u.park = true) (q t goff : Nat) (clk : List PinEntry) (smask : Nat) (s : State) :
    (enterSucc q t goff (some u) clk smask s).parkedAt q := by
  have hpark := parkAt_parkedAt q t goff false s
  unfold enterSucc
  dsimp only
  rw [if_pos h]
  split
  · exact State.parkedAt_spares hpark (forAll_spares q (f := fun i s => forceChan (q * 64 + i) s)
      (fun u i => forceChan_spares q (q * 64 + i) u) _ _)
  · exact hpark

theorem boundaryFirst_of_free (hpark : (s.q q).parkDue = none) (hheld : (s.q q).laceHeld = none) : boundaryFirst q s = s := by
  have hmoment : parkMoment q s = s := by
    unfold parkMoment
    rw [hpark]
  unfold boundaryFirst holdMoment State.heldAt
  rw [hmoment, hheld]
  exact if_neg (by simp)

/-- At the welt the body's bookkeeping comes first: its place, the calibration's channels, its RID, its records, its fetch. -/
def closedBody (q : Nat) (b : Body) (s : State) : State :=
  let s := consumeRid q b (calRelease q (s.setQ q { s.q q with prev := some (b.start, b.welt, s.ssn q) }))
  endFetch q b (summaries q b (b.len - 1) b.welt false (pushWaiting q s))

theorem closedBody_stopReq (q : Nat) (b : Body) (s : State) : ((closedBody q b s).q q).stopReq = (s.q q).stopReq := by
  have hrest : (s.setQ q { s.q q with prev := some (b.start, b.welt, s.ssn q) }).spares q (closedBody q b s) :=
    State.spares_trans (State.spares_trans (calRelease_spares q _) (consumeRid_spares q b _))
      (State.spares_trans (State.spares_trans (pushWaiting_spares q _) (summaries_spares q b _ _ _ _)) (endFetch_spares q b _))
  rw [hrest.q, State.q_setQ_same]

/-- The welt of a decided word of the program, no HALT, that nobody has stopped: its successor is entered. -/
theorem welt_of_decided (h : s.AtWelt q b) (hop : mwOp b.word ≠ 0x10) (hstop : (s.q q).stopReq = false) {u : Succ}
    (hu : b.succ = some u) :
    welt q s = enterSucc q b.welt (b.len - 1) (some u) (clockPins b) (mwSmask b.word) (closedBody q b s) := by
  obtain ⟨hbody, hrun, hplayed, hdue, hdecided, hheld, hpark, htail⟩ := h
  have hnow : (s.qstate q ≠ 1 || b.played < b.len || s.now < b.welt || !b.decided || s.heldAt q b.welt) = false := by
    unfold State.heldAt
    simp only [hrun, hdecided, hheld, ne_eq, not_true_eq_false, decide_false, Bool.not_true, Bool.or_false, Bool.false_or, Bool.or_eq_false_iff,
      decide_eq_false_iff_not]
    omega
  have hqm : (consumeRid q b (calRelease q (s.setQ q { s.q q with prev := some (b.start, b.welt, s.ssn q) }))).qm = s.qm :=
    (consumeRid_qm q b _).trans (calRelease_qm q _)
  have htail' : ¬(decide (b.len < b.segLen) && (consumeRid q b (calRelease q
      (s.setQ q { s.q q with prev := some (b.start, b.welt, s.ssn q) }))).tailError q b b.welt) = true := by
    rw [tailError_congr hqm]
    simp only [Bool.and_eq_true, decide_eq_true_eq, not_and, Bool.not_eq_true]
    exact htail
  have hlast := closedBody_stopReq q b s
  unfold closedBody at hlast ⊢
  unfold welt
  dsimp only
  rw [boundaryFirst_of_free hpark hheld]
  split
  · next hn => exact absurd (hbody.symm.trans hn) nofun
  · next c hc =>
    obtain rfl : c = b := Option.some.inj (hc.symm.trans hbody)
    rw [if_neg (by rw [hnow]; decide), if_neg htail', if_neg hop, if_neg (by rw [hlast, hstop]; decide), if_neg (by rw [hu]; simp), hu]

end

/-! ### CALL and RET -/

/-- Settles O23: CALL by the depth of the call stack, RET by its innermost address, and the park at the failing word's welt. -/
theorem callStack : Obligations.CallStack := by
  unfold Obligations.CallStack
  intro s q
  refine ⟨⟨_, rfl, (decideWord_cases q 4 s).1, fun b hb hd => ?call⟩, ⟨_, rfl, (decideWord_cases q 5 s).1, fun b hb hd => ?ret⟩,
    fun b u h hop hu hpark hstop => ?park⟩
  case call =>
    have hbody := deciding_body hb
    have hop := deciding_op hb
    have hne : mwOp b.word ≠ 3 := by rw [hop]; decide
    have he := stackEffect_of_call (q := q.val) (pc := b.addr) (taken := condHolds s q b.word) (x := s.q q) hop
    rw [decideWord_of_deciding hb]
    by_cases hdepth : (s.q q).callStack.length < 8
    · have h := decideBody_free_of_ne hne hd hbody (he.trans (if_neg (by omega))) rfl
      rw [if_pos hdepth]
      exact ⟨⟨h.calls, h.go _ rfl, h.stack⟩, h.loops, h.latch⟩
    · have h := decideBody_free_of_ne hne hd hbody (he.trans (if_pos (by omega))) rfl
      rw [if_neg hdepth]
      exact ⟨⟨h.fault _ rfl, h.calls⟩, h.loops, h.latch⟩
  case ret =>
    have hbody := deciding_body hb
    have hop := deciding_op hb
    have hne : mwOp b.word ≠ 3 := by rw [hop]; decide
    rw [decideWord_of_deciding hb]
    cases hcalls : (s.q q).callStack with
    | nil =>
      have h := decideBody_free_of_ne hne hd hbody (stackEffect_of_ret_empty hop hcalls) rfl
      exact ⟨nofun, fun _ => h.fault _ rfl, h.calls.trans hcalls, h.loops, h.latch⟩
    | cons a l =>
      have h := decideBody_free_of_ne hne hd hbody (stackEffect_of_ret hop hcalls) rfl
      refine ⟨fun c hc => ?_, nofun, h.calls, h.loops, h.latch⟩
      obtain rfl := Option.some.inj hc
      exact h.go _ rfl
  case park =>
    have hne : mwOp b.word ≠ 0x10 := by omega
    have hparked := enterSucc_parkedAt hpark q b.welt (b.len - 1) (clockPins b) (mwSmask b.word) (closedBody q b s)
    exact ⟨_, rfl, by rw [welt_of_decided h hne hstop hu]; exact ⟨hparked.state, hparked.body, hparked.event⟩⟩

end Sys2Proof.Machine
end

section
/-! The setting of latches: by a trigger edge, by FLAG_SET, and in the late window of a JCOND (R64, R66, R67). -/

namespace Sys2Proof.Machine

/-! ### What setting latches may change -/

/-- The registers that the latches of quarter q show: FLAG, the deferred jump, LATE. -/
def latchRegs (q : Nat) : List Nat := [R.QSEQ_FLAG q, R.QSEQ_DEFER q, R.QSEQ_LATE q]

/-- From `s` to `t` latches of quarter q are set: they, the latch's time, a late jump and a stall's end, and the registers that
show them. -/
structure State.latchKeeps (q : Nat) (s t : State) : Prop where
  regs : s.regsKept (latchRegs q) t
  others : ∀ k, k ≠ q → t.q k = s.q k
  held : (t.q q).laceHeld = (s.q q).laceHeld
  body : (t.q q).body.map (fun b => { b with lateTgt := none }) = (s.q q).body.map (fun b => { b with lateTgt := none })
  memory : s.memoryKept t
  frame : t = { s with regs := t.regs, copyB := t.copyB, copyC := t.copyC, hostRc := t.hostRc, spx1Rc := t.spx1Rc,
                       win := t.win, msgs := t.msgs, evcs := t.evcs, qs := t.qs }

theorem State.latchKeeps_refl (q : Nat) (s : State) : s.latchKeeps q s :=
  ⟨fun _ _ => rfl, fun _ _ => rfl, rfl, rfl, ⟨rfl, fun _ _ => rfl⟩, rfl⟩

theorem State.latchKeeps_trans {q : Nat} {s t u : State} (h1 : s.latchKeeps q t) (h2 : t.latchKeeps q u) : s.latchKeeps q u where
  regs := State.regsKept_trans h1.regs h2.regs
  others k hk := (h2.others k hk).trans (h1.others k hk)
  held := h2.held.trans h1.held
  body := h2.body.trans h1.body
  memory := State.memoryKept_trans h1.memory h2.memory
  frame := by
    refine h2.frame.trans ?_
    conv_lhs => rw [h1.frame]

section
variable {q : Nat} (s : State)

theorem setReg_latchKeeps {a : Nat} (v : Word) (h : a ∈ latchRegs q) : s.latchKeeps q (s.setReg a v) :=
  ⟨fun _ hb => State.reg_setReg_ne s v fun hba => hb (hba ▸ h), fun _ _ => rfl, rfl, rfl, ⟨rfl, fun _ _ => rfl⟩, rfl⟩

theorem addSat_latchKeeps {f : Fld} (n : Nat) (h : f.addr ∈ latchRegs q) : s.latchKeeps q (s.addSat f n) :=
  ⟨fun _ hb => State.reg_addSat_ne s n fun hba => hb (hba ▸ h), fun _ _ => rfl, rfl, rfl, ⟨rfl, fun _ _ => rfl⟩, rfl⟩

theorem setQ_latchKeeps {x : QSeq} (hheld : x.laceHeld = (s.q q).laceHeld)
    (hbody : x.body.map (fun b => { b with lateTgt := none }) = (s.q q).body.map (fun b => { b with lateTgt := none })) :
    s.latchKeeps q (s.setQ q x) :=
  ⟨fun _ _ => rfl, fun _ hk => State.q_setQ_ne s x hk, by rw [State.q_setQ_same, hheld], by rw [State.q_setQ_same, hbody],
    ⟨rfl, fun _ _ => rfl⟩, rfl⟩

theorem count_latchKeeps (src n : Nat) : s.latchKeeps q (s.count src n) := by
  have hev := count_eventsOnly s src n
  have hq : ∀ k, (s.count src n).q k = s.q k := fun k => by rw [hev.1]; rfl
  exact ⟨fun a _ => hev.reg a, fun k _ => hq k, by rw [hq], by rw [hq], ⟨by rw [hev.1], hev.2⟩, by
    refine hev.1.trans ?_
    conv_rhs => rw [hev.1]⟩

theorem fld_addSat (s : State) (f : Fld) (n : Nat) (h : f.lo + f.w ≤ 16) :
    (s.addSat f n).fld f = min (s.fld f + n) (2 ^ f.w - 1) := by
  have hpos := Nat.two_pow_pos f.w
  unfold State.addSat
  rw [State.fld_setFld s f _ h, Nat.mod_eq_of_lt (by omega)]

theorem setDefer_latchKeeps (d : Option Nat) : s.latchKeeps q (setDefer q d s) := by
  unfold setDefer
  split <;> exact setReg_latchKeeps s _ (by simp [latchRegs])

theorem writeLatch_latchKeeps (trg : Nat) (b : Bool) : s.latchKeeps q (writeLatch q trg b s) := by
  unfold writeLatch showFlags
  dsimp only
  refine State.latchKeeps_trans (setQ_latchKeeps s ?_ ?_) (setReg_latchKeeps _ _ (.head _)) <;> rfl

end

/-! ### A latch in its late window -/

/-- Latch `trg` of quarter q is in the late window of the executing JCOND that waits on it (R66). -/
def State.lateFor (s : State) (q trg : Nat) : Prop :=
  ∃ b, (s.q q).body = some b ∧ mwOp b.word = 3 ∧ mwCond b.word = 2 ∧ mwTrg b.word = trg ∧ s.inLateWindow q b = true

theorem inLateWindow_congr {q : Nat} {s t : State} (hnow : t.now = s.now) (hheld : (t.q q).laceHeld = (s.q q).laceHeld) (b : Body) :
    t.inLateWindow q b = s.inLateWindow q b := by
  unfold State.inLateWindow
  rw [hheld, hnow]

theorem State.latchKeeps.now {q : Nat} {s t : State} (h : s.latchKeeps q t) : t.now = s.now := by rw [h.frame]

theorem lateFor_of_body {q trg : Nat} {s t : State} (hnow : t.now = s.now) (hheld : (t.q q).laceHeld = (s.q q).laceHeld)
    (hbody : (t.q q).body.map (fun b => { b with lateTgt := none }) = (s.q q).body.map (fun b => { b with lateTgt := none }))
    (h : t.lateFor q trg) : s.lateFor q trg := by
  obtain ⟨b, hb, hop, hcond, htrg, hwin⟩ := h
  rw [inLateWindow_congr hnow hheld] at hwin
  rw [hb, Option.map_some, eq_comm, Option.map_eq_some_iff] at hbody
  obtain ⟨c, hc, heq⟩ := hbody
  have hword : c.word = b.word := by injection heq
  have hsame : s.inLateWindow q c = s.inLateWindow q b := by
    change s.inLateWindow q { c with lateTgt := none } = s.inLateWindow q { b with lateTgt := none }
    rw [heq]
  exact ⟨c, hc, by rw [hword, hop], by rw [hword, hcond], by rw [hword, htrg], by rw [hsame, hwin]⟩

theorem State.latchKeeps.lateFor_iff {q : Nat} {s t : State} (h : s.latchKeeps q t) (trg : Nat) : t.lateFor q trg ↔ s.lateFor q trg :=
  ⟨lateFor_of_body h.now h.held h.body, lateFor_of_body h.now.symm h.held.symm h.body.symm⟩

/-- What a latch that comes late does: it is counted, and becomes the pending jump, with the decision where that is still to
come (R66, R67). -/
def lateLatch (q : Nat) (b : Body) (s : State) : State :=
  let u := (s.addSat (F.QSEQ_LATE_LATE_CNT q) 1).count (0x20 + q) 1
  if b.decided then setDefer q (some (mwTgt b.word)) u else u.setQ q { s.q q with body := some { b with lateTgt := some (mwTgt b.word) } }

/-- A latch that comes in time is set, and ends a stall that waits on it (R64, R71). -/
def latchNow (q trg : Nat) (s : State) : State :=
  let u := writeLatch q trg true s
  if (s.q q).body.isSome then u else u.setQ q { u.q q with stall := (u.q q).stall.map (stallOnLatch u.now trg) }

section
variable {q trg : Nat} {s : State} {b : Body}

theorem setLatch_of_set (h : trg = 0 ∨ 256 ≤ trg ∨ s.latched q trg = true) : setLatch q trg s = s :=
  if_pos (by
    simp only [Bool.or_eq_true, decide_eq_true_eq]
    tauto)

theorem setLatch_of_late (hpos : trg ≠ 0) (hclear : s.latched q trg = false) (hb : (s.q q).body = some b) (hop : mwOp b.word = 3)
    (hcond : mwCond b.word = 2) (htrg : mwTrg b.word = trg) (hwin : s.inLateWindow q b = true) :
    setLatch q trg s = lateLatch q b s := by
  have hlt : trg < 256 := htrg ▸ mwTrg_lt b.word
  have hwait : (mwOp b.word = 3 && mwCond b.word = 2 && mwTrg b.word = trg && s.inLateWindow q b) = true := by
    simp [hop, hcond, htrg, hwin]
  unfold setLatch lateLatch
  rw [if_neg (by simp [hpos, hclear, hlt])]
  dsimp only
  rw [hb]
  dsimp only
  rw [if_pos hwait]

theorem setLatch_of_onTime (hpos : trg ≠ 0) (hlt : trg < 256) (hclear : s.latched q trg = false) (hlate : ¬s.lateFor q trg) :
    setLatch q trg s = latchNow q trg s := by
  unfold setLatch latchNow
  rw [if_neg (by simp [hpos, hclear, hlt])]
  dsimp only
  cases hb : (s.q q).body with
  | none => rfl
  | some b =>
    dsimp only
    rw [if_neg, Option.isSome_some, if_pos rfl]
    intro hwait
    simp only [Bool.and_eq_true, decide_eq_true_eq] at hwait
    obtain ⟨⟨⟨hop, hcond⟩, htrg⟩, hwin⟩ := hwait
    exact hlate ⟨b, hb, hop, hcond, htrg, hwin⟩

end

/-- From `s` to `t` the triggers of the list `l` set latches of quarter q. -/
structure State.latchesSet (q : Nat) (l : List Nat) (s t : State) : Prop where
  keeps : s.latchKeeps q t
  rest : ∀ j, j ∉ l → (t.q q).latch.getLsbD j = (s.q q).latch.getLsbD j
  grow : ∀ j, (s.q q).latch.getLsbD j = true → (t.q q).latch.getLsbD j = true
  onTime : ∀ trg ∈ l, trg ≠ 0 → trg < 256 → ¬s.lateFor q trg → (t.q q).latch.getLsbD trg = true
  steady : (∀ trg ∈ l, ¬s.lateFor q trg) → (t.q q).body = (s.q q).body ∧ t.deferred q = s.deferred q
  late : ∀ b, (s.q q).body = some b → b.decided = true → s.lateFor q (mwTrg b.word) → mwTrg b.word ≠ 0 → mwTrg b.word ∈ l →
    s.latched q (mwTrg b.word) = false →
    t.latched q (mwTrg b.word) = false ∧ (t.q q).body = some b ∧ t.deferred q = some (mwTgt b.word)

theorem State.latchesSet_nil (q : Nat) (s : State) : s.latchesSet q [] s :=
  ⟨s.latchKeeps_refl q, fun _ _ => rfl, fun _ h => h, nofun, fun _ => ⟨rfl, rfl⟩, fun _ _ _ _ _ h => absurd h List.not_mem_nil⟩

/-- Where the executing word waits on another latch, none of these is late. -/
theorem not_lateFor_of_notMem {q : Nat} {l : List Nat} {s : State} {b : Body} (hb : (s.q q).body = some b)
    (hl : mwTrg b.word ∉ l) : ∀ trg ∈ l, ¬s.lateFor q trg := by
  rintro trg htrg ⟨c, hc, -, -, rfl, -⟩
  obtain rfl := Option.some.inj (hb.symm.trans hc)
  exact hl htrg

theorem latched_eq_of_bit {q trg : Nat} {s t : State} (h : (t.q q).latch.getLsbD trg = (s.q q).latch.getLsbD trg) :
    t.latched q trg = s.latched q trg := by
  unfold State.latched
  rw [h]

theorem State.latchesSet_append {q : Nat} {l1 l2 : List Nat} {s t u : State} (h1 : s.latchesSet q l1 t) (h2 : t.latchesSet q l2 u) :
    s.latchesSet q (l1 ++ l2) u where
  keeps := State.latchKeeps_trans h1.keeps h2.keeps
  rest j hj := by
    rw [List.mem_append, not_or] at hj
    exact (h2.rest j hj.2).trans (h1.rest j hj.1)
  grow j hj := h2.grow j (h1.grow j hj)
  onTime trg htrg hpos hlt hlate := by
    rcases List.mem_append.1 htrg with hm | hm
    · exact h2.grow trg (h1.onTime trg hm hpos hlt hlate)
    · exact h2.onTime trg hm hpos hlt (by rwa [h1.keeps.lateFor_iff])
  steady hlate := by
    obtain ⟨hbody1, hdefer1⟩ := h1.steady fun trg hm => hlate trg (List.mem_append_left _ hm)
    obtain ⟨hbody2, hdefer2⟩ := h2.steady fun trg hm => by
      rw [h1.keeps.lateFor_iff]
      exact hlate trg (List.mem_append_right _ hm)
    exact ⟨hbody2.trans hbody1, hdefer2.trans hdefer1⟩
  late b hb hdecided hlate hpos hmem hclear := by
    have hlate' : t.lateFor q (mwTrg b.word) := (h1.keeps.lateFor_iff _).2 hlate
    by_cases hm1 : mwTrg b.word ∈ l1
    · obtain ⟨hclear', hb', hdefer⟩ := h1.late b hb hdecided hlate hpos hm1 hclear
      by_cases hm2 : mwTrg b.word ∈ l2
      · exact h2.late b hb' hdecided hlate' hpos hm2 hclear'
      · obtain ⟨hbody, hdefer'⟩ := h2.steady (not_lateFor_of_notMem hb' hm2)
        exact ⟨(latched_eq_of_bit (h2.rest _ hm2)).trans hclear', hbody.trans hb', hdefer'.trans hdefer⟩
    · obtain ⟨hbody, -⟩ := h1.steady (not_lateFor_of_notMem hb hm1)
      exact h2.late b (hbody.trans hb) hdecided hlate' hpos ((List.mem_append.1 hmem).resolve_left hm1)
        ((latched_eq_of_bit (h1.rest _ hm1)).trans hclear)

/-! ### One latch -/

section
variable {q : Nat} {s : State}

theorem lateLatch_latchKeeps {b : Body} (hb : (s.q q).body = some b) : s.latchKeeps q (lateLatch q b s) := by
  have hcount : s.latchKeeps q ((s.addSat (F.QSEQ_LATE_LATE_CNT q) 1).count (0x20 + q) 1) :=
    State.latchKeeps_trans (addSat_latchKeeps s 1 (by simp [latchRegs, F.QSEQ_LATE_LATE_CNT])) (count_latchKeeps _ _ _)
  have hq : ((s.addSat (F.QSEQ_LATE_LATE_CNT q) 1).count (0x20 + q) 1).q q = s.q q := by
    rw [State.q, State.count_qs]
    rfl
  unfold lateLatch
  dsimp only
  split
  · exact State.latchKeeps_trans hcount (setDefer_latchKeeps _ _)
  · exact State.latchKeeps_trans hcount (setQ_latchKeeps _ (by rw [hq]) (by rw [hq, hb]; rfl))

/-- A late latch leaves the latches, and with the decision made it is the pending jump. -/
theorem lateLatch_settles {b : Body} (hb : (s.q q).body = some b) :
    let t := lateLatch q b s
    (t.q q).latch = (s.q q).latch ∧
      (b.decided = true → (t.q q).body = some b ∧ t.deferred q = some (mwTgt b.word)) ∧
      (b.decided = false → (t.q q).body = some { b with lateTgt := some (mwTgt b.word) } ∧ t.deferred q = s.deferred q) ∧
      t.fld (F.QSEQ_LATE_LATE_CNT q) = min (s.fld (F.QSEQ_LATE_LATE_CNT q) + 1) (2 ^ (F.QSEQ_LATE_LATE_CNT q).w - 1) := by
  intro t
  obtain ⟨u, hu⟩ : ∃ u, (s.addSat (F.QSEQ_LATE_LATE_CNT q) 1).count (0x20 + q) 1 = u := ⟨_, rfl⟩
  have hev := count_eventsOnly (s.addSat (F.QSEQ_LATE_LATE_CNT q) 1) (0x20 + q) 1
  rw [hu] at hev
  have hq : u.q q = s.q q := by rw [hev.1]; rfl
  have hdefer : u.reg (R.QSEQ_DEFER q) = s.reg (R.QSEQ_DEFER q) := by
    rw [hev.reg]
    exact State.reg_addSat_ne s 1 (by unfold F.QSEQ_LATE_LATE_CNT R.QSEQ_LATE R.QSEQ_DEFER; dsimp only; omega)
  have hcnt : u.fld (F.QSEQ_LATE_LATE_CNT q) = min (s.fld (F.QSEQ_LATE_LATE_CNT q) + 1) (2 ^ (F.QSEQ_LATE_LATE_CNT q).w - 1) := by
    rw [← fld_addSat s (F.QSEQ_LATE_LATE_CNT q) 1 (show 0 + 16 ≤ 16 by decide)]
    unfold State.fld
    rw [hev.reg]
  by_cases hd : b.decided = true
  · have ht : t = setDefer q (some (mwTgt b.word)) u := by
      rw [← hu]
      exact if_pos hd
    have hlate : t.reg (R.QSEQ_LATE q) = u.reg (R.QSEQ_LATE q) := by
      rw [ht]
      exact (setDefer_keeps q _ u).2.2.2 _ (by unfold R.QSEQ_LATE R.QSEQ_DEFER; omega)
    have hseq : t.q q = s.q q := by rw [ht, setDefer_q, hq]
    refine ⟨by rw [hseq], fun _ => ⟨by rw [hseq, hb], ?_⟩, fun hn => absurd hd (by simp [hn]), (congrArg (fieldOf · 0 16) hlate).trans hcnt⟩
    rw [ht]
    exact deferred_setDefer_some u (mwTgt_lt b.word)
  · have ht : t = u.setQ q { s.q q with body := some { b with lateTgt := some (mwTgt b.word) } } := by
      rw [← hu]
      exact if_neg hd
    rw [ht, State.q_setQ_same]
    exact ⟨rfl, fun hn => absurd hn hd, fun _ => ⟨rfl, deferred_congr hdefer⟩, hcnt⟩

theorem latchNow_latchKeeps (trg : Nat) : s.latchKeeps q (latchNow q trg s) := by
  unfold latchNow
  dsimp only
  have h := writeLatch_latchKeeps (q := q) s trg true
  split
  · exact h
  · exact State.latchKeeps_trans h (setQ_latchKeeps _ rfl rfl)

/-- A latch that is set in time: it alone changes, and no jump becomes pending. -/
theorem latchNow_settles (trg : Nat) :
    let t := latchNow q trg s
    (∀ j, j < 256 → (t.q q).latch.getLsbD j = if j = trg then true else (s.q q).latch.getLsbD j) ∧
      (t.q q).body = (s.q q).body ∧ t.deferred q = s.deferred q := by
  have hbody : ((writeLatch q trg true s).q q).body = (s.q q).body := by rw [writeLatch_q]
  have hdefer : (writeLatch q trg true s).deferred q = s.deferred q :=
    deferred_congr (State.reg_setReg_ne _ _ (by unfold R.QSEQ_FLAG R.QSEQ_DEFER; omega))
  unfold latchNow
  dsimp only
  split
  · exact ⟨fun j hj => writeLatch_latch q trg true s j hj, hbody, hdefer⟩
  · rw [State.q_setQ_same]
    exact ⟨fun j hj => writeLatch_latch q trg true s j hj, hbody, hdefer⟩

theorem setLatch_latchesSet (q trg : Nat) (s : State) : s.latchesSet q [trg] (setLatch q trg s) := by
  by_cases hset : trg = 0 ∨ 256 ≤ trg ∨ s.latched q trg = true
  · rw [setLatch_of_set hset]
    refine ⟨s.latchKeeps_refl q, fun _ _ => rfl, fun _ h => h, fun a ha hpos hlt _ => ?_, fun _ => ⟨rfl, rfl⟩,
      fun b hb _ _ hpos hmem hclear => ?_⟩
    · obtain rfl := List.mem_singleton.1 ha
      have hl := (hset.resolve_left hpos).resolve_left (by omega)
      unfold State.latched at hl
      exact (Bool.and_eq_true_iff.1 hl).2
    · have htrg := List.mem_singleton.1 hmem
      have hlt := mwTrg_lt b.word
      rw [← htrg] at hset
      exact absurd hclear (by rw [(hset.resolve_left hpos).resolve_left (by omega)]; decide)
  · simp only [not_or, Nat.not_le, Bool.not_eq_true] at hset
    obtain ⟨hpos, hlt, hclear⟩ := hset
    by_cases hlate : s.lateFor q trg
    · obtain ⟨b, hb, hop, hcond, htrg, hwin⟩ := hlate
      rw [setLatch_of_late hpos hclear hb hop hcond htrg hwin]
      have hlate : s.lateFor q trg := ⟨b, hb, hop, hcond, htrg, hwin⟩
      obtain ⟨hlatch, hdecided, -, -⟩ := lateLatch_settles hb
      refine ⟨lateLatch_latchKeeps hb, fun _ _ => by rw [hlatch], fun _ h => by rwa [hlatch], fun a ha _ _ hn => ?_, fun hn => ?_,
        fun c hc hd _ _ _ hcl => ?_⟩
      · exact absurd (List.mem_singleton.1 ha ▸ hlate) hn
      · exact absurd hlate (hn trg (List.mem_singleton.2 rfl))
      · obtain rfl := Option.some.inj (hb.symm.trans hc)
        exact ⟨(latched_congr hlatch _).trans hcl, hdecided hd⟩
    · rw [setLatch_of_onTime hpos hlt hclear hlate]
      obtain ⟨hlatch, hbody, hdefer⟩ := latchNow_settles (q := q) (s := s) trg
      have hbit : ∀ j, ((latchNow q trg s).q q).latch.getLsbD j = if j = trg then true else (s.q q).latch.getLsbD j := fun j => by
        by_cases hj : j < 256
        · exact hlatch j hj
        · rw [BitVec.getLsbD_of_ge _ _ (by omega), if_neg (by omega), BitVec.getLsbD_of_ge _ _ (by omega)]
      refine ⟨latchNow_latchKeeps trg, fun j hj => ?_, fun j hj => ?_, fun a ha _ _ _ => ?_, fun _ => ⟨hbody, hdefer⟩,
        fun b _ _ hl _ hmem => absurd (List.mem_singleton.1 hmem ▸ hl) hlate⟩
      · rw [hbit, if_neg (by simpa using hj)]
      · rw [hbit]
        split
        · rfl
        · exact hj
      · rw [hbit, if_pos (List.mem_singleton.1 ha)]

theorem setLatches_latchesSet (q : Nat) (f : Nat → Nat) (l : List Nat) (s : State) :
    s.latchesSet q (l.map f) (forAll l (fun i s => setLatch q (f i) s) s) := by
  unfold forAll
  induction l generalizing s with
  | nil => exact s.latchesSet_nil q
  | cons i l ih => exact State.latchesSet_append (setLatch_latchesSet q (f i) s) (ih _)

end

end Sys2Proof.Machine
end

section
/-! Trigger edges and the FLAG commands (R64, R66, R252, R333). -/

namespace Sys2Proof.Machine

/-! ### The FLAG commands -/

/-- What the part has heard when a write to a command register of quarter q's page acts that stores nothing. -/
def flagHeard (m : Master) (a : Nat) (s : State) : State := noteCycle m a 0 (hostTlps m true s)

theorem flagHeard_commanded (m : Master) (a : Nat) (s : State) : s.commanded m (flagHeard m a s) :=
  ⟨rfl, fun b => (hostTlps_eventsOnly m true s).reg b⟩

theorem State.commanded.plainFrame {m : Master} {s u : State} (h : s.commanded m u) :
    u = { s with regs := u.regs, copyB := u.copyB, copyC := u.copyC, hostRc := u.hostRc, spx1Rc := u.spx1Rc,
                 cycle := u.cycle, win := u.win, msgs := u.msgs, evcs := u.evcs } := by
  have hev := congrArg (fun v : State => { v with regs := u.regs, copyB := u.copyB, copyC := u.copyC, cycle := u.cycle }) h.events.1
  exact hev

/-- The latches that a write to a FLAG register names. -/
def flagBits (w : Word) : List Nat := (List.range 16).filter w.getLsbD

theorem mem_flagBits {w : Word} {i : Nat} : i ∈ flagBits w ↔ i < 16 ∧ w.getLsbD i = true := by
  unfold flagBits
  rw [List.mem_filter, List.mem_range]

/-- A command register of quarter q's page, whose write stores nothing and acts on all its bits. -/
theorem busReg_command {m : Master} {q : Fin 16} {o : Nat} {r : RegRow} {mask data : Word} {s : State}
    (hp : plainReg (quarterBase q.val + o) r none = true) (hrw : r.rw = 0) (ho : o < 0x100)
    (h : s.Takes m (quarterBase q.val + o)) : busReg m (quarterBase q.val + o) mask data s =
      (wrQseq q.val o ⟨m, quarterBase q.val + o, mask, data, r.rw, r.wt, granuleNext s.now⟩
        (flagHeard m (quarterBase q.val + o) s)).1 := by
  have hq := q.isLt
  have ha : 0x100000 ≤ quarterBase q.val + o := by
    unfold quarterBase
    omega
  have hindex : (quarterBase q.val + o - 0x100000) / 0x10000 = q.val := by
    unfold quarterBase
    omega
  have hoffset : (quarterBase q.val + o) % 0x10000 = o := by
    unfold quarterBase
    omega
  have hmask : mask &&& BitVec.ofNat 16 r.rw = 0 := by
    rw [hrw]
    exact BitVec.and_zero
  rw [busReg_plain mask data hp h, applyReg_quarter mask data _ _ (plainReg_row hp) ha, hmask]
  unfold wrQuarter
  dsimp only
  rw [hindex, hoffset, if_pos (by omega)]
  rfl

theorem flagStart (mask data : Word) : mask &&& data &&& BitVec.ofNat 16 65535 = mask &&& data := BitVec.and_allOnes

theorem busReg_flagSet {m : Master} {q : Fin 16} {mask data : Word} {s : State} (h : s.Takes m (R.QSEQ_FLAG_SET q.val)) :
    busReg m (R.QSEQ_FLAG_SET q.val) mask data s =
      forAll (flagBits (mask &&& data)) (fun i s => setLatch q.val (0x80 + i) s) (flagHeard m (R.QSEQ_FLAG_SET q.val) s) := by
  refine (busReg_command (plain_QSEQ_FLAG_SET q) rfl (by decide) h).trans ?_
  unfold wrQseq Wr.start flagBits
  dsimp only
  rw [flagStart]
  rfl

theorem busReg_flagClr {m : Master} {q : Fin 16} {mask data : Word} {s : State} (h : s.Takes m (R.QSEQ_FLAG_CLR q.val)) :
    busReg m (R.QSEQ_FLAG_CLR q.val) mask data s =
      forAll (flagBits (mask &&& data)) (fun i s => writeLatch q.val (0x80 + i) false s) (flagHeard m (R.QSEQ_FLAG_CLR q.val) s) := by
  refine (busReg_command (plain_QSEQ_FLAG_CLR q) rfl (by decide) h).trans ?_
  unfold wrQseq Wr.start flagBits
  dsimp only
  rw [flagStart]
  rfl

/-- From `s` to `t` the latches of the list `l` of quarter q are cleared. -/
structure State.latchesCleared (q : Nat) (l : List Nat) (s t : State) : Prop where
  bit : ∀ j, j < 256 → (t.q q).latch.getLsbD j = ((s.q q).latch.getLsbD j && !decide (j ∈ l))
  regs : s.regsKept [R.QSEQ_FLAG q] t
  others : ∀ k, k ≠ q → t.q k = s.q k
  frame : t = { s with regs := t.regs, copyB := t.copyB, copyC := t.copyC, qs := t.qs }

theorem writeLatch_cleared (q trg : Nat) (s : State) : s.latchesCleared q [trg] (writeLatch q trg false s) where
  bit j hj := by
    rw [writeLatch_latch q trg false s j hj]
    by_cases h : j = trg <;> simp [h]
  regs a ha := by
    unfold writeLatch showFlags
    exact State.reg_setReg_ne _ _ (by simpa using ha)
  others k hk := by
    unfold writeLatch showFlags
    exact State.q_setQ_ne _ _ hk
  frame := rfl

theorem clearLatches_cleared (q : Nat) (f : Nat → Nat) (l : List Nat) (s : State) :
    s.latchesCleared q (l.map f) (forAll l (fun i s => writeLatch q (f i) false s) s) := by
  unfold forAll
  induction l generalizing s with
  | nil => exact ⟨fun j _ => by simp, fun _ _ => rfl, fun _ _ => rfl, rfl⟩
  | cons i l ih =>
    obtain ⟨hbit1, hregs1, hothers1, hframe1⟩ := writeLatch_cleared q (f i) s
    obtain ⟨hbit2, hregs2, hothers2, hframe2⟩ := ih (writeLatch q (f i) false s)
    refine ⟨fun j hj => (hbit2 j hj).trans ?_, State.regsKept_trans hregs1 hregs2,
      fun k hk => (hothers2 k hk).trans (hothers1 k hk), hframe2.trans ?_⟩
    · simp only [hbit1 j hj, Bool.and_assoc, ← Bool.not_or, List.map_cons, List.mem_cons, List.not_mem_nil, or_false, Bool.decide_or]
    · conv_lhs => rw [hframe1]
      rfl

/-! ### Trigger edges -/

/-- From `s` to `t` quarter q's sequencer stands, with its deferred jump and its count of late latches, and memory. -/
structure State.apart (q : Nat) (s t : State) : Prop where
  seq : t.q q = s.q q
  defer : t.reg (R.QSEQ_DEFER q) = s.reg (R.QSEQ_DEFER q)
  late : t.reg (R.QSEQ_LATE q) = s.reg (R.QSEQ_LATE q)
  now : t.now = s.now
  memory : s.memoryKept t

theorem State.apart_refl (q : Nat) (s : State) : s.apart q s := ⟨rfl, rfl, rfl, rfl, rfl, fun _ _ => rfl⟩

theorem State.apart_trans {q : Nat} {s t u : State} (h1 : s.apart q t) (h2 : t.apart q u) : s.apart q u :=
  ⟨h2.seq.trans h1.seq, h2.defer.trans h1.defer, h2.late.trans h1.late, h2.now.trans h1.now, State.memoryKept_trans h1.memory h2.memory⟩

theorem State.latchKeeps.apart {q k : Nat} {s t : State} (h : s.latchKeeps q t) (hk : k ≠ q) : s.apart k t where
  seq := h.others k hk
  defer := h.regs _ fun hm => by
    simp only [latchRegs, R.QSEQ_FLAG, R.QSEQ_DEFER, R.QSEQ_LATE, quarterBase, List.mem_cons, List.not_mem_nil, or_false] at hm
    omega
  late := h.regs _ fun hm => by
    simp only [latchRegs, R.QSEQ_FLAG, R.QSEQ_DEFER, R.QSEQ_LATE, quarterBase, List.mem_cons, List.not_mem_nil, or_false] at hm
    omega
  now := h.now
  memory := h.memory

theorem State.eventsOnly.apart {s t : State} (h : s.eventsOnly t) (q : Nat) : s.apart q t :=
  ⟨by rw [h.1]; rfl, h.reg _, h.reg _, by rw [h.1], by rw [h.1], h.2⟩

theorem ite_apart {q : Nat} {s t u : State} {c : Prop} {_ : Decidable c} (ht : s.apart q t) (hu : s.apart q u) :
    s.apart q (if c then t else u) := by
  split
  · exact ht
  · exact hu

theorem setFld_apart {q : Nat} (s : State) {f : Fld} (n : Nat) (h : f.addr < 0x100000) : s.apart q (s.setFld f n) :=
  ⟨rfl, State.reg_setFld_ne s n (by unfold R.QSEQ_DEFER quarterBase; omega),
    State.reg_setFld_ne s n (by unfold R.QSEQ_LATE quarterBase; omega), rfl, rfl, fun _ _ => rfl⟩

section
variable (q : Nat) (s : State)

theorem laceRequest_apart (who type num arg b : Nat) : s.apart q (laceRequest who type num arg b s) := by
  unfold laceRequest
  exact ite_apart ⟨rfl, rfl, rfl, rfl, rfl, fun _ _ => rfl⟩ (ite_apart ((raise_eventsOnly s _).apart q) (s.apart_refl q))

theorem forwardEdge_apart (n trg : Nat) : s.apart q (forwardEdge n trg s) := by
  unfold forwardEdge
  exact ite_apart (laceRequest_apart q s _ _ _ _ _) (s.apart_refl q)

theorem startExit_apart : s.apart q (startExit s) := by
  have hregs : s.apart q ((s.setBit F.PWR_STAT_EXITING true).setFld F.PWR_VID_CUR 0x64) :=
    State.apart_trans (setFld_apart (f := F.PWR_STAT_EXITING) s _ (by decide)) (setFld_apart _ _ (by decide))
  have hpwr : ∀ (u : State) (x : Pwr) (y : Thm), s.apart q u → s.apart q { u with pwr := x, thm := y } := fun u x y h =>
    State.apart_trans h ⟨rfl, rfl, rfl, rfl, rfl, fun _ _ => rfl⟩
  have hboot : ∀ (u : State) (x : Boot), s.apart q u → s.apart q { u.setFld F.CHIP_BOOT_STAT_STEP 2 with boot := x } := fun u x h =>
    State.apart_trans (State.apart_trans h (setFld_apart (f := F.CHIP_BOOT_STAT_STEP) u 2 (by decide)))
      ⟨rfl, rfl, rfl, rfl, rfl, fun _ _ => rfl⟩
  unfold startExit
  exact ite_apart (hboot _ _ (hpwr _ _ _ hregs)) (hpwr _ _ _ hregs)

theorem wakeEvent_apart (bit : Nat) : s.apart q (wakeEvent bit s) := by
  have hmask : s.apart q (s.raiseMask R.PWR_WAKE_SRC (BitVec.ofNat 16 (2 ^ bit))) := (raiseMask_eventsOnly s _ _).apart q
  have hraise : ∀ u : State, s.apart q u → s.apart q (u.raise F.PWR_STAT_STATE_EVT) := fun u h =>
    State.apart_trans h ((raise_eventsOnly u _).apart q)
  have hlatch : ∀ (u : State) (x : Pwr), s.apart q u → s.apart q { u with pwr := x } := fun u x h =>
    State.apart_trans h ⟨rfl, rfl, rfl, rfl, rfl, fun _ _ => rfl⟩
  unfold wakeEvent
  exact ite_apart (s.apart_refl q) (ite_apart hmask (ite_apart (hlatch _ _ (hraise _ hmask))
    (ite_apart hmask (State.apart_trans (hraise _ hmask) (startExit_apart q _)))))

theorem setLatches_apart (trg : Nat) (l : List Nat) (h : q ∉ l) : s.apart q (forAll l (fun k s => setLatch k trg s) s) := by
  unfold forAll
  induction l generalizing s with
  | nil => exact s.apart_refl q
  | cons k l ih =>
    simp only [List.mem_cons, not_or] at h
    exact State.apart_trans ((setLatch_latchesSet k trg s).keeps.apart h.1) (ih _ h.2)

end

/-- A trigger edge sets quarter q's latch, and the rest of what it does is apart from quarter q. -/
theorem triggerEdge_splits {trg : Nat} (hpos : trg ≠ 0) (hle : trg ≤ 0x18) (q : Fin 16) (s : State) :
    ∃ u, s.apart q.val u ∧ (setLatch q.val trg u).apart q.val (triggerEdge trg s) := by
  obtain ⟨l1, l2, hl⟩ := List.append_of_mem (List.mem_range.2 q.isLt)
  have hnodup := hl ▸ List.nodup_range (n := 16)
  have h1 : q.val ∉ l1 := fun h => by
    rw [List.nodup_append] at hnodup
    exact hnodup.2.2 _ h _ List.mem_cons_self rfl
  have h2 : q.val ∉ l2 := by
    rw [List.nodup_append, List.nodup_cons] at hnodup
    exact hnodup.2.1.1
  refine ⟨forAll l1 (fun k s => setLatch k trg s) s, setLatches_apart q.val s trg l1 h1, ?_⟩
  have hall : setLatchAll trg s =
      forAll l2 (fun k s => setLatch k trg s) (setLatch q.val trg (forAll l1 (fun k s => setLatch k trg s) s)) := by
    unfold setLatchAll forAll
    rw [hl, List.foldl_append, List.foldl_cons]
  have hlatches := setLatches_apart q.val (setLatch q.val trg (forAll l1 (fun k s => setLatch k trg s) s)) trg l2 h2
  have hforward : ∀ v : State, v.apart q.val (forAll (List.range 8) (fun n s => forwardEdge n trg s) v) := fun v =>
    List.foldlRecOn (motive := fun w : State => v.apart q.val w) _ _ (v.apart_refl q.val)
      fun w h n _ => State.apart_trans h (forwardEdge_apart q.val w n trg)
  unfold triggerEdge
  rw [if_neg (by simp [hpos]; omega), hall]
  dsimp only
  refine State.apart_trans (State.apart_trans hlatches (hforward _)) ?_
  split
  · exact wakeEvent_apart q.val _ 3
  · exact State.apart_refl q.val _

end Sys2Proof.Machine
end

section
/-! The flags and trigger edges, and the deferred jumps (R64 to R67, R252). -/

namespace Sys2Proof.Machine

/-! ### FLAG_SET, FLAG_CLR and trigger edges -/

/-- The FLAG latches that a write names. -/
theorem mem_flagLatches {w : Word} {k : Nat} :
    k ∈ (flagBits w).map (fun i => 0x80 + i) ↔ 0x80 ≤ k ∧ k < 0x90 ∧ w.getLsbD (k - 0x80) = true := by
  simp only [List.mem_map, mem_flagBits]
  constructor
  · rintro ⟨i, ⟨hi, hw⟩, rfl⟩
    exact ⟨by omega, by omega, by rwa [Nat.add_sub_cancel_left]⟩
  · rintro ⟨h1, h2, hw⟩
    exact ⟨k - 0x80, ⟨by omega, hw⟩, by omega⟩

theorem flagLatch_mem {w : Word} {i : Nat} (hi : i < 16) : 0x80 + i ∈ (flagBits w).map (fun i => 0x80 + i) ↔ w.getLsbD i = true := by
  rw [mem_flagLatches, Nat.add_sub_cancel_left]
  exact ⟨fun h => h.2.2, fun h => ⟨by omega, by omega, h⟩⟩

/-- A word that does not wait on the latch, or is not in its late window. -/
theorem not_lateFor_of {q trg : Nat} {s : State} (h : ∀ b, (s.q q).body = some b → mwOp b.word ≠ 0x03 ∨ mwCond b.word ≠ 2 ∨
    mwTrg b.word ≠ trg ∨ s.inLateWindow q b = false) : ¬s.lateFor q trg := by
  rintro ⟨b, hb, hop, hcond, htrg, hwin⟩
  rcases h b hb with h | h | h | h
  · exact h hop
  · exact h hcond
  · exact h htrg
  · exact absurd hwin (by simp [h])

section
variable {q : Nat} {s u t : State}

theorem lateFor_congr (hseq : u.q q = s.q q) (hnow : u.now = s.now) (trg : Nat) : u.lateFor q trg ↔ s.lateFor q trg := by
  unfold State.lateFor State.inLateWindow
  rw [hseq, hnow]

/-- The rules of `latchesSet` on a state whose sequencer is that of `s`. -/
theorem State.latchesSet.bit {l : List Nat} {trg : Nat} (h : u.latchesSet q l t) (hseq : u.q q = s.q q) (hnow : u.now = s.now)
    (hpos : trg ≠ 0) (hlt : trg < 256) (hlate : ¬s.lateFor q trg) :
    (t.q q).latch.getLsbD trg = ((s.q q).latch.getLsbD trg || decide (trg ∈ l)) := by
  by_cases hm : trg ∈ l
  · rw [h.onTime trg hm hpos hlt (by rwa [lateFor_congr hseq hnow]), decide_eq_true hm, Bool.or_true]
  · rw [h.rest trg hm, hseq, decide_eq_false hm, Bool.or_false]

end

theorem latchRegs_eq (q : Nat) : latchRegs q = [R.QSEQ_FLAG q, R.QSEQ_DEFER q, R.QSEQ_LATE q] := rfl

/-- Settles O33: FLAG_SET and a trigger edge set their latches one after the other, FLAG_CLR clears its own. -/
theorem flags : Obligations.Flags := by
  unfold Obligations.Flags
  intro s m q mask data
  refine ⟨fun h => ?set, fun h => ?clr, fun trg htrg => ?none, fun trg hpos hle => ?edge⟩
  case set =>
    have hu := flagHeard_commanded m (R.QSEQ_FLAG_SET q.val) s
    refine ⟨_, rfl, ?_⟩
    rw [busReg_flagSet h]
    generalize flagHeard m (R.QSEQ_FLAG_SET q.val) s = u at hu ⊢
    have hset := setLatches_latchesSet q.val (fun i => 0x80 + i) (flagBits (mask &&& data)) u
    generalize forAll (flagBits (mask &&& data)) (fun i s => setLatch q.val (0x80 + i) s) u = t at hset ⊢
    refine ⟨fun i hi hlate => ?_, fun i hi b hb hop hcond htrg hwin hdecided hbit hclear => ?_, fun k hk => ?_,
      fun a ha => (hset.keeps.regs a ha).trans (hu.reg a), fun k hk => (hset.keeps.others k hk).trans (hu.q k),
      State.memoryKept_trans hu.memory hset.keeps.memory, ?_⟩
    · rw [hset.bit (hu.q q) hu.now (by omega) (by omega) (not_lateFor_of hlate)]
      simp only [flagLatch_mem hi, Bool.decide_eq_true]
    · have hlate : u.lateFor q.val (mwTrg b.word) := (lateFor_congr (hu.q q) hu.now _).2 ⟨b, hb, hop, hcond, rfl, hwin⟩
      have hmem : mwTrg b.word ∈ (flagBits (mask &&& data)).map fun i => 0x80 + i := by
        rw [htrg]
        exact (flagLatch_mem hi).2 hbit
      obtain ⟨hclear', -, hdefer⟩ := hset.late b ((congrArg QSeq.body (hu.q q)).trans hb) hdecided hlate (by omega) hmem
        ((latched_congr (congrArg QSeq.latch (hu.q q)) _).trans (htrg ▸ hclear))
      exact ⟨htrg ▸ hclear', hdefer.trans (by rw [Nat.mod_eq_of_lt (mwTgt_lt b.word)])⟩
    · rw [hset.rest k (by rw [mem_flagLatches]; omega), hu.q]
    · have hcycle : t.cycle = u.cycle := by rw [hset.keeps.frame]
      rw [hcycle]
      refine hset.keeps.frame.trans ?_
      conv_lhs => rw [hu.plainFrame]
  case clr =>
    have hu := flagHeard_commanded m (R.QSEQ_FLAG_CLR q.val) s
    refine ⟨_, rfl, ?_⟩
    rw [busReg_flagClr h]
    generalize flagHeard m (R.QSEQ_FLAG_CLR q.val) s = u at hu ⊢
    obtain ⟨hbit, hregs, hothers, hframe⟩ := clearLatches_cleared q.val (fun i => 0x80 + i) (flagBits (mask &&& data)) u
    generalize forAll (flagBits (mask &&& data)) (fun i s => writeLatch q.val (0x80 + i) false s) u = t at hbit hregs hothers hframe ⊢
    refine ⟨fun i hi => ?_, fun k hk => ?_, fun a ha => (hregs a ha).trans (hu.reg a), fun k hk => (hothers k hk).trans (hu.q k),
      hu.changes hframe⟩
    · rw [hbit _ (by omega), hu.q]
      simp only [flagLatch_mem hi, Bool.decide_eq_true]
    · by_cases hlt : k < 256
      · rw [hbit k hlt, hu.q, decide_eq_false (by rw [mem_flagLatches]; omega), Bool.not_false, Bool.and_true]
      · rw [BitVec.getLsbD_of_ge _ _ (by omega), BitVec.getLsbD_of_ge _ _ (by omega)]
  case none =>
    have hno : triggerEdge trg.val s = s := if_pos (by simpa using htrg)
    exact congrArg Host.Outcome.next hno
  case edge =>
    refine ⟨_, rfl, fun k hlate => ?_, fun k j hj => ?_, ?_⟩
    · obtain ⟨u, hu, ht⟩ := triggerEdge_splits (show trg.val ≠ 0 by omega) hle k s
      have hset := setLatch_latchesSet k.val trg.val u
      have hbit := hset.onTime trg.val (List.mem_singleton.2 rfl) (by omega) trg.isLt
        (by rw [lateFor_congr hu.seq hu.now]; exact not_lateFor_of hlate)
      unfold State.latched
      rw [ht.seq, hbit, Bool.and_true]
      exact decide_eq_true (by omega)
    · obtain ⟨u, hu, ht⟩ := triggerEdge_splits (show trg.val ≠ 0 by omega) hle k s
      rw [ht.seq, (setLatch_latchesSet k.val trg.val u).rest j (by simpa using hj), hu.seq]
    · obtain ⟨u, hu, ht⟩ := triggerEdge_splits (show trg.val ≠ 0 by omega) hle 0 s
      exact State.memoryKept_trans hu.memory
        (State.memoryKept_trans (setLatch_latchesSet (0 : Fin 16).val trg.val u).keeps.memory ht.memory)

/-! ### Deferred jumps -/

section
variable {q : Nat} {s : State} {b : Body}

theorem decideHaltWord_of_none (h : s.deciding q 0x10 = none) : decideHaltWord q s = s := by
  unfold decideHaltWord
  unfold State.deciding at h
  cases he : s.executing q 0x10 with
  | none => rfl
  | some b =>
    rw [he, Option.filter_eq_none_iff] at h
    exact if_neg (h b rfl)

theorem decideHaltWord_of_deciding (h : s.deciding q 0x10 = some b) : decideHaltWord q s = decideHalt q b s := by
  obtain ⟨he, hd⟩ := deciding_iff.1 h
  unfold decideHaltWord
  rw [he]
  exact if_pos hd

/-- HALT's decision drops a pending jump, with its flag, and decides the body (R66). -/
theorem decideHalt_settles (q : Nat) (b : Body) (s : State) :
    let t := decideHalt q b s
    t.deferred q = none ∧ (t.q q).body = some { b with decided := true } ∧
      ((s.deferred q).isSome = true → t.flagged (F.QSEQ_STAT_DEFER_DROP q)) ∧ s.regsKept [R.QSEQ_DEFER q] t ∧
      (∀ k, k ≠ q → t.q k = s.q k) ∧
      t = { s with regs := t.regs, copyB := t.copyB, copyC := t.copyC, hostRc := t.hostRc, spx1Rc := t.spx1Rc,
                   win := t.win, msgs := t.msgs, evcs := t.evcs, qs := t.qs } ∧ s.memoryKept t := by
  intro t
  cases hd : s.deferred q with
  | none =>
    have ht : t = s.setQ q { s.q q with body := some { b with decided := true } } := by
      show decideHalt q b s = _
      unfold decideHalt
      rw [hd]
      rfl
    rw [ht, State.q_setQ_same]
    exact ⟨hd, rfl, nofun, fun _ _ => rfl, fun k hk => State.q_setQ_ne _ _ hk, rfl, rfl, fun _ _ => rfl⟩
  | some tgt =>
    obtain ⟨u, hu⟩ : ∃ u, (setDefer q none s).raise (F.QSEQ_STAT_DEFER_DROP q) = u := ⟨_, rfl⟩
    have hev := hu ▸ raise_eventsOnly (setDefer q none s) (F.QSEQ_STAT_DEFER_DROP q)
    have hprep := setDefer_prepares q none s
    have ht : t = u.setQ q { u.q q with body := some { b with decided := true } } := by
      show decideHalt q b s = _
      unfold decideHalt
      rw [hd, ← hu]
      rfl
    have hflag : u.flagged (F.QSEQ_STAT_DEFER_DROP q) := hu ▸ raise_flagged _ _
    rw [ht, State.q_setQ_same]
    refine ⟨?_, rfl, fun _ => hflag, fun a ha => ?_, fun k hk => ?_, ?_, ?_⟩
    · exact (deferred_congr (hev.reg _)).trans (deferred_setDefer_none q s)
    · exact (hev.reg a).trans ((setDefer_keeps q none s).2.2.2 a (by simpa using ha))
    · refine (State.q_setQ_ne _ _ hk).trans ?_
      rw [hev.1]
      exact setDefer_q q k none s
    · have hstep := hev.1
      rw [hprep.frame] at hstep
      have hframe : u = { s with regs := u.regs, copyB := u.copyB, copyC := u.copyC, hostRc := u.hostRc, spx1Rc := u.spx1Rc,
                                 win := u.win, msgs := u.msgs, evcs := u.evcs, qs := u.qs } := by
        refine hstep.trans ?_
        conv_rhs => rw [hstep]
      conv_lhs => rw [hframe]
      rfl
    · exact State.memoryKept_trans hprep.memory ⟨by rw [hev.1]; rfl, hev.2⟩

/-- A JCOND that a pending jump overtakes (R66): counted where its own condition holds. -/
theorem overtaken_fld (hop : mwOp b.word = 3) :
    (overtaken q b.word s).fld (F.QSEQ_DEFER_OVR_DEFER_OVR q) = if condHolds s q b.word = true
      then min (s.fld (F.QSEQ_DEFER_OVR_DEFER_OVR q) + 1) (2 ^ (F.QSEQ_DEFER_OVR_DEFER_OVR q).w - 1)
      else s.fld (F.QSEQ_DEFER_OVR_DEFER_OVR q) := by
  unfold overtaken
  by_cases h : condHolds s q b.word = true
  · rw [if_pos (by simp [hop, h]), if_pos h]
    exact fld_addSat s _ 1 (show 0 + 16 ≤ 16 by decide)
  · rw [if_neg (by simp [h]), if_neg h]

theorem condHolds_iff (q : Nat) (w : Micro) (s : State) :
    condHolds s q w = true ↔ mwCond w = 0 ∨ (mwCond w = 2 ∧ s.latched q (mwTrg w) = true) ∨
      (mwCond w = 3 ∧ ((s.q q).loopStack.head?.map (·.2)).getD 1 = 1) ∨
      (mwCond w = 4 ∧ 1 < ((s.q q).loopStack.head?.map (·.2)).getD 0) := by
  unfold condHolds
  dsimp only
  split
  · next h => simp [h]
  · next h => simp [h]
  · next h => cases (s.q q).loopStack.head?.map (·.2) <;> simp [h]
  · next h => cases (s.q q).loopStack.head?.map (·.2) <;> simp [h]
  · next h0 h2 h3 h4 => simp [show mwCond w ≠ 0 from h0, show mwCond w ≠ 2 from h2, show mwCond w ≠ 3 from h3, show mwCond w ≠ 4 from h4]

/-- With a jump pending, a word that pops nothing goes to its target; the stacks and the jump after it. -/
theorem decideBody_overtaken {tgt : Nat} (hd : s.deferred q = some tgt) (hb : (s.q q).body = some b) (hop : mwOp b.word ∉ [5, 7]) :
    let t := decideBody q b s
    s.goes q b tgt t ∧ (t.q q).callStack = (s.q q).callStack ∧ (t.q q).loopStack = (s.q q).loopStack ∧
      (b.lateTgt = none → t.deferred q = none) ∧ (∀ a, b.lateTgt = some a → a ≤ 0x3FFF → t.deferred q = some a) ∧
      t.reg (R.QSEQ_DEFER_OVR q) = (overtaken q b.word s).reg (R.QSEQ_DEFER_OVR q) := by
  obtain ⟨h, hclear, hlate, hovr⟩ := decideBody_pending hd hb rfl (closingEffect_of_plain (tgt := tgt) (q := q) (x := s.q q) hop)
  exact ⟨h.go _ rfl, h.calls, h.loops, hclear, hlate, hovr⟩

/-- RET and LOOPE with a jump pending still pop; an empty stack is their fault. -/
theorem decideBody_closes {tgt : Nat} {x : QSeq} {c : Prop} [Decidable c] {f : Fld} (hd : s.deferred q = some tgt)
    (hb : (s.q q).body = some b)
    (he : closingEffect q b.word tgt (s.q q) = (x, if c then .fault f else .go tgt)) (hx : x.body = (s.q q).body) :
    let t := decideBody q b s
    (t.q q).callStack = x.callStack ∧ (t.q q).loopStack = x.loopStack ∧ (b.lateTgt = none → t.deferred q = none) ∧
      if c then s.stackFault q b f t else s.goes q b tgt t := by
  obtain ⟨h, hclear, -, -⟩ := decideBody_pending hd hb hx he
  refine ⟨h.calls, h.loops, hclear, ?_⟩
  split
  · next hc => exact h.fault f (if_pos hc)
  · next hc => exact h.go tgt (if_neg hc)

end

/-- A latch that sets in the late window of the JCOND that waits on it, seen through a trigger edge. -/
theorem triggerEdge_late {trg : Nat} {q : Fin 16} {s : State} {b : Body} (hpos : trg ≠ 0) (hle : trg ≤ 0x18)
    (hb : (s.q q).body = some b) (hclear : s.latched q trg = false) (hop : mwOp b.word = 3) (hcond : mwCond b.word = 2)
    (htrg : mwTrg b.word = trg) (hwin : s.inLateWindow q b = true) :
    let t := triggerEdge trg s
    t.latched q trg = false ∧
      (b.decided = true → (t.q q).body = some b ∧ t.deferred q = some (mwTgt b.word)) ∧
      (b.decided = false → (t.q q).body = some { b with lateTgt := some (mwTgt b.word) } ∧ t.deferred q = s.deferred q) ∧
      t.fld (F.QSEQ_LATE_LATE_CNT q) = min (s.fld (F.QSEQ_LATE_LATE_CNT q) + 1) (2 ^ (F.QSEQ_LATE_LATE_CNT q).w - 1) := by
  intro t
  obtain ⟨u, hu, ht⟩ := triggerEdge_splits hpos hle q s
  have hub : (u.q q).body = some b := (congrArg QSeq.body hu.seq).trans hb
  rw [setLatch_of_late hpos ((latched_congr (congrArg QSeq.latch hu.seq) _).trans hclear) hub hop hcond htrg
    ((inLateWindow_congr hu.now (congrArg QSeq.laceHeld hu.seq) b).trans hwin)] at ht
  obtain ⟨hlatch, hdecided, hopen, hcnt⟩ := lateLatch_settles hub
  have hdefer := deferred_congr ht.defer
  have hbody := congrArg QSeq.body ht.seq
  refine ⟨(latched_congr ((congrArg QSeq.latch ht.seq).trans (hlatch.trans (congrArg QSeq.latch hu.seq))) _).trans hclear,
    fun h => ⟨hbody.trans (hdecided h).1, hdefer.trans (hdecided h).2⟩,
    fun h => ⟨hbody.trans (hopen h).1, hdefer.trans ((hopen h).2.trans (deferred_congr hu.defer))⟩,
    ((congrArg (fieldOf · 0 16) ht.late).trans hcnt).trans ?_⟩
  rw [show u.fld (F.QSEQ_LATE_LATE_CNT q) = s.fld (F.QSEQ_LATE_LATE_CNT q) from congrArg (fieldOf · 0 16) hu.late]

/-- Settles O25, by the closing effect of each word, HALT's drop, and the late latch. -/
theorem deferredJumps : Obligations.DeferredJumps := by
  unfold Obligations.DeferredJumps
  intro s q
  refine ⟨fun tgt hd => ⟨fun b hb => ?jcond, fun b hb => ?call, fun b hb => ?ret, fun b hb => ?loopb, fun b hb => ?loope⟩,
    ⟨_, rfl, decideHaltWord_of_none, fun b hb => ?halt⟩, fun trg b hpos hle hb hclear hop hcond htrg hwin => ?late⟩
  case jcond =>
    have hop := deciding_op hb
    obtain ⟨hgo, -, -, hclear, hlate, hovr⟩ := decideBody_overtaken hd (deciding_body hb) (by rw [hop]; decide)
    refine ⟨_, rfl, ?_⟩
    rw [decideWord_of_deciding hb]
    refine ⟨hgo, hclear, hlate, ((congrArg (fieldOf · 0 16) hovr).trans (overtaken_fld hop)).trans ?_⟩
    simp only [condHolds_iff]
  case call =>
    obtain ⟨hgo, hcalls, -, hclear, -⟩ := decideBody_overtaken hd (deciding_body hb) (by rw [deciding_op hb]; decide)
    exact ⟨_, rfl, by rw [decideWord_of_deciding hb]; exact ⟨hgo, hcalls, hclear⟩⟩
  case loopb =>
    obtain ⟨hgo, -, hloops, hclear, -⟩ := decideBody_overtaken hd (deciding_body hb) (by rw [deciding_op hb]; decide)
    exact ⟨_, rfl, by rw [decideWord_of_deciding hb]; exact ⟨hgo, hloops, hclear⟩⟩
  case ret =>
    obtain ⟨hcalls, -, hclear, hend⟩ := decideBody_closes hd (deciding_body hb) (closingEffect_of_ret (deciding_op hb)) rfl
    exact ⟨_, rfl, by rw [decideWord_of_deciding hb]; exact ⟨hcalls, hclear, hend⟩⟩
  case loope =>
    obtain ⟨-, hloops, hclear, hend⟩ := decideBody_closes hd (deciding_body hb) (closingEffect_of_loope (deciding_op hb)) rfl
    exact ⟨_, rfl, by rw [decideWord_of_deciding hb]; exact ⟨hloops, hclear, hend⟩⟩
  case halt =>
    rw [decideHaltWord_of_deciding hb]
    exact decideHalt_settles q.val b s
  case late =>
    obtain ⟨hclear', hdecided, hopen, hcnt⟩ := triggerEdge_late (by omega) hle hb hclear hop hcond htrg hwin
    refine ⟨_, rfl, hclear', ?_, hcnt⟩
    rw [Nat.mod_eq_of_lt (mwTgt_lt b.word)]
    split
    · next h => exact (hdecided h).symm
    · next h => exact (hopen (by simpa using h)).symm

end Sys2Proof.Machine
end

section
/-! The exit of a stall on the port's latch, refuted by a concrete state (O29). -/

namespace Sys2Proof.Machine

/-! ### A latch that the park sets anew

O29 asks that an exit leave the latch that ended the stall clear. Where the successor parks, the end of the quarter's
work sets latch 0x91 again for an enabled port (R284), after the exit has consumed it. -/

/-- A WAITTRG on latch 0x91, the port's, whose latch has ended the stall; the successor selected could not be read. -/
def portStall : Stall :=
  { addr := 0, word := BitVec.ofNat 192 (0x08 * 2 ^ 186 + 0x91 * 2 ^ 64), welt := 0, exit := some 0, decided := true,
    succ := some { addr := 1, word := 0, park := true }, byLatch := true }

/-- After power-on, with quarter 0 in the stall `portStall` and its idle port enabled. -/
def stalledOnPort : State :=
  let s := (State.reset.setFld (F.QSEQ_STAT_STATE 0) 2).setFld (F.PE_CTRL_EN 0) 1
  s.setQ 0 { s.q 0 with stall := some portStall, latch := BitVec.ofNat 256 (2 ^ 0x91) }

theorem stalledOnPort_exits : ∃ t, exec (.stallExit 0) stalledOnPort = .next t ∧ (t.q 0).latch.getLsbD 0x91 = true :=
  ⟨_, rfl, by decide +kernel⟩

/-- Refutes O29: the exit of `stalledOnPort` ends with latch 0x91 set. -/
theorem not_stallsEnd : ¬ Obligations.StallsEnd := by
  intro h
  obtain ⟨-, stalled⟩ := h stalledOnPort 0
  obtain ⟨-, ⟨t, ht, -, exits⟩, -⟩ := stalled portStall (by decide +kernel)
  obtain ⟨consumed, -⟩ := exits 0 (by decide +kernel) (Nat.zero_le _) rfl
  obtain ⟨t', ht', hset⟩ := stalledOnPort_exits
  obtain rfl : t = t' := Host.Outcome.next.inj (ht.symm.trans ht')
  have hclear : (t.q 0).latch.getLsbD 0x91 = false := consumed rfl
  exact absurd (hset.symm.trans hclear) (by decide)

end Sys2Proof.Machine
end

section
/-! The elastic words at their decision points (R67, R71 to R73, R408). -/

namespace Sys2Proof.Machine

section
variable {q : Nat} {s t : State} {b : Body}

/-- An elastic word goes on, or to the target of a pending jump, which it clears. -/
theorem elasticSelect_selects (q : Nat) (w : Micro) (pc : Nat) (stall : Bool) (cands : List Cand) (s : State) :
    ∃ t, s.prepares q t ∧ (∀ k, t.q k = s.q k) ∧
      t.selects q ((s.deferred q).getD (pc + 1)) (elasticSelect q w pc stall false cands s).1
        (elasticSelect q w pc stall false cands s).2 := by
  unfold elasticSelect
  cases s.deferred q with
  | none => exact ⟨s, s.prepares_refl q, fun _ => rfl, selectSucc_selects q pc _ stall cands s⟩
  | some tgt =>
    exact ⟨setDefer q none s, setDefer_prepares q none s, fun k => setDefer_q q k none s,
      selectSucc_selects q pc tgt stall cands (setDefer q none s)⟩

/-- An elastic word that does not stall selects at its decision point (R408). -/
theorem decideElastic_goes (hp : s.prepares q t) (hd : t.deferred q = s.deferred q) (hb : (s.q q).body = some b) :
    s.goes q b ((s.deferred q).getD (b.addr + 1)) (decideElastic q b true t) ∧
      ((decideElastic q b true t).successor q).isSome = true ∧ ((decideElastic q b true t).q q).latch = (t.q q).latch := by
  obtain ⟨u, hu, hseq, hsel⟩ := elasticSelect_selects q b.word b.addr false b.cands t
  rw [hd] at hsel
  have hsel' := hsel.getD (p := { addr := 0, word := 0, park := true }) rfl
  have hpu := State.prepares_trans hp hu
  have hub := hsel.checks.body_eq (hpu.body_eq hb)
  unfold decideElastic
  rw [if_pos rfl]
  dsimp only
  refine ⟨goes_of_selects hpu hb hsel', ?_, ?_⟩
  · rw [(putSucc_body hub _).2]
    rfl
  · obtain ⟨-, hplaced, -⟩ := putSucc_settles (some ((elasticSelect q b.word b.addr false false b.cands t).2.getD
      { addr := 0, word := 0, park := true })) hub
    rw [hplaced, hsel.checks.seq, hseq]

/-- One that will stall selects nothing (R408). -/
theorem decideElastic_stalls (q : Nat) (b : Body) (s : State) : decideElastic q b false s =
    s.setQ q { s.q q with body := some { b with decided := true } } := if_neg Bool.false_ne_true

/-- A quarter that decides no such word executes none, or one before its decision point. -/
theorem not_deciding {op : Nat} (h : s.deciding q op = none) :
    s.executing q op = none ∨ ∃ b, s.executing q op = some b ∧ s.decides b = false := by
  unfold State.deciding at h
  cases he : s.executing q op with
  | none => exact .inl rfl
  | some b =>
    rw [he, Option.filter_eq_none_iff] at h
    exact .inr ⟨b, rfl, by simpa using h b rfl⟩

theorem decideWaittrg_cases (q : Nat) (s : State) : (s.deciding q 0x08 = none → decideWaittrg q s = s) ∧
    ∀ b, s.deciding q 0x08 = some b → decideWaittrg q s = decideElastic q b (s.latchedBefore q (mwTrg b.word) b.decision)
      (if s.latchedBefore q (mwTrg b.word) b.decision then writeLatch q (mwTrg b.word) false s else s) := by
  refine ⟨fun h => ?_, fun b h => ?_⟩
  · rcases not_deciding h with he | ⟨b, he, hd⟩
    · simp only [decideWaittrg, he]
    · simp [decideWaittrg, he, hd]
  · obtain ⟨he, hd⟩ := deciding_iff.1 h
    simp [decideWaittrg, he, hd]

theorem decideWaitmark_cases (q : Nat) (s : State) : (s.deciding q 0x09 = none → decideWaitmark q s = s) ∧
    ∀ b, s.deciding q 0x09 = some b →
      decideWaitmark q s = decideElastic q b (s.markAfter q (mwCnt b.word % 2 ^ 16) b.welt = some b.welt) s := by
  refine ⟨fun h => ?_, fun b h => ?_⟩
  · rcases not_deciding h with he | ⟨b, he, hd⟩
    · simp only [decideWaitmark, he]
    · simp [decideWaitmark, he, hd]
  · obtain ⟨he, hd⟩ := deciding_iff.1 h
    simp [decideWaitmark, he, hd]

/-- What a SYNC asks of the ring, or shows where there is none (R72). -/
def sendMark (q : Nat) (b : Body) (s : State) : State :=
  if s.laceJoined then laceRequest (1 + q) 2 (mwCnt b.word % 2 ^ 16) 0 b.decision s else s.raise (F.QSEQ_STAT_SYNC_LOCAL q)

theorem decideSync_cases (q : Nat) (s : State) : (s.deciding q 0x0A = none → decideSync q s = s) ∧
    ∀ b, s.deciding q 0x0A = some b → decideSync q s = sendMark q b (decideElastic q b false s) := by
  refine ⟨fun h => ?_, fun b h => ?_⟩
  · rcases not_deciding h with he | ⟨b, he, hd⟩
    · simp only [decideSync, he]
    · simp [decideSync, he, hd]
  · obtain ⟨he, hd⟩ := deciding_iff.1 h
    simp [decideSync, sendMark, he, hd]

theorem decideHold_cases (q : Nat) (s : State) : (s.deciding q 0x0F = none → decideHold q s = s) ∧
    ∀ b, s.deciding q 0x0F = some b → decideHold q s = decideElastic q b false s := by
  refine ⟨fun h => ?_, fun b h => ?_⟩
  · rcases not_deciding h with he | ⟨b, he, hd⟩
    · simp only [decideHold, he]
    · simp [decideHold, he, hd]
  · obtain ⟨he, hd⟩ := deciding_iff.1 h
    simp [decideHold, he, hd]

end

/-! ### SYNC's mark -/

theorem mem_insertReq (r : LaceReq) (l : List LaceReq) : r ∈ insertReq r l := by
  induction l with
  | nil => exact List.mem_singleton.2 rfl
  | cons x l ih =>
    unfold insertReq
    split
    · exact List.mem_cons_self
    · exact List.mem_cons_of_mem _ ih

section
variable {q : Nat} {s : State}

theorem sendMark_settles (hq : q < 16) (b : Body) (s : State) :
    let t := sendMark q b s
    (s.laceJoined = false → t.flagged (F.QSEQ_STAT_SYNC_LOCAL q)) ∧
      (s.laceJoined = true → s.lace.detaching = false →
        { who := 1 + q, type := 2, num := mwCnt b.word % 2 ^ 16, arg := 0, at_ := b.decision } ∈ t.lace.requests) ∧
      t.qs = s.qs ∧ (∀ a, t.reg a = s.reg a) ∧ s.memoryKept t ∧
      t = { s with hostRc := t.hostRc, spx1Rc := t.spx1Rc, win := t.win, msgs := t.msgs, evcs := t.evcs, lace := t.lace } := by
  intro t
  cases hj : s.laceJoined with
  | false =>
    have ht : t = s.raise (F.QSEQ_STAT_SYNC_LOCAL q) := if_neg (by simp [hj])
    have hev := raise_eventsOnly s (F.QSEQ_STAT_SYNC_LOCAL q)
    rw [ht]
    refine ⟨fun _ => raise_flagged s _, nofun, by rw [hev.1], hev.reg, ⟨by rw [hev.1], hev.2⟩, ?_⟩
    refine hev.1.trans ?_
    conv_rhs => rw [hev.1]
  | true =>
    have ht : t = laceRequest (1 + q) 2 (mwCnt b.word % 2 ^ 16) 0 b.decision s := if_pos hj
    unfold laceRequest at ht
    cases hdetach : s.lace.detaching with
    | true =>
      rw [if_neg (by simp [hdetach]), if_neg (by omega)] at ht
      rw [ht]
      exact ⟨nofun, nofun, rfl, fun _ => rfl, ⟨rfl, fun _ _ => rfl⟩, rfl⟩
    | false =>
      rw [if_pos (by simp [hdetach, hj])] at ht
      rw [ht]
      exact ⟨nofun, fun _ _ => mem_insertReq _ _, rfl, fun _ => rfl, ⟨rfl, fun _ _ => rfl⟩, rfl⟩

end

/-- Settles O26: WAITTRG and WAITMARK by whether what they wait for has come, HOLD and SYNC always stall. -/
theorem elasticWords : Obligations.ElasticWords := by
  unfold Obligations.ElasticWords
  intro s q
  refine ⟨⟨_, rfl, (decideWaittrg_cases q s).1, fun b hb => ?waittrg⟩, ⟨_, rfl, (decideWaitmark_cases q s).1, fun b hb => ?waitmark⟩,
    ⟨_, rfl, (decideSync_cases q s).1, fun b hb => ?sync⟩, ⟨_, rfl, (decideHold_cases q s).1, fun b hb => ?hold⟩⟩
  case waittrg =>
    rw [(decideWaittrg_cases q s).2 b hb]
    refine ⟨fun hit => ?_, fun hit => ?_⟩
    · have hprep := writeLatch_prepares q (mwTrg b.word) false s
      have hdefer : (writeLatch q (mwTrg b.word) false s).deferred q = s.deferred q :=
        deferred_congr (State.reg_setReg_ne _ _ (by unfold R.QSEQ_FLAG R.QSEQ_DEFER; omega))
      obtain ⟨hgo, hsome, hlatch⟩ := decideElastic_goes hprep hdefer (deciding_body hb)
      rw [hit, if_pos rfl]
      refine ⟨hgo, hsome, ?_⟩
      rw [latched_congr hlatch]
      unfold State.latched
      rw [writeLatch_latch q _ false s _ (mwTrg_lt b.word), if_pos rfl, Bool.and_false]
    · rw [hit, if_neg Bool.false_ne_true, decideElastic_stalls, State.q_setQ_same]
      exact ⟨rfl, rfl, rfl, fun k hk => State.q_setQ_ne s _ hk⟩
  case waitmark =>
    rw [(decideWaitmark_cases q s).2 b hb]
    refine ⟨fun hit => ?_, fun hit => ?_⟩
    · obtain ⟨hgo, hsome, -⟩ := decideElastic_goes (s.prepares_refl q.val) rfl (deciding_body hb)
      rw [decide_eq_true hit]
      exact ⟨hgo, hsome⟩
    · rw [decide_eq_false hit, decideElastic_stalls, State.q_setQ_same]
      exact ⟨rfl, rfl, fun k hk => State.q_setQ_ne s _ hk⟩
  case sync =>
    rw [(decideSync_cases q s).2 b hb, decideElastic_stalls]
    obtain ⟨hlocal, hsent, hqs, hreg, hmem, hframe⟩ := sendMark_settles q.isLt b
      (s.setQ q { s.q q with body := some { b with decided := true } })
    have hq : ∀ k, (sendMark q b (s.setQ q { s.q q with body := some { b with decided := true } })).q k =
        (s.setQ q { s.q q with body := some { b with decided := true } }).q k := fun k => by rw [State.q, hqs]; rfl
    refine ⟨by rw [hq, State.q_setQ_same], hlocal, hsent, fun a _ => hreg a, fun k hk => (hq k).trans (State.q_setQ_ne s _ hk), hmem, ?_⟩
    refine hframe.trans ?_
    rw [hqs]
    rfl
  case hold =>
    rw [(decideHold_cases q s).2 b hb, decideElastic_stalls, State.q_setQ_same]
    exact ⟨rfl, fun k hk => State.q_setQ_ne s _ hk, rfl⟩

end Sys2Proof.Machine
end

section
/-! The windows of the control store and of the timing sets, and the scrub (R54, R55, R56, R112, R116). -/

namespace Sys2Proof.Machine

/-! ### A write that its array rejects -/

/-- From `s` to `t` an array rejects a write of master m: its flag is set and the access reported, and nothing is stored. -/
structure State.rejects (s : State) (m : Master) (f : Fld) (src a : Nat) (t : State) : Prop where
  flag : t.flagged f
  report : t.reported = s.reported ++ [s.accessEvent src a m 2]
  memory : s.memoryKept t
  regs : s.regsKept [] t
  frame : t = { s with hostRc := t.hostRc, spx1Rc := t.spx1Rc, win := t.win, msgs := t.msgs, evcs := t.evcs, reported := t.reported }

theorem reject_rejects {s u : State} (h : s.eventsOnly u) (m : Master) (f : Fld) (src a : Nat) :
    s.rejects m f src a ((u.raise f).reportAccess src a m 2) := by
  have hev := raise_eventsOnly u f
  have hboth := State.eventsOnly_trans h hev
  refine ⟨raise_flagged u f, ?_, ⟨by rw [State.reportAccess, hboth.1], hboth.2⟩, fun b _ => hboth.reg b, ?_⟩
  · rw [reportAccess_reported, hboth.accessEvent, hboth.1]
  · obtain ⟨v, hv⟩ : ∃ v, u.raise f = v := ⟨_, rfl⟩
    rw [hv] at hboth ⊢
    have hreport : v.reportAccess src a m 2 = { v with reported := (v.reportAccess src a m 2).reported } := rfl
    refine hreport.trans ?_
    generalize (v.reportAccess src a m 2).reported = l
    conv_lhs => rw [hboth.1]
    rfl

/-- A write that its array stores replaces the enabled bytes of its dword, and nothing else. -/
theorem winPut_stores {s u : State} (h : s.eventsOnly u) {a : Nat} (ha : a < 0x47000 ∨ 0x47100 ≤ a) (be : BitVec 4) (v : Dword) :
    (winPut a be v u).winGet a = mergeBytes (s.winGet a) v be ∧ (∀ b, b ≠ a → (winPut a be v u).winGet b = u.winGet b) ∧
      winPut a be v u = { u with win := (winPut a be v u).win } := by
  refine ⟨?_, fun b hb => ?_, rfl⟩
  · rw [winPut, State.winGet_winSet_same, h.2 a ha]
  · rw [winPut, State.winGet_winSet, if_neg hb]

/-! ### The control store window (R55) -/

section
variable {m : Master} {q : Fin 16} {a : Fin 16384} {j : Fin 8} {be : BitVec 4} {v : Dword} {s : State}

/-- The window's addresses. -/
theorem csAddr_bounds (q : Fin 16) (a : Fin 16384) (j : Fin 8) :
    0x400000 ≤ csAddr q a + 4 * j.val ∧ csAddr q a + 4 * j.val < 0xC00000 ∧ (csAddr q a + 4 * j.val) % 32 = 4 * j.val ∧
      (csAddr q a + 4 * j.val - 0x400000) / 0x80000 = q.val ∧ (csAddr q a + 4 * j.val - 0x400000) % 0x80000 / 32 = a.val ∧
      (csAddr q a + 4 * j.val) % 4 = 0 := by
  have hq := q.isLt
  have ha := a.isLt
  have hj := j.isLt
  unfold csAddr
  omega

theorem busAddr_of_aligned {a : Nat} (h : a % 4 = 0) (hlt : a < 2 ^ 24) : busAddr a = a := by
  unfold busAddr
  omega

theorem isWindow_of_array {a : Nat} (h : 0x200000 ≤ a) (hlt : a < 0xF00000) : isWindow a = true := by
  unfold isWindow
  simp [h, hlt]

/-- A write to the store is rejected while the sequencer runs, but for the dwords behind the microword. -/
theorem busWrite_store (hs : s.Serves m (csAddr q a + 4 * j.val)) (hb : s.bootRefuses m (csAddr q a + 4 * j.val) = false) :
    busWrite m (csAddr q a + 4 * j.val) be v s =
      if 6 ≤ j.val then hostTlps m true s
      else if s.stopped q then winPut (csAddr q a + 4 * j.val) be v (hostTlps m true s)
      else ((hostTlps m true s).raise (F.QSEQ_FAULT_CS_WRITE_REJ q)).reportAccess (0x101 + 16 * q.val) a m 2 := by
  obtain ⟨hlo, hhi, hdword, hquarter, hword, halign⟩ := csAddr_bounds q a j
  have hstopped : (hostTlps m true s).stopped q = s.stopped q := by
    unfold State.stopped State.qstate State.fld
    rw [(hostTlps_eventsOnly m true s).reg]
  rw [busWrite_window be v hs hb (busAddr_of_aligned halign (by omega)) (isWindow_of_array (by omega) (by omega))]
  unfold winWrite
  rw [if_neg (by simp; omega), if_neg (by simp; omega), if_neg (by simp; omega), if_neg (by simp; omega),
    if_pos (by simp; omega)]
  unfold storeWrite
  dsimp only
  rw [hdword, hquarter, hword, hstopped]
  by_cases hj : 6 ≤ j.val
  · rw [if_pos (show 24 ≤ 4 * j.val by omega), if_pos hj]
  · rw [if_neg (show ¬24 ≤ 4 * j.val by omega), if_neg hj]
    cases s.stopped q <;> rfl

theorem stopped_iff (s : State) (q : Nat) : s.stopped q = true ↔ s.qstate q = 0 ∨ s.qstate q = 8 ∨ s.qstate q = 9 := by
  unfold State.stopped
  simp

end

/-- Settles O34, by the places of the window and the states in which the store takes a write. -/
theorem controlStoreWindow : Obligations.ControlStoreWindow := by
  unfold Obligations.ControlStoreWindow
  intro s m q a j be v hs
  obtain ⟨hlo, hhi, -, -, -, halign⟩ := csAddr_bounds q a j
  have hwin : csAddr q a + 4 * j.val < 0x47000 ∨ 0x47100 ≤ csAddr q a + 4 * j.val := by omega
  refine ⟨fun hb => ⟨_, rfl, ?_⟩, ⟨_, rfl, ?_⟩⟩
  · rw [busWrite_store hs hb]
    refine ⟨fun hj => if_pos hj, fun hj hst => ?_, fun hj hst => ?_⟩
    · rw [if_neg (by omega), if_pos ((stopped_iff s q).2 hst)]
      exact winPut_stores (hostTlps_eventsOnly m true s) hwin be v
    · rw [if_neg (by omega), if_neg (fun h => hst ((stopped_iff s q).1 h))]
      obtain ⟨hflag, hreport, hmem, hregs, hframe⟩ :=
        reject_rejects (hostTlps_eventsOnly m true s) m (F.QSEQ_FAULT_CS_WRITE_REJ q) (0x101 + 16 * q.val) a
      have hclass : ∀ k : Fin 16, baseClass (0x101 + 16 * k.val) = 0 := by decide
      exact ⟨hflag, hreport, hclass q, hmem, hregs, hframe⟩
  · have hev := hostTlps_eventsOnly m false s
    rw [busRead_window hs (busAddr_of_aligned halign (by omega)) (isWindow_of_array (by omega) (by omega)), pushRead_reads]
    refine ⟨?_, pushRead_memoryKept m _ _ ⟨by rw [hev.1], hev.2⟩⟩
    unfold State.winRead
    rw [if_neg (by simp; omega), hev.2 _ hwin, hev.1]

/-! ### The timing sets (R112, R116) -/

section
variable {m : Master} {q : Fin 16} {set : Fin 32} {c : Fin 64} {j : Fin 16} {be : BitVec 4} {v : Dword} {s : State}

theorem tsAddr_bounds (q : Fin 16) (set : Fin 32) (c : Fin 64) (j : Fin 16) :
    0x200000 ≤ tsAddr q set c + 4 * j.val ∧ tsAddr q set c + 4 * j.val < 0x400000 ∧
      (tsAddr q set c + 4 * j.val) % 0x40 = 4 * j.val ∧ (tsAddr q set c + 4 * j.val - 0x200000) / 0x20000 = q.val ∧
      (tsAddr q set c + 4 * j.val) % 4 = 0 := by
  have hq := q.isLt
  have hset := set.isLt
  have hc := c.isLt
  have hj := j.isLt
  unfold tsAddr
  omega

/-- A write to PINCFG or PERIOD is rejected while the sequencer runs; an edge word is always stored. -/
theorem busWrite_timing (hs : s.Serves m (tsAddr q set c + 4 * j.val)) (hb : s.bootRefuses m (tsAddr q set c + 4 * j.val) = false) :
    busWrite m (tsAddr q set c + 4 * j.val) be v s =
      if 8 ≤ j.val then hostTlps m true s
      else if s.stopped q = true ∨ 2 ≤ j.val then winPut (tsAddr q set c + 4 * j.val) be v (hostTlps m true s)
      else ((hostTlps m true s).raise (F.QTS_STAT_TS_WRITE_REJ q)).reportAccess (0x104 + 16 * q.val) 0 m 2 := by
  obtain ⟨hlo, hhi, hdword, hquarter, halign⟩ := tsAddr_bounds q set c j
  have hstopped : (hostTlps m true s).stopped q = s.stopped q := by
    unfold State.stopped State.qstate State.fld
    rw [(hostTlps_eventsOnly m true s).reg]
  rw [busWrite_window be v hs hb (busAddr_of_aligned halign (by omega)) (isWindow_of_array (by omega) (by omega))]
  unfold winWrite
  rw [if_neg (by simp; omega), if_neg (by simp; omega), if_neg (by simp; omega), if_pos (by simp; omega)]
  unfold timingWrite
  dsimp only
  rw [hdword, hquarter, hstopped]
  by_cases hj : 8 ≤ j.val
  · rw [if_pos (show 0x20 ≤ 4 * j.val by omega), if_pos hj]
  · rw [if_neg (show ¬0x20 ≤ 4 * j.val by omega), if_neg hj]
    by_cases hst : s.stopped q = true ∨ 2 ≤ j.val
    · rw [if_pos hst, if_neg]
      simp only [Bool.and_eq_true, decide_eq_true_eq, Bool.not_eq_true']
      rintro ⟨hlt, hn⟩
      rcases hst with h | h
      · exact absurd h (by simp [hn])
      · omega
    · rw [not_or, Bool.not_eq_true] at hst
      rw [if_neg (show ¬(s.stopped q = true ∨ 2 ≤ j.val) from not_or.2 ⟨by simp [hst.1], hst.2⟩), if_pos]
      simp only [Bool.and_eq_true, decide_eq_true_eq, Bool.not_eq_true']
      exact ⟨by omega, hst.1⟩

end

/-! ### The scrub (R56) -/

section
variable {q : Nat} {s : State}

/-- The scrub of quarter q is due. -/
def State.scrubs (s : State) (q : Nat) : Prop :=
  s.bit (F.QSEQ_CFG_SCRUB_EN q) = true ∧ s.quarterOn q = true ∧ (s.q q).scrubNext ≤ s.now

/-- The scrub's place moves on by one word. -/
def scrubStep (q : Nat) (s : State) : State :=
  s.setQ q { s.q q with scrubPos := ((s.q q).scrubPos + 1) % 16384, scrubNext := s.now + 128 }

theorem storeScrub_of_not (h : ¬s.scrubs q) : storeScrub q s = s := by
  refine if_pos ?_
  unfold State.scrubs at h
  simp only [Bool.or_eq_true, Bool.not_eq_true', decide_eq_true_eq]
  by_cases h1 : s.bit (F.QSEQ_CFG_SCRUB_EN q) = true
  · by_cases h2 : s.quarterOn q = true
    · exact .inr (by by_contra hn; exact h ⟨h1, h2, by omega⟩)
    · exact .inl (.inr (by simpa using h2))
  · exact .inl (.inl (by simpa using h1))

theorem storeScrub_of_scrubs (h : s.scrubs q) : storeScrub q s =
    match checkMicro (s.csWord q (s.q q).scrubPos) with
    | some (_, false) => scrubStep q s
    | some (w, true) => (((scrubStep q s).setCsWord q (s.q q).scrubPos w).raise (F.QSEQ_FAULT_CHK_CORR q)).report (0x101 + 16 * q) (s.q q).scrubPos
    | none => ((scrubStep q s).setFld (F.QSEQ_FAULT_PC_FAULT_PC q) (s.q q).scrubPos).report (0x101 + 16 * q) (s.q q).scrubPos := by
  obtain ⟨h1, h2, h3⟩ := h
  exact if_neg (by simp [h1, h2]; omega)

theorem scrubStep_q (q : Nat) (s : State) : (scrubStep q s).q q =
    { s.q q with scrubPos := ((s.q q).scrubPos + 1) % 16384, scrubNext := s.now + 128 } := State.q_setQ_same _ _ _

/-- A microword's six dwords, each at its address. -/
theorem setCsWord_winGet (a : Nat) (w : Micro) (s : State) {j : Nat} (hj : j < 6) :
    (s.setCsWord q a w).winGet (csAddr q a + 4 * j) = BitVec.ofNat 32 (w.toNat / 2 ^ (32 * j)) := by
  have hstores : s.setCsWord q a w = (((((s.winSet (csAddr q a + 4 * 0) (BitVec.ofNat 32 (w.toNat / 2 ^ (32 * 0)))).winSet
      (csAddr q a + 4 * 1) (BitVec.ofNat 32 (w.toNat / 2 ^ (32 * 1)))).winSet (csAddr q a + 4 * 2)
      (BitVec.ofNat 32 (w.toNat / 2 ^ (32 * 2)))).winSet (csAddr q a + 4 * 3) (BitVec.ofNat 32 (w.toNat / 2 ^ (32 * 3)))).winSet
      (csAddr q a + 4 * 4) (BitVec.ofNat 32 (w.toNat / 2 ^ (32 * 4)))).winSet (csAddr q a + 4 * 5)
      (BitVec.ofNat 32 (w.toNat / 2 ^ (32 * 5))) := rfl
  rw [hstores]
  simp only [State.winGet_winSet, Nat.add_left_cancel_iff]
  interval_cases j <;> rfl

theorem setCsWord_frame (a : Nat) (w : Micro) (s : State) : s.setCsWord q a w = { s with win := (s.setCsWord q a w).win } :=
  List.foldlRecOn (motive := fun t : State => t = { s with win := t.win }) _ _ rfl fun t h i _ => by
    conv_lhs => rw [h]
    rfl

theorem csWord_congr {s t : State} (h : ∀ b, 0x400000 ≤ b → t.winGet b = s.winGet b) (a : Nat) : t.csWord q a = s.csWord q a := by
  have hwin : ∀ j, t.winGet (csAddr q a + 4 * j) = s.winGet (csAddr q a + 4 * j) := fun j => h _ (by unfold csAddr; omega)
  unfold State.csWord
  simp only [hwin]

/-- A dword of a microword, bit by bit. -/
theorem dword_getLsbD (w : Micro) (j i : Nat) : (BitVec.ofNat 32 (w.toNat / 2 ^ (32 * j))).getLsbD i =
    (decide (i < 32) && w.getLsbD (32 * j + i)) := by
  rw [BitVec.getLsbD_ofNat, Nat.testBit_div_two_pow, BitVec.testBit_toNat, Nat.add_comm]

/-- A microword reads back what was written. -/
theorem csWord_setCsWord (a : Nat) (w : Micro) (s : State) : (s.setCsWord q a w).csWord q a = w := by
  unfold State.csWord
  dsimp only
  rw [setCsWord_winGet a w s (j := 0) (by decide), setCsWord_winGet a w s (j := 1) (by decide), setCsWord_winGet a w s (j := 2) (by decide),
    setCsWord_winGet a w s (j := 3) (by decide), setCsWord_winGet a w s (j := 4) (by decide), setCsWord_winGet a w s (j := 5) (by decide)]
  refine BitVec.eq_of_getLsbD_eq fun i hi => ?_
  have hbit : ∀ k r, r < 32 → 32 * k + r = i → (decide (r < 32) && w.getLsbD (32 * k + r)) = w.getLsbD i := by
    rintro k r hr rfl
    rw [decide_eq_true hr, Bool.true_and]
  simp only [BitVec.getLsbD_append, dword_getLsbD]
  split_ifs
  all_goals exact hbit _ _ (by omega) (by omega)

/-- What the scrub does once it is due, beside its own place. -/
structure State.scrubbed (q : Nat) (s t : State) : Prop where
  qs : t.qs = (scrubStep q s).qs
  hbm : t.hbm = s.hbm
  intact : ∀ w, checkMicro (s.csWord q (s.q q).scrubPos) = some (w, false) → t = { s with qs := t.qs }
  corrected : ∀ w, checkMicro (s.csWord q (s.q q).scrubPos) = some (w, true) → (s.q q).scrubPos < 16384 →
    t.csWord q (s.q q).scrubPos = w ∧ t.flagged (F.QSEQ_FAULT_CHK_CORR q) ∧ s.regsKept [] t ∧
      t.reported = s.reported ++ [s.plainEvent (0x101 + 16 * q) (s.q q).scrubPos]
  failed : checkMicro (s.csWord q (s.q q).scrubPos) = none → s.memoryKept t ∧
    s.regsKept [(F.QSEQ_FAULT_PC_FAULT_PC q).addr] t ∧ t.hostRc = s.hostRc ∧
    t.fld (F.QSEQ_FAULT_PC_FAULT_PC q) = (s.q q).scrubPos % 2 ^ (F.QSEQ_FAULT_PC_FAULT_PC q).w ∧
    t.reported = s.reported ++ [s.plainEvent (0x101 + 16 * q) (s.q q).scrubPos]

/-- The stamp of an event rests on the power state and on central and clock registers. -/
theorem report_reported {s u : State} (hnow : u.now = s.now) (hpwr : u.pwr = s.pwr) (hreg : ∀ a, a < 0x100000 → u.reg a = s.reg a)
    (hrep : u.reported = s.reported) (src a : Nat) : (u.report src a).reported = s.reported ++ [s.plainEvent src a] := by
  have hstamp : u.shankStamps = s.shankStamps := shankStamps_congr hpwr (hreg _ (by decide)) (hreg _ (by decide))
  unfold State.report State.reportC State.plainEvent
  dsimp only
  rw [hrep, hnow, hstamp]

theorem storeScrub_scrubbed (h : s.scrubs q) : s.scrubbed q (storeScrub q s) := by
  rw [storeScrub_of_scrubs h]
  split
  case h_1 w hc => exact ⟨rfl, rfl, fun _ _ => rfl, fun w' hw => by simp [hc] at hw, fun hn => by simp [hc] at hn⟩
  case h_2 w hc =>
    obtain ⟨u, hu⟩ : ∃ u, (scrubStep q s).setCsWord q (s.q q).scrubPos w = u := ⟨_, rfl⟩
    have hstores : u = { scrubStep q s with win := u.win } := hu ▸ setCsWord_frame _ _ _
    have hev := raise_eventsOnly u (F.QSEQ_FAULT_CHK_CORR q)
    have hword : u.csWord q (s.q q).scrubPos = w := hu ▸ csWord_setCsWord _ _ _
    rw [hu]
    refine ⟨?_, ?_, fun w' hw => by simp [hc] at hw, fun w' hw hlt => ?_, fun hn => by simp [hc] at hn⟩
    · exact (State.raise_qs u _).trans (by rw [hstores])
    · exact (State.raise_hbm u _).trans (by rw [hstores]; rfl)
    · obtain rfl : w = w' := by simpa [hc] using hw
      refine ⟨(csWord_congr (fun a ha => hev.2 a (by omega)) _).trans hword, raise_flagged u _, fun a _ => ?_, report_reported ?_ ?_ ?_ ?_ _ _⟩
      · exact (hev.reg a).trans (by rw [hstores]; rfl)
      · exact (State.raise_now u _).trans (by rw [hstores]; rfl)
      · exact (congrArg State.pwr hev.1).trans (by rw [hstores]; rfl)
      · exact fun a _ => (hev.reg a).trans (by rw [hstores]; rfl)
      · exact (State.raise_reported u _).trans (by rw [hstores]; rfl)
  case h_3 hc =>
    have hpc := State.fld_setFld (scrubStep q s) (F.QSEQ_FAULT_PC_FAULT_PC q) (s.q q).scrubPos (show 0 + 14 ≤ 16 by decide)
    refine ⟨rfl, rfl, fun w' hw => by simp [hc] at hw, fun w' hw => by simp [hc] at hw, fun _ => ⟨⟨rfl, fun _ _ => rfl⟩, fun a ha => ?_, rfl,
      hpc, ?_⟩⟩
    · exact State.reg_setFld_ne (scrubStep q s) _ (by simpa using ha)
    · refine report_reported ?_ ?_ (fun a ha => ?_) ?_ _ _
      · rfl
      · rfl
      · refine State.reg_setFld_ne (scrubStep q s) _ ?_
        unfold F.QSEQ_FAULT_PC_FAULT_PC R.QSEQ_FAULT_PC quarterBase
        dsimp only
        omega
      · rfl

end

/-- Settles O35: the writes by the place in the entry, the scrub by what it reads. -/
theorem arraysAndScrub : Obligations.ArraysAndScrub := by
  unfold Obligations.ArraysAndScrub
  intro s q
  refine ⟨fun m set c j be v hs hb => ⟨_, rfl, ?_⟩, ⟨_, rfl, ?_⟩⟩
  · obtain ⟨hlo, -⟩ := tsAddr_bounds q set c j
    rw [busWrite_timing hs hb]
    refine ⟨fun hj => if_pos hj, fun hj => ?_⟩
    rw [if_neg (show ¬8 ≤ j.val by omega)]
    split
    · exact winPut_stores (hostTlps_eventsOnly m true s) (by omega) be v
    · obtain ⟨hflag, hreport, hmem, hregs, hframe⟩ :=
        reject_rejects (hostTlps_eventsOnly m true s) m (F.QTS_STAT_TS_WRITE_REJ q) (0x104 + 16 * q.val) 0
      exact ⟨hflag, hreport, hmem, hregs, hframe⟩
  · split
    · next hdue =>
      obtain ⟨hqs, hhbm, hintact, hcorrected, hfailed⟩ := storeScrub_scrubbed hdue
      have hq : ∀ k, (storeScrub q s).q k = (scrubStep q s).q k := fun k => by rw [State.q, hqs]; rfl
      refine ⟨?_, ?_, fun k hk => (hq k).trans (State.q_setQ_ne s _ hk), hhbm, hintact, hcorrected, hfailed⟩
      · rw [hq, scrubStep_q]
      · rw [hq, scrubStep_q]
    · next hdue => exact storeScrub_of_not hdue

end Sys2Proof.Machine
end

section
/-! Words that act at their body's start: what precedes and follows the action (R61, R62). -/

namespace Sys2Proof.Machine

/-! ### The decision after the action -/

section
variable {q op : Nat} {s t : State} {b : Body}

theorem putSucc_keeps {u : State} (hb : (u.q q).body = some b) (v : Option Succ) : u.decisionKeeps q (putSucc q (u, v)) :=
  (putSucc_settles v hb).1

theorem resolved_keeps (r : Sel) (hb : (t.q q).body = some b) : t.decisionKeeps q (resolved q b r t) := by
  cases r with
  | go a =>
    have hsel := (selectSucc_selects q b.addr a false b.cands t).checks
    exact State.decisionKeeps_trans hsel.keeps (putSucc_keeps (hsel.body_eq hb) _)
  | fault f =>
    have hfault := seqFault_checks q f b.addr true t
    exact State.decisionKeeps_trans hfault.keeps (putSucc_keeps (hfault.body_eq hb) _)

theorem decideBody_keeps (hb : (s.q q).body = some b) (hop : mwOp b.word ∉ [2, 3, 4, 5, 6, 7]) :
    s.decisionKeeps q (decideBody q b s) := by
  have hne : mwOp b.word ≠ 3 := fun h => hop (by rw [h]; decide)
  have hlatch : latchTaken q b.word s = s := latchTaken_of_ne hne
  cases hd : s.deferred q with
  | none =>
    rw [decideBody_of_free hd, hlatch, stackEffect_of_plain hop]
    have hp := effect_prepares (s.prepares_refl q) (x := s.q q) rfl
    exact State.decisionKeeps_trans hp.keeps (resolved_keeps _ (hp.body_eq hb))
  | some tgt =>
    rw [decideBody_of_pending hd, closingEffect_of_plain fun hm => hop (by simp_all)]
    have hp := closing_prepares (overtaken_prepares q b.word s) (x := s.q q) (by rw [overtaken_q])
    exact State.decisionKeeps_trans hp.keeps (resolved_keeps _ (hp.body_eq hb))

/-- After the action of body `b` a decision of quarter q's word follows, or none: the body with its action stands. -/
structure State.follows (q : Nat) (b : Body) (s t : State) : Prop where
  keeps : s.decisionKeeps q t
  latch : (t.q q).latch = (s.q q).latch
  body : ∃ c, (t.q q).body = some c ∧ c.acted = b.acted ∧ c.start = b.start ∧ c.played = b.played

theorem decideWord_follows (hb : (s.q q).body = some b) (hop : op ∉ [2, 3, 4, 5, 6, 7]) : s.follows q b (decideWord q op s) := by
  cases hd : s.deciding q op with
  | none =>
    rw [decideWord_of_none hd]
    exact ⟨(s.prepares_refl q).keeps, rfl, b, hb, rfl, rfl, rfl⟩
  | some c =>
    obtain rfl : b = c := Option.some.inj (hb.symm.trans (deciding_body hd))
    have hcop : mwOp b.word ∉ [2, 3, 4, 5, 6, 7] := by rwa [deciding_op hd]
    obtain ⟨hgo, -, -, hlatch⟩ := decideBody_passes hb hcop
    rw [decideWord_of_deciding hd]
    exact ⟨decideBody_keeps hb hcop, hlatch, _, hgo.1, rfl, rfl, rfl⟩

/-! ### Before the action, and at it -/

theorem startAction_of_not (h : b.acted = true ∨ s.now < b.start) : startAction q b s = s :=
  if_pos (by simpa using h)

/-- The body once its action is taken. -/
def marked (q : Nat) (b : Body) (s : State) : State := s.setQ q { s.q q with body := some { b with acted := true } }

theorem marked_q (q : Nat) (b : Body) (s : State) : (marked q b s).q q = { s.q q with body := some { b with acted := true } } :=
  State.q_setQ_same _ _ _

theorem marked_others (b : Body) {k : Nat} (h : k ≠ q) : (marked q b s).q k = s.q k := State.q_setQ_ne _ _ h

theorem actWord_of_none (h : s.executing q op = none) : actWord q op s = s := by
  unfold actWord decideWord
  rw [h]
  dsimp only
  rw [h]

theorem actWord_of_not (h : s.executing q op = some b) (hacted : b.acted = true ∨ s.now < b.start) : actWord q op s = decideWord q op s := by
  unfold actWord
  rw [h]
  dsimp only
  rw [startAction_of_not hacted]

/-- A word that has acted goes on at its decision point, or to the target of a pending jump; before it nothing happens. -/
theorem actWord_after (hop : op ∉ [2, 3, 4, 5, 6, 7]) :
    (∀ b, s.executing q op = none ∨ (s.executing q op = some b ∧ (b.acted = true ∨ s.now < b.start) ∧ s.decides b = false) →
      actWord q op s = s) ∧
    ∀ b, s.deciding q op = some b → b.acted = true → s.goes q b ((s.deferred q).getD (b.addr + 1)) (actWord q op s) := by
  refine ⟨fun b h => ?_, fun b hd hacted => ?_⟩
  · rcases h with h | ⟨h, hacted, hdecides⟩
    · exact actWord_of_none h
    · rw [actWord_of_not h hacted]
      refine decideWord_of_none ?_
      unfold State.deciding
      rw [h, Option.filter_some, hdecides]
      rfl
  · rw [actWord_of_not (deciding_iff.1 hd).1 (.inl hacted), decideWord_of_deciding hd]
    exact (decideBody_passes (deciding_body hd) (by rwa [deciding_op hd])).1

theorem executing_body (h : s.executing q op = some b) : (s.q q).body = some b := (executing_iff.1 h).1

theorem executing_qstate (h : s.executing q op = some b) : s.qstate q = 1 := (executing_iff.1 h).2.1

theorem executing_op (h : s.executing q op = some b) : mwOp b.word = op := (executing_iff.1 h).2.2.1

/-- From `s` to `t` quarter q's unit works: no sequencer changes but for latches of its own. -/
structure State.unitWorks (q : Nat) (b : Body) (s t : State) : Prop where
  others : ∀ k, k ≠ q → t.q k = s.q k
  body : (t.q q).body = some { b with acted := true }

/-- The state after the word's action and its decision, from the one after the action. -/
theorem actWord_of_action {f : State → State} (hop : op ∉ [2, 3, 4, 5, 6, 7]) (h : s.executing q op = some b)
    (hf : startAction q b s = f (marked q b s)) (hworks : s.unitWorks q b (f (marked q b s))) :
    (f (marked q b s)).follows q { b with acted := true } (actWord q op s) ∧ (∀ k, k ≠ q → (actWord q op s).q k = s.q k) ∧
      ∃ c, ((actWord q op s).q q).body = some c ∧ c.acted = true ∧ c.start = b.start ∧ c.played = b.played := by
  have hact : actWord q op s = decideWord q op (f (marked q b s)) := by
    unfold actWord
    rw [h]
    dsimp only
    rw [hf]
  have hfollows := decideWord_follows hworks.body hop
  rw [hact]
  exact ⟨hfollows, fun k hk => (hfollows.keeps.others k hk).1.trans (hworks.others k hk), hfollows.body⟩

end

/-- What follows the action leaves. -/
theorem State.follows.frame {q : Nat} {b : Body} {s t : State} (h : s.follows q b t) :
    t.txns = s.txns ∧ t.ports = s.ports ∧ t.tdcs = s.tdcs ∧ t.chans = s.chans ∧ t.cal = s.cal := by
  rw [h.keeps.frame]
  exact ⟨rfl, rfl, rfl, rfl, rfl⟩

theorem State.follows.reg {q a : Nat} {b : Body} {s t : State} (h : s.follows q b t) (ha : a ∉ decisionRegs q) : t.reg a = s.reg a :=
  h.keeps.regs a ha

end Sys2Proof.Machine
end

section
/-! COMMIT's action: the quarter's transaction, and the pending corrections (R294, R299). -/

namespace Sys2Proof.Machine

/-- From `s` to `t` corrections of quarter q's channels are taken: the channels and their registers change, and no other. -/
structure State.corrects (q : Nat) (s t : State) : Prop where
  page : ∀ a, quarterBase q + 0x2000 ≤ a → a < quarterBase q + 0x3000 → t.reg a = s.reg a
  frame : t = { s with regs := t.regs, copyB := t.copyB, copyC := t.copyC, chans := t.chans }

section
variable {q : Nat} {s t u : State}

theorem State.corrects_refl (q : Nat) (s : State) : s.corrects q s := ⟨fun _ _ _ => rfl, rfl⟩

theorem State.corrects_trans (h1 : s.corrects q t) (h2 : t.corrects q u) : s.corrects q u where
  page a hlo hhi := (h2.page a hlo hhi).trans (h1.page a hlo hhi)
  frame := by
    refine h2.frame.trans ?_
    conv_lhs => rw [h1.frame]

theorem setReg_corrects {a : Nat} (v : Word) (s : State) (h : a < quarterBase q + 0x2000 ∨ quarterBase q + 0x3000 ≤ a) :
    s.corrects q (s.setReg a v) :=
  ⟨fun _ _ _ => State.reg_setReg_ne s v (by omega), rfl⟩

theorem setChan_corrects (c : Nat) (x : Chan) (s : State) : s.corrects q (s.setChan c x) := ⟨fun _ _ _ => rfl, rfl⟩

theorem ite_corrects {c : Prop} {_ : Decidable c} (ht : s.corrects q t) (hu : s.corrects q u) : s.corrects q (if c then t else u) := by
  split
  · exact ht
  · exact hu

theorem foldl_corrects {β : Type} {f : State → β → State} (l : List β) (hf : ∀ (s : State) x, x ∈ l → s.corrects q (f s x)) (s : State) :
    s.corrects q (l.foldl f s) :=
  List.foldlRecOn (motive := fun t : State => s.corrects q t) l f (s.corrects_refl q) fun t h x hx => State.corrects_trans h (hf t x hx)

theorem showCorr_corrects {i : Nat} (hi : i < 64) (s : State) : s.corrects q (showCorr (q * 64 + i) s) := by
  have hq : (q * 64 + i) / 64 = q := by omega
  have hm : (q * 64 + i) % 64 = i := by omega
  have hshow : ∀ (u : State) (a : Nat) (v : Word), a < quarterBase q + 0x2000 → u.corrects q (if u.reg a = v then u else u.setReg a v) :=
    fun u a v ha => ite_corrects (u.corrects_refl q) (setReg_corrects v u (.inl ha))
  unfold showCorr
  dsimp only
  rw [hq, hm]
  exact State.corrects_trans (hshow s _ _ (by unfold R.QTS_CORR_D; omega)) (hshow _ _ _ (by unfold R.QTS_CORR_C; omega))

theorem putCorr_corrects {i : Nat} (hi : i < 64) (d k v : Int) (s : State) : s.corrects q (putCorr (q * 64 + i) d k v s) := by
  have hreg : s.corrects q (s.setReg (R.CH_CMP_CORR (q * 64 + i)) (BitVec.ofInt 16 v)) :=
    setReg_corrects _ s (by unfold R.CH_CMP_CORR quarterBase; omega)
  exact State.corrects_trans (State.corrects_trans hreg (setChan_corrects _ _ _)) (showCorr_corrects hi _)

theorem calCommit_corrects (q t : Nat) (s : State) : s.corrects q (calCommit q t s) := by
  unfold calCommit
  refine ite_corrects (s.corrects_refl q) (foldl_corrects (f := fun s i => _) _ (fun u i hi => ?_) s)
  exact ite_corrects (u.corrects_refl q) (ite_corrects (putCorr_corrects (List.mem_range.1 hi) _ _ _ u) (setChan_corrects _ _ u))

theorem commitSites_corrects (q : Nat) (l : List (Nat × Option Nat)) (s : State) : s.corrects q (commitSites q l s) :=
  foldl_corrects l (fun u _ _ => setChan_corrects _ _ u) s

/-- CTIME's four words (R43). -/
def putTime (u t : Nat) (s : State) : State :=
  forAll (List.range 4) (fun i s => s.setReg (txnBase u + 16 + 4 * i) (word (t / 2 ^ (16 * i)))) s

theorem putTime_reg (u t : Nat) (s : State) : (∀ i : Fin 4, (putTime u t s).reg (txnBase u + 16 + 4 * i.val) =
    BitVec.ofNat 16 (t / 2 ^ (16 * i.val))) ∧ (∀ a, a < txnBase u + 16 → (putTime u t s).reg a = s.reg a) := by
  have hstores : putTime u t s = (((s.setReg (txnBase u + 16 + 4 * 0) (word (t / 2 ^ (16 * 0)))).setReg (txnBase u + 16 + 4 * 1)
      (word (t / 2 ^ (16 * 1)))).setReg (txnBase u + 16 + 4 * 2) (word (t / 2 ^ (16 * 2)))).setReg (txnBase u + 16 + 4 * 3)
      (word (t / 2 ^ (16 * 3))) := rfl
  rw [hstores]
  refine ⟨fun i => ?_, fun a ha => ?_⟩
  · obtain ⟨i, hi⟩ := i
    simp only [State.reg_setReg, Nat.add_left_cancel_iff]
    interval_cases i <;> rfl
  · simp only [State.reg_setReg]
    rw [if_neg (by omega), if_neg (by omega), if_neg (by omega), if_neg (by omega)]

/-- What a COMMIT's action leaves of the sequencers and of the units. -/
structure State.commits (q : Nat) (s t : State) : Prop where
  qs : t.qs = s.qs
  txn : ∀ k, k ≠ q → t.txn k = s.txn k

theorem txnPage (hq : q < 16) {k : Nat} (hk : k < 0x100) :
    quarterBase q + 0x2000 ≤ txnBase q + k ∧ txnBase q + k < quarterBase q + 0x3000 := by
  unfold txnBase R.QTXN_CTRL
  rw [if_pos hq]
  omega

/-- A CMODE 4 unit with an empty queue is applied: it returns to IDLE, with COMMITTED and its time (R43, R299). -/
theorem commitUnit_settles (hq : q < 16) (t : Nat) (hempty : (s.txn q).queue = []) :
    let u := commitUnit q t s
    s.commits q u ∧ txnState u q = 0 ∧ u.rcHost (txnBase q + 8) &&& 0x20 = 0x20 ∧ u.rcSpx1 (txnBase q + 8) &&& 0x20 = 0x20 ∧
      ∀ i : Fin 4, u.reg (txnBase q + 16 + 4 * i.val) = BitVec.ofNat 16 (t / 2 ^ (16 * i.val)) := by
  obtain ⟨v, hv⟩ : ∃ v, setTxnState q 0 0 (setTxnQueue q [] s) = v := ⟨_, rfl⟩
  obtain ⟨hstate, -, -, -, -, htxn, -⟩ := queueThenState q 0 0 [] s (by decide) (by decide)
  rw [hv] at hstate htxn
  have hqs : v.qs = s.qs := hv ▸ rfl
  obtain ⟨w, hw⟩ : ∃ w, ((putTime q t v).raiseMask (txnBase q + 8) 0x20).count 0xA6 1 = w := ⟨_, rfl⟩
  have hev := hw ▸ raiseMask_count_eventsOnly (putTime q t v) (txnBase q + 8) 0x20 0xA6 1
  obtain ⟨hhost, hspx⟩ := raiseMask_sets (putTime q t v) (txnBase q + 8) 0x20
  obtain ⟨hhost', hspx'⟩ := (count_rcGrows ((putTime q t v).raiseMask (txnBase q + 8) 0x20) 0xA6 1).keeps ⟨hhost, hspx⟩
  rw [hw] at hhost' hspx'
  have hfix := State.corrects_trans (commitSites_corrects q (s.txn q).sites w) (calCommit_corrects q t _)
  obtain ⟨htime, hbefore⟩ := putTime_reg q t v
  have hu : commitUnit q t s = calCommit q t (commitSites q (s.txn q).sites w) := by
    unfold commitUnit
    rw [hempty, if_pos hq, ← hw, ← hv]
    rfl
  have hpage : ∀ k, k < 0x100 → (calCommit q t (commitSites q (s.txn q).sites w)).reg (txnBase q + k) = (putTime q t v).reg (txnBase q + k) :=
    fun k hk => (hfix.page _ (txnPage hq hk).1 (txnPage hq hk).2).trans (hev.reg _)
  rw [hu]
  generalize calCommit q t (commitSites q (s.txn q).sites w) = u at hfix hpage
  have hrest : u.qs = w.qs ∧ u.txns = w.txns ∧ u.hostRc = w.hostRc ∧ u.spx1Rc = w.spx1Rc := by
    rw [hfix.frame]
    exact ⟨rfl, rfl, rfl, rfl⟩
  obtain ⟨hqs', htxns', hhostRc, hspxRc⟩ := hrest
  refine ⟨⟨?_, fun k hk => ?_⟩, ?_, ?_, ?_, fun i => ?_⟩
  · rw [hqs', hev.1]
    exact hqs
  · rw [State.txn, htxns', hev.txns]
    exact htxn k hk
  · rw [← hstate]
    exact (txnState_congr ((hpage 8 (by decide)).trans (hbefore _ (by omega)))).1
  · rw [State.rcHost, hhostRc]
    exact hhost'
  · rw [State.rcSpx1, hspxRc]
    exact hspx'
  · have hi := i.isLt
    rw [Nat.add_assoc, hpage _ (by omega), ← Nat.add_assoc, htime i]

/-- Without a CMODE 4 unit that waits, the corrections alone are taken (R299). -/
theorem calCommit_settles (hq : q < 16) (t : Nat) (s : State) :
    (calCommit q t s).txns = s.txns ∧ txnState (calCommit q t s) q = txnState s q ∧ (calCommit q t s).qs = s.qs := by
  have h := calCommit_corrects q t s
  refine ⟨?_, (txnState_congr (h.page _ (txnPage hq (k := 8) (by decide)).1 (txnPage hq (k := 8) (by decide)).2)).1, ?_⟩
  · rw [h.frame]
  · rw [h.frame]

theorem startAction_commit {b : Body} (hop : mwOp b.word = 0x0B) (hacted : b.acted = false) (hstart : b.start ≤ s.now) :
    startAction q b s = commitWord q b.start (marked q b s) := by
  unfold startAction
  rw [if_neg (by simp [hacted]; omega)]
  simp only [hop]
  rfl

theorem marked_txn (b : Body) (s : State) (q k : Nat) : (marked q b s).txn k = s.txn k := rfl

theorem txnReg_not_decision (hq : q < 16) {k : Nat} (hk : k < 0x100) : txnBase q + k ∉ decisionRegs q := by
  unfold decisionRegs txnBase R.QTXN_CTRL
  rw [if_pos hq]
  simp only [R.QSEQ_STACK, R.QSEQ_LOOP_L, R.QSEQ_LOOP_H, R.QSEQ_DEFER, R.QSEQ_DEFER_OVR, R.QSEQ_FLAG,
    R.QSEQ_FAULT_PC, R.QTS_ERR_TS, R.MEM_ERR_SEG_L, R.MEM_ERR_SEG_H, F.QSEQ_FAULT_PC_FAULT_PC, F.MEM_ERR_SEG_L_SEG_L,
    F.MEM_ERR_SEG_H_SEG_H, quarterBase, List.mem_cons, List.not_mem_nil, or_false, not_or]
  omega

/-- COMMIT at its body's start (R294). -/
theorem commit_acts {q : Fin 16} {b : Body} (h : s.executing q 0x0B = some b) (hacted : b.acted = false) (hstart : b.start ≤ s.now) :
    let t := actWord q 0x0B s
    (txnState s q = 2 → (s.txn q).cmode = 4 → (s.txn q).queue = [] →
        txnState t q = 0 ∧ t.rcHost (txnBase q + 8) &&& 0x20 = 0x20 ∧ t.rcSpx1 (txnBase q + 8) &&& 0x20 = 0x20 ∧
        (∀ i : Fin 4, t.reg (txnBase q + 16 + 4 * i.val) = BitVec.ofNat 16 (b.start / 2 ^ (16 * i.val))) ∧
        (∀ k, k ≠ q.val → t.txn k = s.txn k)) ∧
      (txnState s q ≠ 2 ∨ (s.txn q).cmode ≠ 4 → t.txns = s.txns ∧ txnState t q = txnState s q) ∧
      ((txnState s q = 2 → (s.txn q).cmode = 4 → (s.txn q).queue = []) →
        ∃ c, (t.q q).body = some c ∧ c.acted = true ∧ c.start = b.start ∧ c.played = b.played) := by
  intro t
  have hf := startAction_commit (q := q) (executing_op h) hacted hstart
  have hpage := fun k (hk : k < 0x100) => txnReg_not_decision q.isLt hk
  have hworks : ∀ u : State, u.qs = (marked q b s).qs → s.unitWorks q b u := fun u hu => by
    have huq : ∀ k, u.q k = (marked q b s).q k := fun k => by rw [State.q, hu]; rfl
    exact ⟨fun k hk => (huq k).trans (marked_others b hk), by rw [huq, marked_q]⟩
  by_cases hc : txnState s q = 2 ∧ (s.txn q).cmode = 4
  · have hword : commitWord q b.start (marked q b s) = commitUnit q b.start (marked q b s) := if_pos (by
      rw [marked_txn, show txnState (marked q b s) q = txnState s q from rfl]
      simp [hc.1, hc.2])
    have hclause : (s.txn q).queue = [] → txnState t q = 0 ∧ t.rcHost (txnBase q + 8) &&& 0x20 = 0x20 ∧
        t.rcSpx1 (txnBase q + 8) &&& 0x20 = 0x20 ∧
        (∀ i : Fin 4, t.reg (txnBase q + 16 + 4 * i.val) = BitVec.ofNat 16 (b.start / 2 ^ (16 * i.val))) ∧
        (∀ k, k ≠ q.val → t.txn k = s.txn k) ∧ ∃ c, (t.q q).body = some c ∧ c.acted = true ∧ c.start = b.start ∧ c.played = b.played :=
      fun hempty => by
        obtain ⟨⟨hqs, htxn⟩, hstate, hhost, hspx, htime⟩ := commitUnit_settles (s := marked q b s) q.isLt b.start hempty
        rw [← hword] at hqs htxn hstate hhost hspx htime
        obtain ⟨hfollows, -, hbody⟩ := actWord_of_action (f := commitWord q b.start) (by decide) h hf (hworks _ hqs)
        obtain ⟨hhost', hspx'⟩ := hfollows.keeps.grows.keeps ⟨hhost, hspx⟩
        refine ⟨?_, hhost', hspx', fun i => ?_, fun k hk => ?_, hbody⟩
        · rw [← hstate]
          exact (txnState_congr (hfollows.reg (hpage 8 (by decide)))).1
        · have hi := i.isLt
          rw [← htime i]
          refine hfollows.reg ?_
          rw [Nat.add_assoc]
          exact hpage _ (by omega)
        · rw [State.txn, hfollows.frame.1]
          exact htxn k hk
    refine ⟨fun _ _ hempty => ?_, fun hn => absurd hc (by tauto), fun hempty => ?_⟩
    · obtain ⟨h1, h2, h3, h4, h5, -⟩ := hclause hempty
      exact ⟨h1, h2, h3, h4, h5⟩
    · obtain ⟨-, -, -, -, -, hbody⟩ := hclause (hempty hc.1 hc.2)
      exact hbody
  · have hword : commitWord q b.start (marked q b s) = calCommit q b.start (marked q b s) := if_neg (by
      rw [marked_txn, show txnState (marked q b s) q = txnState s q from rfl]
      simpa using hc)
    obtain ⟨htxns, hstate, hqs⟩ := calCommit_settles q.isLt b.start (marked q b s)
    rw [← hword] at htxns hstate hqs
    obtain ⟨hfollows, -, hbody⟩ := actWord_of_action (f := commitWord q b.start) (by decide) h hf (hworks _ hqs)
    refine ⟨fun h1 h2 => absurd ⟨h1, h2⟩ hc, fun _ => ⟨hfollows.frame.1.trans htxns, ?_⟩, fun _ => hbody⟩
    exact ((txnState_congr (hfollows.reg (hpage 8 (by decide)))).1).trans hstate

end

end Sys2Proof.Machine
end

section
/-! PXFER's action: a setup of the quarter's port is started (R263, R265, R272). -/

namespace Sys2Proof.Machine

/-- From `s` to `t` port n works: the other ports and sequencers stay, and a body of quarter n that waits on no latch. -/
structure State.portWorks (n : Nat) (s t : State) : Prop where
  seqs : ∀ k, k ≠ n → t.q k = s.q k
  ports : ∀ k, k ≠ n → t.port k = s.port k
  body : ∀ b, (s.q n).body = some b → mwOp b.word ≠ 3 → (t.q n).body = some b

section
variable {n : Nat} {s t u : State}

theorem State.portWorks_trans (h1 : s.portWorks n t) (h2 : t.portWorks n u) : s.portWorks n u :=
  ⟨fun k hk => (h2.seqs k hk).trans (h1.seqs k hk), fun k hk => (h2.ports k hk).trans (h1.ports k hk),
    fun b hb hop => h2.body b (h1.body b hb hop) hop⟩

theorem portWorks_of_eq (hqs : t.qs = s.qs) (hports : ∀ k, k ≠ n → t.port k = s.port k) : s.portWorks n t := by
  have hq : ∀ k, t.q k = s.q k := fun k => by rw [State.q, hqs]; rfl
  exact ⟨fun k _ => hq k, hports, fun b hb _ => by rw [hq, hb]⟩

theorem State.portWorks_refl (n : Nat) (s : State) : s.portWorks n s := portWorks_of_eq rfl fun _ _ => rfl

theorem ite_portWorks {c : Prop} {_ : Decidable c} (ht : s.portWorks n t) (hu : s.portWorks n u) : s.portWorks n (if c then t else u) := by
  split
  · exact ht
  · exact hu

theorem setPort_portWorks (x : Port) (s : State) : s.portWorks n (s.setPort n x) :=
  portWorks_of_eq rfl fun _ hk => State.port_setPort_ne s x hk

theorem portState_portWorks (st : Nat) (s : State) : s.portWorks n (portState n st s) := portWorks_of_eq rfl fun _ _ => rfl

theorem portRaise_port (bit : Nat) (s : State) : (portRaise n bit s).ports = s.ports ∧ (portRaise n bit s).qs = s.qs := by
  have hev := raiseMask_eventsOnly s (portBase n + 0x1C) (BitVec.ofNat 16 (2 ^ bit))
  unfold portRaise
  rw [hev.1]
  exact ⟨rfl, rfl⟩

theorem portRaise_portWorks (bit : Nat) (s : State) : s.portWorks n (portRaise n bit s) := by
  obtain ⟨hports, hqs⟩ := portRaise_port (n := n) bit s
  exact portWorks_of_eq hqs fun k _ => by rw [State.port, hports]; rfl

/-- A body that waits on no latch has none that comes late. -/
theorem not_lateFor_of_op {q trg : Nat} {b : Body} (hb : (s.q q).body = some b) (hop : mwOp b.word ≠ 3) : ¬s.lateFor q trg := by
  rintro ⟨c, hc, h3, -⟩
  obtain rfl := Option.some.inj (hb.symm.trans hc)
  exact hop h3

theorem State.latchKeeps.ports {q : Nat} (h : s.latchKeeps q t) : t.ports = s.ports := by rw [h.frame]

theorem portLatch_portWorks (trg : Nat) (s : State) : s.portWorks n (portLatch n trg s) := by
  unfold portLatch
  have hset := setLatch_latchesSet n trg s
  refine ite_portWorks ⟨hset.keeps.others, fun k _ => ?_, fun b hb hop => ?_⟩ (s.portWorks_refl n)
  · rw [State.port, hset.keeps.ports]
    rfl
  · rw [(hset.steady fun a _ => not_lateFor_of_op hb hop).1, hb]

theorem report_portWorks (src a : Nat) (s : State) : s.portWorks n (s.report src a) := portWorks_of_eq rfl fun _ _ => rfl

theorem portStart_portWorks (n k t : Nat) (s : State) : s.portWorks n (portStart n k t s) := by
  have hreport : ∀ u : State, u.portWorks n (if n < 16 then u.report (0x10C + 16 * n) 0 else u) := fun u =>
    ite_portWorks (report_portWorks _ _ u) (u.portWorks_refl n)
  unfold portStart
  refine ite_portWorks (State.portWorks_trans (portRaise_portWorks 7 s) (portLatch_portWorks _ _)) (ite_portWorks ?_ (ite_portWorks ?_ ?_))
  · exact State.portWorks_trans (State.portWorks_trans (portRaise_portWorks 10 s) (hreport _)) (portLatch_portWorks _ _)
  · exact State.portWorks_trans (setPort_portWorks _ s) (portState_portWorks _ _)
  · exact State.portWorks_trans (setPort_portWorks _ s) (portState_portWorks _ _)

theorem portSettle_portWorks (n b : Nat) (s : State) : s.portWorks n (portSettle n b s) := by
  unfold portSettle
  split
  · exact ite_portWorks (State.portWorks_trans (setPort_portWorks _ s) (portStart_portWorks _ _ _ _)) (s.portWorks_refl n)
  · exact s.portWorks_refl n

theorem peStart_portWorks (n k t : Nat) (s : State) : s.portWorks n (peStart n k t s) := by
  unfold peStart
  split
  · refine ite_portWorks (State.portWorks_trans (portSettle_portWorks _ _ s) (portStart_portWorks _ _ _ _))
      (ite_portWorks ?_ (portStart_portWorks _ _ _ s))
    exact State.portWorks_trans (State.portWorks_trans (State.portWorks_trans (setPort_portWorks _ s) (portStart_portWorks _ _ _ _))
      (portRaise_portWorks _ _)) (portLatch_portWorks _ _)
  · exact portStart_portWorks _ _ _ s

/-! ### What a start does -/

theorem peStart_of_idle {k t : Nat} (h : (s.port n).startAt = none) : peStart n k t s = portStart n k t s := by
  unfold peStart
  rw [h]

/-- A port that is busy, off or stopped refuses the start and latches its error (R272). -/
theorem portStart_of_busy {k t : Nat} (h : (s.port n).unit.isSome = true ∨ (s.port n).armed.isSome = true ∨ s.portEn n = false ∨
    (n < 16 ∧ s.chipFault = true)) : portStart n k t s = portLatch n 0x91 (portRaise n 7 s) :=
  if_pos (by
    simp only [Bool.or_eq_true, Bool.and_eq_true, Bool.not_eq_true', decide_eq_true_eq]
    tauto)

/-- An idle port that can take the setup starts it as a master, or arms it as a slave (R265). -/
theorem portStart_of_free {k t : Nat} (hunit : (s.port n).unit = none) (harmed : (s.port n).armed = none) (hen : s.portEn n = true)
    (hstate : s.qstate n ≠ 9) (hfault : s.chipFault = false) (hbad : s.setupBad n (s.portSetup n k) = false) :
    portStart n k t s = if s.portSlave n then portState n 1 (s.setPort n { s.port n with armed := some (s.portSetup n k) })
      else portState n 2 (s.setPort n { s.port n with
        unit := some { setup := s.portSetup n k, t0 := max t (s.port n).idleTo, slave := false,
                       cpol := fieldOf (portReg s n 4) 13 1 = 1 } }) := by
  unfold portStart
  dsimp only
  rw [if_neg (by simp [hunit, harmed, hen, hstate, hfault]), if_neg (by simp [hbad])]

theorem portState_port (st k : Nat) (s : State) : (portState n st s).port k = s.port k := rfl

/-- The refusal leaves the port, and its latch is set. -/
theorem portRefusal_settles {b : Body} (hn : n < 16) (hb : (s.q n).body = some b) (hop : mwOp b.word ≠ 3) :
    (portLatch n 0x91 (portRaise n 7 s)).port n = s.port n ∧ (portLatch n 0x91 (portRaise n 7 s)).latched n 0x91 = true := by
  obtain ⟨hports, hqs⟩ := portRaise_port (n := n) 7 s
  have hset := setLatch_latchesSet n 0x91 (portRaise n 7 s)
  have hb' : ((portRaise n 7 s).q n).body = some b := by
    rw [State.q, hqs]
    exact hb
  unfold portLatch
  rw [if_pos hn]
  refine ⟨?_, ?_⟩
  · rw [State.port, hset.keeps.ports, hports]
    rfl
  · unfold State.latched
    rw [hset.onTime 0x91 (List.mem_singleton.2 rfl) (by decide) (by decide) (not_lateFor_of_op hb' hop)]
    rfl

end

section
variable {q : Fin 16} {s : State} {b : Body}

theorem startAction_pxfer (hop : mwOp b.word = 0x0C) (hacted : b.acted = false) (hstart : b.start ≤ s.now) :
    startAction q b s = peStart q (mwCnt b.word % 16) b.start (marked q b s) := by
  unfold startAction
  rw [if_neg (by simp [hacted]; omega)]
  simp only [hop]
  rfl

/-- PXFER at its body's start (R272). -/
theorem pxfer_acts (h : s.executing q 0x0C = some b) (hacted : b.acted = false) (hstart : b.start ≤ s.now) :
    let t := actWord q 0x0C s
    ((s.port q).unit = none → (s.port q).armed = none → (s.port q).startAt = none → s.portEn q = true →
        s.chipFault = false → s.setupBad q (s.portSetup q (mwCnt b.word % 16)) = false →
        (s.portSlave q = false → ∃ u, (t.port q).unit = some u ∧ u.setup = s.portSetup q (mwCnt b.word % 16) ∧
          u.t0 = max b.start (s.port q).idleTo ∧ u.slave = false) ∧
        (s.portSlave q = true → (t.port q).armed = some (s.portSetup q (mwCnt b.word % 16)))) ∧
      ((s.port q).startAt = none → (s.port q).unit.isSome = true ∨ (s.port q).armed.isSome = true ∨ s.portEn q = false ∨
        s.chipFault = true → t.port q = s.port q ∧ t.latched q 0x91 = true) ∧
      (∀ k, k ≠ q.val → t.port k = s.port k) ∧
      (∃ c, (t.q q).body = some c ∧ c.acted = true ∧ c.start = b.start ∧ c.played = b.played) ∧ ∀ k, k ≠ q.val → t.q k = s.q k := by
  intro t
  have hop := executing_op h
  have hne : mwOp b.word ≠ 3 := by rw [hop]; decide
  have hstate : (marked q b s).qstate q ≠ 9 := by
    have hrun : (marked q b s).qstate q = s.qstate q := rfl
    rw [hrun, executing_qstate h]
    decide
  have hmarked : ((marked q b s).q q).body = some { b with acted := true } := by rw [marked_q]
  have hport := peStart_portWorks q (mwCnt b.word % 16) b.start (marked q b s)
  obtain ⟨hfollows, hothers, hbody⟩ := actWord_of_action (f := peStart q (mwCnt b.word % 16) b.start) (by decide) h
    (startAction_pxfer hop hacted hstart) ⟨fun k hk => (hport.seqs k hk).trans (marked_others b hk), hport.body _ hmarked hne⟩
  have hports : ∀ k, t.port k = (peStart q (mwCnt b.word % 16) b.start (marked q b s)).port k := fun k => by
    rw [State.port, hfollows.frame.2.1]
    rfl
  refine ⟨fun hunit harmed hidle hen hfault hbad => ?_, fun hidle hbusy => ?_, fun k hk => (hports k).trans (hport.ports k hk), hbody, hothers⟩
  · have hstart : peStart q (mwCnt b.word % 16) b.start (marked q b s) = _ := (peStart_of_idle (s := marked q b s) hidle).trans
      (portStart_of_free hunit harmed hen hstate hfault hbad)
    rw [hports, hstart]
    refine ⟨fun hslave => ?_, fun hslave => ?_⟩
    · rw [if_neg (by rw [show (marked q b s).portSlave q = false from hslave]; decide), portState_port, State.port_setPort_same]
      exact ⟨_, rfl, rfl, rfl, rfl⟩
    · rw [if_pos (show (marked q b s).portSlave q = true from hslave), portState_port, State.port_setPort_same]
      rfl
  · have hstart : peStart q (mwCnt b.word % 16) b.start (marked q b s) = portLatch q 0x91 (portRaise q 7 (marked q b s)) :=
      (peStart_of_idle (s := marked q b s) hidle).trans (portStart_of_busy (by
        rcases hbusy with hb | hb | hb | hb
        · exact .inl hb
        · exact .inr (.inl hb)
        · exact .inr (.inr (.inl hb))
        · exact .inr (.inr (.inr ⟨q.isLt, hb⟩))))
    obtain ⟨hsame, hlatched⟩ := portRefusal_settles (s := marked q b s) q.isLt hmarked hne
    rw [hports]
    rw [hstart] at hfollows ⊢
    exact ⟨hsame, (latched_congr hfollows.latch _).trans hlatched⟩

end

end Sys2Proof.Machine
end

section
/-! TARM's action: time-interval units are armed (R230, R231). -/

namespace Sys2Proof.Machine

/-- From `s` to `t` the units of the list `l` are armed or say why not; of the registers their STATE alone changes. -/
structure State.unitsArm (l : List Nat) (s t : State) : Prop where
  regs : s.regsKept (l.map R.TDC_STATE) t
  qs : t.qs = s.qs
  tdcs : ∀ i, i ∉ l → t.tdc i = s.tdc i
  grows : s.rcGrows t

section
variable {u : Nat} {s t v : State}

theorem State.unitsArm_trans {l l' : List Nat} (h1 : s.unitsArm l t) (h2 : t.unitsArm l' v) : s.unitsArm (l ++ l') v where
  regs := State.regsKept_trans (State.regsKept_mono h1.regs fun a ha => by rw [List.map_append]; exact List.mem_append_left _ ha)
    (State.regsKept_mono h2.regs fun a ha => by rw [List.map_append]; exact List.mem_append_right _ ha)
  qs := h2.qs.trans h1.qs
  tdcs i hi := by
    rw [List.mem_append, not_or] at hi
    exact (h2.tdcs i hi.2).trans (h1.tdcs i hi.1)
  grows := State.rcGrows_trans h1.grows h2.grows

theorem State.unitsArm_nil (s : State) : s.unitsArm [] s := ⟨fun _ _ => rfl, rfl, fun _ _ => rfl, s.rcGrows_refl⟩

theorem State.unitsArm_mono {l : List Nat} (h : s.unitsArm [] t) : s.unitsArm l t :=
  ⟨State.regsKept_mono h.regs nofun, h.qs, fun i _ => h.tdcs i List.not_mem_nil, h.grows⟩

theorem raise_unitsArm (f : Fld) (s : State) : s.unitsArm [] (s.raise f) := by
  have hev := raise_eventsOnly s f
  exact ⟨fun a _ => hev.reg a, by rw [hev.1], fun i _ => by rw [hev.1]; rfl, raise_rcGrows s f⟩

theorem report_unitsArm (src a : Nat) (s : State) : s.unitsArm [] (s.report src a) :=
  ⟨fun _ _ => rfl, rfl, fun _ _ => rfl, State.rcGrows_of_eq rfl rfl⟩

theorem addWaiting_unitsArm (q : Nat) (r : Record) (s : State) : s.unitsArm [] (addWaiting q r s) := by
  unfold addWaiting
  split
  · exact s.unitsArm_nil
  · exact ⟨fun _ _ => rfl, rfl, fun _ _ => rfl, State.rcGrows_of_eq rfl rfl⟩

theorem timeEmit_unitsArm (u dt fine st : Nat) (stops : List Nat) (ssn goff : Nat) (abort : Bool) (s : State) :
    s.unitsArm [] (timeEmit u dt fine st stops ssn goff abort s) := by
  unfold timeEmit
  dsimp only
  split
  · exact s.unitsArm_nil
  · split
    · exact State.unitsArm_trans (addWaiting_unitsArm _ _ s) (addWaiting_unitsArm _ _ _)
    · exact addWaiting_unitsArm _ _ s

/-- A unit that does not open its window says why and stays (R230). -/
theorem refusedUnit_settles (f : Fld) (src a dt fine st : Nat) (stops : List Nat) (ssn goff : Nat) (abort : Bool) (s : State) :
    let v := timeEmit u dt fine st stops ssn goff abort ((s.raise f).report src a)
    s.unitsArm [] v ∧ v.tdc u = s.tdc u ∧ v.flagged f := by
  intro v
  have hreport := report_unitsArm src a (s.raise f)
  have hemit := timeEmit_unitsArm u dt fine st stops ssn goff abort ((s.raise f).report src a)
  have harms := State.unitsArm_trans (State.unitsArm_trans (raise_unitsArm f s) hreport) hemit
  exact ⟨harms, harms.tdcs u List.not_mem_nil, hemit.grows.flagged (hreport.grows.flagged (raise_flagged s f))⟩

/-- The unit is enabled and idle, and nothing is wrong with the chip. -/
def State.unitOpen (s : State) (u : Nat) : Prop := s.bit (F.TDC_CTRL_EN u) = true ∧ s.tdcState u = 0 ∧ s.chipFault = false

/-- What arming unit u does (R230, R231), by the state of the unit in `s`. -/
structure State.armed (s : State) (u t : Nat) (v : State) : Prop where
  ready : s.unitOpen u → s.tdcCfgOk u = true → s.tdcReady u = true → v.tdcState u = 1 ∧ v.tdc u = { opens := t }
  stays : s.unitOpen u → ¬(s.tdcCfgOk u = true ∧ s.tdcReady u = true) → v.tdc u = s.tdc u
  badCfg : s.unitOpen u → s.tdcCfgOk u = false → v.flagged (F.TDC_STAT_CFG_ERR u)
  notReady : s.unitOpen u → s.tdcCfgOk u = true → s.tdcReady u = false → v.flagged (F.TDC_STAT_NOT_READY u)
  closed : ¬s.unitOpen u → v.tdc u = s.tdc u ∧ v.flagged (F.TDC_STAT_ARM_OVR u)

theorem tdcArm_of_closed {t : Nat} (h : ¬s.unitOpen u) : tdcArm u t s = s.raise (F.TDC_STAT_ARM_OVR u) :=
  if_pos (by
    simp only [Bool.or_eq_true, Bool.not_eq_true', decide_eq_true_eq]
    by_contra hn
    simp only [not_or, Bool.not_eq_false, Bool.not_eq_true] at hn
    obtain ⟨⟨⟨hen, hstate⟩, -⟩, hfault⟩ := hn
    exact h ⟨hen, not_not.1 hstate, hfault⟩)

theorem unitGate (hopen : s.unitOpen u) (hq : s.qstate (u / 4) ≠ 9) :
    ¬(!s.bit (F.TDC_CTRL_EN u) || s.tdcState u ≠ 0 || s.qstate (u / 4) = 9 || s.chipFault) = true := by
  obtain ⟨hen, hstate, hfault⟩ := hopen
  simp [hen, hstate, hfault, hq]

theorem tdcArm_of_badCfg {t : Nat} (hopen : s.unitOpen u) (hq : s.qstate (u / 4) ≠ 9) (hcfg : s.tdcCfgOk u = false) :
    s.unitsArm [] (tdcArm u t s) ∧ (tdcArm u t s).tdc u = s.tdc u ∧ (tdcArm u t s).flagged (F.TDC_STAT_CFG_ERR u) := by
  unfold tdcArm tdcOpen
  dsimp only
  rw [if_neg (unitGate hopen hq), if_pos (by simp [hcfg])]
  exact refusedUnit_settles _ _ _ _ _ _ _ _ _ _ s

theorem tdcArm_of_notReady {t : Nat} (hopen : s.unitOpen u) (hq : s.qstate (u / 4) ≠ 9) (hcfg : s.tdcCfgOk u = true)
    (hready : s.tdcReady u = false) :
    s.unitsArm [] (tdcArm u t s) ∧ (tdcArm u t s).tdc u = s.tdc u ∧ (tdcArm u t s).flagged (F.TDC_STAT_NOT_READY u) := by
  unfold tdcArm tdcOpen
  dsimp only
  rw [if_neg (unitGate hopen hq), if_neg (by simp [hcfg]), if_pos (by simp [hready])]
  exact refusedUnit_settles _ _ _ _ _ _ _ _ _ _ s

theorem tdcArm_of_ready {t : Nat} (hopen : s.unitOpen u) (hq : s.qstate (u / 4) ≠ 9) (hcfg : s.tdcCfgOk u = true)
    (hready : s.tdcReady u = true) : tdcArm u t s = (s.setTdc u { opens := t }).setFld (F.TDC_STATE_STATE u) 1 := by
  unfold tdcArm tdcOpen
  dsimp only
  rw [if_neg (unitGate hopen hq), if_neg (by simp [hcfg]), if_neg (by simp [hready])]

theorem tdcArm_settles {t : Nat} (hq : s.qstate (u / 4) ≠ 9) : s.unitsArm [u] (tdcArm u t s) ∧ s.armed u t (tdcArm u t s) := by
  by_cases hopen : s.unitOpen u
  · cases hcfg : s.tdcCfgOk u with
    | false =>
      obtain ⟨harms, htdc, hflag⟩ := tdcArm_of_badCfg (t := t) hopen hq hcfg
      exact ⟨State.unitsArm_mono harms, fun _ h => absurd h (by simp [hcfg]), fun _ _ => htdc, fun _ _ => hflag,
        fun _ h => absurd h (by simp [hcfg]), fun h => absurd hopen h⟩
    | true =>
      cases hready : s.tdcReady u with
      | false =>
        obtain ⟨harms, htdc, hflag⟩ := tdcArm_of_notReady (t := t) hopen hq hcfg hready
        exact ⟨State.unitsArm_mono harms, fun _ _ h => absurd h (by simp [hready]), fun _ _ => htdc, fun _ h => absurd h (by simp [hcfg]),
          fun _ _ _ => hflag, fun h => absurd hopen h⟩
      | true =>
        rw [tdcArm_of_ready hopen hq hcfg hready]
        refine ⟨⟨fun a ha => ?_, rfl, fun i hi => ?_, State.rcGrows_of_eq rfl rfl⟩, fun _ _ _ => ⟨?_, ?_⟩,
          fun _ h => absurd ⟨hcfg, hready⟩ h, fun _ h => absurd h (by simp [hcfg]), fun _ _ h => absurd h (by simp [hready]),
          fun h => absurd hopen h⟩
        · exact State.reg_setFld_ne _ _ (show a ≠ R.TDC_STATE u by simpa using ha)
        · exact State.tdc_setTdc_ne s _ (by simpa using hi)
        · exact State.fld_setFld (s.setTdc u { opens := t }) (F.TDC_STATE_STATE u) 1 (show 0 + 2 ≤ 16 by decide)
        · exact State.tdc_setTdc_same s u _
  · rw [tdcArm_of_closed hopen]
    have harms := raise_unitsArm (F.TDC_STAT_ARM_OVR u) s
    exact ⟨State.unitsArm_mono harms, fun h => absurd h hopen, fun h => absurd h hopen, fun h => absurd h hopen, fun h => absurd h hopen,
      fun _ => ⟨harms.tdcs u List.not_mem_nil, raise_flagged s _⟩⟩

/-! ### Several units -/

/-- The registers that gate a unit are no STATE of another. -/
theorem not_mem_unitState {a : Nat} {l : List Nat} (h : a % 0x100 ≠ 0x24) : a ∉ l.map R.TDC_STATE := by
  rw [List.mem_map]
  rintro ⟨i, -, rfl⟩
  exact h (by unfold R.TDC_STATE quarterBase; omega)

theorem unitState_inj {i k : Nat} (h : R.TDC_STATE i = R.TDC_STATE k) : i = k := by
  unfold R.TDC_STATE quarterBase at h
  omega

theorem State.unitsArm.tdcState {l : List Nat} (h : s.unitsArm l v) (hu : u ∉ l) : v.tdcState u = s.tdcState u := by
  have hne : R.TDC_STATE u ∉ l.map R.TDC_STATE := fun hm => by
    obtain ⟨i, hi, heq⟩ := List.mem_map.1 hm
    exact hu (unitState_inj heq ▸ hi)
  exact congrArg (fieldOf · 0 2) (h.regs _ hne)

/-- The gates of unit u rest on nothing that arming other units changes. -/
theorem State.unitsArm.gates {l : List Nat} (h : s.unitsArm l v) (hu : u ∉ l) (hlt : u < 64) :
    (v.unitOpen u ↔ s.unitOpen u) ∧ v.tdcCfgOk u = s.tdcCfgOk u ∧ v.tdcReady u = s.tdcReady u := by
  have hreg : ∀ a, a % 0x100 ≠ 0x24 → v.reg a = s.reg a := fun a ha => h.regs a (not_mem_unitState ha)
  have hfld : ∀ f : Fld, f.addr % 0x100 ≠ 0x24 → v.fld f = s.fld f := fun f hf => by rw [State.fld, hreg _ hf]; rfl
  have hbit : ∀ f : Fld, f.addr % 0x100 ≠ 0x24 → v.bit f = s.bit f := fun f hf => by rw [State.bit, hfld f hf]; rfl
  have hunit : ∀ k, k < 0x100 → k ≠ 0x24 → (quarterBase (u / 4) + 0x3000 + u % 4 * 0x100 + k) % 0x100 ≠ 0x24 := fun k hk hne => by
    unfold quarterBase
    omega
  have harm := hunit 4 (by decide) (by decide)
  have hstart := hunit 0xC (by decide) (by decide)
  have hstop := hunit 0x10 (by decide) (by decide)
  have hdll : R.TDCC_DLL_STAT (u / 4) % 0x100 ≠ 0x24 := by
    unfold R.TDCC_DLL_STAT
    omega
  refine ⟨?_, ?_, ?_⟩
  · unfold State.unitOpen
    rw [hbit (F.TDC_CTRL_EN u) (hunit 0 (by decide) (by decide)), h.tdcState hu,
      show v.chipFault = s.chipFault from hbit F.FLT_CHIPST_FATAL (by decide)]
  · unfold State.tdcCfgOk
    rw [hfld (F.TDC_ARM_CFG_SRC u) harm, hfld (F.TDC_ARM_CFG_ARG u) harm, hfld (F.TDC_START_SEL_EVT u) hstart,
      hfld (F.TDC_START_SEL_ARG u) hstart, hfld (F.TDC_STOP_SEL_EVT u) hstop, hfld (F.TDC_STOP_SEL_ARG u) hstop]
  · unfold State.tdcReady
    rw [hbit F.TDCC_BORROW_BORROW (by decide), hbit (F.TDCC_DLL_STAT_LOCKED (u / 4)) hdll, hbit (F.TDCC_DLL_STAT_RELOCKING (u / 4)) hdll]

/-- Arming unit u after other units have been. -/
theorem armed_of_after {l : List Nat} {t : Nat} {w : State} (h : s.unitsArm l v) (hu : u ∉ l) (hlt : u < 64) (ha : v.armed u t w) :
    s.armed u t w := by
  obtain ⟨hopen, hcfg, hready⟩ := h.gates hu hlt
  obtain ⟨h1, h2, h3, h4, h5⟩ := ha
  rw [hopen, hcfg, hready] at h1
  rw [hopen, hcfg, hready, h.tdcs u hu] at h2
  rw [hopen, hcfg] at h3
  rw [hopen, hcfg, hready] at h4
  rw [hopen, h.tdcs u hu] at h5
  exact ⟨h1, h2, h3, h4, h5⟩

/-- What arming leaves stands while other units are armed. -/
theorem armed_keeps {l : List Nat} {t : Nat} {w : State} (ha : s.armed u t v) (h : v.unitsArm l w) (hu : u ∉ l) : s.armed u t w := by
  obtain ⟨h1, h2, h3, h4, h5⟩ := ha
  have htdc := h.tdcs u hu
  refine ⟨fun ho hc hr => ?_, fun ho hn => htdc.trans (h2 ho hn), fun ho hc => h.grows.flagged (h3 ho hc),
    fun ho hc hr => h.grows.flagged (h4 ho hc hr), fun ho => ⟨htdc.trans (h5 ho).1, h.grows.flagged (h5 ho).2⟩⟩
  obtain ⟨hstate, hsame⟩ := h1 ho hc hr
  exact ⟨(h.tdcState hu).trans hstate, htdc.trans hsame⟩

/-- The units that a TARM names, armed one after the other. -/
theorem armUnits_settles {q t : Nat} (hq : q < 16) (l : List Nat) (hnodup : l.Nodup) (hl : ∀ k ∈ l, k < 4) (s : State)
    (hstate : s.qstate q ≠ 9) :
    s.unitsArm (l.map (4 * q + ·)) (forAll l (fun k s => tdcArm (4 * q + k) t s) s) ∧
      ∀ k ∈ l, s.armed (4 * q + k) t (forAll l (fun k s => tdcArm (4 * q + k) t s) s) := by
  unfold forAll
  induction l generalizing s with
  | nil => exact ⟨s.unitsArm_nil, nofun⟩
  | cons k l ih =>
    obtain ⟨hk, hnodup⟩ := List.nodup_cons.1 hnodup
    have hk4 : k < 4 := hl k List.mem_cons_self
    obtain ⟨hfirst, harmed⟩ := tdcArm_settles (u := 4 * q + k) (t := t) (s := s) (by rwa [show (4 * q + k) / 4 = q by omega])
    have hstat : R.QSEQ_STAT q % 0x100 ≠ 0x24 := by
      unfold R.QSEQ_STAT quarterBase
      omega
    have hstate' : (tdcArm (4 * q + k) t s).qstate q = s.qstate q := congrArg (fieldOf · 0 4) (hfirst.regs _ (not_mem_unitState hstat))
    obtain ⟨hrest, hothers⟩ := ih hnodup (fun i hi => hl i (List.mem_cons_of_mem _ hi)) _ (by rwa [hstate'])
    have hnot : 4 * q + k ∉ l.map (4 * q + ·) := fun hm => by
      obtain ⟨i, hi, heq⟩ := List.mem_map.1 hm
      exact hk ((show i = k by omega) ▸ hi)
    refine ⟨State.unitsArm_trans hfirst hrest, fun i hi => ?_⟩
    rcases List.mem_cons.1 hi with rfl | hi
    · exact armed_keeps harmed hrest hnot
    · have hik : i ≠ k := fun h => hk (h ▸ hi)
      have hi4 := hl i (List.mem_cons_of_mem _ hi)
      exact armed_of_after hfirst (by simp; omega) (by omega) (hothers i hi)

end

section
variable {q : Fin 16} {s : State} {b : Body}

theorem startAction_tarm (hop : mwOp b.word = 0x0D) (hacted : b.acted = false) (hstart : b.start ≤ s.now) :
    startAction q b s = forAll ((List.range 4).filter (mwCnt b.word).testBit) (fun k s => tdcArm (4 * q + k) (b.start + 48) s)
      (marked q b s) := by
  unfold startAction
  rw [if_neg (by simp [hacted]; omega)]
  simp only [hop]
  rfl

theorem unitState_not_decision (q k : Nat) : R.TDC_STATE (4 * q + k) ∉ decisionRegs q := by
  unfold decisionRegs
  simp only [R.QSEQ_STACK, R.QSEQ_LOOP_L, R.QSEQ_LOOP_H, R.QSEQ_DEFER, R.QSEQ_DEFER_OVR, R.QSEQ_FLAG,
    R.QSEQ_FAULT_PC, R.QTS_ERR_TS, R.MEM_ERR_SEG_L, R.MEM_ERR_SEG_H, F.QSEQ_FAULT_PC_FAULT_PC, F.MEM_ERR_SEG_L_SEG_L,
    F.MEM_ERR_SEG_H_SEG_H, R.TDC_STATE, quarterBase, List.mem_cons, List.not_mem_nil, or_false, not_or]
  omega

/-- TARM at its body's start (R231). -/
theorem tarm_acts (h : s.executing q 0x0D = some b) (hacted : b.acted = false) (hstart : b.start ≤ s.now) :
    let t := actWord q 0x0D s
    (∀ k : Fin 4, (mwCnt b.word).testBit k = true → s.armed (4 * q.val + k.val) (b.start + 48) t) ∧
      (∀ i, (∀ k : Fin 4, (mwCnt b.word).testBit k = true → i ≠ 4 * q.val + k.val) → t.tdc i = s.tdc i) ∧
      (∃ c, (t.q q).body = some c ∧ c.acted = true ∧ c.start = b.start ∧ c.played = b.played) ∧ ∀ k, k ≠ q.val → t.q k = s.q k := by
  intro t
  obtain ⟨l, hl⟩ : ∃ l, (List.range 4).filter (mwCnt b.word).testBit = l := ⟨_, rfl⟩
  have hmem : ∀ k, k ∈ l ↔ k < 4 ∧ (mwCnt b.word).testBit k = true := fun k => by rw [← hl, List.mem_filter, List.mem_range]
  have hf := startAction_tarm (q := q) (executing_op h) hacted hstart
  rw [hl] at hf
  have hstate : (marked q b s).qstate q ≠ 9 := by
    have hrun : (marked q b s).qstate q = s.qstate q := rfl
    rw [hrun, executing_qstate h]
    decide
  obtain ⟨hunits, harmed⟩ := armUnits_settles (t := b.start + 48) q.isLt l (hl ▸ List.nodup_range.filter _) (fun k hk => ((hmem k).1 hk).1)
    (marked q b s) hstate
  have hq : ∀ k, (forAll l (fun k s => tdcArm (4 * q + k) (b.start + 48) s) (marked q b s)).q k = (marked q b s).q k := fun k => by
    rw [State.q, hunits.qs]
    rfl
  obtain ⟨hfollows, hothers, hbody⟩ := actWord_of_action (f := forAll l (fun k s => tdcArm (4 * q + k) (b.start + 48) s)) (by decide) h hf
    ⟨fun k hk => (hq k).trans (marked_others b hk), by rw [hq, marked_q]⟩
  have htdc : ∀ i, t.tdc i = (forAll l (fun k s => tdcArm (4 * q + k) (b.start + 48) s) (marked q b s)).tdc i := fun i => by
    rw [State.tdc, hfollows.frame.2.2.1]
    rfl
  refine ⟨fun k hk => ?_, fun i hi => ?_, hbody, hothers⟩
  · obtain ⟨h1, h2, h3, h4, h5⟩ := harmed k ((hmem k).2 ⟨k.isLt, hk⟩)
    have hgrows := hfollows.keeps.grows
    have hkeep : t.tdcState (4 * q + k) = _ := congrArg (fieldOf · 0 2) (hfollows.reg (unitState_not_decision q k))
    exact ⟨fun ho hc hr => ⟨hkeep.trans (h1 ho hc hr).1, (htdc _).trans (h1 ho hc hr).2⟩, fun ho hn => (htdc _).trans (h2 ho hn),
      fun ho hc => hgrows.flagged (h3 ho hc), fun ho hc hr => hgrows.flagged (h4 ho hc hr),
      fun ho => ⟨(htdc _).trans (h5 ho).1, hgrows.flagged (h5 ho).2⟩⟩
  · refine (htdc i).trans (hunits.tdcs i fun hm => ?_)
    obtain ⟨k, hk, rfl⟩ := List.mem_map.1 hm
    obtain ⟨hk4, hbit⟩ := (hmem k).1 hk
    exact hi ⟨k, hk4⟩ hbit rfl

end

end Sys2Proof.Machine
end

section
/-! CALWIN's action: the channels of its group go to the engine, and a calibration slot runs (R294, R302). -/

namespace Sys2Proof.Machine

/-! ### The channels that the engine has -/

/-- From `s` to `t` pins park: no sequencer changes, the engine keeps the channels it has, and it stays as it is. -/
structure State.pinsHeld (s t : State) : Prop where
  qs : t.qs = s.qs
  held : ∀ c, (s.chan c).calHeld = true → (t.chan c).calHeld = true
  cal : t.cal = s.cal
  ctrl : t.reg R.CAL_CTRL = s.reg R.CAL_CTRL

section
variable {s t u : State}

theorem State.pinsHeld_refl (s : State) : s.pinsHeld s := ⟨rfl, fun _ h => h, rfl, rfl⟩

theorem State.pinsHeld_trans (h1 : s.pinsHeld t) (h2 : t.pinsHeld u) : s.pinsHeld u :=
  ⟨h2.qs.trans h1.qs, fun c h => h2.held c (h1.held c h), h2.cal.trans h1.cal, h2.ctrl.trans h1.ctrl⟩

theorem pinsHeld_of_eq (hqs : t.qs = s.qs) (hchans : t.chans = s.chans) (hcal : t.cal = s.cal) (hctrl : t.reg R.CAL_CTRL = s.reg R.CAL_CTRL) :
    s.pinsHeld t :=
  ⟨hqs, fun c h => by rw [State.chan, hchans]; exact h, hcal, hctrl⟩

theorem State.eventsOnly.pinsHeld (h : s.eventsOnly t) : s.pinsHeld t :=
  pinsHeld_of_eq (by rw [h.1]) (by rw [h.1]) (by rw [h.1]) (h.reg _)

theorem setFld_pinsHeld {f : Fld} (n : Nat) (s : State) (h : f.addr ≠ R.CAL_CTRL) : s.pinsHeld (s.setFld f n) :=
  pinsHeld_of_eq rfl rfl rfl (State.reg_setFld_ne s n (Ne.symm h))

theorem ite_pinsHeld {c : Prop} {_ : Decidable c} (ht : s.pinsHeld t) (hu : s.pinsHeld u) : s.pinsHeld (if c then t else u) := by
  split
  · exact ht
  · exact hu

theorem foldl_pinsHeld {β : Type} {f : State → β → State} (hf : ∀ (s : State) x, s.pinsHeld (f s x)) (l : List β) (s : State) :
    s.pinsHeld (l.foldl f s) :=
  List.foldlRecOn (motive := fun t : State => s.pinsHeld t) l f s.pinsHeld_refl fun t h x _ => State.pinsHeld_trans h (hf t x)

theorem setChan_pinsHeld {c : Nat} {x : Chan} (s : State) (h : (s.chan c).calHeld = true → x.calHeld = true) : s.pinsHeld (s.setChan c x) := by
  refine ⟨rfl, fun k hk => ?_, rfl, rfl⟩
  rw [State.chan_setChan]
  split
  · next heq => exact h (heq ▸ hk)
  · exact hk

theorem siteDisturbed_pinsHeld (q i : Nat) (s : State) : s.pinsHeld (s.setBitOf (F.QRES_SITES_SITE_TDIST q) i) :=
  setFld_pinsHeld (f := F.QRES_SITES_SITE_TDIST q) _ s (by
    unfold F.QRES_SITES_SITE_TDIST R.QRES_SITES R.CAL_CTRL
    dsimp only
    omega)

theorem clipEvents_pinsHeld (q i smask : Nat) (p : Played) (s : State) : s.pinsHeld (clipEvents q i smask p s) := by
  have hraise : ∀ (v : State) (f : Fld), v.pinsHeld (v.raise f) := fun v f => (raise_eventsOnly v f).pinsHeld
  have hcount : s.pinsHeld ((s.raise (F.QTS_STAT_EDGE_CLIP q)).addSat (F.QTS_CLIP_CNT_CLIP_CNT q) p.clips) :=
    State.pinsHeld_trans (hraise s _) (setFld_pinsHeld (f := F.QTS_CLIP_CNT_CLIP_CNT q) _ _ (by
      unfold F.QTS_CLIP_CNT_CLIP_CNT R.QTS_CLIP_CNT R.CAL_CTRL quarterBase
      dsimp only
      omega))
  have hnco : ∀ v : State, v.pinsHeld (if p.ncoClip then v.raise (F.QTS_STAT_NCO_CLIP q) else v) := fun v =>
    ite_pinsHeld (hraise v _) v.pinsHeld_refl
  have hreport : ∀ v : State, v.pinsHeld (forAll (List.range p.clips) (fun _ s => s.report (0x104 + 16 * q) 0) v) := fun v =>
    foldl_pinsHeld (f := fun s _ => s.report (0x104 + 16 * q) 0) (fun w _ => pinsHeld_of_eq rfl rfl rfl rfl) _ v
  have hreports := State.pinsHeld_trans (State.pinsHeld_trans hcount (hnco _)) (hreport _)
  unfold clipEvents
  dsimp only
  refine ite_pinsHeld s.pinsHeld_refl ?_
  split
  · exact State.pinsHeld_trans hreports (siteDisturbed_pinsHeld q _ _)
  · exact State.pinsHeld_trans hreports (foldl_pinsHeld (fun w k => ite_pinsHeld w.pinsHeld_refl (siteDisturbed_pinsHeld q k w)) _ _)

/-- A pin that the engine has does not park. -/
theorem parkPin_pinsHeld (c : Nat) (s : State) : s.pinsHeld (parkPin c s) := by
  by_cases hc : (s.chan c).calHeld = true
  · have hstays : parkPin c s = s := if_pos (by simp [hc])
    rw [hstays]
    exact s.pinsHeld_refl
  · unfold parkPin
    exact ite_pinsHeld s.pinsHeld_refl
      (State.pinsHeld_trans (setChan_pinsHeld s fun h => absurd h hc) (clipEvents_pinsHeld _ _ _ _ _))

/-- A channel is handed to the engine, after it has parked. -/
def handOver (c : Nat) (s : State) : State :=
  (parkPin c s).setChan c { (parkPin c s).chan c with calHeld := true }

theorem handOver_pinsHeld (c : Nat) (s : State) : s.pinsHeld (handOver c s) :=
  State.pinsHeld_trans (parkPin_pinsHeld c s) (setChan_pinsHeld _ fun _ => rfl)

theorem handOver_held (c : Nat) (s : State) : ((handOver c s).chan c).calHeld = true := by
  unfold handOver
  rw [State.chan_setChan_same]

/-- The channels of a list, handed over. -/
theorem handOvers_held (l : List Nat) (s : State) :
    s.pinsHeld (l.foldl (fun s c => handOver c s) s) ∧ ∀ c ∈ l, ((l.foldl (fun s c => handOver c s) s).chan c).calHeld = true := by
  induction l generalizing s with
  | nil => exact ⟨s.pinsHeld_refl, nofun⟩
  | cons c l ih =>
    obtain ⟨hpins, hheld⟩ := ih (handOver c s)
    refine ⟨State.pinsHeld_trans (handOver_pinsHeld c s) hpins, fun k hk => ?_⟩
    rcases List.mem_cons.1 hk with rfl | hk
    · exact hpins.held k (handOver_held k s)
    · exact hheld k hk

/-! ### The slot -/

/-- From `s` to `t` the engine works: no sequencer changes, and the engine keeps its channels and its slots. -/
structure State.slotKeeps (s t : State) : Prop where
  qs : t.qs = s.qs
  held : ∀ c, (s.chan c).calHeld = true → (t.chan c).calHeld = true
  slots : ∀ q, s.slotRuns q = true → t.slotRuns q = true

theorem State.slotKeeps_refl (s : State) : s.slotKeeps s := ⟨rfl, fun _ h => h, fun _ h => h⟩

theorem State.slotKeeps_trans (h1 : s.slotKeeps t) (h2 : t.slotKeeps u) : s.slotKeeps u :=
  ⟨h2.qs.trans h1.qs, fun c h => h2.held c (h1.held c h), fun q h => h2.slots q (h1.slots q h)⟩

theorem slotKeeps_of_eq (hqs : t.qs = s.qs) (hchans : t.chans = s.chans) (hslots : t.cal.slots = s.cal.slots) : s.slotKeeps t :=
  ⟨hqs, fun c h => by rw [State.chan, hchans]; exact h, fun q h => by unfold State.slotRuns at h ⊢; rwa [hslots]⟩

theorem State.eventsOnly.slotKeeps (h : s.eventsOnly t) : s.slotKeeps t :=
  slotKeeps_of_eq (by rw [h.1]) (by rw [h.1]) (by rw [h.1])

theorem ite_slotKeeps {c : Prop} {_ : Decidable c} (ht : s.slotKeeps t) (hu : s.slotKeeps u) : s.slotKeeps (if c then t else u) := by
  split
  · exact ht
  · exact hu

theorem foldl_slotKeeps {β : Type} {f : State → β → State} (hf : ∀ (s : State) x, s.slotKeeps (f s x)) (l : List β) (s : State) :
    s.slotKeeps (l.foldl f s) :=
  List.foldlRecOn (motive := fun t : State => s.slotKeeps t) l f s.slotKeeps_refl fun t h x _ => State.slotKeeps_trans h (hf t x)

/-- From `s` to `t` the engine's arbitration stands, but for the activities that `l` names as running. -/
structure State.arbKeeps (l : List Nat) (s t : State) : Prop where
  qs : t.qs = s.qs
  chans : t.chans = s.chans
  slots : t.cal.slots = s.cal.slots
  session : t.cal.session = s.cal.session
  running : t.cal.running = l

theorem State.arbKeeps.slotKeeps {l : List Nat} (h : s.arbKeeps l t) : s.slotKeeps t := slotKeeps_of_eq h.qs h.chans h.slots

theorem State.arbKeeps_trans {l l' : List Nat} (h1 : s.arbKeeps l t) (h2 : t.arbKeeps l' u) : s.arbKeeps l' u :=
  ⟨h2.qs.trans h1.qs, h2.chans.trans h1.chans, h2.slots.trans h1.slots, h2.session.trans h1.session, h2.running⟩

theorem arbKeeps_of_eq (hqs : t.qs = s.qs) (hchans : t.chans = s.chans) (hcal : t.cal = s.cal) : s.arbKeeps s.cal.running t :=
  ⟨hqs, hchans, by rw [hcal], by rw [hcal], by rw [hcal]⟩

theorem State.eventsOnly.arbKeeps (h : s.eventsOnly t) : s.arbKeeps s.cal.running t :=
  arbKeeps_of_eq (by rw [h.1]) (by rw [h.1]) (by rw [h.1])

theorem ledgerSettle_arbKeeps (s : State) : s.arbKeeps s.cal.running (ledgerSettle s) := by
  have hfixed : ∀ (l : List Nat) (t : Nat), s.arbKeeps s.cal.running (forAll l (fun q s => ledgerRest q t s) s) := fun l t =>
    List.foldlRecOn (motive := fun v : State => s.arbKeeps s.cal.running v) _ _ ⟨rfl, rfl, rfl, rfl, rfl⟩
      fun v h q _ => ⟨h.qs, h.chans, h.slots, h.session, h.running⟩
  obtain ⟨hqs, hchans, hslots, hsession, hrunning⟩ := hfixed ((List.range 16).filter fun q => s.qstate q ≠ 1) (granuleNext s.now)
  exact ⟨hqs, hchans, hslots, hsession, hrunning⟩

theorem resWait_arbKeeps (s : State) : s.arbKeeps s.cal.running (resWait s) := by
  have hraise : ∀ (v w : State), s.arbKeeps s.cal.running v → v.eventsOnly w → s.arbKeeps s.cal.running w := fun v w h hev =>
    State.arbKeeps_trans h (h.running ▸ hev.arbKeeps)
  unfold resWait forAll
  dsimp only
  refine List.foldlRecOn (motive := fun v : State => s.arbKeeps s.cal.running v) _ _ ⟨rfl, rfl, rfl, rfl, rfl⟩ fun v h a _ => ?_
  have hcount := hraise _ _ (hraise _ _ h (raise_eventsOnly v F.LEDG_STAT_RES_WAIT)) (count_eventsOnly _ 0xAA 1)
  split
  · exact hraise _ _ hcount (raise_eventsOnly _ _)
  · exact hcount

theorem setRunning_arbKeeps (l : List Nat) (s : State) : s.arbKeeps l (setRunning l s) := by
  obtain ⟨hqs, hchans, hslots, hsession, -⟩ := ledgerSettle_arbKeeps s
  have hshown : s.arbKeeps l (showArb (showRes { ledgerSettle s with cal := { (ledgerSettle s).cal with running := l } })) :=
    ⟨hqs, hchans, hslots, hsession, rfl⟩
  have hwait := resWait_arbKeeps (showArb (showRes { ledgerSettle s with cal := { (ledgerSettle s).cal with running := l } }))
  exact State.arbKeeps_trans hshown (hshown.running ▸ hwait)

theorem takeBack_arbKeeps (b : Nat) (s : State) : s.arbKeeps (s.cal.running.filter (· ≠ b)) (takeBack b s) := by
  obtain ⟨hqs, hchans, hslots, hsession, hrunning⟩ := setRunning_arbKeeps (s.cal.running.filter (· ≠ b)) s
  unfold takeBack
  dsimp only
  split
  · exact ⟨hqs, hchans, hslots, hsession, hrunning⟩
  · split
    · exact ⟨hqs, hchans, hslots, hsession, hrunning⟩
    · exact ⟨hqs, hchans, hslots, hsession, hrunning⟩

/-- What is taken back conflicts with no slot any more, and nothing new does (R302). -/
theorem takeBack_conflict {q b : Nat} (h : s.slotConflict q = false) : (takeBack b s).slotConflict q = false := by
  obtain ⟨-, -, hslots, hsession, hrunning⟩ := takeBack_arbKeeps b s
  unfold State.slotConflict State.slotRuns at h ⊢
  rw [hslots, hsession, hrunning]
  simp only [Bool.or_eq_false_iff, Bool.and_eq_false_iff, List.contains_eq_mem, decide_eq_false_iff_not, List.mem_filter,
    not_and_or] at h ⊢
  tauto

theorem takeBacks_conflict {q : Nat} (l : List Nat) (h : s.slotConflict q = false) :
    (l.foldl (fun t b => takeBack b t) s).slotConflict q = false :=
  List.foldlRecOn (motive := fun t : State => t.slotConflict q = false) _ _ h fun _ h _ _ => takeBack_conflict h

theorem nvmErase_arbKeeps (s : State) : s.arbKeeps s.cal.running (nvmErase s) := by
  unfold nvmErase
  split
  · exact ⟨rfl, rfl, rfl, rfl, rfl⟩
  · exact ⟨rfl, rfl, rfl, rfl, rfl⟩

/-- The activity leaves the queue. -/
def leftQueue (a : Nat) (s : State) : State :=
  { s with cal := { s.cal with waiting := s.cal.waiting.filter (· ≠ a),
                               session := if a = 17 then s.fld F.CAL_MREQ_QUARTER else s.cal.session } }

theorem maintStart_slotKeeps (a : Nat) (s : State) : s.slotKeeps (maintStart a s) := by
  have hqueue : s.slotKeeps (leftQueue a s) := slotKeeps_of_eq rfl rfl rfl
  have hrun : s.slotKeeps (setRunning ((leftQueue a s).cal.running ++ [a]) (leftQueue a s)) :=
    State.slotKeeps_trans hqueue (setRunning_arbKeeps _ _).slotKeeps
  have hreg : ∀ (v : State) (f : Fld) (b : Bool), v.slotKeeps (v.setBit f b) := fun v f b => slotKeeps_of_eq rfl rfl rfl
  have hfld : ∀ (v : State) (f : Fld) (n : Nat), v.slotKeeps (v.setFld f n) := fun v f n => slotKeeps_of_eq rfl rfl rfl
  have hlace : ∀ (v : State) (x : Lace), v.slotKeeps { v with lace := x } := fun v x => slotKeeps_of_eq rfl rfl rfl
  have hsurvey : ∀ v : State, v.slotKeeps (if v.laceJoined then v else v.setFld F.LACE_STAT_STATE 2) := fun v =>
    ite_slotKeeps v.slotKeeps_refl (hfld v _ _)
  have hnvm : ∀ v : State, v.slotKeeps (nvmErase v) := fun v => (nvmErase_arbKeeps v).slotKeeps
  unfold maintStart
  refine ite_slotKeeps (State.slotKeeps_trans (State.slotKeeps_trans hrun (hreg _ _ _)) (hreg _ _ _)) (ite_slotKeeps ?_
    (ite_slotKeeps (State.slotKeeps_trans hrun (hnvm _)) hrun))
  exact State.slotKeeps_trans (State.slotKeeps_trans (State.slotKeeps_trans hrun (hreg _ _ _)) (hsurvey _)) (hlace _ _)

theorem maintWait_slotKeeps (a : Nat) (s : State) : s.slotKeeps (maintWait a s) := by
  have hraise : ∀ (v : State) (f : Fld), v.slotKeeps (v.raise f) := fun v f => (raise_eventsOnly v f).slotKeeps
  have hcount : ∀ (v : State) (src n : Nat), v.slotKeeps (v.count src n) := fun v src n => (count_eventsOnly v src n).slotKeeps
  have hres : ∀ v : State, v.slotKeeps (resWait v) := fun v => (resWait_arbKeeps v).slotKeeps
  have hqueue : s.slotKeeps { s with cal := { s.cal with waiting := s.cal.waiting ++ [a] } } := slotKeeps_of_eq rfl rfl rfl
  have hwait := fun v f => State.slotKeeps_trans (hraise v f) (hcount _ 0xAA 1)
  unfold maintWait
  exact State.slotKeeps_trans hqueue (State.slotKeeps_trans (ite_slotKeeps
    (State.slotKeeps_trans (hwait _ _) (ite_slotKeeps (hraise _ _) (State.slotKeeps_refl _))) (State.slotKeeps_refl _)) (hres _))

/-- The slot runs, on the channels that it does not skip. -/
theorem calSlotRun_settles (q t : Nat) (cs : List Nat) (s : State) :
    s.slotKeeps (calSlotRun q t cs s) ∧ (calSlotRun q t cs s).slotRuns q = true := by
  have hstat : ∀ (v : State) (c st : Nat), v.slotKeeps (setCalStat c st v) := fun v c st => slotKeeps_of_eq rfl rfl rfl
  have hcut : ∀ (v : State) (c : Nat), v.slotKeeps ((v.setChan c (v.chan c).cut).setBit (F.CH_DRV_CTRL_CAL_ISO c) true) := fun v c => by
    have hkeep := (setChan_pinsHeld (c := c) (x := (v.chan c).cut) v fun h => h).held
    exact ⟨rfl, hkeep, fun _ h => h⟩
  obtain ⟨run, hrun⟩ : ∃ run, cs.filter (fun c => !s.calSkip c) = run := ⟨_, rfl⟩
  have hskip := foldl_slotKeeps (f := fun s c => if run.contains c then s else setCalStat c 3 s)
    (fun v c => ite_slotKeeps v.slotKeeps_refl (hstat v c 3)) cs s
  have hcuts := State.slotKeeps_trans hskip (foldl_slotKeeps (fun v c => hcut v c) run _)
  unfold calSlotRun
  rw [hrun]
  dsimp only
  generalize run.foldl (fun s c => (s.setChan c (s.chan c).cut).setBit (F.CH_DRV_CTRL_CAL_ISO c) true)
    (cs.foldl (fun s c => if run.contains c then s else setCalStat c 3 s) s) = v at hcuts
  have hslot : ∀ k, (tabGet (fun _ => none) (tabSet (fun _ => none) v.cal.slots q (some { start := t, chans := run })) k).isSome =
      if k = q then true else v.slotRuns k := fun k => by
    by_cases hk : k = q
    · rw [hk, tabGet_tabSet_same, if_pos rfl]
      rfl
    · rw [tabGet_tabSet_ne _ _ _ hk, if_neg hk]
      rfl
  refine ⟨State.slotKeeps_trans hcuts ⟨rfl, fun _ h => h, fun k h => ?_⟩, ?_⟩
  · exact (hslot k).trans (by split; rfl; exact h)
  · exact (hslot q).trans (if_pos rfl)

/-- What yields to the slot starts over or waits, after it. -/
theorem yieldTo_settles (l : List Nat) (q t : Nat) (cs : List Nat) (s : State) :
    s.slotKeeps (yieldTo l (calSlotRun q t cs) s) ∧ (yieldTo l (calSlotRun q t cs) s).slotRuns q = true := by
  have htake := foldl_slotKeeps (fun v b => (takeBack_arbKeeps b v).slotKeeps) l s
  obtain ⟨hrun, hruns⟩ := calSlotRun_settles q t cs (l.foldl (fun t b => takeBack b t) s)
  have hafter := foldl_slotKeeps (f := fun t b => if t.mayStart b then maintStart b t else maintWait b t)
    (fun v b => ite_slotKeeps (maintStart_slotKeeps b v) (maintWait_slotKeeps b v)) l
    (calSlotRun q t cs (l.foldl (fun t b => takeBack b t) s))
  exact ⟨State.slotKeeps_trans (State.slotKeeps_trans htake hrun) hafter, hafter.slots q hruns⟩

/-- The channels of the group go to the engine; the slot runs where background calibration is on and nothing conflicts. -/
theorem calSlotStart_settles (q grp t : Nat) (s : State) :
    let u := calSlotStart q grp t s
    u.qs = s.qs ∧ (∀ i, i < 64 → (s.maskGroup q grp).testBit i = true → (u.chan (q * 64 + i)).calHeld = true) ∧
      (s.bit F.CAL_CTRL_BG_EN = true → s.slotConflict q = false → u.slotRuns q = true) ∧
      (s.bit F.CAL_CTRL_BG_EN = false → u.slotRuns q = s.slotRuns q) := by
  intro u
  obtain ⟨cs, hcs⟩ : ∃ cs, (members (s.maskGroup q grp)).map (q * 64 + ·) = cs := ⟨_, rfl⟩
  obtain ⟨hpins, hheld⟩ := handOvers_held cs s
  have hmem : ∀ i, i < 64 → (s.maskGroup q grp).testBit i = true → q * 64 + i ∈ cs := fun i hi hbit => by
    rw [← hcs]
    exact List.mem_map.2 ⟨i, List.mem_filter.2 ⟨List.mem_range.2 hi, hbit⟩, rfl⟩
  obtain ⟨v, hv⟩ : ∃ v, cs.foldl (fun s c => handOver c s) s = v := ⟨_, rfl⟩
  rw [hv] at hpins hheld
  have hbg : v.bit F.CAL_CTRL_BG_EN = s.bit F.CAL_CTRL_BG_EN := by
    unfold State.bit State.fld
    rw [show F.CAL_CTRL_BG_EN.addr = R.CAL_CTRL from rfl, hpins.ctrl]
  have hconflict : v.slotConflict q = s.slotConflict q := by
    unfold State.slotConflict State.slotRuns
    rw [hpins.cal]
  have hu : u = if !v.bit F.CAL_CTRL_BG_EN then v
      else if ((v.startedNow.filter fun b => b = q || (b = 17 && v.cal.session = q)).foldl (fun t b => takeBack b t) v).slotConflict q then
        cs.foldl (fun s c => setCalStat c 2 s) ((v.raise F.CAL_ARB_WAIT_SLOT_REF).count 0xAA 1)
      else yieldTo (v.startedNow.filter fun b => b = q || (b = 17 && v.cal.session = q)) (calSlotRun q t cs) v := by
    rw [← hv, ← hcs]
    rfl
  cases hen : v.bit F.CAL_CTRL_BG_EN with
  | false =>
    rw [hu, if_pos (by simp [hen])]
    refine ⟨hpins.qs, fun i hi hbit => hheld _ (hmem i hi hbit), fun h => absurd h (by rw [← hbg, hen]; decide), fun _ => ?_⟩
    unfold State.slotRuns
    rw [hpins.cal]
  | true =>
    have hkeeps : ∀ w : State, v.slotKeeps w → w.qs = s.qs ∧
        ∀ i, i < 64 → (s.maskGroup q grp).testBit i = true → (w.chan (q * 64 + i)).calHeld = true := fun w hw =>
      ⟨hw.qs.trans hpins.qs, fun i hi hbit => hw.held _ (hheld _ (hmem i hi hbit))⟩
    have hoff : s.bit F.CAL_CTRL_BG_EN = false → u.slotRuns q = s.slotRuns q := fun h => absurd h (by rw [← hbg, hen]; decide)
    rw [hu, if_neg (by simp [hen])] at hoff ⊢
    split
    · next hc =>
      have hnone := takeBacks_conflict (s := v) (q := q) (v.startedNow.filter fun b => b = q || (b = 17 && v.cal.session = q))
      obtain ⟨hqs, hchans⟩ := hkeeps (cs.foldl (fun s c => setCalStat c 2 s) ((v.raise F.CAL_ARB_WAIT_SLOT_REF).count 0xAA 1))
        (State.slotKeeps_trans (State.slotKeeps_trans (raise_eventsOnly v _).slotKeeps (count_eventsOnly _ 0xAA 1).slotKeeps)
          (foldl_slotKeeps (f := fun s c => setCalStat c 2 s) (fun w c => slotKeeps_of_eq rfl rfl rfl) cs _))
      refine ⟨hqs, hchans, fun _ hfree => absurd (hnone (hconflict.trans hfree)) (by rw [hc]; decide), fun h => absurd h (by rw [← hbg, hen]; decide)⟩
    · obtain ⟨hslot, hruns⟩ := yieldTo_settles (v.startedNow.filter fun b => b = q || (b = 17 && v.cal.session = q)) q t cs v
      obtain ⟨hqs, hchans⟩ := hkeeps _ hslot
      exact ⟨hqs, hchans, fun _ _ => hruns, fun h => absurd h (by rw [← hbg, hen]; decide)⟩

end

end Sys2Proof.Machine
end

section
/-! The words that act at their body's start: O27. -/

namespace Sys2Proof.Machine

section
variable {q : Fin 16} {s : State} {b : Body}

theorem startAction_calwin (hop : mwOp b.word = 0x0E) (hacted : b.acted = false) (hstart : b.start ≤ s.now) :
    startAction q b s = calSlotStart q (mwCnt b.word % 64) b.start (marked q b s) := by
  unfold startAction
  rw [if_neg (by simp [hacted]; omega)]
  simp only [hop]
  rfl

/-- CALWIN at its body's start (R294). -/
theorem calwin_acts (h : s.executing q 0x0E = some b) (hacted : b.acted = false) (hstart : b.start ≤ s.now) :
    let t := actWord q 0x0E s
    (∀ i : Fin 64, (s.maskGroup q (mwCnt b.word % 64)).testBit i = true → (t.chan (q.val * 64 + i.val)).calHeld = true) ∧
      (s.bit F.CAL_CTRL_BG_EN = true → s.slotConflict q = false → t.slotRuns q = true) ∧
      (s.bit F.CAL_CTRL_BG_EN = false → t.slotRuns q = s.slotRuns q) ∧
      (∃ c, (t.q q).body = some c ∧ c.acted = true ∧ c.start = b.start ∧ c.played = b.played) ∧ ∀ k, k ≠ q.val → t.q k = s.q k := by
  intro t
  obtain ⟨hqs, hheld, hruns, hoff⟩ := calSlotStart_settles q.val (mwCnt b.word % 64) b.start (marked q b s)
  have hq : ∀ k, (calSlotStart q.val (mwCnt b.word % 64) b.start (marked q b s)).q k = (marked q b s).q k := fun k => by
    rw [State.q, hqs]
    rfl
  obtain ⟨hfollows, hothers, hbody⟩ := actWord_of_action (f := calSlotStart q.val (mwCnt b.word % 64) b.start) (by decide) h
    (startAction_calwin (executing_op h) hacted hstart) ⟨fun k hk => (hq k).trans (marked_others b hk), by rw [hq, marked_q]⟩
  obtain ⟨-, -, -, hchans, hcal⟩ := hfollows.frame
  have hslot : t.slotRuns q = (calSlotStart q.val (mwCnt b.word % 64) b.start (marked q b s)).slotRuns q := by
    unfold State.slotRuns
    rw [hcal]
  refine ⟨fun i hi => ?_, fun hen hfree => hslot.trans (hruns hen hfree), fun hdis => hslot.trans (hoff hdis), hbody, hothers⟩
  rw [State.chan, hchans]
  exact hheld i.val i.isLt hi

end

/-- Settles O27, each word by the rule of its action at the body's start. -/
theorem bodyStartActions : Obligations.BodyStartActions := by
  unfold Obligations.BodyStartActions
  intro s q
  refine ⟨⟨_, rfl, (actWord_after (by decide)).1, (actWord_after (by decide)).2, fun b h hacted hstart => ?commit⟩,
    ⟨_, rfl, (actWord_after (by decide)).1, (actWord_after (by decide)).2, fun b h hacted hstart => ?pxfer⟩,
    ⟨_, rfl, (actWord_after (by decide)).1, (actWord_after (by decide)).2, fun b h hacted hstart => ?tarm⟩,
    ⟨_, rfl, (actWord_after (by decide)).1, (actWord_after (by decide)).2, fun b h hacted hstart => ?calwin⟩⟩
  case commit => exact commit_acts h hacted hstart
  case pxfer => exact pxfer_acts h hacted hstart
  case calwin => exact calwin_acts h hacted hstart
  case tarm =>
    obtain ⟨harmed, htdc, hbody, hothers⟩ := tarm_acts h hacted hstart
    refine ⟨fun k hk => ?_, htdc, hbody, hothers⟩
    obtain ⟨hready, hstays, hbad, hnot, hclosed⟩ := harmed k hk
    split
    · next hopen =>
      split
      · next hgate => exact hready hopen hgate.1 hgate.2
      · next hgate =>
        refine ⟨hstays hopen hgate, fun hcfg => hbad hopen hcfg, fun hcfg => hnot hopen hcfg ?_⟩
        exact Bool.eq_false_iff.2 fun hr => hgate ⟨hcfg, hr⟩
    · next hopen => exact hclosed hopen

end Sys2Proof.Machine
end

section
/-! What the load checks read, and what they leave (R196), for O32. -/

namespace Sys2Proof.Machine

/-! ### The inputs of the load checks -/

/-- From `s` to `t` nothing changes that L1 and L2 read: quarter q's CTRL and what the checks themselves show are not
among it. -/
structure State.sameLoad (q : Nat) (s t : State) : Prop where
  regs : s.regsKept [R.QSEQ_CTRL q, R.LEDG_FIRST, R.LEDG_L2_ADDR] t
  installed : t.installed = s.installed
  chans : t.chans = s.chans
  win : ∀ a, 0x47100 ≤ a → t.winGet a = s.winGet a

section
variable {q : Nat} {s t : State} (h : s.sameLoad q t)
include h

/-- A register of the central page that no check shows reads the same. -/
theorem State.sameLoad.reg {a : Nat} (ha : a < 0x100000) (hfirst : a ≠ 0x660A4) (haddr : a ≠ 0x660A8) : t.reg a = s.reg a :=
  h.regs a (by
    simp only [R.QSEQ_CTRL, R.LEDG_FIRST, R.LEDG_L2_ADDR, quarterBase, List.mem_cons, List.not_mem_nil, or_false, not_or]
    omega)

theorem State.sameLoad.fld {f : Fld} (ha : f.addr < 0x100000) (hfirst : f.addr ≠ 0x660A4) (haddr : f.addr ≠ 0x660A8) :
    t.fld f = s.fld f := by
  unfold State.fld
  rw [h.reg ha hfirst haddr]

theorem State.sameLoad.qceil {k g : Nat} (hk : k < 16) (hg : g < 8) :
    t.fld (F.LEDG_QCEIL_QCEIL k g) = s.fld (F.LEDG_QCEIL_QCEIL k g) := by
  apply h.fld <;> simp only [F.LEDG_QCEIL_QCEIL, R.LEDG_QCEIL] <;> omega

theorem State.sameLoad.checkL1 {g : Nat} (hg : g < 8) : checkL1 t g = checkL1 s g := by
  have hceil : ∀ n, (List.range 16).foldl (fun a k => a + t.fld (F.LEDG_QCEIL_QCEIL k g)) n =
      (List.range 16).foldl (fun a k => a + s.fld (F.LEDG_QCEIL_QCEIL k g)) n := fun n =>
    List.foldl_ext _ _ n fun a k hk => by rw [h.qceil (List.mem_range.1 hk) hg]
  have hbase : t.fld (F.LEDG_CHIP_BASE_CHIP_BASE g) = s.fld (F.LEDG_CHIP_BASE_CHIP_BASE g) := by
    apply h.fld <;> simp only [F.LEDG_CHIP_BASE_CHIP_BASE, R.LEDG_CHIP_BASE] <;> omega
  have hresv : t.fld (F.LEDG_RESV_RESV g) = s.fld (F.LEDG_RESV_RESV g) := by
    apply h.fld <;> simp only [F.LEDG_RESV_RESV, R.LEDG_RESV] <;> omega
  have hbudget : t.fld (F.LEDG_BUDGET_BUDGET g) = s.fld (F.LEDG_BUDGET_BUDGET g) := by
    apply h.fld <;> simp only [F.LEDG_BUDGET_BUDGET, R.LEDG_BUDGET] <;> omega
  unfold Machine.checkL1
  rw [hceil, hbase, hresv, hbudget]

theorem State.sameLoad.prof {p g : Nat} (hp : p < 256) (hg : g < 8) : t.prof p g = s.prof p g := by
  have hfld : t.fld (F.LEDG_PROF_I p g) = s.fld (F.LEDG_PROF_I p g) := by
    apply h.fld <;> simp only [F.LEDG_PROF_I, R.LEDG_PROF] <;> omega
  unfold State.prof
  rw [hfld]

theorem State.sameLoad.tagCharge {g : Nat} (tag : Nat) (hg : g < 8) : t.tagCharge tag g = s.tagCharge tag g := by
  unfold State.tagCharge
  rw [h.prof (bitsAt_lt _ _ _) hg]

theorem State.sameLoad.overGroup {k base : Nat} (hk : k < 16) (hbase : base < 256) (tag b : Nat) :
    overGroup t k base tag b = overGroup s k base tag b := by
  have hadj : t.reg (R.LEDG_QADJ k) = s.reg (R.LEDG_QADJ k) := by
    apply h.reg <;> simp only [R.LEDG_QADJ] <;> omega
  refine List.find?_congr fun g hg => ?_
  have hg8 := List.mem_range.1 hg
  unfold State.quarterCharge
  rw [h.qceil hk hg8, h.prof hbase hg8, h.tagCharge tag hg8, hadj, h.tagCharge _ hg8]

theorem State.sameLoad.maskGroup {k g : Nat} (hk : k < 16) (hg : g < 64) : t.maskGroup k g = s.maskGroup k g := by
  have hmask : ∀ w, w < 4 → t.reg (R.MASK_W k g w) = s.reg (R.MASK_W k g w) := fun w hw => by
    apply h.reg <;> simp only [R.MASK_W] <;> omega
  unfold State.maskGroup
  dsimp only
  rw [hmask 0 (by decide), hmask 1 (by decide), hmask 2 (by decide), hmask 3 (by decide)]

theorem State.sameLoad.window {n : Nat} (hn : n < 16) : t.window n = s.window n := by
  have hbase : t.fld (F.MEM_WIN_BASE_BASE n) = s.fld (F.MEM_WIN_BASE_BASE n) := by
    apply h.fld <;> simp only [F.MEM_WIN_BASE_BASE, R.MEM_WIN_BASE] <;> omega
  have hsize : t.fld (F.MEM_WIN_SIZE_SIZE n) = s.fld (F.MEM_WIN_SIZE_SIZE n) := by
    apply h.fld <;> simp only [F.MEM_WIN_SIZE_SIZE, R.MEM_WIN_SIZE] <;> omega
  unfold State.window
  rw [hbase, hsize]

theorem State.sameLoad.descOk (d : Desc) (n width : Nat) : t.descOk d n width = s.descOk d n width := by
  have hwindow : ∀ p : Nat × Nat → Bool,
      (List.range 16).any (fun n => p (t.window n)) = (List.range 16).any (fun n => p (s.window n)) := fun p => by
    have hmap : (List.range 16).map t.window = (List.range 16).map s.window :=
      List.map_congr_left fun n hn => h.window (List.mem_range.1 hn)
    have hany := congrArg (List.any · p) hmap
    simpa only [List.any_map, Function.comp_def] using hany
  have hmeets : ∀ lo hi, t.meetsWindow lo hi = s.meetsWindow lo hi := fun lo hi =>
    hwindow fun w => w.1 < hi && lo < w.2 && lo < hi && w.1 < w.2
  have hinside : ∀ lo hi, t.insideWindow lo hi = s.insideWindow lo hi := fun lo hi =>
    hwindow fun w => w.1 ≤ lo && hi ≤ w.2 && w.1 < w.2
  unfold State.descOk State.capacity
  rw [h.installed]
  simp only [hmeets, hinside]

theorem State.sameLoad.segDesc (i : Nat) : t.segDesc i = s.segDesc i := by
  have hdword : ∀ j, t.winGet (0xC00000 + 16 * i + j) = s.winGet (0xC00000 + 16 * i + j) := fun j => h.win _ (by omega)
  unfold State.segDesc
  simp only [hdword]

theorem State.sameLoad.csWord (k a : Nat) : t.csWord k a = s.csWord k a := by
  have hdword : ∀ j, t.winGet (csAddr k a + j) = s.winGet (csAddr k a + j) := fun j => h.win _ (by unfold csAddr; omega)
  unfold State.csWord
  simp only [hdword]

theorem State.sameLoad.snapshotSet (k set grp : Nat) : t.snapshotSet k set grp = s.snapshotSet k set grp := by
  have hdword : ∀ c j, t.winGet (tsAddr k set c + j) = s.winGet (tsAddr k set c + j) := fun c j =>
    h.win _ (by unfold tsAddr; omega)
  unfold State.snapshotSet State.pinEntry
  simp only [hdword]

theorem State.sameLoad.snapWidth (k : Nat) (snap : List PinEntry) : t.snapWidth k snap = s.snapWidth k snap := by
  unfold State.snapWidth State.chan
  rw [h.chans]

theorem State.sameLoad.l2Len {k : Nat} (hk : k < 16) (w : Micro) : t.l2Len k w = s.l2Len k w := by
  unfold State.l2Len
  dsimp only
  rw [h.segDesc, h.maskGroup hk (bitsAt_lt _ _ _), h.snapshotSet, h.snapWidth, h.descOk]

end

/-! ### Their outcome -/

theorem State.fld_lt (s : State) (f : Fld) : s.fld f < 2 ^ f.w := Nat.mod_lt _ (Nat.two_pow_pos _)

/-- The first group in which word `a` of quarter q's control store exceeds the quarter's ceiling. -/
def State.wordGroup (s : State) (q a : Nat) : Option Nat :=
  if mwOp (s.csWord q a) = 0 || 0x10 < mwOp (s.csWord q a) then none
  else (s.l2Len q (s.csWord q a)).bind fun b => overGroup s q (s.fld F.LEDG_BASE_BASE_RUN) (mwLedg (s.csWord q a)) b

theorem winGet_of_unwritten {s : State} {a : Nat} (h : a ∉ s.win.map (·.1)) : s.winGet a = winReset a := by
  unfold State.winGet
  generalize s.win = l at h
  induction l with
  | nil => rfl
  | cons e l ih =>
    simp only [List.map_cons, List.mem_cons, not_or] at h
    unfold tabGet
    rw [if_neg (Ne.symm h.1), ih h.2]

/-- A word that nothing has written is END, which L2 passes over. -/
theorem wordGroup_of_unwritten {s : State} {q a : Nat} (ha : a < 0x4000) (h : a ∉ s.writtenWords q) : s.wordGroup q a = none := by
  have hdword : ∀ j, j < 6 → s.winGet (csAddr q a + 4 * j) = 0 := fun j hj => by
    have hkey : csAddr q a + 4 * j ∉ s.win.map (·.1) := fun hmem => h (by
      unfold State.writtenWords
      simp only [List.mem_dedup, List.mem_map, List.mem_filter]
      refine ⟨csAddr q a + 4 * j, ⟨List.mem_map.1 hmem, ?_⟩, ?_⟩
      · simp only [Bool.and_eq_true, decide_eq_true_eq]
        unfold csAddr
        omega
      · unfold csAddr
        omega)
    rw [winGet_of_unwritten hkey, winReset, if_neg (by simp only [Bool.and_eq_true, decide_eq_true_eq]; unfold csAddr; omega)]
  have hword : s.csWord q a = 0 := by
    unfold State.csWord
    dsimp only
    rw [hdword 0 (by decide), hdword 1 (by decide), hdword 2 (by decide), hdword 3 (by decide), hdword 4 (by decide), hdword 5 (by decide)]
    rfl
  unfold State.wordGroup
  rw [hword]
  rfl

theorem writtenWords_lt {s : State} {q a : Nat} (h : a ∈ s.writtenWords q) : a < 0x4000 := by
  unfold State.writtenWords at h
  simp only [List.mem_dedup, List.mem_map, List.mem_filter, Bool.and_eq_true, decide_eq_true_eq] at h
  obtain ⟨k, ⟨-, hlo, hhi⟩, rfl⟩ := h
  omega

theorem l2Word_eq_none {s : State} {q : Nat} : s.l2Word q = none ↔ ∀ a, a < 0x4000 → s.wordGroup q a = none := by
  have hword : s.l2Word q = (s.writtenWords q).findSome? fun a => (s.wordGroup q a).map fun g => (g, a) := by
    unfold State.l2Word
    refine congrArg (List.findSome? · (s.writtenWords q)) (funext fun a => ?_)
    unfold State.wordGroup
    simp only
    split
    · rfl
    · cases s.l2Len q (s.csWord q a) <;> rfl
  rw [hword, List.findSome?_eq_none_iff]
  refine ⟨fun h a ha => ?_, fun h a ha => by rw [h a (writtenWords_lt ha)]; rfl⟩
  by_cases hmem : a ∈ s.writtenWords q
  · exact Option.map_eq_none_iff.1 (h a hmem)
  · exact wordGroup_of_unwritten ha hmem

/-- Quarter q passes L2: its words, its stall tag and its idle charge are within its ceilings. -/
def State.passesL2 (s : State) (q : Nat) : Prop :=
  (∀ a, a < 0x4000 → s.wordGroup q a = none) ∧
    overGroup s q (s.fld F.LEDG_BASE_BASE_STALL) (s.reg (R.QSEQ_STALL_LEDG q)).toNat 80 = none ∧
    overGroup s q (s.fld F.LEDG_BASE_IDLE_BASE_IDLE) 0 80 = none

theorem l2Fail_eq_none {s : State} {q : Nat} : s.l2Fail q = none ↔ s.passesL2 q := by
  unfold State.l2Fail State.passesL2
  rw [← l2Word_eq_none]
  cases s.l2Word q with
  | some r => simp
  | none => cases overGroup s q (s.fld F.LEDG_BASE_BASE_STALL) (s.reg (R.QSEQ_STALL_LEDG q)).toNat 80 <;> simp

/-- The part passes L1 and every powered quarter passes L2. -/
def State.passesLoad (s : State) : Prop :=
  (∀ g, g < 8 → checkL1 s g = true) ∧ ∀ k, k < 16 → s.quarterOn k = true → s.passesL2 k

section
variable {q : Nat} {s t : State} (h : s.sameLoad q t)
include h

theorem State.sameLoad.wordGroup {k : Nat} (hk : k < 16) (a : Nat) : t.wordGroup k a = s.wordGroup k a := by
  have hrun : t.fld F.LEDG_BASE_BASE_RUN = s.fld F.LEDG_BASE_BASE_RUN := h.fld (by decide) (by decide) (by decide)
  unfold State.wordGroup
  rw [h.csWord, h.l2Len hk, hrun]
  simp only [h.overGroup hk (show s.fld F.LEDG_BASE_BASE_RUN < 256 from State.fld_lt s F.LEDG_BASE_BASE_RUN)]

theorem State.sameLoad.passesL2 {k : Nat} (hk : k < 16) : t.passesL2 k ↔ s.passesL2 k := by
  have hstall : t.fld F.LEDG_BASE_BASE_STALL = s.fld F.LEDG_BASE_BASE_STALL := h.fld (by decide) (by decide) (by decide)
  have hidle : t.fld F.LEDG_BASE_IDLE_BASE_IDLE = s.fld F.LEDG_BASE_IDLE_BASE_IDLE := h.fld (by decide) (by decide) (by decide)
  have htag : t.reg (R.QSEQ_STALL_LEDG k) = s.reg (R.QSEQ_STALL_LEDG k) := h.regs _ (by
    simp only [R.QSEQ_STALL_LEDG, R.QSEQ_CTRL, R.LEDG_FIRST, R.LEDG_L2_ADDR, quarterBase, List.mem_cons, List.not_mem_nil, or_false, not_or]
    omega)
  unfold State.passesL2
  simp only [h.wordGroup hk]
  rw [hstall, hidle, htag, h.overGroup hk (State.fld_lt s F.LEDG_BASE_BASE_STALL), h.overGroup hk (State.fld_lt s F.LEDG_BASE_IDLE_BASE_IDLE)]

theorem State.sameLoad.quarterOn (k : Nat) : t.quarterOn k = s.quarterOn k := by
  unfold State.quarterOn
  rw [h.reg (by decide) (by decide) (by decide)]

theorem State.sameLoad.passesLoad : t.passesLoad ↔ s.passesLoad := by
  unfold State.passesLoad
  refine and_congr (forall₂_congr fun g hg => by rw [h.checkL1 hg]) (forall₂_congr fun k hk => ?_)
  rw [h.quarterOn, h.passesL2 hk]

end

/-! ### What they leave -/

/-- From `s` to `t` the load checks have run: they count events and show their findings. -/
structure State.loadChecked (s t : State) : Prop where
  frame : t = { s with regs := t.regs, copyB := t.copyB, copyC := t.copyC, hostRc := t.hostRc, spx1Rc := t.spx1Rc, evcs := t.evcs,
                       win := t.win, msgs := t.msgs, led := t.led }
  regs : s.regsKept [R.LEDG_FIRST, R.LEDG_L2_ADDR] t
  win : ∀ a, a < 0x47000 ∨ 0x47100 ≤ a → t.winGet a = s.winGet a

theorem State.loadChecked_refl (s : State) : s.loadChecked s := ⟨rfl, fun _ _ => rfl, fun _ _ => rfl⟩

theorem State.loadChecked_trans {s t u : State} (h1 : s.loadChecked t) (h2 : t.loadChecked u) : s.loadChecked u where
  frame := by
    refine h2.frame.trans ?_
    conv_lhs => rw [h1.frame]
  regs := State.regsKept_trans h1.regs h2.regs
  win a ha := (h2.win a ha).trans (h1.win a ha)

theorem State.loadChecked.sameLoad {s t : State} (h : s.loadChecked t) (q : Nat) : s.sameLoad q t where
  regs := State.regsKept_mono h.regs fun a ha => List.mem_cons_of_mem _ ha
  installed := by rw [h.frame]
  chans := by rw [h.frame]
  win a ha := h.win a (.inr ha)

theorem raise_loadChecked (f : Fld) (s : State) : s.loadChecked (s.raise f) := by
  have hev := raise_eventsOnly s f
  refine ⟨?_, fun a _ => hev.reg a, hev.2⟩
  rw [hev.1]

theorem ledgerFirst_loadChecked (cause scope group : Nat) (s : State) : s.loadChecked (ledgerFirst cause scope group s) := by
  unfold ledgerFirst
  split
  · exact s.loadChecked_refl
  · exact ⟨rfl, fun a ha => State.reg_setReg_ne s _ fun h => ha (h ▸ .head _), fun _ _ => rfl⟩

/-- A finding of L1 or L2 is shown. -/
theorem finding_loadChecked (f : Fld) (cause scope group : Nat) (s : State) : s.loadChecked (ledgerFirst cause scope group (s.raise f)) :=
  State.loadChecked_trans (raise_loadChecked f s) (ledgerFirst_loadChecked _ _ _ _)

/-- The first group that fails L1. -/
def State.l1Group (s : State) : Option Nat := (List.range 8).find? fun g => !checkL1 s g

/-- The first powered quarter that fails L2, with its cause and group. -/
def State.l2First (s : State) : Option (Nat × Nat × Nat) :=
  ((List.range 16).filter s.quarterOn).findSome? fun q => (s.l2Fail q).map fun r => (q, r)

def l1Shown (s : State) : State :=
  match s.l1Group with
  | some g => ledgerFirst 1 16 g (s.raise F.LEDG_STAT_L1_FAIL)
  | none => s

def l2AddrShown (s : State) : State :=
  match ((List.range 16).filter s.quarterOn).findSome? s.l2Word with
  | some r => s.setFld F.LEDG_L2_ADDR_ADDR r.2
  | none => s

def l2Shown (found : Option (Nat × Nat × Nat)) (s : State) : State :=
  match found with
  | some (q, cause, g) => ledgerFirst cause q g (s.raise F.LEDG_STAT_L2_FAIL)
  | none => s

def State.loadOk (s : State) : Bool := s.l1Group.isNone && (l1Shown s).l2First.isNone

theorem loadChecks_eq (s : State) : loadChecks s =
    let u := l2Shown (l1Shown s).l2First (l2AddrShown (l1Shown s))
    ({ u with led := { u.led with passed := s.loadOk } }, s.loadOk) := rfl

theorem l1Shown_loadChecked (s : State) : s.loadChecked (l1Shown s) := by
  unfold l1Shown
  split
  · exact finding_loadChecked _ _ _ _ s
  · exact s.loadChecked_refl

theorem l2AddrShown_loadChecked (s : State) : s.loadChecked (l2AddrShown s) := by
  unfold l2AddrShown
  split
  · exact ⟨rfl, fun a ha => State.reg_setFld_ne s _ fun h => ha (h ▸ .tail _ (.head _)), fun _ _ => rfl⟩
  · exact s.loadChecked_refl

theorem l2Shown_loadChecked (found : Option (Nat × Nat × Nat)) (s : State) : s.loadChecked (l2Shown found s) := by
  unfold l2Shown
  split
  · exact finding_loadChecked _ _ _ _ s
  · exact s.loadChecked_refl

theorem l1Group_isNone {s : State} : s.l1Group.isNone = true ↔ ∀ g, g < 8 → checkL1 s g = true := by
  unfold State.l1Group
  rw [Option.isNone_iff_eq_none, List.find?_eq_none]
  simp

theorem l2First_isNone {s : State} : s.l2First.isNone = true ↔ ∀ k, k < 16 → s.quarterOn k = true → s.passesL2 k := by
  unfold State.l2First
  rw [Option.isNone_iff_eq_none, List.findSome?_eq_none_iff]
  simp only [List.mem_filter, List.mem_range, Option.map_eq_none_iff, l2Fail_eq_none, and_imp]

theorem loadOk_iff (s : State) : s.loadOk = true ↔ s.passesLoad := by
  have hsame := (l1Shown_loadChecked s).sameLoad 0
  unfold State.loadOk State.passesLoad
  rw [Bool.and_eq_true, l1Group_isNone, l2First_isNone]
  refine and_congr_right fun _ => forall₂_congr fun k hk => ?_
  rw [hsame.quarterOn, hsame.passesL2 hk]

theorem loadChecks_settles (s : State) : s.loadChecked (loadChecks s).1 ∧ ((loadChecks s).2 = true ↔ s.passesLoad) := by
  rw [loadChecks_eq]
  refine ⟨State.loadChecked_trans (State.loadChecked_trans (l1Shown_loadChecked s) (l2AddrShown_loadChecked _)) ?_, loadOk_iff s⟩
  exact State.loadChecked_trans (l2Shown_loadChecked _ _) ⟨rfl, fun _ _ => rfl, fun _ _ => rfl⟩

/-- A change of what the checks do not read leaves their outcome. -/
theorem loadChecks_congr {q : Nat} {s t : State} (h : s.sameLoad q t) : (loadChecks t).2 = (loadChecks s).2 :=
  Bool.eq_iff_iff.2 ((loadChecks_settles t).2.trans (h.passesLoad.trans (loadChecks_settles s).2.symm))

end Sys2Proof.Machine
end

section
/-! What leaves a quarter's sequencer and the page of its registers alone, for O32. -/

namespace Sys2Proof.Machine

/-! ### The frame -/

/-- The page of quarter q's sequencer registers. -/
def seqPage (q a : Nat) : Prop := quarterBase q ≤ a ∧ a < quarterBase q + 0x100

/-- From `s` to `t` neither a sequencer nor a register of quarter q's sequencer page changes, nor the time, nor the windows
of the arrays. -/
structure State.rests (q : Nat) (s t : State) : Prop where
  qs : t.qs = s.qs
  page : ∀ a, seqPage q a → t.reg a = s.reg a
  now : t.now = s.now
  win : ∀ a, 0x47100 ≤ a → t.winGet a = s.winGet a

theorem State.rests_refl (q : Nat) (s : State) : s.rests q s := ⟨rfl, fun _ _ => rfl, rfl, fun _ _ => rfl⟩

theorem State.rests_trans {q : Nat} {s t u : State} (h1 : s.rests q t) (h2 : t.rests q u) : s.rests q u :=
  ⟨h2.qs.trans h1.qs, fun a ha => (h2.page a ha).trans (h1.page a ha), h2.now.trans h1.now, fun a ha => (h2.win a ha).trans (h1.win a ha)⟩

theorem State.rests.q {q : Nat} {s t : State} (h : s.rests q t) (k : Nat) : t.q k = s.q k := by
  rw [State.q, h.qs]
  rfl

theorem State.rests.fld {q : Nat} {s t : State} (h : s.rests q t) {f : Fld} (hf : seqPage q f.addr) : t.fld f = s.fld f := by
  unfold State.fld
  rw [h.page _ hf]

/-- A change of other parts of the state. -/
theorem rests_of_eq {q : Nat} {s t : State} (hqs : t.qs = s.qs) (hnow : t.now = s.now) (hwin : t.win = s.win)
    (hpage : ∀ a, seqPage q a → t.reg a = s.reg a) : s.rests q t :=
  ⟨hqs, hpage, hnow, fun a _ => by rw [State.winGet, hwin]; rfl⟩

theorem State.eventsOnly.rests {s t : State} (h : s.eventsOnly t) (q : Nat) : s.rests q t :=
  ⟨by rw [h.1], fun a _ => h.reg a, by rw [h.1], fun a ha => h.2 a (.inr ha)⟩

section
variable {q : Nat} (s : State)

theorem setReg_rests {a : Nat} (v : Word) (h : ¬seqPage q a) : s.rests q (s.setReg a v) :=
  rests_of_eq rfl rfl rfl fun _ hb => State.reg_setReg_ne s v fun hba => h (hba ▸ hb)

theorem setFld_rests {f : Fld} (n : Nat) (h : ¬seqPage q f.addr) : s.rests q (s.setFld f n) :=
  rests_of_eq rfl rfl rfl fun _ hb => State.reg_setFld_ne s n fun hba => h (hba ▸ hb)

theorem raise_rests (f : Fld) : s.rests q (s.raise f) := (raise_eventsOnly s f).rests q

theorem raiseMask_rests (a : Nat) (m : Word) : s.rests q (s.raiseMask a m) := (raiseMask_eventsOnly s a m).rests q

theorem count_rests (src n : Nat) : s.rests q (s.count src n) := (count_eventsOnly s src n).rests q

theorem report_rests (src a : Nat) : s.rests q (s.report src a) := rests_of_eq rfl rfl rfl fun _ _ => rfl

theorem setChan_rests (c : Nat) (x : Chan) : s.rests q (s.setChan c x) := rests_of_eq rfl rfl rfl fun _ _ => rfl

theorem setR_rests (k : Nat) (x : QRes) : s.rests q (s.setR k x) := rests_of_eq rfl rfl rfl fun _ _ => rfl

theorem setM_rests (k : Nat) (x : QMem) : s.rests q (s.setM k x) := rests_of_eq rfl rfl rfl fun _ _ => rfl

theorem ite_rests {t u : State} {c : Prop} [Decidable c] (ht : s.rests q t) (hu : s.rests q u) : s.rests q (if c then t else u) := by
  split
  · exact ht
  · exact hu

end

theorem foldl_rests {β : Type} {f : State → β → State} (q : Nat) (hf : ∀ (s : State) x, s.rests q (f s x)) (l : List β) (s : State) :
    s.rests q (l.foldl f s) :=
  List.foldlRecOn l f (s.rests_refl q) fun t h x _ => State.rests_trans h (hf t x)

theorem forAll_rests {f : Nat → State → State} (q : Nat) (hf : ∀ (s : State) i, s.rests q (f i s)) (l : List Nat) (s : State) :
    s.rests q (forAll l f s) := foldl_rests q (f := fun s i => f i s) hf l s

/-! ### Registers beyond the page -/

theorem central_off_page {a q : Nat} (ha : a < 0x100000) : ¬seqPage q a := by
  unfold seqPage quarterBase
  omega

theorem result_off_page {k q : Nat} (hk : k < 0x100) : ¬seqPage q (0x41000 + q * 0x100 + k) := by
  unfold seqPage quarterBase
  omega

/-- A register of a quarter's timing page or of a channel. -/
theorem timing_off_page {q n k : Nat} (h0 : 0x100 ≤ k) (hk : k < 0x10000) : ¬seqPage q (quarterBase n + k) := by
  unfold seqPage quarterBase
  omega

/-! ### Records (R206 to R214) -/

theorem showFill_rests (q : Nat) (s : State) : s.rests q (showFill q s) := by
  have hfill : s.rests q (s.setFld (F.QRES_FILL_FILL q) (s.r q).queue.length) := setFld_rests s _ (result_off_page (k := 0x28) (by decide))
  unfold showFill
  dsimp only
  split
  · exact State.rests_trans hfill (setFld_rests _ _ (result_off_page (k := 0x2C) (by decide)))
  · exact hfill

theorem pushRecord_rests (q : Nat) (r : Record) (s : State) : s.rests q (pushRecord q r s) := by
  have hcount : ∀ (u : State) (c : Prop) [Decidable c] (src : Nat), u.rests q (if c then u.count src 1 else u) := fun u c _ src =>
    ite_rests u (count_rests u src 1) (u.rests_refl q)
  unfold pushRecord
  dsimp only
  refine ite_rests s (State.rests_trans (setR_rests s _ _) (raise_rests _ _)) ?_
  exact State.rests_trans (State.rests_trans (State.rests_trans (State.rests_trans (setR_rests s _ _) (showFill_rests q _))
    (hcount _ _ _)) (hcount _ _ _)) (hcount _ _ _)

theorem pushWaiting_rests (q : Nat) (s : State) : s.rests q (pushWaiting q s) := by
  have pushes : ∀ (u : State) (l : List Record), u.rests q (l.foldl (fun s r => pushRecord q r s) u) := fun u l =>
    foldl_rests q (fun t r => pushRecord_rests q r t) l u
  exact State.rests_trans (State.rests_trans (State.rests_trans (setR_rests s _ _) (pushes _ _)) (pushes _ _)) (pushes _ _)

theorem pushPendingLoss_rests (q t : Nat) (s : State) : s.rests q (pushPendingLoss q t s) :=
  ite_rests s (s.rests_refl q) (State.rests_trans (setR_rests s _ _) (pushRecord_rests q _ _))

/-! ### A START's clearing of results and ledger (Table 8-6, R206) -/

theorem resultsStart_rests (q : Nat) (s : State) : s.rests q (resultsStart q s) := by
  have hshow : ∀ (u : State) (f : Fld) (k n : Nat), f.addr = 0x41000 + q * 0x100 + k → k < 0x100 → u.rests q (u.setFld f n) :=
    fun u f k n hf hk => setFld_rests u n (hf ▸ result_off_page hk)
  have hbins : ∀ u : State, u.rests q (forAll (List.range 8) (fun i s =>
      (s.setReg (R.QRES_SITE_BIN q i) 0).setEnt (q * 8 + i) { s.ent (q * 8 + i) with sinceStart := false }) u) := fun u => by
    unfold forAll
    refine List.foldlRecOn (motive := fun v : State => u.rests q v) _ _ (u.rests_refl q) fun v hv i hi => State.rests_trans hv ?_
    have hi8 := List.mem_range.1 hi
    have hbin : R.QRES_SITE_BIN q i = 0x41000 + q * 0x100 + (0x40 + i * 4) := by
      unfold R.QRES_SITE_BIN
      omega
    exact State.rests_trans (setReg_rests v _ (hbin ▸ result_off_page (by omega))) (rests_of_eq rfl rfl rfl fun _ _ => rfl)
  unfold resultsStart
  dsimp only
  exact State.rests_trans (State.rests_trans (State.rests_trans (State.rests_trans (setR_rests s _ _)
    (setReg_rests _ _ (result_off_page (k := 0x38) (by decide)))) (hshow _ (F.QRES_LSTAT_LEVEL q) 0x24 _ rfl (by decide)))
    (hshow _ (F.QRES_PEAK_PEAK q) 0x2C _ rfl (by decide))) (hbins _)

theorem ledgerStart_rests (q k : Nat) (s : State) : s.rests q (ledgerStart k s) := rests_of_eq rfl rfl rfl fun _ _ => rfl

/-! ### What a body's start does beside the sequencer -/

theorem discardJobs_rests (q k : Nat) (gone : Nat → Nat → Bool) (s : State) : s.rests q (discardJobs k gone s) :=
  State.rests_trans (foldl_rests q (fun u _ => report_rests u _ _) _ s) (setM_rests _ _ _)

theorem txnStallEnd_rests (q k t : Nat) (s : State) : s.rests q (txnStallEnd k t s) :=
  ite_rests s (rests_of_eq rfl rfl rfl fun _ _ => rfl) (s.rests_refl q)

theorem unparkPins_rests (q k t : Nat) (s : State) : s.rests q (unparkPins k t s) := by
  refine forAll_rests q (fun u i => ?_) _ s
  dsimp only
  split
  · exact u.rests_refl q
  · split
    · exact setChan_rests u _ _
    · exact ite_rests u (setChan_rests u _ _) (u.rests_refl q)

theorem addJob_rests (q k : Nat) (j : Job) (s : State) : s.rests q (addJob k j s) := setM_rests s k _

theorem issueCandidates_rests (q k gen t : Nat) (w : Micro) (pc : Nat) (s : State) : s.rests q (issueCandidates k gen t w pc s).1 := by
  unfold issueCandidates
  refine List.foldlRecOn (motive := fun acc : State × List Cand => s.rests q acc.1) _ _ (s.rests_refl q) fun acc hacc a _ => ?_
  dsimp only
  split
  · exact hacc
  · exact State.rests_trans hacc (ite_rests _ (addJob_rests q k _ _) (State.rests_refl q _))

theorem issueRemainder_rests (q k t : Nat) (b : Body) (s : State) : s.rests q (issueRemainder k t b s) := by
  unfold issueRemainder
  exact ite_rests s (ite_rests s (addJob_rests q k _ s) (s.rests_refl q)) (s.rests_refl q)

theorem showCorr_rests (q c : Nat) (s : State) : s.rests q (showCorr c s) := by
  have hset : ∀ (u : State) (a : Nat) (v : Word), ¬seqPage q a → u.rests q (if u.reg a = v then u else u.setReg a v) := fun u a v ha =>
    ite_rests u (u.rests_refl q) (setReg_rests u v ha)
  have hi : c % 64 < 64 := Nat.mod_lt _ (by decide)
  unfold showCorr
  refine State.rests_trans (hset s _ _ ?_) (hset _ _ _ ?_)
  · simp only [R.QTS_CORR_D, seqPage, quarterBase]
    omega
  · simp only [R.QTS_CORR_C, seqPage, quarterBase]
    omega

theorem tempTerm_rests (q c : Nat) (s : State) : s.rests q (tempTerm c s) := by
  unfold tempTerm
  exact ite_rests s (ite_rests s (s.rests_refl q) (State.rests_trans (setChan_rests s _ _) (showCorr_rests q c _))) (s.rests_refl q)

theorem peConflict_rests (q k group : Nat) (s : State) : s.rests q (peConflict k group s) :=
  ite_rests s (State.rests_trans (raiseMask_rests s _ _) (report_rests _ _ _)) (s.rests_refl q)

theorem startStages_rests (q k w : Nat) (snap : List PinEntry) (s : State) : s.rests q (startStages k w snap s) :=
  foldl_rests q (fun u _ => ite_rests u (setChan_rests u _ _) (u.rests_refl q)) snap s

theorem pmuTrigger_rests (q c t : Nat) (s : State) : s.rests q (pmuTrigger c t s) := by
  have hset : ∀ (x : Pmu), s.rests q ((s.setPmu c x).setBit (F.CH_PMU_STAT_MBUSY c) true) := fun x => by
    refine State.rests_trans (t := s.setPmu c x) (rests_of_eq rfl rfl rfl fun _ _ => rfl) (setFld_rests _ _ ?_)
    simp only [F.CH_PMU_STAT_MBUSY, R.CH_PMU_STAT, seqPage, quarterBase]
    omega
  exact ite_rests s (raise_rests s _) (hset _)

theorem pmuMarkTrigger_rests (q k mark t : Nat) (s : State) : s.rests q (pmuMarkTrigger k mark t s) :=
  ite_rests s (s.rests_refl q) (forAll_rests q (fun u _ => ite_rests u (pmuTrigger_rests q _ t u) (u.rests_refl q)) _ s)

end Sys2Proof.Machine
end

section
/-! What a first body's start, hold or park leaves of the start that led there (R77, R80), for O32. -/

namespace Sys2Proof.Machine

/-! ### The start of a sequencer -/

/-- Where and when a sequencer starts or has started. -/
def QSeq.startPart (x : QSeq) : Option Nat × Nat × Bool := (x.startDue, x.timeZero, x.started)

/-- From `s` to `t` quarter q's start stands. -/
def State.keepsStart (q : Nat) (s t : State) : Prop := (t.q q).startPart = (s.q q).startPart

theorem State.keepsStart_refl (q : Nat) (s : State) : s.keepsStart q s := rfl

theorem State.keepsStart_trans {q : Nat} {s t u : State} (h1 : s.keepsStart q t) (h2 : t.keepsStart q u) : s.keepsStart q u :=
  Eq.trans h2 h1

theorem State.spares.keepsStart {q k : Nat} {s t : State} (h : s.spares q t) : s.keepsStart k t := congrArg QSeq.startPart (h.q k)

theorem keepsStart_of_qs {q : Nat} {s t : State} (h : t.qs = s.qs) : s.keepsStart q t := by
  unfold State.keepsStart State.q
  rw [h]

theorem setQ_keepsStart {q : Nat} {s : State} {x : QSeq} (h : x.startPart = (s.q q).startPart) : s.keepsStart q (s.setQ q x) := by
  unfold State.keepsStart
  rw [State.q_setQ_same]
  exact h

theorem ite_keepsStart {q : Nat} {s t u : State} {c : Prop} [Decidable c] (ht : s.keepsStart q t) (hu : s.keepsStart q u) :
    s.keepsStart q (if c then t else u) := by
  split
  · exact ht
  · exact hu

/-! ### The end of a quarter's work -/

theorem setDefer_keepsStart (q : Nat) (d : Option Nat) (s : State) : s.keepsStart q (setDefer q d s) :=
  keepsStart_of_qs (setDefer_keeps q d s).1

theorem writeLatch_keepsStart (q trg : Nat) (b : Bool) (s : State) : s.keepsStart q (writeLatch q trg b s) := by
  unfold writeLatch
  refine State.keepsStart_trans (setQ_keepsStart ?_) (showFlags_spares q _).keepsStart
  rfl

theorem setLatch_keepsStart (q trg : Nat) (s : State) : s.keepsStart q (setLatch q trg s) := by
  have hlate : s.keepsStart q ((s.addSat (F.QSEQ_LATE_LATE_CNT q) 1).count (0x20 + q) 1) := keepsStart_of_qs (State.count_qs _ _ _)
  unfold setLatch
  dsimp only
  refine ite_keepsStart (s.keepsStart_refl q) ?_
  split
  · exact ite_keepsStart (ite_keepsStart (State.keepsStart_trans hlate (setDefer_keepsStart q _ _))
      (State.keepsStart_trans hlate (setQ_keepsStart hlate.symm))) (writeLatch_keepsStart q trg true s)
  · exact State.keepsStart_trans (writeLatch_keepsStart q trg true s) (setQ_keepsStart rfl)

theorem peAbort_keepsStart (q : Nat) (s : State) : s.keepsStart q (peAbort q s) := by
  have hport : ∀ (u : State) (x : Port), u.keepsStart q (u.setPort q x) := fun u x => keepsStart_of_qs rfl
  have hdone : ∀ (u : State) (f : Fld) (n a : Nat) (m : Word), u.keepsStart q ((u.setFld f n).raiseMask a m) := fun u f n a m =>
    keepsStart_of_qs (by rw [(raiseMask_eventsOnly _ a m).1]; rfl)
  have hlatch : ∀ u : State, u.keepsStart q (portLatch q 0x91 u) := fun u =>
    ite_keepsStart (setLatch_keepsStart q _ u) (u.keepsStart_refl q)
  unfold peAbort portAbort
  dsimp only
  split
  · exact s.keepsStart_refl q
  · split
    · exact hport s _
    · exact State.keepsStart_trans (State.keepsStart_trans (hport s _) (hdone _ _ _ _ _)) (hlatch _)

theorem siteFail_keepsStart (q i goff n mask : Nat) (shared : Bool) (s : State) : s.keepsStart q (siteFail q i goff n mask shared s) := by
  unfold siteFail
  dsimp only
  split
  · exact s.keepsStart_refl q
  · unfold State.keepsStart
    rw [State.q_setQ_same]
    rfl

theorem failSiteNow_keepsStart (c : Nat) (s : State) : s.keepsStart (c / 64) (failSiteNow c s) := by
  unfold failSiteNow failSite
  split
  · split
    · exact State.keepsStart_refl _ s
    · exact ite_keepsStart (State.keepsStart_refl _ s) (ite_keepsStart (siteFail_keepsStart _ _ _ _ _ _ s) (keepsStart_of_qs rfl))
  · exact State.keepsStart_refl _ s

theorem pmuFinish_keepsStart {q c : Nat} (hc : c / 64 = q) (t : Nat) (part abort : Bool) (s : State) :
    s.keepsStart q (pmuFinish c t part abort s) := by
  have hraise : ∀ (u : State) (f : Fld), u.keepsStart q (u.raise f) := fun u f => (raise_spares (q := q) u f).keepsStart
  have hset : ∀ (u : State) (f : Fld) (n : Nat), u.keepsStart q (u.setFld f n) := fun u f n => keepsStart_of_qs rfl
  have hreg : ∀ (u : State) (a : Nat) (v : Word), u.keepsStart q (u.setReg a v) := fun u a v => keepsStart_of_qs rfl
  have flag : ∀ (u : State) (p : Bool) (f : Fld), u.keepsStart q (if p then u.raise f else u) := fun u p f =>
    ite_keepsStart (hraise u f) (u.keepsStart_refl q)
  have fails : ∀ u : State, u.keepsStart q (failSiteNow c u) := fun u => hc ▸ failSiteNow_keepsStart c u
  unfold pmuFinish
  dsimp only
  refine State.keepsStart_trans ?_ (pmuEmit_spares q c _ _ _ _ _ _ _).keepsStart
  refine State.keepsStart_trans ?_ (ite_keepsStart (State.keepsStart_trans (hraise _ _) (fails _)) (State.keepsStart_refl q _))
  refine State.keepsStart_trans ?_ (ite_keepsStart (State.keepsStart_trans (hraise _ _) (report_spares (q := q) _ _ _).keepsStart)
    (State.keepsStart_refl q _))
  refine State.keepsStart_trans (State.keepsStart_trans (State.keepsStart_trans ?_ (hraise _ _)) (flag _ part _)) (flag _ abort _)
  refine State.keepsStart_trans (State.keepsStart_trans ?_ (hset _ _ _)) (hset _ _ _)
  refine State.keepsStart_trans (State.keepsStart_trans (State.keepsStart_trans ?_ (hreg _ _ _)) (hset _ _ _)) (hreg _ _ _)
  exact State.keepsStart_trans (State.keepsStart_trans (meanFree_spares q s _ _).keepsStart (setPmu_spares (q := q) _ _ _).keepsStart)
    (hset _ _ _)

theorem abortUnits_keepsStart (q : Nat) (s : State) : s.keepsStart q (abortUnits q s) := by
  have pmus : s.keepsStart q (forAll (List.range 64) (fun i s => pmuAbort (q * 64 + i) s) s) := by
    refine List.foldlRecOn (motive := fun t : State => s.keepsStart q t) _ _ (s.keepsStart_refl q) fun t ht i hi => State.keepsStart_trans ht ?_
    have hi' := List.mem_range.1 hi
    exact ite_keepsStart (pmuFinish_keepsStart (by omega) _ _ _ t) (t.keepsStart_refl q)
  exact State.keepsStart_trans (State.keepsStart_trans (State.keepsStart_trans pmus (tdcAbortQuarter_spares q _).keepsStart)
    (peAbort_keepsStart q _)) (calSlotAbort_spares q _).keepsStart

theorem markStop_keepsStart (q t : Nat) (s : State) : s.keepsStart q (markStop q t s) := setQ_keepsStart rfl

/-- A park drops a start that is due and keeps the one there has been. -/
theorem parkAt_startPart (q t goff : Nat) (aborted : Bool) (s : State) :
    ((parkAt q t goff aborted s).q q).startPart = (none, (s.q q).timeZero, (s.q q).started) := by
  obtain ⟨u, hu⟩ : ∃ u, boundaryEnd q t (binSites q .park aborted goff t) (abortUnits q s) = u := ⟨_, rfl⟩
  have hwork : s.keepsStart q u := hu ▸ State.keepsStart_trans (abortUnits_keepsStart q s)
    (boundaryEnd_spares q t (binSites_spares q .park aborted goff t) _).keepsStart
  have hpins : s.keepsStart q (parkPins q (markStop q t (setDefer q none u))) :=
    State.keepsStart_trans (State.keepsStart_trans (State.keepsStart_trans hwork (setDefer_keepsStart q none u)) (markStop_keepsStart q t _))
      (parkPins_spares q _).keepsStart
  have hend : parkAt q t goff aborted s = (txnAbort q (flushStream q (emptied q t u))).setQstate q 9 := by
    rw [← hu]
    rfl
  have hrest : (emptied q t u).spares q (txnAbort q (flushStream q (emptied q t u))) :=
    State.spares_trans (discardJobs_spares q (fun _ _ => true) (emptied q t u)) (txnAbort_spares q q _)
  have hempty : ((emptied q t u).q q).startPart = (none, (s.q q).timeZero, (s.q q).started) := by
    have hq : (emptied q t u).q q = emptySeq ((parkPins q (markStop q t (setDefer q none u))).q q) := State.q_setQ_same _ _ _
    rw [hq]
    exact congrArg (fun p : Option Nat × Nat × Bool => ((none : Option Nat), p.2.1, p.2.2)) hpins
  rw [hend]
  exact ((keepsStart_of_qs (q := q) (setQstate_settles q 9 _ (by decide)).2.1).trans hrest.keepsStart).trans hempty

/-! ### The refill hold (R95) -/

theorem parkPin_spares (q i : Nat) (hi : i < 64) (s : State) : s.spares q (parkPin (q * 64 + i) s) := by
  have hq : (q * 64 + i) / 64 = q := by omega
  unfold parkPin
  dsimp only
  rw [hq]
  exact ite_spares _ (State.spares_refl q _) (State.spares_trans (setChan_spares _ _ _) (clipEvents_spares q _ _ _ _))

theorem stallPins_spares (q : Nat) (keep : List PinEntry) (s : State) : s.spares q (stallPins q keep s) := by
  unfold stallPins forAll
  refine List.foldlRecOn (motive := fun u : State => s.spares q u) _ _ (s.spares_refl q) fun u hu i hi => State.spares_trans hu ?_
  exact State.spares_trans (setChan_spares u _ _) (parkPin_spares q i (List.mem_range.1 (List.mem_filter.1 hi).1) _)

theorem laceRequest_qs (who type num arg b : Nat) (s : State) : (laceRequest who type num arg b s).qs = s.qs := by
  unfold laceRequest
  split
  · rfl
  · split
    · exact State.raise_qs _ _
    · rfl

theorem enterRefillHold_keepsStart (q t : Nat) (u : Succ) (clk : List PinEntry) (smask : Nat) (s : State) :
    s.keepsStart q (enterRefillHold q t u clk smask s) := by
  obtain ⟨v, hv⟩ : ∃ v, markStop q t (stallPins q clk s) = v := ⟨_, rfl⟩
  have hpins : s.keepsStart q v := hv ▸ State.keepsStart_trans (stallPins_spares q clk s).keepsStart (markStop_keepsStart q t _)
  have hlate : ∀ w : State, w.keepsStart q (((w.setQstate q 6).raise (F.MEM_QSTAT_REFILL_LATE q)).count (0x40 + q) 1) := fun w =>
    State.keepsStart_trans (keepsStart_of_qs (setQstate_settles q 6 w (by decide)).2.1)
      (State.keepsStart_trans (keepsStart_of_qs (State.raise_qs _ _)) (keepsStart_of_qs (State.count_qs _ _ _)))
  have hheld : ∀ x : QSeq, x.startPart = (v.q q).startPart →
      s.keepsStart q ((((tagDisturbed q smask (v.setQ q x)).setQstate q 6).raise (F.MEM_QSTAT_REFILL_LATE q)).count (0x40 + q) 1) :=
    fun x hx => State.keepsStart_trans (State.keepsStart_trans (State.keepsStart_trans hpins (setQ_keepsStart hx))
      (tagDisturbed_spares q smask _).keepsStart) (hlate _)
  unfold enterRefillHold
  dsimp only
  rw [hv]
  refine ite_keepsStart (State.keepsStart_trans (hheld _ ?_) (keepsStart_of_qs (laceRequest_qs _ _ _ _ _ _))) (hheld _ ?_) <;> rfl

end Sys2Proof.Machine
end

section
/-! The start of a body (R62, R63, R142, R197), for O32. -/

namespace Sys2Proof.Machine

theorem q_of_qs {s t : State} (h : t.qs = s.qs) (k : Nat) : t.q k = s.q k := by
  unfold State.q
  rw [h]

theorem ssn_setSsn {n : Nat} (q : Nat) (s : State) (h : n < 2 ^ 32) : (s.setSsn q n).ssn q = n := by
  have hne : R.QSEQ_SSN_L q ≠ R.QSEQ_SSN_H q := by
    unfold R.QSEQ_SSN_L R.QSEQ_SSN_H
    omega
  unfold State.ssn State.setSsn
  rw [State.reg_setReg_ne _ _ hne, State.reg_setReg_same, State.reg_setReg_same, BitVec.toNat_ofNat, BitVec.toNat_ofNat]
  omega

theorem ssn_congr {q : Nat} {s t : State} (hl : t.reg (R.QSEQ_SSN_L q) = s.reg (R.QSEQ_SSN_L q))
    (hh : t.reg (R.QSEQ_SSN_H q) = s.reg (R.QSEQ_SSN_H q)) : t.ssn q = s.ssn q := by
  unfold State.ssn
  rw [hl, hh]

theorem State.rests.ssn {q : Nat} {s t : State} (h : s.rests q t) : t.ssn q = s.ssn q :=
  ssn_congr (h.page _ (by unfold seqPage R.QSEQ_SSN_L; omega)) (h.page _ (by unfold seqPage R.QSEQ_SSN_H; omega))

/-! ### A mark's run -/

theorem markShows_start {s : State} {n t bits : Nat} (h : bits.testBit n = true) :
    s.markShows n { start := t, stop := none, bits := bits, first := true } ((t + tPin) * 512 + s.fld (F.MARK_CFG_DLY n)) = true := by
  unfold State.markShows
  simp only [h, Bool.true_and, Bool.true_or, Bool.and_true, Bool.and_eq_true, decide_eq_true_eq, Bool.or_eq_true, Bool.not_eq_true']
  exact ⟨le_refl _, .inr (by omega)⟩

/-- Quarter q's marker output shows the marks of a body from the granule in which it begins. -/
def State.runsMark (s : State) (q t bits : Nat) : Prop :=
  bits = 0 ∨ { start := t, stop := none, bits := bits, first := true } ∈ (s.q q).markRuns

theorem State.runsMark.markBall {q n t bits : Nat} {s : State} (h : s.runsMark q t bits) (hq : q < 16) (hn : bits.testBit n = true)
    (hsrc : (s.fld (F.MARK_SRC_QMASK n)).testBit q = true) (hsafe : s.bit F.FLT_CHIPST_SAFE = false)
    (hhold : s.bit F.PWR_PAD_HOLD_HOLD = false) : s.markBall n ((t + tPin) * 512 + s.fld (F.MARK_CFG_DLY n)) = true := by
  have hmem := h.resolve_left fun h0 => by simp [h0] at hn
  unfold State.markBall
  rw [hsafe, hhold, Bool.not_false, Bool.true_and, Bool.true_and, List.any_eq_true]
  refine ⟨q, List.mem_range.2 hq, ?_⟩
  rw [hsrc, Bool.true_and, List.any_eq_true]
  exact ⟨_, hmem, markShows_start hn⟩

theorem markStart_runsMark (q t bits : Nat) (s : State) : (markStart q t bits true s).runsMark q t bits := by
  unfold State.runsMark markStart
  dsimp only
  rw [State.q_setQ_same]
  by_cases h : bits = 0
  · exact .inl h
  · refine .inr ?_
    dsimp only
    rw [if_neg h]
    exact List.mem_append_right _ (List.mem_singleton.2 rfl)

/-! ### The steps of a body's start -/

/-- The pins and marks of a body's start, and its segment number. -/
def bodyOpened (q t : Nat) (u : Succ) (s : State) : State :=
  let x := s.q q
  let s := txnStallEnd q t (discardOthers q (x.bodyNo + 1) u.addr s)
  let s := markStart q t (mwMark u.word) true (unparkPins q t s)
  if x.ssnFresh then s else s.setSsn q ((s.ssn q + 1) % 2 ^ 32)

/-- The quarter executes the word. -/
def bodyEntered (q t : Nat) (u : Succ) (s : State) : State :=
  let s := ((bodyOpened q t u s).setFld (F.QSEQ_PC_PC q) u.addr).setFld (F.QTS_ACTIVE_TSET q) (mwTset u.word)
  if s.qstate q = 1 then s else s.setQstate q 1

/-- The body's fetches, stages and triggers, once it stands. -/
def bodyWorks (q t group : Nat) (u : Succ) (b : Body) (s : State) : State :=
  let s := startStages q t b.snap (peConflict q group
    (forAll (List.range 64) (fun i s => tempTerm (q * 64 + i) s) (issueRemainder q t b s)))
  let s := pmuMarkTrigger q (mwMark u.word) t s
  if (s.reg (R.QSEQ_MARK_IRQ_MASK q)).toNat &&& mwMark u.word ≠ 0 then s.raise (F.QSEQ_IRQ_STAT_MARK_EVT q) else s

theorem startBody_steps (q t : Nat) (u : Succ) (s : State) : ∃ group b, b.addr = u.addr ∧ b.start = t ∧ b.played = 0 ∧ b.word = u.word ∧
    let v := (issueCandidates q ((s.q q).bodyNo + 1) t u.word u.addr (bodyEntered q t u s)).1
    startBody q t u s = bodyWorks q t group u b
      (v.setQ q { v.q q with bodyNo := (s.q q).bodyNo + 1, body := some b, stall := none, ssnFresh := false }) :=
  ⟨_, _, rfl, rfl, rfl, rfl, rfl⟩

theorem bodyWorks_rests (q t group : Nat) (u : Succ) (b : Body) (s : State) : s.rests q (bodyWorks q t group u b s) := by
  unfold bodyWorks
  dsimp only
  have htemp : ∀ v : State, v.rests q (forAll (List.range 64) (fun i s => tempTerm (q * 64 + i) s) v) := fun v =>
    forAll_rests q (fun w i => tempTerm_rests q _ w) _ v
  have hworks : s.rests q (pmuMarkTrigger q (mwMark u.word) t (startStages q t b.snap (peConflict q group
      (forAll (List.range 64) (fun i s => tempTerm (q * 64 + i) s) (issueRemainder q t b s))))) :=
    State.rests_trans (State.rests_trans (State.rests_trans (State.rests_trans (issueRemainder_rests q q t b s) (htemp _))
      (peConflict_rests q q group _)) (startStages_rests q q t _ _)) (pmuMarkTrigger_rests q q _ t _)
  exact State.rests_trans hworks (ite_rests _ (raise_rests _ _) (State.rests_refl q _))

theorem bodyOpened_settles (q t : Nat) (u : Succ) (s : State) :
    (bodyOpened q t u s).runsMark q t (mwMark u.word) ∧
      ((bodyOpened q t u s).q q).startPart = (s.q q).startPart ∧
      (bodyOpened q t u s).ssn q = if (s.q q).ssnFresh = true then s.ssn q else (s.ssn q + 1) % 2 ^ 32 := by
  obtain ⟨v, hv⟩ : ∃ v, unparkPins q t (txnStallEnd q t (discardOthers q ((s.q q).bodyNo + 1) u.addr s)) = v := ⟨_, rfl⟩
  have hrest : s.rests q v := hv ▸ State.rests_trans (State.rests_trans (discardJobs_rests q q _ s) (txnStallEnd_rests q q t _))
    (unparkPins_rests q q t _)
  obtain ⟨w, hw⟩ : ∃ w, markStart q t (mwMark u.word) true v = w := ⟨_, rfl⟩
  have hopened : bodyOpened q t u s = if (s.q q).ssnFresh then w else w.setSsn q ((w.ssn q + 1) % 2 ^ 32) := by
    unfold bodyOpened
    dsimp only
    rw [hv, hw]
  have hmark : w.runsMark q t (mwMark u.word) := hw ▸ markStart_runsMark q t (mwMark u.word) v
  have hssn : w.ssn q = s.ssn q := by
    rw [← hrest.ssn, ← hw]
    rfl
  have hstart : (w.q q).startPart = (s.q q).startPart := by
    rw [← hrest.q q, ← hw]
    exact State.keepsStart_trans (markStop_keepsStart q t v) (setQ_keepsStart rfl)
  rw [hopened]
  split
  · exact ⟨hmark, hstart, hssn⟩
  · exact ⟨hmark, hstart, (ssn_setSsn q _ (Nat.mod_lt _ (by decide))).trans (by rw [hssn])⟩

theorem bodyEntered_settles (q t : Nat) (u : Succ) (s : State) :
    let w := bodyEntered q t u s
    w.qs = (bodyOpened q t u s).qs ∧ w.ssn q = (bodyOpened q t u s).ssn q ∧ w.qstate q = 1 ∧
      w.fld (F.QSEQ_PC_PC q) = u.addr % 2 ^ (F.QSEQ_PC_PC q).w := by
  obtain ⟨o, ho⟩ : ∃ o, bodyOpened q t u s = o := ⟨_, rfl⟩
  obtain ⟨v, hv⟩ : ∃ v, (o.setFld (F.QSEQ_PC_PC q) u.addr).setFld (F.QTS_ACTIVE_TSET q) (mwTset u.word) = v := ⟨_, rfl⟩
  have hreg : ∀ a, a ≠ R.QSEQ_PC q → a ≠ R.QTS_ACTIVE q → v.reg a = o.reg a := fun a h1 h2 =>
    hv ▸ (State.reg_setFld_ne (o.setFld (F.QSEQ_PC_PC q) u.addr) (f := F.QTS_ACTIVE_TSET q) _ h2).trans
      (State.reg_setFld_ne o (f := F.QSEQ_PC_PC q) _ h1)
  have hpc : v.fld (F.QSEQ_PC_PC q) = u.addr % 2 ^ (F.QSEQ_PC_PC q).w := by
    have hne : (F.QSEQ_PC_PC q).addr ≠ (F.QTS_ACTIVE_TSET q).addr := by
      simp only [F.QSEQ_PC_PC, F.QTS_ACTIVE_TSET, R.QSEQ_PC, R.QTS_ACTIVE]
      omega
    rw [← hv, State.fld_setFld_ne _ _ _ _ (show 0 + 5 ≤ 16 by decide) (.inl hne)]
    exact State.fld_setFld o _ _ (show 0 + 14 ≤ 16 by decide)
  have hssn : v.ssn q = o.ssn q := by
    refine ssn_congr (hreg _ ?_ ?_) (hreg _ ?_ ?_) <;>
      simp only [R.QSEQ_SSN_L, R.QSEQ_SSN_H, R.QSEQ_PC, R.QTS_ACTIVE] <;> omega
  have hentered : bodyEntered q t u s = if v.qstate q = 1 then v else v.setQstate q 1 := by
    unfold bodyEntered
    rw [ho, hv]
  have hvqs : v.qs = o.qs := hv ▸ (State.setFld_qs (o.setFld (F.QSEQ_PC_PC q) u.addr) _ _).trans (State.setFld_qs o _ _)
  obtain ⟨-, hqs, hstate, hkept, -⟩ := setQstate_settles q 1 v (by decide)
  intro w
  rw [show w = _ from hentered, ho]
  split
  · next h1 => exact ⟨hvqs, hssn, h1, hpc⟩
  · have hshown : (v.setQstate q 1).ssn q = v.ssn q := by
      refine ssn_congr (hkept _ ?_) (hkept _ ?_) <;> simp only [R.QSEQ_SSN_L, R.QSEQ_SSN_H, R.QSEQ_STAT] <;> omega
    have hpc' : (v.setQstate q 1).fld (F.QSEQ_PC_PC q) = v.fld (F.QSEQ_PC_PC q) := by
      unfold State.fld
      rw [hkept _ (by simp only [F.QSEQ_PC_PC, R.QSEQ_PC, R.QSEQ_STAT]; omega)]
    exact ⟨hqs.trans hvqs, hshown.trans hssn, hstate, hpc'.trans hpc⟩

/-- A body that begins is the one that the quarter executes. -/
theorem startBody_settles {q : Nat} (hq : q < 16) (t : Nat) (u : Succ) (s : State) :
    let w := startBody q t u s
    w.executes q u.addr t ∧ (w.q q).startPart = (s.q q).startPart ∧
      w.ssn q = if (s.q q).ssnFresh = true then s.ssn q else (s.ssn q + 1) % 2 ^ 32 := by
  obtain ⟨group, b, haddr, hstart, hplayed, hword, hsteps⟩ := startBody_steps q t u s
  obtain ⟨hmark, hpart, hssn⟩ := bodyOpened_settles q t u s
  obtain ⟨hqs, hssn', hstate, hpc⟩ := bodyEntered_settles q t u s
  obtain ⟨v, hv⟩ : ∃ v, (issueCandidates q ((s.q q).bodyNo + 1) t u.word u.addr (bodyEntered q t u s)).1 = v := ⟨_, rfl⟩
  have hissue : (bodyEntered q t u s).rests q v := hv ▸ issueCandidates_rests q q _ t _ _ _
  have hvq : v.q q = (bodyOpened q t u s).q q := (hissue.q q).trans (q_of_qs hqs q)
  obtain ⟨x, hx⟩ : ∃ x : QSeq, { v.q q with bodyNo := (s.q q).bodyNo + 1, body := some b, stall := none, ssnFresh := false } = x := ⟨_, rfl⟩
  have hworks : (v.setQ q x).rests q (startBody q t u s) := by
    rw [hsteps]
    dsimp only
    rw [hv, hx]
    exact bodyWorks_rests q t group u b _
  have hseq : (startBody q t u s).q q = x := (hworks.q q).trans (State.q_setQ_same _ _ _)
  have hpage : ∀ a, seqPage q a → (startBody q t u s).reg a = (bodyEntered q t u s).reg a := fun a ha =>
    (hworks.page a ha).trans (hissue.page a ha)
  have hfld : ∀ f : Fld, seqPage q f.addr → (startBody q t u s).fld f = (bodyEntered q t u s).fld f := fun f hf => by
    unfold State.fld
    rw [hpage _ hf]
  have hruns : (startBody q t u s).runsMark q t (mwMark u.word) := by
    unfold State.runsMark
    rw [hseq, ← hx]
    show _ ∨ _ ∈ (v.q q).markRuns
    rw [hvq]
    exact hmark
  refine ⟨⟨(hfld _ ?_).trans hstate, (hfld _ ?_).trans hpc, b, ?_, haddr, hstart, hplayed, fun n _ hn hsrc hsafe hhold => ?_⟩, ?_, ?_⟩
  · unfold seqPage F.QSEQ_STAT_STATE R.QSEQ_STAT
    dsimp only
    omega
  · unfold seqPage F.QSEQ_PC_PC R.QSEQ_PC
    dsimp only
    omega
  · rw [hseq, ← hx]
  · exact hruns.markBall hq (hword ▸ hn) hsrc hsafe hhold
  · rw [hseq, ← hx]
    exact (congrArg QSeq.startPart hvq).trans hpart
  · refine (ssn_congr (hpage _ ?_) (hpage _ ?_)).trans (hssn'.trans hssn)
    · unfold seqPage R.QSEQ_SSN_L
      omega
    · unfold seqPage R.QSEQ_SSN_H
      omega

end Sys2Proof.Machine
end

section
/-! The start moment (R77, R230), for O32. -/

namespace Sys2Proof.Machine

theorem startMoment_of_none {q : Nat} {s : State} (h : (s.q q).startDue = none) : startMoment q s = s := by
  unfold startMoment
  dsimp only
  rw [h]

theorem startMoment_of_waiting {q e : Nat} {s : State} (h : (s.q q).startDue = some e)
    (hw : s.now < e ∨ (s.q q).laceHeld.isSome = true) : startMoment q s = s := by
  unfold startMoment
  dsimp only
  rw [h]
  exact if_pos (by simpa using hw)

/-- The start has been taken: device time zero is `e`. -/
def startTaken (q e : Nat) (s : State) : State := s.setQ q { s.q q with startDue := none, first := none, timeZero := e, started := true }

/-- The records before the first body. -/
def startRecords (q e : Nat) (s : State) : State :=
  pushRecord q (ctlRecord s q 0x09 e (pf 24 (s.fld (F.QSEQ_START_ADDR_ADDR q)) + pf 26 (s.fld (F.QSEQ_CTRL_START_MODE q))))
    (pushPendingLoss q e (pushWaiting q s))

theorem startMoment_of_due {q e : Nat} {s : State} (h : (s.q q).startDue = some e) (hnow : e ≤ s.now) (hheld : (s.q q).laceHeld = none) :
    startMoment q s = enterSucc q e ((startTaken q e s).lastGoff q) (s.q q).first [] 0 (startRecords q e (startTaken q e s)) := by
  unfold startMoment
  dsimp only
  rw [h]
  exact if_neg (by simp [hheld]; omega)

theorem startRecords_rests (q e : Nat) (s : State) : s.rests q (startRecords q e s) :=
  State.rests_trans (State.rests_trans (pushWaiting_rests q s) (pushPendingLoss_rests q e _)) (pushRecord_rests q _ _)

/-! ### What a first successor does to the start -/

theorem enterSucc_startPart {q : Nat} (hq : q < 16) (t goff : Nat) (u : Option Succ) (clk : List PinEntry) (smask : Nat) {s : State}
    (h : (s.q q).startDue = none) : ((enterSucc q t goff u clk smask s).q q).startPart = (s.q q).startPart := by
  have hpark := (parkAt_startPart q t goff false s).trans (congrArg (·, (s.q q).timeZero, (s.q q).started) h.symm)
  unfold enterSucc
  split
  · exact hpark
  · next u =>
    split
    · dsimp only
      split
      · exact (forAll_spares q (fun v i => forceChan_spares q (q * 64 + i) v) _ _).keepsStart.trans hpark
      · exact hpark
    · split
      · exact enterRefillHold_keepsStart q t u clk smask s
      · exact (startBody_settles hq t u s).2.1

theorem enterSucc_of_ready {u : Succ} (hpark : u.park = false) (hready : u.ready = true) (q t goff : Nat) (clk : List PinEntry)
    (smask : Nat) (s : State) : enterSucc q t goff (some u) clk smask s = startBody q t u s := by
  unfold enterSucc
  dsimp only
  rw [if_neg (by simp [hpark]), if_neg (by simp [hready])]

/-- A start moment that has come, in a quarter that is not held. -/
theorem startMoment_settles {q e : Nat} {s : State} (hq : q < 16) (h : (s.q q).startDue = some e) (hnow : e ≤ s.now)
    (hheld : (s.q q).laceHeld = none) :
    let t := startMoment q s
    (t.q q).startDue = none ∧ (t.q q).timeZero = e ∧ (t.q q).started = true ∧
      ((s.q q).first = none → t.qstate q = 9 ∧ (t.q q).body = none) ∧
      (∀ u, (s.q q).first = some u →
        (u.park = true → t.qstate q = 9 ∧ (t.q q).body = none) ∧
        (u.park = false → u.ready = true → t.executes q u.addr e ∧
          t.ssn q = if (s.q q).ssnFresh = true then s.ssn q else (s.ssn q + 1) % 2 ^ 32)) := by
  obtain ⟨v, hv⟩ : ∃ v, startRecords q e (startTaken q e s) = v := ⟨_, rfl⟩
  obtain ⟨goff, hgoff⟩ : ∃ g, (startTaken q e s).lastGoff q = g := ⟨_, rfl⟩
  have hrest : (startTaken q e s).rests q v := hv ▸ startRecords_rests q e _
  have hvq : v.q q = { s.q q with startDue := none, first := none, timeZero := e, started := true } :=
    (hrest.q q).trans (State.q_setQ_same _ _ _)
  have hssn : v.ssn q = s.ssn q := hrest.ssn
  have hfresh : (v.q q).ssnFresh = (s.q q).ssnFresh := by rw [hvq]
  intro t
  have ht : t = enterSucc q e goff (s.q q).first [] 0 v := by
    rw [← hv, ← hgoff]
    exact startMoment_of_due h hnow hheld
  have hpart : (t.q q).startPart = (none, e, true) := by
    rw [ht, enterSucc_startPart hq _ _ _ _ _ (by rw [hvq]), hvq]
    rfl
  have hparked : State.parkedAt q t → t.qstate q = 9 ∧ (t.q q).body = none := fun hp => ⟨hp.state, hp.body⟩
  refine ⟨congrArg (·.1) hpart, congrArg (·.2.1) hpart, congrArg (·.2.2) hpart, fun hnone => hparked ?_, fun u hu => ⟨fun hpk => hparked ?_,
    fun hgo hready => ?_⟩⟩
  · rw [ht, hnone]
    exact parkAt_parkedAt q e goff false v
  · rw [ht, hu]
    exact enterSucc_parkedAt hpk q e goff [] 0 v
  · rw [ht, hu, enterSucc_of_ready hgo hready, ← hssn, ← hfresh]
    obtain ⟨hexec, -, hn⟩ := startBody_settles hq e u v
    exact ⟨hexec, hn⟩

end Sys2Proof.Machine
end

section
/-! The write of START (R77, R196, R335), for O32. -/

namespace Sys2Proof.Machine

/-! ### The write reaches its register -/

/-- From `s` to `t` a START is asked for and checked: packets and events are counted, and of the registers CTRL and the
ledger's findings may change. -/
structure State.asked (q : Nat) (s t : State) : Prop where
  frame : t = { s with regs := t.regs, copyB := t.copyB, copyC := t.copyC, hostRc := t.hostRc, spx1Rc := t.spx1Rc, evcs := t.evcs,
                       win := t.win, msgs := t.msgs, led := t.led, cycle := t.cycle }
  regs : s.regsKept [R.QSEQ_CTRL q, R.LEDG_FIRST, R.LEDG_L2_ADDR] t
  win : ∀ a, a < 0x47000 ∨ 0x47100 ≤ a → t.winGet a = s.winGet a

theorem State.asked_trans {q : Nat} {s t u : State} (h1 : s.asked q t) (h2 : t.asked q u) : s.asked q u where
  frame := by
    refine h2.frame.trans ?_
    conv_lhs => rw [h1.frame]
  regs := State.regsKept_trans h1.regs h2.regs
  win a ha := (h2.win a ha).trans (h1.win a ha)

theorem State.loadChecked.asked {s t : State} (h : s.loadChecked t) (q : Nat) : s.asked q t where
  frame := by
    conv_lhs => rw [h.frame]
    rw [h.frame]
  regs := State.regsKept_mono h.regs fun _ ha => List.mem_cons_of_mem _ ha
  win := h.win

section
variable {q : Nat} {s t : State} (h : s.asked q t)
include h

theorem State.asked.qs : t.qs = s.qs := by rw [h.frame]
theorem State.asked.chans : t.chans = s.chans := by rw [h.frame]
theorem State.asked.txns : t.txns = s.txns := by rw [h.frame]
theorem State.asked.pwr : t.pwr = s.pwr := by rw [h.frame]
theorem State.asked.now : t.now = s.now := by rw [h.frame]
theorem State.asked.memory : s.memoryKept t := ⟨by rw [h.frame], h.win⟩

theorem State.asked.seq (k : Nat) : t.q k = s.q k := q_of_qs h.qs k

theorem State.asked.sameLoad : s.sameLoad q t :=
  ⟨h.regs, by rw [h.frame], h.chans, fun a ha => h.win a (.inr ha)⟩

/-- What is neither CTRL nor a finding of the ledger reads the same. -/
theorem State.asked.fld {f : Fld} (hctrl : f.addr ≠ R.QSEQ_CTRL q) (hfirst : f.addr ≠ R.LEDG_FIRST) (haddr : f.addr ≠ R.LEDG_L2_ADDR) :
    t.fld f = s.fld f := by
  unfold State.fld
  rw [h.regs _ (by simp [hctrl, hfirst, haddr])]

/-- A register of quarter q's page beside CTRL reads the same. -/
theorem State.asked.pageFld {f : Fld} {k : Nat} (hf : f.addr = quarterBase q + k) (hk : 0 < k) : t.fld f = s.fld f := by
  apply h.fld <;> rw [hf] <;> simp only [R.QSEQ_CTRL, R.LEDG_FIRST, R.LEDG_L2_ADDR, quarterBase] <;> omega

/-- A register of the central page beside the ledger's findings reads the same. -/
theorem State.asked.centralFld {f : Fld} (ha : f.addr < 0x60000) : t.fld f = s.fld f := by
  apply h.fld <;> simp only [R.QSEQ_CTRL, R.LEDG_FIRST, R.LEDG_L2_ADDR, quarterBase] <;> omega

theorem State.asked.routeBad : t.routeBad q = s.routeBad q := by
  have hring : ∀ r, t.ring r = s.ring r := fun r => by
    unfold State.ring
    rw [h.frame]
  have hbin : t.fld (F.QRES_RT_BIN_RING q) = s.fld (F.QRES_RT_BIN_RING q) := by
    apply h.fld <;> simp only [F.QRES_RT_BIN_RING, R.QRES_RT_BIN, R.QSEQ_CTRL, R.LEDG_FIRST, R.LEDG_L2_ADDR, quarterBase] <;> omega
  have hctl : t.fld (F.QRES_RT_CTL_RING q) = s.fld (F.QRES_RT_CTL_RING q) := by
    apply h.fld <;> simp only [F.QRES_RT_CTL_RING, R.QRES_RT_CTL, R.QSEQ_CTRL, R.LEDG_FIRST, R.LEDG_L2_ADDR, quarterBase] <;> omega
  unfold State.routeBad
  rw [hring, hring, hbin, hctl]

end

/-- A write to quarter q's CTRL. -/
def startWr (m : Master) (q : Nat) (mask data : Word) (s : State) : Wr := ⟨m, R.QSEQ_CTRL q, mask, data, 65472, 63, granuleNext s.now⟩

/-- What the part has heard when a START write to quarter q's CTRL acts. -/
def startHeard (m : Master) (q : Nat) (mask data : Word) (s : State) : State :=
  (startWr m q mask data s).put (noteCycle m (R.QSEQ_CTRL q) (mask &&& 65472) (hostTlps m true s))

theorem State.eventsOnly.asked {s t : State} (h : s.eventsOnly t) (q : Nat) : s.asked q t where
  frame := by
    conv_lhs => rw [h.1]
    rw [h.1]
  regs a _ := h.reg a
  win := h.2

theorem put_asked {q : Nat} {w : Wr} (h : w.a = R.QSEQ_CTRL q) (s : State) : s.asked q (w.put s) where
  frame := by
    simp only [put_hostRc, put_spx1Rc, put_evcs, put_win, put_msgs, put_led, put_cycle]
    exact put_frame w s
  regs _ ha := put_reg_ne w s fun hw => ha (by simp [hw, h])
  win a _ := by rw [State.winGet, put_win, State.winGet]

theorem startHeard_asked (m : Master) (q : Nat) (mask data : Word) (s : State) : s.asked q (startHeard m q mask data s) := by
  have hnote : ∀ u : State, u.asked q (noteCycle m (R.QSEQ_CTRL q) (mask &&& 65472) u) := fun _ => ⟨rfl, fun _ _ => rfl, fun _ _ => rfl⟩
  exact State.asked_trans (State.asked_trans ((hostTlps_eventsOnly m true s).asked q) (hnote _)) (put_asked rfl _)

/-- A START write with its mask, data and start bit. -/
theorem busReg_start {m : Master} {q : Fin 16} {mask data : Word} {s : State} (h : s.Takes m (R.QSEQ_CTRL q.val))
    (hstart : mask &&& data &&& BitVec.ofNat 16 63 = 1) :
    busReg m (R.QSEQ_CTRL q.val) mask data s = qStartWrite q.val (startHeard m q.val mask data s) := by
  have hq := q.isLt
  have hrow := plainReg_row (plain_QSEQ_CTRL q)
  have ha : 0x100000 ≤ R.QSEQ_CTRL q.val := by
    unfold R.QSEQ_CTRL quarterBase
    omega
  rw [busReg_plain mask data (plain_QSEQ_CTRL q) h, applyReg_quarter mask data _ _ hrow ha]
  have hindex : (R.QSEQ_CTRL q.val - 0x100000) / 0x10000 = q.val := by
    unfold R.QSEQ_CTRL quarterBase
    omega
  have hoffset : R.QSEQ_CTRL q.val % 0x10000 = 0 := by
    unfold R.QSEQ_CTRL quarterBase
    omega
  unfold wrQuarter
  dsimp only
  rw [hindex, hoffset, if_pos (by decide)]
  unfold wrQseq Wr.start
  dsimp only
  rw [if_pos rfl, hstart]
  rfl

/-- START_MODE as a START leaves it: what it brings, or what stands. -/
def modeAfter (s : State) (q : Nat) (mode : Option (Fin 4)) : Nat :=
  match mode with
  | some k => k.val
  | none => s.fld (F.QSEQ_CTRL_START_MODE q)

def startMask (mode : Option (Fin 4)) : Word := if mode.isSome then 0xC1 else 1

def startData (mode : Option (Fin 4)) : Word := word (64 * (mode.getD 0).val + 1)

theorem startBits (mode : Option (Fin 4)) : startMask mode &&& startData mode &&& BitVec.ofNat 16 63 = 1 := by
  revert mode
  decide

/-- START_MODE after a write of it. -/
theorem fieldOf_mode_merge (x d : Word) : fieldOf ((x &&& ~~~0xC0) ||| (d &&& 0xC0)) 6 2 = fieldOf d 6 2 := by
  unfold fieldOf
  apply Nat.eq_of_testBit_eq
  intro i
  rw [Nat.testBit_mod_two_pow, Nat.testBit_mod_two_pow, Nat.testBit_div_two_pow, Nat.testBit_div_two_pow,
    BitVec.testBit_toNat, BitVec.testBit_toNat]
  by_cases hi : i < 2
  · interval_cases i <;> simp
  · simp [hi]

theorem startHeard_mode (m : Master) (q : Nat) (mode : Option (Fin 4)) (s : State) :
    (startHeard m q (startMask mode) (startData mode) s).fld (F.QSEQ_CTRL_START_MODE q) = modeAfter s q mode := by
  have brought : ∀ k : Fin 4, fieldOf (word (64 * k.val + 1)) 6 2 = k.val := by decide
  obtain ⟨u, hu⟩ : ∃ u, noteCycle m (R.QSEQ_CTRL q) (startMask mode &&& 65472) (hostTlps m true s) = u := ⟨_, rfl⟩
  have hreg : u.reg (R.QSEQ_CTRL q) = s.reg (R.QSEQ_CTRL q) := hu ▸ (hostTlps_eventsOnly m true s).reg _
  have hbits : ∀ k : Fin 4, startMask (some k) &&& BitVec.ofNat 16 65472 = 0xC0 := by decide
  unfold State.fld startHeard
  rw [hu, show (F.QSEQ_CTRL_START_MODE q).addr = R.QSEQ_CTRL q from rfl]
  cases mode with
  | none =>
    rw [put_regsKept (startWr m q (startMask none) (startData none) s) u (show startMask none &&& BitVec.ofNat 16 65472 = 0 by decide) _
      List.not_mem_nil, hreg]
    rfl
  | some k =>
    rw [put_reg, if_pos (show R.QSEQ_CTRL q = (startWr m q (startMask (some k)) (startData (some k)) s).a from rfl)]
    unfold Wr.value startWr
    dsimp only
    rw [hbits]
    exact (fieldOf_mode_merge (u.reg (R.QSEQ_CTRL q)) (word (64 * k.val + 1))).trans (brought k)

end Sys2Proof.Machine
end

section
/-! What an accepted START leaves (R77, R312), for O32. -/

namespace Sys2Proof.Machine

/-! ### The steps of an accepted START -/

/-- Stacks, latches and deferred jump are cleared. -/
def stacklessStart (q : Nat) (s : State) : State :=
  let s := setDefer q none (clearLatches q s)
  s.setQ q { s.q q with callStack := [], loopStack := [], stopReq := false, body := none, stall := none }

/-- PC shows the start address. -/
def clearedStart (q : Nat) (s : State) : State :=
  (showStack q (stacklessStart q s)).setFld (F.QSEQ_PC_PC q) (s.fld (F.QSEQ_START_ADDR_ADDR q))

/-- The segment number starts at 0 unless it is kept. -/
def numberedStart (q : Nat) (s : State) : State :=
  let keep := s.bit (F.QSEQ_CFG_SSN_KEEP q)
  let s := if keep then s else s.setSsn q 0
  s.setQ q { s.q q with ssnFresh := !keep }

/-- The quarter's other units start afresh. -/
def freshUnits (q : Nat) (s : State) : State :=
  let s := s.setM q { s.m q with lfsr := [] }
  ledgerStart q (resultsStart q
    (((s.setReg (R.QTS_CLIP_CNT q) 0).setReg (R.MEM_MIN_SLACK q) 0xFFFF).setReg (R.MEM_STAGE_PEAK q) 0))

/-- A part in HOLD runs (R329). -/
def freshStart (q : Nat) (s : State) : State :=
  let s := freshUnits q s
  if s.fld F.PWR_STAT_STATE = 1 then (s.setFld F.PWR_STAT_STATE 0).raise F.PWR_STAT_STATE_EVT else s

/-- The first word is selected and the start moment set. -/
def placedStart (q mode a : Nat) (s : State) : State :=
  let r := selectSucc q a a false [] s
  let s := r.1.setQ q { r.1.q q with
    first := r.2.map fun u => { u with ready := true }, startDue := if mode = 0 then some (granuleNext s.now) else none }
  if mode = 0 then (if s.qstate q = 9 then s.setQstate q 0 else s) else s.setQstate q 10

theorem armStart_eq (q : Nat) (s : State) : armStart q s =
    placedStart q (s.fld (F.QSEQ_CTRL_START_MODE q)) (s.fld (F.QSEQ_START_ADDR_ADDR q))
      (freshStart q (numberedStart q (clearedStart q s))) := by
  unfold armStart placedStart freshStart freshUnits numberedStart clearedStart stacklessStart
  rfl

/-! ### What they do -/

/-- The registers that an accepted START clears or sets. -/
def startRegs (q : Nat) : List Nat :=
  [R.QSEQ_FLAG q, R.QSEQ_DEFER q, R.QSEQ_STACK q, R.QSEQ_LOOP_L q, R.QSEQ_LOOP_H q, R.QSEQ_PC q, R.QSEQ_SSN_L q, R.QSEQ_SSN_H q]

/-- From `s` to `t` a START has been taken, but for its first word. -/
structure State.startReady (q : Nat) (s t : State) : Prop where
  calls : (t.q q).callStack = []
  loops : (t.q q).loopStack = []
  latch : (t.q q).latch = 0
  defer : t.reg (R.QSEQ_DEFER q) = 0
  pc : t.fld (F.QSEQ_PC_PC q) = s.fld (F.QSEQ_START_ADDR_ADDR q)
  ssn : t.ssn q = if s.bit (F.QSEQ_CFG_SSN_KEEP q) then s.ssn q else 0
  regs : ∀ a, seqPage q a → a ∉ startRegs q → t.reg a = s.reg a
  others : ∀ k, k ≠ q → t.q k = s.q k
  now : t.now = s.now
  win : ∀ a, 0x47100 ≤ a → t.winGet a = s.winGet a

theorem showStack_reg_ne {q a : Nat} (s : State) (h : a ∉ [R.QSEQ_STACK q, R.QSEQ_LOOP_L q, R.QSEQ_LOOP_H q]) :
    (showStack q s).reg a = s.reg a := by
  simp only [List.mem_cons, List.not_mem_nil, or_false, not_or] at h
  obtain ⟨hstack, hlow, hhigh⟩ := h
  unfold showStack
  dsimp only
  rw [State.reg_setReg_ne _ _ hhigh, State.reg_setReg_ne _ _ hlow, State.reg_setReg_ne _ _ hstack]

theorem stacklessStart_settles (q : Nat) (s : State) :
    let t := stacklessStart q s
    t.reg (R.QSEQ_DEFER q) = 0 ∧ s.regsKept [R.QSEQ_FLAG q, R.QSEQ_DEFER q] t ∧
      t.q q = { s.q q with latch := 0, callStack := [], loopStack := [], stopReq := false, body := none, stall := none } ∧
      (∀ k, k ≠ q → t.q k = s.q k) ∧ t.now = s.now ∧ t.win = s.win := by
  obtain ⟨d, hd⟩ : ∃ d, setDefer q none (clearLatches q s) = d := ⟨_, rfl⟩
  have hdq : d.q q = { s.q q with latch := 0 } := hd ▸ State.q_setQ_same _ _ _
  have hothers : ∀ k, k ≠ q → d.q k = s.q k := fun k hk => hd ▸ State.q_setQ_ne s _ hk
  have hdefer : d.reg (R.QSEQ_DEFER q) = 0 := hd ▸ State.reg_setReg_same _ _ _
  have hregs : s.regsKept [R.QSEQ_FLAG q, R.QSEQ_DEFER q] d := fun a ha => by
    simp only [List.mem_cons, List.not_mem_nil, or_false, not_or] at ha
    exact hd ▸ (State.reg_setReg_ne (clearLatches q s) 0 ha.2).trans (State.reg_setReg_ne _ _ ha.1)
  have hnow : d.now = s.now := hd ▸ rfl
  have hwin : d.win = s.win := hd ▸ rfl
  unfold stacklessStart
  dsimp only
  rw [hd]
  refine ⟨(State.setQ_acc_reg _ _ _ _).trans hdefer, fun a ha => (State.setQ_acc_reg _ _ _ _).trans (hregs a ha), ?_,
    fun k hk => (State.q_setQ_ne d _ hk).trans (hothers k hk), hnow, hwin⟩
  rw [State.q_setQ_same, hdq]

theorem clearedStart_reg {q a : Nat} (s : State) (h : a ∉ [R.QSEQ_STACK q, R.QSEQ_LOOP_L q, R.QSEQ_LOOP_H q, R.QSEQ_PC q]) :
    (clearedStart q s).reg a = (stacklessStart q s).reg a := by
  simp only [List.mem_cons, List.not_mem_nil, or_false, not_or] at h
  obtain ⟨hstack, hlow, hhigh, hpc⟩ := h
  exact (State.reg_setFld_ne _ (f := F.QSEQ_PC_PC q) _ hpc).trans (showStack_reg_ne _ (by simp [hstack, hlow, hhigh]))

theorem clearedStart_qs (q : Nat) (s : State) : (clearedStart q s).qs = (stacklessStart q s).qs := rfl

theorem showStack_frame (q : Nat) (s : State) : (showStack q s).now = s.now ∧ (showStack q s).win = s.win := by
  unfold showStack
  dsimp only
  simp only [State.setReg_now, State.setReg_win, and_self]

theorem clearedStart_frame (q : Nat) (s : State) :
    (clearedStart q s).now = (stacklessStart q s).now ∧ (clearedStart q s).win = (stacklessStart q s).win :=
  ⟨(State.setFld_now _ _ _).trans (showStack_frame q _).1, (State.setFld_win _ _ _).trans (showStack_frame q _).2⟩

theorem clearedStart_settles (q : Nat) (s : State) :
    let t := clearedStart q s
    t.reg (R.QSEQ_DEFER q) = 0 ∧ t.fld (F.QSEQ_PC_PC q) = s.fld (F.QSEQ_START_ADDR_ADDR q) ∧
      s.regsKept [R.QSEQ_FLAG q, R.QSEQ_DEFER q, R.QSEQ_STACK q, R.QSEQ_LOOP_L q, R.QSEQ_LOOP_H q, R.QSEQ_PC q] t := by
  obtain ⟨hdefer, hregs, -⟩ := stacklessStart_settles q s
  refine ⟨(clearedStart_reg s ?_).trans hdefer, ?_, fun a ha => ?_⟩
  · simp only [R.QSEQ_DEFER, R.QSEQ_STACK, R.QSEQ_LOOP_L, R.QSEQ_LOOP_H, R.QSEQ_PC, List.mem_cons, List.not_mem_nil, or_false, not_or]
    omega
  · exact (State.fld_setFld _ (F.QSEQ_PC_PC q) _ (show 0 + 14 ≤ 16 by decide)).trans
      (Nat.mod_eq_of_lt (State.fld_lt s (F.QSEQ_START_ADDR_ADDR q)))
  · simp only [List.mem_cons, List.not_mem_nil, or_false, not_or] at ha
    obtain ⟨hflag, hdefer', hstack, hlow, hhigh, hpc⟩ := ha
    exact (clearedStart_reg s (by simp [hstack, hlow, hhigh, hpc])).trans (hregs a (by simp [hflag, hdefer']))

theorem numberedStart_settles (q : Nat) (s : State) :
    let t := numberedStart q s
    t.ssn q = (if s.bit (F.QSEQ_CFG_SSN_KEEP q) then s.ssn q else 0) ∧ s.regsKept [R.QSEQ_SSN_L q, R.QSEQ_SSN_H q] t ∧
      t.q q = { s.q q with ssnFresh := !s.bit (F.QSEQ_CFG_SSN_KEEP q) } ∧ (∀ k, k ≠ q → t.q k = s.q k) ∧ t.now = s.now ∧
      t.win = s.win := by
  intro t
  have ht : t = numberedStart q s := rfl
  unfold numberedStart at ht
  dsimp only at ht
  rw [ht]
  split
  · next hk => exact ⟨rfl, fun _ _ => rfl, State.q_setQ_same _ _ _, fun k hk => State.q_setQ_ne _ _ hk, rfl, rfl⟩
  · next hk =>
    refine ⟨ssn_setSsn q s (by decide), fun a ha => ?_, State.q_setQ_same _ _ _, fun k hk => State.q_setQ_ne _ _ hk, rfl, rfl⟩
    simp only [List.mem_cons, List.not_mem_nil, or_false, not_or] at ha
    exact (State.reg_setReg_ne _ _ ha.2).trans (State.reg_setReg_ne _ _ ha.1)

theorem freshUnits_rests (q : Nat) (s : State) : s.rests q (freshUnits q s) := by
  have hset : ∀ (u : State) (a : Nat) (v : Word), ¬seqPage q a → u.rests q (u.setReg a v) := fun u a v ha => setReg_rests u v ha
  have hclip : ¬seqPage q (R.QTS_CLIP_CNT q) := timing_off_page (n := q) (k := 0x100C) (by decide) (by decide)
  have hslack : ¬seqPage q (R.MEM_MIN_SLACK q) := by
    unfold seqPage quarterBase R.MEM_MIN_SLACK
    omega
  have hpeak : ¬seqPage q (R.MEM_STAGE_PEAK q) := by
    unfold seqPage quarterBase R.MEM_STAGE_PEAK
    omega
  unfold freshUnits
  exact State.rests_trans (State.rests_trans (State.rests_trans (State.rests_trans (State.rests_trans (setM_rests s _ _)
    (hset _ _ _ hclip)) (hset _ _ _ hslack)) (hset _ _ _ hpeak)) (resultsStart_rests q _)) (ledgerStart_rests q q _)

theorem freshStart_rests (q : Nat) (s : State) : s.rests q (freshStart q s) := by
  refine State.rests_trans (freshUnits_rests q s) (ite_rests _ (State.rests_trans (setFld_rests _ _ ?_) (raise_rests _ _)) (State.rests_refl q _))
  exact central_off_page (by decide)

theorem seqPage_offset {q k : Nat} (hk : k < 0x100) : seqPage q (quarterBase q + k) := by
  unfold seqPage
  omega

theorem startReady_of_steps (q : Nat) (s : State) : s.startReady q (freshStart q (numberedStart q (clearedStart q s))) := by
  obtain ⟨-, -, hq, hothers, hnow, hwin⟩ := stacklessStart_settles q s
  obtain ⟨hdefer, hpc, hregs⟩ := clearedStart_settles q s
  obtain ⟨hssn, hregs', hq', hothers', hnow', hwin'⟩ := numberedStart_settles q (clearedStart q s)
  have hrest := freshStart_rests q (numberedStart q (clearedStart q s))
  have hclear : (clearedStart q s).q q = _ := (q_of_qs (clearedStart_qs q s) q).trans hq
  obtain ⟨c, hc⟩ : ∃ c, clearedStart q s = c := ⟨_, rfl⟩
  have hcnow : c.now = s.now := hc ▸ (clearedStart_frame q s).1.trans hnow
  have hcwin : c.win = s.win := hc ▸ (clearedStart_frame q s).2.trans hwin
  have hcothers : ∀ k, k ≠ q → c.q k = s.q k := fun k hk => hc ▸ (q_of_qs (clearedStart_qs q s) k).trans (hothers k hk)
  rw [hc] at hdefer hpc hregs hssn hregs' hq' hothers' hnow' hwin' hrest hclear
  rw [hc]
  generalize numberedStart q c = n at *
  generalize freshStart q n = z at *
  have hreg : ∀ a, seqPage q a → a ∉ startRegs q → z.reg a = s.reg a := fun a ha hl => by
    simp only [startRegs, List.mem_cons, List.not_mem_nil, or_false, not_or] at hl
    obtain ⟨hflag, hdef, hstack, hlow, hhigh, hpcr, hsl, hsh⟩ := hl
    exact (hrest.page a ha).trans ((hregs' a (by simp [hsl, hsh])).trans (hregs a (by simp [hflag, hdef, hstack, hlow, hhigh, hpcr])))
  have hkeep : c.bit (F.QSEQ_CFG_SSN_KEEP q) = s.bit (F.QSEQ_CFG_SSN_KEEP q) := by
    unfold State.bit State.fld
    rw [hregs _ (by
      simp only [F.QSEQ_CFG_SSN_KEEP, R.QSEQ_CFG, R.QSEQ_FLAG, R.QSEQ_DEFER, R.QSEQ_STACK, R.QSEQ_LOOP_L, R.QSEQ_LOOP_H, R.QSEQ_PC,
        List.mem_cons, List.not_mem_nil, or_false, not_or]
      omega)]
  have hcssn : c.ssn q = s.ssn q := by
    refine ssn_congr (hregs _ ?_) (hregs _ ?_) <;>
    · simp only [R.QSEQ_SSN_L, R.QSEQ_SSN_H, R.QSEQ_FLAG, R.QSEQ_DEFER, R.QSEQ_STACK, R.QSEQ_LOOP_L, R.QSEQ_LOOP_H, R.QSEQ_PC,
        List.mem_cons, List.not_mem_nil, or_false, not_or]
      omega
  exact {
    calls := by rw [hrest.q, hq', hclear]
    loops := by rw [hrest.q, hq', hclear]
    latch := by rw [hrest.q, hq', hclear]
    defer := (hrest.page _ (seqPage_offset (k := 0x34) (by decide))).trans ((hregs' _ (by
        simp only [R.QSEQ_SSN_L, R.QSEQ_SSN_H, List.mem_cons, List.not_mem_nil, or_false, not_or]
        omega)).trans hdefer)
    pc := by
      rw [hrest.fld (f := F.QSEQ_PC_PC q) (seqPage_offset (k := 0x10) (by decide)), ← hpc]
      unfold State.fld
      rw [hregs' _ (by
        simp only [F.QSEQ_PC_PC, R.QSEQ_PC, R.QSEQ_SSN_L, R.QSEQ_SSN_H, List.mem_cons, List.not_mem_nil, or_false, not_or]
        omega)]
    ssn := by rw [hrest.ssn, hssn, hkeep, hcssn]
    regs := hreg
    others := fun k hk => (hrest.q k).trans ((hothers' k hk).trans (hcothers k hk))
    now := hrest.now.trans (hnow'.trans hcnow)
    win := fun a ha => (hrest.win a ha).trans (by rw [State.winGet, hwin', hcwin]; rfl) }

/-! ### The first word -/

/-- A quarter whose first word is selected waits for its start moment, or for its start. -/
def stateEntered (q mode : Nat) (s : State) : State :=
  if mode = 0 then (if s.qstate q = 9 then s.setQstate q 0 else s) else s.setQstate q 10

theorem stateEntered_settles (q mode : Nat) (s : State) :
    let t := stateEntered q mode s
    t.qs = s.qs ∧ (∀ a, a ≠ R.QSEQ_STAT q → t.reg a = s.reg a) ∧
      t.qstate q = if mode = 0 then (if s.qstate q = 9 then 0 else s.qstate q) else 10 := by
  obtain ⟨-, hqs, hstate, hregs, -⟩ := setQstate_settles q 0 s (by decide)
  obtain ⟨-, hqs', hstate', hregs', -⟩ := setQstate_settles q 10 s (by decide)
  unfold stateEntered
  split
  · split
    · exact ⟨hqs, hregs, hstate⟩
    · exact ⟨rfl, fun _ _ => rfl, rfl⟩
  · exact ⟨hqs', hregs', hstate'⟩

theorem checkReg_off_page {q b : Nat} (hb : seqPage q b) (hpc : b ≠ R.QSEQ_FAULT_PC q) : b ∉ checkRegs q := by
  simp only [checkRegs, F.QSEQ_FAULT_PC_FAULT_PC, F.MEM_ERR_SEG_L_SEG_L, F.MEM_ERR_SEG_H_SEG_H, R.QTS_ERR_TS, R.MEM_ERR_SEG_L, R.MEM_ERR_SEG_H,
    List.mem_cons, List.not_mem_nil, or_false, not_or]
  unfold seqPage quarterBase at hb
  unfold quarterBase
  exact ⟨hpc, by omega, by omega, by omega⟩

theorem placedStart_settles (q mode a : Nat) (s : State) :
    let t := placedStart q mode a s
    (t.q q).callStack = (s.q q).callStack ∧ (t.q q).loopStack = (s.q q).loopStack ∧ (t.q q).latch = (s.q q).latch ∧
      (∀ k, k ≠ q → t.q k = s.q k) ∧
      (∀ b, seqPage q b → b ≠ R.QSEQ_STAT q → b ≠ R.QSEQ_FAULT_PC q → t.reg b = s.reg b) ∧
      (t.q q).startDue = (if mode = 0 then some (granuleNext s.now) else none) ∧
      t.qstate q = (if mode = 0 then (if s.qstate q = 9 then 0 else s.qstate q) else 10) ∧
      (s.plainWord q a → ∃ u, (t.q q).first = some u ∧ u.addr = a ∧ u.park = false ∧ u.ready = true) := by
  have hsel := selectSucc_selects q a a false [] s
  obtain ⟨⟨r, o⟩, hr⟩ : ∃ r, selectSucc q a a false [] s = r := ⟨_, rfl⟩
  rw [hr] at hsel
  dsimp only at hsel
  have hchecks := hsel.checks
  have hcalls : (r.q q).callStack = (s.q q).callStack := by rw [hchecks.seq]
  have hloops : (r.q q).loopStack = (s.q q).loopStack := by rw [hchecks.seq]
  have hlatch : (r.q q).latch = (s.q q).latch := by rw [hchecks.seq]
  obtain ⟨x, hx⟩ : ∃ x : QSeq, { r.q q with
    first := o.map fun u => { u with ready := true }, startDue := if mode = 0 then some (granuleNext s.now) else none } = x := ⟨_, rfl⟩
  obtain ⟨hqs, hregs, hstate⟩ := stateEntered_settles q mode (r.setQ q x)
  have hplaced : placedStart q mode a s = stateEntered q mode (r.setQ q x) := by
    unfold placedStart
    rw [hr, ← hx]
    rfl
  have hseq : (placedStart q mode a s).q q = x := by
    rw [hplaced]
    exact (q_of_qs hqs q).trans (State.q_setQ_same _ _ _)
  have hreg : ∀ b, seqPage q b → b ≠ R.QSEQ_FAULT_PC q → (r.setQ q x).reg b = s.reg b := fun b hb hpc =>
    (State.setQ_acc_reg _ _ _ _).trans (hchecks.regs b (checkReg_off_page hb hpc))
  have hqstate : (r.setQ q x).qstate q = s.qstate q := by
    unfold State.qstate State.fld
    rw [hreg (F.QSEQ_STAT_STATE q).addr (seqPage_offset (k := 0xC) (by decide))
      (by simp only [F.QSEQ_STAT_STATE, R.QSEQ_STAT, R.QSEQ_FAULT_PC]; omega)]
  intro t
  refine ⟨?_, ?_, ?_, fun k hk => ?_, fun b hb hstat hpc => ?_, ?_, ?_, fun hp => ?_⟩
  · rw [hseq, ← hx]
    exact hcalls
  · rw [hseq, ← hx]
    exact hloops
  · rw [hseq, ← hx]
    exact hlatch
  · rw [show t = _ from hplaced]
    exact (q_of_qs hqs k).trans ((State.q_setQ_ne _ _ hk).trans (hchecks.others k hk))
  · rw [show t = _ from hplaced]
    exact (hregs b hstat).trans (hreg b hb hpc)
  · rw [hseq, ← hx]
  · rw [show t = _ from hplaced, hstate, hqstate]
  · obtain ⟨-, v, hv, haddr, hpark, -⟩ := hsel.plain hp
    refine ⟨{ v with ready := true }, ?_, haddr, hpark, rfl⟩
    rw [hseq, ← hx, hv]
    rfl

/-! ### The whole of it -/

theorem State.startReady.plainWord {q a : Nat} {s t : State} (h : s.startReady q t) (hp : s.plainWord q a) : t.plainWord q a := by
  have hword : t.csWord q a = s.csWord q a := by
    have hdword : ∀ j, t.winGet (csAddr q a + j) = s.winGet (csAddr q a + j) := fun j => h.win _ (by unfold csAddr; omega)
    unfold State.csWord
    simp only [hdword]
  unfold State.plainWord
  rw [hword]
  exact hp

/-- An accepted START (R77, R312). -/
theorem armStart_settles (q : Nat) (s : State) :
    let t := armStart q s
    let mode := s.fld (F.QSEQ_CTRL_START_MODE q)
    let a := s.fld (F.QSEQ_START_ADDR_ADDR q)
    (∀ k, k ≠ q → t.q k = s.q k) ∧ t.fld (F.QSEQ_CTRL_START_MODE q) = mode ∧
      (t.q q).callStack = [] ∧ (t.q q).loopStack = [] ∧ (t.q q).latch = 0 ∧ t.deferred q = none ∧ t.fld (F.QSEQ_PC_PC q) = a ∧
      t.ssn q = (if s.bit (F.QSEQ_CFG_SSN_KEEP q) then s.ssn q else 0) ∧
      (t.q q).startDue = (if mode = 0 then some (granuleNext s.now) else none) ∧
      t.qstate q = (if mode = 0 then (if s.qstate q = 9 then 0 else s.qstate q) else 10) ∧
      (s.plainWord q a → ∃ u, (t.q q).first = some u ∧ u.addr = a ∧ u.park = false ∧ u.ready = true) := by
  have hready := startReady_of_steps q s
  obtain ⟨z, hz⟩ : ∃ z, freshStart q (numberedStart q (clearedStart q s)) = z := ⟨_, rfl⟩
  rw [hz] at hready
  obtain ⟨hcalls, hloops, hlatch, hothers, hpage, hdue, hstate, hfirst⟩ :=
    placedStart_settles q (s.fld (F.QSEQ_CTRL_START_MODE q)) (s.fld (F.QSEQ_START_ADDR_ADDR q)) z
  have heq : armStart q s = placedStart q (s.fld (F.QSEQ_CTRL_START_MODE q)) (s.fld (F.QSEQ_START_ADDR_ADDR q)) z := hz ▸ armStart_eq q s
  have hqstate : z.qstate q = s.qstate q := by
    unfold State.qstate State.fld
    rw [hready.regs (F.QSEQ_STAT_STATE q).addr (seqPage_offset (k := 0xC) (by decide)) (by
      simp only [startRegs, F.QSEQ_STAT_STATE, R.QSEQ_STAT, R.QSEQ_FLAG, R.QSEQ_DEFER, R.QSEQ_STACK, R.QSEQ_LOOP_L, R.QSEQ_LOOP_H, R.QSEQ_PC,
        R.QSEQ_SSN_L, R.QSEQ_SSN_H, List.mem_cons, List.not_mem_nil, or_false, not_or]
      omega)]
  have hkept : ∀ k, k < 0x100 → k ≠ 0xC → k ≠ 0x5C →
      (placedStart q (s.fld (F.QSEQ_CTRL_START_MODE q)) (s.fld (F.QSEQ_START_ADDR_ADDR q)) z).reg (quarterBase q + k) = z.reg (quarterBase q + k) :=
    fun k hk hstat hpc => hpage _ (seqPage_offset hk) (by unfold R.QSEQ_STAT; omega) (by unfold R.QSEQ_FAULT_PC; omega)
  dsimp only
  rw [heq]
  refine ⟨fun k hk => (hothers k hk).trans (hready.others k hk), ?_, hcalls.trans hready.calls, hloops.trans hready.loops,
    hlatch.trans hready.latch, ?_, ?_, ?_, by rw [hdue, hready.now], by rw [hstate, hqstate], fun hp => hfirst (hready.plainWord hp)⟩
  · have hctrl : z.reg (R.QSEQ_CTRL q) = s.reg (R.QSEQ_CTRL q) := hready.regs _ (seqPage_offset (k := 0) (by decide)) (by
      simp only [startRegs, R.QSEQ_CTRL, R.QSEQ_FLAG, R.QSEQ_DEFER, R.QSEQ_STACK, R.QSEQ_LOOP_L, R.QSEQ_LOOP_H, R.QSEQ_PC,
        R.QSEQ_SSN_L, R.QSEQ_SSN_H, List.mem_cons, List.not_mem_nil, or_false, not_or]
      omega)
    exact congrArg (fieldOf · 6 2) ((hkept 0 (by decide) (by decide) (by decide)).trans hctrl)
  · exact deferred_of_clear ((hkept 0x34 (by decide) (by decide) (by decide)).trans hready.defer)
  · exact (congrArg (fieldOf · 0 14) (hkept 0x10 (by decide) (by decide) (by decide))).trans hready.pc
  · rw [← hready.ssn]
    exact ssn_congr (hkept 0x14 (by decide) (by decide) (by decide)) (hkept 0x18 (by decide) (by decide) (by decide))

end Sys2Proof.Machine
end

section
/-! START and its moment (R77, R79, R196, R230, R312, R335), and O32. -/

namespace Sys2Proof.Machine

/-- What has to hold for a START to be accepted, but for the rings (R77). -/
def State.startFree (s : State) (q mode : Nat) : Prop :=
  s.stopped q = true ∧ s.quarterFault q = false ∧ s.chipFault = false ∧ mode ≠ 3 ∧
    (s.q q).startDue = none ∧ s.fld F.CLK_STAT_CORE_ACT = 2 ∧ (loadChecks s).2 = true

/-! ### The decision, on a state that has heard and checked the START -/

section
variable {q : Nat} {s v : State} (h : s.asked q v)
include h

theorem State.asked.raised (f : Fld) : s.asked q (v.raise f) := State.asked_trans h ((raise_eventsOnly v f).asked q)

theorem State.asked.startAllowed (hq : q < 16) : ((loadChecks s).2 && v.startAllowed q) = true ↔
    s.startFree q (v.fld (F.QSEQ_CTRL_START_MODE q)) := by
  have hstate : v.qstate q = s.qstate q := h.pageFld (k := 0xC) rfl (by decide)
  have hfault : v.fld (F.FLT_QST_FAULT q) = s.fld (F.FLT_QST_FAULT q) := h.centralFld (by unfold F.FLT_QST_FAULT R.FLT_QST; dsimp only; omega)
  have hchip : v.fld F.FLT_CHIPST_FATAL = s.fld F.FLT_CHIPST_FATAL := h.centralFld (by decide)
  have hcore : v.fld F.CLK_STAT_CORE_ACT = s.fld F.CLK_STAT_CORE_ACT := h.centralFld (by decide)
  unfold State.startFree State.startAllowed State.stopped State.quarterFault State.chipFault State.bit
  rw [hstate, hfault, hchip, hcore, h.seq]
  simp only [Bool.and_eq_true, Bool.not_eq_true', decide_eq_true_eq, Option.isNone_iff_eq_none, and_assoc]
  tauto

end

theorem qStart_of_accepted {q : Nat} {v : State} {checked : Bool} (h : (checked && v.startAllowed q) = true) (hroute : v.routeBad q = false) :
    qStart q checked v = armStart q v := by
  unfold qStart
  dsimp only
  rw [if_pos (by rw [h, hroute]; rfl)]

theorem qStart_of_refused {q : Nat} {v : State} {checked : Bool} (h : ¬((checked && v.startAllowed q) = true ∧ v.routeBad q = false)) :
    qStart q checked v = (if v.routeBad q then v.raise (F.QRES_STAT_ROUTE_ERR q) else v).raise (F.QSEQ_STAT_START_REFUSED q) := by
  unfold qStart
  dsimp only
  rw [if_neg (by simpa using h)]

/-- A refused START leaves the sequencer, the channels, the transactions and the memory. -/
theorem qStart_refused_settles {q : Nat} {s v : State} {checked : Bool} (h : s.asked q v)
    (hno : ¬((checked && v.startAllowed q) = true ∧ v.routeBad q = false)) :
    s.asked q (qStart q checked v) ∧ (qStart q checked v).flagged (F.QSEQ_STAT_START_REFUSED q) ∧
      (v.routeBad q = true → (qStart q checked v).flagged (F.QRES_STAT_ROUTE_ERR q)) ∧ ∀ f, (qStart q checked v).fld f = v.fld f := by
  rw [qStart_of_refused hno]
  split
  · next hroute =>
    exact ⟨(h.raised _).raised _, raise_flagged _ _, fun _ => (raise_rcGrows _ _).flagged (raise_flagged v _),
      fun f => (State.raise_acc_fld _ _ f).trans (State.raise_acc_fld _ _ f)⟩
  · next hroute => exact ⟨h.raised _, raise_flagged _ _, fun hr => absurd hr hroute, fun f => State.raise_acc_fld _ _ f⟩

/-! ### While the quarter's levels settle (R335) -/

/-- A START that waits for the quarter's levels. -/
def pended (q : Nat) (s : State) : State := { s with pwr := { s.pwr with pendStart := s.pwr.pendStart ++ [q] } }

theorem qStartWrite_eq (q : Nat) (s : State) : qStartWrite q s =
    let v := (loadChecks s).1
    if !(v.reg R.PWR_QSETTLE).getLsbD q then qStart q (loadChecks s).2 v
    else if !(loadChecks s).2 || v.pwr.pendStart.contains q then v.raise (F.QSEQ_STAT_START_REFUSED q)
    else pended q v := rfl

/-- The START write of master m, as it stands after the load checks. -/
def checkedStart (m : Master) (q : Nat) (mode : Option (Fin 4)) (s : State) : State :=
  (loadChecks (startHeard m q (startMask mode) (startData mode) s)).1

theorem checkedStart_settles (m : Master) (q : Nat) (mode : Option (Fin 4)) (s : State) :
    s.asked q (checkedStart m q mode s) ∧ (checkedStart m q mode s).fld (F.QSEQ_CTRL_START_MODE q) = modeAfter s q mode ∧
      (loadChecks (startHeard m q (startMask mode) (startData mode) s)).2 = (loadChecks s).2 := by
  have hheard := startHeard_asked m q (startMask mode) (startData mode) s
  obtain ⟨hchecked, -⟩ := loadChecks_settles (startHeard m q (startMask mode) (startData mode) s)
  refine ⟨State.asked_trans hheard (hchecked.asked q), ?_, loadChecks_congr hheard.sameLoad⟩
  rw [← startHeard_mode m q mode s]
  unfold State.fld checkedStart
  rw [hchecked.regs _ (by
    simp only [F.QSEQ_CTRL_START_MODE, R.QSEQ_CTRL, R.LEDG_FIRST, R.LEDG_L2_ADDR, quarterBase, List.mem_cons, List.not_mem_nil, or_false, not_or]
    omega)]

theorem execQseqStart_eq {m : Master} {q : Fin 16} {s : State} (mode : Option (Fin 4)) (h : s.Takes m (R.QSEQ_CTRL q.val)) :
    let v := checkedStart m q.val mode s
    busReg m (R.QSEQ_CTRL q.val) (startMask mode) (startData mode) s =
      if !(v.reg R.PWR_QSETTLE).getLsbD q.val then qStart q.val (loadChecks s).2 v
      else if !(loadChecks s).2 || v.pwr.pendStart.contains q.val then v.raise (F.QSEQ_STAT_START_REFUSED q.val)
      else pended q.val v := by
  obtain ⟨-, -, hok⟩ := checkedStart_settles m q.val mode s
  rw [busReg_start h (startBits mode), qStartWrite_eq, hok]
  rfl

/-- While the levels settle a START that passes waits, and another is refused. -/
theorem settling_settles {q mode : Nat} {s v : State} (h : s.asked q v) (hmode : v.fld (F.QSEQ_CTRL_START_MODE q) = mode) (ok : Bool) :
    let t := if !ok || v.pwr.pendStart.contains q then v.raise (F.QSEQ_STAT_START_REFUSED q) else pended q v
    t.fld (F.QSEQ_CTRL_START_MODE q) = mode ∧ (∀ k, k ≠ q → t.q k = s.q k) ∧ t.qs = s.qs ∧
      if ok = true ∧ s.pwr.pendStart.contains q = false then t.pwr.pendStart = s.pwr.pendStart ++ [q]
      else t.flagged (F.QSEQ_STAT_START_REFUSED q) ∧ t.pwr = s.pwr := by
  have hraised := h.raised (F.QSEQ_STAT_START_REFUSED q)
  rw [h.pwr]
  dsimp only
  have hrefused : ∀ a c : Bool, (!a || c) = true ↔ ¬(a = true ∧ c = false) := by decide
  have hpend : v.pwr.pendStart = s.pwr.pendStart := congrArg Pwr.pendStart h.pwr
  by_cases hwait : ok = true ∧ s.pwr.pendStart.contains q = false
  · rw [if_pos hwait, if_neg (fun hr => (hrefused _ _).1 hr hwait)]
    exact ⟨hmode, fun k _ => h.seq k, h.qs, congrArg (· ++ [q]) hpend⟩
  · rw [if_neg hwait, if_pos ((hrefused _ _).2 hwait)]
    exact ⟨(State.raise_acc_fld _ _ _).trans hmode, fun k _ => hraised.seq k, hraised.qs, raise_flagged _ _, hraised.pwr⟩

/-- What an accepted START leaves, in the terms of the state that the write found. -/
theorem accepted_settles {q : Nat} {s v : State} (h : s.asked q v) :
    let t := armStart q v
    let mode := v.fld (F.QSEQ_CTRL_START_MODE q)
    let a := s.fld (F.QSEQ_START_ADDR_ADDR q)
    (∀ k, k ≠ q → t.q k = s.q k) ∧ t.fld (F.QSEQ_CTRL_START_MODE q) = mode ∧
      (t.q q).callStack = [] ∧ (t.q q).loopStack = [] ∧ (t.q q).latch = 0 ∧ t.deferred q = none ∧ t.fld (F.QSEQ_PC_PC q) = a ∧
      (s.bit (F.QSEQ_CFG_SSN_KEEP q) = false → t.ssn q = 0) ∧ (s.bit (F.QSEQ_CFG_SSN_KEEP q) = true → t.ssn q = s.ssn q) ∧
      (if mode = 0 then (t.q q).startDue = some (granuleNext s.now) ∧ t.qstate q = (if s.qstate q = 9 then 0 else s.qstate q)
        else t.qstate q = 10 ∧ (t.q q).startDue = none) ∧
      (s.plainWord q a → ∃ u, (t.q q).first = some u ∧ u.addr = a ∧ u.park = false ∧ u.ready = true) := by
  obtain ⟨hothers, hmode, hcalls, hloops, hlatch, hdefer, hpc, hssn, hdue, hstate, hfirst⟩ := armStart_settles q v
  have haddr : v.fld (F.QSEQ_START_ADDR_ADDR q) = s.fld (F.QSEQ_START_ADDR_ADDR q) := h.pageFld (k := 4) rfl (by decide)
  have hkeep : v.bit (F.QSEQ_CFG_SSN_KEEP q) = s.bit (F.QSEQ_CFG_SSN_KEEP q) :=
    congrArg (· != 0) (h.pageFld (f := F.QSEQ_CFG_SSN_KEEP q) (k := 0x1C) rfl (by decide))
  have hqstate : v.qstate q = s.qstate q := h.pageFld (k := 0xC) rfl (by decide)
  have hvssn : v.ssn q = s.ssn q := by
    refine ssn_congr (h.regs _ ?_) (h.regs _ ?_) <;>
    · simp only [R.QSEQ_SSN_L, R.QSEQ_SSN_H, R.QSEQ_CTRL, R.LEDG_FIRST, R.LEDG_L2_ADDR, quarterBase, List.mem_cons, List.not_mem_nil,
        or_false, not_or]
      omega
  have hword : v.csWord q (s.fld (F.QSEQ_START_ADDR_ADDR q)) = s.csWord q (s.fld (F.QSEQ_START_ADDR_ADDR q)) := h.sameLoad.csWord q _
  rw [haddr] at hpc hfirst
  rw [hkeep, hvssn] at hssn
  rw [hqstate] at hstate
  rw [h.now] at hdue
  refine ⟨fun k hk => (hothers k hk).trans (h.seq k), hmode, hcalls, hloops, hlatch, hdefer, hpc, fun hk => ?_, fun hk => ?_, ?_,
    fun hp => hfirst ?_⟩
  · rw [hssn, hk]
    rfl
  · rw [hssn, hk]
    rfl
  · split
    · next h0 =>
      rw [if_pos h0] at hdue hstate
      exact ⟨hdue, hstate⟩
    · next h0 =>
      rw [if_neg h0] at hdue hstate
      exact ⟨hstate, hdue⟩
  · unfold State.plainWord
    rw [hword]
    exact hp

/-- Settles O32: a START by what its checks find, its moment by whether it has come. -/
theorem starting : Obligations.Starting := by
  unfold Obligations.Starting
  intro s m q
  refine ⟨fun mode htakes => ?write, fun hdue => congrArg Host.Outcome.next (startMoment_of_none hdue), fun e hdue =>
    ⟨fun hw => congrArg Host.Outcome.next (startMoment_of_waiting hdue hw), fun hnow hheld =>
      ⟨_, rfl, startMoment_settles q.isLt hdue hnow hheld⟩⟩⟩
  case write =>
    intro md allowed
    obtain ⟨v, hv⟩ : ∃ v, checkedStart m q mode s = v := ⟨_, rfl⟩
    obtain ⟨hasked, hmode, -⟩ := checkedStart_settles m q mode s
    have hmd : md = modeAfter s q mode := by cases mode <;> rfl
    have ht := execQseqStart_eq mode htakes
    dsimp only at ht
    rw [hv] at hasked hmode ht
    rw [← hmd] at hmode
    have hsettle : v.reg R.PWR_QSETTLE = s.reg R.PWR_QSETTLE := hasked.sameLoad.reg (by decide) (by decide) (by decide)
    have hallowed : ((loadChecks s).2 && v.startAllowed q) = true ↔ allowed := by
      rw [hasked.startAllowed q.isLt, hmode]
      exact Iff.rfl
    rw [hsettle] at ht
    refine ⟨busReg m (R.QSEQ_CTRL q) (startMask mode) (startData mode) s, rfl, ?_⟩
    rw [ht]
    have hroute := hasked.routeBad
    cases hsettling : (s.reg R.PWR_QSETTLE).getLsbD q.val with
    | true =>
      have hpending := settling_settles (mode := md) hasked hmode (loadChecks s).2
      exact ⟨hpending.1, hpending.2.1, fun _ => hpending.2.2, nofun, nofun⟩
    | false =>
      by_cases hgo : ((loadChecks s).2 && v.startAllowed q) = true ∧ v.routeBad q = false
      · obtain ⟨hothers, hmode', haccepted⟩ := accepted_settles hasked
        rw [show (!false) = true from rfl, if_pos rfl, qStart_of_accepted hgo.1 hgo.2]
        rw [hmode] at hmode' haccepted
        refine ⟨hmode', hothers, nofun, fun _ hno => absurd ⟨hallowed.1 hgo.1, hroute ▸ hgo.2⟩ hno, fun _ _ _ => haccepted⟩
      · obtain ⟨hkept, hflag, herr, hfld⟩ := qStart_refused_settles hasked hgo
        refine ⟨(hfld _).trans hmode, fun k _ => hkept.seq k, nofun,
          fun _ _ => ⟨hflag, fun hbad => herr (hroute.trans hbad), hkept.qs, hkept.chans, hkept.txns, hkept.memory⟩,
          fun _ hmay hfree => absurd ⟨hallowed.2 hmay, hroute.trans hfree⟩ hgo⟩

end Sys2Proof.Machine
end
